-- ==== Sys2Proof/Word.lean ====
section
/-! DEFINITION. The words of the package: registers are 32 bits (R6), bytes are 8. -/
namespace Sys2Proof

/-- A byte. -/
abbrev Byte := BitVec 8

/-- A 32-bit word: a register (R6), a scalar register (R86), a SECDED data word (R185). -/
abbrev Word := BitVec 32

/-- A 64-bit word: an instruction word (R96), a global address (R22), a descriptor word (R143). -/
abbrev DWord := BitVec 64

end Sys2Proof
end

