-- ==== Sys2Proof/Syntax.lean ====
section
/-! DEFINITION. The commands of the block: one constructor per row of spec/opcode_table.json, with the operands the
rules give each step. A tile, scalar, stream or collective instruction carries the bits [55:0] of its base word
(R96: bits [63:56] are the opcode, which the constructor names) and, where its layout defines one, its extension
word; a queue command carries the header and payload words of its 64-byte slot (R152, R153); a register action
carries its requester (R373); an event of the silicon, of a pin or of a link carries what arrives with it. -/
namespace Sys2Proof

/-- A physical engine of the package (R5): die, cluster and engine. -/
structure Pos where
  die : Fin 4
  cl : Fin 24
  eng : Fin 17
  deriving DecidableEq, Repr

/-- A logical engine slot (R53): die, cluster and logical slot. Transfer slots and collective slots are held per
logical slot (R332). -/
structure LPos where
  die : Fin 4
  cl : Fin 24
  slot : Fin 16
  deriving DecidableEq, Repr

/-- A cluster (R19). -/
structure Clu where
  die : Fin 4
  cl : Fin 24
  deriving DecidableEq, Repr

/-- One of the four task contexts of a physical engine's sequencer (R52, R129). -/
structure Cx where
  pos : Pos
  ctx : Fin 4
  deriving DecidableEq, Repr

/-- The three instruction queues of an engine (R90). -/
inductive Unit3 where
  | a | b | v
  deriving DecidableEq, Repr

/-- The requesters of a register access (R373). `engine` stands for engine streams, LDS and STS. -/
inductive Req where
  | armature | host | mgmt | cheval | engine
  deriving DecidableEq, Repr

/-- A 32-bit data word with its poison mark (R187). -/
structure MWord where
  v : BitVec 32
  p : Bool
  deriving DecidableEq, Repr

/-- Bytes 8 to 63 of a command slot, as seven little-endian 64-bit words (R152). -/
structure Payload where
  w1 : BitVec 64
  w2 : BitVec 64
  w3 : BitVec 64
  w4 : BitVec 64
  w5 : BitVec 64
  w6 : BitVec 64
  w7 : BitVec 64
  deriving DecidableEq, Repr

/-- A collective data slot (R255): group, instance, sending package, first element, elements minus 1, and the data
words, two 16-bit elements a word. -/
structure CSlot where
  group : BitVec 16
  inst : BitVec 16
  src : BitVec 16
  ofs : BitVec 48
  len : BitVec 16
  data : List MWord
  deriving DecidableEq, Repr

/-- A collective statistics slot (R255, R256): XLOC sums going up, or XSUM going down. -/
structure StatSlot where
  down : Bool
  group : BitVec 16
  inst : BitVec 16
  src : BitVec 16
  sum : BitVec 576
  nonfin : Bool
  ovf : Bool
  deriving DecidableEq, Repr

/-- A barrier slot (R271). -/
structure BarSlot where
  group : BitVec 16
  bid : BitVec 8
  cause : BitVec 4
  step : BitVec 4
  pkg : BitVec 16
  time : BitVec 64
  deriving DecidableEq, Repr

/-- A barrier by its scope instance and id (R141). -/
inductive BarId where
  | cluster (u : Clu) (bid : BitVec 8)
  | die (d : Fin 4) (bid : BitVec 8)
  | package (bid : BitVec 8)
  | job (bid : BitVec 8)
  deriving DecidableEq, Repr

/-- A chunk of a running UPDATE (R207): update-list entry, unit and chunk of the unit. -/
structure ChunkId where
  ent : BitVec 12
  unit : Nat
  chunk : Nat
  deriving DecidableEq, Repr

/-- A received data flit (R231, R232): header, poison map (when P is set), data words and the CRC-32 it ends with. -/
structure Flit where
  h : BitVec 64
  map : BitVec 64
  d : List (BitVec 32)
  crc : BitVec 32
  deriving DecidableEq, Repr

/-- A request or response slot (R233). -/
structure ReqSlot where
  status : BitVec 8
  len : BitVec 8
  src : BitVec 16
  tag : BitVec 16
  addr : BitVec 64
  deriving DecidableEq, Repr

/-- A hello (R239). -/
structure Hello where
  kind : BitVec 8
  id : BitVec 16
  port : BitVec 8
  gen : BitVec 8
  rev : BitVec 8
  flags : BitVec 8
  serial : BitVec 64
  peer : BitVec 64
  fw : BitVec 32
  fence : BitVec 64
  hseq : BitVec 32
  deriving DecidableEq, Repr

/-- A time slot (R266) with the stamp its receiver's SerDes gives it (R264). -/
structure TimeSlot where
  seq : BitVec 16
  src : BitVec 16
  corr : BitVec 16
  time : BitVec 64
  stamp : BitVec 64
  deriving DecidableEq, Repr

/-- What the Diaphragm's counters give in one 2 µs interval under the factory weights, in mW (R292, R293, R295): per die
the four compute terms (arrays, control and leakage, stacked SRAM, Rifflers); the memory domain by the rails VHBMP, VHBMQ,
VHBMC, VLP1, VLP2H, VLP2L and VLPQ; the links by VDDX, VDDP and VDDA (R381); and the ports whose utilisation over the last
1 ms exceeds 45 % (R297). -/
structure PowerEst where
  arrays : List Nat
  control : List Nat
  sram : List Nat
  rifflers : List Nat
  memory : List Nat
  links : List Nat
  busy : BitVec 12
  deriving DecidableEq, Repr

/-- The arithmetic units outside the arrays that carry residues (R315). -/
inductive ArithUnit where
  | vector (e : Pos)
  | riffler (k : ChunkId)
  | collective (group : BitVec 12) (inst : BitVec 16)
  deriving DecidableEq, Repr

/-- The units compared in lockstep (R316, R343). -/
inductive LockUnit where
  | engine (e : Pos)
  | cluster (u : Clu)
  | cmdProc
  | collEngine
  | scheduler
  | riffler (n : Fin 4)
  deriving DecidableEq, Repr

/-- The memory tiers the patrol scrub walks (R189). -/
inductive Tier where
  | hbm | slow | sram
  deriving DecidableEq, Repr

/-- The sites a self-test or checker test finds failing (R336), with the checker array of the cluster's Loupe (R328). -/
inductive FailSite where
  | arith | lockstep | handshake | checker | loupe
  deriving DecidableEq, Repr

/-- How a rotation's tests end (R336): all pass; the self-test fails once and passes on the repeat; it fails twice
(the failing site and its signature); or a capsule mismatches. -/
inductive TestOutcome where
  | pass
  | passRepeat (at_ : FailSite) (sig : BitVec 32)
  | failTwice (at_ : FailSite) (sig : BitVec 32)
  | capsule (i : BitVec 8)
  deriving DecidableEq, Repr

/-- Why a received flit is dropped (R235, R238). -/
inductive DropCause where
  | crc | fec | order | auth
  deriving DecidableEq, Repr

/-- The operations of Cheval's test access port (R370). -/
inductive TapOp where
  | halt (e : Pos)
  | singleStep (e : Pos)
  | resume (e : Pos)
  | scan
  | boundaryScan
  | memRead (a : BitVec 48)
  | memWrite (a : BitVec 48) (v : BitVec 32)
  | regRead (a : BitVec 32)
  | regWrite (a : BitVec 32) (v : BitVec 32)
  deriving DecidableEq, Repr

/-- The commands of the block, one constructor per row of the table of operations and events. -/
inductive Instr where
  /-- TMAC (R102): Issues a tile multiply-accumulate of r operand pairs from two tile rings into an accumulator. -/
  | tmac (c : Cx) (w : BitVec 56)
  /-- TMAC2 (R105): Issues the mirror-pair backward product, forming dX on array A and dW on array B from one gradient
  tile. -/
  | tmac2 (c : Cx) (w : BitVec 56)
  /-- ACCLD (R107): Issues an accumulator load, either a preload from a bias row or residual tile, or a saved image from
  tiles or memory. -/
  | accld (c : Cx) (w : BitVec 56) (x : BitVec 64)
  /-- ACCST (R109): Issues an accumulator store, either rounded to a format into a tile or as a saved image to tiles or
  memory. -/
  | accst (c : Cx) (w : BitVec 56) (x : BitVec 64)
  /-- TQNT (R112): Issues a quantisation of a 16-bit tile into an 8-bit half under a tensor or block scale. -/
  | tqnt (c : Cx) (w : BitVec 56) (x : BitVec 64)
  /-- LPSAMP (R119): Sets Loupe sampling to automatic, force, hold or release; takes effect at issue. -/
  | lpsamp (c : Cx) (w : BitVec 56)
  /-- VADD (R115): Issues an elementwise vector add of the first source and the second source. -/
  | vadd (c : Cx) (w : BitVec 56) (x : BitVec 64)
  /-- VSUB (R115): Issues an elementwise vector subtract. -/
  | vsub (c : Cx) (w : BitVec 56) (x : BitVec 64)
  /-- VMUL (R115): Issues an elementwise vector multiply. -/
  | vmul (c : Cx) (w : BitVec 56) (x : BitVec 64)
  /-- VMAX (R115): Issues an elementwise vector maximum. -/
  | vmax (c : Cx) (w : BitVec 56) (x : BitVec 64)
  /-- VMIN (R115): Issues an elementwise vector minimum. -/
  | vmin (c : Cx) (w : BitVec 56) (x : BitVec 64)
  /-- VCVT (R115): Issues a vector format conversion. -/
  | vcvt (c : Cx) (w : BitVec 56) (x : BitVec 64)
  /-- VTRN (R115): Issues a vector transpose of a 16-bit tile. -/
  | vtrn (c : Cx) (w : BitVec 56) (x : BitVec 64)
  /-- VEXP (R116): Issues a correctly rounded exponential function. -/
  | vexp (c : Cx) (w : BitVec 56) (x : BitVec 64)
  /-- VRELU (R116): Issues the ReLU function. -/
  | vrelu (c : Cx) (w : BitVec 56) (x : BitVec 64)
  /-- VGELU (R116): Issues the GELU function. -/
  | vgelu (c : Cx) (w : BitVec 56) (x : BitVec 64)
  /-- VSILU (R116): Issues the SiLU function. -/
  | vsilu (c : Cx) (w : BitVec 56) (x : BitVec 64)
  /-- VTANH (R116): Issues the tanh function. -/
  | vtanh (c : Cx) (w : BitVec 56) (x : BitVec 64)
  /-- VSIGM (R116): Issues the sigmoid function. -/
  | vsigm (c : Cx) (w : BitVec 56) (x : BitVec 64)
  /-- VRCP (R116): Issues the reciprocal function. -/
  | vrcp (c : Cx) (w : BitVec 56) (x : BitVec 64)
  /-- VRSQ (R116): Issues the reciprocal square root function. -/
  | vrsq (c : Cx) (w : BitVec 56) (x : BitVec 64)
  /-- VRSUM (R115): Issues an exact row sum broadcast to every column. -/
  | vrsum (c : Cx) (w : BitVec 56) (x : BitVec 64)
  /-- VRMAX (R115): Issues a row maximum broadcast to every column. -/
  | vrmax (c : Cx) (w : BitVec 56) (x : BitVec 64)
  /-- VCSUM (R115): Issues an exact column sum broadcast to every row. -/
  | vcsum (c : Cx) (w : BitVec 56) (x : BitVec 64)
  /-- VAMAX (R115): Issues a tile absolute-maximum into a scalar register and optionally a scale-table ring. -/
  | vamax (c : Cx) (w : BitVec 56) (x : BitVec 64)
  /-- ADDS (R136): Scalar add, written at issue. -/
  | adds (c : Cx) (w : BitVec 56)
  /-- SUBS (R136): Scalar subtract, written at issue. -/
  | subs (c : Cx) (w : BitVec 56)
  /-- MULS (R136): Scalar multiply keeping the low 32 bits. -/
  | muls (c : Cx) (w : BitVec 56)
  /-- ANDS (R136): Scalar bitwise and. -/
  | ands (c : Cx) (w : BitVec 56)
  /-- ORS (R136): Scalar bitwise or. -/
  | ors (c : Cx) (w : BitVec 56)
  /-- XORS (R136): Scalar bitwise exclusive or. -/
  | xors (c : Cx) (w : BitVec 56)
  /-- SHLS (R136): Scalar shift left. -/
  | shls (c : Cx) (w : BitVec 56)
  /-- SHRS (R136): Scalar logical shift right. -/
  | shrs (c : Cx) (w : BitVec 56)
  /-- SRAS (R136): Scalar arithmetic shift right. -/
  | sras (c : Cx) (w : BitVec 56)
  /-- LDS (R136): Loads a word from the cluster staging buffer, holding its context in WAIT. -/
  | lds (c : Cx) (w : BitVec 56)
  /-- LDS_RETURN (R136): The staging-buffer word returns after 8 tokens and the context leaves WAIT. -/
  | ldsReturn (c : Cx)
  /-- STS (R136): Stores a scalar register to the cluster staging buffer without waiting. -/
  | sts (c : Cx) (w : BitVec 56)
  /-- BR (R137): Conditional branch resolved at issue. -/
  | br (c : Cx) (w : BitVec 56)
  /-- LOOP (R137): Decrements the loop counter and branches while it is not zero. -/
  | loop (c : Cx) (w : BitVec 56)
  /-- END (R137): Ends the task's instruction stream and puts its context in DRAIN. -/
  | endTask (c : Cx) (w : BitVec 56)
  /-- SWAIT (R140): Appends the context to a semaphore's FIFO waiter queue in WAIT. -/
  | swait (c : Cx) (w : BitVec 56)
  /-- SSIG (R139): Queues a release-ordered signal adding N to a semaphore. -/
  | ssig (c : Cx) (w : BitVec 56)
  /-- SSIG_RELEASE (R139): A pending signal is applied once every earlier work of its context has completed. -/
  | ssigRelease (c : Cx)
  /-- SEM_VALUE_WRITE (R140): A register write to STR_SEMk.VALUE sets the semaphore, ordered before signals and service. -/
  | semValueWrite (r : Req) (u : Clu) (k : BitVec 8) (v : BitVec 32)
  /-- BAR (R141): Arrives at a cluster, die, package or job barrier and waits. -/
  | bar (c : Cx) (w : BitVec 56)
  /-- SFETCH (R144): Issues a fetch stream from a register-held descriptor. -/
  | sfetch (c : Cx) (w : BitVec 56)
  /-- SSTORE (R144): Issues a store stream from a register-held descriptor. -/
  | sstore (c : Cx) (w : BitVec 56)
  /-- SDESC (R145): Issues a batch of up to 1,024 descriptors fetched from memory. -/
  | sdesc (c : Cx) (w : BitVec 56) (x : BitVec 64)
  /-- DESCRIPTOR_BURST_FETCH (R145): The batch unit fetches the next burst of up to 16 descriptors and checks them. -/
  | descriptorBurstFetch (l : LPos) (b : Fin 2)
  /-- DESCRIPTOR_START (R145): A descriptor takes a free transfer slot and begins issuing row requests. -/
  | descriptorStart (l : LPos)
  /-- STREAM_DATA_ARRIVAL (R182): Bytes of a transfer are delivered or accepted, making progress. -/
  | streamDataArrival (l : LPos) (n : Fin 6)
  /-- STREAM_TILE_FILL (R144): A HELD fetch fills its next tile once FULL is 0, writing data, tag and side-band. -/
  | streamTileFill (l : LPos) (n : Fin 6)
  /-- TRANSFER_COMPLETE (R146): A stream transfer completes, frees its slot and optionally signals a semaphore. -/
  | transferComplete (l : LPos) (n : Fin 6)
  /-- STREAM_STALL (R183): A slot without progress for the stall limit enters STALLED and files a stall record. -/
  | streamStall (l : LPos) (n : Fin 6)
  /-- STREAM_STARVATION (R183): A stall reaching the starvation time files one starvation record. -/
  | streamStarvation (l : LPos) (n : Fin 6)
  /-- CRED (R148): Issues a collective reduction on a group after the slot checks of R402. -/
  | cred (c : Cx) (w : BitVec 56) (x : BitVec 64)
  /-- CGATH (R148): Issues a collective gather. -/
  | cgath (c : Cx) (w : BitVec 56) (x : BitVec 64)
  /-- CSCAT (R148): Issues a collective scatter. -/
  | cscat (c : Cx) (w : BitVec 56) (x : BitVec 64)
  /-- CNORM (R148): Issues a collective sum that also writes norm statistics. -/
  | cnorm (c : Cx) (w : BitVec 56) (x : BitVec 64)
  /-- TRET (R150): System instruction requesting retirement of a unit, completing once recorded in Inscription. -/
  | tret (c : Cx) (w : BitVec 56)
  /-- TCAP (R150): System instruction requesting a test capsule run on its own engine. -/
  | tcap (c : Cx) (w : BitVec 56)
  /-- TCAP_RUN (R150): Once the engine's other contexts are idle, the capsule runs and the result is written to RD. -/
  | tcapRun (c : Cx) (silicon : Bool)
  /-- INSTRUCTION_START (R91): An instruction at its queue head starts once hazards clear and its operands are FULL. -/
  | instructionStart (e : Pos) (q : Unit3)
  /-- TMAC_PAIR_ENTRY (R103): The next operand pair of a running TMAC is checked and enters the array when its ring
  registers are FULL. -/
  | tmacPairEntry (e : Pos) (q : Unit3)
  /-- INSTRUCTION_COMPLETE (R120): A tile instruction's results become readable and it returns its completion code. -/
  | instructionComplete (e : Pos) (q : Unit3)
  /-- CONTEXT_RESUME (R130): A LATE context returns to RUN in the token after the awaited FULL bit sets. -/
  | contextResume (c : Cx)
  /-- TASK_COMPLETE (R132): A drained task with nothing outstanding sends its task record and frees its context. -/
  | taskComplete (c : Cx)
  /-- CQ_DOORBELL (R164): A write of PLN_CQn_TAIL announces new commands in the command ring. -/
  | cqDoorbell (r : Req) (q : Fin 16) (v : BitVec 32)
  /-- CQ_ENABLE (R160): Writing PLN_CQn_CFG.EN enables a queue or restarts a halted one at HEAD. -/
  | cqEnable (r : Req) (q : Fin 16) (v : BitVec 32)
  /-- COMMAND_START (R154): The command processor reads and starts the next startable command of a queue in round robin. -/
  | commandStart (q : Fin 16)
  /-- NOP (R153): Command that commits at start. -/
  | nop (q : Fin 16) (h : BitVec 64) (p : Payload)
  /-- LAUNCH (R156): Command starting one task on each selected engine slot, checked against the phase. -/
  | launch (q : Fin 16) (h : BitVec 64) (p : Payload)
  /-- TASK_START (R132): A launched task starts in its context once that context becomes FREE. -/
  | taskStart (l : LPos) (k : Fin 4)
  /-- SIGSEM (R153): Command signalling a semaphore as SSIG. -/
  | sigsem (q : Fin 16) (h : BitVec 64) (p : Payload)
  /-- WAITSEM (R153): Command waiting on a semaphore as SWAIT, then committing. -/
  | waitsem (q : Fin 16) (h : BitVec 64) (p : Payload)
  /-- STEP (R157): Command that, once all earlier commands commit and amax is delivered, advances the step. -/
  | stepCmd (q : Fin 16) (h : BitVec 64) (p : Payload)
  /-- SCHEDLD (R158): Command loading a schedule table into a slot and evaluating it. -/
  | schedld (q : Fin 16) (h : BitVec 64) (p : Payload)
  /-- ABORT (R163): Command aborting a SEQ range of a queue under R162. -/
  | abortCmd (q : Fin 16) (h : BitVec 64) (p : Payload)
  /-- DISABLE (R163): Command draining and disabling a cluster, die, Riffler, port or the collective engine. -/
  | disable (q : Fin 16) (h : BitVec 64) (p : Payload)
  /-- DRAIN_END (R163): A disable's drain time expires and remaining work is cut short under R162. -/
  | drainEnd (q : Fin 16) (seq : BitVec 32)
  /-- ENABLE (R153): Command re-enabling a disabled unit. -/
  | enable (q : Fin 16) (h : BitVec 64) (p : Payload)
  /-- UPDATE (R210): Command reading and checking an update list and starting the parameter update. -/
  | update (q : Fin 16) (h : BitVec 64) (p : Payload)
  /-- REGWR (R153): Command writing a register value as the issuing queue's requester. -/
  | regwr (q : Fin 16) (h : BitVec 64) (p : Payload)
  /-- PHASE_WRITE (R195): A REGWR of PLN_PHASE commits once every earlier command has committed, changing the phase. -/
  | phaseWrite (q : Fin 16) (h : BitVec 64) (p : Payload)
  /-- COMMAND_COMMIT (R161): A command's record enters completion order at its commit point. -/
  | commandCommit (q : Fin 16) (seq : BitVec 32)
  /-- COMMAND_TIMEOUT (R162): A command's TLIM expires and its work is stopped with TIMEOUT. -/
  | commandTimeout (q : Fin 16) (seq : BitVec 32)
  /-- COLLECTIVE_UP_DATA (R254): An up-tree collective slot reaches a node and is combined in fixed order. -/
  | collectiveUpData (d : CSlot)
  /-- COLLECTIVE_DOWN_DATA (R253): A down-tree collective slot delivers root bits to members, completing them. -/
  | collectiveDownData (d : CSlot)
  /-- COLLECTIVE_WITHDRAW (R259): A withdraw slot reaches the root and cancels the instance if before the root point. -/
  | collectiveWithdraw (g : BitVec 12) (i : BitVec 16) (src : BitVec 16)
  /-- COLLECTIVE_STATISTICS (R256): A statistics slot carries XLOC sums up or XSUM down the tree. -/
  | collectiveStatistics (d : StatSlot)
  /-- COLLECTIVE_TIMEOUT (R258): An instance not complete CLV_CFG.TLIM after issue completes with TIMEOUT and withdraws. -/
  | collectiveTimeout (l : LPos) (n : Fin 2)
  /-- BARRIER_ARRIVAL_SLOT (R267): A barrier arrival reaches a node, which forwards one arrival when all children have
  arrived. -/
  | barrierArrivalSlot (src : BitVec 16) (b : BarSlot)
  /-- BARRIER_RELEASE_SLOT (R268): A release carrying T travels down the tree and records the pace notice. -/
  | barrierReleaseSlot (b : BarSlot)
  /-- BARRIER_WITHDRAW_SLOT (R270): A withdraw removes a package's arrival at a node before T is fixed. -/
  | barrierWithdrawSlot (src : BitVec 16) (b : BarSlot)
  /-- RELEASE_INSTANT (R268): The timebase reaches a barrier's release instant T and the barrier releases. -/
  | releaseInstant (b : BarId)
  /-- START_WAVE (R269): A start wave's instant arrives and the contexts of its logical slots resume. -/
  | startWave (b : BarId) (w : Fin 16)
  /-- SCT_STEP_WRITE (R44): A write of SCT_STEP sets the step when idle and re-evaluates schedules, else sets STEP_ERR. -/
  | sctStepWrite (r : Req) (v : BitVec 32)
  /-- SCT_WIN_READ (R48): Window command latching a scale-table entry into SCT_WIN_DATA. -/
  | sctWinRead (r : Req) (i : BitVec 15)
  /-- SCT_WIN_WRITE (R48): Window command committing the window image into an entry after checks. -/
  | sctWinWrite (r : Req) (i : BitVec 15)
  /-- SCT_WIN_CLEAR (R51): Window command clearing an entry's counters and NONFINITE. -/
  | sctWinClear (r : Req) (i : BitVec 15)
  /-- UPDATE_NORM_READY (R215): All norm slots hold the step; the clip factor is computed or the step skipped. -/
  | updateNormReady
  /-- CHUNK_DISPATCH (R218): The update scheduler dispatches a chunk to its serving Riffler, which computes it. -/
  | chunkDispatch (k : ChunkId)
  /-- CHUNK_RELEASE (R219): At a chunk's end marker, Plinth releases its buffered writes and the chunk commits. -/
  | chunkRelease (k : ChunkId)
  /-- CHUNK_OWN_COPY (R219): When released writes complete, the serving Riffler writes its own chunk-record copy. -/
  | chunkOwnCopy (k : ChunkId)
  /-- ROOT_DONE (R217): A background preconditioner root computation finishes and waits for its install step. -/
  | rootDone (e : BitVec 12) (u : Nat)
  /-- RIFFLER_LEAVE (R220): A Riffler leaves service and its chunks pass to alternates. -/
  | rifflerLeave (n : Fin 4)
  /-- RIFFLER_RETURN (R220): A Riffler returns to service and its chunks go home again. -/
  | rifflerReturn (n : Fin 4)
  /-- PORT_TRAINING_DONE (R229): A Waipol port finishes training at its generation and enters DISCOVERY. -/
  | portTrainingDone (p : Fin 12) (gen : BitVec 2) (width : BitVec 2) (pair : Bool)
  /-- LINK_MANAGEMENT (R229): A link-management slot exchanges capabilities on VC 6. -/
  | linkManagement (p : Fin 12) (peerGen : BitVec 2)
  /-- DATA_FLIT (R232): A data flit is received, checked, acknowledged and its words delivered with poison marks. -/
  | dataFlit (p : Fin 12) (f : Flit)
  /-- IDLE_FLIT (R231): An idle flit delivers acknowledgements and credits. -/
  | idleFlit (p : Fin 12) (h : BitVec 64)
  /-- READ_REQUEST (R233): A remote read request slot is served by the target. -/
  | readRequest (p : Fin 12) (s : ReqSlot)
  /-- WRITE_REQUEST (R233): A remote write request slot and its data are written at the target. -/
  | writeRequest (p : Fin 12) (s : ReqSlot) (d : List MWord)
  /-- READ_RESPONSE (R233): A read response header and its data complete a remote read. -/
  | readResponse (p : Fin 12) (s : ReqSlot) (d : List MWord)
  /-- WRITE_COMPLETION (R233): A write completion slot completes a remote write. -/
  | writeCompletion (p : Fin 12) (s : ReqSlot)
  /-- REPLAY_TIMEOUT (R235): No acknowledgement advances for 1 µs and the sender replays from ACK + 1. -/
  | replayTimeout (p : Fin 12)
  /-- RETRAIN_TRIGGER (R236): Replay, codeword or lock-loss thresholds start a port retrain charged to a lane. -/
  | retrainTrigger (p : Fin 12) (lane : Fin 4)
  /-- RETRAIN_DONE (R236): A retrain completes, or after three failures the port goes DOWN. -/
  | retrainDone (p : Fin 12) (ok : Bool)
  /-- DOWN_RETRY (R236): A DOWN port tries to train again every 1 s. -/
  | downRetry (p : Fin 12)
  /-- MODULE_FAULT (R228): An optical module absent, silent for 100 ms or faulted holds its port DOWN. -/
  | moduleFault (p : Fin 12)
  /-- HELLO (R242): A received hello is judged against the neighbour table and policy. -/
  | hello (p : Fin 12) (m : Hello)
  /-- HELLO_TIMER (R240): Every 100 ms a port sends a hello. -/
  | helloTimer (p : Fin 12)
  /-- DISCOVERY_SILENT (R242): No hello within 1 s of DISCOVERY quarantines the port with cause SILENT. -/
  | discoverySilent (p : Fin 12)
  /-- ONEWAY_TIMEOUT (R242): A port without an echoed serial for 300 ms is quarantined with cause ONEWAY. -/
  | onewayTimeout (p : Fin 12)
  /-- SWAP_TIMEOUT (R243): A swap candidate without a partner after 1 s is quarantined with cause MISMATCH. -/
  | swapTimeout (p : Fin 12)
  /-- HELLO_LOST (R245): A port without a hello for 350 ms is quarantined with cause LOST. -/
  | helloLost (p : Fin 12)
  /-- KEY_EXCHANGE (R365): Key-exchange slots carry ECDH shares and certificates to key an encrypted port. -/
  | keyExchange (p : Fin 12) (msg : BitVec 8) (idx : BitVec 16) (body : BitVec 96)
  /-- REKEY (R365): After 2^40 flits or 24 h a port rekeys. -/
  | rekey (p : Fin 12)
  /-- RETRAIN (R249): A write of WPL_CTRL.RETRAIN retrains the port without charging a lane. -/
  | retrain (r : Req) (p : Fin 12)
  /-- REJUDGE (R249): A write of WPL_CTRL.REJUDGE has the next hello judged afresh. -/
  | rejudge (r : Req) (p : Fin 12)
  /-- QUAR (R249): A write of WPL_CTRL.QUAR quarantines the port with cause OPERATOR. -/
  | quar (r : Req) (p : Fin 12)
  /-- LANE_CLR (R237): A write of WPL_CTRL.LANE_CLR returns retired lanes to service at the next retrain. -/
  | laneClr (r : Req) (p : Fin 12)
  /-- NBR_READ (R248): Window command reading an expected-neighbour entry. -/
  | nbrRead (r : Req) (i : BitVec 6)
  /-- NBR_WRITE (R248): Window command writing an expected-neighbour entry after checks. -/
  | nbrWrite (r : Req) (i : BitVec 6)
  /-- AUTO_FILL (R241): A write of WPL_DISC_CFG.AUTO from 0 to 1 refills the neighbour table from the straps. -/
  | autoFill (r : Req) (v : BitVec 32)
  /-- GROUP_READ (R251): Window command reading a collective group entry. -/
  | groupRead (r : Req) (i : BitVec 12)
  /-- GROUP_WRITE (R252): Window command writing a collective group entry after checks. -/
  | groupWrite (r : Req) (i : BitVec 12)
  /-- SYNC_EDGE (R263): A SYNC rising edge is checked against the reference count and loads an armed value. -/
  | syncEdge (err : Int)
  /-- SYNC_LOST (R263): No SYNC edge for 1.5 s sets SYNC_LOST. -/
  | syncLost
  /-- TIME_EXCHANGE (R264): Every 125 ms a leader starts a two-step exchange with its upstream. -/
  | timeExchange
  /-- TIME_SYNC (R266): A SYNC time slot arrives and is stamped t2. -/
  | timeSync (s : TimeSlot)
  /-- FOLLOW_UP (R266): A FOLLOW_UP slot carries t1. -/
  | followUp (s : TimeSlot)
  /-- DELAY_REQ (R266): A DELAY_REQ slot arrives at the upstream, which answers. -/
  | delayReq (s : TimeSlot)
  /-- DELAY_RESP (R266): A DELAY_RESP slot carries t4 and completes an offset measurement. -/
  | delayResp (s : TimeSlot)
  /-- OFFSET_CORRECTION (R264): Each second the leader takes the median offset and derives phase and rate corrections. -/
  | offsetCorrection (settled : Bool)
  /-- ADJUST (R266): An ADJUST message delivers a correction with its application instant. -/
  | adjust (a b : TimeSlot)
  /-- ADJUST_APPLY (R265): At the instant given, every package of the rack applies the adjustment. -/
  | adjustApply
  /-- TB_LATCH_READ (R261): A read of CLV_TB_LO latches CLV_TB_HI. -/
  | tbLatchRead (r : Req)
  /-- HELIOSTAT_WINDOW (R281): Every 10 µs window the Heliostat counts replicas and trims the core rail. -/
  | heliostatWindow (d : Fin 4) (err : Int)
  /-- RAIL_MAX (R283): A rail held at 850 mV for 1 ms below nominal sets the die's margin ceiling slower. -/
  | railMax (d : Fin 4)
  /-- PACE_STEP_CHANGE (R282): A change in the binding ceiling begins a change of pace step. -/
  | paceStepChange
  /-- METER_SWITCH (R282): The meter switches to a faster step once the slowest replica reaches the new rate. -/
  | meterSwitch (d : Fin 4)
  /-- REFERENCE_WINDOW (R287): A reference measurement window ends and is judged towards passing. -/
  | referenceWindow (ppm : Int)
  /-- ROOT_LOCK (R287): The root agrees with the reference within 1 ppm over 1 ms and is judged locked. -/
  | rootLock
  /-- REFERENCE_LOSS (R288): A bad window or 100 ns without an edge puts the Collimator in HOLDOVER. -/
  | referenceLoss
  /-- REFERENCE_RETURN (R288): A returning reference passes judging and the root is pulled back to LOCKED. -/
  | referenceReturn
  /-- FCNT_START (R291): A write of COL_FCNT_CTRL.START begins a frequency count. -/
  | fcntStart (r : Req) (v : BitVec 32)
  /-- FCNT_DONE (R291): The gate ends and the count is written to COL_FCNT_RESULT. -/
  | fcntDone (edges : Nat)
  /-- DIAPHRAGM_ESTIMATE (R294): Every 2 µs the Diaphragm estimates domain power and shares the cap. -/
  | diaphragmEstimate (e : PowerEst)
  /-- DITHER_SLOT (R295): Each 16 µs slot of the cap frame applies the hi or lo cap ceiling. -/
  | ditherSlot
  /-- REGULATOR_READ (R293): Every 1 ms regulator power is read and each rail's correction gain adjusted. -/
  | regulatorRead (rail : Fin 18) (meas : Nat) (est : Nat) (heldLong : Bool)
  /-- DIA_CAP_WRITE (R298): A write of DIA_CAP sets the cap from the next estimate. -/
  | diaCapWrite (r : Req) (v : BitVec 32)
  /-- DIA_PRIO_WRITE (R294): A write of DIA_PRIO sets the domain order or is refused with ERR. -/
  | diaPrioWrite (r : Req) (v : BitVec 32)
  /-- DIA_MIN_WRITE (R294): A write of DIA_MINc sets a domain minimum or is refused with ERR. -/
  | diaMinWrite (r : Req) (c : Fin 3) (v : BitVec 32)
  /-- PACE_N_FALL (R299): A PACE_N falling edge held 100 ns sets the droop ceiling two steps slower. -/
  | paceNFall
  /-- PACE_N_RISE (R299): At PACE_N rising the pulse is classed by width as glitch, droop, warning or invalid. -/
  | paceNRise (ns : Nat)
  /-- EMERGENCY_STOP (R300): PACE_N low at 100 µs halts the package as a trip and sets ESTOP. -/
  | emergencyStop
  /-- DROOP_RELAX (R299): After the 50 µs hold the droop ceiling relaxes one step per 10 µs. -/
  | droopRelax
  /-- BOARD_RELAX (R299): After 100 ms without warning the board ceiling relaxes one step per 10 ms. -/
  | boardRelax
  /-- THERMAL_SAMPLE (R301): Every 10 µs the thermal loop takes the hottest sensor and acts on its band. -/
  | thermalSample (sensor : BitVec 10) (t : Int)
  /-- THERMAL_SLOWDOWN (R301): At or above 100 °C the thermal ceiling slows one step each 100 µs. -/
  | thermalSlowdown
  /-- THERMAL_SPEEDUP (R301): Below 97 °C the thermal ceiling speeds one step each 1 ms. -/
  | thermalSpeedup
  /-- HBM_TEMP (R302): An HBM stack's temperature report sets or removes its channel throttle. -/
  | hbmTemp (h : Fin 16) (t : Int)
  /-- TRIP (R303): A trip comparator at 115 °C halts engines and puts the package in retention. -/
  | trip (sensor : BitVec 10)
  /-- REARM (R303): A write of DIA_TRIP.REARM re-enables the package after a trip or stop if conditions hold. -/
  | rearm (r : Req)
  /-- SAG_TRIGGER (R304): A main rail falls below a sag trigger and level L1, L2 or L3 acts. -/
  | sagTrigger (rail : Fin 18) (level : Fin 3)
  /-- SAG_CLEAR (R304): A rail 1 % above its trigger for 100 µs clears the sag level. -/
  | sagClear (level : Fin 3)
  /-- PWRFAIL_ASSERT (R305): PWRFAIL_N low enters L4: commands stop, chunks and links settle, crash dump written. -/
  | pwrfailAssert
  /-- PWRFAIL_RELEASE (R305): PWRFAIL_N rises with the main rails still in regulation. -/
  | pwrfailRelease
  /-- L4_CLEAR (R305): 10 ms after PWRFAIL_N rises, L4 clears and commands start again. -/
  | l4Clear
  /-- MAIN_RAILS_FALL (R305): The main rails fall and L5 completes the dump and fault ring on hold-up. -/
  | mainRailsFall
  /-- AUX_RAIL_LOSS (R306): Loss of the auxiliary rail takes the package OFF. -/
  | auxRailLoss
  /-- IDLE_ENTRY (R306): No token on any engine for 1 µs enters IDLE. -/
  | idleEntry
  /-- IDLE_EXIT (R306): Any token leaves IDLE for RUN. -/
  | idleExit
  /-- PSTATE_RETENTION (R306): DIA_PSTATE.REQ 1 enters RETENTION when no command has started. -/
  | pstateRetention (r : Req)
  /-- PSTATE_LEAVE_RETENTION (R306): DIA_PSTATE.REQ 2 leaves RETENTION within 300 µs. -/
  | pstateLeaveRetention (r : Req)
  /-- PSTATE_STANDBY (R306): DIA_PSTATE.REQ 3 enters STANDBY from RETENTION, lowering the main rails. -/
  | pstateStandby (r : Req)
  /-- RESIDUE_CHECK (R313): At each pair boundary the residue path is compared with the window for every element. -/
  | residueCheck (e : Pos) (q : Unit3)
  /-- UNIT_RESIDUE_MISMATCH (R315): A residue mismatch in a vector unit, Riffler or collective node poisons or re-serves
  its work. -/
  | unitResidueMismatch (u : ArithUnit) (lane : BitVec 6) (diff : BitVec 6)
  /-- LOCKSTEP_MISMATCH (R316): A lockstep pair disagrees and the unit's work ends POISONED with a LOCKSTEP record. -/
  | lockstepMismatch (u : LockUnit) (point : BitVec 32)
  /-- HEARTBEAT_MISS (R316): An Armature core silent or inconsistent for 100 ms is reset and its queues halt. -/
  | heartbeatMiss (core : BitVec 8) (served : BitVec 16)
  /-- HANDSHAKE_WATCHDOG (R316): A token or vector operation unacknowledged for 1 ms resets the engine with a HANDSHAKE
  record. -/
  | handshakeWatchdog (e : Pos) (stage : BitVec 32)
  /-- SENSOR_CHECK (R316): Every 10 ms each sensor is compared with its neighbours and excluded or rejoined. -/
  | sensorCheck (sensor : BitVec 10) (off : Bool)
  /-- REPLAY (R324): After migration the suspect and reference engines rerun the captured pair. -/
  | replay (n : Fin 16)
  /-- REPLAY_DONE (R324): The replay images are compared and the fault is classified. -/
  | replayDone (n : Fin 16) (suspectBad : Bool) (refBad : Bool)
  /-- CORRECTED_WRITEBACK (R188): The write-back of a corrected word reaches memory unless a newer write superseded it. -/
  | correctedWriteback (a : BitVec 48)
  /-- PATROL_SCRUB (R189): The patrol scrub reads words of each tier over its period, rewriting corrected or bad ones. -/
  | patrolScrub (t : Tier) (a : BitVec 48)
  /-- SERVICE_TIME_TICK (R322): Service time advances by one second while the auxiliary rail is up. -/
  | serviceTimeTick
  /-- LOUPE_AUTO_ARM (R119): Loupe arms a chain on each engine at least every 20 ms. -/
  | loupeAutoArm (e : Pos) (acc : Fin 8) (tag : BitVec 16)
  /-- LOUPE_HOLD_EXPIRY (R119): A Loupe hold ends after 5 ms without a release. -/
  | loupeHoldExpiry (e : Pos)
  /-- LOUPE_CHAIN_DONE (R325): Loupe finishes recomputing a chain and bins each element's discrepancy. -/
  | loupeChainDone (u : Clu) (pairs : List (BitVec 16 × BitVec 16))
  /-- FAULT_WIN_READ (R329): Window command reading a fault record, history, Loupe or advisory entry. -/
  | faultWinRead (r : Req) (tgt : Fin 4) (i : BitVec 28)
  /-- LOUPE_ENTRY_WRITE (R329): Window command writing a Loupe table entry. -/
  | loupeEntryWrite (r : Req) (i : BitVec 28)
  /-- LOUPE_ENTRY_CLEAR (R329): Window command clearing a Loupe entry's bins, NONFIN and ADVISED. -/
  | loupeEntryClear (r : Req) (i : BitVec 28)
  /-- ROTATION_DUE (R334): A cluster's test rotation falls due, selecting an engine and opening the grace window. -/
  | rotationDue (u : Clu)
  /-- GRACE_EXPIRY (R335): The grace window ends and the hand-over pre-empts the engine. -/
  | graceExpiry (u : Clu)
  /-- ROTATION_DEFERRAL (R335): A draining context not FREE within GRACE defers the rotation by one INTERVAL. -/
  | rotationDeferral (u : Clu)
  /-- HANDOVER (R332): A hand-over stops issue on the engine leaving its slot. -/
  | handover (u : Clu) (s : Fin 16)
  /-- HANDOVER_COPY (R332): Once the engine is idle its state is copied to the spare. -/
  | handoverCopy (u : Clu)
  /-- HANDOVER_BIND (R332): The copy completes and the slot map binds the logical slot to the spare. -/
  | handoverBind (u : Clu)
  /-- ROTATION_TEST_DONE (R336): Self-test and capsules on the tested engine finish and it becomes spare or is retired. -/
  | rotationTestDone (u : Clu) (o : TestOutcome)
  /-- UNIT_RETIREMENT (R339): A PERMANENT judgement or TRET retires the named unit. -/
  | unitRetirement (unit : BitVec 32)
  /-- MODULE_SPARE_DONE (R339): The edge retrain substituting a spare die-to-die module completes. -/
  | moduleSpareDone (e : Fin 12)
  /-- EDGE_MODULE_FAIL (R16): A failing die-to-die module changes its edge's state, narrowing or closing it. -/
  | edgeModuleFail (e : Fin 12) (m : BitVec 6)
  /-- CHANNEL_TRAINING_LOSS (R343): A memory channel loses training and is reset while accesses wait. -/
  | channelTrainingLoss (u : Fin 24) (ch : Fin 32)
  /-- HANG_SCAN (R341): Every 1 ms the hang detector scans the wait-for graph and acts on persistent cycles. -/
  | hangScan
  /-- RESET_ENGINE (R343): TST_RESET KIND 1 resets an engine. -/
  | resetEngine (r : Req) (e : Pos)
  /-- ENGINE_RESET_DONE (R344): An engine reset ends with its check, passing or failing and counting towards escalation. -/
  | engineResetDone (e : Pos) (pass : Bool)
  /-- RESET_CLUSTER (R343): TST_RESET KIND 2 resets a cluster. -/
  | resetCluster (r : Req) (u : Clu)
  /-- RESET_MEMORY_CHANNEL (R343): TST_RESET KIND 3 resets a memory channel. -/
  | resetMemoryChannel (r : Req) (u : Fin 24) (ch : Fin 32)
  /-- RESET_LINK_PORT (R343): TST_RESET KIND 4 resets a Waipol port to DOWN. -/
  | resetLinkPort (r : Req) (p : Fin 12)
  /-- RESET_RIFFLER (R343): TST_RESET KIND 5 resets a Riffler. -/
  | resetRiffler (r : Req) (n : Fin 4)
  /-- RESET_DIE (R343): TST_RESET KIND 6 resets a compute die. -/
  | resetDie (r : Req) (d : Fin 4)
  /-- RESET_PACKAGE_WARM (R343): TST_RESET KIND 7 starts a package warm reset. -/
  | resetPackageWarm (r : Req)
  /-- RESET_PACKAGE_COLD (R343): TST_RESET KIND 8 starts a package cold reset. -/
  | resetPackageCold (r : Req)
  /-- CAPSULE_LOAD (R338): TST_CAP_CMD OP 1 verifies and stores a signed capsule. -/
  | capsuleLoad (r : Req) (i : BitVec 8)
  /-- CAPSULE_ERASE (R350): TST_CAP_CMD OP 2 erases a capsule. -/
  | capsuleErase (r : Req) (i : BitVec 8)
  /-- CAPSULE_ENABLE (R350): TST_CAP_CMD OP 3 sets a capsule's enable. -/
  | capsuleEnable (r : Req) (i : BitVec 8) (en : Bool)
  /-- TAKE (R347): A write of TST_DUMP.TAKE writes a crash dump. -/
  | takeDump (r : Req)
  /-- MARGIN_PLAN (R348): Daily the sentinels are read and AGE offsets, margin ceilings and projections set. -/
  | marginPlan (d : Fin 4) (drift : List Int)
  /-- SRAM_REPARTITION (R175): A write of MEM_SRAM_CFG.SCRATCH starts a repartition of scratch and cache. -/
  | sramRepartition (r : Req) (d : Fin 4) (v : BitVec 32)
  /-- REPARTITION_WRITEBACK_DONE (R175): Dirty lines are written back and every line invalidated. -/
  | repartitionWritebackDone (d : Fin 4)
  /-- REPARTITION_DONE (R175): Added scratch is cleared, the new size takes effect and BUSY clears. -/
  | repartitionDone (d : Fin 4)
  /-- AUX_POWER_GOOD (R352): Auxiliary power good starts the cold power-up order. -/
  | auxPowerGood
  /-- STRAP_LATCH (R386): At 2 ms the sampled facet straps are latched into WPL_STRAP and PLN_FACET. -/
  | strapLatch (word : BitVec 24) (ambig : BitVec 12)
  /-- FACET_OUTPUTS_ON (R386): At 2.010 ms the facet pulls turn on and SERVICE outputs are driven. -/
  | facetOutputsOn
  /-- FACET_INPUTS_JUDGED (R386): From 2.100 ms SYNC, PWRFAIL_N, PACE_N and the management bus are judged. -/
  | facetInputsJudged (pwrfailLow : Bool) (paceLow : Bool)
  /-- FIRMWARE_VERIFY (R352): Step 3: Burin verifies and starts the island firmware and applies the boot configuration. -/
  | firmwareVerify
  /-- RAIL_SEQUENCE (R352): Step 5: the main rails are raised in order over AVSBus. -/
  | railSequence
  /-- RAIL_TIMEOUT (R354): A rail not in regulation within 5 ms drops all main rails into STANDBY. -/
  | railTimeout
  /-- ARMATURE_START (R352): Step 6: Armature firmware is verified and started and fills the neighbour table. -/
  | armatureStart (rev : BitVec 8)
  /-- DIE_SELF_TEST (R352): Step 7: each compute die tests itself stand-alone, quarantining a die that fails twice. -/
  | dieSelfTest (d : Fin 4) (pass : Bool) (passRepeat : Bool)
  /-- EDGE_TRAINING (R352): Step 8: die-to-die edges are trained and their states set. -/
  | edgeTraining (e : Fin 12) (good : BitVec 6)
  /-- MEMORY_TRAINING (R352): Step 9: memories are trained, retirements applied and tiers zeroed. -/
  | memoryTraining (failed : List (Fin 24 × Fin 32))
  /-- CALIBRATION_APPLY (R352): Step 10: calibration is applied, Heliostats lock and Burin measures the overlay. -/
  | calibrationApply
  /-- READY (R352): Step 11: PLN_BOOT.STEP reads 11 and queues may start. -/
  | ready (ms : Nat)
  /-- PERST_ASSERT (R355): PERST# assertion resets the host port and halts host queues. -/
  | perstAssert
  /-- PERST_DEASSERT (R355): PERST# deassertion lets the host port begin link training. -/
  | perstDeassert
  /-- HOST_READ (R393): A host read TLP through a BAR is served, poisoned completions sent whole. -/
  | hostRead (bar : Fin 3) (o : BitVec 48) (n : Nat)
  /-- HOST_WRITE (R394): A host write TLP through a BAR is applied, poisoned TLPs writing poison form. -/
  | hostWrite (bar : Fin 3) (o : BitVec 48) (d : List (BitVec 32)) (poison : Bool)
  /-- STAGE_ISL (R366): SEC_CMD OP 1 verifies and stages island firmware in the inactive slot. -/
  | stageIsl (r : Req) (n : Nat)
  /-- STAGE_ARM (R366): SEC_CMD OP 2 verifies and stages Armature firmware in the inactive slot. -/
  | stageArm (r : Req) (n : Nat)
  /-- SWITCH (R366): SEC_CMD OP 3 hands over to the staged image as TRIAL. -/
  | switchFw (r : Req) (arm : Bool)
  /-- CONFIRM (R366): SEC_CMD OP 4 makes the trial slot ACTIVE. -/
  | confirmFw (r : Req) (arm : Bool)
  /-- CONFIRM_TIMEOUT (R366): No CONFIRM within 60 s switches back to the former slot and sets FALLBACK. -/
  | confirmTimeout
  /-- INSTALL (R367): SEC_CMD OP 5 installs operator key hashes, moving PROVISIONED to DEPLOYED. -/
  | install (r : Req) (n : Nat)
  /-- GRANT (R369): SEC_CMD OP 6 verifies a grant and requests a warm reset towards GRANTED. -/
  | grant (r : Req)
  /-- ZEROISATION (R368): After the grant's warm reset, memories, registers, tables and port keys are zeroed. -/
  | zeroisation
  /-- ZEROISATION_DONE (R369): Zeroisation completes and the new lifecycle state takes effect with ZEROED set. -/
  | zeroisationDone
  /-- END_GRANT (R367): SEC_CMD OP 7 ends a grant, returning to the former state. -/
  | endGrant (r : Req)
  /-- RELEASE (R375): SEC_CMD OP 8 applies a signed release of quarantine or out of service. -/
  | releaseQuar (r : Req)
  /-- RETIRE (R367): SEC_CMD OP 9 retires the package irreversibly. -/
  | retirePkg (r : Req)
  /-- ATTEST (R364): SEC_CMD OP 10 writes a signed attestation report at SEC_ADDR. -/
  | attest (r : Req)
  /-- OVERLAY (R359): SEC_CMD OP 11 stages a calibration overlay. -/
  | overlay (r : Req)
  /-- BOOTCFG (R375): SEC_CMD OP 12 writes the boot configuration record. -/
  | bootcfg (r : Req)
  /-- SVN (R363): SEC_CMD OP 13 raises a fused minimum SVN. -/
  | svn (r : Req)
  /-- EXTEND (R361): SEC_CMD OP 14 extends measurement 7 with a digest. -/
  | extend (r : Req)
  /-- KEYREV (R362): SEC_CMD OP 15 fuses a key revocation. -/
  | keyrev (r : Req)
  /-- DEBUG_LEVEL_REQUEST (R371): A write of DBG_CTRL.REQ changes the debug level or is denied. -/
  | debugLevelRequest (r : Req) (v : BitVec 32)
  /-- FACET_REQUEST (R387): A write of DBG_CTRL.FACET enters or leaves the DEBUG phase of the facet balls. -/
  | facetRequest (r : Req) (v : BitVec 32)
  /-- FAULTN_PULSE_END (R388): A FAULT_N pulse or its 1 ms gap ends and the highest pending code is sent next. -/
  | faultnPulseEnd
  /-- MGMT_ADDR (R389): Management-bus ADDR command sets the access address. -/
  | mgmtAddr (a : BitVec 64)
  /-- MGMT_READ (R389): Management-bus READ returns 4 bytes and advances the address. -/
  | mgmtRead
  /-- MGMT_WRITE (R389): Management-bus WRITE stores 4 bytes where permitted. -/
  | mgmtWrite (v : BitVec 32)
  /-- MGMT_STATUS (R389): Management-bus STATUS returns whether the last access was refused. -/
  | mgmtStatus
  /-- RECOVERY (R389): Management-bus RECOVERY appends bytes to the recovery image. -/
  | recovery (d : List (BitVec 8))
  /-- RECOVERY_GO (R354): Management-bus RECOVERY_GO verifies and boots the recovery image. -/
  | recoveryGo
  /-- REGISTER_WRITE (R7): A write to a register field with no behaviour of its own, judged per requester. -/
  | registerWrite (r : Req) (a : BitVec 32) (v : BitVec 32)
  /-- CLUSTER_RESET_DONE (R343): A cluster reset completes after its 200 µs and the cluster's engines, semaphores and
  staging buffer return to service. -/
  | clusterResetDone (u : Clu)
  /-- DIE_RESET_DONE (R343): A die reset completes after its 20 ms and the compute die and its stack PHYs return to
  service. -/
  | dieResetDone (d : Fin 4)
  /-- MEMORY_CHANNEL_RESET_DONE (R343): A memory channel reset completes after its 2 ms and accesses waiting with stall
  cause 0x7 proceed. -/
  | memoryChannelResetDone (u : Fin 24) (ch : Fin 32)
  /-- LOCAL_COLLECTIVE_DONE (R148): The collective engine finishes combining a LOCAL group's instance and writes each
  member's DST and STAT, completing the members. -/
  | localCollectiveDone (g : BitVec 12) (i : BitVec 16)
  /-- FLIT_DROPPED (R235): A received flit that fails its CRC or FEC, or arrives out of SEQ order, is dropped; the
  receiver sends NAK and discards flits until the replayed one arrives. -/
  | flitDropped (p : Fin 12) (f : DropCause)
  /-- HOST_LINK_UP (R355): The host port completes PCIe link training or retraining, and PLN_HOST.UP, RATE and WIDTH are
  set. -/
  | hostLinkUp (rate : BitVec 3) (width : BitVec 5)
  /-- CCC_BROADCAST (R389): A broadcast I3C header carrying a CCC selects I3C mode and may assign the package a dynamic
  address. -/
  | cccBroadcast (dyn : Option (BitVec 7))
  /-- TEST_ACCESS_PORT_ACCESS (R370): An operation arrives through Cheval's IEEE 1149.1 test access port: halt,
  single-step, scan, or a memory or register access at FULL. -/
  | testAccessPortAccess (o : TapOp)
  /-- PROVISIONING (R367): Rilyel provisioning at test fuses the UDS and key hashes and moves BLANK to PROVISIONED. -/
  | provisioning
  /-- STANDBY_EXIT (R353): The package leaves STANDBY and runs steps 4 to 11 of the power-up order. -/
  | standbyExit
  /-- CLV_IDLE_LATCH_READ (R278): A read of CLV_IDLE_c_LO latches CLV_IDLE_c_HI. -/
  | clvIdleLatchRead (r : Req) (c : Fin 7)
  deriving DecidableEq, Repr

end Sys2Proof
end

