-- ==== Sys2Proof/Decode.lean ====
section
/-! DEFINITION. The words of the table: spec/opcode_table.json gives no row any bits (its rows carry a mnemonic, a
rule and a summary), so no word spells a command. -/
namespace Sys2Proof

/-- The command that `nbits` bits `w` spell by the table's bits: no row gives bits, so none. -/
def decodeTableWord (_nbits _w : Nat) : Option Instr := none

end Sys2Proof
end

