-- ==== Sys2Proof/Config.lean ====
section
/-! DEFINITION. What an implementation fixes and the free values: every constant here is opaque, so that no proof can
see a value the manual does not give. Each is named in the assumption log. -/
namespace Sys2Proof

/-- The factory voltage of die `d` at pace step `k` in mV (HEL_VTk.FACT, R308: set at test; DESIGN CHOICE, log entry 5). -/
opaque Config.factVolt (d k : Nat) : BitVec 10

/-- The package serial (R239, R362: fixed at manufacture, no value given; DESIGN CHOICE, log entry 5). -/
opaque Config.serial : BitVec 64

/-- The firmware family and build an Armature image reports in its hellos, by the digest of the image (R239; DESIGN
CHOICE, log entry 5). -/
opaque Config.fwWord : BitVec 384 → BitVec 32

/-- The protocol revision an Armature image sets in WPL_REV, by the digest of the image (R248; DESIGN CHOICE, log entry 5). -/
opaque Config.fwRev : BitVec 384 → BitVec 8

/-- SHA-384 (R360, R361), uninterpreted: the manual names the standard and gives no algorithm (DESIGN CHOICE, log entry 6). -/
opaque Config.sha384 : List (BitVec 8) → BitVec 384

/-- The bytes of a signature, r then s, that the holder of the key with a hash makes of a message (R362), uninterpreted
(DESIGN CHOICE, log entry 6). -/
opaque Config.signature : (keyHash : BitVec 384) → (msg : List (BitVec 8)) → Nat → BitVec 8

/-- Which other signatures verify, uninterpreted (DESIGN CHOICE, log entry 6). -/
opaque Config.sigOther : (keyHash : BitVec 384) → (msg : List (BitVec 8)) → (sig : List (BitVec 8)) → Bool

/-- Whether a signature verifies under the public key of a hash (R360, R362): the one its holder makes does, and it is
uninterpreted which others do (DESIGN CHOICE, log entry 6). -/
def Config.sigOk (h : BitVec 384) (msg sig : List (BitVec 8)) : Bool :=
  sig == (List.range 96).map (Config.signature h msg) || Config.sigOther h msg sig

/-- The hashes of the four Rilyel public keys fused at provisioning (R360; DESIGN CHOICE, log entry 5). -/
opaque Config.rilyelKey : Nat → BitVec 384

/-- The digests of the images the package leaves the factory with, 0 island and 1 Armature (R366; DESIGN CHOICE, log entry
5). -/
opaque Config.factoryImage : Nat → BitVec 384

/-- The digest of the ROM identity and fuse configuration (R361; DESIGN CHOICE, log entry 5). -/
opaque Config.romDigest : BitVec 384

/-- The digest a change of lifecycle state or debug level extends measurement 6 with (R361: no form given; DESIGN CHOICE,
log entry 6). -/
opaque Config.eventDigest : (life level : Nat) → BitVec 384

/-- The value a boot configuration record names for the register at an offset, and the bits it names (R169, R352, R375,
R392: no layout given; DESIGN CHOICE, log entry 47). -/
opaque Config.bootReg : (record : List (BitVec 8)) → (key : Nat) → BitVec 32 × BitVec 32

/-- The bytes of an attestation signature over a report (R364), uninterpreted (DESIGN CHOICE, log entry 6). -/
opaque Config.attSig : List (BitVec 8) → Nat → BitVec 8

/-- A fresh nonce (R362: each use and each cold reset replaces it; DESIGN CHOICE, log entry 6), one for each draw. -/
opaque Config.nonce : Nat → BitVec 128

/-- The port key and its id derived by a key exchange (R365), uninterpreted (DESIGN CHOICE, log entry 6). -/
opaque Config.portKey : Nat → BitVec 32

/-- Whether the peer's share and certificate check in a key exchange (R365), uninterpreted (DESIGN CHOICE, log entry 6). -/
opaque Config.shareOk : Nat → BitVec 96 → Bool

/-- A value the manual leaves open: one for each draw, taken at the step's own counter (DESIGN CHOICE, log entry 7). -/
opaque Config.freeValue : Nat → BitVec 64

/-- The cache set of a granule in a die's cache of `gib` GiB (R173 gives 16 ways and no index; DESIGN CHOICE, log entry 8). -/
opaque Config.cacheSet (gib granule : Nat) : Nat

/-- The SRAM granule, within its die's 12 GiB, of the cache line that holds a fast-tier granule in a cache of `gib` GiB
(R173, R319: no placement given; DESIGN CHOICE, log entry 107). -/
opaque Config.cacheGran (gib granule : Nat) : Nat

/-- The code of the sensor nearest to a unit (R318, R319: no placement given; DESIGN CHOICE, log entry 108). -/
opaque Config.nearestSensor : (unit : BitVec 32) → Nat

/-- The factory value of a calibrated quantity, by ITEM and INDEX (R357: held in Inscription, its values not given). -/
opaque Config.factoryCal (item idx : Nat) : Int

/-- Contents read from memory that a warm reset with a new interleave policy does not preserve (R169), or that power
loss left (R306), by byte address and reset count (DESIGN CHOICE, log entry 9). -/
opaque Config.lostByte : Nat → Nat → BitVec 8

end Sys2Proof
end

