-- ==== Sys2Proof/Machine/RegMap.lean ====
section
/-! DEFINITION. The register map of the package (R6, R26 and the register tables of every chapter): one row per
register, with its block, offset and fields (bits, access code of R7, reset value), the addresses by name and the
fields by name. Transcribed from the register tables of spec/; the rule of each table stands beside the name. -/
namespace Sys2Proof.Machine

/-- The access codes of R7. -/
inductive Acc where
  | rd | rw | w1c | lk | fx
  deriving DecidableEq, Repr

/-- One field of a register table: its bit range, its access code and its reset value. -/
structure FieldRow where
  hi : Nat
  lo : Nat
  acc : Acc
  reset : Nat
  deriving DecidableEq, Repr

/-- One register table: first block index and number of blocks that hold it (R26), first offset, and up to two
index strides with their counts. -/
structure RegRow where
  name : String
  blk : Nat
  nblk : Nat
  off : Nat
  stride : Nat
  count : Nat
  stride2 : Nat
  count2 : Nat
  fields : List FieldRow
  deriving DecidableEq, Repr

/-- A named register field: the register's offset in the 4 GiB register window (R26) and the bit range. -/
structure Fld where
  key : Nat
  hi : Nat
  lo : Nat
  deriving DecidableEq, Repr

/-- The register tables, part 0. -/
def regTable0 : List RegRow := [
  ⟨"PLN_PKG_ID", 0x0, 1, 0x0, 0x0, 1, 0x0, 1,
    [⟨31, 31, .rd, 0x0⟩, ⟨15, 7, .rd, 0x1ff⟩, ⟨6, 3, .rd, 0xf⟩, ⟨2, 0, .rd, 0x7⟩]⟩,
  ⟨"PLN_DIE_MAP", 0x0, 1, 0x10, 0x0, 1, 0x0, 1,
    [⟨11, 8, .rd, 0x0⟩, ⟨3, 0, .rd, 0x0⟩]⟩,
  ⟨"PLN_EDGE_STATUSn", 0x0, 1, 0x100, 0x4, 12, 0x0, 1,
    [⟨31, 30, .rd, 0x0⟩, ⟨15, 8, .rd, 0x0⟩, ⟨7, 4, .rd, 0x0⟩]⟩,
  ⟨"PLN_ADDR_ERR_LO", 0x0, 1, 0x200, 0x0, 1, 0x0, 1,
    [⟨31, 0, .rd, 0x0⟩]⟩,
  ⟨"PLN_ADDR_ERR_HI", 0x0, 1, 0x204, 0x0, 1, 0x0, 1,
    [⟨31, 0, .rd, 0x0⟩]⟩,
  ⟨"PLN_ADDR_ERR_INFO", 0x0, 1, 0x208, 0x0, 1, 0x0, 1,
    [⟨31, 31, .w1c, 0x0⟩, ⟨30, 30, .w1c, 0x0⟩, ⟨29, 29, .rd, 0x0⟩, ⟨26, 24, .rd, 0x0⟩, ⟨23, 20, .rd, 0x0⟩, ⟨15, 0, .rd, 0x0⟩]⟩,
  ⟨"SCT_CTRL", 0x8, 1, 0x0, 0x0, 1, 0x0, 1,
    [⟨31, 31, .rw, 0x0⟩, ⟨30, 30, .rw, 0x1⟩]⟩,
  ⟨"SCT_STEP", 0x8, 1, 0x4, 0x0, 1, 0x0, 1,
    [⟨31, 0, .rw, 0x0⟩]⟩,
  ⟨"SCT_ADV_STATUS", 0x8, 1, 0x8, 0x0, 1, 0x0, 1,
    [⟨31, 31, .rd, 0x0⟩, ⟨30, 30, .w1c, 0x0⟩, ⟨15, 0, .rd, 0x0⟩]⟩,
  ⟨"SCT_SEED_LO", 0x8, 1, 0x10, 0x0, 1, 0x0, 1,
    [⟨31, 0, .rw, 0x0⟩]⟩,
  ⟨"SCT_SEED_HI", 0x8, 1, 0x14, 0x0, 1, 0x0, 1,
    [⟨31, 0, .rw, 0x0⟩]⟩,
  ⟨"SCT_WIN_CMD", 0x8, 1, 0x20, 0x0, 1, 0x0, 1,
    [⟨31, 30, .rw, 0x0⟩, ⟨14, 0, .rw, 0x0⟩]⟩]

/-- The register tables, part 1. -/
def regTable1 : List RegRow := [
  ⟨"SCT_WIN_STATUS", 0x8, 1, 0x24, 0x0, 1, 0x0, 1,
    [⟨31, 31, .rd, 0x0⟩, ⟨30, 30, .rd, 0x0⟩, ⟨15, 0, .rd, 0x0⟩]⟩,
  ⟨"SCT_SAT_TOTAL", 0x8, 1, 0x30, 0x0, 1, 0x0, 1,
    [⟨31, 0, .rd, 0x0⟩]⟩,
  ⟨"SCT_UFL_TOTAL", 0x8, 1, 0x34, 0x0, 1, 0x0, 1,
    [⟨31, 0, .rd, 0x0⟩]⟩,
  ⟨"SCT_NONFIN_TOTAL", 0x8, 1, 0x38, 0x0, 1, 0x0, 1,
    [⟨31, 0, .rd, 0x0⟩]⟩,
  ⟨"SCT_WIN_DATAk", 0x8, 1, 0x40, 0x4, 16, 0x0, 1,
    [⟨31, 0, .rw, 0x0⟩]⟩,
  ⟨"PLN_CQn_RING_LO", 0x0, 1, 0x1000, 0x20, 16, 0x0, 1,
    [⟨31, 0, .rw, 0x0⟩]⟩,
  ⟨"PLN_CQn_RING_HI", 0x0, 1, 0x1004, 0x20, 16, 0x0, 1,
    [⟨15, 0, .rw, 0x0⟩]⟩,
  ⟨"PLN_CQn_CPL_LO", 0x0, 1, 0x1008, 0x20, 16, 0x0, 1,
    [⟨31, 0, .rw, 0x0⟩]⟩,
  ⟨"PLN_CQn_CPL_HI", 0x0, 1, 0x100c, 0x20, 16, 0x0, 1,
    [⟨15, 0, .rw, 0x0⟩]⟩,
  ⟨"PLN_CQn_CFG", 0x0, 1, 0x1010, 0x20, 16, 0x0, 1,
    [⟨31, 31, .rw, 0x0⟩, ⟨30, 30, .rw, 0x1⟩, ⟨23, 20, .rw, 0x0⟩]⟩,
  ⟨"PLN_CQn_TAIL", 0x0, 1, 0x1014, 0x20, 16, 0x0, 1,
    [⟨19, 0, .rw, 0x0⟩]⟩,
  ⟨"PLN_CQn_CPL_HEAD", 0x0, 1, 0x1018, 0x20, 16, 0x0, 1,
    [⟨19, 0, .rw, 0x0⟩]⟩]

/-- The register tables, part 2. -/
def regTable2 : List RegRow := [
  ⟨"PLN_CQn_STATUS", 0x0, 1, 0x101c, 0x20, 16, 0x0, 1,
    [⟨31, 31, .rd, 0x0⟩, ⟨30, 28, .rd, 0x0⟩, ⟨25, 20, .rd, 0x0⟩, ⟨19, 0, .rd, 0x0⟩]⟩,
  ⟨"PLN_SCHED_Vk", 0x0, 1, 0x1400, 0x4, 16, 0x0, 1,
    [⟨31, 0, .rd, 0x0⟩]⟩,
  ⟨"STR_SEMk", 0x100, 96, 0x400, 0x4, 256, 0x0, 1,
    [⟨31, 31, .w1c, 0x0⟩, ⟨30, 24, .rd, 0x0⟩, ⟨15, 0, .rw, 0x0⟩]⟩,
  ⟨"STR_CTXe_c", 0x100, 96, 0x800, 0x10, 17, 0x4, 4,
    [⟨31, 29, .rd, 0x0⟩, ⟨28, 25, .rd, 0x0⟩, ⟨24, 17, .rd, 0x0⟩, ⟨14, 0, .rd, 0x0⟩]⟩,
  ⟨"MEM_CFG", 0x40, 1, 0x0, 0x0, 1, 0x0, 1,
    [⟨31, 31, .lk, 0x0⟩, ⟨3, 2, .rd, 0x1⟩, ⟨1, 0, .lk, 0x1⟩]⟩,
  ⟨"MEM_SCRUB", 0x40, 1, 0x4, 0x0, 1, 0x0, 1,
    [⟨31, 31, .rw, 0x1⟩, ⟨23, 16, .rw, 0x18⟩, ⟨15, 8, .rw, 0x18⟩, ⟨7, 0, .rw, 0x8⟩]⟩,
  ⟨"MEM_PF", 0x40, 1, 0x8, 0x0, 1, 0x0, 1,
    [⟨31, 31, .rw, 0x1⟩, ⟨4, 0, .rw, 0x8⟩]⟩,
  ⟨"MEM_H_STATUS", 0x40, 24, 0x100, 0x0, 1, 0x0, 1,
    [⟨31, 30, .rd, 0x0⟩, ⟨5, 0, .rd, 0x0⟩]⟩,
  ⟨"MEM_H_CHRET", 0x40, 24, 0x104, 0x0, 1, 0x0, 1,
    [⟨31, 0, .rd, 0x0⟩]⟩,
  ⟨"MEM_H_CE", 0x40, 24, 0x108, 0x0, 1, 0x0, 1,
    [⟨31, 0, .rd, 0x0⟩]⟩,
  ⟨"MEM_H_UE", 0x40, 24, 0x10c, 0x0, 1, 0x0, 1,
    [⟨31, 0, .rd, 0x0⟩]⟩,
  ⟨"MEM_H_HOLE", 0x40, 24, 0x110, 0x0, 1, 0x0, 1,
    [⟨31, 31, .w1c, 0x0⟩, ⟨30, 30, .w1c, 0x0⟩, ⟨15, 0, .rd, 0x0⟩]⟩]

/-- The register tables, part 3. -/
def regTable3 : List RegRow := [
  ⟨"MEM_H_HOLE_ADDR", 0x40, 24, 0x114, 0x0, 1, 0x0, 1,
    [⟨27, 0, .rd, 0x0⟩]⟩,
  ⟨"MEM_H_RETPG_CNT", 0x40, 24, 0x118, 0x0, 1, 0x0, 1,
    [⟨9, 0, .rd, 0x0⟩]⟩,
  ⟨"MEM_H_RETPG_IDX", 0x40, 24, 0x11c, 0x0, 1, 0x0, 1,
    [⟨8, 0, .rw, 0x0⟩]⟩,
  ⟨"MEM_H_RETPG_DATA", 0x40, 24, 0x120, 0x0, 1, 0x0, 1,
    [⟨31, 31, .rd, 0x0⟩, ⟨27, 25, .rd, 0x0⟩, ⟨24, 0, .rd, 0x0⟩]⟩,
  ⟨"MEM_H_SCRUB", 0x40, 24, 0x124, 0x0, 1, 0x0, 1,
    [⟨31, 24, .rd, 0x0⟩, ⟨6, 0, .rd, 0x0⟩]⟩,
  ⟨"MEM_SRAM_CFG", 0x58, 4, 0x0, 0x0, 1, 0x0, 1,
    [⟨3, 0, .rw, 0x6⟩]⟩,
  ⟨"MEM_SRAM_STATUS", 0x58, 4, 0x4, 0x0, 1, 0x0, 1,
    [⟨31, 31, .rd, 0x0⟩, ⟨30, 30, .w1c, 0x0⟩, ⟨3, 0, .rd, 0x6⟩]⟩,
  ⟨"MEM_SRAM_WINk", 0x58, 4, 0x10, 0x4, 8, 0x0, 1,
    [⟨31, 31, .rw, 0x0⟩, ⟨30, 30, .rw, 0x0⟩, ⟨27, 14, .rw, 0x0⟩, ⟨13, 0, .rw, 0x0⟩]⟩,
  ⟨"MEM_SRAM_HIT", 0x58, 4, 0x40, 0x0, 1, 0x0, 1,
    [⟨31, 0, .rd, 0x0⟩]⟩,
  ⟨"MEM_SRAM_MISS", 0x58, 4, 0x44, 0x0, 1, 0x0, 1,
    [⟨31, 0, .rd, 0x0⟩]⟩,
  ⟨"MEM_SRAM_CE", 0x58, 4, 0x48, 0x0, 1, 0x0, 1,
    [⟨31, 0, .rd, 0x0⟩]⟩,
  ⟨"MEM_SRAM_UE", 0x58, 4, 0x4c, 0x0, 1, 0x0, 1,
    [⟨31, 0, .rd, 0x0⟩]⟩]

/-- The register tables, part 4. -/
def regTable4 : List RegRow := [
  ⟨"STR_STALL_CFG", 0x100, 96, 0x0, 0x0, 1, 0x0, 1,
    [⟨31, 16, .rw, 0x32⟩, ⟨15, 0, .rw, 0xc8⟩]⟩,
  ⟨"STR_STALL_CNT", 0x100, 96, 0x4, 0x0, 1, 0x0, 1,
    [⟨31, 16, .rd, 0x0⟩, ⟨15, 0, .rd, 0x0⟩]⟩,
  ⟨"STR_LAST_STALL", 0x100, 96, 0x8, 0x0, 1, 0x0, 1,
    [⟨31, 31, .w1c, 0x0⟩, ⟨30, 26, .rd, 0x0⟩, ⟨25, 23, .rd, 0x0⟩, ⟨22, 19, .rd, 0x0⟩, ⟨18, 18, .rd, 0x0⟩, ⟨17, 17, .rd, 0x0⟩]⟩,
  ⟨"STR_LAST_DUR", 0x100, 96, 0xc, 0x0, 1, 0x0, 1,
    [⟨31, 0, .rd, 0x0⟩]⟩,
  ⟨"STR_SHADOW", 0x100, 96, 0x10, 0x0, 1, 0x0, 1,
    [⟨31, 16, .rd, 0x0⟩, ⟨6, 0, .rd, 0x0⟩]⟩,
  ⟨"PLN_PHASE", 0x0, 1, 0x300, 0x0, 1, 0x0, 1,
    [⟨31, 30, .rd, 0x0⟩, ⟨15, 0, .rd, 0x0⟩]⟩,
  ⟨"PLN_PHASE_T_LO", 0x0, 1, 0x308, 0x0, 1, 0x0, 1,
    [⟨31, 0, .rd, 0x0⟩]⟩,
  ⟨"PLN_PHASE_T_HI", 0x0, 1, 0x30c, 0x0, 1, 0x0, 1,
    [⟨31, 0, .rd, 0x0⟩]⟩,
  ⟨"RIF_CFG", 0x20, 1, 0x0, 0x0, 1, 0x0, 1,
    [⟨31, 31, .lk, 0x0⟩, ⟨30, 30, .lk, 0x0⟩, ⟨4, 0, .rw, 0x10⟩]⟩,
  ⟨"RIF_PKG_STATUS", 0x20, 1, 0x4, 0x0, 1, 0x0, 1,
    [⟨31, 31, .rd, 0x0⟩, ⟨19, 16, .rd, 0x0⟩, ⟨15, 0, .rd, 0x0⟩]⟩,
  ⟨"RIF_SKIPS", 0x20, 1, 0x8, 0x0, 1, 0x0, 1,
    [⟨31, 0, .rd, 0x0⟩]⟩,
  ⟨"RIF_ROOT", 0x20, 1, 0xc, 0x0, 1, 0x0, 1,
    [⟨31, 31, .rd, 0x0⟩, ⟨15, 0, .rd, 0x0⟩]⟩]

/-- The register tables, part 5. -/
def regTable5 : List RegRow := [
  ⟨"RIF_STATUS", 0x20, 4, 0x100, 0x0, 1, 0x0, 1,
    [⟨31, 30, .rd, 0x0⟩, ⟨4, 0, .rd, 0x0⟩]⟩,
  ⟨"RIF_CHUNKS", 0x20, 4, 0x104, 0x0, 1, 0x0, 1,
    [⟨31, 0, .rd, 0x0⟩]⟩,
  ⟨"RIF_LAG", 0x20, 4, 0x108, 0x0, 1, 0x0, 1,
    [⟨31, 0, .rd, 0x0⟩]⟩,
  ⟨"RIF_ZERO", 0x20, 4, 0x10c, 0x0, 1, 0x0, 1,
    [⟨31, 0, .rd, 0x0⟩]⟩,
  ⟨"WPL_STRAP", 0x10, 1, 0x0, 0x0, 1, 0x0, 1,
    [⟨31, 31, .rd, 0x0⟩, ⟨30, 30, .rd, 0x0⟩, ⟨15, 0, .rd, 0x0⟩]⟩,
  ⟨"WPL_DISC_CFG", 0x10, 1, 0x4, 0x0, 1, 0x0, 1,
    [⟨31, 31, .lk, 0x0⟩, ⟨30, 30, .lk, 0x0⟩, ⟨29, 29, .lk, 0x0⟩, ⟨28, 28, .lk, 0x1⟩, ⟨27, 27, .lk, 0x0⟩]⟩,
  ⟨"WPL_DISC_STATUS", 0x10, 1, 0x8, 0x0, 1, 0x0, 1,
    [⟨31, 31, .rd, 0x0⟩, ⟨30, 30, .w1c, 0x0⟩, ⟨29, 29, .w1c, 0x0⟩, ⟨23, 12, .rd, 0x0⟩, ⟨11, 0, .rd, 0x0⟩]⟩,
  ⟨"WPL_REV", 0x10, 1, 0xc, 0x0, 1, 0x0, 1,
    [⟨7, 0, .rd, 0x0⟩]⟩,
  ⟨"WPL_FW_MIN", 0x10, 1, 0x10, 0x0, 1, 0x0, 1,
    [⟨31, 0, .rw, 0x0⟩]⟩,
  ⟨"WPL_FW_MAX", 0x10, 1, 0x14, 0x0, 1, 0x0, 1,
    [⟨31, 0, .rw, 0xffffffff⟩]⟩,
  ⟨"WPL_FENCE_LO", 0x10, 1, 0x18, 0x0, 1, 0x0, 1,
    [⟨31, 0, .rw, 0x0⟩]⟩,
  ⟨"WPL_FENCE_HI", 0x10, 1, 0x1c, 0x0, 1, 0x0, 1,
    [⟨31, 0, .rw, 0x0⟩]⟩]

/-- The register tables, part 6. -/
def regTable6 : List RegRow := [
  ⟨"WPL_NBR_CMD", 0x10, 1, 0x20, 0x0, 1, 0x0, 1,
    [⟨31, 30, .rw, 0x0⟩, ⟨5, 0, .rw, 0x0⟩]⟩,
  ⟨"WPL_NBR_STATUS", 0x10, 1, 0x24, 0x0, 1, 0x0, 1,
    [⟨31, 31, .rd, 0x0⟩, ⟨30, 30, .rd, 0x0⟩, ⟨15, 0, .rd, 0x0⟩]⟩,
  ⟨"WPL_NBR_DATAk", 0x10, 1, 0x30, 0x4, 4, 0x0, 1,
    [⟨31, 0, .rw, 0x0⟩]⟩,
  ⟨"WPL_CFG", 0x10, 12, 0x100, 0x0, 1, 0x0, 1,
    [⟨31, 31, .rw, 0x1⟩, ⟨30, 30, .rw, 0x0⟩, ⟨29, 28, .rw, 0x2⟩]⟩,
  ⟨"WPL_CTRL", 0x10, 12, 0x104, 0x0, 1, 0x0, 1,
    [⟨31, 31, .rw, 0x0⟩, ⟨30, 30, .rw, 0x0⟩, ⟨29, 29, .rw, 0x0⟩, ⟨28, 28, .rw, 0x0⟩]⟩,
  ⟨"WPL_STATUS", 0x10, 12, 0x108, 0x0, 1, 0x0, 1,
    [⟨31, 28, .rd, 0x0⟩, ⟨27, 24, .rd, 0x0⟩, ⟨23, 22, .rd, 0x0⟩, ⟨21, 20, .rd, 0x0⟩, ⟨19, 19, .rd, 0x0⟩, ⟨18, 18, .rd, 0x0⟩, ⟨15, 12, .rd, 0x0⟩, ⟨11, 8, .rd, 0x0⟩, ⟨7, 0, .rd, 0x0⟩]⟩,
  ⟨"WPL_PEER_ID", 0x10, 12, 0x10c, 0x0, 1, 0x0, 1,
    [⟨31, 30, .rd, 0x0⟩, ⟨23, 16, .rd, 0x0⟩, ⟨15, 0, .rd, 0x0⟩]⟩,
  ⟨"WPL_PEER_SER_LO", 0x10, 12, 0x110, 0x0, 1, 0x0, 1,
    [⟨31, 0, .rd, 0x0⟩]⟩,
  ⟨"WPL_PEER_SER_HI", 0x10, 12, 0x114, 0x0, 1, 0x0, 1,
    [⟨31, 0, .rd, 0x0⟩]⟩,
  ⟨"WPL_PEER_FW", 0x10, 12, 0x118, 0x0, 1, 0x0, 1,
    [⟨31, 0, .rd, 0x0⟩]⟩,
  ⟨"WPL_ERR", 0x10, 12, 0x11c, 0x0, 1, 0x0, 1,
    [⟨31, 16, .rd, 0x0⟩, ⟨15, 8, .rd, 0x0⟩, ⟨7, 0, .rd, 0x0⟩]⟩,
  ⟨"WPL_FEC_CE", 0x10, 12, 0x120, 0x0, 1, 0x0, 1,
    [⟨31, 0, .rd, 0x0⟩]⟩]

/-- The register tables, part 7. -/
def regTable7 : List RegRow := [
  ⟨"WPL_FEC_UE", 0x10, 12, 0x124, 0x0, 1, 0x0, 1,
    [⟨31, 0, .rd, 0x0⟩]⟩,
  ⟨"WPL_LANE", 0x10, 12, 0x128, 0x0, 1, 0x0, 1,
    [⟨31, 16, .rd, 0x0⟩, ⟨15, 0, .rd, 0x0⟩]⟩,
  ⟨"CLV_CFG", 0x9, 1, 0x0, 0x0, 1, 0x0, 1,
    [⟨31, 16, .rw, 0x7530⟩, ⟨11, 0, .rw, 0x0⟩]⟩,
  ⟨"CLV_STATUS", 0x9, 1, 0x4, 0x0, 1, 0x0, 1,
    [⟨31, 16, .rd, 0x0⟩, ⟨15, 0, .rd, 0x0⟩]⟩,
  ⟨"CLV_GRP_CMD", 0x9, 1, 0x10, 0x0, 1, 0x0, 1,
    [⟨31, 30, .rw, 0x0⟩, ⟨11, 0, .rw, 0x0⟩]⟩,
  ⟨"CLV_GRP_STATUS", 0x9, 1, 0x14, 0x0, 1, 0x0, 1,
    [⟨31, 31, .rd, 0x0⟩, ⟨30, 30, .rd, 0x0⟩, ⟨15, 0, .rd, 0x0⟩]⟩,
  ⟨"CLV_GRP_DATAk", 0x9, 1, 0x20, 0x4, 8, 0x0, 1,
    [⟨31, 0, .rw, 0x0⟩]⟩,
  ⟨"CLV_TB_LO", 0x9, 1, 0x100, 0x0, 1, 0x0, 1,
    [⟨31, 0, .rd, 0x0⟩]⟩,
  ⟨"CLV_TB_HI", 0x9, 1, 0x104, 0x0, 1, 0x0, 1,
    [⟨31, 0, .rd, 0x0⟩]⟩,
  ⟨"CLV_TB_CFG", 0x9, 1, 0x108, 0x0, 1, 0x0, 1,
    [⟨31, 30, .rw, 0x0⟩, ⟨29, 29, .rw, 0x0⟩, ⟨28, 28, .rw, 0x0⟩, ⟨7, 0, .rw, 0x0⟩]⟩,
  ⟨"CLV_TB_ARM_LO", 0x9, 1, 0x110, 0x0, 1, 0x0, 1,
    [⟨31, 0, .rw, 0x0⟩]⟩,
  ⟨"CLV_TB_ARM_HI", 0x9, 1, 0x114, 0x0, 1, 0x0, 1,
    [⟨31, 0, .rw, 0x0⟩]⟩]

/-- The register tables, part 8. -/
def regTable8 : List RegRow := [
  ⟨"CLV_TB_STATUS", 0x9, 1, 0x118, 0x0, 1, 0x0, 1,
    [⟨31, 31, .rd, 0x0⟩, ⟨30, 30, .rd, 0x0⟩, ⟨29, 29, .w1c, 0x0⟩, ⟨28, 28, .rd, 0x0⟩, ⟨27, 27, .w1c, 0x0⟩, ⟨15, 0, .rd, 0x0⟩]⟩,
  ⟨"CLV_TB_OFS", 0x9, 1, 0x11c, 0x0, 1, 0x0, 1,
    [⟨31, 0, .rd, 0x0⟩]⟩,
  ⟨"CLV_TB_ASYM", 0x9, 1, 0x124, 0x0, 1, 0x0, 1,
    [⟨31, 0, .rw, 0x0⟩]⟩,
  ⟨"CLV_TB_PEER", 0x9, 1, 0x120, 0x0, 1, 0x0, 1,
    [⟨19, 16, .rw, 0x7⟩, ⟨15, 0, .rw, 0x0⟩]⟩,
  ⟨"CLV_BAR_CFG", 0x9, 1, 0x200, 0x0, 1, 0x0, 1,
    [⟨31, 16, .rw, 0x14⟩, ⟨15, 0, .rw, 0x3e8⟩]⟩,
  ⟨"CLV_WAVE", 0x9, 1, 0x204, 0x0, 1, 0x0, 1,
    [⟨31, 16, .rw, 0x1f4⟩, ⟨4, 0, .rw, 0x2⟩]⟩,
  ⟨"CLV_BAR_LAST", 0x9, 1, 0x208, 0x0, 1, 0x0, 1,
    [⟨31, 31, .rd, 0x0⟩, ⟨27, 24, .rd, 0x0⟩, ⟨23, 20, .rd, 0x0⟩, ⟨15, 0, .rd, 0x0⟩]⟩,
  ⟨"CLV_PEER_PACE", 0x9, 1, 0x210, 0x0, 1, 0x0, 1,
    [⟨31, 31, .rd, 0x0⟩, ⟨27, 24, .rd, 0x0⟩, ⟨23, 20, .rd, 0x0⟩, ⟨15, 0, .rd, 0x0⟩]⟩,
  ⟨"CLV_BAR_SPREAD", 0x9, 1, 0x20c, 0x0, 1, 0x0, 1,
    [⟨31, 0, .rd, 0x0⟩]⟩,
  ⟨"CLV_LATE_REL", 0x9, 1, 0x218, 0x0, 1, 0x0, 1,
    [⟨31, 0, .rd, 0x0⟩]⟩,
  ⟨"CLV_PACE_CFG", 0x9, 1, 0x214, 0x0, 1, 0x0, 1,
    [⟨31, 31, .rw, 0x0⟩, ⟨23, 20, .rw, 0xc⟩, ⟨19, 16, .rd, 0x0⟩, ⟨15, 15, .rd, 0x0⟩]⟩,
  ⟨"CLV_IDLE_c_LO", 0x9, 1, 0x300, 0x8, 7, 0x0, 1,
    [⟨31, 0, .rd, 0x0⟩]⟩]

/-- The register tables, part 9. -/
def regTable9 : List RegRow := [
  ⟨"CLV_IDLE_c_HI", 0x9, 1, 0x304, 0x8, 7, 0x0, 1,
    [⟨31, 0, .rd, 0x0⟩]⟩,
  ⟨"HEL_STATUS", 0x4, 4, 0x0, 0x0, 1, 0x0, 1,
    [⟨31, 28, .rd, 0x4⟩, ⟨27, 27, .rd, 0x0⟩, ⟨26, 26, .w1c, 0x0⟩, ⟨25, 16, .rd, 0x0⟩, ⟨15, 12, .rd, 0x0⟩, ⟨11, 0, .rd, 0x0⟩]⟩,
  ⟨"HEL_VTk", 0x4, 4, 0x100, 0x4, 16, 0x0, 1,
    [⟨25, 16, .fx, 0⟩, ⟨15, 8, .rw, 0x0⟩, ⟨7, 0, .rd, 0x0⟩]⟩,
  ⟨"COL_CFG", 0x1, 1, 0x0, 0x0, 1, 0x0, 1,
    [⟨31, 31, .lk, 0x0⟩, ⟨30, 30, .lk, 0x1⟩, ⟨29, 29, .lk, 0x0⟩, ⟨23, 16, .lk, 0x0⟩, ⟨15, 8, .lk, 0x0⟩, ⟨7, 0, .lk, 0x0⟩]⟩,
  ⟨"COL_STATUS", 0x1, 1, 0x4, 0x0, 1, 0x0, 1,
    [⟨31, 29, .rd, 0x0⟩, ⟨15, 0, .rd, 0x0⟩]⟩,
  ⟨"COL_OUTn_CFG", 0x1, 1, 0x10, 0x4, 2, 0x0, 1,
    [⟨31, 31, .rw, 0x0⟩, ⟨23, 16, .rw, 0x0⟩, ⟨15, 8, .rw, 0x0⟩, ⟨5, 0, .rw, 0xb⟩]⟩,
  ⟨"COL_FCNT_CTRL", 0x1, 1, 0x20, 0x0, 1, 0x0, 1,
    [⟨31, 31, .rw, 0x0⟩, ⟨23, 20, .rw, 0x0⟩, ⟨7, 0, .rw, 0x0⟩]⟩,
  ⟨"COL_FCNT_RESULT", 0x1, 1, 0x24, 0x0, 1, 0x0, 1,
    [⟨31, 0, .rd, 0x0⟩]⟩,
  ⟨"DIA_CAP", 0x2, 1, 0x0, 0x0, 1, 0x0, 1,
    [⟨31, 31, .lk, 0x0⟩, ⟨11, 0, .lk, 0xaf0⟩]⟩,
  ⟨"DIA_PRIO", 0x2, 1, 0x4, 0x0, 1, 0x0, 1,
    [⟨5, 0, .lk, 0x24⟩]⟩,
  ⟨"DIA_STATUS", 0x2, 1, 0x8, 0x0, 1, 0x0, 1,
    [⟨31, 28, .rd, 0x4⟩, ⟨27, 24, .rd, 0x0⟩, ⟨23, 20, .rd, 0x0⟩, ⟨19, 19, .w1c, 0x0⟩, ⟨18, 18, .rd, 0x0⟩, ⟨17, 17, .rd, 0x0⟩, ⟨15, 0, .rd, 0x0⟩]⟩,
  ⟨"DIA_MINc", 0x2, 1, 0x10, 0x4, 3, 0x0, 1,
    [⟨11, 0, .lk, 0⟩]⟩]

/-- The register tables, part 10. -/
def regTable10 : List RegRow := [
  ⟨"DIA_PWRc", 0x2, 1, 0x20, 0x4, 4, 0x0, 1,
    [⟨31, 16, .rd, 0x0⟩, ⟨15, 0, .rd, 0x0⟩]⟩,
  ⟨"DIA_WTRIM", 0x2, 1, 0x30, 0x0, 1, 0x0, 1,
    [⟨23, 16, .rw, 0x0⟩, ⟨15, 8, .rw, 0x0⟩, ⟨7, 0, .rw, 0x0⟩]⟩,
  ⟨"DIA_PACE", 0x2, 1, 0x40, 0x0, 1, 0x0, 1,
    [⟨31, 28, .rw, 0x4⟩, ⟨27, 24, .rw, 0xc⟩, ⟨23, 20, .rd, 0x4⟩, ⟨19, 16, .rd, 0x0⟩, ⟨15, 12, .rd, 0x0⟩, ⟨11, 8, .rd, 0x0⟩, ⟨7, 4, .rd, 0x0⟩]⟩,
  ⟨"DIA_PACEN", 0x2, 1, 0x44, 0x0, 1, 0x0, 1,
    [⟨31, 24, .rd, 0x0⟩, ⟨23, 16, .rd, 0x0⟩, ⟨15, 8, .rd, 0x0⟩, ⟨7, 0, .rd, 0x0⟩]⟩,
  ⟨"DIA_THERM", 0x2, 1, 0x48, 0x0, 1, 0x0, 1,
    [⟨31, 22, .rd, 0x0⟩, ⟨15, 0, .rd, 0x0⟩]⟩,
  ⟨"DIA_SAG", 0x2, 1, 0x4c, 0x0, 1, 0x0, 1,
    [⟨31, 29, .rd, 0x0⟩, ⟨15, 0, .rd, 0x0⟩]⟩,
  ⟨"DIA_TRIP", 0x2, 1, 0x50, 0x0, 1, 0x0, 1,
    [⟨31, 31, .rw, 0x0⟩, ⟨15, 0, .rd, 0x0⟩]⟩,
  ⟨"DIA_PSTATE", 0x2, 1, 0x54, 0x0, 1, 0x0, 1,
    [⟨31, 29, .rd, 0x1⟩, ⟨28, 27, .rw, 0x0⟩]⟩,
  ⟨"FLT_CFG", 0xa, 1, 0x0, 0x0, 1, 0x0, 1,
    [⟨31, 31, .lk, 0x0⟩, ⟨30, 30, .lk, 0x1⟩, ⟨29, 29, .rw, 0x1⟩, ⟨28, 28, .rw, 0x0⟩, ⟨27, 27, .rw, 0x1⟩]⟩,
  ⟨"FLT_RING", 0xa, 1, 0x4, 0x0, 1, 0x0, 1,
    [⟨31, 16, .rd, 0x0⟩, ⟨15, 0, .rd, 0x0⟩]⟩,
  ⟨"FLT_LAST_RSEQ", 0xa, 1, 0x8, 0x0, 1, 0x0, 1,
    [⟨31, 0, .rd, 0x0⟩]⟩,
  ⟨"FLT_STATUS", 0xa, 1, 0xc, 0x0, 1, 0x0, 1,
    [⟨31, 31, .w1c, 0x0⟩, ⟨30, 24, .rd, 0x0⟩, ⟨23, 12, .rd, 0x0⟩, ⟨11, 0, .rd, 0x0⟩]⟩]

/-- The register tables, part 11. -/
def regTable11 : List RegRow := [
  ⟨"FLT_SVC_TIME", 0xa, 1, 0x10, 0x0, 1, 0x0, 1,
    [⟨31, 0, .rd, 0x0⟩]⟩,
  ⟨"FLT_WIN_CMD", 0xa, 1, 0x20, 0x0, 1, 0x0, 1,
    [⟨31, 30, .rw, 0x0⟩, ⟨29, 28, .rw, 0x0⟩, ⟨27, 0, .rw, 0x0⟩]⟩,
  ⟨"FLT_WIN_STATUS", 0xa, 1, 0x24, 0x0, 1, 0x0, 1,
    [⟨31, 31, .rd, 0x0⟩, ⟨30, 30, .rd, 0x0⟩, ⟨15, 0, .rd, 0x0⟩]⟩,
  ⟨"FLT_WIN_DATAk", 0xa, 1, 0x40, 0x4, 16, 0x0, 1,
    [⟨31, 0, .rw, 0x0⟩]⟩,
  ⟨"FLT_HMIR_LO", 0xa, 1, 0x80, 0x0, 1, 0x0, 1,
    [⟨31, 0, .rw, 0x0⟩]⟩,
  ⟨"FLT_HMIR_HI", 0xa, 1, 0x84, 0x0, 1, 0x0, 1,
    [⟨31, 0, .rw, 0x0⟩]⟩,
  ⟨"FLT_HMIR_CFG", 0xa, 1, 0x88, 0x0, 1, 0x0, 1,
    [⟨31, 31, .rw, 0x0⟩, ⟨3, 0, .rw, 0x0⟩]⟩,
  ⟨"FLT_HMIR_TAIL", 0xa, 1, 0x8c, 0x0, 1, 0x0, 1,
    [⟨19, 0, .rd, 0x0⟩]⟩,
  ⟨"FLT_HMIR_HEAD", 0xa, 1, 0x90, 0x0, 1, 0x0, 1,
    [⟨19, 0, .rw, 0x0⟩]⟩,
  ⟨"FLT_HMIR_LOST", 0xa, 1, 0x94, 0x0, 1, 0x0, 1,
    [⟨31, 0, .rd, 0x0⟩]⟩,
  ⟨"FLT_LP", 0xa, 1, 0xa0, 0x0, 1, 0x0, 1,
    [⟨31, 16, .rd, 0x0⟩, ⟨15, 8, .rd, 0x0⟩, ⟨7, 0, .rd, 0x0⟩]⟩,
  ⟨"FLT_LP_ADV_TAIL", 0xa, 1, 0xa4, 0x0, 1, 0x0, 1,
    [⟨7, 0, .rd, 0x0⟩]⟩]

/-- The register tables, part 12. -/
def regTable12 : List RegRow := [
  ⟨"TST_CFG", 0xb, 1, 0x0, 0x0, 1, 0x0, 1,
    [⟨31, 31, .lk, 0x0⟩, ⟨30, 30, .lk, 0x1⟩, ⟨23, 16, .rw, 0x18⟩, ⟨15, 0, .rw, 0x1f4⟩]⟩,
  ⟨"TST_STATUS", 0xb, 1, 0x4, 0x0, 1, 0x0, 1,
    [⟨31, 31, .rd, 0x0⟩, ⟨30, 30, .rd, 0x0⟩]⟩,
  ⟨"TST_COUNT", 0xb, 1, 0x8, 0x0, 1, 0x0, 1,
    [⟨31, 16, .rd, 0x0⟩, ⟨15, 8, .rd, 0x0⟩, ⟨7, 0, .rd, 0x0⟩]⟩,
  ⟨"TST_THR", 0xb, 1, 0xc, 0x0, 1, 0x0, 1,
    [⟨31, 31, .lk, 0x0⟩, ⟨23, 16, .lk, 0x20⟩, ⟨15, 8, .lk, 0x8⟩, ⟨7, 4, .lk, 0x2⟩]⟩,
  ⟨"TST_HANG", 0xb, 1, 0x10, 0x0, 1, 0x0, 1,
    [⟨31, 31, .rw, 0x1⟩, ⟨15, 0, .rd, 0x0⟩]⟩,
  ⟨"TST_RESET", 0xb, 1, 0x14, 0x0, 1, 0x0, 1,
    [⟨31, 28, .rw, 0x0⟩, ⟨27, 26, .rw, 0x0⟩, ⟨25, 21, .rw, 0x0⟩, ⟨20, 11, .rw, 0x0⟩]⟩,
  ⟨"TST_ESC", 0xb, 1, 0x18, 0x0, 1, 0x0, 1,
    [⟨31, 24, .rd, 0x0⟩, ⟨23, 20, .rd, 0x0⟩]⟩,
  ⟨"TST_CAP_ADDR_LO", 0xb, 1, 0x20, 0x0, 1, 0x0, 1,
    [⟨31, 0, .rw, 0x0⟩]⟩,
  ⟨"TST_CAP_ADDR_HI", 0xb, 1, 0x24, 0x0, 1, 0x0, 1,
    [⟨31, 0, .rw, 0x0⟩]⟩,
  ⟨"TST_CAP_CMD", 0xb, 1, 0x28, 0x0, 1, 0x0, 1,
    [⟨31, 30, .rw, 0x0⟩, ⟨29, 29, .rw, 0x0⟩, ⟨7, 0, .rw, 0x0⟩]⟩,
  ⟨"TST_CAP_STATUS", 0xb, 1, 0x2c, 0x0, 1, 0x0, 1,
    [⟨31, 31, .rd, 0x0⟩, ⟨30, 28, .rd, 0x0⟩, ⟨24, 16, .rd, 0x0⟩, ⟨15, 0, .rd, 0x0⟩]⟩,
  ⟨"TST_DUMP", 0xb, 1, 0x30, 0x0, 1, 0x0, 1,
    [⟨31, 31, .w1c, 0x0⟩, ⟨30, 30, .w1c, 0x0⟩, ⟨29, 29, .rw, 0x0⟩, ⟨23, 20, .rd, 0x0⟩, ⟨19, 16, .rd, 0x0⟩, ⟨15, 0, .rd, 0x0⟩]⟩]

/-- The register tables, part 13. -/
def regTable13 : List RegRow := [
  ⟨"TST_AGEd", 0xb, 1, 0x40, 0x4, 4, 0x0, 1,
    [⟨31, 16, .rd, 0xffff⟩, ⟨15, 15, .w1c, 0x0⟩, ⟨9, 0, .rd, 0x0⟩]⟩,
  ⟨"STR_SLOTMAPj", 0x100, 96, 0x40, 0x4, 4, 0x0, 1,
    [⟨7, 7, .rd, 0⟩, ⟨4, 0, .rd, 0⟩, ⟨15, 15, .rd, 0⟩, ⟨12, 8, .rd, 0⟩, ⟨23, 23, .rd, 0⟩, ⟨20, 16, .rd, 0⟩, ⟨31, 31, .rd, 0⟩, ⟨28, 24, .rd, 0⟩]⟩,
  ⟨"STR_SPARE", 0x100, 96, 0x50, 0x0, 1, 0x0, 1,
    [⟨31, 31, .rd, 0x0⟩, ⟨30, 30, .rd, 0x0⟩, ⟨29, 29, .rd, 0x0⟩, ⟨28, 24, .rd, 0x10⟩, ⟨16, 0, .rd, 0x0⟩]⟩,
  ⟨"PLN_BOOT", 0x0, 1, 0x20, 0x0, 1, 0x0, 1,
    [⟨31, 28, .rd, 0x0⟩, ⟨27, 24, .rd, 0x0⟩, ⟨23, 20, .rd, 0x0⟩, ⟨15, 0, .rd, 0x0⟩]⟩,
  ⟨"SEC_LIFE", 0xd, 1, 0x0, 0x0, 1, 0x0, 1,
    [⟨31, 29, .rd, 0⟩, ⟨28, 28, .rd, 0x0⟩]⟩,
  ⟨"SEC_POLICY", 0xd, 1, 0x4, 0x0, 1, 0x0, 1,
    [⟨31, 31, .lk, 0x0⟩, ⟨30, 30, .lk, 0x0⟩, ⟨29, 29, .lk, 0x0⟩, ⟨28, 28, .lk, 0x1⟩, ⟨27, 27, .lk, 0x0⟩]⟩,
  ⟨"SEC_BOOT", 0xd, 1, 0x8, 0x0, 1, 0x0, 1,
    [⟨31, 31, .rd, 0x0⟩, ⟨30, 30, .rd, 0x0⟩, ⟨29, 29, .rd, 0x0⟩, ⟨28, 28, .w1c, 0x0⟩, ⟨13, 7, .rd, 0x0⟩, ⟨6, 0, .rd, 0x0⟩]⟩,
  ⟨"SEC_NONCEk", 0xd, 1, 0x10, 0x4, 4, 0x0, 1,
    [⟨31, 0, .rd, 0x0⟩]⟩,
  ⟨"SEC_ADDR_LO", 0xd, 1, 0x20, 0x0, 1, 0x0, 1,
    [⟨31, 0, .rw, 0x0⟩]⟩,
  ⟨"SEC_ADDR_HI", 0xd, 1, 0x24, 0x0, 1, 0x0, 1,
    [⟨31, 0, .rw, 0x0⟩]⟩,
  ⟨"SEC_CMD", 0xd, 1, 0x28, 0x0, 1, 0x0, 1,
    [⟨31, 28, .rw, 0x0⟩, ⟨27, 27, .rw, 0x0⟩]⟩,
  ⟨"SEC_STATUS", 0xd, 1, 0x2c, 0x0, 1, 0x0, 1,
    [⟨31, 31, .rd, 0x0⟩, ⟨30, 27, .rd, 0x0⟩, ⟨26, 16, .rd, 0x0⟩, ⟨15, 0, .rd, 0x0⟩]⟩]

/-- The register tables, part 14. -/
def regTable14 : List RegRow := [
  ⟨"DBG_LEVEL", 0xe, 1, 0x0, 0x0, 1, 0x0, 1,
    [⟨31, 30, .rd, 0x0⟩, ⟨29, 29, .rd, 0x0⟩, ⟨15, 0, .rd, 0x0⟩]⟩,
  ⟨"DBG_CTRL", 0xe, 1, 0x4, 0x0, 1, 0x0, 1,
    [⟨31, 30, .rw, 0x0⟩, ⟨29, 29, .rw, 0x0⟩]⟩,
  ⟨"INS_CAL", 0xc, 1, 0x0, 0x0, 1, 0x0, 1,
    [⟨31, 31, .rd, 0x0⟩, ⟨30, 30, .rd, 0x0⟩, ⟨29, 29, .rd, 0x0⟩, ⟨24, 12, .rd, 0x0⟩, ⟨11, 0, .rd, 0x0⟩]⟩,
  ⟨"PLN_FACET", 0x0, 1, 0x400, 0x0, 1, 0x0, 1,
    [⟨31, 30, .rd, 0x0⟩, ⟨29, 29, .rw, 0x0⟩, ⟨27, 24, .rd, 0x0⟩, ⟨23, 0, .rd, 0x0⟩]⟩,
  ⟨"PLN_FAULTN", 0x0, 1, 0x404, 0x0, 1, 0x0, 1,
    [⟨31, 31, .rd, 0x0⟩, ⟨30, 28, .rd, 0x0⟩, ⟨27, 24, .rd, 0x0⟩, ⟨15, 0, .rd, 0x0⟩]⟩,
  ⟨"PLN_MGMT", 0x0, 1, 0x408, 0x0, 1, 0x0, 1,
    [⟨31, 30, .rd, 0x0⟩, ⟨29, 29, .rd, 0x0⟩, ⟨22, 16, .rd, 0x0⟩, ⟨6, 0, .rd, 0x4f⟩]⟩,
  ⟨"PLN_HOST", 0x0, 1, 0x40c, 0x0, 1, 0x0, 1,
    [⟨31, 31, .rd, 0x0⟩, ⟨30, 29, .rd, 0x0⟩, ⟨28, 26, .rd, 0x0⟩, ⟨25, 21, .rd, 0x0⟩, ⟨15, 0, .rd, 0x0⟩]⟩]

/-- Every register table of the manual. -/
def regTable : List RegRow :=
  regTable0 ++ regTable1 ++ regTable2 ++ regTable3 ++ regTable4 ++ regTable5 ++ regTable6 ++ regTable7 ++ regTable8 ++ regTable9 ++ regTable10 ++ regTable11 ++ regTable12 ++ regTable13 ++ regTable14

/-! ## Register addresses, as offsets in the register window -/

/-- PLN_PKG_ID, R27 (01_package_and_levels.md). -/
def Reg.PLN_PKG_ID : Nat := 0x0
/-- PLN_DIE_MAP, R27 (01_package_and_levels.md). -/
def Reg.PLN_DIE_MAP : Nat := 0x10
/-- PLN_EDGE_STATUSn, R27 (01_package_and_levels.md). -/
def Reg.PLN_EDGE_STATUS (i : Nat) : Nat := 0x100 + 0x4 * i
/-- PLN_ADDR_ERR_LO, R27 (01_package_and_levels.md). -/
def Reg.PLN_ADDR_ERR_LO : Nat := 0x200
/-- PLN_ADDR_ERR_HI, R27 (01_package_and_levels.md). -/
def Reg.PLN_ADDR_ERR_HI : Nat := 0x204
/-- PLN_ADDR_ERR_INFO, R27 (01_package_and_levels.md). -/
def Reg.PLN_ADDR_ERR_INFO : Nat := 0x208
/-- SCT_CTRL, R51 (02_formats_and_scaling.md). -/
def Reg.SCT_CTRL : Nat := 0x80000
/-- SCT_STEP, R51 (02_formats_and_scaling.md). -/
def Reg.SCT_STEP : Nat := 0x80004
/-- SCT_ADV_STATUS, R51 (02_formats_and_scaling.md). -/
def Reg.SCT_ADV_STATUS : Nat := 0x80008
/-- SCT_SEED_LO, R51 (02_formats_and_scaling.md). -/
def Reg.SCT_SEED_LO : Nat := 0x80010
/-- SCT_SEED_HI, R51 (02_formats_and_scaling.md). -/
def Reg.SCT_SEED_HI : Nat := 0x80014
/-- SCT_WIN_CMD, R51 (02_formats_and_scaling.md). -/
def Reg.SCT_WIN_CMD : Nat := 0x80020
/-- SCT_WIN_STATUS, R51 (02_formats_and_scaling.md). -/
def Reg.SCT_WIN_STATUS : Nat := 0x80024
/-- SCT_SAT_TOTAL, R51 (02_formats_and_scaling.md). -/
def Reg.SCT_SAT_TOTAL : Nat := 0x80030
/-- SCT_UFL_TOTAL, R51 (02_formats_and_scaling.md). -/
def Reg.SCT_UFL_TOTAL : Nat := 0x80034
/-- SCT_NONFIN_TOTAL, R51 (02_formats_and_scaling.md). -/
def Reg.SCT_NONFIN_TOTAL : Nat := 0x80038
/-- SCT_WIN_DATAk, R51 (02_formats_and_scaling.md). -/
def Reg.SCT_WIN_DATA (i : Nat) : Nat := 0x80040 + 0x4 * i
/-- PLN_CQn_RING_LO, R164 (05_oxbagon_flow_and_streams.md). -/
def Reg.PLN_CQ_RING_LO (i : Nat) : Nat := 0x1000 + 0x20 * i
/-- PLN_CQn_RING_HI, R164 (05_oxbagon_flow_and_streams.md). -/
def Reg.PLN_CQ_RING_HI (i : Nat) : Nat := 0x1004 + 0x20 * i
/-- PLN_CQn_CPL_LO, R164 (05_oxbagon_flow_and_streams.md). -/
def Reg.PLN_CQ_CPL_LO (i : Nat) : Nat := 0x1008 + 0x20 * i
/-- PLN_CQn_CPL_HI, R164 (05_oxbagon_flow_and_streams.md). -/
def Reg.PLN_CQ_CPL_HI (i : Nat) : Nat := 0x100c + 0x20 * i
/-- PLN_CQn_CFG, R164 (05_oxbagon_flow_and_streams.md). -/
def Reg.PLN_CQ_CFG (i : Nat) : Nat := 0x1010 + 0x20 * i
/-- PLN_CQn_TAIL, R164 (05_oxbagon_flow_and_streams.md). -/
def Reg.PLN_CQ_TAIL (i : Nat) : Nat := 0x1014 + 0x20 * i
/-- PLN_CQn_CPL_HEAD, R164 (05_oxbagon_flow_and_streams.md). -/
def Reg.PLN_CQ_CPL_HEAD (i : Nat) : Nat := 0x1018 + 0x20 * i
/-- PLN_CQn_STATUS, R164 (05_oxbagon_flow_and_streams.md). -/
def Reg.PLN_CQ_STATUS (i : Nat) : Nat := 0x101c + 0x20 * i
/-- PLN_SCHED_Vk, R164 (05_oxbagon_flow_and_streams.md). -/
def Reg.PLN_SCHED_V (i : Nat) : Nat := 0x1400 + 0x4 * i
/-- STR_SEMk, R165 (05_oxbagon_flow_and_streams.md). -/
def Reg.STR_SEM (b i : Nat) : Nat := (0x100 + b) * 0x10000 + 0x400 + 0x4 * i
/-- STR_CTXe_c, R165 (05_oxbagon_flow_and_streams.md). -/
def Reg.STR_CTX (b i j : Nat) : Nat := (0x100 + b) * 0x10000 + 0x800 + 0x10 * i + 0x4 * j
/-- MEM_CFG, R190 (06_memory_tiers.md). -/
def Reg.MEM_CFG : Nat := 0x400000
/-- MEM_SCRUB, R190 (06_memory_tiers.md). -/
def Reg.MEM_SCRUB : Nat := 0x400004
/-- MEM_PF, R190 (06_memory_tiers.md). -/
def Reg.MEM_PF : Nat := 0x400008
/-- MEM_H_STATUS, R191 (06_memory_tiers.md). -/
def Reg.MEM_H_STATUS (b : Nat) : Nat := (0x40 + b) * 0x10000 + 0x100
/-- MEM_H_CHRET, R191 (06_memory_tiers.md). -/
def Reg.MEM_H_CHRET (b : Nat) : Nat := (0x40 + b) * 0x10000 + 0x104
/-- MEM_H_CE, R191 (06_memory_tiers.md). -/
def Reg.MEM_H_CE (b : Nat) : Nat := (0x40 + b) * 0x10000 + 0x108
/-- MEM_H_UE, R191 (06_memory_tiers.md). -/
def Reg.MEM_H_UE (b : Nat) : Nat := (0x40 + b) * 0x10000 + 0x10c
/-- MEM_H_HOLE, R191 (06_memory_tiers.md). -/
def Reg.MEM_H_HOLE (b : Nat) : Nat := (0x40 + b) * 0x10000 + 0x110
/-- MEM_H_HOLE_ADDR, R191 (06_memory_tiers.md). -/
def Reg.MEM_H_HOLE_ADDR (b : Nat) : Nat := (0x40 + b) * 0x10000 + 0x114
/-- MEM_H_RETPG_CNT, R191 (06_memory_tiers.md). -/
def Reg.MEM_H_RETPG_CNT (b : Nat) : Nat := (0x40 + b) * 0x10000 + 0x118
/-- MEM_H_RETPG_IDX, R191 (06_memory_tiers.md). -/
def Reg.MEM_H_RETPG_IDX (b : Nat) : Nat := (0x40 + b) * 0x10000 + 0x11c
/-- MEM_H_RETPG_DATA, R191 (06_memory_tiers.md). -/
def Reg.MEM_H_RETPG_DATA (b : Nat) : Nat := (0x40 + b) * 0x10000 + 0x120
/-- MEM_H_SCRUB, R191 (06_memory_tiers.md). -/
def Reg.MEM_H_SCRUB (b : Nat) : Nat := (0x40 + b) * 0x10000 + 0x124
/-- MEM_SRAM_CFG, R192 (06_memory_tiers.md). -/
def Reg.MEM_SRAM_CFG (b : Nat) : Nat := (0x58 + b) * 0x10000 + 0x0
/-- MEM_SRAM_STATUS, R192 (06_memory_tiers.md). -/
def Reg.MEM_SRAM_STATUS (b : Nat) : Nat := (0x58 + b) * 0x10000 + 0x4
/-- MEM_SRAM_WINk, R192 (06_memory_tiers.md). -/
def Reg.MEM_SRAM_WIN (b i : Nat) : Nat := (0x58 + b) * 0x10000 + 0x10 + 0x4 * i
/-- MEM_SRAM_HIT, R192 (06_memory_tiers.md). -/
def Reg.MEM_SRAM_HIT (b : Nat) : Nat := (0x58 + b) * 0x10000 + 0x40
/-- MEM_SRAM_MISS, R192 (06_memory_tiers.md). -/
def Reg.MEM_SRAM_MISS (b : Nat) : Nat := (0x58 + b) * 0x10000 + 0x44
/-- MEM_SRAM_CE, R192 (06_memory_tiers.md). -/
def Reg.MEM_SRAM_CE (b : Nat) : Nat := (0x58 + b) * 0x10000 + 0x48
/-- MEM_SRAM_UE, R192 (06_memory_tiers.md). -/
def Reg.MEM_SRAM_UE (b : Nat) : Nat := (0x58 + b) * 0x10000 + 0x4c
/-- STR_STALL_CFG, R193 (06_memory_tiers.md). -/
def Reg.STR_STALL_CFG (b : Nat) : Nat := (0x100 + b) * 0x10000 + 0x0
/-- STR_STALL_CNT, R193 (06_memory_tiers.md). -/
def Reg.STR_STALL_CNT (b : Nat) : Nat := (0x100 + b) * 0x10000 + 0x4
/-- STR_LAST_STALL, R193 (06_memory_tiers.md). -/
def Reg.STR_LAST_STALL (b : Nat) : Nat := (0x100 + b) * 0x10000 + 0x8
/-- STR_LAST_DUR, R193 (06_memory_tiers.md). -/
def Reg.STR_LAST_DUR (b : Nat) : Nat := (0x100 + b) * 0x10000 + 0xc
/-- STR_SHADOW, R193 (06_memory_tiers.md). -/
def Reg.STR_SHADOW (b : Nat) : Nat := (0x100 + b) * 0x10000 + 0x10
/-- PLN_PHASE, R196 (07_training_step.md). -/
def Reg.PLN_PHASE : Nat := 0x300
/-- PLN_PHASE_T_LO, R196 (07_training_step.md). -/
def Reg.PLN_PHASE_T_LO : Nat := 0x308
/-- PLN_PHASE_T_HI, R196 (07_training_step.md). -/
def Reg.PLN_PHASE_T_HI : Nat := 0x30c
/-- RIF_CFG, R224 (08_riffler_update.md). -/
def Reg.RIF_CFG : Nat := 0x200000
/-- RIF_PKG_STATUS, R224 (08_riffler_update.md). -/
def Reg.RIF_PKG_STATUS : Nat := 0x200004
/-- RIF_SKIPS, R224 (08_riffler_update.md). -/
def Reg.RIF_SKIPS : Nat := 0x200008
/-- RIF_ROOT, R224 (08_riffler_update.md). -/
def Reg.RIF_ROOT : Nat := 0x20000c
/-- RIF_STATUS, R225 (08_riffler_update.md). -/
def Reg.RIF_STATUS (b : Nat) : Nat := (0x20 + b) * 0x10000 + 0x100
/-- RIF_CHUNKS, R225 (08_riffler_update.md). -/
def Reg.RIF_CHUNKS (b : Nat) : Nat := (0x20 + b) * 0x10000 + 0x104
/-- RIF_LAG, R225 (08_riffler_update.md). -/
def Reg.RIF_LAG (b : Nat) : Nat := (0x20 + b) * 0x10000 + 0x108
/-- RIF_ZERO, R225 (08_riffler_update.md). -/
def Reg.RIF_ZERO (b : Nat) : Nat := (0x20 + b) * 0x10000 + 0x10c
/-- WPL_STRAP, R248 (09_waipol_links.md). -/
def Reg.WPL_STRAP : Nat := 0x100000
/-- WPL_DISC_CFG, R248 (09_waipol_links.md). -/
def Reg.WPL_DISC_CFG : Nat := 0x100004
/-- WPL_DISC_STATUS, R248 (09_waipol_links.md). -/
def Reg.WPL_DISC_STATUS : Nat := 0x100008
/-- WPL_REV, R248 (09_waipol_links.md). -/
def Reg.WPL_REV : Nat := 0x10000c
/-- WPL_FW_MIN, R248 (09_waipol_links.md). -/
def Reg.WPL_FW_MIN : Nat := 0x100010
/-- WPL_FW_MAX, R248 (09_waipol_links.md). -/
def Reg.WPL_FW_MAX : Nat := 0x100014
/-- WPL_FENCE_LO, R248 (09_waipol_links.md). -/
def Reg.WPL_FENCE_LO : Nat := 0x100018
/-- WPL_FENCE_HI, R248 (09_waipol_links.md). -/
def Reg.WPL_FENCE_HI : Nat := 0x10001c
/-- WPL_NBR_CMD, R248 (09_waipol_links.md). -/
def Reg.WPL_NBR_CMD : Nat := 0x100020
/-- WPL_NBR_STATUS, R248 (09_waipol_links.md). -/
def Reg.WPL_NBR_STATUS : Nat := 0x100024
/-- WPL_NBR_DATAk, R248 (09_waipol_links.md). -/
def Reg.WPL_NBR_DATA (i : Nat) : Nat := 0x100030 + 0x4 * i
/-- WPL_CFG, R249 (09_waipol_links.md). -/
def Reg.WPL_CFG (b : Nat) : Nat := (0x10 + b) * 0x10000 + 0x100
/-- WPL_CTRL, R249 (09_waipol_links.md). -/
def Reg.WPL_CTRL (b : Nat) : Nat := (0x10 + b) * 0x10000 + 0x104
/-- WPL_STATUS, R249 (09_waipol_links.md). -/
def Reg.WPL_STATUS (b : Nat) : Nat := (0x10 + b) * 0x10000 + 0x108
/-- WPL_PEER_ID, R249 (09_waipol_links.md). -/
def Reg.WPL_PEER_ID (b : Nat) : Nat := (0x10 + b) * 0x10000 + 0x10c
/-- WPL_PEER_SER_LO, R249 (09_waipol_links.md). -/
def Reg.WPL_PEER_SER_LO (b : Nat) : Nat := (0x10 + b) * 0x10000 + 0x110
/-- WPL_PEER_SER_HI, R249 (09_waipol_links.md). -/
def Reg.WPL_PEER_SER_HI (b : Nat) : Nat := (0x10 + b) * 0x10000 + 0x114
/-- WPL_PEER_FW, R249 (09_waipol_links.md). -/
def Reg.WPL_PEER_FW (b : Nat) : Nat := (0x10 + b) * 0x10000 + 0x118
/-- WPL_ERR, R249 (09_waipol_links.md). -/
def Reg.WPL_ERR (b : Nat) : Nat := (0x10 + b) * 0x10000 + 0x11c
/-- WPL_FEC_CE, R249 (09_waipol_links.md). -/
def Reg.WPL_FEC_CE (b : Nat) : Nat := (0x10 + b) * 0x10000 + 0x120
/-- WPL_FEC_UE, R249 (09_waipol_links.md). -/
def Reg.WPL_FEC_UE (b : Nat) : Nat := (0x10 + b) * 0x10000 + 0x124
/-- WPL_LANE, R249 (09_waipol_links.md). -/
def Reg.WPL_LANE (b : Nat) : Nat := (0x10 + b) * 0x10000 + 0x128
/-- CLV_CFG, R276 (10_collectives_and_timebase.md). -/
def Reg.CLV_CFG : Nat := 0x90000
/-- CLV_STATUS, R276 (10_collectives_and_timebase.md). -/
def Reg.CLV_STATUS : Nat := 0x90004
/-- CLV_GRP_CMD, R276 (10_collectives_and_timebase.md). -/
def Reg.CLV_GRP_CMD : Nat := 0x90010
/-- CLV_GRP_STATUS, R276 (10_collectives_and_timebase.md). -/
def Reg.CLV_GRP_STATUS : Nat := 0x90014
/-- CLV_GRP_DATAk, R276 (10_collectives_and_timebase.md). -/
def Reg.CLV_GRP_DATA (i : Nat) : Nat := 0x90020 + 0x4 * i
/-- CLV_TB_LO, R277 (10_collectives_and_timebase.md). -/
def Reg.CLV_TB_LO : Nat := 0x90100
/-- CLV_TB_HI, R277 (10_collectives_and_timebase.md). -/
def Reg.CLV_TB_HI : Nat := 0x90104
/-- CLV_TB_CFG, R277 (10_collectives_and_timebase.md). -/
def Reg.CLV_TB_CFG : Nat := 0x90108
/-- CLV_TB_ARM_LO, R277 (10_collectives_and_timebase.md). -/
def Reg.CLV_TB_ARM_LO : Nat := 0x90110
/-- CLV_TB_ARM_HI, R277 (10_collectives_and_timebase.md). -/
def Reg.CLV_TB_ARM_HI : Nat := 0x90114
/-- CLV_TB_STATUS, R277 (10_collectives_and_timebase.md). -/
def Reg.CLV_TB_STATUS : Nat := 0x90118
/-- CLV_TB_OFS, R277 (10_collectives_and_timebase.md). -/
def Reg.CLV_TB_OFS : Nat := 0x9011c
/-- CLV_TB_ASYM, R277 (10_collectives_and_timebase.md). -/
def Reg.CLV_TB_ASYM : Nat := 0x90124
/-- CLV_TB_PEER, R277 (10_collectives_and_timebase.md). -/
def Reg.CLV_TB_PEER : Nat := 0x90120
/-- CLV_BAR_CFG, R278 (10_collectives_and_timebase.md). -/
def Reg.CLV_BAR_CFG : Nat := 0x90200
/-- CLV_WAVE, R278 (10_collectives_and_timebase.md). -/
def Reg.CLV_WAVE : Nat := 0x90204
/-- CLV_BAR_LAST, R278 (10_collectives_and_timebase.md). -/
def Reg.CLV_BAR_LAST : Nat := 0x90208
/-- CLV_PEER_PACE, R278 (10_collectives_and_timebase.md). -/
def Reg.CLV_PEER_PACE : Nat := 0x90210
/-- CLV_BAR_SPREAD, R278 (10_collectives_and_timebase.md). -/
def Reg.CLV_BAR_SPREAD : Nat := 0x9020c
/-- CLV_LATE_REL, R278 (10_collectives_and_timebase.md). -/
def Reg.CLV_LATE_REL : Nat := 0x90218
/-- CLV_PACE_CFG, R278 (10_collectives_and_timebase.md). -/
def Reg.CLV_PACE_CFG : Nat := 0x90214
/-- CLV_IDLE_c_LO, R278 (10_collectives_and_timebase.md). -/
def Reg.CLV_IDLE_LO (i : Nat) : Nat := 0x90300 + 0x8 * i
/-- CLV_IDLE_c_HI, R278 (10_collectives_and_timebase.md). -/
def Reg.CLV_IDLE_HI (i : Nat) : Nat := 0x90304 + 0x8 * i
/-- HEL_STATUS, R308 (11_pace_power_thermal.md). -/
def Reg.HEL_STATUS (b : Nat) : Nat := (0x4 + b) * 0x10000 + 0x0
/-- HEL_VTk, R308 (11_pace_power_thermal.md). -/
def Reg.HEL_VT (b i : Nat) : Nat := (0x4 + b) * 0x10000 + 0x100 + 0x4 * i
/-- COL_CFG, R309 (11_pace_power_thermal.md). -/
def Reg.COL_CFG : Nat := 0x10000
/-- COL_STATUS, R309 (11_pace_power_thermal.md). -/
def Reg.COL_STATUS : Nat := 0x10004
/-- COL_OUTn_CFG, R309 (11_pace_power_thermal.md). -/
def Reg.COL_OUT_CFG (i : Nat) : Nat := 0x10010 + 0x4 * i
/-- COL_FCNT_CTRL, R309 (11_pace_power_thermal.md). -/
def Reg.COL_FCNT_CTRL : Nat := 0x10020
/-- COL_FCNT_RESULT, R309 (11_pace_power_thermal.md). -/
def Reg.COL_FCNT_RESULT : Nat := 0x10024
/-- DIA_CAP, R310 (11_pace_power_thermal.md). -/
def Reg.DIA_CAP : Nat := 0x20000
/-- DIA_PRIO, R310 (11_pace_power_thermal.md). -/
def Reg.DIA_PRIO : Nat := 0x20004
/-- DIA_STATUS, R310 (11_pace_power_thermal.md). -/
def Reg.DIA_STATUS : Nat := 0x20008
/-- DIA_MINc, R310 (11_pace_power_thermal.md). -/
def Reg.DIA_MIN (i : Nat) : Nat := 0x20010 + 0x4 * i
/-- DIA_PWRc, R310 (11_pace_power_thermal.md). -/
def Reg.DIA_PWR (i : Nat) : Nat := 0x20020 + 0x4 * i
/-- DIA_WTRIM, R310 (11_pace_power_thermal.md). -/
def Reg.DIA_WTRIM : Nat := 0x20030
/-- DIA_PACE, R310 (11_pace_power_thermal.md). -/
def Reg.DIA_PACE : Nat := 0x20040
/-- DIA_PACEN, R310 (11_pace_power_thermal.md). -/
def Reg.DIA_PACEN : Nat := 0x20044
/-- DIA_THERM, R310 (11_pace_power_thermal.md). -/
def Reg.DIA_THERM : Nat := 0x20048
/-- DIA_SAG, R310 (11_pace_power_thermal.md). -/
def Reg.DIA_SAG : Nat := 0x2004c
/-- DIA_TRIP, R310 (11_pace_power_thermal.md). -/
def Reg.DIA_TRIP : Nat := 0x20050
/-- DIA_PSTATE, R310 (11_pace_power_thermal.md). -/
def Reg.DIA_PSTATE : Nat := 0x20054
/-- FLT_CFG, R329 (12_fault_detection.md). -/
def Reg.FLT_CFG : Nat := 0xa0000
/-- FLT_RING, R329 (12_fault_detection.md). -/
def Reg.FLT_RING : Nat := 0xa0004
/-- FLT_LAST_RSEQ, R329 (12_fault_detection.md). -/
def Reg.FLT_LAST_RSEQ : Nat := 0xa0008
/-- FLT_STATUS, R329 (12_fault_detection.md). -/
def Reg.FLT_STATUS : Nat := 0xa000c
/-- FLT_SVC_TIME, R329 (12_fault_detection.md). -/
def Reg.FLT_SVC_TIME : Nat := 0xa0010
/-- FLT_WIN_CMD, R329 (12_fault_detection.md). -/
def Reg.FLT_WIN_CMD : Nat := 0xa0020
/-- FLT_WIN_STATUS, R329 (12_fault_detection.md). -/
def Reg.FLT_WIN_STATUS : Nat := 0xa0024
/-- FLT_WIN_DATAk, R329 (12_fault_detection.md). -/
def Reg.FLT_WIN_DATA (i : Nat) : Nat := 0xa0040 + 0x4 * i
/-- FLT_HMIR_LO, R329 (12_fault_detection.md). -/
def Reg.FLT_HMIR_LO : Nat := 0xa0080
/-- FLT_HMIR_HI, R329 (12_fault_detection.md). -/
def Reg.FLT_HMIR_HI : Nat := 0xa0084
/-- FLT_HMIR_CFG, R329 (12_fault_detection.md). -/
def Reg.FLT_HMIR_CFG : Nat := 0xa0088
/-- FLT_HMIR_TAIL, R329 (12_fault_detection.md). -/
def Reg.FLT_HMIR_TAIL : Nat := 0xa008c
/-- FLT_HMIR_HEAD, R329 (12_fault_detection.md). -/
def Reg.FLT_HMIR_HEAD : Nat := 0xa0090
/-- FLT_HMIR_LOST, R329 (12_fault_detection.md). -/
def Reg.FLT_HMIR_LOST : Nat := 0xa0094
/-- FLT_LP, R329 (12_fault_detection.md). -/
def Reg.FLT_LP : Nat := 0xa00a0
/-- FLT_LP_ADV_TAIL, R329 (12_fault_detection.md). -/
def Reg.FLT_LP_ADV_TAIL : Nat := 0xa00a4
/-- TST_CFG, R350 (13_test_repair_recovery.md). -/
def Reg.TST_CFG : Nat := 0xb0000
/-- TST_STATUS, R350 (13_test_repair_recovery.md). -/
def Reg.TST_STATUS : Nat := 0xb0004
/-- TST_COUNT, R350 (13_test_repair_recovery.md). -/
def Reg.TST_COUNT : Nat := 0xb0008
/-- TST_THR, R350 (13_test_repair_recovery.md). -/
def Reg.TST_THR : Nat := 0xb000c
/-- TST_HANG, R350 (13_test_repair_recovery.md). -/
def Reg.TST_HANG : Nat := 0xb0010
/-- TST_RESET, R350 (13_test_repair_recovery.md). -/
def Reg.TST_RESET : Nat := 0xb0014
/-- TST_ESC, R350 (13_test_repair_recovery.md). -/
def Reg.TST_ESC : Nat := 0xb0018
/-- TST_CAP_ADDR_LO, R350 (13_test_repair_recovery.md). -/
def Reg.TST_CAP_ADDR_LO : Nat := 0xb0020
/-- TST_CAP_ADDR_HI, R350 (13_test_repair_recovery.md). -/
def Reg.TST_CAP_ADDR_HI : Nat := 0xb0024
/-- TST_CAP_CMD, R350 (13_test_repair_recovery.md). -/
def Reg.TST_CAP_CMD : Nat := 0xb0028
/-- TST_CAP_STATUS, R350 (13_test_repair_recovery.md). -/
def Reg.TST_CAP_STATUS : Nat := 0xb002c
/-- TST_DUMP, R350 (13_test_repair_recovery.md). -/
def Reg.TST_DUMP : Nat := 0xb0030
/-- TST_AGEd, R350 (13_test_repair_recovery.md). -/
def Reg.TST_AGE (i : Nat) : Nat := 0xb0040 + 0x4 * i
/-- STR_SLOTMAPj, R351 (13_test_repair_recovery.md). -/
def Reg.STR_SLOTMAP (b i : Nat) : Nat := (0x100 + b) * 0x10000 + 0x40 + 0x4 * i
/-- STR_SPARE, R351 (13_test_repair_recovery.md). -/
def Reg.STR_SPARE (b : Nat) : Nat := (0x100 + b) * 0x10000 + 0x50
/-- PLN_BOOT, R374 (14_startup_security_debug.md). -/
def Reg.PLN_BOOT : Nat := 0x20
/-- SEC_LIFE, R375 (14_startup_security_debug.md). -/
def Reg.SEC_LIFE : Nat := 0xd0000
/-- SEC_POLICY, R375 (14_startup_security_debug.md). -/
def Reg.SEC_POLICY : Nat := 0xd0004
/-- SEC_BOOT, R375 (14_startup_security_debug.md). -/
def Reg.SEC_BOOT : Nat := 0xd0008
/-- SEC_NONCEk, R375 (14_startup_security_debug.md). -/
def Reg.SEC_NONCE (i : Nat) : Nat := 0xd0010 + 0x4 * i
/-- SEC_ADDR_LO, R375 (14_startup_security_debug.md). -/
def Reg.SEC_ADDR_LO : Nat := 0xd0020
/-- SEC_ADDR_HI, R375 (14_startup_security_debug.md). -/
def Reg.SEC_ADDR_HI : Nat := 0xd0024
/-- SEC_CMD, R375 (14_startup_security_debug.md). -/
def Reg.SEC_CMD : Nat := 0xd0028
/-- SEC_STATUS, R375 (14_startup_security_debug.md). -/
def Reg.SEC_STATUS : Nat := 0xd002c
/-- DBG_LEVEL, R376 (14_startup_security_debug.md). -/
def Reg.DBG_LEVEL : Nat := 0xe0000
/-- DBG_CTRL, R376 (14_startup_security_debug.md). -/
def Reg.DBG_CTRL : Nat := 0xe0004
/-- INS_CAL, R377 (14_startup_security_debug.md). -/
def Reg.INS_CAL : Nat := 0xc0000
/-- PLN_FACET, R400 (15_balls_and_electrical.md). -/
def Reg.PLN_FACET : Nat := 0x400
/-- PLN_FAULTN, R400 (15_balls_and_electrical.md). -/
def Reg.PLN_FAULTN : Nat := 0x404
/-- PLN_MGMT, R400 (15_balls_and_electrical.md). -/
def Reg.PLN_MGMT : Nat := 0x408
/-- PLN_HOST, R400 (15_balls_and_electrical.md). -/
def Reg.PLN_HOST : Nat := 0x40c

/-! ## Register fields -/

def F.PLN_PKG_ID_VALID : Fld := ⟨Reg.PLN_PKG_ID, 31, 31⟩
def F.PLN_PKG_ID_RACK : Fld := ⟨Reg.PLN_PKG_ID, 15, 7⟩
def F.PLN_PKG_ID_TRAY : Fld := ⟨Reg.PLN_PKG_ID, 6, 3⟩
def F.PLN_PKG_ID_SLOT : Fld := ⟨Reg.PLN_PKG_ID, 2, 0⟩
def F.PLN_DIE_MAP_RIF_ACTIVE : Fld := ⟨Reg.PLN_DIE_MAP, 11, 8⟩
def F.PLN_DIE_MAP_CD_ACTIVE : Fld := ⟨Reg.PLN_DIE_MAP, 3, 0⟩
def F.PLN_EDGE_STATUS_STATE (i : Nat) : Fld := ⟨Reg.PLN_EDGE_STATUS i, 31, 30⟩
def F.PLN_EDGE_STATUS_ACTIVE (i : Nat) : Fld := ⟨Reg.PLN_EDGE_STATUS i, 15, 8⟩
def F.PLN_EDGE_STATUS_SPARES (i : Nat) : Fld := ⟨Reg.PLN_EDGE_STATUS i, 7, 4⟩
def F.PLN_ADDR_ERR_LO_ADDR : Fld := ⟨Reg.PLN_ADDR_ERR_LO, 31, 0⟩
def F.PLN_ADDR_ERR_HI_ADDR : Fld := ⟨Reg.PLN_ADDR_ERR_HI, 31, 0⟩
def F.PLN_ADDR_ERR_INFO_VALID : Fld := ⟨Reg.PLN_ADDR_ERR_INFO, 31, 31⟩
def F.PLN_ADDR_ERR_INFO_OVERFLOW : Fld := ⟨Reg.PLN_ADDR_ERR_INFO, 30, 30⟩
def F.PLN_ADDR_ERR_INFO_WRITE : Fld := ⟨Reg.PLN_ADDR_ERR_INFO, 29, 29⟩
def F.PLN_ADDR_ERR_INFO_KIND : Fld := ⟨Reg.PLN_ADDR_ERR_INFO, 26, 24⟩
def F.PLN_ADDR_ERR_INFO_SOURCE : Fld := ⟨Reg.PLN_ADDR_ERR_INFO, 23, 20⟩
def F.PLN_ADDR_ERR_INFO_COUNT : Fld := ⟨Reg.PLN_ADDR_ERR_INFO, 15, 0⟩
def F.SCT_CTRL_REC_EN : Fld := ⟨Reg.SCT_CTRL, 31, 31⟩
def F.SCT_CTRL_SR_EN : Fld := ⟨Reg.SCT_CTRL, 30, 30⟩
def F.SCT_STEP_STEP : Fld := ⟨Reg.SCT_STEP, 31, 0⟩
def F.SCT_ADV_STATUS_BUSY : Fld := ⟨Reg.SCT_ADV_STATUS, 31, 31⟩
def F.SCT_ADV_STATUS_STEP_ERR : Fld := ⟨Reg.SCT_ADV_STATUS, 30, 30⟩
def F.SCT_ADV_STATUS_CLAMPS : Fld := ⟨Reg.SCT_ADV_STATUS, 15, 0⟩
def F.SCT_SEED_LO_SEED : Fld := ⟨Reg.SCT_SEED_LO, 31, 0⟩
def F.SCT_SEED_HI_SEED : Fld := ⟨Reg.SCT_SEED_HI, 31, 0⟩
def F.SCT_WIN_CMD_OP : Fld := ⟨Reg.SCT_WIN_CMD, 31, 30⟩
def F.SCT_WIN_CMD_INDEX : Fld := ⟨Reg.SCT_WIN_CMD, 14, 0⟩
def F.SCT_WIN_STATUS_BUSY : Fld := ⟨Reg.SCT_WIN_STATUS, 31, 31⟩
def F.SCT_WIN_STATUS_ERR : Fld := ⟨Reg.SCT_WIN_STATUS, 30, 30⟩
def F.SCT_WIN_STATUS_SEQ : Fld := ⟨Reg.SCT_WIN_STATUS, 15, 0⟩
def F.SCT_SAT_TOTAL_COUNT : Fld := ⟨Reg.SCT_SAT_TOTAL, 31, 0⟩
def F.SCT_UFL_TOTAL_COUNT : Fld := ⟨Reg.SCT_UFL_TOTAL, 31, 0⟩
def F.SCT_NONFIN_TOTAL_COUNT : Fld := ⟨Reg.SCT_NONFIN_TOTAL, 31, 0⟩
def F.SCT_WIN_DATA_WORD (i : Nat) : Fld := ⟨Reg.SCT_WIN_DATA i, 31, 0⟩
def F.PLN_CQ_RING_LO_ADDR (i : Nat) : Fld := ⟨Reg.PLN_CQ_RING_LO i, 31, 0⟩
def F.PLN_CQ_RING_HI_ADDR (i : Nat) : Fld := ⟨Reg.PLN_CQ_RING_HI i, 15, 0⟩
def F.PLN_CQ_CPL_LO_ADDR (i : Nat) : Fld := ⟨Reg.PLN_CQ_CPL_LO i, 31, 0⟩
def F.PLN_CQ_CPL_HI_ADDR (i : Nat) : Fld := ⟨Reg.PLN_CQ_CPL_HI i, 15, 0⟩
def F.PLN_CQ_CFG_EN (i : Nat) : Fld := ⟨Reg.PLN_CQ_CFG i, 31, 31⟩
def F.PLN_CQ_CFG_OWNER (i : Nat) : Fld := ⟨Reg.PLN_CQ_CFG i, 30, 30⟩
def F.PLN_CQ_CFG_LOG2N (i : Nat) : Fld := ⟨Reg.PLN_CQ_CFG i, 23, 20⟩
def F.PLN_CQ_TAIL_TAIL (i : Nat) : Fld := ⟨Reg.PLN_CQ_TAIL i, 19, 0⟩
def F.PLN_CQ_CPL_HEAD_HEAD (i : Nat) : Fld := ⟨Reg.PLN_CQ_CPL_HEAD i, 19, 0⟩
def F.PLN_CQ_STATUS_HALT (i : Nat) : Fld := ⟨Reg.PLN_CQ_STATUS i, 31, 31⟩
def F.PLN_CQ_STATUS_HCAUSE (i : Nat) : Fld := ⟨Reg.PLN_CQ_STATUS i, 30, 28⟩
def F.PLN_CQ_STATUS_INFLIGHT (i : Nat) : Fld := ⟨Reg.PLN_CQ_STATUS i, 25, 20⟩
def F.PLN_CQ_STATUS_HEAD (i : Nat) : Fld := ⟨Reg.PLN_CQ_STATUS i, 19, 0⟩
def F.PLN_SCHED_V_VALUE (i : Nat) : Fld := ⟨Reg.PLN_SCHED_V i, 31, 0⟩
def F.STR_SEM_OVF (b i : Nat) : Fld := ⟨Reg.STR_SEM b i, 31, 31⟩
def F.STR_SEM_WAITERS (b i : Nat) : Fld := ⟨Reg.STR_SEM b i, 30, 24⟩
def F.STR_SEM_VALUE (b i : Nat) : Fld := ⟨Reg.STR_SEM b i, 15, 0⟩
def F.STR_CTX_STATE (b i j : Nat) : Fld := ⟨Reg.STR_CTX b i j, 31, 29⟩
def F.STR_CTX_WHY (b i j : Nat) : Fld := ⟨Reg.STR_CTX b i j, 28, 25⟩
def F.STR_CTX_ID (b i j : Nat) : Fld := ⟨Reg.STR_CTX b i j, 24, 17⟩
def F.STR_CTX_PC (b i j : Nat) : Fld := ⟨Reg.STR_CTX b i j, 14, 0⟩
def F.MEM_CFG_LOCK : Fld := ⟨Reg.MEM_CFG, 31, 31⟩
def F.MEM_CFG_ILV_ACT : Fld := ⟨Reg.MEM_CFG, 3, 2⟩
def F.MEM_CFG_ILV : Fld := ⟨Reg.MEM_CFG, 1, 0⟩
def F.MEM_SCRUB_EN : Fld := ⟨Reg.MEM_SCRUB, 31, 31⟩
def F.MEM_SCRUB_HBM_H : Fld := ⟨Reg.MEM_SCRUB, 23, 16⟩
def F.MEM_SCRUB_SLOW_H : Fld := ⟨Reg.MEM_SCRUB, 15, 8⟩
def F.MEM_SCRUB_SRAM_H : Fld := ⟨Reg.MEM_SCRUB, 7, 0⟩
def F.MEM_PF_EN : Fld := ⟨Reg.MEM_PF, 31, 31⟩
def F.MEM_PF_DEPTH : Fld := ⟨Reg.MEM_PF, 4, 0⟩
def F.MEM_H_STATUS_STATE (b : Nat) : Fld := ⟨Reg.MEM_H_STATUS b, 31, 30⟩
def F.MEM_H_STATUS_RETCH (b : Nat) : Fld := ⟨Reg.MEM_H_STATUS b, 5, 0⟩
def F.MEM_H_CHRET_CH (b : Nat) : Fld := ⟨Reg.MEM_H_CHRET b, 31, 0⟩
def F.MEM_H_CE_COUNT (b : Nat) : Fld := ⟨Reg.MEM_H_CE b, 31, 0⟩
def F.MEM_H_UE_COUNT (b : Nat) : Fld := ⟨Reg.MEM_H_UE b, 31, 0⟩
def F.MEM_H_HOLE_VALID (b : Nat) : Fld := ⟨Reg.MEM_H_HOLE b, 31, 31⟩
def F.MEM_H_HOLE_OVERFLOW (b : Nat) : Fld := ⟨Reg.MEM_H_HOLE b, 30, 30⟩
def F.MEM_H_HOLE_COUNT (b : Nat) : Fld := ⟨Reg.MEM_H_HOLE b, 15, 0⟩
def F.MEM_H_HOLE_ADDR_GRANULE (b : Nat) : Fld := ⟨Reg.MEM_H_HOLE_ADDR b, 27, 0⟩
def F.MEM_H_RETPG_CNT_COUNT (b : Nat) : Fld := ⟨Reg.MEM_H_RETPG_CNT b, 9, 0⟩
def F.MEM_H_RETPG_IDX_INDEX (b : Nat) : Fld := ⟨Reg.MEM_H_RETPG_IDX b, 8, 0⟩
def F.MEM_H_RETPG_DATA_VALID (b : Nat) : Fld := ⟨Reg.MEM_H_RETPG_DATA b, 31, 31⟩
def F.MEM_H_RETPG_DATA_CHARGE (b : Nat) : Fld := ⟨Reg.MEM_H_RETPG_DATA b, 27, 25⟩
def F.MEM_H_RETPG_DATA_PAGE (b : Nat) : Fld := ⟨Reg.MEM_H_RETPG_DATA b, 24, 0⟩
def F.MEM_H_SCRUB_PASSES (b : Nat) : Fld := ⟨Reg.MEM_H_SCRUB b, 31, 24⟩
def F.MEM_H_SCRUB_PCT (b : Nat) : Fld := ⟨Reg.MEM_H_SCRUB b, 6, 0⟩
def F.MEM_SRAM_CFG_SCRATCH (b : Nat) : Fld := ⟨Reg.MEM_SRAM_CFG b, 3, 0⟩
def F.MEM_SRAM_STATUS_BUSY (b : Nat) : Fld := ⟨Reg.MEM_SRAM_STATUS b, 31, 31⟩
def F.MEM_SRAM_STATUS_ERR (b : Nat) : Fld := ⟨Reg.MEM_SRAM_STATUS b, 30, 30⟩
def F.MEM_SRAM_STATUS_ACT (b : Nat) : Fld := ⟨Reg.MEM_SRAM_STATUS b, 3, 0⟩
def F.MEM_SRAM_WIN_EN (b i : Nat) : Fld := ⟨Reg.MEM_SRAM_WIN b i, 31, 31⟩
def F.MEM_SRAM_WIN_NOALLOC (b i : Nat) : Fld := ⟨Reg.MEM_SRAM_WIN b i, 30, 30⟩
def F.MEM_SRAM_WIN_BASE (b i : Nat) : Fld := ⟨Reg.MEM_SRAM_WIN b i, 27, 14⟩
def F.MEM_SRAM_WIN_LIMIT (b i : Nat) : Fld := ⟨Reg.MEM_SRAM_WIN b i, 13, 0⟩
def F.MEM_SRAM_HIT_COUNT (b : Nat) : Fld := ⟨Reg.MEM_SRAM_HIT b, 31, 0⟩
def F.MEM_SRAM_MISS_COUNT (b : Nat) : Fld := ⟨Reg.MEM_SRAM_MISS b, 31, 0⟩
def F.MEM_SRAM_CE_COUNT (b : Nat) : Fld := ⟨Reg.MEM_SRAM_CE b, 31, 0⟩
def F.MEM_SRAM_UE_COUNT (b : Nat) : Fld := ⟨Reg.MEM_SRAM_UE b, 31, 0⟩
def F.STR_STALL_CFG_STARVE (b : Nat) : Fld := ⟨Reg.STR_STALL_CFG b, 31, 16⟩
def F.STR_STALL_CFG_LIMIT (b : Nat) : Fld := ⟨Reg.STR_STALL_CFG b, 15, 0⟩
def F.STR_STALL_CNT_STALLS (b : Nat) : Fld := ⟨Reg.STR_STALL_CNT b, 31, 16⟩
def F.STR_STALL_CNT_STARVES (b : Nat) : Fld := ⟨Reg.STR_STALL_CNT b, 15, 0⟩
def F.STR_LAST_STALL_VALID (b : Nat) : Fld := ⟨Reg.STR_LAST_STALL b, 31, 31⟩
def F.STR_LAST_STALL_ENGINE (b : Nat) : Fld := ⟨Reg.STR_LAST_STALL b, 30, 26⟩
def F.STR_LAST_STALL_SLOT (b : Nat) : Fld := ⟨Reg.STR_LAST_STALL b, 25, 23⟩
def F.STR_LAST_STALL_CAUSE (b : Nat) : Fld := ⟨Reg.STR_LAST_STALL b, 22, 19⟩
def F.STR_LAST_STALL_STARVED (b : Nat) : Fld := ⟨Reg.STR_LAST_STALL b, 18, 18⟩
def F.STR_LAST_STALL_RESUMED (b : Nat) : Fld := ⟨Reg.STR_LAST_STALL b, 17, 17⟩
def F.STR_LAST_DUR_US (b : Nat) : Fld := ⟨Reg.STR_LAST_DUR b, 31, 0⟩
def F.STR_SHADOW_DROPPED (b : Nat) : Fld := ⟨Reg.STR_SHADOW b, 31, 16⟩
def F.STR_SHADOW_USED (b : Nat) : Fld := ⟨Reg.STR_SHADOW b, 6, 0⟩
def F.PLN_PHASE_PHASE : Fld := ⟨Reg.PLN_PHASE, 31, 30⟩
def F.PLN_PHASE_CHANGES : Fld := ⟨Reg.PLN_PHASE, 15, 0⟩
def F.PLN_PHASE_T_LO_TIME : Fld := ⟨Reg.PLN_PHASE_T_LO, 31, 0⟩
def F.PLN_PHASE_T_HI_TIME : Fld := ⟨Reg.PLN_PHASE_T_HI, 31, 0⟩
def F.RIF_CFG_LOCK : Fld := ⟨Reg.RIF_CFG, 31, 31⟩
def F.RIF_CFG_MIRROR : Fld := ⟨Reg.RIF_CFG, 30, 30⟩
def F.RIF_CFG_INFLIGHT : Fld := ⟨Reg.RIF_CFG, 4, 0⟩
def F.RIF_PKG_STATUS_BUSY : Fld := ⟨Reg.RIF_PKG_STATUS, 31, 31⟩
def F.RIF_PKG_STATUS_OUT : Fld := ⟨Reg.RIF_PKG_STATUS, 19, 16⟩
def F.RIF_PKG_STATUS_UPDATES : Fld := ⟨Reg.RIF_PKG_STATUS, 15, 0⟩
def F.RIF_SKIPS_COUNT : Fld := ⟨Reg.RIF_SKIPS, 31, 0⟩
def F.RIF_ROOT_BUSY : Fld := ⟨Reg.RIF_ROOT, 31, 31⟩
def F.RIF_ROOT_WAITS : Fld := ⟨Reg.RIF_ROOT, 15, 0⟩
def F.RIF_STATUS_STATE (b : Nat) : Fld := ⟨Reg.RIF_STATUS b, 31, 30⟩
def F.RIF_STATUS_HELD (b : Nat) : Fld := ⟨Reg.RIF_STATUS b, 4, 0⟩
def F.RIF_CHUNKS_COUNT (b : Nat) : Fld := ⟨Reg.RIF_CHUNKS b, 31, 0⟩
def F.RIF_LAG_COUNT (b : Nat) : Fld := ⟨Reg.RIF_LAG b, 31, 0⟩
def F.RIF_ZERO_COUNT (b : Nat) : Fld := ⟨Reg.RIF_ZERO b, 31, 0⟩
def F.WPL_STRAP_VALID : Fld := ⟨Reg.WPL_STRAP, 31, 31⟩
def F.WPL_STRAP_POLICY : Fld := ⟨Reg.WPL_STRAP, 30, 30⟩
def F.WPL_STRAP_ID : Fld := ⟨Reg.WPL_STRAP, 15, 0⟩
def F.WPL_DISC_CFG_LOCK : Fld := ⟨Reg.WPL_DISC_CFG, 31, 31⟩
def F.WPL_DISC_CFG_OVR : Fld := ⟨Reg.WPL_DISC_CFG, 30, 30⟩
def F.WPL_DISC_CFG_POLICY : Fld := ⟨Reg.WPL_DISC_CFG, 29, 29⟩
def F.WPL_DISC_CFG_AUTO : Fld := ⟨Reg.WPL_DISC_CFG, 28, 28⟩
def F.WPL_DISC_CFG_SOLO : Fld := ⟨Reg.WPL_DISC_CFG, 27, 27⟩
def F.WPL_DISC_STATUS_STRAP_CONFLICT : Fld := ⟨Reg.WPL_DISC_STATUS, 31, 31⟩
def F.WPL_DISC_STATUS_SWAPPED : Fld := ⟨Reg.WPL_DISC_STATUS, 30, 30⟩
def F.WPL_DISC_STATUS_FW_WARN : Fld := ⟨Reg.WPL_DISC_STATUS, 29, 29⟩
def F.WPL_DISC_STATUS_QUAR : Fld := ⟨Reg.WPL_DISC_STATUS, 23, 12⟩
def F.WPL_DISC_STATUS_ACTIVE : Fld := ⟨Reg.WPL_DISC_STATUS, 11, 0⟩
def F.WPL_REV_REV : Fld := ⟨Reg.WPL_REV, 7, 0⟩
def F.WPL_FW_MIN_FW : Fld := ⟨Reg.WPL_FW_MIN, 31, 0⟩
def F.WPL_FW_MAX_FW : Fld := ⟨Reg.WPL_FW_MAX, 31, 0⟩
def F.WPL_FENCE_LO_FENCE : Fld := ⟨Reg.WPL_FENCE_LO, 31, 0⟩
def F.WPL_FENCE_HI_FENCE : Fld := ⟨Reg.WPL_FENCE_HI, 31, 0⟩
def F.WPL_NBR_CMD_OP : Fld := ⟨Reg.WPL_NBR_CMD, 31, 30⟩
def F.WPL_NBR_CMD_INDEX : Fld := ⟨Reg.WPL_NBR_CMD, 5, 0⟩
def F.WPL_NBR_STATUS_BUSY : Fld := ⟨Reg.WPL_NBR_STATUS, 31, 31⟩
def F.WPL_NBR_STATUS_ERR : Fld := ⟨Reg.WPL_NBR_STATUS, 30, 30⟩
def F.WPL_NBR_STATUS_SEQ : Fld := ⟨Reg.WPL_NBR_STATUS, 15, 0⟩
def F.WPL_NBR_DATA_WORD (i : Nat) : Fld := ⟨Reg.WPL_NBR_DATA i, 31, 0⟩
def F.WPL_CFG_EN (b : Nat) : Fld := ⟨Reg.WPL_CFG b, 31, 31⟩
def F.WPL_CFG_ENC (b : Nat) : Fld := ⟨Reg.WPL_CFG b, 30, 30⟩
def F.WPL_CFG_GEN_MAX (b : Nat) : Fld := ⟨Reg.WPL_CFG b, 29, 28⟩
def F.WPL_CTRL_RETRAIN (b : Nat) : Fld := ⟨Reg.WPL_CTRL b, 31, 31⟩
def F.WPL_CTRL_REJUDGE (b : Nat) : Fld := ⟨Reg.WPL_CTRL b, 30, 30⟩
def F.WPL_CTRL_QUAR (b : Nat) : Fld := ⟨Reg.WPL_CTRL b, 29, 29⟩
def F.WPL_CTRL_LANE_CLR (b : Nat) : Fld := ⟨Reg.WPL_CTRL b, 28, 28⟩
def F.WPL_STATUS_STATE (b : Nat) : Fld := ⟨Reg.WPL_STATUS b, 31, 28⟩
def F.WPL_STATUS_ROLE (b : Nat) : Fld := ⟨Reg.WPL_STATUS b, 27, 24⟩
def F.WPL_STATUS_GEN (b : Nat) : Fld := ⟨Reg.WPL_STATUS b, 23, 22⟩
def F.WPL_STATUS_WIDTH (b : Nat) : Fld := ⟨Reg.WPL_STATUS b, 21, 20⟩
def F.WPL_STATUS_PAIR (b : Nat) : Fld := ⟨Reg.WPL_STATUS b, 19, 19⟩
def F.WPL_STATUS_ENC (b : Nat) : Fld := ⟨Reg.WPL_STATUS b, 18, 18⟩
def F.WPL_STATUS_CAUSE (b : Nat) : Fld := ⟨Reg.WPL_STATUS b, 15, 12⟩
def F.WPL_STATUS_LRET (b : Nat) : Fld := ⟨Reg.WPL_STATUS b, 11, 8⟩
def F.WPL_STATUS_REV (b : Nat) : Fld := ⟨Reg.WPL_STATUS b, 7, 0⟩
def F.WPL_PEER_ID_KIND (b : Nat) : Fld := ⟨Reg.WPL_PEER_ID b, 31, 30⟩
def F.WPL_PEER_ID_RPORT (b : Nat) : Fld := ⟨Reg.WPL_PEER_ID b, 23, 16⟩
def F.WPL_PEER_ID_RID (b : Nat) : Fld := ⟨Reg.WPL_PEER_ID b, 15, 0⟩
def F.WPL_PEER_SER_LO_VALUE (b : Nat) : Fld := ⟨Reg.WPL_PEER_SER_LO b, 31, 0⟩
def F.WPL_PEER_SER_HI_VALUE (b : Nat) : Fld := ⟨Reg.WPL_PEER_SER_HI b, 31, 0⟩
def F.WPL_PEER_FW_VALUE (b : Nat) : Fld := ⟨Reg.WPL_PEER_FW b, 31, 0⟩
def F.WPL_ERR_REPLAY (b : Nat) : Fld := ⟨Reg.WPL_ERR b, 31, 16⟩
def F.WPL_ERR_CRC (b : Nat) : Fld := ⟨Reg.WPL_ERR b, 15, 8⟩
def F.WPL_ERR_AUTH (b : Nat) : Fld := ⟨Reg.WPL_ERR b, 7, 0⟩
def F.WPL_FEC_CE_COUNT (b : Nat) : Fld := ⟨Reg.WPL_FEC_CE b, 31, 0⟩
def F.WPL_FEC_UE_COUNT (b : Nat) : Fld := ⟨Reg.WPL_FEC_UE b, 31, 0⟩
def F.WPL_LANE_RETRAINS (b : Nat) : Fld := ⟨Reg.WPL_LANE b, 31, 16⟩
def F.WPL_LANE_WINDOW (b : Nat) : Fld := ⟨Reg.WPL_LANE b, 15, 0⟩
def F.CLV_CFG_TLIM : Fld := ⟨Reg.CLV_CFG, 31, 16⟩
def F.CLV_CFG_JOBGRP : Fld := ⟨Reg.CLV_CFG, 11, 0⟩
def F.CLV_STATUS_STRAY : Fld := ⟨Reg.CLV_STATUS, 31, 16⟩
def F.CLV_STATUS_INFLIGHT : Fld := ⟨Reg.CLV_STATUS, 15, 0⟩
def F.CLV_GRP_CMD_OP : Fld := ⟨Reg.CLV_GRP_CMD, 31, 30⟩
def F.CLV_GRP_CMD_INDEX : Fld := ⟨Reg.CLV_GRP_CMD, 11, 0⟩
def F.CLV_GRP_STATUS_BUSY : Fld := ⟨Reg.CLV_GRP_STATUS, 31, 31⟩
def F.CLV_GRP_STATUS_ERR : Fld := ⟨Reg.CLV_GRP_STATUS, 30, 30⟩
def F.CLV_GRP_STATUS_SEQ : Fld := ⟨Reg.CLV_GRP_STATUS, 15, 0⟩
def F.CLV_GRP_DATA_WORD (i : Nat) : Fld := ⟨Reg.CLV_GRP_DATA i, 31, 0⟩
def F.CLV_TB_LO_TIME : Fld := ⟨Reg.CLV_TB_LO, 31, 0⟩
def F.CLV_TB_HI_TIME : Fld := ⟨Reg.CLV_TB_HI, 31, 0⟩
def F.CLV_TB_CFG_ROLE : Fld := ⟨Reg.CLV_TB_CFG, 31, 30⟩
def F.CLV_TB_CFG_ARM : Fld := ⟨Reg.CLV_TB_CFG, 29, 29⟩
def F.CLV_TB_CFG_STEP_OK : Fld := ⟨Reg.CLV_TB_CFG, 28, 28⟩
def F.CLV_TB_CFG_SYNC_DLY : Fld := ⟨Reg.CLV_TB_CFG, 7, 0⟩
def F.CLV_TB_ARM_LO_TIME : Fld := ⟨Reg.CLV_TB_ARM_LO, 31, 0⟩
def F.CLV_TB_ARM_HI_TIME : Fld := ⟨Reg.CLV_TB_ARM_HI, 31, 0⟩
def F.CLV_TB_STATUS_ALIGNED : Fld := ⟨Reg.CLV_TB_STATUS, 31, 31⟩
def F.CLV_TB_STATUS_SYNC_LOST : Fld := ⟨Reg.CLV_TB_STATUS, 30, 30⟩
def F.CLV_TB_STATUS_SYNC_ERR : Fld := ⟨Reg.CLV_TB_STATUS, 29, 29⟩
def F.CLV_TB_STATUS_LOCKED_UP : Fld := ⟨Reg.CLV_TB_STATUS, 28, 28⟩
def F.CLV_TB_STATUS_ARM_ERR : Fld := ⟨Reg.CLV_TB_STATUS, 27, 27⟩
def F.CLV_TB_STATUS_ERRT : Fld := ⟨Reg.CLV_TB_STATUS, 15, 0⟩
def F.CLV_TB_OFS_NS : Fld := ⟨Reg.CLV_TB_OFS, 31, 0⟩
def F.CLV_TB_ASYM_NS : Fld := ⟨Reg.CLV_TB_ASYM, 31, 0⟩
def F.CLV_TB_PEER_PORT : Fld := ⟨Reg.CLV_TB_PEER, 19, 16⟩
def F.CLV_TB_PEER_ID : Fld := ⟨Reg.CLV_TB_PEER, 15, 0⟩
def F.CLV_BAR_CFG_LEAD_JOB : Fld := ⟨Reg.CLV_BAR_CFG, 31, 16⟩
def F.CLV_BAR_CFG_LEAD_LOCAL : Fld := ⟨Reg.CLV_BAR_CFG, 15, 0⟩
def F.CLV_WAVE_PERIOD : Fld := ⟨Reg.CLV_WAVE, 31, 16⟩
def F.CLV_WAVE_SLOTS : Fld := ⟨Reg.CLV_WAVE, 4, 0⟩
def F.CLV_BAR_LAST_VALID : Fld := ⟨Reg.CLV_BAR_LAST, 31, 31⟩
def F.CLV_BAR_LAST_CAUSE : Fld := ⟨Reg.CLV_BAR_LAST, 27, 24⟩
def F.CLV_BAR_LAST_STEP : Fld := ⟨Reg.CLV_BAR_LAST, 23, 20⟩
def F.CLV_BAR_LAST_ID : Fld := ⟨Reg.CLV_BAR_LAST, 15, 0⟩
def F.CLV_PEER_PACE_VALID : Fld := ⟨Reg.CLV_PEER_PACE, 31, 31⟩
def F.CLV_PEER_PACE_CAUSE : Fld := ⟨Reg.CLV_PEER_PACE, 27, 24⟩
def F.CLV_PEER_PACE_STEP : Fld := ⟨Reg.CLV_PEER_PACE, 23, 20⟩
def F.CLV_PEER_PACE_ID : Fld := ⟨Reg.CLV_PEER_PACE, 15, 0⟩
def F.CLV_BAR_SPREAD_VALUE : Fld := ⟨Reg.CLV_BAR_SPREAD, 31, 0⟩
def F.CLV_LATE_REL_VALUE : Fld := ⟨Reg.CLV_LATE_REL, 31, 0⟩
def F.CLV_PACE_CFG_FOLLOW : Fld := ⟨Reg.CLV_PACE_CFG, 31, 31⟩
def F.CLV_PACE_CFG_FLOOR : Fld := ⟨Reg.CLV_PACE_CFG, 23, 20⟩
def F.CLV_PACE_CFG_CEIL : Fld := ⟨Reg.CLV_PACE_CFG, 19, 16⟩
def F.CLV_PACE_CFG_HELD : Fld := ⟨Reg.CLV_PACE_CFG, 15, 15⟩
def F.CLV_IDLE_LO_COUNT (i : Nat) : Fld := ⟨Reg.CLV_IDLE_LO i, 31, 0⟩
def F.CLV_IDLE_HI_COUNT (i : Nat) : Fld := ⟨Reg.CLV_IDLE_HI i, 31, 0⟩
def F.HEL_STATUS_STEP (b : Nat) : Fld := ⟨Reg.HEL_STATUS b, 31, 28⟩
def F.HEL_STATUS_LOCKED (b : Nat) : Fld := ⟨Reg.HEL_STATUS b, 27, 27⟩
def F.HEL_STATUS_RAIL_MAX (b : Nat) : Fld := ⟨Reg.HEL_STATUS b, 26, 26⟩
def F.HEL_STATUS_VOUT (b : Nat) : Fld := ⟨Reg.HEL_STATUS b, 25, 16⟩
def F.HEL_STATUS_MCEIL (b : Nat) : Fld := ⟨Reg.HEL_STATUS b, 15, 12⟩
def F.HEL_STATUS_ERR (b : Nat) : Fld := ⟨Reg.HEL_STATUS b, 11, 0⟩
def F.HEL_VT_FACT (b i : Nat) : Fld := ⟨Reg.HEL_VT b i, 25, 16⟩
def F.HEL_VT_USER (b i : Nat) : Fld := ⟨Reg.HEL_VT b i, 15, 8⟩
def F.HEL_VT_AGE (b i : Nat) : Fld := ⟨Reg.HEL_VT b i, 7, 0⟩
def F.COL_CFG_LOCK : Fld := ⟨Reg.COL_CFG, 31, 31⟩
def F.COL_CFG_ALIGN : Fld := ⟨Reg.COL_CFG, 30, 30⟩
def F.COL_CFG_REFSSC : Fld := ⟨Reg.COL_CFG, 29, 29⟩
def F.COL_CFG_SSC_DEPTH : Fld := ⟨Reg.COL_CFG, 23, 16⟩
def F.COL_CFG_SSC_FREQ : Fld := ⟨Reg.COL_CFG, 15, 8⟩
def F.COL_CFG_REFSSC_DEPTH : Fld := ⟨Reg.COL_CFG, 7, 0⟩
def F.COL_STATUS_STATE : Fld := ⟨Reg.COL_STATUS, 31, 29⟩
def F.COL_STATUS_LOSSES : Fld := ⟨Reg.COL_STATUS, 15, 0⟩
def F.COL_OUT_CFG_EN (i : Nat) : Fld := ⟨Reg.COL_OUT_CFG i, 31, 31⟩
def F.COL_OUT_CFG_SSC_DEPTH (i : Nat) : Fld := ⟨Reg.COL_OUT_CFG i, 23, 16⟩
def F.COL_OUT_CFG_SSC_FREQ (i : Nat) : Fld := ⟨Reg.COL_OUT_CFG i, 15, 8⟩
def F.COL_OUT_CFG_DIV (i : Nat) : Fld := ⟨Reg.COL_OUT_CFG i, 5, 0⟩
def F.COL_FCNT_CTRL_START : Fld := ⟨Reg.COL_FCNT_CTRL, 31, 31⟩
def F.COL_FCNT_CTRL_GATE : Fld := ⟨Reg.COL_FCNT_CTRL, 23, 20⟩
def F.COL_FCNT_CTRL_SEL : Fld := ⟨Reg.COL_FCNT_CTRL, 7, 0⟩
def F.COL_FCNT_RESULT_COUNT : Fld := ⟨Reg.COL_FCNT_RESULT, 31, 0⟩
def F.DIA_CAP_LOCK : Fld := ⟨Reg.DIA_CAP, 31, 31⟩
def F.DIA_CAP_CAP : Fld := ⟨Reg.DIA_CAP, 11, 0⟩
def F.DIA_PRIO_ORDER : Fld := ⟨Reg.DIA_PRIO, 5, 0⟩
def F.DIA_STATUS_STEP_HI : Fld := ⟨Reg.DIA_STATUS, 31, 28⟩
def F.DIA_STATUS_DUTY : Fld := ⟨Reg.DIA_STATUS, 27, 24⟩
def F.DIA_STATUS_CAUSE : Fld := ⟨Reg.DIA_STATUS, 23, 20⟩
def F.DIA_STATUS_ERR : Fld := ⟨Reg.DIA_STATUS, 19, 19⟩
def F.DIA_STATUS_TRIPPED : Fld := ⟨Reg.DIA_STATUS, 18, 18⟩
def F.DIA_STATUS_ESTOP : Fld := ⟨Reg.DIA_STATUS, 17, 17⟩
def F.DIA_STATUS_PARKED : Fld := ⟨Reg.DIA_STATUS, 15, 0⟩
def F.DIA_MIN_W (i : Nat) : Fld := ⟨Reg.DIA_MIN i, 11, 0⟩
def F.DIA_PWR_BUDGET (i : Nat) : Fld := ⟨Reg.DIA_PWR i, 31, 16⟩
def F.DIA_PWR_EST (i : Nat) : Fld := ⟨Reg.DIA_PWR i, 15, 0⟩
def F.DIA_WTRIM_COMPUTE : Fld := ⟨Reg.DIA_WTRIM, 23, 16⟩
def F.DIA_WTRIM_MEMORY : Fld := ⟨Reg.DIA_WTRIM, 15, 8⟩
def F.DIA_WTRIM_LINKS : Fld := ⟨Reg.DIA_WTRIM, 7, 0⟩
def F.DIA_PACE_UCEIL : Fld := ⟨Reg.DIA_PACE, 31, 28⟩
def F.DIA_PACE_FLOOR : Fld := ⟨Reg.DIA_PACE, 27, 24⟩
def F.DIA_PACE_STEP : Fld := ⟨Reg.DIA_PACE, 23, 20⟩
def F.DIA_PACE_THERM : Fld := ⟨Reg.DIA_PACE, 19, 16⟩
def F.DIA_PACE_DROOP : Fld := ⟨Reg.DIA_PACE, 15, 12⟩
def F.DIA_PACE_BOARD : Fld := ⟨Reg.DIA_PACE, 11, 8⟩
def F.DIA_PACE_MCEIL : Fld := ⟨Reg.DIA_PACE, 7, 4⟩
def F.DIA_PACEN_DROOPS : Fld := ⟨Reg.DIA_PACEN, 31, 24⟩
def F.DIA_PACEN_WARNS : Fld := ⟨Reg.DIA_PACEN, 23, 16⟩
def F.DIA_PACEN_GLITCH : Fld := ⟨Reg.DIA_PACEN, 15, 8⟩
def F.DIA_PACEN_INVALID : Fld := ⟨Reg.DIA_PACEN, 7, 0⟩
def F.DIA_THERM_SENSOR : Fld := ⟨Reg.DIA_THERM, 31, 22⟩
def F.DIA_THERM_TMAX : Fld := ⟨Reg.DIA_THERM, 15, 0⟩
def F.DIA_SAG_LEVEL : Fld := ⟨Reg.DIA_SAG, 31, 29⟩
def F.DIA_SAG_EVENTS : Fld := ⟨Reg.DIA_SAG, 15, 0⟩
def F.DIA_TRIP_REARM : Fld := ⟨Reg.DIA_TRIP, 31, 31⟩
def F.DIA_TRIP_TRIPS : Fld := ⟨Reg.DIA_TRIP, 15, 0⟩
def F.DIA_PSTATE_STATE : Fld := ⟨Reg.DIA_PSTATE, 31, 29⟩
def F.DIA_PSTATE_REQ : Fld := ⟨Reg.DIA_PSTATE, 28, 27⟩
def F.FLT_CFG_LOCK : Fld := ⟨Reg.FLT_CFG, 31, 31⟩
def F.FLT_CFG_REPLAY : Fld := ⟨Reg.FLT_CFG, 30, 30⟩
def F.FLT_CFG_IRQ_PERM : Fld := ⟨Reg.FLT_CFG, 29, 29⟩
def F.FLT_CFG_IRQ_ALL : Fld := ⟨Reg.FLT_CFG, 28, 28⟩
def F.FLT_CFG_IRQ_ADV : Fld := ⟨Reg.FLT_CFG, 27, 27⟩
def F.FLT_RING_WRAPS : Fld := ⟨Reg.FLT_RING, 31, 16⟩
def F.FLT_RING_CAPS : Fld := ⟨Reg.FLT_RING, 15, 0⟩
def F.FLT_LAST_RSEQ_RSEQ : Fld := ⟨Reg.FLT_LAST_RSEQ, 31, 0⟩
def F.FLT_STATUS_HIST_FULL : Fld := ⟨Reg.FLT_STATUS, 31, 31⟩
def F.FLT_STATUS_NOSPARE : Fld := ⟨Reg.FLT_STATUS, 30, 24⟩
def F.FLT_STATUS_PERM : Fld := ⟨Reg.FLT_STATUS, 23, 12⟩
def F.FLT_STATUS_TRANS : Fld := ⟨Reg.FLT_STATUS, 11, 0⟩
def F.FLT_SVC_TIME_SECONDS : Fld := ⟨Reg.FLT_SVC_TIME, 31, 0⟩
def F.FLT_WIN_CMD_OP : Fld := ⟨Reg.FLT_WIN_CMD, 31, 30⟩
def F.FLT_WIN_CMD_TGT : Fld := ⟨Reg.FLT_WIN_CMD, 29, 28⟩
def F.FLT_WIN_CMD_INDEX : Fld := ⟨Reg.FLT_WIN_CMD, 27, 0⟩
def F.FLT_WIN_STATUS_BUSY : Fld := ⟨Reg.FLT_WIN_STATUS, 31, 31⟩
def F.FLT_WIN_STATUS_ERR : Fld := ⟨Reg.FLT_WIN_STATUS, 30, 30⟩
def F.FLT_WIN_STATUS_SEQ : Fld := ⟨Reg.FLT_WIN_STATUS, 15, 0⟩
def F.FLT_WIN_DATA_WORD (i : Nat) : Fld := ⟨Reg.FLT_WIN_DATA i, 31, 0⟩
def F.FLT_HMIR_LO_ADDR : Fld := ⟨Reg.FLT_HMIR_LO, 31, 0⟩
def F.FLT_HMIR_HI_ADDR : Fld := ⟨Reg.FLT_HMIR_HI, 31, 0⟩
def F.FLT_HMIR_CFG_EN : Fld := ⟨Reg.FLT_HMIR_CFG, 31, 31⟩
def F.FLT_HMIR_CFG_LOG2N : Fld := ⟨Reg.FLT_HMIR_CFG, 3, 0⟩
def F.FLT_HMIR_TAIL_INDEX : Fld := ⟨Reg.FLT_HMIR_TAIL, 19, 0⟩
def F.FLT_HMIR_HEAD_INDEX : Fld := ⟨Reg.FLT_HMIR_HEAD, 19, 0⟩
def F.FLT_HMIR_LOST_COUNT : Fld := ⟨Reg.FLT_HMIR_LOST, 31, 0⟩
def F.FLT_LP_ADVISORIES : Fld := ⟨Reg.FLT_LP, 31, 16⟩
def F.FLT_LP_ADV_LOST : Fld := ⟨Reg.FLT_LP, 15, 8⟩
def F.FLT_LP_UNMATCHED : Fld := ⟨Reg.FLT_LP, 7, 0⟩
def F.FLT_LP_ADV_TAIL_INDEX : Fld := ⟨Reg.FLT_LP_ADV_TAIL, 7, 0⟩
def F.TST_CFG_LOCK : Fld := ⟨Reg.TST_CFG, 31, 31⟩
def F.TST_CFG_EN : Fld := ⟨Reg.TST_CFG, 30, 30⟩
def F.TST_CFG_INTERVAL : Fld := ⟨Reg.TST_CFG, 23, 16⟩
def F.TST_CFG_GRACE : Fld := ⟨Reg.TST_CFG, 15, 0⟩
def F.TST_STATUS_SUSP : Fld := ⟨Reg.TST_STATUS, 31, 31⟩
def F.TST_STATUS_OOS : Fld := ⟨Reg.TST_STATUS, 30, 30⟩
def F.TST_COUNT_ROTATIONS : Fld := ⟨Reg.TST_COUNT, 31, 16⟩
def F.TST_COUNT_FAILS : Fld := ⟨Reg.TST_COUNT, 15, 8⟩
def F.TST_COUNT_DEFERRED : Fld := ⟨Reg.TST_COUNT, 7, 0⟩
def F.TST_THR_LOCK : Fld := ⟨Reg.TST_THR, 31, 31⟩
def F.TST_THR_CH_PAGES : Fld := ⟨Reg.TST_THR, 23, 16⟩
def F.TST_THR_STACK_CH : Fld := ⟨Reg.TST_THR, 15, 8⟩
def F.TST_THR_SLOW_CH : Fld := ⟨Reg.TST_THR, 7, 4⟩
def F.TST_HANG_ACT : Fld := ⟨Reg.TST_HANG, 31, 31⟩
def F.TST_HANG_HANGS : Fld := ⟨Reg.TST_HANG, 15, 0⟩
def F.TST_RESET_KIND : Fld := ⟨Reg.TST_RESET, 31, 28⟩
def F.TST_RESET_DIE : Fld := ⟨Reg.TST_RESET, 27, 26⟩
def F.TST_RESET_CLUSTER : Fld := ⟨Reg.TST_RESET, 25, 21⟩
def F.TST_RESET_INDEX : Fld := ⟨Reg.TST_RESET, 20, 11⟩
def F.TST_ESC_WARM7D : Fld := ⟨Reg.TST_ESC, 31, 24⟩
def F.TST_ESC_DIEQ : Fld := ⟨Reg.TST_ESC, 23, 20⟩
def F.TST_CAP_ADDR_LO_ADDR : Fld := ⟨Reg.TST_CAP_ADDR_LO, 31, 0⟩
def F.TST_CAP_ADDR_HI_ADDR : Fld := ⟨Reg.TST_CAP_ADDR_HI, 31, 0⟩
def F.TST_CAP_CMD_OP : Fld := ⟨Reg.TST_CAP_CMD, 31, 30⟩
def F.TST_CAP_CMD_EN : Fld := ⟨Reg.TST_CAP_CMD, 29, 29⟩
def F.TST_CAP_CMD_INDEX : Fld := ⟨Reg.TST_CAP_CMD, 7, 0⟩
def F.TST_CAP_STATUS_BUSY : Fld := ⟨Reg.TST_CAP_STATUS, 31, 31⟩
def F.TST_CAP_STATUS_RESULT : Fld := ⟨Reg.TST_CAP_STATUS, 30, 28⟩
def F.TST_CAP_STATUS_COUNT : Fld := ⟨Reg.TST_CAP_STATUS, 24, 16⟩
def F.TST_CAP_STATUS_POOL : Fld := ⟨Reg.TST_CAP_STATUS, 15, 0⟩
def F.TST_DUMP_NEW0 : Fld := ⟨Reg.TST_DUMP, 31, 31⟩
def F.TST_DUMP_NEW1 : Fld := ⟨Reg.TST_DUMP, 30, 30⟩
def F.TST_DUMP_TAKE : Fld := ⟨Reg.TST_DUMP, 29, 29⟩
def F.TST_DUMP_CAUSE : Fld := ⟨Reg.TST_DUMP, 23, 20⟩
def F.TST_DUMP_LOST : Fld := ⟨Reg.TST_DUMP, 19, 16⟩
def F.TST_DUMP_DUMPS : Fld := ⟨Reg.TST_DUMP, 15, 0⟩
def F.TST_AGE_DAYS (i : Nat) : Fld := ⟨Reg.TST_AGE i, 31, 16⟩
def F.TST_AGE_AGE_SAT (i : Nat) : Fld := ⟨Reg.TST_AGE i, 15, 15⟩
def F.TST_AGE_VP4 (i : Nat) : Fld := ⟨Reg.TST_AGE i, 9, 0⟩
def F.STR_SLOTMAP_BOUND0 (b i : Nat) : Fld := ⟨Reg.STR_SLOTMAP b i, 7, 7⟩
def F.STR_SLOTMAP_ENGINE0 (b i : Nat) : Fld := ⟨Reg.STR_SLOTMAP b i, 4, 0⟩
def F.STR_SLOTMAP_BOUND1 (b i : Nat) : Fld := ⟨Reg.STR_SLOTMAP b i, 15, 15⟩
def F.STR_SLOTMAP_ENGINE1 (b i : Nat) : Fld := ⟨Reg.STR_SLOTMAP b i, 12, 8⟩
def F.STR_SLOTMAP_BOUND2 (b i : Nat) : Fld := ⟨Reg.STR_SLOTMAP b i, 23, 23⟩
def F.STR_SLOTMAP_ENGINE2 (b i : Nat) : Fld := ⟨Reg.STR_SLOTMAP b i, 20, 16⟩
def F.STR_SLOTMAP_BOUND3 (b i : Nat) : Fld := ⟨Reg.STR_SLOTMAP b i, 31, 31⟩
def F.STR_SLOTMAP_ENGINE3 (b i : Nat) : Fld := ⟨Reg.STR_SLOTMAP b i, 28, 24⟩
def F.STR_SPARE_NONE (b : Nat) : Fld := ⟨Reg.STR_SPARE b, 31, 31⟩
def F.STR_SPARE_QUAR (b : Nat) : Fld := ⟨Reg.STR_SPARE b, 30, 30⟩
def F.STR_SPARE_TESTING (b : Nat) : Fld := ⟨Reg.STR_SPARE b, 29, 29⟩
def F.STR_SPARE_SPARE (b : Nat) : Fld := ⟨Reg.STR_SPARE b, 28, 24⟩
def F.STR_SPARE_RETIRED (b : Nat) : Fld := ⟨Reg.STR_SPARE b, 16, 0⟩
def F.PLN_BOOT_STEP : Fld := ⟨Reg.PLN_BOOT, 31, 28⟩
def F.PLN_BOOT_FAIL : Fld := ⟨Reg.PLN_BOOT, 27, 24⟩
def F.PLN_BOOT_DIEPASS : Fld := ⟨Reg.PLN_BOOT, 23, 20⟩
def F.PLN_BOOT_MS : Fld := ⟨Reg.PLN_BOOT, 15, 0⟩
def F.SEC_LIFE_STATE : Fld := ⟨Reg.SEC_LIFE, 31, 29⟩
def F.SEC_LIFE_ZEROED : Fld := ⟨Reg.SEC_LIFE, 28, 28⟩
def F.SEC_POLICY_LOCK : Fld := ⟨Reg.SEC_POLICY, 31, 31⟩
def F.SEC_POLICY_DBGMAX : Fld := ⟨Reg.SEC_POLICY, 30, 30⟩
def F.SEC_POLICY_CALSIG : Fld := ⟨Reg.SEC_POLICY, 29, 29⟩
def F.SEC_POLICY_HOSTW : Fld := ⟨Reg.SEC_POLICY, 28, 28⟩
def F.SEC_POLICY_HOSTRST : Fld := ⟨Reg.SEC_POLICY, 27, 27⟩
def F.SEC_BOOT_ISL_SLOT : Fld := ⟨Reg.SEC_BOOT, 31, 31⟩
def F.SEC_BOOT_ARM_SLOT : Fld := ⟨Reg.SEC_BOOT, 30, 30⟩
def F.SEC_BOOT_TRIAL : Fld := ⟨Reg.SEC_BOOT, 29, 29⟩
def F.SEC_BOOT_FALLBACK : Fld := ⟨Reg.SEC_BOOT, 28, 28⟩
def F.SEC_BOOT_ARM_SVN : Fld := ⟨Reg.SEC_BOOT, 13, 7⟩
def F.SEC_BOOT_ISL_SVN : Fld := ⟨Reg.SEC_BOOT, 6, 0⟩
def F.SEC_NONCE_VALUE (i : Nat) : Fld := ⟨Reg.SEC_NONCE i, 31, 0⟩
def F.SEC_ADDR_LO_VALUE : Fld := ⟨Reg.SEC_ADDR_LO, 31, 0⟩
def F.SEC_ADDR_HI_VALUE : Fld := ⟨Reg.SEC_ADDR_HI, 31, 0⟩
def F.SEC_CMD_OP : Fld := ⟨Reg.SEC_CMD, 31, 28⟩
def F.SEC_CMD_TGT : Fld := ⟨Reg.SEC_CMD, 27, 27⟩
def F.SEC_STATUS_BUSY : Fld := ⟨Reg.SEC_STATUS, 31, 31⟩
def F.SEC_STATUS_RESULT : Fld := ⟨Reg.SEC_STATUS, 30, 27⟩
def F.SEC_STATUS_DENIED : Fld := ⟨Reg.SEC_STATUS, 26, 16⟩
def F.SEC_STATUS_SEQ : Fld := ⟨Reg.SEC_STATUS, 15, 0⟩
def F.DBG_LEVEL_LEVEL : Fld := ⟨Reg.DBG_LEVEL, 31, 30⟩
def F.DBG_LEVEL_FACET : Fld := ⟨Reg.DBG_LEVEL, 29, 29⟩
def F.DBG_LEVEL_DENIED : Fld := ⟨Reg.DBG_LEVEL, 15, 0⟩
def F.DBG_CTRL_REQ : Fld := ⟨Reg.DBG_CTRL, 31, 30⟩
def F.DBG_CTRL_FACET : Fld := ⟨Reg.DBG_CTRL, 29, 29⟩
def F.INS_CAL_VALID : Fld := ⟨Reg.INS_CAL, 31, 31⟩
def F.INS_CAL_SIGNED : Fld := ⟨Reg.INS_CAL, 30, 30⟩
def F.INS_CAL_STAGED : Fld := ⟨Reg.INS_CAL, 29, 29⟩
def F.INS_CAL_ENTRIES : Fld := ⟨Reg.INS_CAL, 24, 12⟩
def F.INS_CAL_CLAMPED : Fld := ⟨Reg.INS_CAL, 11, 0⟩
def F.PLN_FACET_PHASE : Fld := ⟨Reg.PLN_FACET, 31, 30⟩
def F.PLN_FACET_TWOPIN : Fld := ⟨Reg.PLN_FACET, 29, 29⟩
def F.PLN_FACET_AMBIG : Fld := ⟨Reg.PLN_FACET, 27, 24⟩
def F.PLN_FACET_WORD : Fld := ⟨Reg.PLN_FACET, 23, 0⟩
def F.PLN_FAULTN_HELD : Fld := ⟨Reg.PLN_FAULTN, 31, 31⟩
def F.PLN_FAULTN_ACTIVE : Fld := ⟨Reg.PLN_FAULTN, 30, 28⟩
def F.PLN_FAULTN_PENDING : Fld := ⟨Reg.PLN_FAULTN, 27, 24⟩
def F.PLN_FAULTN_PULSES : Fld := ⟨Reg.PLN_FAULTN, 15, 0⟩
def F.PLN_MGMT_MODE : Fld := ⟨Reg.PLN_MGMT, 31, 30⟩
def F.PLN_MGMT_DAA : Fld := ⟨Reg.PLN_MGMT, 29, 29⟩
def F.PLN_MGMT_DYNADDR : Fld := ⟨Reg.PLN_MGMT, 22, 16⟩
def F.PLN_MGMT_STATADDR : Fld := ⟨Reg.PLN_MGMT, 6, 0⟩
def F.PLN_HOST_UP : Fld := ⟨Reg.PLN_HOST, 31, 31⟩
def F.PLN_HOST_MODE : Fld := ⟨Reg.PLN_HOST, 30, 29⟩
def F.PLN_HOST_RATE : Fld := ⟨Reg.PLN_HOST, 28, 26⟩
def F.PLN_HOST_WIDTH : Fld := ⟨Reg.PLN_HOST, 25, 21⟩
def F.PLN_HOST_RETRAINS : Fld := ⟨Reg.PLN_HOST, 15, 0⟩

/-- Whether offset `k` of the register window holds a register of this table. -/
def RegRow.has (r : RegRow) (k : Nat) : Bool :=
  let b := k / 0x10000
  let o := k % 0x10000
  r.blk ≤ b && b < r.blk + r.nblk &&
    (List.range r.count2).any fun j =>
      let o' := o - r.stride2 * j
      r.off + r.stride2 * j ≤ o && decide (o' - r.off < r.stride * r.count + 1) &&
        (if r.stride = 0 then o' == r.off else (o' - r.off) % r.stride == 0 && decide ((o' - r.off) / r.stride < r.count))

/-- The table row of the register at offset `k`, if the manual defines one (DESIGN CHOICE, log entry 105). -/
def Reg.row (k : Nat) : Option RegRow := regTable.find? (·.has k)

/-- The reset value of the register at offset `k` of the register window: the fields' reset values of its table, with
the three registers whose reset is not one number of a table (R310 DIA_MINc, R351 STR_SLOTMAPj, R308 HEL_VTk.FACT). A
reserved or unassigned offset reads 0 (R8, R26). -/
def Reg.reset (k : Nat) : BitVec 32 :=
  let b := k / 0x10000
  let o := k % 0x10000
  if k = 0x20010 then 0x1F4
  else if k = 0x20014 then 0x096
  else if k = 0x20018 then 0x0C8
  else if 0x100 ≤ b ∧ b < 0x160 ∧ 0x40 ≤ o ∧ o < 0x50 ∧ o % 4 = 0 then
    0x83828180 + 0x04040404 * BitVec.ofNat 32 ((o - 0x40) / 4)
  else if 4 ≤ b ∧ b < 8 ∧ 0x100 ≤ o ∧ o < 0x140 ∧ o % 4 = 0 then
    (Config.factVolt (b - 4) ((o - 0x100) / 4)).zeroExtend 32 <<< 16
  else match Reg.row k with
    | none => 0
    | some r => r.fields.foldl (fun v f => v ||| (BitVec.ofNat 32 f.reset <<< f.lo)) 0

end Sys2Proof.Machine
end

