-- ==== Sys2Proof/Machine/Sparse.lean ====
section
/-! DEFINITION. Sparse storage in one canonical form: a list of (key, value) pairs with strictly rising keys and no
entry equal to what its key reads as when it is not listed. Every memory, register file, table and per-unit store of
the state is held in this form, so that equal contents are equal data. -/
namespace Sys2Proof.Machine

variable {α : Type}

/-- What key `k` reads as: the listed value, or the default of the key. -/
def Sparse.get (d : Nat → α) : List (Nat × α) → Nat → α
  | [], k => d k
  | (j, v) :: m, k => if j = k then v else Sparse.get d m k

/-- The entries of every other key. -/
def Sparse.del (k : Nat) : List (Nat × α) → List (Nat × α)
  | [] => []
  | (j, v) :: m => if j = k then Sparse.del k m else (j, v) :: Sparse.del k m

/-- Lists `v` under `k`, keeping the keys in rising order. -/
def Sparse.put (k : Nat) (v : α) : List (Nat × α) → List (Nat × α)
  | [] => [(k, v)]
  | (j, w) :: m =>
    if k < j then (k, v) :: (j, w) :: m
    else if j = k then (k, v) :: m
    else (j, w) :: Sparse.put k v m

/-- Writes `v` under `k` in canonical form: the key's default is not listed. -/
def Sparse.set [DecidableEq α] (d : Nat → α) (m : List (Nat × α)) (k : Nat) (v : α) : List (Nat × α) :=
  if v = d k then Sparse.del k m else Sparse.put k v m

/-- The canonical form: keys strictly rising, and no entry equal to its key's default. -/
abbrev Sparse.wf [DecidableEq α] (d : Nat → α) (m : List (Nat × α)) : Prop :=
  m.Pairwise (fun a b => a.1 < b.1) ∧ ∀ e ∈ m, e.2 ≠ d e.1

end Sys2Proof.Machine
end

