-- ==== Sys2Proof/Machine/State.lean ====
section
/-! DEFINITION. The state of one ZDT4 package, as plain data: the register file, the memory tiers with their SECDED
syndromes, the engines with their tile and accumulator registers, contexts, streams, semaphores and barriers, the
command queues, the scale table, the Rifflers' update, the Waipol ports, collectives, timebase, pace and power
control, fault records and history, test and repair, Burin and Cheval; and the queue of waiting commands. -/
namespace Sys2Proof.Machine

/-- The completion codes of R134. -/
inductive Code where
  | done | doneInexact | doneBeforeAbort | aborted | poisoned | numericFault | unitRetired | timeout | migrated
  deriving DecidableEq, Repr

/-- The states of a task context (R129). -/
inductive CtxSt where
  | free | run | late | wait | drain
  deriving DecidableEq, Repr

/-- The states of a transfer slot that last beyond one step (R181); DONE and DROPPED free the slot at once. -/
inductive XferSt where
  | free | active | held | stalled
  deriving DecidableEq, Repr

/-- The task a context holds: its queue, the SEQ of its LAUNCH and whether it is a system task (R150). -/
structure TaskRef where
  q : Nat := 0
  seq : BitVec 32 := 0
  sys : Bool := false
  deriving DecidableEq, Repr

/-- A signal awaiting its release (R139): target cluster, semaphore, N, and the work number below which every work
of its context must have completed. -/
structure SigPend where
  clu : Nat := 0
  sem : Nat := 0
  n : Nat := 0
  upto : Nat := 0
  deriving DecidableEq, Repr

/-- A task context (R86, R129): its state with the reason and id STR_CTX shows (R165), the tiles whose FULL a LATE context
awaits (R130), its program counter in words from the entry point, the offset of the instruction it issued last, its scalar
registers, its task, the code its contributions combine to (R133), its pending signals, what it waits for, whether a stop
cut its task short or awaits the end of a hand-over (R162, R163), and when it issued last, as a count of its engine's
issues (R131). -/
structure Ctx where
  st : CtxSt := .free
  why : Nat := 0
  wid : Nat := 0
  miss : List Nat := []
  pc : Nat := 0
  at_ : Nat := 0
  prog : BitVec 64 := 0
  sreg : List (Nat × BitVec 32) := []
  task : Option TaskRef := none
  code : Code := .done
  pend : List SigPend := []
  stopped : Bool := false
  cut : Bool := false
  held : Option Code := none
  lds : Option (Nat × Nat) := none
  cap : Option (Nat × Nat) := none
  since : BitVec 64 := 0
  turn : Nat := 0
  deriving DecidableEq, Repr

/-- An issued tile instruction in a queue or a unit (R90, R92): its work number, context (0 to 3), base word, extension
word (a scalar second source read at issue stands in bits [15:0], R94), offset from the entry point, the pairs that
have entered, the scale word chosen at its start, and SCT_STEP when it was issued (R41). -/
structure QEnt where
  id : Nat := 0
  ctx : Nat := 0
  w : BitVec 64 := 0
  x : BitVec 64 := 0
  pc : Nat := 0
  pair : Nat := 0
  sw : BitVec 16 := 0
  step : BitVec 32 := 0
  deriving DecidableEq, Repr

/-- An operand pair in an engine's capture latch or in a capture slot (R313, R314): the instruction word, the pair's
index, its accumulator, and the bytes of its two tiles and side-bands. -/
structure Capture where
  w : BitVec 64 := 0
  pair : Nat := 0
  acc : Nat := 0
  a : List Host.Cell := []
  sa : List Host.Cell := []
  b : List Host.Cell := []
  sb : List Host.Cell := []
  deriving DecidableEq, Repr

/-- A physical engine: its three queues and units (R90), whether its issue is stopped by a hand-over (R332), a running
reset, a failed reset (R344) or the debugger with its single steps (R370), its place in the test rotation (R334), its
Loupe hold (R119), its capture latch (R313), whether the work in its vector unit has failed its residue check (R315), the
instant up to which its idle time has been charged, and the idle time that waits for the end of a wait for peers (R275).
-/
structure Engine where
  qA : List QEnt := []
  qB : List QEnt := []
  qV : List QEnt := []
  runA : Option QEnt := none
  runB : Option QEnt := none
  runV : Option QEnt := none
  stop : Bool := false
  copying : Bool := false
  resetting : Bool := false
  failed : Bool := false
  halted : Bool := false
  steps : Nat := 0
  lastTest : Nat := 0
  deferred : Bool := false
  loupeHold : Bool := false
  latch : List Capture := []
  vbad : Bool := false
  busyAt : BitVec 64 := 0
  peerIdle : BitVec 64 := 0
  deriving DecidableEq, Repr

/-- The tag of a tile register (R88). -/
structure Tag where
  fmt : BitVec 3 := 0
  full : Bool := false
  sh0 : Bool := false
  sh1 : Bool := false
  poison : BitVec 512 := 0
  deriving DecidableEq, Repr

/-- A transfer slot (R145, R181): its state, work number and context, the batch its descriptor came from with
its index there, the instruction's offset and opcode, the
descriptor's four words (R143), the 64-byte units moved, the instant of its last progress, and what it has met. A
saved-image load in ACCLD mode 3 (R107) names its accumulator. `copy` gathers the rows of the shadow copies (R179);
`asked` and `inbox` are the units requested from a remote package and those that have arrived. -/
structure Xfer where
  st : XferSt := .free
  id : Nat := 0
  ctx : Nat := 0
  batch : Option Nat := none
  idx : Nat := 0
  d0 : BitVec 64 := 0
  d1 : BitVec 64 := 0
  d2 : BitVec 64 := 0
  d3 : BitVec 64 := 0
  unit : Nat := 0
  pc : Nat := 0
  op : Nat := 0
  last : BitVec 64 := 0
  starved : Bool := false
  cause : Nat := 0
  acc : Option Nat := none
  dropping : Bool := false
  copy : List MWord := []
  asked : Nat := 0
  inbox : List (Nat × List MWord) := []
  deriving DecidableEq, Repr

/-- An SDESC batch (R145): its work number, context and IOFS, the array's address and length, how many descriptors
have been fetched, started and completed, those fetched and not started, and whether an invalid one was met. -/
structure Batch where
  id : Nat := 0
  ctx : Nat := 0
  pc : Nat := 0
  addr : BitVec 64 := 0
  count : Nat := 0
  fetched : Nat := 0
  started : Nat := 0
  finished : Nat := 0
  ready : List (BitVec 64 × BitVec 64 × BitVec 64 × BitVec 64) := []
  bad : Bool := false
  deriving DecidableEq, Repr

/-- A collective slot of an engine (R149): its work number, context and IOFS, opcode, descriptor (R147), the member
and instance it joined (R250), and when it was issued. -/
structure Coll where
  id : Nat := 0
  ctx : Nat := 0
  pc : Nat := 0
  op : Nat := 0
  d0 : BitVec 64 := 0
  d1 : BitVec 64 := 0
  d2 : BitVec 64 := 0
  d3 : BitVec 64 := 0
  member : Nat := 0
  inst : Nat := 0
  at_ : BitVec 64 := 0
  deriving DecidableEq, Repr

/-- A collective instance open at this package's nodes (R250, R253): what its members give (opcode, FMT, OP, COUNT), the
own members that have joined with their slots and sources (16-bit elements with poison, or the words of saved images),
the slots received from children and from above, the statistics, which elements have been combined or passed on,
whether a difference was found, whether the root point has passed or the instance is cancelled (R259), and whether the
next combination fails its residue check (R315). -/
structure Inst where
  op : Nat := 0
  fmt : Nat := 0
  cop : Nat := 0
  count : Nat := 0
  joined : List (Nat × Nat) := []
  left : List Nat := []
  srcs : List (Nat × List (BitVec 16 × Bool)) := []
  imgs : List (Nat × List MWord) := []
  ups : List CSlot := []
  downs : List CSlot := []
  stats : List StatSlot := []
  xsum : Option StatSlot := none
  passed : List (BitVec 48) := []
  statPassed : Bool := false
  bad : Bool := false
  rooted : Bool := false
  cancelled : Bool := false
  hurt : Bool := false
  deriving DecidableEq, Repr

/-- A waiter of a semaphore (R140): a context (by logical slot) or a WAITSEM command. -/
inductive Waiter where
  | ctx (l k n : Nat)
  | cmd (q : Nat) (seq : BitVec 32) (n : Nat)
  deriving DecidableEq, Repr

/-- An open barrier (R141, R267): COUNT, the arrived contexts (logical slot and context), the child arrivals received by a
job barrier's node, the package's own arrival instant once sent, the release instant once fixed, and whether an own
arrival has been withdrawn after it had left (R270). -/
structure Bar where
  count : Nat := 0
  arr : List (Nat × Nat) := []
  kids : List (BitVec 16 × BarSlot) := []
  own : Option BarSlot := none
  up : Bool := false
  rel : Option (BitVec 64) := none
  released : Bool := false
  pulled : Bool := false
  deriving DecidableEq, Repr

/-- A command that has started and not committed (R154, R161): its header and payload, the tasks it waits for, and
the fields its completion record will carry (R159), what an abort or a timeout adds to its code, whether it started or
was aborted unstarted, the commands an ABORT waits for, and the phase a phase write sets (R195). -/
structure Cmd where
  hdr : BitVec 64 := 0
  pay : Payload := ⟨0, 0, 0, 0, 0, 0, 0⟩
  start : BitVec 64 := 0
  tasks : Nat := 0
  ended : Nat := 0
  notDone : Nat := 0
  cutN : Nat := 0
  done : Bool := false
  code : Code := .done
  cause : Nat := 0
  first : Bool := false
  unit : BitVec 32 := 0
  nstat : BitVec 32 := 0
  nfault : BitVec 32 := 0
  c1 : Nat := 0
  c2 : Nat := 0
  stop : Option Code := none
  began : Bool := true
  targets : List (BitVec 32) := []
  phase : Option Nat := none
  deriving DecidableEq, Repr

/-- A command queue (R151, R160) beside its registers: the SEQ it expects, the commands read and not started, those
started and not committed, oldest first, the records written and the commands ever read. -/
structure CQ where
  next : Option (BitVec 32) := none
  read : List (BitVec 64 × Payload) := []
  infl : List Cmd := []
  recs : Nat := 0
  total : Nat := 0
  deriving DecidableEq, Repr

/-- A launched task waiting for its context to become FREE (R156). -/
structure WTask where
  q : Nat := 0
  seq : BitVec 32 := 0
  l : Nat := 0
  k : Nat := 0
  prog : BitVec 64 := 0
  s0 : BitVec 32 := 0
  s1 : BitVec 32 := 0
  s2 : BitVec 32 := 0
  s3 : BitVec 32 := 0
  sys : Bool := false
  deriving DecidableEq, Repr

/-- The counters of an UPDATE's status record (R223). -/
structure UpdCnt where
  chunks : Nat := 0
  already : Nat := 0
  rows : Nat := 0
  zeroed : Nat := 0
  nonfin : Nat := 0
  poison : Nat := 0
  sat : Nat := 0
  ufl : Nat := 0
  lag : Nat := 0
  deriving DecidableEq, Repr

/-- A background root computation (R217): the entry's place in the list it began from, its PRE offset and unit, the Riffler
that computes it, the step it is installed for, the exponent, DAMP and NSIT, the matrix size, the entry's unit count, the
roots PL and PR in BF16, row-major, with their poison, and whether it has finished. -/
structure Root where
  ent : Nat := 0
  pre : Nat := 0
  unit : Nat := 0
  rif : Nat := 0
  install : Nat := 0
  root4 : Bool := false
  damp : BitVec 32 := 0
  iters : Nat := 0
  dim : Nat := 0
  nu : Nat := 0
  pl : List (BitVec 16 × Bool) := []
  pr : List (BitVec 16 × Bool) := []
  fin : Bool := false
  deriving DecidableEq, Repr

/-- A chunk in service (R219): its id, its serving Riffler, the weight writes it holds in Plinth's commit buffer
(package byte address and word), the other copy's writes when it is to be mirrored, its own copy's writes, whether its
chosen copy already held the step, whether it wrote anything in poison form, whether its unit's factor area started from
zero (R216), the roots its accumulation begins (R217), and what it counts. -/
structure Chunk where
  id : ChunkId := ⟨0, 0, 0⟩
  rif : Nat := 0
  buf : List (Nat × MWord) := []
  oth : Option (List (Nat × MWord)) := none
  own : List (Nat × MWord) := []
  already : Bool := false
  poison : Bool := false
  fresh : Bool := false
  root : Option Root := none
  cnt : UpdCnt := {}
  deriving DecidableEq, Repr

/-- A running UPDATE (R210, R218): its command, its list entries (eight words each) and named rule sets (sixteen words
each) as read, the values taken at its start (schedule values, seed, rounding, MIRROR), the clip factors once computed,
what its status record says, the code and cause it halts with, its chunks in service and those ended, the factor areas
that started from zero (entry, unit and Riffler), and its counters. -/
structure Upd where
  q : Nat := 0
  seq : BitVec 32 := 0
  step : BitVec 32 := 0
  pay : Payload := ⟨0, 0, 0, 0, 0, 0, 0⟩
  ents : List (List (BitVec 64)) := []
  rules : List (Nat × List (BitVec 32)) := []
  sched : List (BitVec 32) := []
  seed : BitVec 64 := 0
  sr : Bool := true
  mirror : Bool := false
  clip : Option (List (Nat × BitVec 32)) := none
  clipMin : BitVec 32 := 0x3F800000
  n2 : BitVec 32 := 0
  skipped : Bool := false
  migrated : Bool := false
  degraded : Bool := false
  rootWait : Bool := false
  poisoned : Bool := false
  halt : Option (Code × Nat) := none
  act : List Chunk := []
  fin : List ChunkId := []
  areas : List (Nat × Nat × Nat) := []
  cnt : UpdCnt := {}
  deriving DecidableEq, Repr

/-- An UPDATE that has started and waits behind the one that runs (R218): its command, with the schedule values and the
seed as they stood when it started (R50, R212). -/
structure UpdReq where
  q : Nat := 0
  seq : BitVec 32 := 0
  sched : List (BitVec 32) := []
  seed : BitVec 64 := 0
  deriving DecidableEq, Repr

/-- A remote transaction this package has outstanding (R233, R247): its tag, the port it went by (none while it has no
route), direction, global address, length in units and data, and who asked: a work number, with the logical slot,
transfer slot and unit of a stream. -/
structure RTx where
  tag : Nat := 0
  port : Option Nat := none
  wr : Bool := false
  addr : BitVec 64 := 0
  units : Nat := 0
  data : List MWord := []
  id : Nat := 0
  l : Nat := 0
  slot : Nat := 0
  unit : Nat := 0
  deriving DecidableEq, Repr

/-- A message for a Waipol port (R233): a barrier slot with its type, collective data going up or down, a withdraw, a
statistics or time slot, a request or response with its data, a hello, a key-exchange slot, link management, an idle flit by
its header. -/
inductive Msg where
  | bar (typ : Nat) (b : BarSlot)
  | up (c : CSlot)
  | down (c : CSlot)
  | withdraw (group inst : Nat)
  | stat (x : StatSlot)
  | time (typ : Nat) (t : TimeSlot)
  | adjust (a b : TimeSlot)
  | req (wr : Bool) (r : ReqSlot) (d : List MWord)
  | rsp (wr : Bool) (r : ReqSlot) (d : List MWord)
  | hello (h : Hello)
  | key (msg : BitVec 8)
  | management (gen : Nat)
  | idle (h : BitVec 64)
  deriving DecidableEq, Repr

/-- The link layer of a Waipol port beside its registers (R231 to R240, R365): sequence numbers, the unacknowledged
flits (SEQ, VC and, on its first flit, the message with the package it goes to), the messages waiting for credits or
room, whether flits are discarded after a NAK, credits by VC, the headers whose data is
still arriving (R232), replay and retrain counts with the instants of uncorrectable codewords (R236), hello state, whether the
ENC setting is in effect, the state of its key and the protected flits sent (R238), and whether its optical module is known to
be faulted (R228). -/
structure Port where
  txSeq : Nat := 1
  rxSeq : Nat := 0
  retry : List (Nat × Nat × Option (BitVec 16 × Msg)) := []
  outq : List (BitVec 16 × Msg) := []
  discard : Bool := false
  credits : List Nat := [96, 96, 64, 64, 8, 8, 8, 8]
  part : List (Nat × ReqSlot × List MWord) := []
  stuck : Nat := 0
  training : Bool := false
  fails : Nat := 0
  charged : List (Nat × BitVec 32) := []
  authAt : List (BitVec 64) := []
  lastHello : Option Hello := none
  hseq : Nat := 0
  peerSer : BitVec 64 := 0
  entered : BitVec 64 := 0
  swap : Option Nat := none
  afresh : Bool := false
  peerGen : Nat := 0
  enc : Bool := false
  keyed : Bool := false
  keyId : BitVec 32 := 0
  oldKey : Option (BitVec 32) := none
  iv : BitVec 64 := 0
  ueAt : List (BitVec 64) := []
  modFault : Bool := false
  heard : Bool := false
  clrLanes : Bool := false
  deriving DecidableEq, Repr

/-- A time exchange in progress (R264). -/
structure TimeEx where
  seq : Nat := 0
  t1 : Option (BitVec 64) := none
  t2 : Option (BitVec 64) := none
  t3 : Option (BitVec 64) := none
  corr : Int := 0
  deriving DecidableEq, Repr

/-- A fault record (R318), by its fields. -/
structure FRec where
  time : BitVec 64 := 0
  rseq : BitVec 32 := 0
  cls : BitVec 8 := 0
  disp : BitVec 2 := 0
  masked : Bool := false
  poison : Bool := false
  replay : Bool := false
  lost : Bool := false
  count : BitVec 16 := 0
  unit : BitVec 32 := 0
  temp : BitVec 16 := 0
  volt : BitVec 16 := 0
  task : BitVec 64 := 0
  cseq : BitVec 32 := 0
  sig : BitVec 32 := 0
  det0 : BitVec 64 := 0
  det1 : BitVec 64 := 0
  prev : BitVec 32 := 0
  deriving DecidableEq, Repr

/-- An entry of the per-unit history (R322). `lastRec`, `lastSvc`, `times` and `owed` hold what R318 and R321 need beside
the 32 bytes: the class (DEDUCED, log entry 106), the RSEQ and service second of the last record, the occurrences of the last
72 h, and those held back. -/
structure Hist where
  cls : BitVec 8 := 0
  unit : BitVec 32 := 0
  sig : BitVec 32 := 0
  t1 : BitVec 32 := 0
  t2 : BitVec 32 := 0
  t3 : BitVec 32 := 0
  count : BitVec 16 := 0
  disp : BitVec 8 := 0
  flags : BitVec 8 := 0
  first : BitVec 32 := 0
  lastRec : BitVec 32 := 0xFFFFFFFF
  lastSvc : Option (BitVec 32) := none
  times : List (BitVec 32) := []
  owed : Nat := 0
  deriving DecidableEq, Repr

/-- A capture slot in Plinth SRAM (R314) with its replay (R324): the engine, the record that owns it, the captured
pair, and whether the replay has been started. -/
structure CapSlot where
  unit : BitVec 32 := 0
  sig : BitVec 32 := 0
  cls : BitVec 8 := 0
  cap : Capture := {}
  running : Bool := false
  ref : Nat := 0
  deriving DecidableEq, Repr

/-- What a cluster's rotation or hand-over is doing (R332 to R335): the engine leaving, the logical slot, and the
phase. -/
inductive RotPhase where
  | idle | grace | stopped | copied | testing
  deriving DecidableEq, Repr

/-- The rotation and hand-over of a cluster: the engine leaving `x`, the spare `s` (keys) and the logical slot. `fault`
marks a hand-over for a fault retirement or a replay, `test` a rotation; `owed` rotations fell due in a suspension;
`drainOver` says that the grace window has ended with a context still draining; `tests` counts the tests done. -/
structure Rot where
  phase : RotPhase := .idle
  x : Nat := 0
  s : Nat := 0
  slot : Nat := 0
  fault : Bool := false
  test : Bool := false
  owed : Nat := 0
  drainOver : Bool := false
  tests : Nat := 0
  deriving DecidableEq, Repr

/-- A capsule of the library (R337): its size in bytes, its image and its enable. -/
structure Capsule where
  size : Nat := 0
  enabled : Bool := false
  bytes : List (BitVec 8) := []
  deriving DecidableEq, Repr

/-- A crash dump (R347): its number, the trigger's cause and timebase, the status registers as listed with the contexts
and waiters that others of them show, the last fault records, the capture slots, the command-queue states and the edges of
the hang graph. -/
structure Dump where
  n : Nat := 0
  cause : Nat := 0
  time : BitVec 64 := 0
  regs : List (Nat × BitVec 32) := []
  recs : List (Nat × FRec) := []
  caps : List (Nat × CapSlot) := []
  queues : List (Nat × CQ) := []
  ctxs : List (Nat × Ctx) := []
  semq : List (Nat × List Waiter) := []
  hang : List (Nat × Nat) := []
  deriving DecidableEq, Repr

/-- A firmware slot in Inscription (R356, R366): whether its image has been verified, with the image's SVN, digest and
signing key. -/
structure FwSlot where
  valid : Bool := false
  svn : Nat := 0
  digest : BitVec 384 := 0
  key : Nat := 0
  deriving DecidableEq, Repr

/-- A line of a die's SRAM cache (R173): its die, granule number, valid sectors and dirtiness. Lines stand most
recently used first (DESIGN CHOICE, log entry 36). -/
structure CLine where
  die : Nat := 0
  gran : Nat := 0
  secs : BitVec 64 := 0
  dirty : Bool := false
  deriving DecidableEq, Repr

/-- A Loupe shadow slot of a cluster (R118): the logical slot, tile and half it belongs to. -/
structure Shadow where
  clu : Nat := 0
  slot : Nat := 0
  l : Nat := 0
  tile : Nat := 0
  half : Bool := false
  deriving DecidableEq, Repr

/-- A cluster's Loupe (R118, R119): the chain armed (engine, accumulator, tensor id), the request waiting and those dropped;
once the chain has begun with an overwrite, the accumulator elements recomputed in the 16-bit class and whether an operand had
no shadow; the finished sample, its tensor id with the narrow and the recomputed result of each element. -/
structure Loupe where
  armed : Option (Nat × Nat × Nat) := none
  queued : Option (Nat × Nat × Nat) := none
  dropped : Nat := 0
  chain : Option (List (Nat × BitVec 128)) := none
  broken : Bool := false
  sample : Option (Nat × List (BitVec 16 × BitVec 16)) := none
  deriving DecidableEq, Repr

/-- The pace, power and thermal loops beside their registers (R284, R288, R293 to R307): the cap ceiling's two steps and
the slot of its frame, and whether it is slower than the other ceilings; the slots per cluster the Diaphragm parks, the
parkings of L3 and the thermal loop, and the instants of admission of released slots; the sag levels in force, L4, the
rails and pins; the step in force before a PACE_N pulse and the droop ceilings of PACE_N and L2; channel throttles of the
stacks and of memory, the ports on two lanes, the regulators' gains in units of 2^-16; the step the dies go to; the
estimates of the last 1 ms in mW; the reference windows judged; and whether the start-up in progress writes memory with
zeros and has applied its calibration (R352, R353); PERST# (R355), and whether the facet inputs are judged (R386). -/
structure Power where
  capLo : Nat := 0
  capHi : Nat := 0
  capBinds : Bool := false
  frame : Nat := 0
  parkDia : Nat := 0
  parkSag : Bool := false
  parkTherm : Bool := false
  admits : List (Nat × BitVec 64) := []
  sag : BitVec 3 := 0
  l4 : Bool := false
  pwrfailLow : Bool := false
  railsUp : Bool := false
  auxUp : Bool := false
  paceLow : Bool := false
  paceFrom : Nat := 0
  droopP : Nat := 0
  droopL2 : Nat := 0
  hbmThr : List Nat := List.replicate 16 64
  memThr : Nat := 64
  linkLow : BitVec 12 := 0
  gains : List (Nat × Int) := []
  zeroing : Bool := false
  cold : Bool := false
  calib : Bool := false
  perstLow : Bool := true
  judged : Bool := false
  target : Nat := 4
  est : List (Nat × Nat × Nat) := []
  refWin : List Int := []
  deriving DecidableEq, Repr

/-- The timebase beside its registers (R261 to R266): its value, whether it runs, and the phase slew, rate and fraction
that an ADJUST left, with the ADJUST waiting and the leader's exchanges, and the ns until an armed value is loaded (R262).
-/
structure Time where
  tb : BitVec 64 := 0
  run : Bool := false
  slew : Int := 0
  rate : Int := 0
  frac : Int := 0
  ticks : Nat := 0
  adj : Option (BitVec 64 × Int × Int) := none
  ex : TimeEx := {}
  offs : List Int := []
  load : Option Nat := none
  deriving DecidableEq, Repr

/-- Burin's state (R360 to R369): lifecycle, the state a grant came from, the measurements, the fused minima and
revocations, the operator keys, the firmware slots, the staged and current overlays, the boot configuration record,
and the state of a grant, a trial and a recovery. -/
structure Sec where
  life : Nat := 0
  former : Nat := 0
  granting : Option Nat := none
  meas : List (BitVec 384) := List.replicate 8 0
  svnCap : Nat := 0
  revoked : BitVec 8 := 0
  opKeys : List (BitVec 384) := []
  udsGone : Bool := false
  udsBlocked : Bool := false
  attKey : Bool := false
  isl : List FwSlot := [{ valid := true, digest := Config.factoryImage 0 }, {}]
  arm : List FwSlot := [{ valid := true, digest := Config.factoryImage 1 }, {}]
  trialArm : Option Nat := none
  trialIsl : Option Nat := none
  staged : Option (List (BitVec 8)) := none
  current : Option (List (BitVec 8)) := none
  bootcfg : Option (List (BitVec 8)) := none
  draws : Nat := 0
  relDies : BitVec 4 := 0
  relClu : List (BitVec 24) := [0, 0, 0, 0]
  recov : List (BitVec 8) := []
  recovering : Bool := false
  report : Bool := false
  mgmtAddr : BitVec 64 := 0
  mgmtRef : Bool := false
  mgmtOut : BitVec 32 := 0
  deriving DecidableEq, Repr

/-- Why the machine stops with a fault. -/
inductive Fault where
  /-- Raised by TEST_ACCESS_PORT_ACCESS for internal scan: R370 permits it at FULL and no rule says what the scan
  chains hold or what a shift leaves in them, so the state afterwards is unknown. Safe. -/
  | scanUnspecified
  deriving DecidableEq, Repr

/-- Why a command is refused. -/
inductive Refusal where
  /-- No meaning has been given to the command yet. Raised only by the refused arms of exec. Safe. -/
  | notModelled (mnemonic : String)
  deriving DecidableEq, Repr

/-- The state of the package. Stores keyed by unit use these keys: a physical engine `(die * 24 + cluster) * 17 +
engine`; a context `4 * engine + context`; a logical slot `(die * 24 + cluster) * 16 + slot`; a transfer slot `6 *
logical slot + n`; a tile `64 * engine + t`; an accumulator element `(8 * engine + a) * 1024 + 32 r + c`; a semaphore
`256 * cluster + k`. -/
structure State where
  /-- The commands waiting, first in, first out. -/
  pending : List Instr := []
  /-- The register file by offset in the register window (R6, R26). -/
  regs : List (Nat × BitVec 32) := []
  /-- HBM, slow tier and stacked SRAM by package address (R24). -/
  mem : List Host.Cell := []
  /-- The SECDED syndrome each stored word would read with (R185, R186), by package address / 4; 0 is good. -/
  ecc : List (Nat × BitVec 7) := []
  /-- The 64-byte bursts an HBM stack's on-die ECC would report as uncorrectable (R185), by package address / 64. -/
  bursts : List Nat := []
  /-- 0, or the draw at which fast-tier contents were last not preserved (R169): an unlisted byte then reads a free
  value. -/
  hbmEpoch : Nat := 0
  /-- 0, or the draw at which stacked-SRAM contents were last not kept (R343): an unlisted byte then reads a free value,
  but in the GiB written with zeros since (R175). -/
  sramEpoch : Nat := 0
  sramClean : BitVec 48 := 0
  /-- The cluster staging buffers (R177), 4 MiB each, by cluster, and their syndromes by word. -/
  stg : List Host.Cell := []
  stgEcc : List (Nat × BitVec 7) := []
  /-- The SRAM cache lines of the four dies (R172, R173). -/
  cache : List CLine := []
  /-- Corrected words whose write-back is scheduled (R188): package word addresses; `true` for exact poison (R186). -/
  wback : List (Nat × Bool) := []
  engines : List (Nat × Engine) := []
  ctxs : List (Nat × Ctx) := []
  /-- Tile register data, side-bands and tags (R52, R55, R88), and the syndromes of their words (R185), 528 a tile: 512 of
  data, then 16 of side-band. -/
  tiles : List Host.Cell := []
  sides : List Host.Cell := []
  tileEcc : List (Nat × BitVec 7) := []
  tags : List (Nat × Tag) := []
  /-- Accumulator elements and tile headers as their saved images (R61 to R63). -/
  accs : List (Nat × BitVec 128) := []
  heads : List (Nat × BitVec 128) := []
  xfers : List (Nat × Xfer) := []
  batches : List (Nat × List Batch) := []
  colls : List (Nat × Coll) := []
  /-- The next work number: every issued instruction, transfer, batch and collective takes one. -/
  nextId : Nat := 1
  semq : List (Nat × List Waiter) := []
  /-- Who signalled a semaphore last: 1 a collective completion, 2 a command of a host queue, 0 another (R275). -/
  semBy : List (Nat × Nat) := []
  bars : List (BarId × Bar) := []
  cqs : List (Nat × CQ) := []
  wtasks : List WTask := []
  /-- The STEP or phase write that has reached the head of its queue and holds every other command back (R154, R195). -/
  fence : Option (Nat × BitVec 32) := none
  /-- Disables that are draining: queue, SEQ, KIND, DIE and INDEX; and the functions disabled. -/
  drains : List (Nat × BitVec 32 × Nat × Nat × Nat) := []
  disabled : List (Nat × Nat × Nat) := []
  /-- The tensor scale table (R45, R46) as words, 16 an entry, and their syndromes (R45, R185). -/
  sct : List (Nat × BitVec 32) := []
  sctEcc : List (Nat × BitVec 7) := []
  /-- The schedule slots (R158): mode and breakpoints (STEP, VALUE). -/
  sched : List (Nat × Bool × List (BitVec 32 × BitVec 32)) := []
  upd : Option Upd := none
  updq : List UpdReq := []
  roots : List Root := []
  /-- Chunks released whose serving Riffler has still to write its own copy (R219 step 6). -/
  owns : List Chunk := []
  /-- The Rifflers out of service, in the order they left, with whether a fault took them (R220, R221). -/
  rifOut : List (Nat × Bool) := []
  ports : List (Nat × Port) := []
  rtx : List RTx := []
  nextTag : Nat := 0
  /-- The expected-neighbour table (R241), 4 words an entry; the group table (R251), 8 words an entry, and the group
  table's syndromes (R185). -/
  nbr : List (Nat × BitVec 32) := []
  grp : List (Nat × BitVec 32) := []
  grpEcc : List (Nat × BitVec 7) := []
  insts : List (Nat × Inst) := []
  /-- How many collectives each member has issued on each group (R250), by group * 2^16 + member. -/
  issued : List (Nat × Nat) := []
  /-- FOLDS state of statistics records: the internal step of the record at an address (R257). -/
  folds : List (Nat × BitVec 32) := []
  time : Time := {}
  idle : List (Nat × BitVec 64) := []
  power : Power := {}
  /-- What each sensor read last, in 0.25 °C (R301, R318), by its code; sensors excluded from the thermal loop, and sensors
  retired (R316, R339). -/
  temps : List (Nat × BitVec 16) := []
  excl : List Nat := []
  gone : List Nat := []
  ring : List (Nat × FRec) := []
  hist : List Hist := []
  /-- Corrections by page and syndrome (R317): word address, syndrome, service times of the last two. -/
  ceHist : List (Nat × List (BitVec 32)) := []
  caps : List (Nat × CapSlot) := []
  crash : List CapSlot := []
  /-- ARITH faults of units other than arrays filed PENDING until their work has been served again: the work, the unit code
  and the signature (R315, R323). -/
  arithPend : List (ArithUnit × BitVec 32 × BitVec 32) := []
  /-- The Loupe table (R326), 16 words an entry, and the advisory ring (R327), 4 words an entry, with their syndromes
  (R185). -/
  lpTab : List (Nat × BitVec 32) := []
  advRing : List (Nat × BitVec 32) := []
  lpEcc : List (Nat × BitVec 7) := []
  advEcc : List (Nat × BitVec 7) := []
  loupes : List (Nat × Loupe) := []
  shadows : List Shadow := []
  /-- Retirement requests recorded in Inscription (R150, R323). -/
  retire : List (BitVec 32) := []
  rots : List (Nat × Rot) := []
  /-- Retired-page tables (R170, R191) as MEM_H_RETPG_DATA words, 512 a unit; retired granules of a die's SRAM. -/
  pages : List (Nat × BitVec 32) := []
  granSpare : List (Nat × Nat) := []
  granDead : List (Nat × Nat) := []
  /-- Failed die-to-die modules of an edge and modules retraining (R16, R339). -/
  modBad : List (Nat × BitVec 34) := []
  modWait : List Nat := []
  /-- The wait-for cycles of the last hang scan: the contexts of each (4 times logical slot plus context), with how many
  scans in a row have found it (R341, R342). -/
  cycles : List (List Nat × Nat) := []
  /-- Service times of resets by unit code (R345), and of failed engine resets by cluster (R344). -/
  resets : List (Nat × List (BitVec 32)) := []
  resetFail : List (Nat × List (BitVec 32)) := []
  chReset : List (Nat × Nat) := []
  clReset : List Nat := []
  dieReset : List Nat := []
  dumps : List (Nat × Dump) := []
  /-- The daily effective P4 voltages of a die, latest first, at most 90 (R349). -/
  vhist : List (Nat × List Nat) := []
  capsules : List (Nat × Capsule) := []
  sec : Sec := {}
  /-- Host side: MSI-X vectors raised (R393), the mirror ring's records (R321), the last completion sent. -/
  msix : BitVec 32 := 0
  mirror : List (Nat × FRec) := []
  cpl : List MWord := []
  cplPoison : Bool := false
  /-- What the test access port read last (R370). -/
  tapOut : MWord := ⟨0, false⟩
  /-- The bytes of the host port's BAR4, the MSI-X table and pending bits (R393). -/
  bar4 : List Host.Cell := []
  /-- Interrupts to Armature by queue (R152). -/
  armIrq : BitVec 16 := 0
  /-- The model's own: the messages the ports have sent, oldest first; and those that wait for a route. -/
  sent : List (Nat × Msg) := []
  noRoute : List (BitVec 16 × Msg) := []
  /-- The model's own: draws taken of the free values (Config.freeValue). -/
  free : Nat := 0
  deriving DecidableEq, Repr

/-- The package before auxiliary power good: every register at its reset value, every store empty (DESIGN CHOICE, log
entry 4). -/
def State.reset : State := {}

end Sys2Proof.Machine
end

