-- ==== Sys2Proof/Machine/Ops.lean ====
section
/-! DEFINITION. The named operations over the state: register fields, unit keys, the timebase, memory with its SECDED
syndromes and its address map, address errors, fault records and their classification, interrupts and FAULT_N. -/
namespace Sys2Proof.Machine

/-! ## Register fields -/

/-- The number of bits of a field. -/
def Fld.width (f : Fld) : Nat := f.hi + 1 - f.lo

/-- The bits of a field within its register. -/
def Fld.mask (f : Fld) : BitVec 32 := BitVec.ofNat 32 (2 ^ f.width - 1) <<< f.lo

/-- The register at offset `k` of the register window (R6). -/
def State.reg (s : State) (k : Nat) : BitVec 32 := Sparse.get Reg.reset s.regs k

/-- Writes a whole register. -/
def State.setReg (s : State) (k : Nat) (v : BitVec 32) : State :=
  { s with regs := Sparse.set Reg.reset s.regs k v }

/-- The value of a field. -/
def State.fget (s : State) (f : Fld) : Nat := (s.reg f.key >>> f.lo).toNat % 2 ^ f.width

/-- Writes a field, leaving the register's other bits. A value too wide is taken modulo the field's width. -/
def State.fset (s : State) (f : Fld) (v : Nat) : State :=
  s.setReg f.key ((s.reg f.key &&& ~~~f.mask) ||| ((BitVec.ofNat 32 v <<< f.lo) &&& f.mask))

/-- Adds to a counting field that saturates at its largest value. -/
def State.fsat (s : State) (f : Fld) (n : Nat) : State := s.fset f (min (2 ^ f.width - 1) (s.fget f + n))

/-- Adds to a counting field that wraps modulo its width. -/
def State.fwrap (s : State) (f : Fld) (n : Nat) : State := s.fset f ((s.fget f + n) % 2 ^ f.width)

/-- Whether a one-bit field is 1. -/
def State.flag (s : State) (f : Fld) : Bool := s.fget f == 1

/-- Writes a one-bit field. -/
def State.setFlag (s : State) (f : Fld) (b : Bool) : State := s.fset f (if b then 1 else 0)

/-- The value of two registers as one 64-bit number, low word first. -/
def State.reg64 (s : State) (lo hi : Nat) : BitVec 64 := s.reg hi ++ s.reg lo

/-- Bits [hi:lo] of a 64-bit word, as a number. -/
def bits64 (w : BitVec 64) (hi lo : Nat) : Nat := w.toNat / 2 ^ lo % 2 ^ (hi + 1 - lo)

/-- A number read as a signed field of `n` bits. -/
def signed (n v : Nat) : Int := if v < 2 ^ (n - 1) then (v : Int) else (v : Int) - 2 ^ n

/-- The two's complement code of an integer in `n` bits. -/
def unsigned (n : Nat) (v : Int) : Nat := (v % (2 ^ n : Int)).toNat

/-! ## Keys of units -/

/-- The cluster's index among the 96 (R26: STR_ block 0x100 + 24 × d + c). -/
def cluKey (d c : Nat) : Nat := d * 24 + c

end Sys2Proof.Machine

namespace Sys2Proof

def Clu.key (u : Clu) : Nat := Machine.cluKey u.die u.cl

/-- The key of a physical engine. -/
def Pos.key (e : Pos) : Nat := Machine.cluKey e.die e.cl * 17 + e.eng

/-- The key of a logical slot. -/
def LPos.key (l : LPos) : Nat := Machine.cluKey l.die l.cl * 16 + l.slot

/-- The cluster an engine lies in. -/
def Pos.clu (e : Pos) : Nat := Machine.cluKey e.die e.cl

/-- The key of a task context. -/
def Cx.key (c : Cx) : Nat := 4 * c.pos.key + c.ctx

end Sys2Proof

namespace Sys2Proof.Machine

/-- The unit code of an engine (R319 type 0), from its key. -/
def engineUnit (e : Nat) : BitVec 32 :=
  BitVec.ofNat 32 (e / 408 * 0x10000 + e / 17 % 24 * 0x100 + e % 17)

/-- The unit code of a cluster (R319 type 1). -/
def cluUnit (u : Nat) : BitVec 32 := BitVec.ofNat 32 (0x10000000 + u / 24 * 0x10000 + u % 24 * 0x100)

/-- The unit code of a Plinth block (R319 type 11). -/
def blockUnit (i : Nat) : BitVec 32 := BitVec.ofNat 32 (0xB0000000 + i)

/-! ## Per-unit stores -/

def State.eng (s : State) (e : Nat) : Engine := Sparse.get (fun _ => {}) s.engines e
def State.setEng (s : State) (e : Nat) (x : Engine) : State :=
  { s with engines := Sparse.set (fun _ => {}) s.engines e x }
def State.modEng (s : State) (e : Nat) (f : Engine → Engine) : State := s.setEng e (f (s.eng e))

def State.ctx (s : State) (c : Nat) : Ctx := Sparse.get (fun _ => {}) s.ctxs c
def State.setCtx (s : State) (c : Nat) (x : Ctx) : State :=
  { s with ctxs := Sparse.set (fun _ => {}) s.ctxs c x }
def State.modCtx (s : State) (c : Nat) (f : Ctx → Ctx) : State := s.setCtx c (f (s.ctx c))

def State.tag (s : State) (k : Nat) : Tag := Sparse.get (fun _ => {}) s.tags k
def State.setTag (s : State) (k : Nat) (x : Tag) : State := { s with tags := Sparse.set (fun _ => {}) s.tags k x }

def State.tileB (s : State) (k : Nat) : BitVec 8 := Sparse.get (fun _ => 0) s.tiles k
def State.setTileB (s : State) (k : Nat) (v : BitVec 8) : State :=
  { s with tiles := Sparse.set (fun _ => 0) s.tiles k v }
def State.sideB (s : State) (k : Nat) : BitVec 8 := Sparse.get (fun _ => 0) s.sides k
def State.setSideB (s : State) (k : Nat) (v : BitVec 8) : State :=
  { s with sides := Sparse.set (fun _ => 0) s.sides k v }

def State.acc (s : State) (k : Nat) : BitVec 128 := Sparse.get (fun _ => 0) s.accs k
def State.setAcc (s : State) (k : Nat) (v : BitVec 128) : State := { s with accs := Sparse.set (fun _ => 0) s.accs k v }
def State.head (s : State) (k : Nat) : BitVec 128 := Sparse.get (fun _ => 0) s.heads k
def State.setHead (s : State) (k : Nat) (v : BitVec 128) : State :=
  { s with heads := Sparse.set (fun _ => 0) s.heads k v }

def State.xfer (s : State) (k : Nat) : Xfer := Sparse.get (fun _ => {}) s.xfers k
def State.setXfer (s : State) (k : Nat) (x : Xfer) : State :=
  { s with xfers := Sparse.set (fun _ => {}) s.xfers k x }

def State.batch (s : State) (l : Nat) : List Batch := Sparse.get (fun _ => []) s.batches l
def State.setBatch (s : State) (l : Nat) (x : List Batch) : State :=
  { s with batches := Sparse.set (fun _ => []) s.batches l x }

def State.coll (s : State) (k : Nat) : Coll := Sparse.get (fun _ => {}) s.colls k
def State.setColl (s : State) (k : Nat) (x : Coll) : State :=
  { s with colls := Sparse.set (fun _ => {}) s.colls k x }

def State.waiters (s : State) (k : Nat) : List Waiter := Sparse.get (fun _ => []) s.semq k
def State.setWaiters (s : State) (k : Nat) (x : List Waiter) : State :=
  { s with semq := Sparse.set (fun _ => []) s.semq k x }

def State.cq (s : State) (q : Nat) : CQ := Sparse.get (fun _ => {}) s.cqs q
def State.setCq (s : State) (q : Nat) (x : CQ) : State := { s with cqs := Sparse.set (fun _ => {}) s.cqs q x }

def State.port (s : State) (p : Nat) : Port := Sparse.get (fun _ => {}) s.ports p
def State.setPort (s : State) (p : Nat) (x : Port) : State := { s with ports := Sparse.set (fun _ => {}) s.ports p x }
def State.modPort (s : State) (p : Nat) (f : Port → Port) : State := s.setPort p (f (s.port p))

def State.rot (s : State) (u : Nat) : Rot := Sparse.get (fun _ => {}) s.rots u
def State.setRot (s : State) (u : Nat) (x : Rot) : State := { s with rots := Sparse.set (fun _ => {}) s.rots u x }

def State.loupe (s : State) (u : Nat) : Loupe := Sparse.get (fun _ => {}) s.loupes u
def State.setLoupe (s : State) (u : Nat) (x : Loupe) : State :=
  { s with loupes := Sparse.set (fun _ => {}) s.loupes u x }

/-- Whether Loupe samples: L1 and every deeper level suspend it (R304). -/
def State.sampling (s : State) : Bool := s.power.sag == 0 && !s.power.l4

/-- Once Loupe is idle it arms the request that waits (R119); while sampling is suspended it arms none (R304). -/
def Loupe.armNext (l : Loupe) (on : Bool) : Loupe :=
  if l.armed = none ∧ on then { l with armed := l.queued, queued := none } else l

/-- The value under a key of an association list held in the order its entries arose. -/
def lookup {α β : Type} [DecidableEq α] : List (α × β) → α → Option β
  | [], _ => none
  | (j, v) :: m, k => if j = k then some v else lookup m k

/-- Replaces or appends the value under a key. -/
def upsert {α β : Type} [DecidableEq α] : List (α × β) → α → β → List (α × β)
  | [], k, v => [(k, v)]
  | (j, w) :: m, k, v => if j = k then (k, v) :: m else (j, w) :: upsert m k v

/-- Drops the value under a key. -/
def without {α β : Type} [DecidableEq α] (m : List (α × β)) (k : α) : List (α × β) := m.filter (fun e => e.1 ≠ k)

/-! ## The slot map (R330, R351) -/

/-- The register field that says whether logical slot `l` (a key) is bound. -/
def boundFld (l : Nat) : Fld := ⟨Reg.STR_SLOTMAP (l / 16) (l % 16 / 4), 8 * (l % 4) + 7, 8 * (l % 4) + 7⟩

/-- The register field that names the engine of logical slot `l` (a key). -/
def engineFld (l : Nat) : Fld := ⟨Reg.STR_SLOTMAP (l / 16) (l % 16 / 4), 8 * (l % 4) + 4, 8 * (l % 4)⟩

/-- The physical engine bound to a logical slot, by keys (R53, R330). -/
def State.engineOf (s : State) (l : Nat) : Option Nat :=
  if s.flag (boundFld l) then some (l / 16 * 17 + s.fget (engineFld l)) else none

/-- The logical slot a physical engine is bound to, by keys. -/
def State.slotOf (s : State) (e : Nat) : Option Nat :=
  ((List.range 16).map (fun i => e / 17 * 16 + i)).find? fun l => s.engineOf l == some e

/-! ## Free values -/

/-- Draws a value the manual leaves open: it is `Config.freeValue` at the state's own counter (DESIGN CHOICE, log entry 7). -/
def State.draw (s : State) : BitVec 64 × State := (Config.freeValue s.free, { s with free := s.free + 1 })

/-! ## Time -/

/-- The timebase in ns (R261). -/
def State.now (s : State) : BitVec 64 := s.time.tb

/-- One nanosecond of the timebase: it advances with the root, by the rate left by the last ADJUST, and slews a phase
correction at no more than 500 ppm, one nanosecond in 2,000 (R261, R265). It never runs backwards. -/
def Time.tick (t : Time) : Time :=
  if t.run then
    let n := t.ticks + 1
    let f := t.frac + t.rate
    let whole := f / 2 ^ 40
    let slewStep : Int := if n % 2000 = 0 then (if t.slew > 0 then 1 else if t.slew < 0 then -1 else 0) else 0
    let adv : Int := 1 + whole + slewStep
    { t with tb := t.tb + BitVec.ofNat 64 (max adv 0).toNat, ticks := n, frac := f - whole * 2 ^ 40,
             slew := t.slew - slewStep }
  else t

/-- The armed value at its SYNC edge (R262): loaded when it is not below the timebase, and the package is ALIGNED; else
ARM_ERR sets. -/
def State.loadArm (s : State) : State :=
  let v := s.reg64 Reg.CLV_TB_ARM_LO Reg.CLV_TB_ARM_HI
  let s := { (s.setFlag F.CLV_TB_CFG_ARM false) with time := { s.time with load := none } }
  if v.toNat < s.now.toNat then s.setFlag F.CLV_TB_STATUS_ARM_ERR true
  else ({ s with time := { s.time with tb := v } } : State).setFlag F.CLV_TB_STATUS_ALIGNED true

/-- What an empty queue does: one nanosecond passes (DESIGN CHOICE, log entry 2), the last of a SYNC delay loading the armed
value (R262). -/
def tick (s : State) : State :=
  let t := { s with time := s.time.tick }
  match t.time.load with
  | none => t
  | some n => if n ≤ 1 then t.loadArm else { t with time := { t.time with load := some (n - 1) } }

/-! ## Interrupts and FAULT_N -/

/-- Raises an MSI-X vector towards the host (R393). -/
def State.irq (s : State) (v : Nat) : State := { s with msix := s.msix ||| (1 <<< v) }

/-- Asks for a FAULT_N pulse of a code (R388): sent at once when the line is idle and not held, else pending. -/
def State.faultN (s : State) (code : Nat) : State :=
  if s.fget F.PLN_FAULTN_ACTIVE = 0 ∧ s.flag F.PLN_FAULTN_HELD = false then
    (s.fset F.PLN_FAULTN_ACTIVE code).fsat F.PLN_FAULTN_PULSES 1
  else s.fset F.PLN_FAULTN_PENDING (s.fget F.PLN_FAULTN_PENDING ||| 2 ^ (code - 1))

/-- Service time in seconds (R322). -/
def State.svc (s : State) : BitVec 32 := s.reg Reg.FLT_SVC_TIME

/-! ## CRC-32 (R231) -/

/-- Eight reflected steps of the polynomial 0x04C1_1DB7 on one byte. -/
def crcBits : Nat → BitVec 32 → BitVec 32
  | 0, c => c
  | n + 1, c => crcBits n (if c.getLsbD 0 then (c >>> 1) ^^^ 0xEDB88320 else c >>> 1)

/-- CRC-32 over bytes in increasing address order: initial value all ones, result inverted (R231). -/
def crc32 (bs : List (BitVec 8)) : BitVec 32 :=
  ~~~(bs.foldl (fun c b => crcBits 8 (c ^^^ b.zeroExtend 32)) 0xFFFFFFFF)

/-! ## SECDED (R185, R186) -/

/-- Whether a 7-bit value has exactly three bits set. -/
def threeBits (n : Nat) : Bool := ((List.range 7).filter (fun i => n.testBit i)).length == 3

/-- The columns of data bits d0 to d31 (R185): the 7-bit values with exactly three bits set, in increasing order. -/
def dataCols : List Nat := ((List.range 128).filter threeBits).take 32

/-- What a syndrome says of the word read (R185, R186). -/
inductive Syn where
  | good
  | data (bit : Nat)
  | check
  | poison
  | bad
  deriving DecidableEq, Repr

/-- Decodes a syndrome. -/
def synOf (y : BitVec 7) : Syn :=
  if y = 0 then .good
  else if y = 0x7F then .poison
  else match dataCols.findIdx? (· == y.toNat) with
    | some i => .data i
    | none => if [1, 2, 4, 8, 16, 32, 64].contains y.toNat then .check else .bad

/-- The word a read delivers from stored data bits and a syndrome (R185, R186). -/
def deliver (v : BitVec 32) (y : BitVec 7) : MWord :=
  match synOf y with
  | .good | .check => ⟨v, false⟩
  | .data i => ⟨v ^^^ (1 <<< i), false⟩
  | .poison | .bad => ⟨v, true⟩

/-! ## The address map (R24 to R26, R167 to R171, R176) -/

/-- What a package address names. -/
inductive Loc where
  | hbm (stack ch page : Nat)
  | slow (dev ch page : Nat)
  | scratch (die off : Nat)
  | regs (off : Nat)
  | err (kind : Nat)
  deriving DecidableEq, Repr

/-- The stack, channel and page of a fast-tier address under an interleave policy (R168). -/
def hbmLoc (policy x : Nat) : Nat × Nat × Nat :=
  if policy = 0 then
    let g := x / 0x1000
    let k := (g ^^^ (g / 2 ^ 9) ^^^ (g / 2 ^ 18) ^^^ (g / 2 ^ 27)) % 0x200
    (k / 32, k % 32, g / 2 ^ 9)
  else if policy = 1 then
    let d := x / 0x3000000000
    let g := x % 0x3000000000 / 0x1000
    let k := (g ^^^ (g / 2 ^ 7) ^^^ (g / 2 ^ 14) ^^^ (g / 2 ^ 21)) % 0x80
    (4 * d + k / 32, k % 32, g / 2 ^ 7)
  else
    let h := x / 0xC00000000
    let g := x % 0xC00000000 / 0x1000
    let k := (g ^^^ (g / 2 ^ 5) ^^^ (g / 2 ^ 10) ^^^ (g / 2 ^ 15) ^^^ (g / 2 ^ 20)) % 0x20
    (h, k, g / 2 ^ 5)

/-- The device, channel and device page of a slow-tier address (R176). -/
def slowLoc (x : Nat) : Nat × Nat × Nat :=
  let r := x - 0x10000000000
  let n := r / 0x4000000000
  let o := r % 0x4000000000
  let g := o / 0x1000
  (2 * n + (g ^^^ (g / 2 ^ 13)) % 2, o / 256 % 8, g / 2)

/-- Whether a die is quarantined (TST_ESC.DIEQ, R350). -/
def State.dieQ (s : State) (d : Nat) : Bool := (s.fget F.TST_ESC_DIEQ).testBit d

/-- What a package address names at this moment: a location, the register window, or an address error of a kind
(R24, R25, R27, R171). In a quarantined die's slot every offset is QUAR_DIE, the unpopulated ones too, for which the spec
does not rank it against UNPOP_SRAM (DESIGN CHOICE, log entry 109). -/
def State.locate (s : State) (x : Nat) : Loc :=
  if x < 0xC000000000 then
    let (st, ch, pg) := hbmLoc (s.fget F.MEM_CFG_ILV_ACT) x
    if s.dieQ (st / 4) then .err 2 else .hbm st ch pg
  else if x < 0x10000000000 then .err 0
  else if x < 0x20000000000 then
    let (dv, ch, pg) := slowLoc x
    .slow dv ch pg
  else if x < 0x21000000000 then
    let d := (x - 0x20000000000) / 0x400000000
    let o := (x - 0x20000000000) % 0x400000000
    if s.dieQ d then .err 2
    else if o < s.fget (F.MEM_SRAM_STATUS_ACT d) * 0x40000000 then .scratch d o
    else .err 1
  else if x < 0x30000000000 then .err 0
  else if x < 0x30100000000 then .regs (x - 0x30000000000)
  else .err 0

/-- Whether page `p` of channel `ch` stands in the retired-page table of unit `u` (0 to 15 HBM stacks, 16 to 23 slow
devices; R170, R191). A slow-tier page is found by its device page. -/
def State.pageRetired (s : State) (u ch p : Nat) : Bool :=
  s.pages.any fun (k, w) =>
    k / 512 == u && w.getLsbD 31 &&
      (if u < 16 then w.toNat % 2 ^ 25 == ch * 2 ^ 19 + p else w.toNat % 2 ^ 25 == p)

/-- Whether a Riffler's devices can be reached: its edge is not CLOSED (R176). -/
def State.rifEdgeOpen (s : State) (n : Nat) : Bool := s.fget (F.PLN_EDGE_STATUS_STATE (8 + n)) != 3

/-- Whether a location is a hole (R170, R176, R339): a retired page or channel, a retired stack or device, a device
whose Riffler edge is CLOSED or whose Riffler is retired, or a retired scratch granule with no spare. -/
def State.hole (s : State) : Loc → Bool
  | .hbm st ch pg =>
    (s.reg (Reg.MEM_H_CHRET st)).getLsbD ch || s.fget (F.MEM_H_STATUS_STATE st) == 3 || s.pageRetired st ch pg
  | .slow dv ch pg =>
    (s.reg (Reg.MEM_H_CHRET (16 + dv))).getLsbD ch || s.fget (F.MEM_H_STATUS_STATE (16 + dv)) == 3 ||
      s.pageRetired (16 + dv) ch pg || !s.rifEdgeOpen (dv / 2) || s.gone.contains (0x10000 + dv / 2)
  | .scratch d o => s.granDead.contains (d, o / 0x1000)
  | _ => false

/-! ## Memory words -/

/-- The GiB of stacked SRAM an address lies in, twelve to a die (R24, R171). -/
def gibOf (a : Nat) : Nat := (a - 0x20000000000) / 0x400000000 * 12 + (a - 0x20000000000) % 0x400000000 / 0x40000000

/-- What an unlisted byte of memory reads as: zero, or a free value in the fast tier once its contents were not preserved,
and in the GiB of stacked SRAM not written with zeros since their contents were not kept (R169, R175, R343; log entries 3
and 9). -/
def memDef (hbm sram : Nat) (clean : BitVec 48) (a : Nat) : BitVec 8 :=
  if a < 0xC000000000 then (if hbm = 0 then 0 else Config.lostByte hbm a)
  else if 0x20000000000 ≤ a then
    (if sram = 0 ∨ ((a - 0x20000000000) % 0x400000000 / 0x40000000 < 12 ∧ clean.getLsbD (gibOf a)) then 0
     else Config.lostByte sram a)
  else 0

/-- A byte of memory by package address. -/
def State.byte (s : State) (a : Nat) : BitVec 8 := Sparse.get (memDef s.hbmEpoch s.sramEpoch s.sramClean) s.mem a

/-- Writes a byte of memory. -/
def State.setByte (s : State) (a : Nat) (v : BitVec 8) : State :=
  { s with mem := Sparse.set (memDef s.hbmEpoch s.sramEpoch s.sramClean) s.mem a v }

/-- The syndrome a stored word would read with. -/
def State.syn (s : State) (a : Nat) : BitVec 7 := Sparse.get (fun _ => 0) s.ecc (a / 4)

/-- The stored data bits of the word at `a`, little-endian (R158). -/
def State.rawWord (s : State) (a : Nat) : BitVec 32 := s.byte (a + 3) ++ s.byte (a + 2) ++ s.byte (a + 1) ++ s.byte a

/-- Whether the sector of an address stands valid in its home die's cache (R172, R173). -/
def State.cached (s : State) (a : Nat) : Bool :=
  match s.locate a with
  | .hbm st _ _ => s.cache.any fun x => x.die == st / 4 && x.gran == a / 0x1000 && x.secs.getLsbD (a / 64 % 64)
  | _ => false

/-- Whether a read of an address meets a burst that its stack's on-die ECC reports as uncorrectable (R185). -/
def State.burstBad (s : State) (a : Nat) : Bool := s.bursts.contains (a / 64) && !s.cached a

/-- The word a read of stored memory delivers (R185, R186). -/
def State.stored (s : State) (a : Nat) : MWord :=
  if s.burstBad a then ⟨s.rawWord a, true⟩ else deliver (s.rawWord a) (s.syn a)

/-- A write into a bad burst leaves the words it does not write in poison form (R185, R186; DEDUCED, log entry 125). -/
def State.mendBurst (s : State) (a : Nat) : State :=
  if s.bursts.contains (a / 64) then
    { s with bursts := s.bursts.filter (· ≠ a / 64),
             ecc := (List.range 16).foldl (fun m i => Sparse.set (fun _ => 0) m (a / 64 * 16 + i) 0x7F) s.ecc }
  else s

/-- Stores a word: a good word with good check bits, a poisoned one in poison form (R186). A newer write discards a
write-back that has not reached memory (R188). -/
def State.store (s : State) (a : Nat) (w : MWord) : State :=
  let b := 4 * (a / 4)
  let s := s.mendBurst a
  let s := (((s.setByte b (w.v.extractLsb' 0 8)).setByte (b + 1) (w.v.extractLsb' 8 8)).setByte (b + 2)
    (w.v.extractLsb' 16 8)).setByte (b + 3) (w.v.extractLsb' 24 8)
  { s with ecc := Sparse.set (fun _ => 0) s.ecc (a / 4) (if w.p then 0x7F else 0),
           wback := s.wback.filter (fun e => e.1 / 16 ≠ a / 64) }

/-! ## Fault records (R318 to R323) -/

/-- The supply rail's set point in mV of a unit (R318, R381). VHBMC follows the HBM4 standard, which the manual does not
give, so it is a free value (DESIGN CHOICE, log entry 7). -/
def State.volt (s : State) (unit : BitVec 32) : BitVec 16 :=
  let t := unit.toNat / 2 ^ 28
  let vddc (d : Nat) : BitVec 16 := BitVec.ofNat 16 (s.fget (F.HEL_STATUS_VOUT d))
  if t = 0 ∨ t = 1 ∨ t = 13 then vddc (unit.toNat / 0x10000 % 4)
  else if t = 2 then vddc (unit.toNat % 4)
  else if t = 3 ∨ t = 4 then (Config.freeValue s.free).truncate 16
  else if t = 5 ∨ t = 6 then 1050
  else if t = 7 then 800
  else if t = 8 then 750
  else if t = 9 then 900
  else if t = 10 then 750
  else if t = 11 then 750
  else if t = 12 then
    let chip := unit.toNat / 64 % 16
    if chip < 4 then vddc chip else 750
  else 0

/-- The 64 bytes of a fault record as sixteen little-endian words, less the CRC word (R318). -/
def FRec.words15 (r : FRec) : List (BitVec 32) :=
  let b13 : BitVec 8 := r.disp ++ BitVec.ofBool r.masked ++ BitVec.ofBool r.poison ++ BitVec.ofBool r.replay ++
    BitVec.ofBool r.lost ++ 0#2
  [r.time.truncate 32, (r.time >>> 32).truncate 32, r.rseq, r.count ++ b13 ++ r.cls, r.unit, r.volt ++ r.temp,
   r.task.truncate 32, (r.task >>> 32).truncate 32, r.cseq, r.sig, r.det0.truncate 32, (r.det0 >>> 32).truncate 32,
   r.det1.truncate 32, (r.det1 >>> 32).truncate 32, r.prev]

/-- The four bytes of a word, lowest address first. -/
def wordBytes (w : BitVec 32) : List (BitVec 8) :=
  [w.extractLsb' 0 8, w.extractLsb' 8 8, w.extractLsb' 16 8, w.extractLsb' 24 8]

/-- A number from its bytes, least significant first. -/
def leNat : List (BitVec 8) → Nat
  | [] => 0
  | b :: r => b.toNat + 256 * leNat r

/-- The bytes `a` to `b - 1` of an object as a number. -/
def fieldOf (o : List (BitVec 8)) (a b : Nat) : Nat := leNat ((o.drop a).take (b - a))

/-- A fault record as sixteen words with its CRC-32 over bytes 0 to 59 (R318). -/
def FRec.words (r : FRec) : List (BitVec 32) := r.words15 ++ [crc32 (r.words15.flatMap wordBytes)]

/-- The RSEQ after one (R318): 1 to 0xFFFF_FFFE, then 1 again. -/
def nextRseq (n : BitVec 32) : BitVec 32 := if n.toNat ≥ 0xFFFFFFFE then 1 else n + 1

/-- TEMP of a record: what the unit's nearest sensor read last, a sensor being its own; a free value while it has not been
read (R318; DESIGN CHOICE, log entry 108). -/
def State.tempOf (s : State) (unit : BitVec 32) : BitVec 16 :=
  (lookup s.temps (if unit.toNat / 2 ^ 28 = 12 then unit.toNat % 2 ^ 10 else Config.nearestSensor unit)).getD
    ((Config.freeValue s.free).truncate 16)

/-- Whether the faults of a class are masked (R312): a corrected word's, a link lane's or module's. -/
def clsMasked (c : BitVec 8) : Bool := c == 1 || c == 7

/-- Files a record: gives it the next RSEQ, writes it to the ring (16,384 records; the oldest is overwritten), mirrors it
to the host when the mirror is enabled and its ring has room, and interrupts the host when IRQ_ALL is set (R321,
R329). -/
def State.file (s : State) (r : FRec) : State :=
  let n := nextRseq (s.reg Reg.FLT_LAST_RSEQ)
  let r := { r with rseq := n, time := s.now, volt := s.volt r.unit, temp := s.tempOf r.unit,
                      masked := r.masked || clsMasked r.cls }
  let s := { s with free := s.free + 1, ring := s.ring ++ [(n.toNat, r)] }
  let s := if s.ring.length > 16384 then ({ s with ring := s.ring.drop 1 }).fsat F.FLT_RING_WRAPS 1 else s
  let s := s.setReg Reg.FLT_LAST_RSEQ n
  let s :=
    if s.flag F.FLT_HMIR_CFG_EN then
      let size := 2 ^ (min 13 (s.fget F.FLT_HMIR_CFG_LOG2N) + 6)
      let used := (s.fget F.FLT_HMIR_TAIL_INDEX + 2 ^ 20 - s.fget F.FLT_HMIR_HEAD_INDEX) % 2 ^ 20
      if used < size then
        ({ s with mirror := upsert s.mirror (s.fget F.FLT_HMIR_TAIL_INDEX % size) r }).fwrap F.FLT_HMIR_TAIL_INDEX 1
      else s.fsat F.FLT_HMIR_LOST_COUNT 1
    else s
  if s.flag F.FLT_CFG_IRQ_ALL then s.irq 16 else s

/-- Whether a history entry is that of a record's unit, signature and class (R322; DEDUCED, log entry 106). -/
def Hist.of (h : Hist) (r : FRec) : Bool := h.unit == r.unit && h.sig == r.sig && h.cls == r.cls

/-- The history entry of a record's unit and signature (R322). -/
def State.histOf (s : State) (r : FRec) : Option Hist := s.hist.find? fun h => h.of r

/-- The service seconds of the last 72 h among `ts`. -/
def within72h (now : BitVec 32) (ts : List (BitVec 32)) : List (BitVec 32) :=
  ts.filter fun t => decide (now.toNat - t.toNat < 259200)

/-- The history entry after one more occurrence at service time `now` (R322). -/
def Hist.occur (h : Hist) (now : BitVec 32) : Hist :=
  { h with t1 := now, t2 := h.t1, t3 := h.t2, count := if h.count = 0xFFFF then h.count else h.count + 1,
           times := now :: within72h now h.times, flags := h.flags ||| 1 }

/-- Whether two history entries are of one unit, signature and class. -/
def Hist.same (g h : Hist) : Bool := g.unit == h.unit && g.sig == h.sig && g.cls == h.cls

/-- Puts an entry into the history: its own place, a new place, or the TRANSIENT entry with the oldest T1 when the
4,096 entries are full; when none is TRANSIENT, HIST_FULL sets and the entry is not kept (R322). -/
def State.putHist (s : State) (h : Hist) : State :=
  if s.hist.any (fun g => g.same h) then
    { s with hist := s.hist.map (fun (g : Hist) => if g.same h then h else g) }
  else if s.hist.length < 4096 then { s with hist := s.hist ++ [h] }
  else
    let old := (s.hist.filter (fun g => g.disp = 1)).foldl
      (fun (o : Option Hist) g => match o with
        | none => some g
        | some x => if g.t1.toNat < x.t1.toNat then some g else some x) none
    match old with
    | none => s.setFlag F.FLT_STATUS_HIST_FULL true
    | some o => { s with hist := s.hist.map (fun (g : Hist) => if g.same o then h else g) }

/-- The history entry of a record, or a new one that takes the record's disposition (R318, R322). -/
def State.histNew (s : State) (r : FRec) : Hist :=
  (s.histOf r).getD { unit := r.unit, sig := r.sig, cls := r.cls, disp := r.disp.zeroExtend 8 }

/-- A disposition once more decided: an entry judged PERMANENT stays so (R322). -/
def Hist.decide (h : Hist) (d : BitVec 2) : Hist := if h.disp = 2 then h else { h with disp := d.zeroExtend 8 }

/-- Files a record now, with COUNT and PREV from the history (R318). -/
def State.fileNow (s : State) (r : FRec) : State :=
  let h := s.histNew r
  let c := BitVec.ofNat 16 (min 0xFFFF (max 1 (within72h s.svc h.times).length))
  let t := s.file { r with count := c, prev := h.lastRec }
  let n := t.reg Reg.FLT_LAST_RSEQ
  t.putHist { (h.decide r.disp) with lastRec := n, lastSvc := some s.svc, owed := 0,
                                     first := if h.first = 0 then n else h.first }

/-- Files a record of an occurrence under the one-a-second limit. A PERMANENT record is never held back (R321). -/
def State.fileLimited (s : State) (r : FRec) : State :=
  let h := s.histNew r
  if h.lastSvc = some s.svc ∧ r.disp ≠ 2 then s.putHist { (h.decide r.disp) with owed := h.owed + 1 } else s.fileNow r

/-- Enters one occurrence in the history (R322). -/
def State.occur (s : State) (r : FRec) : State := s.putHist ((s.histNew r).occur s.svc)

/-- Whether a unit and signature have occurred `n` times within 72 h of service time (R323). -/
def State.seen (s : State) (r : FRec) (n : Nat) : Bool :=
  match s.histOf r with
  | some h => decide (n ≤ (within72h s.svc h.times).length)
  | none => decide (n = 0)

/-- A PERMANENT judgement: counted, entered in the history, reported on FAULT_N and to the host, and retirement of the
unit requested as TRET does (R323, R329, R388). -/
def State.judgePermanent (s : State) (r : FRec) (repro : Bool) : State :=
  let s := s.fsat F.FLT_STATUS_PERM 1
  let s := { s with hist := s.hist.map (fun (g : Hist) =>
    if g.of r then { g with disp := 2, flags := if repro then g.flags ||| 2 else g.flags } else g) }
  let s := if s.retire.contains r.unit then s else { s with retire := s.retire ++ [r.unit] }
  let s := s.faultN 1
  if s.flag F.FLT_CFG_IRQ_PERM then s.irq 16 else s

/-- A fault already entered in the history and judged PERMANENT: the judgement and its record (R321, R323). -/
def State.filePermanent (s : State) (r : FRec) (repro : Bool) : State :=
  (s.judgePermanent r repro).fileLimited { r with disp := 2 }

/-- A classified fault judged from history alone (R323): the third occurrence within 72 h is PERMANENT, otherwise the
fault is TRANSIENT; the record carries the disposition. -/
def State.classify (s : State) (r : FRec) : State :=
  let r := { r with disp := 1 }
  let s := s.occur r
  if s.seen r 3 then s.filePermanent r false else (s.fsat F.FLT_STATUS_TRANS 1).fileLimited r

/-- The task fields of a fault record (R318): queue, context, opcode, instruction address and the command's SEQ, of the
task in context `k` of engine `e` at word offset `pc`. -/
def State.faultTask (s : State) (e k op pc : Nat) (r : FRec) : FRec :=
  let x := s.ctx (4 * e + k)
  match x.task with
  | none => r
  | some t => { r with
      task := BitVec.ofNat 64 (t.q % 16 * 2 ^ 58 + k % 4 * 2 ^ 56 + op % 256 * 2 ^ 48 +
        (x.prog.toNat + 8 * pc) % 2 ^ 48), cseq := t.seq }

/-- Files an EVENT record (R320). -/
def State.eventR (s : State) (r : FRec) : State :=
  let r := { r with disp := 3 }
  (s.occur r).fileLimited r

/-- An EVENT record with no task. -/
def State.event (s : State) (cls : Nat) (unit sig : BitVec 32) (det0 det1 : BitVec 64) : State :=
  s.eventR { cls := BitVec.ofNat 8 cls, unit := unit, sig := sig, det0 := det0, det1 := det1 }

/-- A fault judged PERMANENT when it is filed (CAPSULE of R320, R336). -/
def State.permanent (s : State) (cls : Nat) (unit sig : BitVec 32) : State :=
  let r : FRec := { cls := BitVec.ofNat 8 cls, disp := 2, unit := unit, sig := sig }
  (s.occur r).filePermanent r false

/-! ## Address errors (R25, R27) -/

/-- The requester of a package access: the SOURCE code of R27 with the unit of R319 that an ADDR record names, with
the task fields of R318. -/
structure Src where
  code : Nat
  unit : BitVec 32
  task : BitVec 64 := 0
  cseq : BitVec 32 := 0
  deriving DecidableEq, Repr

def Src.cmd : Src := { code := 4, unit := blockUnit 0 }
def Src.host : Src := { code := 5, unit := blockUnit 0 }
def Src.arm : Src := { code := 7, unit := blockUnit 0 }
def Src.port (p : Nat) : Src := { code := 6, unit := blockUnit (0x10 + p) }
def Src.riffler (n : Nat) : Src := { code := 8 + n, unit := BitVec.ofNat 32 (0xA0000000 + n) }

/-- An engine's stream or collective, for the instruction of context `k` at offset `pc`. -/
def State.engSrc (s : State) (e k op pc : Nat) : Src :=
  let r := s.faultTask e k op pc {}
  { code := e / 408, unit := engineUnit e, task := r.task, cseq := r.cseq }

/-- The address R27 reports: the package id that the access carried, or 0xFFFF for one of the host port, Armature, the
Rifflers or the command processor, which carries a package address alone. -/
def Src.shown (src : Src) (a : BitVec 64) : BitVec 64 :=
  if src.code < 4 ∨ src.code = 6 then a else 0xFFFF#16 ++ a.extractLsb' 0 48

/-- Records an address error of a kind: PLN_ADDR_ERR_* keeps the first, later ones set OVERFLOW, COUNT counts, and an
ADDR record is filed that describes this access (R27, R318, R320). `a` is the global address of the access. -/
def State.addrErr (s : State) (kind : Nat) (wr : Bool) (src : Src) (a : BitVec 64) : State :=
  let a := src.shown a
  let s := s.fsat F.PLN_ADDR_ERR_INFO_COUNT 1
  let s :=
    if s.flag F.PLN_ADDR_ERR_INFO_VALID then s.setFlag F.PLN_ADDR_ERR_INFO_OVERFLOW true
    else
      ((((((s.setFlag F.PLN_ADDR_ERR_INFO_VALID true).setFlag F.PLN_ADDR_ERR_INFO_WRITE wr).fset
        F.PLN_ADDR_ERR_INFO_KIND kind).fset F.PLN_ADDR_ERR_INFO_SOURCE src.code).setReg Reg.PLN_ADDR_ERR_LO
          (a.truncate 32)).setReg Reg.PLN_ADDR_ERR_HI ((a >>> 32).truncate 32))
  let info : BitVec 64 := BitVec.ofNat 64 (2 ^ 31 + (if wr then 2 ^ 29 else 0) + kind * 2 ^ 24 + src.code * 2 ^ 20 +
    s.fget F.PLN_ADDR_ERR_INFO_COUNT)
  s.eventR { cls := 0x0B, unit := src.unit, sig := BitVec.ofNat 32 kind, task := src.task, cseq := src.cseq, det0 := a,
             det1 := info }

/-- Records a hole access in its stack's or device's block (R170, R191). A scratch hole has no such block. -/
def State.holeHit (s : State) (l : Loc) (a : Nat) : State :=
  let go (u : Nat) (g : Nat) : State :=
    let s := s.fsat (F.MEM_H_HOLE_COUNT u) 1
    if s.flag (F.MEM_H_HOLE_VALID u) then s.setFlag (F.MEM_H_HOLE_OVERFLOW u) true
    else (s.setFlag (F.MEM_H_HOLE_VALID u) true).fset (F.MEM_H_HOLE_ADDR_GRANULE u) g
  match l with
  | .hbm st _ _ => go st (a / 0x1000)
  | .slow dv _ _ => go (16 + dv) ((a - 0x10000000000) / 0x1000)
  | _ => s

/-! ## Reads and writes of package memory -/

/-- The unit a memory word is charged to (R319): its page, or its SRAM granule. -/
def Loc.unit : Loc → BitVec 32
  | .hbm st ch pg => BitVec.ofNat 32 (0x30000000 + st * 2 ^ 24 + ch * 2 ^ 19 + pg)
  | .slow dv _ pg => BitVec.ofNat 32 (0x50000000 + dv * 2 ^ 25 + pg)
  | .scratch d o => BitVec.ofNat 32 (0x70000000 + d * 2 ^ 26 + o / 0x1000)
  | _ => blockUnit 0

/-- The corrected and uncorrectable counts of the tier a location lies in (R191, R192). -/
def Loc.ceFld : Loc → Fld
  | .hbm st _ _ => F.MEM_H_CE_COUNT st
  | .slow dv _ _ => F.MEM_H_CE_COUNT (16 + dv)
  | .scratch d _ => F.MEM_SRAM_CE_COUNT d
  | _ => F.MEM_SRAM_CE_COUNT 0

def Loc.ueFld : Loc → Fld
  | .hbm st _ _ => F.MEM_H_UE_COUNT st
  | .slow dv _ _ => F.MEM_H_UE_COUNT (16 + dv)
  | .scratch d _ => F.MEM_SRAM_UE_COUNT d
  | _ => F.MEM_SRAM_UE_COUNT 0

/-- The signature of a memory word's record (R320): its word index within the 4 KiB block, and the syndrome. -/
def wordSig (a : Nat) (y : BitVec 7) : BitVec 32 := BitVec.ofNat 32 (a % 0x1000 / 4 * 128 + y.toNat)

/-- The signature of a burst's record (R320): bit 17, and the index of its first word within the 4 KiB block. -/
def burstSig (a : Nat) : BitVec 32 := BitVec.ofNat 32 (2 ^ 17 + a % 0x1000 / 64 * 16 * 128)

/-- Where a word's error is counted and charged: a word of a sector that stands in the cache is one of its die's SRAM
(R192, R319; DESIGN CHOICE, log entry 107). -/
def State.servedBy (s : State) (l : Loc) (a : Nat) : Loc :=
  match l with
  | .hbm st _ _ =>
    if s.cached a then .scratch (st / 4) (0x1000 * Config.cacheGran (12 - s.fget (F.MEM_SRAM_STATUS_ACT (st / 4))) (a / 0x1000))
    else l
  | _ => l

/-- A requester's record of a memory fault (R318): the task fields of the access that met it. -/
def Src.memRec (src : Src) (cls : BitVec 8) (unit sig : BitVec 32) : FRec :=
  { cls := cls, unit := unit, sig := sig, task := src.task, cseq := src.cseq }

/-- The syndromes a single bit in error gives a poisoned word (R186). -/
def markerNear (y : BitVec 7) : Bool :=
  [0x7E, 0x7D, 0x7B, 0x77, 0x6F, 0x5F, 0x3F].contains y.toNat || (dataCols.map (· ^^^ 0x7F)).contains y.toNat

/-- A correction (R317): it enters the history of its unit under `r`, and the third of one word, known by the key `w`,
within 72 h files a MEM_CE record, already PERMANENT. -/
def State.corrected (s : State) (w : Nat) (r : FRec) : State :=
  let r := { r with cls := 1, disp := 2 }
  let old := within72h s.svc ((lookup s.ceHist w).getD [])
  let s := ({ s with ceHist := upsert s.ceHist w (s.svc :: old) } : State).occur { r with disp := 1 }
  if 2 ≤ old.length then s.filePermanent r false else s

/-- What a read of a word with a syndrome leaves in a store that is corrected in place: the word and its syndrome (R185, R186,
R188; DEDUCED, log entry 125). -/
def fixWord (v : BitVec 32) (y : BitVec 7) : BitVec 32 × BitVec 7 :=
  match synOf y with
  | .data i => (v ^^^ (1 <<< i), 0)
  | .check => (v, 0)
  | .bad => (v, if markerNear y then 0x7F else y)
  | .good | .poison => (v, y)

/-- What such a read records of a word, known by the key `w`, against its unit (R185, R317, R319). -/
def State.noteWord (s : State) (w : Nat) (y : BitVec 7) (r : FRec) : State :=
  match synOf y with
  | .good | .poison => s
  | .data _ | .check => s.corrected w r
  | .bad => s.classify { r with cls := 2, poison := true }

/-- The keys of the words of the other stores in the correction history: 1 staging buffers, 2 tile registers, 3 the scale
table, 4 the group table, 5 the Loupe table, 6 the advisory ring. -/
def eccKey (store i : Nat) : Nat := store * 2 ^ 50 + i

/-- Word `k` of a table in Plinth, and its syndrome, after a read that corrects in place. -/
def fixTab (m : List (Nat × BitVec 32)) (z : List (Nat × BitVec 7)) (k : Nat) :
    List (Nat × BitVec 32) × List (Nat × BitVec 7) :=
  let (v, y) := fixWord (Sparse.get (fun _ => 0) m k) (Sparse.get (fun _ => 0) z k)
  (Sparse.set (fun _ => 0) m k v, Sparse.set (fun _ => 0) z k y)

/-- The places of the words of entry `i` of a table with `n` words an entry that do not read good. -/
def badOf (z : List (Nat × BitVec 7)) (n i : Nat) : List Nat := (z.filter fun p => p.1 / n == i).map (·.1)

/-- Whether a word of that entry reads as poison. -/
def poisonOf (z : List (Nat × BitVec 7)) (n i : Nat) : Bool := z.any fun p => p.1 / n == i && (deliver 0 p.2).p

/-- What a read of a word does beside delivering it (R185, R186, R188, R317): a corrected word counts, enters the
correction history, files a PERMANENT MEM_CE record at its third correction within 72 h, and schedules its
write-back; an uncorrectable word counts, files a MEM_UE record and, when a single bit of a poisoned word is in
error, schedules a rewrite in exact poison form. `head` marks the first word read of its 64 bytes, at which a bad burst is
counted and recorded. -/
def State.onRead (s : State) (head : Bool) (src : Src) (l : Loc) (a : Nat) : State :=
  let y := s.syn a
  let w := a / 4
  let v := s.servedBy l a
  if s.burstBad a then
    (if head then (s.fsat v.ueFld 1).classify { src.memRec 2 v.unit (burstSig a) with poison := true } else s)
  else match synOf y with
  | .good => s
  | .poison => s
  | .data _ | .check =>
    ({ (s.fsat v.ceFld 1) with wback := s.wback ++ [(w, false)] }).corrected w (src.memRec 1 v.unit (wordSig a y))
  | .bad =>
    let s := s.fsat v.ueFld 1
    let s := if markerNear y then { s with wback := s.wback ++ [(w, true)] } else s
    s.classify { src.memRec 2 v.unit (wordSig a y) with poison := true }

/-- The poisoned word that an address error or a hole returns. -/
def poisonWord : MWord := ⟨0, true⟩

/-! ## The stacked-SRAM cache (R172 to R174) -/

/-- Whether the window that governs a fast-tier address has NOALLOC set (R174): the lowest-numbered enabled window of
the die that holds it. -/
def State.noAlloc (s : State) (d a : Nat) : Bool :=
  match (List.range 8).find? fun k => s.flag (F.MEM_SRAM_WIN_EN d k) &&
      decide (s.fget (F.MEM_SRAM_WIN_BASE d k) ≤ a / 0x4000000) &&
      decide (a / 0x4000000 ≤ s.fget (F.MEM_SRAM_WIN_LIMIT d k)) with
  | some k => s.flag (F.MEM_SRAM_WIN_NOALLOC d k)
  | none => false

/-- Whether an address lies in any enabled window of the die with NOALLOC set (R180). -/
def State.inNoAlloc (s : State) (d a : Nat) : Bool :=
  (List.range 8).any fun k => s.flag (F.MEM_SRAM_WIN_EN d k) && s.flag (F.MEM_SRAM_WIN_NOALLOC d k) &&
    decide (s.fget (F.MEM_SRAM_WIN_BASE d k) ≤ a / 0x4000000) && decide (a / 0x4000000 ≤ s.fget (F.MEM_SRAM_WIN_LIMIT d k))

/-- The GiB of cache of die `d` (R171). -/
def State.cacheGib (s : State) (d : Nat) : Nat := 12 - s.fget (F.MEM_SRAM_STATUS_ACT d)

/-- Whether the cache line a granule would take lies in an SRAM granule retired with no spare, and is disabled (R339). -/
def State.lineDead (s : State) (d g : Nat) : Bool := s.granDead.contains (d, Config.cacheGran (s.cacheGib d) g)

/-- Adds a line with one sector, most recently used, in place of the least recently used of a full set of 16 (R173); a
disabled line is not allocated (R339). -/
def State.allocate (s : State) (d g sec : Nat) (wr : Bool) : State :=
  if s.lineDead d g then s else
  let gib := s.cacheGib d
  let same (x : CLine) := x.die == d && Config.cacheSet gib x.gran == Config.cacheSet gib g
  let mine := s.cache.filter same
  let keep := if mine.length < 16 then s.cache
    else match mine.getLast? with
      | some v => s.cache.filter (· ≠ v)
      | none => s.cache
  { s with cache := { die := d, gran := g, secs := 1#64 <<< sec, dirty := wr } :: keep }

/-- One 64-byte sector access through the cache of the home die (R172 to R175): a hit or a miss is counted; a miss
allocates its line or fills its sector, except in a NOALLOC window or during a repartition, in which a write that hits
leaves its line clean. Nothing else shows. -/
def State.cacheTouch (s : State) (a : Nat) (wr : Bool) : State :=
  match s.locate a with
  | .hbm st _ _ =>
    let d := st / 4
    if s.cacheGib d = 0 then s
    else
      let g := a / 0x1000
      let sec := a / 64 % 64
      let busy := s.flag (F.MEM_SRAM_STATUS_BUSY d)
      let still := busy || s.noAlloc d a
      match s.cache.find? (fun (x : CLine) => x.die == d && x.gran == g) with
      | some x =>
        let hit := x.secs.getLsbD sec
        let y := { x with secs := if still then x.secs else x.secs ||| 1#64 <<< sec,
                          dirty := if busy then x.dirty && !wr else x.dirty || (wr && (hit || !still)) }
        let s := { s with cache := y :: s.cache.filter (· ≠ x) }
        if hit then s.fwrap (F.MEM_SRAM_HIT_COUNT d) 1 else s.fwrap (F.MEM_SRAM_MISS_COUNT d) 1
      | none =>
        let s := s.fwrap (F.MEM_SRAM_MISS_COUNT d) 1
        if still then s else s.allocate d g sec wr
  | _ => s

/-- Read-ahead of one sector into the home die's cache, and nothing else (R180). -/
def State.readAhead (s : State) (a : Nat) : State :=
  match s.locate a with
  | .hbm st ch pg =>
    let d := st / 4
    if s.cacheGib d = 0 || s.flag (F.MEM_SRAM_STATUS_BUSY d) || s.inNoAlloc d a || s.hole (.hbm st ch pg) ||
        s.cache.any (fun x => x.die == d && x.gran == a / 0x1000 && x.secs.getLsbD (a / 64 % 64)) then s
    else match s.cache.find? (fun (x : CLine) => x.die == d && x.gran == a / 0x1000) with
      | some x => { s with cache := { x with secs := x.secs ||| 1#64 <<< (a / 64 % 64) } :: s.cache.filter (· ≠ x) }
      | none => s.allocate d (a / 0x1000) (a / 64 % 64) false
  | _ => s

/-! ## Accesses of package memory -/

/-- Reads a word of package memory for a requester: the word delivered, and the state with what the read recorded. A
read of the register window by anything but a register access is an address error of kind RSVD_REG (R373). `head`
marks the first word of an access to a 64-byte sector, at which errors and holes count, and `last` the last, at which the
cache counts. -/
def State.readAt (s : State) (head last : Bool) (src : Src) (pkg : BitVec 16) (a : Nat) : MWord × State :=
  match s.locate a with
  | .err k => (poisonWord, if head then s.addrErr k false src (pkg ++ BitVec.ofNat 48 a) else s)
  | .regs _ => (poisonWord, if head then s.addrErr 3 false src (pkg ++ BitVec.ofNat 48 a) else s)
  | l =>
    if s.hole l then (poisonWord, if head then s.holeHit l a else s)
    else
      let t := s.onRead head src l a
      (s.stored a, if last then t.cacheTouch a false else t)

/-- Writes a word of package memory for a requester; refused and hole writes are discarded (R25, R170). -/
def State.writeAt (s : State) (head : Bool) (src : Src) (pkg : BitVec 16) (a : Nat) (w : MWord) : State :=
  match s.locate a with
  | .err k => if head then s.addrErr k true src (pkg ++ BitVec.ofNat 48 a) else s
  | .regs _ => if head then s.addrErr 3 true src (pkg ++ BitVec.ofNat 48 a) else s
  | l =>
    if s.hole l then (if head then s.holeHit l a else s)
    else (if head then s.cacheTouch a true else s).store a w

/-- Reads a single word. -/
def State.readW (s : State) (src : Src) (pkg : BitVec 16) (a : Nat) : MWord × State := s.readAt true true src pkg a

/-- Writes a single word. -/
def State.writeW (s : State) (src : Src) (pkg : BitVec 16) (a : Nat) (w : MWord) : State := s.writeAt true src pkg a w

/-- The words of an access, sector by sector. -/
def State.readGo (s : State) (head : Bool) (src : Src) (pkg : BitVec 16) (a : Nat) : Nat → List MWord × State
  | 0 => ([], s)
  | n + 1 =>
    let (w, s) := s.readAt (head || a % 64 == 0) (n == 0 || a % 64 == 60) src pkg a
    let (ws, s) := s.readGo false src pkg (a + 4) n
    (w :: ws, s)

/-- Reads `n` consecutive words. -/
def State.readN (s : State) (src : Src) (pkg : BitVec 16) (a n : Nat) : List MWord × State :=
  s.readGo true src pkg a n

def State.writeGo (s : State) (head : Bool) (src : Src) (pkg : BitVec 16) (a : Nat) : List MWord → State
  | [] => s
  | w :: ws => (s.writeAt (head || a % 64 == 0) src pkg a w).writeGo false src pkg (a + 4) ws

/-- Writes consecutive words. -/
def State.writeN (s : State) (src : Src) (pkg : BitVec 16) (a : Nat) (ws : List MWord) : State :=
  s.writeGo true src pkg a ws

/-- Whether an address can be read whole: neither refused under R25 nor a hole. -/
def State.readable (s : State) (a : Nat) : Bool :=
  match s.locate a with
  | .err _ | .regs _ => false
  | l => !s.hole l

/-- The package id fields of PLN_PKG_ID as one id (R21, R27). -/
def State.pkgId (s : State) : BitVec 16 := (s.reg Reg.PLN_PKG_ID).truncate 16

/-- Whether a package id names this package: the self alias, or its own id once VALID (R21, R23). -/
def State.own (s : State) (p : BitVec 16) : Bool :=
  p == 0xFFFF || (s.flag F.PLN_PKG_ID_VALID && p == s.pkgId)

/-- Two consecutive words as one little-endian 64-bit value. -/
def pair64 (lo hi : MWord) : BitVec 64 := hi.v ++ lo.v

/-- Reads a 64-bit word; poisoned when either half is. -/
def State.read64 (s : State) (src : Src) (pkg : BitVec 16) (a : Nat) : (BitVec 64 × Bool) × State :=
  let (ws, s) := s.readN src pkg a 2
  ((pair64 (ws.getD 0 poisonWord) (ws.getD 1 poisonWord), ws.any (·.p)), s)

/-! ## The power and start-up conditions every engine and the command processor share -/

/-- Whether engines may run at all: READY, in RUN or IDLE, neither tripped nor stopped (R303, R306, R352). -/
def State.running (s : State) : Bool :=
  s.fget F.PLN_BOOT_STEP == 11 && decide (s.fget F.DIA_PSTATE_STATE ≤ 1) && !s.flag F.DIA_STATUS_TRIPPED &&
    !s.flag F.DIA_STATUS_ESTOP && s.sec.granting.isNone && !s.power.zeroing

/-- Whether an access to a package address waits (R303, R306, R343, R352): the memories are not yet up, in
self-refresh or being zeroed, or the address's channel or die is being reset (DESIGN CHOICE, log entry 10). -/
def State.memWaits (s : State) (a : Nat) : Bool :=
  let down := decide (s.fget F.PLN_BOOT_STEP < 10) || decide (2 ≤ s.fget F.DIA_PSTATE_STATE) || s.power.zeroing
  match s.locate a with
  | .hbm st ch _ => down || s.chReset.contains (st, ch) || s.dieReset.contains (st / 4)
  | .slow dv ch _ => down || s.chReset.contains (16 + dv, ch)
  | .scratch d _ => down || s.dieReset.contains d
  | _ => false

/-- Whether the Diaphragm, a sag level or the thermal loop parks logical slot `i` of every cluster (R296, R301, R304,
R307). -/
def State.parkedSlot (s : State) (i : Nat) : Bool :=
  decide (16 - s.power.parkDia ≤ i) || (decide (8 ≤ i) && (s.power.parkSag || s.power.parkTherm))

/-- Whether a logical slot is parked, or released and not yet admitted by its wave (R296). -/
def State.parked (s : State) (l : Nat) : Bool :=
  s.parkedSlot (l % 16) || (match lookup s.power.admits (l % 16) with
    | some t => decide (s.now.toNat < t.toNat)
    | none => false)

/-- Whether a physical engine may take tokens: the package runs, the engine is bound to a slot that is not parked, and
neither a hand-over, a reset nor a quarantine stops it. -/
def State.canRun (s : State) (e : Nat) : Bool :=
  let x := s.eng e
  s.running && !x.stop && !x.resetting && !x.failed &&
    !s.flag (F.STR_SPARE_QUAR (e / 17)) && !s.dieQ (e / 408) && !s.clReset.contains (e / 17) &&
    !s.dieReset.contains (e / 408) &&
    (match s.slotOf e with
     | some l => !s.parked l
     | none => false)

/-- Whether the command processor may start a command: READY, in RUN or IDLE, no trip or stop, no L4 (R303,
R305, R306). -/
def State.cpRuns (s : State) : Bool := s.running && !s.power.l4

end Sys2Proof.Machine
end

