-- ==== Sys2Proof/Machine/Ceilings.lean ====
section
/-! DEFINITION. The calibrated quantities (R357), the pace ceilings, the step in force and the throttle cause (R272, R274,
R280, R284). -/
namespace Sys2Proof.Machine

def State.modPower (s : State) (f : Power → Power) : State := { s with power := f s.power }

/-! ## Ceilings and the step in force (R280, R284) -/

/-- An integer held between two limits. -/
def clampInt (lo hi v : Int) : Int := max lo (min hi v)

/-! ## Calibration (R357, R358) -/

/-- The bound of a quantity's user offset (R357). -/
def calBound (item : Nat) : Int :=
  match item with
  | 1 => 40
  | 2 => 8
  | 3 => 50
  | 4 => 3
  | 5 => 8
  | _ => 6

/-- The entries of an overlay: ITEM, INDEX, OFFSET, and whether the bytes that must be 0 are. -/
def calEntries (o : List (BitVec 8)) : List (Nat × Nat × Int × Bool) :=
  (List.range (fieldOf o 4 8)).map fun i =>
    let e := 64 + 8 * i
    (fieldOf o e (e + 1), fieldOf o (e + 2) (e + 4), signed 16 (fieldOf o (e + 4) (e + 6)),
      fieldOf o (e + 1) (e + 2) == 0 && fieldOf o (e + 6) (e + 8) == 0)

/-- The user offset of a quantity in the overlay in force, held within its bound (R357, R359). -/
def State.calUser (s : State) (item idx : Nat) : Int :=
  match (if s.flag F.INS_CAL_VALID then s.sec.current else none) with
  | none => 0
  | some o => match (calEntries o).find? fun e => e.1 == item && e.2.1 == idx with
    | some e => clampInt (-calBound item) (calBound item) e.2.2.1
    | none => 0

/-- The range of the effective value of an ITEM, where R357 gives one. -/
def calRange (item : Nat) : Option (Int × Int) :=
  match item with
  | 1 => some (550, 850)
  | 4 => some (0, 15)
  | 5 => some (0, 63)
  | 6 => some (0, 127)
  | _ => none

/-- The effective value of a calibrated quantity that the overlay alone adjusts: transmit presets, deskew and training seeds
(R357). -/
def State.calEffective (s : State) (item idx : Nat) : Int :=
  let v := Config.factoryCal item idx + s.calUser item idx
  match calRange item with
  | some (lo, hi) => clampInt lo hi v
  | none => v

/-- The effective table voltage of a die at a step, in mV (R280, R308). -/
def State.tableVolt (s : State) (d k : Nat) : Nat :=
  (clampInt 550 850 ((s.fget (F.HEL_VT_FACT d k) : Int) + clampInt (-40) 40 (signed 8 (s.fget (F.HEL_VT_USER d k))) +
    signed 8 (s.fget (F.HEL_VT_AGE d k)))).toNat

/-- The pace-follow ceiling, 0 when none is held or FOLLOW is clear (R274). -/
def State.followCeil (s : State) : Nat :=
  if s.flag F.CLV_PACE_CFG_FOLLOW ∧ s.flag F.CLV_PACE_CFG_HELD then s.fget F.CLV_PACE_CFG_CEIL else 0

/-- The slower of the user ceiling and the package margin ceiling (R284). -/
def State.setCeil (s : State) : Nat := max (s.fget F.DIA_PACE_UCEIL) (s.fget F.DIA_PACE_MCEIL)

/-- Every ceiling but the cap's (R284). -/
def State.otherCeil (s : State) : Nat :=
  [s.setCeil, s.fget F.DIA_PACE_THERM, s.fget F.DIA_PACE_DROOP, s.fget F.DIA_PACE_BOARD, s.followCeil].foldl max 0

/-- The step the dies run at now: while the cap ceiling dithers, the faster of its steps in the first slots of a frame
(R284, R295). -/
def State.stepNow (s : State) : Nat :=
  max s.otherCeil (if s.power.frame < s.fget F.DIA_STATUS_DUTY then s.power.capHi else s.power.capLo)

/-- The throttle cause: the lowest cause among the ceilings that hold the step slower than the set ceiling, and the
parkings (R272, R284). -/
def State.causeNow (s : State) (step : Nat) : Nat :=
  let slow := decide (s.setCeil < step)
  if slow && s.power.capBinds && s.power.capLo == step || decide (0 < s.power.parkDia) then 1
  else if slow && s.fget F.DIA_PACE_THERM == step || s.power.parkTherm then 2
  else if slow && s.fget F.DIA_PACE_DROOP == step || s.power.parkSag then 3
  else if slow && s.fget F.DIA_PACE_BOARD == step then 4
  else if slow && s.followCeil == step then 5
  else 0

/-- Shows the ceilings, the step in force and its cause in DIA_PACE and DIA_STATUS (R284): the slower step of a cap that
dithers. -/
def State.rePace (s : State) : State :=
  let m := ([0, 1, 2, 3].map fun d => s.fget (F.HEL_STATUS_MCEIL d)).foldl max 0
  let s := (s.fset F.DIA_PACE_MCEIL m).fset F.DIA_PACE_DROOP (max s.power.droopP s.power.droopL2)
  let step := max s.otherCeil s.power.capLo
  (s.fset F.DIA_PACE_STEP step).fset F.DIA_STATUS_CAUSE (s.causeNow step)

end Sys2Proof.Machine
end

