-- ==== Sys2Proof/Machine/Judge.lean ====
section
/-! DEFINITION. The judgement of faults whose record was filed PENDING (R315, R323, R324). -/
namespace Sys2Proof.Machine

/-- Whether a fault's unit and signature have occurred three times within 72 h of service time (R323). -/
def State.third (s : State) (r : FRec) : Bool := s.seen r 3

/-- Whether a unit's fault of this signature already stands judged PERMANENT. -/
def State.isPermanent (s : State) (r : FRec) : Bool :=
  match s.histOf r with
  | some h => h.disp == 2
  | none => false

/-- The final disposition of a fault filed PENDING: a further record, linked by PREV, which the limit of one a second does not
hold back (R321, R323). -/
def State.settleFault (s : State) (r : FRec) (perm repro : Bool) : State :=
  if perm then (s.judgePermanent r repro).fileNow { r with disp := 2 }
  else (s.fsat F.FLT_STATUS_TRANS 1).fileNow { r with disp := 1 }

/-- An ARITH fault of a unit other than an array, as its records name it (R318, R320). -/
def unitRec (unit sig : BitVec 32) : FRec := { cls := 3, unit := unit, sig := sig, det0 := 0xFF }

/-- The work of faults filed PENDING has been served again without a mismatch: they are TRANSIENT (R315, R323). -/
def State.settleWork (s : State) (p : ArithUnit → BitVec 32 → Bool) : State :=
  (s.arithPend.filter fun x => p x.1 x.2.1).foldl
    (fun s x => s.settleFault { unitRec x.2.1 x.2.2 with replay := true } false false)
    { s with arithPend := s.arithPend.filter fun x => !p x.1 x.2.1 }

/-- A chunk served again without a second mismatch (R315). -/
def State.settleChunk (s : State) (k : ChunkId) : State := s.settleWork fun j _ => j == .riffler k

/-- A vector unit's next operation ends without a mismatch (DESIGN CHOICE, log entry 121). -/
def State.settleVector (s : State) (unit : BitVec 32) : State := s.settleWork fun _ u => u == unit

/-- Whether a pending fault is one of another instance of a collective. -/
def elsewhere (u : ArithUnit) (g i : Nat) : Bool :=
  match u with
  | .collective h j => !(h.toNat == g && j.toNat == i)
  | _ => false

/-- Another instance has been combined without a mismatch (DESIGN CHOICE, log entry 121). -/
def State.settleColl (s : State) (g i : Nat) : State := s.settleWork fun u _ => elsewhere u g i

/-- Whether two mismatches of one unit are on work served again: of one chunk, or of a unit whose work the job serves
again. -/
def sameWork (a b : ArithUnit) : Bool :=
  match a with
  | .riffler _ => a == b
  | _ => true

/-- A mismatch in a unit other than an array, on some work (R315, R323, R324): a second with the same signature while the
first is PENDING is a reproduction, PERMANENT; a third within 72 h is PERMANENT; else the fault is filed PENDING until its
work has been served again. The flag says whether it was a reproduction. -/
def State.unitFault (s : State) (k : ArithUnit) (r : FRec) : Bool × State :=
  let mine (x : ArithUnit × BitVec 32 × BitVec 32) : Bool := sameWork k x.1 && x.2.1 == r.unit
  let again := s.arithPend.any fun x => mine x && x.2.2 == r.sig
  let s := if again then { s with arithPend := s.arithPend.filter fun x => !(mine x && x.2.2 == r.sig) }
    else s.settleWork fun j u => sameWork k j && u == r.unit
  let s := s.occur r
  (again,
   if again then s.settleFault { r with replay := true } true true
   else if s.third r then s.filePermanent r false
   else ({ s with arithPend := s.arithPend ++ [(k, r.unit, r.sig)] } : State).fileLimited { r with disp := 0 })

end Sys2Proof.Machine
end

