-- ==== Sys2Proof/Machine/Operands.lean ====
section
/-! DEFINITION. Operand forms: the fields of every instruction word (R96, R101 to R117, R135 to R150), which
instructions are legal (R98, R99), the tile and accumulator registers each reads and writes (R91), and the fields of
stream descriptors (R143, R144, R178, R179), collective descriptors (R147) and command headers (R152). -/
namespace Sys2Proof.Machine

/-- The 64-bit base word of an opcode and its other bits (R96). -/
def mkWord (opc : Nat) (w : BitVec 56) : BitVec 64 := BitVec.ofNat 8 opc ++ w

/-- One bit of a word as a Bool. -/
def bit64 (w : BitVec 64) (i : Nat) : Bool := w.getLsbD i

/-- The opcode (R96). -/
def opc (w : BitVec 64) : Nat := bits64 w 63 56

/-! ## Opcodes (R97, R128) -/

def opTMAC : Nat := 0x10
def opTMAC2 : Nat := 0x11
def opACCLD : Nat := 0x20
def opACCST : Nat := 0x21
def opTQNT : Nat := 0x30
def opLPSAMP : Nat := 0x38
def opVADD : Nat := 0x40
def opVSUB : Nat := 0x41
def opVMUL : Nat := 0x42
def opVMAX : Nat := 0x43
def opVMIN : Nat := 0x44
def opVCVT : Nat := 0x45
def opVTRN : Nat := 0x46
def opVEXP : Nat := 0x48
def opVRELU : Nat := 0x49
def opVGELU : Nat := 0x4A
def opVSILU : Nat := 0x4B
def opVTANH : Nat := 0x4C
def opVSIGM : Nat := 0x4D
def opVRCP : Nat := 0x4E
def opVRSQ : Nat := 0x4F
def opVRSUM : Nat := 0x50
def opVRMAX : Nat := 0x51
def opVCSUM : Nat := 0x52
def opVAMAX : Nat := 0x53

/-- Whether a format code is 8-bit as an array operand (R100). -/
def fmt8 (f : Nat) : Bool := decide (2 ≤ f) && decide (f ≤ 6)

/-- Whether a format code is tensor-scaled (R100). -/
def fmtTs (f : Nat) : Bool := f == 2 || f == 3

/-- Whether a format code is MXFP8 (R100). -/
def fmtMx (f : Nat) : Bool := f == 4 || f == 5

/-! ## TMAC and TMAC2 fields (R101, R104) -/

def tmOW (w : BitVec 64) : Bool := bit64 w 53
def tmXF (w : BitVec 64) : Bool := bit64 w 52
def tmTRA (w : BitVec 64) : Bool := bit64 w 51
def tmTRB (w : BitVec 64) : Bool := bit64 w 50
def tmCA (w : BitVec 64) : Bool := bit64 w 49
def tmCB (w : BitVec 64) : Bool := bit64 w 48
def tmFMTA (w : BitVec 64) : Nat := bits64 w 47 45
def tmFMTB (w : BitVec 64) : Nat := bits64 w 44 42
def tmACC (w : BitVec 64) : Nat := bits64 w 41 39
def tmTA (w : BitVec 64) : Nat := bits64 w 38 33
def tmTB (w : BitVec 64) : Nat := bits64 w 32 27
def tmLA (w : BitVec 64) : Nat := bits64 w 26 24
def tmLB (w : BitVec 64) : Nat := bits64 w 23 21
def tmHSEL (w : BitVec 64) : Nat := bits64 w 20 19
def tmREP (w : BitVec 64) : Nat := bits64 w 18 8

/-- Whether a TMAC is of the 8-bit class (R58). -/
def tmEight (w : BitVec 64) : Bool := fmt8 (tmFMTA w) && fmt8 (tmFMTB w)

/-- The ring register of pair `i` (R102): under HSEL 2 an 8-bit operand of the 16-bit class advances every second pair. -/
def ringReg (w : BitVec 64) (fmt base len i : Nat) : Nat :=
  base + (if !tmEight w && tmHSEL w == 2 && fmt8 fmt then i / 2 else i) % 2 ^ len

def tmRegA (w : BitVec 64) (i : Nat) : Nat := ringReg w (tmFMTA w) (tmTA w) (tmLA w) i
def tmRegB (w : BitVec 64) (i : Nat) : Nat := ringReg w (tmFMTB w) (tmTB w) (tmLB w) i

/-- The half an 8-bit operand of the 16-bit class supplies in pair `i` (R102). -/
def tmHalf (w : BitVec 64) (i : Nat) : Nat := if tmHSEL w = 2 then i % 2 else tmHSEL w

/-- Whether a ring register of an operand is consumed after pair `i`: under HSEL 2, after its second half (R102). -/
def ringDone (w : BitVec 64) (fmt i : Nat) : Bool := !(!tmEight w && tmHSEL w == 2 && fmt8 fmt) || i % 2 == 1

def t2OWA (w : BitVec 64) : Bool := bit64 w 53
def t2OWB (w : BitVec 64) : Bool := bit64 w 52
def t2TRW (w : BitVec 64) : Bool := bit64 w 51
def t2TRX (w : BitVec 64) : Bool := bit64 w 50
def t2CDY (w : BitVec 64) : Bool := bit64 w 49
def t2CW (w : BitVec 64) : Bool := bit64 w 48
def t2CX (w : BitVec 64) : Bool := bit64 w 47
def t2FMTW (w : BitVec 64) : Nat := bits64 w 46 44
def t2FMTX (w : BitVec 64) : Nat := bits64 w 43 41
def t2HSW (w : BitVec 64) : Nat := bits64 w 40 40
def t2HSX (w : BitVec 64) : Nat := bits64 w 39 39
def t2ACA (w : BitVec 64) : Nat := bits64 w 38 37
def t2ACB (w : BitVec 64) : Nat := 4 + bits64 w 36 35
def t2TDY (w : BitVec 64) : Nat := bits64 w 34 29
def t2TW (w : BitVec 64) : Nat := bits64 w 28 23
def t2TX (w : BitVec 64) : Nat := bits64 w 22 17

/-! ## ACCLD, ACCST, TQNT and V-instruction fields (R106, R108, R111, R113) -/

def alMODE (w : BitVec 64) : Nat := bits64 w 53 52
def alCLS (w : BitVec 64) : Bool := bit64 w 51
def alACC (w : BitVec 64) : Nat := bits64 w 50 48
def alTS (w : BitVec 64) : Nat := bits64 w 47 42
def alBROW (w : BitVec 64) : Nat := bits64 w 41 37

def asMODE (w : BitVec 64) : Nat := bits64 w 53 52
def asFMT (w : BitVec 64) : Nat := bits64 w 51 49
def asACC (w : BitVec 64) : Nat := bits64 w 48 46
def asTD (w : BitVec 64) : Nat := bits64 w 45 40
def asSCP (w : BitVec 64) : Bool := bit64 w 39
def asTE (w : BitVec 64) : Bool := bit64 w 38
def asENTRY (w : BitVec 64) : Nat := bits64 w 37 23
def asHALF (w : BitVec 64) : Nat := bits64 w 22 22
def asLS (w : BitVec 64) : Bool := bit64 w 21

def tqFMT (w : BitVec 64) : Nat := bits64 w 53 51
def tqSCP (w : BitVec 64) : Bool := bit64 w 50
def tqTE (w : BitVec 64) : Bool := bit64 w 49
def tqENTRY (w : BitVec 64) : Nat := bits64 w 48 34
def tqTS (w : BitVec 64) : Nat := bits64 w 33 28
def tqTD (w : BitVec 64) : Nat := bits64 w 27 22
def tqHALF (w : BitVec 64) : Nat := bits64 w 21 21
def tqTRS (w : BitVec 64) : Bool := bit64 w 20
def tqCS (w : BitVec 64) : Bool := bit64 w 19
def tqLS (w : BitVec 64) : Bool := bit64 w 18

def vFMT (w : BitVec 64) : Nat := bits64 w 53 51
def vTD (w : BitVec 64) : Nat := bits64 w 50 45
def vTS1 (w : BitVec 64) : Nat := bits64 w 44 39
def vTS2 (w : BitVec 64) : Nat := bits64 w 38 33
def vSS (w : BitVec 64) : Nat := bits64 w 32 28
def vSRC2 (w : BitVec 64) : Nat := bits64 w 27 26
def vCS1 (w : BitVec 64) : Bool := bit64 w 25
def vCS2 (w : BitVec 64) : Bool := bit64 w 24
def vTE (w : BitVec 64) : Bool := bit64 w 23
def vENTRY (w : BitVec 64) : Nat := bits64 w 22 8
def vSCP (w : BitVec 64) : Bool := bit64 w 7
def vHALF (w : BitVec 64) : Nat := bits64 w 6 6
def vLS (w : BitVec 64) : Bool := bit64 w 5

/-- Whether an opcode is a V-instruction (R97). -/
def isV (o : Nat) : Bool := decide (opVADD ≤ o) && decide (o ≤ opVAMAX) && o != 0x47

/-- Whether an opcode is one of the five elementwise operations with a second source (R115). -/
def isV2 (o : Nat) : Bool := decide (opVADD ≤ o) && decide (o ≤ opVMIN)

/-! ## Legality (R98, R99) -/

def extBit (w : BitVec 64) : Bool := bit64 w 55

/-- Legal TMAC (R101, R102). -/
def legalTMAC (w : BitVec 64) : Bool :=
  !extBit w && bits64 w 7 0 == 0 && decide (tmFMTA w ≤ 5) && decide (tmFMTB w ≤ 5) && decide (tmLA w ≤ 5) &&
    decide (tmLB w ≤ 5) && decide (tmTA w + 2 ^ tmLA w ≤ 64) && decide (tmTB w + 2 ^ tmLB w ≤ 64) &&
    decide (tmHSEL w ≤ 2) && (!tmEight w || (decide (tmREP w ≤ 1023) && tmHSEL w == 0))

/-- Legal TMAC2 (R104). -/
def legalTMAC2 (w : BitVec 64) : Bool :=
  !extBit w && bits64 w 16 0 == 0 && decide (t2FMTW w ≤ 5) && decide (t2FMTX w ≤ 5)

/-- Legal ACCLD (R106, R99). -/
def legalACCLD (w x : BitVec 64) : Bool :=
  extBit w == (alMODE w == 3) && bits64 w 36 0 == 0 && (decide (alMODE w ≤ 1) || !alCLS w) &&
    (alMODE w == 0 || alBROW w == 0) && (alMODE w != 2 || alTS w % 8 == 0) && (alMODE w != 3 || alTS w == 0) &&
    (alMODE w != 3 || bits64 x 5 0 == 0)

/-- Legal ACCST (R108, R109, R99). -/
def legalACCST (w x : BitVec 64) : Bool :=
  bits64 w 20 0 == 0 &&
    (if asMODE w = 0 then
      decide (asFMT w ≤ 5) && !(asTE w && extBit w) && !(extBit w && !fmtTs (asFMT w)) &&
        !(asHALF w == 1 && !fmt8 (asFMT w)) && (!extBit w || bits64 x 63 16 == 0)
     else if asMODE w = 1 then false
     else
      asFMT w == 0 && !asTE w && !asSCP w && asHALF w == 0 && !asLS w &&
        (if asMODE w = 2 then !extBit w && asTD w % 8 == 0
         else extBit w && asTD w == 0 && bits64 x 5 0 == 0))

/-- Legal TQNT (R111, R112). -/
def legalTQNT (w x : BitVec 64) : Bool :=
  bits64 w 17 0 == 0 && decide (2 ≤ tqFMT w) && decide (tqFMT w ≤ 5) && !(tqTE w && extBit w) &&
    !((tqTE w || extBit w) && fmtMx (tqFMT w)) && (!extBit w || bits64 x 63 16 == 0)

/-- Legal extension of a V-instruction (R113). -/
def legalVExt (w x : BitVec 64) : Bool :=
  let imm := vSRC2 w == 2
  let sc := fmtTs (vFMT w) && !vTE w
  if extBit w then
    (imm || sc) && bits64 x 63 32 == 0 && (imm || bits64 x 15 0 == 0) && (sc || bits64 x 31 16 == 0)
  else !imm

/-- Legal V-instruction (R113, R115): the second source and the destination formats each mnemonic takes. -/
def legalV (w x : BitVec 64) : Bool :=
  let o := opc w
  bits64 w 4 0 == 0 && decide (vFMT w ≤ 5) && legalVExt w x &&
    (if isV2 o then vSRC2 w != 3
     else vSRC2 w == 3 && (o == opVCVT || decide (vFMT w ≤ 1) || o == opVAMAX) && (o != opVAMAX || vTD w == 0))

/-- Legal LPSAMP (R117). -/
def legalLPSAMP (w : BitVec 64) : Bool := !extBit w && bits64 w 48 48 == 0 && bits64 w 31 0 == 0

/-- Whether a tile instruction is legal. -/
def legalTile (w x : BitVec 64) : Bool :=
  let o := opc w
  if o = opTMAC then legalTMAC w
  else if o = opTMAC2 then legalTMAC2 w
  else if o = opACCLD then legalACCLD w x
  else if o = opACCST then legalACCST w x
  else if o = opTQNT then legalTQNT w x
  else if o = opLPSAMP then legalLPSAMP w
  else isV o && legalV w x

/-! ## Registers read and written (R90 to R93) -/

/-- The queues an instruction enters (R90). -/
def queuesOf (w : BitVec 64) : List Unit3 :=
  let o := opc w
  let of (acc : Nat) : List Unit3 := if acc < 4 then [.a] else [.b]
  if o = opTMAC then of (tmACC w)
  else if o = opTMAC2 then [.a, .b]
  else if o = opACCLD then of (alACC w)
  else if o = opACCST then of (asACC w)
  else if o = opLPSAMP then []
  else [.v]

/-- The tiles an instruction needs FULL to pass the gate and to start: the first pair of a TMAC (R92, R130; DEDUCED, log entry
12). -/
def firstTiles (w : BitVec 64) : List Nat :=
  let o := opc w
  if o = opTMAC then [tmRegA w 0, tmRegB w 0]
  else if o = opTMAC2 then [t2TDY w, t2TW w, t2TX w]
  else if o = opACCLD then
    (if alMODE w ≤ 1 then [alTS w] else if alMODE w = 2 then (List.range 8).map (alTS w + ·) else [])
  else if o = opTQNT then [tqTS w]
  else if isV o then (if vSRC2 w = 0 then [vTS1 w, vTS2 w] else [vTS1 w])
  else []

/-- The tiles an instruction has still to read once `pair` pairs have entered: the ring registers of the pairs that
remain of a TMAC, nothing more of a TMAC2 that has entered, and all its sources of any other (R93). -/
def tilesToRead (w : BitVec 64) (started : Bool) (pair : Nat) : List Nat :=
  if opc w = opTMAC then
    ((List.range (tmREP w + 1 - pair)).map fun j => [tmRegA w (pair + j), tmRegB w (pair + j)]).flatten.eraseDups
  else if opc w = opTMAC2 then (if started then [] else firstTiles w)
  else firstTiles w

/-- The tiles an instruction writes. -/
def tilesWritten (w : BitVec 64) : List Nat :=
  let o := opc w
  if o = opACCST then
    (if asMODE w = 0 then [asTD w] else if asMODE w = 2 then (List.range 8).map (asTD w + ·) else [])
  else if o = opTQNT then [tqTD w]
  else if isV o && o != opVAMAX then [vTD w]
  else []

/-- The accumulators an instruction reads: an add reads the one it writes. -/
def accsRead (w : BitVec 64) : List Nat :=
  let o := opc w
  if o = opACCST then [asACC w]
  else if o = opTMAC ∧ tmOW w = false then [tmACC w]
  else if o = opTMAC2 then (if t2OWA w then [] else [t2ACA w]) ++ (if t2OWB w then [] else [t2ACB w])
  else []

/-- The accumulators an instruction writes. -/
def accsWritten (w : BitVec 64) : List Nat :=
  let o := opc w
  if o = opTMAC then [tmACC w]
  else if o = opTMAC2 then [t2ACA w, t2ACB w]
  else if o = opACCLD then [alACC w]
  else []

/-- The scalar register a VAMAX writes (R94). -/
def scalarWritten (w : BitVec 64) : Option Nat := if opc w = opVAMAX then some (vSS w) else none

/-! ## Scalar and control fields (R135, R137, R138, R141, R142, R150) -/

def scRD (w : BitVec 64) : Nat := bits64 w 53 49
def scRA (w : BitVec 64) : Nat := bits64 w 48 44
def scRB (w : BitVec 64) : Nat := bits64 w 43 39
def scI (w : BitVec 64) : Bool := bit64 w 38
def scZ (w : BitVec 64) : Bool := bit64 w 37
def scIMM (w : BitVec 64) : BitVec 32 := w.truncate 32

/-- Legal scalar arithmetic word (R135, R136). -/
def legalScalar (w : BitVec 64) : Bool :=
  !extBit w && bits64 w 36 32 == 0 && (if scI w then scRB w == 0 else scIMM w == 0)

/-- Legal LDS or STS word, less its offset (R136). -/
def legalLdSt (w : BitVec 64) (st : Bool) : Bool :=
  !extBit w && bits64 w 36 32 == 0 && scI w && (if st then scRD w == 0 else scRB w == 0)

def brCOND (w : BitVec 64) : Nat := bits64 w 53 50
def brRA (w : BitVec 64) : Nat := bits64 w 49 45
def brRB (w : BitVec 64) : Nat := bits64 w 44 40
def brOFS (w : BitVec 64) : Int := signed 24 (bits64 w 23 0)

/-- Legal BR (R137). -/
def legalBR (w : BitVec 64) : Bool := !extBit w && bits64 w 39 24 == 0 && decide (brCOND w ≤ 6)
/-- Legal LOOP (R137): COND and RB are 0. -/
def legalLOOP (w : BitVec 64) : Bool := !extBit w && bits64 w 39 24 == 0 && brCOND w == 0 && brRB w == 0
/-- Legal END (R137): every field but OPC and FENCE is 0. -/
def legalEND (w : BitVec 64) : Bool := !extBit w && bits64 w 53 0 == 0

def sgLOCAL (w : BitVec 64) : Bool := bit64 w 53
def sgDIE (w : BitVec 64) : Nat := bits64 w 52 51
def sgCLU (w : BitVec 64) : Nat := bits64 w 50 46
def sgSEM (w : BitVec 64) : Nat := bits64 w 45 38
def sgN (w : BitVec 64) : Nat := bits64 w 15 0

/-- Legal SSIG (R138). -/
def legalSSIG (w : BitVec 64) : Bool :=
  !extBit w && bits64 w 37 16 == 0 && sgN w != 0 && decide (sgCLU w ≤ 23) &&
    !(sgLOCAL w && (sgDIE w != 0 || sgCLU w != 0))
/-- Legal SWAIT (R138). -/
def legalSWAIT (w : BitVec 64) : Bool := !extBit w && bits64 w 53 46 == 0 && bits64 w 37 16 == 0 && sgN w != 0

def brrSCOPE (w : BitVec 64) : Nat := bits64 w 53 52
def brrBID (w : BitVec 64) : Nat := bits64 w 51 44
def brrCOUNT (w : BitVec 64) : Nat := bits64 w 43 31 + 1
/-- Legal BAR (R141). -/
def legalBAR (w : BitVec 64) : Bool := !extBit w && bits64 w 30 0 == 0

def stRS (w : BitVec 64) : Nat := bits64 w 53 49
/-- Legal SFETCH or SSTORE word, less its descriptor (R142). -/
def legalStream (w : BitVec 64) : Bool := !extBit w && bits64 w 48 0 == 0 && decide (stRS w ≤ 22)
def sdCOUNT (w : BitVec 64) : Nat := bits64 w 53 44 + 1
/-- Legal SDESC word, less the package its array lies in (R142, R99). -/
def legalSDESC (w x : BitVec 64) : Bool := extBit w && bits64 w 43 0 == 0 && bits64 x 5 0 == 0
/-- Legal collective word (R147, R99). -/
def legalColl (w x : BitVec 64) : Bool := extBit w && bits64 w 53 0 == 0 && bits64 x 5 0 == 0
def tcRI (w : BitVec 64) : Nat := bits64 w 53 49
def tcRD (w : BitVec 64) : Nat := bits64 w 48 44
def legalTRET (w : BitVec 64) : Bool := !extBit w && bits64 w 48 0 == 0
def legalTCAP (w : BitVec 64) : Bool := !extBit w && bits64 w 43 0 == 0

/-! ## Any program word (R97, R98, R128) -/

/-- Whether an opcode is assigned (R97, R128). -/
def assigned (o : Nat) : Bool :=
  [opTMAC, opTMAC2, opACCLD, opACCST, opTQNT, opLPSAMP, 0x8C, 0x8D, 0x90, 0x91, 0x92, 0xA0, 0xA1, 0xA2, 0xB0, 0xB1, 0xB2,
    0xC0, 0xC1, 0xC2, 0xC3, 0xE0, 0xE1].contains o || isV o || (decide (0x80 ≤ o) && decide (o ≤ 0x88))

/-- Whether a program word with its extension is legal, whatever its opcode (R98, R128). -/
def legalWord (w x : BitVec 64) : Bool :=
  let o := opc w
  if !assigned o then false
  else if o < 0x80 then legalTile w x
  else if o ≤ 0x88 then legalScalar w
  else if o ≤ 0x8D then legalLdSt w (o == 0x8D)
  else if o ≤ 0x92 then (if o = 0x90 then legalBR w else if o = 0x91 then legalLOOP w else legalEND w)
  else if o ≤ 0xA2 then (if o = 0xA0 then legalSWAIT w else if o = 0xA1 then legalSSIG w else legalBAR w)
  else if o ≤ 0xB2 then (if o = 0xB2 then legalSDESC w x else legalStream w)
  else if o ≤ 0xC3 then legalColl w x
  else if o = 0xE0 then legalTRET w else legalTCAP w

/-! ## Stream descriptors (R143, R144, R178, R179) -/

/-- The four words of a descriptor. -/
structure Desc where
  d0 : BitVec 64
  d1 : BitVec 64
  d2 : BitVec 64
  d3 : BitVec 64
  deriving DecidableEq, Repr

def Desc.lkind (d : Desc) : Nat := bits64 d.d1 63 62
def Desc.tile (d : Desc) : Nat := bits64 d.d1 61 56
def Desc.rlog (d : Desc) : Nat := bits64 d.d1 55 53
def Desc.sca (d : Desc) : Nat := bits64 d.d1 52 16
def Desc.sbofs (d : Desc) : Nat := bits64 d.d1 15 0
def Desc.stride (d : Desc) : Nat := bits64 d.d2 63 40
def Desc.rows (d : Desc) : Nat := bits64 d.d2 39 27 + 1
def Desc.rlen (d : Desc) : Nat := bits64 d.d2 26 16 + 1
def Desc.store (d : Desc) : Bool := bit64 d.d3 63
def Desc.sig (d : Desc) : Bool := bit64 d.d3 62
def Desc.sem (d : Desc) : Nat := bits64 d.d3 61 54
def Desc.tr (d : Desc) : Bool := bit64 d.d3 53
def Desc.esz (d : Desc) : Nat := bits64 d.d3 52 52
/-- FMT: the tag format a fetched tile takes (R143, R144). A fetch writes the memory's bytes as they are: no field and no rule
selects the stream decode that R36's table names (DESIGN CHOICE, log entry 112). -/
def Desc.fmt (d : Desc) : Nat := bits64 d.d3 51 49
def Desc.scl (d : Desc) : Bool := bit64 d.d3 48
def Desc.shd (d : Desc) : Bool := bit64 d.d3 47
def Desc.cs (d : Desc) : Bool := bit64 d.d3 46

/-- Whether TR, ESZ, FMT and SHD agree (R178, R179). -/
def Desc.shapeOk (d : Desc) : Bool :=
  (if d.tr then !d.store && decide (d.lkind ≤ 1) && !d.shd &&
      ((d.esz == 0 && decide (d.fmt ≤ 1)) || (d.esz == 1 && fmtTs d.fmt))
   else d.esz == 0) &&
  (!d.shd || (!d.store && d.lkind == 0 && decide (2 ≤ d.fmt) && decide (d.fmt ≤ 5)))

/-- A valid descriptor, less its direction (R144). ADDR is 64-byte aligned (R143). A field that the LKIND does not use is 0:
RLOG, SBOFS and TILE as named, and for the staging buffer SCA and CS, which serve tiles (DEDUCED, log entry 111). -/
def Desc.valid (d : Desc) : Bool :=
  bits64 d.d0 5 0 == 0 && bits64 d.d2 15 0 == 0 && bits64 d.d3 45 0 == 0 && d.fmt != 7 && d.shapeOk &&
    (if d.lkind = 0 then d.rows == 32 && d.rlen == 1 && d.rlog == 0 && d.sbofs == 0
     else if d.lkind = 1 then d.rows % 32 == 0 && d.rlen == 1 && decide (d.tile + 2 ^ d.rlog ≤ 64) && d.sbofs == 0
     else if d.lkind = 2 then
       decide (d.sbofs * 64 + d.rows * d.rlen * 64 ≤ 0x400000) && d.tile == 0 && d.rlog == 0 && !d.tr && !d.scl &&
         !d.shd && d.fmt == 0 && d.sca == 0 && !d.cs
     else false)

/-- The number of tiles a tile descriptor fills or reads. -/
def Desc.tiles (d : Desc) : Nat := d.rows / 32

/-- The 64-byte units of one tile: its 32 rows, its side-band under SCL, and 64 rows of copies under SHD (R143, R179). -/
def Desc.per (d : Desc) : Nat := 32 + (if d.scl then 1 else 0) + (if d.shd then 64 else 0)

/-- The 64-byte units a descriptor moves. -/
def Desc.units (d : Desc) : Nat := if d.lkind = 2 then d.rows * d.rlen else d.tiles * d.per

/-- What a unit of a descriptor is: a row of a tile or of the staging buffer, a tile's side-band, or a copy row. -/
inductive UnitKind where
  | row (i : Nat)
  | side (t : Nat)
  | copy (i : Nat)
  deriving DecidableEq, Repr

/-- The kind of unit `i`. Each tile's rows come first, then its side-band, then the copies (DESIGN CHOICE, log entry 22). -/
def Desc.kind (d : Desc) (i : Nat) : UnitKind :=
  if d.lkind = 2 then .row i
  else
    let r := i % d.per
    if r < 32 then .row (32 * (i / d.per) + r)
    else if d.scl = true ∧ r = 32 then .side (i / d.per)
    else .copy (r - (d.per - 64))

/-- The package address, modulo 2^48, of unit `i`: rows of RLEN units STRIDE apart, side-bands consecutive from SCA, the
copies after the tile's rows at the same STRIDE (R143, R179). -/
def Desc.unitAddr (d : Desc) (i : Nat) : Nat :=
  match d.kind i with
  | .row j => (d.d0.toNat % 2 ^ 48 + 64 * (d.stride * (j / d.rlen) + j % d.rlen)) % 2 ^ 48
  | .side t => (64 * (d.sca + t)) % 2 ^ 48
  | .copy j => (d.d0.toNat % 2 ^ 48 + 64 * d.stride * (32 + j)) % 2 ^ 48

/-- The tile register of the descriptor's tile `i` (R144). -/
def Desc.tileReg (d : Desc) (i : Nat) : Nat := d.tile + i % 2 ^ d.rlog

/-! ## Collective descriptors (R147) -/

def cdCOUNT (d2 : BitVec 64) : Nat := bits64 d2 63 32
def cdGROUP (d2 : BitVec 64) : Nat := bits64 d2 31 20
def cdFMT (d2 : BitVec 64) : Nat := bits64 d2 19 16
def cdOP (d2 : BitVec 64) : Nat := bits64 d2 15 12
def cdSIG (d3 : BitVec 64) : Bool := bit64 d3 63
def cdSEM (d3 : BitVec 64) : Nat := bits64 d3 62 55
def cdSTAT (d3 : BitVec 64) : Nat := bits64 d3 41 0 * 64

/-! ## Command headers and payloads (R152, R153) -/

def hdCMD (h : BitVec 64) : Nat := bits64 h 63 56
def hdFENCE (h : BitVec 64) : Bool := bit64 h 55
def hdSYS (h : BitVec 64) : Bool := bit64 h 54
def hdIRQ (h : BitVec 64) : Bool := bit64 h 53
def hdTLIM (h : BitVec 64) : Nat := bits64 h 47 32
def hdSEQ (h : BitVec 64) : BitVec 32 := h.truncate 32

/-- The payload words in order. -/
def payWords (p : Payload) : List (BitVec 64) := [p.w1, p.w2, p.w3, p.w4, p.w5, p.w6, p.w7]

/-- The two 32-bit words of an element pair of scalar registers as one descriptor word (R142). -/
def join32 (lo hi : BitVec 32) : BitVec 64 := hi ++ lo

end Sys2Proof.Machine
end

