-- ==== Sys2Proof/Machine/Flags.lean ====
section
/-! DEFINITION. Completion codes and numeric status: the values of R134, the precedence of R133, the cause codes of
R126, and the updates of NSTAT (R124) and NFAULT (R125) at a completion. -/
namespace Sys2Proof.Machine

/-- The numeric value of a completion code (R134). -/
def Code.val : Code → Nat
  | .done => 0x00
  | .doneInexact => 0x01
  | .doneBeforeAbort => 0x02
  | .aborted => 0x10
  | .poisoned => 0x11
  | .numericFault => 0x12
  | .unitRetired => 0x13
  | .timeout => 0x14
  | .migrated => 0x15

/-- The rank of a code in the order of precedence, highest largest (R133). -/
def Code.rank : Code → Nat
  | .aborted => 7
  | .timeout => 6
  | .unitRetired => 5
  | .numericFault => 4
  | .poisoned => 3
  | .migrated => 2
  | .doneInexact => 1
  | .done => 0
  | .doneBeforeAbort => 0

/-- The combination of two contributions (R122, R133). -/
def Code.max (a b : Code) : Code := if a.rank < b.rank then b else a

/-! ## Cause codes (R126) -/

def causeFORMAT : Nat := 0x01
def causeSCALE : Nat := 0x02
def causeENTRY : Nat := 0x03
def causeENVELOPE : Nat := 0x04
def causeXF : Nat := 0x05
def causeACC : Nat := 0x06
def causeBLOCKDIR : Nat := 0x07
def causeIMAGE : Nat := 0x08
def causeCOMBINE : Nat := 0x09
def causeILLEGAL : Nat := 0x10
def causeABORT : Nat := 0x11

/-! ## Scalar registers (R86) -/

/-- A scalar register of a context; s30 is NFAULT and s31 NSTAT. -/
def Ctx.s (x : Ctx) (r : Nat) : BitVec 32 := Sparse.get (fun _ => 0) x.sreg r

/-- Writes a scalar register. -/
def Ctx.setS (x : Ctx) (r : Nat) (v : BitVec 32) : Ctx := { x with sreg := Sparse.set (fun _ => 0) x.sreg r v }

/-- Bits [hi:lo] of a 32-bit word as a number. -/
def bits32 (w : BitVec 32) (hi lo : Nat) : Nat := w.toNat / 2 ^ lo % 2 ^ (hi + 1 - lo)

/-- What a completion reports beside its code: the sticky bits of R124 and the counts not charged to an entry. -/
structure Num4 where
  elinx : Bool := false
  reanch : Bool := false
  longsum : Bool := false
  nonfin : Bool := false
  sat : Bool := false
  ufl : Bool := false
  nf : Nat := 0
  sc : Nat := 0
  uc : Nat := 0
  deriving DecidableEq, Repr

/-- One sticky bit at its place. -/
def stick (b : Bool) (i : Nat) : BitVec 32 := if b then 1 <<< i else 0

/-- NSTAT after a completion with a code and its numeric report (R124): bits [31:22] are sticky, the counts saturate. -/
def nstatAfter (v : BitVec 32) (c : Code) (m : Num4) : BitVec 32 :=
  let hi := (v &&& 0xFFC00000) ||| stick (c == .numericFault) 31 ||| stick (c == .aborted) 30 |||
    stick (c == .poisoned) 29 ||| stick (c == .doneInexact) 28 ||| stick m.elinx 27 ||| stick m.reanch 26 |||
    stick m.longsum 25 ||| stick m.nonfin 24 ||| stick m.sat 23 ||| stick m.ufl 22
  hi ||| BitVec.ofNat 32 (min 0x3F (bits32 v 21 16 + m.nf) * 2 ^ 16 + min 0xFF (bits32 v 15 8 + m.sc) * 2 ^ 8 +
    min 0xFF (bits32 v 7 0 + m.uc))

/-- NFAULT as a fault writes it (R125). -/
def nfaultOf (cause iofs pairs : Nat) : BitVec 32 :=
  BitVec.ofNat 32 (cause % 32 * 2 ^ 27 + iofs % 2 ^ 15 * 2 ^ 12 + pairs % 2 ^ 12)

/-- NFAULT after a completion with NUMERIC_FAULT or ABORTED: written only while CAUSE is 0 (R125). -/
def nfaultAfter (v : BitVec 32) (cause iofs pairs : Nat) : BitVec 32 :=
  if v.toNat / 2 ^ 27 = 0 then nfaultOf cause iofs pairs else v

/-- A stopped task issues nothing more (R123): its context is in DRAIN, at once unless an issued SWAIT, BAR or LDS still
holds it in WAIT (R129). -/
def Ctx.stop (x : Ctx) : Ctx :=
  if x.st = .wait ∧ (x.why = 1 ∨ x.why = 2 ∨ x.why = 6) then { x with stopped := true }
  else { x with st := .drain, stopped := true, why := 0, wid := 0, miss := [] }

/-- A context leaves WAIT or LATE: to RUN, or to DRAIN once its task has stopped (R129). -/
def Ctx.resume (x : Ctx) : Ctx :=
  { x with st := if x.stopped then .drain else .run, why := 0, wid := 0, miss := [] }

/-- A context enters WAIT for a reason and id (R129, R165). -/
def Ctx.wait (x : Ctx) (why wid : Nat) (now : BitVec 64) : Ctx :=
  { x with st := .wait, why := why, wid := wid, since := now, miss := [] }

/-- A context after one of its instructions completes (R120 to R125, R133): NSTAT, NFAULT and the task's code take the
completion, and a NUMERIC_FAULT or ABORTED stops the task (R123, R129). -/
def Ctx.complete (x : Ctx) (c : Code) (m : Num4) (cause iofs pairs : Nat) : Ctx :=
  let x := x.setS 31 (nstatAfter (x.s 31) c m)
  let x := { x with code := x.code.max c }
  if c = .numericFault ∨ c = .aborted then
    let x := x.setS 30 (nfaultAfter (x.s 30) cause iofs pairs)
    x.stop
  else x

/-- A context that met an illegal instruction: it completes with ABORTED, cause ILLEGAL (R98). -/
def Ctx.illegal (x : Ctx) : Ctx := x.complete .aborted {} causeILLEGAL x.pc 0

end Sys2Proof.Machine
end

