-- ==== Sys2Proof/Machine/Link.lean ====
section
/-! DEFINITION. The Waipol link layer as every sender uses it (R231 to R236), routes (R246, R247) and remote
transactions (R23, R233). -/
namespace Sys2Proof.Machine

/-- The virtual channel of a message (R233, R255). -/
def Msg.vc : Msg → Nat
  | .req _ _ _ => 0
  | .rsp _ _ _ => 1
  | .up _ | .withdraw _ _ => 2
  | .down _ => 3
  | .stat x => if x.down then 3 else 2
  | .bar _ _ => 4
  | .time _ _ | .adjust _ _ => 5
  | .hello _ | .management _ | .idle _ => 6
  | .key _ => 7

/-- A 576-bit field as words. -/
def words576 (n : Nat) : List (BitVec 32) := (List.range 18).map fun i => BitVec.ofNat 32 (n / 2 ^ (32 * i))

/-- The data words that follow a message's slot; a statistics slot's are its sum (R255; DESIGN CHOICE, log entry 23). -/
def Msg.words : Msg → List MWord
  | .req _ _ d => d
  | .rsp _ _ d => d
  | .up c => c.data
  | .down c => c.data
  | .stat x => (words576 x.sum.toNat).map fun v => ⟨v, false⟩
  | _ => []

/-- The data words one flit carries (R232, R238). -/
def flitWords (enc poison : Bool) : Nat :=
  match enc, poison with
  | false, false => 61
  | false, true => 59
  | true, false => 59
  | true, true => 57

/-- The data flits a run of words takes, each with P set only when a word of it is poisoned (R232), and the words of the last
one when it is not full. -/
def packFlits (enc : Bool) : Nat → List MWord → Nat × List MWord
  | 0, _ => (0, [])
  | k + 1, ws =>
    if ws = [] then (0, [])
    else
      let n := flitWords enc ((ws.take (flitWords enc false)).any (·.p))
      if ws.length < n then (1, ws)
      else
        let (m, t) := packFlits enc k (ws.drop n)
        (m + 1, t)

/-- The flits a message takes after the words `tail` of a data flit that has room, and the words of the last flit it
leaves so: one control flit, and data flits that follow the earlier message's without a gap (R232, R233; DESIGN CHOICE,
log entry 20). -/
def Msg.flitsAfter (enc : Bool) (tail : List MWord) (m : Msg) : Nat × List MWord :=
  let ws := tail ++ m.words
  let (n, t) := packFlits enc (ws.length + 1) ws
  (1 + n - (if tail = [] then 0 else 1), t)

/-- The flits a message takes by itself. -/
def Msg.flits (enc : Bool) (m : Msg) : Nat := (m.flitsAfter enc []).1

/-- Whether a port is ACTIVE (R242, R249). -/
def State.active (s : State) (p : Nat) : Bool := s.fget (F.WPL_STATUS_STATE p) == 3

/-- Whether a port carries a virtual channel now: all in ACTIVE; VC 6 and 7 in DISCOVERY, FENCED and QUARANTINED; none
while it trains (R236, R242). With encryption in effect the other channels wait for the port's key (R238, R365). -/
def State.carries (s : State) (p vc : Nat) : Bool :=
  let st := s.fget (F.WPL_STATUS_STATE p)
  let x := s.port p
  !x.training && ((st == 3 && (decide (6 ≤ vc) || !x.enc || x.keyed)) ||
    (decide (6 ≤ vc) && (st == 2 || st == 4 || st == 5)))

/-- Sequence numbers from `n` on, one for each flit (R231: modulo 1,024); the first holds the message. -/
def seqs (n : Nat) (vc : Nat) (m : Option (BitVec 16 × Msg)) : Nat → List (Nat × Nat × Option (BitVec 16 × Msg))
  | 0 => []
  | k + 1 => (n % 1024, vc, m) :: seqs (n + 1) vc none k

/-- Sends what a port may send: message by message, each VC in order and none waiting on another (R234), while it has
the credits and the retry buffer has room (R235). `tails` are the words of each VC's data flit that has room. A protected flit
counts for the IV (R238). -/
def State.pumpGo (s : State) (p : Nat) (tails : List (Nat × List MWord)) :
    List (BitVec 16 × Msg) → List Nat → List (BitVec 16 × Msg) → State
  | [], _, kept => s.modPort p fun x => { x with outq := kept.reverse }
  | m :: ms, shut, kept =>
    let x := s.port p
    let v := m.2.vc
    let enc := x.enc && decide (v < 6)
    let (n, tail) := m.2.flitsAfter enc ((lookup tails v).getD [])
    if shut.contains v || !s.carries p v || decide (x.credits.getD v 0 < n) || decide (64 < x.retry.length + n) then
      s.pumpGo p tails ms (v :: shut) (m :: kept)
    else
      let y := { x with credits := x.credits.set v (x.credits.getD v 0 - n),
                        retry := x.retry ++ seqs x.txSeq v (some m) n, txSeq := (x.txSeq + n) % 1024,
                        iv := if enc then x.iv + BitVec.ofNat 64 n else x.iv }
      ({ (s.setPort p y) with sent := s.sent ++ [(p, m.2)] } : State).pumpGo p (upsert tails v tail) ms shut kept

def State.pump (s : State) (p : Nat) : State := s.pumpGo p [] (s.port p).outq [] []

/-- Hands a message for a package to a port. -/
def State.postTo (s : State) (p : Nat) (dst : BitVec 16) (m : Msg) : State :=
  (s.modPort p fun x => { x with outq := x.outq ++ [(dst, m)] }).pump p

/-- Hands a message to a port for its neighbour: it goes by no other port. -/
def State.post (s : State) (p : Nat) (m : Msg) : State := s.postTo p 0xFFFF m

/-! ## Flits taken (R231, R234, R235) -/

/-- The header of an idle flit (R231): an acknowledgement or NAK of the last good SEQ, and credits returned. -/
def idleHeader (ack : Nat) (nak : Bool) (cvc cred : Nat) : BitVec 64 :=
  BitVec.ofNat 64 (ack % 1024 * 2 ^ 38 + 2 ^ 37 + (if nak then 2 ^ 36 else 0) + cvc % 8 * 2 ^ 33 + cred % 64 * 2 ^ 27)

/-- Sends an idle flit (R231). -/
def State.sendIdle (s : State) (p : Nat) (nak : Bool) (cvc cred : Nat) : State :=
  { s with sent := s.sent ++ [(p, .idle (idleHeader (s.port p).rxSeq nak cvc cred))] }

/-- Takes `n` flits of a virtual channel in SEQ order: they are acknowledged and, their buffers being free again, their
credits returned (R234, R235; DESIGN CHOICE, log entry 20). -/
def State.takeFlits (s : State) (p vc n : Nat) : State :=
  (s.modPort p fun x => { x with rxSeq := (x.rxSeq + n) % 1024, discard := false }).sendIdle p false vc n

/-! ## Routes (R246) -/

/-- Whether a DISABLE has taken a function from new work (R153, R163). -/
def State.fnOff (s : State) (kind die idx : Nat) : Bool := s.disabled.contains (kind, die, idx)

/-- The ACTIVE port that serves a role; a disabled port takes no new work (R163; DEDUCED, log entry 31). -/
def State.portOf (s : State) (role : Nat) : Option Nat :=
  (List.range 12).find? fun p => s.active p && !s.fnOff 3 0 p && s.fget (F.WPL_STATUS_ROLE p) == role

/-- The ACTIVE port of a rack switch plane: its own uplink, else P11 when its peer's hello names the plane. -/
def State.planePort (s : State) (k : Nat) : Option Nat :=
  match s.portOf (7 + k) with
  | some p => some p
  | none => match s.portOf 11 with
    | some p => if s.fget (F.WPL_PEER_ID_RID p) % 16 = k then some p else none
    | none => none

/-- The role of the port towards another slot of the tray (R227). -/
def trayRole (own target : Nat) : Nat := (target % 8 + 8 - own % 8 - 1) % 8

/-- The route to a package for an address (R246). -/
def State.route (s : State) (pkg : BitVec 16) (a : Nat) : Option Nat :=
  let own := s.pkgId.toNat
  let t := pkg.toNat
  if t / 8 = own / 8 then s.portOf (trayRole own t)
  else
    let k := (t ^^^ (a / 0x1000 % 0x10000)) % 4
    [0, 1, 2, 3].findSome? fun j => s.planePort ((k + j) % 4)

/-- Whether discovery has taught a package id (R23): a neighbour's hello named it, or it lies in another tray and a rack
switch has been heard (DEDUCED, log entry 21). Rack 511 never is. -/
def State.learned (s : State) (pkg : BitVec 16) : Bool :=
  s.flag F.PLN_PKG_ID_VALID && decide (pkg.toNat / 128 ≠ 511) &&
    (List.range 12).any fun p => match (s.port p).lastHello with
      | some h => (h.kind == 0 && h.id == pkg) || (h.kind == 1 && decide (pkg.toNat / 8 ≠ s.pkgId.toNat / 8))
      | none => false

/-- The port by which a message of another package comes: it answers to the route towards this package (R227, R246). -/
def State.portFrom (s : State) (src : BitVec 16) : Option Nat :=
  let own := s.pkgId.toNat
  let t := src.toNat
  if t / 8 = own / 8 then s.portOf (trayRole own t)
  else [0, 1, 2, 3].findSome? fun j => s.planePort ((own + j) % 4)

/-- Takes a message of another package, its control flit and its data flits (R231, R235). -/
def State.took (s : State) (src : BitVec 16) (m : Msg) : State :=
  match s.portFrom src with
  | some p => s.takeFlits p m.vc (m.flits ((s.port p).enc && decide (m.vc < 6)))
  | none => s

/-- Sends a message towards a package; with no route it waits (R247). -/
def State.toPkg (s : State) (pkg : BitVec 16) (m : Msg) : State :=
  match s.route pkg 0 with
  | some p => s.postTo p pkg m
  | none => { s with noRoute := s.noRoute ++ [(pkg, m)] }

/-! ## Remote transactions (R233, R247) -/

/-- The request slot of a transaction. -/
def RTx.slotOf (r : RTx) (own : BitVec 16) : ReqSlot :=
  ⟨0, BitVec.ofNat 8 (r.units - 1), own, BitVec.ofNat 16 r.tag, r.addr⟩

/-- The port a transaction goes by now; none while it has no route, in L4 and in RETENTION (R246, R305, R306). -/
def State.txPort (s : State) (r : RTx) : Option Nat :=
  if s.power.l4 || decide (2 ≤ s.fget F.DIA_PSTATE_STATE) then none
  else s.route (r.addr >>> 48 |>.truncate 16) (r.addr.toNat % 2 ^ 48)

/-- Sends a transaction on the route it has now, or leaves it waiting for one. -/
def State.issueTx (s : State) (r : RTx) : RTx × State :=
  match s.txPort r with
  | some p => ({ r with port := some p }, s.post p (.req r.wr (r.slotOf s.pkgId) r.data))
  | none => ({ r with port := none }, s)

/-- Opens a transaction with the next tag not outstanding. -/
def State.ask (s : State) (r : RTx) : State :=
  let tag := ((List.range 0x10000).find? fun i => s.rtx.all fun q => q.tag != (s.nextTag + i) % 0x10000).getD 0
  let tag := (s.nextTag + tag) % 0x10000
  let (r, s) := { s with nextTag := (tag + 1) % 0x10000 }.issueTx { r with tag := tag }
  { s with rtx := s.rtx ++ [r] }

/-- Puts messages at the head of a port's queue. -/
def State.ahead (s : State) (p : Nat) (ms : List Msg) : State :=
  if ms = [] then s
  else (s.modPort p fun x => { x with outq := (ms.map fun m => ((0xFFFF : BitVec 16), m)) ++ x.outq }).pump p

/-- Whether the port a transaction went by still serves it. -/
def State.onItsWay (s : State) (r : RTx) : Bool :=
  match r.port with
  | some p => s.active p
  | none => false

/-- After a port has changed state (R247): transactions whose port is no longer ACTIVE are issued again in their
original order, ahead of newer ones, and messages without a route go on once they have one. -/
def State.reroute (s : State) : State :=
  let again := s.rtx.filter fun r => !s.onItsWay r
  let t := (List.range 12).foldl (fun t p => t.ahead p ((again.filter fun r => s.txPort r == some p).map fun r =>
    .req r.wr (r.slotOf s.pkgId) r.data)) s
  s.noRoute.foldl (fun s q => s.toPkg q.1 q.2)
    { t with rtx := s.rtx.map (fun r => if s.onItsWay r then r else { r with port := s.txPort r }), noRoute := [] }

/-- Writes a port's state, with its bits of WPL_DISC_STATUS (R248, R249). -/
def State.setPortState (s : State) (p st : Nat) : State :=
  let put (f : Fld) (b : Bool) (s : State) : State :=
    s.fset f (((BitVec.ofNat 12 (s.fget f) &&& ~~~(1#12 <<< p)) ||| (if b then 1#12 <<< p else 0)).toNat)
  put F.WPL_DISC_STATUS_QUAR (st == 5) (put F.WPL_DISC_STATUS_ACTIVE (st == 3) (s.fset (F.WPL_STATUS_STATE p) st))

/-- The messages a port that leaves ACTIVE has not had acknowledged, and that another route may take (R247, R260). -/
def Port.unsent (x : Port) : List (BitVec 16 × Msg) :=
  (x.retry.filterMap (·.2.2) ++ x.outq).filter fun m => m.1 != 0xFFFF && decide (2 ≤ m.2.vc)

/-- A port goes to a state. When it leaves ACTIVE (R247, R260), requests and responses it still holds are not sent by it,
its transactions are issued again, and its collective, barrier and time slots not acknowledged take the new route. -/
def State.leaveActive (s : State) (p st : Nat) : State :=
  let was := s.active p
  let s := s.setPortState p st
  if was then
    let again := (s.port p).unsent
    let s := (s.modPort p fun x => { x with outq := x.outq.filter fun m => decide (6 ≤ m.2.vc), part := [] }).reroute
    again.foldl (fun s m => s.toPkg m.1 m.2) s
  else s

end Sys2Proof.Machine
end

