-- ==== Sys2Proof/Machine/Paths.lean ====
section
/-! DEFINITION. The on-package paths (R14, R15, R17, R18): the die-to-die edges that traffic between two chips crosses while
all edges are open, the detours round CLOSED edges, and what waits for an edge. -/
namespace Sys2Proof.Machine

/-- Whether an edge can carry traffic: it is not CLOSED (R16, R17). Before training, DOWN, the start-up order keeps traffic
away (R352). -/
def State.edgeOpen (s : State) (e : Nat) : Bool := s.fget (F.PLN_EDGE_STATUS_STATE e) != 3

/-- The ring edge between two neighbouring dies (R13). -/
def ringEdge (a b : Nat) : Nat := if (a + 1) % 4 = b % 4 then a % 4 else b % 4

/-- The spoke of a die (R13). -/
def spoke (d : Nat) : Nat := 4 + d % 4

/-- The two ring neighbours of a die, the lower-numbered first. -/
def ringOf (d : Nat) : Nat × Nat := (min ((d + 1) % 4) ((d + 3) % 4), max ((d + 1) % 4) ((d + 3) % 4))

/-- The first path of a list whose edges are all open. -/
def State.firstOpen (s : State) (ps : List (List Nat)) : Option (List Nat) := ps.find? fun p => p.all s.edgeOpen

/-- The paths from a die to Plinth in the order they are tried (R14, R17): its own spoke; a ring edge to the lower-numbered
neighbour, then the higher, and that neighbour's spoke; last, longer ways over the ring, which no rule names (DESIGN CHOICE,
log entry 110). -/
def toPlinth (d : Nat) : List (List Nat) :=
  let (m, n) := ringOf d
  let o := (d + 2) % 4
  [[spoke d], [ringEdge d m, spoke m], [ringEdge d n, spoke n], [ringEdge d m, ringEdge m o, spoke o],
   [ringEdge d n, ringEdge n o, spoke o], [ringEdge d m, ringEdge m o, ringEdge o n, spoke n],
   [ringEdge d n, ringEdge n o, ringEdge o m, spoke m]]

/-- The detours between two dies through Plinth: both spokes first (R17); the others no rule names (DESIGN CHOICE, log entry
110). -/
def viaPlinth (a b : Nat) : List (List Nat) := (toPlinth a).flatMap fun p => (toPlinth b).map fun q => p ++ q.reverse

/-- The paths between two dies for a target address, in the order they are tried (R14, R17): the ring edge between
neighbours, else both spokes; between diagonal dies the intermediate die that bit 12 of the address selects, else the
other. -/
def dieToDie (a b addr : Nat) : List (List Nat) :=
  if a % 4 = b % 4 then [[]]
  else if (a + 2) % 4 = b % 4 then
    let (m, n) := ringOf a
    let via (k : Nat) : List Nat := [ringEdge a k, ringEdge k b]
    (if addr / 0x1000 % 2 = 0 then [via m, via n] else [via n, via m]) ++ viaPlinth a b
  else [ringEdge a b] :: viaPlinth a b

/-- The path of die `d`'s traffic to what a package address names: its own memory needs no edge (R14, R17); none when no
path is open. The register window and refused addresses lie at Plinth. -/
def State.path (s : State) (d a : Nat) : Option (List Nat) :=
  match s.locate a with
  | .hbm st _ _ => s.firstOpen (dieToDie d (st / 4) a)
  | .scratch k _ => s.firstOpen (dieToDie d k a)
  | .slow dv _ _ => s.firstOpen ((toPlinth d).map fun p => p ++ [8 + dv / 2])
  | .regs _ | .err _ => s.firstOpen (toPlinth d)

/-- The path of die `d`'s traffic to Plinth, a Waipol port or the host port (R14, R17). -/
def State.plinthPath (s : State) (d : Nat) : Option (List Nat) := s.firstOpen (toPlinth d)

/-- The path of traffic from Plinth, or from a Riffler through it, to what a package address names (R14, R17). -/
def State.pathIn (s : State) (from_ : Option Nat) (a : Nat) : Option (List Nat) :=
  let out : List Nat := match from_ with
    | none => []
    | some n => [8 + n]
  match s.locate a with
  | .hbm st _ _ => s.firstOpen ((toPlinth (st / 4)).map fun p => out ++ p.reverse)
  | .scratch k _ => s.firstOpen ((toPlinth k).map fun p => out ++ p.reverse)
  | .slow dv _ _ => s.firstOpen [out ++ (if from_ = some (dv / 2) then [] else [8 + dv / 2])]
  | .regs _ | .err _ => s.firstOpen [out]

/-- The path an access of engine `e` takes: within the package that of its address, to another package that of Plinth. -/
def State.enginePath (s : State) (e : Nat) (own : Bool) (a : Nat) : Option (List Nat) :=
  if own then s.path (e / 408) a else s.plinthPath (e / 408)

/-- Whether an access of engine `e` waits for an edge of its path that is retraining (R18, R339). -/
def State.edgeWaits (s : State) (e : Nat) (own : Bool) (a : Nat) : Bool :=
  match s.enginePath e own a with
  | some p => p.any s.modWait.contains
  | none => false

/-- Whether a location lies beyond every open path (R17, R18): a quarantined die, or the devices behind a CLOSED Riffler
edge. -/
def State.cutOff (s : State) (e : Nat) (own : Bool) (a : Nat) : Bool :=
  (s.enginePath e own a).isNone || (own && (match s.locate a with
    | .err k => k == 2
    | _ => false))

end Sys2Proof.Machine
end

