-- ==== Sys2Proof/Machine/Idle.lean ====
section
/-! DEFINITION. Transfer slots as their engines see them: HELD and ACTIVE (R181), requests to other packages, stall causes
(R183); and the idle time of engines by cause (R275): an engine's idle interval is charged, to the first cause that
applies, when it ends or when a context changes its wait. -/
namespace Sys2Proof.Machine

/-- The tag key of tile `t` of engine `e`. -/
def tk (e t : Nat) : Nat := 64 * e + t

/-- Whether tile `t` of engine `e` is FULL (R93). -/
def State.full (s : State) (e t : Nat) : Bool := (s.tag (tk e t)).full

/-- Sets or clears a tile's FULL bit. -/
def State.setFull (s : State) (e t : Nat) (b : Bool) : State := s.setTag (tk e t) { s.tag (tk e t) with full := b }

/-- The key of transfer slot `n` of logical slot `l`. -/
def xk (l n : Nat) : Nat := 6 * l + n

/-- The descriptor a transfer slot holds. -/
def Xfer.desc (x : Xfer) : Desc := ⟨x.d0, x.d1, x.d2, x.d3⟩

/-- The package id of a global address (R22). -/
def pkgOf (a : BitVec 64) : BitVec 16 := (a >>> 48).truncate 16

/-- The global address of unit `i` of a descriptor's transfer: side-bands lie in ADDR's package (R143). -/
def Xfer.gaddr (x : Xfer) (i : Nat) : BitVec 64 := pkgOf x.d0 ++ BitVec.ofNat 48 (x.desc.unitAddr i)

/-- How many units a slot moves: 257 for a saved-image load (R64). -/
def Xfer.total (x : Xfer) : Nat := if x.acc.isSome then 257 else x.desc.units

/-- Whether a transfer's memory side is this package. -/
def State.local (s : State) (x : Xfer) : Bool := s.own (pkgOf x.d0)

/-- The address of unit `i`, for an image load or a descriptor. -/
def Xfer.at (x : Xfer) (i : Nat) : BitVec 64 := if x.acc.isSome then x.d0 + BitVec.ofNat 64 (64 * i) else x.gaddr i

/-- Whether the next unit of a slot finds its tile not ready (R93, R181): a fetch's next tile is FULL, a store's source tile
is not. -/
def State.notReady (s : State) (e : Nat) (x : Xfer) : Bool :=
  let d := x.desc
  x.acc.isNone && d.lkind != 2 && decide (x.unit < x.total) &&
    (if d.store then !s.full e (d.tileReg (x.unit / d.per))
     else x.unit % d.per == 0 && s.full e (d.tileReg (x.unit / d.per)))

/-- The state R181 gives a slot that is neither FREE nor STALLED: HELD while its tile is not ready, else ACTIVE. -/
def State.heldNow (s : State) (e : Nat) (x : Xfer) : Xfer :=
  if x.st = .active ∨ x.st = .held then { x with st := if s.notReady e x then .held else .active } else x

/-- Brings the six slots of an engine to ACTIVE or HELD after a FULL bit or a slot has changed (R181). -/
def State.reHold (s : State) (e : Nat) : State :=
  match s.slotOf e with
  | none => s
  | some l => (List.range 6).foldl (fun s n => s.setXfer (xk l n) (s.heldNow e (s.xfer (xk l n)))) s

/-- Keeps up to 64 requests of 64 bytes outstanding for a fetch from another package (R181). -/
def State.topUpGo (s : State) (l n : Nat) : Nat → State
  | 0 => s
  | fuel + 1 =>
    let x := s.xfer (xk l n)
    if x.asked < x.total ∧ x.asked < x.unit + 64 then
      ((s.setXfer (xk l n) { x with asked := x.asked + 1 }).ask
        { addr := x.at x.asked, units := 1, id := x.id, l := l, slot := n, unit := x.asked }).topUpGo l n fuel
    else s

def State.topUp (s : State) (l n : Nat) : State :=
  let x := s.xfer (xk l n)
  if x.st = .free || s.local x || !s.learned (pkgOf x.d0) || (x.acc = none && x.desc.store) then s
  else s.topUpGo l n 64

/-- The stall cause of a request to a global address by an engine (R183): a retraining channel or edge comes before the
tier it lies on (DEDUCED, log entry 127). -/
def State.addrCause (s : State) (e : Nat) (g : BitVec 64) (a : Nat) : Nat :=
  let own := s.own (pkgOf g)
  let chan : Bool := own && (match s.locate a with
    | .hbm st ch _ => s.chReset.contains (st, ch)
    | .slow dv ch _ => s.chReset.contains (16 + dv, ch)
    | _ => false)
  if chan then 7
  else if s.edgeWaits e own a then 8
  else if own then
    match s.locate a with
    | .hbm st _ _ => if st / 4 = e / 408 then 1 else 2
    | .scratch d _ => if d = e / 408 then 0 else 2
    | _ => 3
  else 4

/-- The stall cause of a transfer slot of engine `e`: 0x6 while it is HELD, else that of its oldest request; a stalled slot
keeps the cause it stalled with (R183). -/
def State.xferCause (s : State) (e : Nat) (x : Xfer) : Nat :=
  if x.st = .stalled then x.cause
  else if x.st = .held then 6 else s.addrCause e (x.at x.unit) ((x.at x.unit).toNat % 2 ^ 48)

/-- The tiles a fetch of a transfer slot fills. -/
def Xfer.fills (x : Xfer) : List Nat :=
  let d := x.desc
  if x.st = .free ∨ d.store = true ∨ d.lkind = 2 ∨ x.acc.isSome then []
  else (List.range (d.tiles - x.unit / d.per)).map fun j => d.tileReg (x.unit / d.per + j)

/-- The stall causes of the streams a LATE context waits on. -/
def State.lateCauses (s : State) (e k : Nat) : List Nat :=
  let c := s.ctx (4 * e + k)
  if c.st ≠ .late then []
  else match s.slotOf e with
    | none => []
    | some l =>
      let xs := (List.range 6).map fun n => s.xfer (6 * l + n)
      let mine := xs.filter fun x => x.st != .free &&
        (if x.acc.isSome then x.ctx == k else c.miss.any x.fills.contains)
      mine.map (s.xferCause e)

/-- Whether a context waits for a peer: at a job barrier, for a collective slot, or on a semaphore a collective
signalled last (R275). -/
def State.peerWait (s : State) (e k : Nat) : Bool :=
  let c := s.ctx (4 * e + k)
  let l := (s.slotOf e).getD 0
  c.st == .wait &&
    (c.why == 5 ||
      (c.why == 1 && Sparse.get (fun _ => 0) s.semBy (256 * (e / 17) + c.wid) == 1) ||
      (c.why == 2 && s.bars.any fun b => match b.1 with
        | .job _ => b.2.arr.contains (l, k)
        | _ => false))

/-- Whether a context waits on a semaphore that a host command signalled last (R275). -/
def State.hostWait (s : State) (e k : Nat) : Bool :=
  let c := s.ctx (4 * e + k)
  c.st == .wait && c.why == 1 && Sparse.get (fun _ => 0) s.semBy (256 * (e / 17) + c.wid) == 2

/-- The first cause of R275 that applies to an idle engine; none when no row matches. 0 stands for 0 and 1, which the end of
the wait tells apart. -/
def State.idleCause (s : State) (e l : Nat) : Option Nat :=
  let ks := [0, 1, 2, 3]
  let late := ks.flatMap (s.lateCauses e)
  if s.parked l then some 6
  else if (s.eng e).stop || ks.any (fun k => (s.ctx (4 * e + k)).st == .wait && (s.ctx (4 * e + k)).why == 7) then some 5
  else if ks.any (s.peerWait e) then some 0
  else if late.contains 4 then some 3
  else if late.contains 5 || ks.all (fun k => (s.ctx (4 * e + k)).st == .free) || ks.any (s.hostWait e) then some 4
  else if late ≠ [] then some 2
  else none

/-- Adds idle time of a cause to CLV_IDLE (R275). -/
def State.addIdle (s : State) (c : Nat) (dt : BitVec 64) : State :=
  { s with idle := Sparse.set (fun _ => 0) s.idle c (Sparse.get (fun _ => 0) s.idle c + dt) }

/-- Charges an engine's idle time up to now: a bound engine with nothing in its arrays or vector unit. The time of a wait
for peers is kept until that wait ends (R275). Spare engines are not counted (DESIGN CHOICE, log entry 84). -/
def State.settle (s : State) (e : Nat) : State :=
  let x := s.eng e
  let dt := s.now - x.busyAt
  let s' := if x.busyAt = s.now then s else s.setEng e { x with busyAt := s.now }
  match s.slotOf e with
  | none => s'
  | some l =>
    if x.runA.isSome || x.runB.isSome || x.runV.isSome || dt = 0 then s'
    else match s.idleCause e l with
      | none => s'
      | some 0 => s'.modEng e fun y => { y with peerIdle := y.peerIdle + dt }
      | some c => s'.addIdle c dt

/-- A wait for peers of engine `e` ends: the idle time kept for it is charged as CLV_PEER_PACE then shows (R275). -/
def State.payPeer (s : State) (e : Nat) : State :=
  let x := s.eng e
  if x.peerIdle = 0 then s
  else (s.setEng e { x with peerIdle := 0 }).addIdle
    (if s.fget F.CLV_PEER_PACE_CAUSE = 0 ∨ s.fget F.CLV_PEER_PACE_CAUSE = 5 then 0 else 1) x.peerIdle

/-- Context `k` of engine `e` leaves its wait, its engine's idle time charged first (R129, R275). -/
def State.endWait (s : State) (e k : Nat) (f : Ctx → Ctx) : State :=
  let s := s.settle e
  (if s.peerWait e k then s.payPeer e else s).modCtx (4 * e + k) f

/-- Returns the contexts of engine `e` that wait for a reason to RUN, where they issue again. -/
def State.wake (s : State) (e why : Nat) : State :=
  [0, 1, 2, 3].foldl (fun s k =>
    let x := s.ctx (4 * e + k)
    if x.st = .wait ∧ x.why = why then s.endWait e k Ctx.resume else s) s

/-- A free transfer slot of a logical slot (R145). -/
def State.freeSlot (s : State) (l : Nat) : Option Nat :=
  (List.range 6).find? fun n => (s.xfer (6 * l + n)).st == .free

/-- Whether descriptors of a batch have still to start. -/
def Batch.unstarted (b : Batch) : Bool := !b.ready.isEmpty || (!b.bad && decide (b.started < b.count))

/-- A slot in which a transfer issued now may start: transfers of one engine start in issue order (R145, R146). -/
def State.openSlot (s : State) (l : Nat) : Option Nat := if (s.batch l).any Batch.unstarted then none else s.freeSlot l

/-- Instructions that wait for a transfer slot may issue once one is open to them (R145). -/
def State.offer (s : State) (e l : Nat) : State := if (s.openSlot l).isSome then s.wake e 3 else s

end Sys2Proof.Machine
end

