-- ==== Sys2Proof/Machine/Tile.lean ====
section
/-! DEFINITION. Issue of the tile, accumulator, quantise, vector and Loupe instructions (R90 to R127): one shared issue
operation, and one meaning for each mnemonic. -/
namespace Sys2Proof.Machine

/-- Every instruction issued and not completed on an engine (R91). -/
def Engine.ents (x : Engine) : List QEnt :=
  x.qA ++ x.qB ++ x.qV ++ x.runA.toList ++ x.runB.toList ++ x.runV.toList

/-- Whether an issued instruction of engine `x` has still to write tile `t` (R130). -/
def Engine.writes (x : Engine) (t : Nat) : Bool := x.ents.any fun q => (tilesWritten q.w).contains t

/-- The tiles of a list that fail the issue gate: not FULL, with no earlier issued writer (R130). -/
def State.gateMiss (s : State) (e : Nat) (ts : List Nat) : List Nat :=
  ts.filter fun t => !s.full e t && !(s.eng e).writes t

/-- Whether FENCE holds an instruction: an earlier tile instruction of its context has not completed (R95). -/
def State.fenced (s : State) (e k : Nat) (w : BitVec 64) : Bool :=
  bit64 w 54 && (s.eng e).ents.any (fun q => q.ctx == k)

/-- Whether every target queue has room: 8 entries each (R90). An instruction leaves its entry as it starts, which the spec
leaves open (DESIGN CHOICE, log entry 113), but a TMAC keeps its queue head while pairs of it have still to enter (R92). -/
def Engine.room (x : Engine) (w : BitVec 64) : Bool :=
  let head (o : Option QEnt) : Nat := match o with
    | some q => if opc q.w = opTMAC ∧ q.pair ≤ tmREP q.w then 1 else 0
    | none => 0
  (queuesOf w).all fun u => match u with
    | .a => decide (x.qA.length + head x.runA < 8)
    | .b => decide (x.qB.length + head x.runB < 8)
    | .v => decide (x.qV.length < 8)

/-- Whether a scalar register of context `k` has a VAMAX pending on it (R94). -/
def Engine.scalarBusy (x : Engine) (k r : Nat) : Bool :=
  x.ents.any fun q => q.ctx == k && scalarWritten q.w == some r

/-- The number of program words an instruction takes (R96). -/
def wordsOf (w : BitVec 64) : Nat := if extBit w then 2 else 1

/-- The package address of the program word `i` words past a context's program counter (R137). -/
def progAddr (x : Ctx) (i : Nat) : Nat := (x.prog.toNat % 2 ^ 48 + 8 * (x.pc + i)) % 2 ^ 48

/-- The program word memory holds `i` words past a context's program counter. -/
def State.progWord (s : State) (x : Ctx) (i : Nat) : BitVec 64 :=
  pair64 (s.stored (progAddr x i)) (s.stored (progAddr x i + 4))

/-- Whether a context's next program word, as memory holds it, can issue (R90, R92, R94, R95, R98, R131): it is legal, FENCE
does not hold it, its operands pass the gate and its queues have room. A word memory does not hold, or an illegal one,
cannot (DESIGN CHOICE, log entry 11). -/
def State.ready (s : State) (e k : Nat) : Bool :=
  let x := s.ctx (4 * e + k)
  let w := s.progWord x 0
  let v := s.progWord x 1
  (x.st == .run || x.st == .late) && !x.stopped && legalWord w v && !s.fenced e k w &&
    (decide (0x80 ≤ opc w) || (s.gateMiss e (firstTiles w) == [] && (s.eng e).room w &&
      !(isV2 (opc w) && vSRC2 w == 1 && (s.eng e).scalarBusy k (vSS w))))

/-- Whether it is the turn of context `k` (R131): no RUN context can issue while it is LATE, and no context of its own
state that issued less recently can issue. -/
def State.myTurn (s : State) (e k : Nat) : Bool :=
  let x := s.ctx (4 * e + k)
  [0, 1, 2, 3].all fun j =>
    let y := s.ctx (4 * e + j)
    j == k || !(if y.st = x.st then decide (y.turn < x.turn) else y.st == .run) || !s.ready e j

/-- The count a context takes that issues now: one more than any of its engine's (R131). -/
def State.nextTurn (s : State) (e : Nat) : Nat :=
  1 + [0, 1, 2, 3].foldl (fun m j => max m (s.ctx (4 * e + j)).turn) 0

/-- Whether a context may issue now: it is in RUN or LATE, it is its turn, its task has not stopped, its program's memory
can be read, and its engine runs and is not halted by the debugger, or has a single step left (R129, R131, R343, R370). -/
def State.mayIssue (s : State) (e k : Nat) : Bool :=
  let x := s.ctx (4 * e + k)
  (x.st == .run || x.st == .late) && !x.stopped && s.canRun e && s.myTurn e k && !s.memWaits (progAddr x 0) &&
    (!(s.eng e).halted || decide (0 < (s.eng e).steps))

/-- A single step of a halted sequencer is used up by an attempt to issue (R370) (DEDUCED, log entry 75). -/
def State.useStep (s : State) (e : Nat) : State :=
  if (s.eng e).halted then s.modEng e fun x => { x with steps := x.steps - 1 } else s

/-- Stops the task of a context at an illegal instruction (R98, R123). -/
def State.illegal (s : State) (e k : Nat) : State := s.modCtx (4 * e + k) Ctx.illegal

/-- The program words of an instruction of `n` words, as 32-bit halves: their package addresses. -/
def progHalves (x : Ctx) (n : Nat) : List Nat :=
  (List.range n).flatMap fun i => [progAddr x i, progAddr x i + 4]

/-- Whether a program word is delivered with poison, a hole or refused address included (R25, R137, R170, R185), or memory
holds there a word whose opcode is not assigned (R98, R128; DESIGN CHOICE, log entry 11). -/
def State.progPoison (s : State) (x : Ctx) (n : Nat) : Bool :=
  (progHalves x n).any (fun a => !s.readable a || (s.stored a).p) ||
    (s.progWord x 0 != 0 && !assigned (opc (s.progWord x 0)))

/-- What reading one half of a program word records (R25, R170, R185 to R188). The cache counts nothing of it, since the spec
gives no size of a fetch (DESIGN CHOICE, log entry 11). -/
def State.progRead (s : State) (src : Src) (pkg : BitVec 16) (head : Bool) (a : Nat) : State :=
  match s.locate a with
  | .err k => if head then s.addrErr k false src (pkg ++ BitVec.ofNat 48 a) else s
  | .regs _ => if head then s.addrErr 3 false src (pkg ++ BitVec.ofNat 48 a) else s
  | l => if s.hole l then (if head then s.holeHit l a else s) else s.onRead head src l a

/-- What the fetch of an instruction's program words records. -/
def State.progFetch (s : State) (e k : Nat) (w : BitVec 64) : State :=
  let x := s.ctx (4 * e + k)
  let src := s.engSrc e k (opc w) x.pc
  (progHalves x (wordsOf w)).foldl (fun s a => s.progRead src (pkgOf x.prog) (a == progAddr x 0 || a % 64 == 0) a) s

/-- Whether a program's next words are read without an error of any kind. -/
def State.progClean (s : State) (x : Ctx) (n : Nat) : Bool :=
  (progHalves x n).all fun a => s.readable a && s.syn a == 0 && !s.burstBad a

/-- What every instruction passes before it issues (R92, R95, R98): nothing happens while its context may not issue or
FENCE holds it; an illegal or poisoned word stops the task; else it issues by `f`. Its engine's idle time ends (DESIGN
CHOICE, log entry 1). -/
def State.atIssue (s : State) (e k : Nat) (w : BitVec 64) (legal : Bool) (f : State → Ctx → State) : State :=
  let x := s.ctx (4 * e + k)
  if !s.mayIssue e k || s.fenced e k w then s
  else
    let t := s.progFetch e k w
    if !legal || s.progPoison x (wordsOf w) then ((t.settle e).useStep e).illegal e k
    else f ((t.settle e).useStep e) x

/-- Appends an entry to the queues of its instruction (R90). -/
def Engine.push (x : Engine) (q : QEnt) : Engine :=
  let qs := queuesOf q.w
  { x with qA := if qs.contains .a then x.qA ++ [q] else x.qA, qB := if qs.contains .b then x.qB ++ [q] else x.qB,
           qV := if qs.contains .v then x.qV ++ [q] else x.qV }

/-- A context past the instruction it issued, its engine's issue number `n`: its program counter moves on and it is in RUN. -/
def Ctx.past (x : Ctx) (w : BitVec 64) (n : Nat) : Ctx :=
  { x with pc := x.pc + wordsOf w, at_ := x.pc, st := .run, miss := [], turn := n }

/-- The extension word an instruction carries into its queue: a scalar second source is read at issue (R94). -/
def extOf (x : Ctx) (w ext : BitVec 64) : BitVec 64 :=
  let base := if extBit w then ext else 0
  if isV2 (opc w) ∧ vSRC2 w = 1 then base ||| BitVec.ofNat 64 ((x.s (vSS w)).toNat % 2 ^ 16) else base

/-- Issue of a tile instruction (R90, R94, R98, R130): a missing FULL bit makes the context LATE; a full queue or a
pending scalar holds it; else it enters its queues with the next work number. -/
def State.issueTile (s : State) (c : Cx) (w ext : BitVec 64) : State :=
  let e := c.pos.key
  let k := c.ctx.val
  s.atIssue e k w (legalTile w ext) fun s x =>
    let miss := s.gateMiss e (firstTiles w)
    if miss ≠ [] then s.setCtx (4 * e + k) { x with st := .late, miss := miss }
    else if !(s.eng e).room w || (isV2 (opc w) && vSRC2 w == 1 && (s.eng e).scalarBusy k (vSS w)) then s
    else
      let q : QEnt := { id := s.nextId, ctx := k, w := w, x := extOf x w ext, pc := x.pc, step := s.reg Reg.SCT_STEP }
      { ((s.modEng e fun y => y.push q).setCtx (4 * e + k) (x.past w (s.nextTurn e))) with nextId := s.nextId + 1 }

/-- Loupe's response to a request to arm a chain: armed when idle, else queued one deep, else dropped and counted
(R119). While sampling is suspended it arms none (R304). -/
def Loupe.force (l : Loupe) (on : Bool) (r : Nat × Nat × Nat) : Loupe :=
  if l.armed = none ∧ on then { l with armed := some r }
  else if l.queued = none then { l with queued := some r }
  else { l with dropped := l.dropped + 1 }

/-- LPSAMP (R117, R119): takes effect at issue and enters no queue. -/
def State.issueLpsamp (s : State) (c : Cx) (w : BitVec 64) : State :=
  let e := c.pos.key
  let k := c.ctx.val
  s.atIssue e k w (legalLPSAMP w) fun s x =>
    let s := s.setCtx (4 * e + k) (x.past w (s.nextTurn e))
    let u := c.pos.clu
    match bits64 w 53 52 with
    | 1 => s.setLoupe u ((s.loupe u).force s.sampling (e, bits64 w 51 49, bits64 w 47 32))
    | 2 => s.modEng e fun y => { y with loupeHold := true }
    | 3 => s.modEng e fun y => { y with loupeHold := false }
    | _ => s

/-! ## The meanings -/

/-- TMAC (R101, R102). -/
def execTmac (c : Cx) (w : BitVec 56) (s : State) : Host.Outcome State Fault Refusal :=
  .next (s.issueTile c (mkWord opTMAC w) 0)
/-- TMAC2 (R104, R105): enters both array queues. -/
def execTmac2 (c : Cx) (w : BitVec 56) (s : State) : Host.Outcome State Fault Refusal :=
  .next (s.issueTile c (mkWord opTMAC2 w) 0)
/-- ACCLD (R106, R107). -/
def execAccld (c : Cx) (w : BitVec 56) (x : BitVec 64) (s : State) : Host.Outcome State Fault Refusal :=
  .next (s.issueTile c (mkWord opACCLD w) x)
/-- ACCST (R108, R109). -/
def execAccst (c : Cx) (w : BitVec 56) (x : BitVec 64) (s : State) : Host.Outcome State Fault Refusal :=
  .next (s.issueTile c (mkWord opACCST w) x)
/-- TQNT (R111, R112). -/
def execTqnt (c : Cx) (w : BitVec 56) (x : BitVec 64) (s : State) : Host.Outcome State Fault Refusal :=
  .next (s.issueTile c (mkWord opTQNT w) x)
/-- LPSAMP (R117, R119). -/
def execLpsamp (c : Cx) (w : BitVec 56) (s : State) : Host.Outcome State Fault Refusal :=
  .next (s.issueLpsamp c (mkWord opLPSAMP w))
/-- VADD: elementwise x + y (R115). -/
def execVadd (c : Cx) (w : BitVec 56) (x : BitVec 64) (s : State) : Host.Outcome State Fault Refusal :=
  .next (s.issueTile c (mkWord opVADD w) x)
/-- VSUB: elementwise x - y (R115). -/
def execVsub (c : Cx) (w : BitVec 56) (x : BitVec 64) (s : State) : Host.Outcome State Fault Refusal :=
  .next (s.issueTile c (mkWord opVSUB w) x)
/-- VMUL: elementwise x × y (R115). -/
def execVmul (c : Cx) (w : BitVec 56) (x : BitVec 64) (s : State) : Host.Outcome State Fault Refusal :=
  .next (s.issueTile c (mkWord opVMUL w) x)
/-- VMAX: elementwise maximum (R115). -/
def execVmax (c : Cx) (w : BitVec 56) (x : BitVec 64) (s : State) : Host.Outcome State Fault Refusal :=
  .next (s.issueTile c (mkWord opVMAX w) x)
/-- VMIN: elementwise minimum (R115). -/
def execVmin (c : Cx) (w : BitVec 56) (x : BitVec 64) (s : State) : Host.Outcome State Fault Refusal :=
  .next (s.issueTile c (mkWord opVMIN w) x)
/-- VCVT: format conversion (R115). -/
def execVcvt (c : Cx) (w : BitVec 56) (x : BitVec 64) (s : State) : Host.Outcome State Fault Refusal :=
  .next (s.issueTile c (mkWord opVCVT w) x)
/-- VTRN: transpose of a 16-bit tile (R115). -/
def execVtrn (c : Cx) (w : BitVec 56) (x : BitVec 64) (s : State) : Host.Outcome State Fault Refusal :=
  .next (s.issueTile c (mkWord opVTRN w) x)
/-- VEXP: e^x (R116). -/
def execVexp (c : Cx) (w : BitVec 56) (x : BitVec 64) (s : State) : Host.Outcome State Fault Refusal :=
  .next (s.issueTile c (mkWord opVEXP w) x)
/-- VRELU: ReLU (R116). -/
def execVrelu (c : Cx) (w : BitVec 56) (x : BitVec 64) (s : State) : Host.Outcome State Fault Refusal :=
  .next (s.issueTile c (mkWord opVRELU w) x)
/-- VGELU: GELU (R116). -/
def execVgelu (c : Cx) (w : BitVec 56) (x : BitVec 64) (s : State) : Host.Outcome State Fault Refusal :=
  .next (s.issueTile c (mkWord opVGELU w) x)
/-- VSILU: SiLU (R116). -/
def execVsilu (c : Cx) (w : BitVec 56) (x : BitVec 64) (s : State) : Host.Outcome State Fault Refusal :=
  .next (s.issueTile c (mkWord opVSILU w) x)
/-- VTANH: tanh (R116). -/
def execVtanh (c : Cx) (w : BitVec 56) (x : BitVec 64) (s : State) : Host.Outcome State Fault Refusal :=
  .next (s.issueTile c (mkWord opVTANH w) x)
/-- VSIGM: the sigmoid (R116). -/
def execVsigm (c : Cx) (w : BitVec 56) (x : BitVec 64) (s : State) : Host.Outcome State Fault Refusal :=
  .next (s.issueTile c (mkWord opVSIGM w) x)
/-- VRCP: the reciprocal (R116). -/
def execVrcp (c : Cx) (w : BitVec 56) (x : BitVec 64) (s : State) : Host.Outcome State Fault Refusal :=
  .next (s.issueTile c (mkWord opVRCP w) x)
/-- VRSQ: the reciprocal square root (R116). -/
def execVrsq (c : Cx) (w : BitVec 56) (x : BitVec 64) (s : State) : Host.Outcome State Fault Refusal :=
  .next (s.issueTile c (mkWord opVRSQ w) x)
/-- VRSUM: row sum (R115). -/
def execVrsum (c : Cx) (w : BitVec 56) (x : BitVec 64) (s : State) : Host.Outcome State Fault Refusal :=
  .next (s.issueTile c (mkWord opVRSUM w) x)
/-- VRMAX: row maximum (R115). -/
def execVrmax (c : Cx) (w : BitVec 56) (x : BitVec 64) (s : State) : Host.Outcome State Fault Refusal :=
  .next (s.issueTile c (mkWord opVRMAX w) x)
/-- VCSUM: column sum (R115). -/
def execVcsum (c : Cx) (w : BitVec 56) (x : BitVec 64) (s : State) : Host.Outcome State Fault Refusal :=
  .next (s.issueTile c (mkWord opVCSUM w) x)
/-- VAMAX: absolute maximum into a scalar register (R94, R115). -/
def execVamax (c : Cx) (w : BitVec 56) (x : BitVec 64) (s : State) : Host.Outcome State Fault Refusal :=
  .next (s.issueTile c (mkWord opVAMAX w) x)
/-- CONTEXT_RESUME (R130): a LATE context returns to RUN once every FULL bit it awaits is set, or has an issued writer,
and a context of a stopped task goes to DRAIN. -/
def execContextResume (c : Cx) (s : State) : Host.Outcome State Fault Refusal :=
  let x := s.ctx c.key
  .next (if x.st = .late ∧ s.gateMiss c.pos.key x.miss = [] then (s.settle c.pos.key).setCtx c.key x.resume else s)

end Sys2Proof.Machine
end

