-- ==== Sys2Proof/Machine/Staging.lean ====
section
/-! DEFINITION. The cluster staging buffer (R177) and the Loupe shadow slots it holds (R118). -/
namespace Sys2Proof.Machine

/-- The key of byte `o` of a cluster's staging buffer. -/
def sk (u o : Nat) : Nat := u * 0x400000 + o

/-- A byte of a cluster's staging buffer. -/
def State.stgB (s : State) (u o : Nat) : BitVec 8 := Sparse.get (fun _ => 0) s.stg (sk u o)

/-- The word at offset `o` as a read delivers it (R185, R186). -/
def State.stgW (s : State) (u o : Nat) : MWord :=
  deliver (s.stgB u (o + 3) ++ s.stgB u (o + 2) ++ s.stgB u (o + 1) ++ s.stgB u o)
    (Sparse.get (fun _ => 0) s.stgEcc (sk u o / 4))

/-- Clears the SHADOW bit of one half of a tile. -/
def State.clrShadow (s : State) (x : Shadow) : State :=
  match s.engineOf x.l with
  | none => s
  | some e =>
    let t := s.tag (tk e x.tile)
    s.setTag (tk e x.tile) (if x.half then { t with sh1 := false } else { t with sh0 := false })

/-- STR_SHADOW.USED of a cluster: the shadows it holds (R193). -/
def State.showUsed (s : State) (u : Nat) : State :=
  s.fset (F.STR_SHADOW_USED u) (s.shadows.filter fun (x : Shadow) => x.clu == u).length

/-- Drops a shadow: its slot frees and its SHADOW bit clears; `count` when the drop is counted in STR_SHADOW.DROPPED
(R118, R177). -/
def State.dropShadow (s : State) (x : Shadow) (count : Bool) : State :=
  let s := { (s.clrShadow x) with shadows := s.shadows.filter fun y => y ≠ x }
  let s := if count then s.fsat (F.STR_SHADOW_DROPPED x.clu) 1 else s
  s.showUsed x.clu

/-- The shadow slot an offset of the staging buffer lies in (R177). -/
def slotAt (o : Nat) : Option Nat := if 0x3E0000 ≤ o ∧ o < 0x400000 then some ((o - 0x3E0000) / 2048) else none

/-- A write touching a slot that holds a shadow drops that shadow (R177). -/
def State.touch (s : State) (u o : Nat) : State :=
  match slotAt o with
  | none => s
  | some n => match s.shadows.find? (fun (x : Shadow) => x.clu == u && x.slot == n) with
    | some x => s.dropShadow x true
    | none => s

/-- Stores a word into the staging buffer with good check bits, or in poison form (R186). -/
def State.putStg (s : State) (u o : Nat) (w : MWord) : State :=
  let b := 4 * (o / 4)
  let put (m : List Host.Cell) (i : Nat) : List Host.Cell :=
    Sparse.set (fun _ => 0) m (sk u (b + i)) (w.v.extractLsb' (8 * i) 8)
  { s with stg := put (put (put (put s.stg 0) 1) 2) 3,
           stgEcc := Sparse.set (fun _ => 0) s.stgEcc (sk u b / 4) (if w.p then 0x7F else 0) }

/-- A write of a word by LDS/STS or a stream: it drops a shadow it touches (R177). -/
def State.writeStg (s : State) (u o : Nat) (w : MWord) : State := (s.touch u o).putStg u o w

/-- A read of a staging word for a requester: the word delivered, and the state with what the read leaves and records
against the cluster (R185, R186, R188, R317, R319). -/
def State.readStg (s : State) (src : Src) (u o : Nat) : MWord × State :=
  let w := s.stgW u o
  let y := Sparse.get (fun _ => 0) s.stgEcc (sk u o / 4)
  let t := match synOf y with
    | .good | .poison => s
    | _ => s.putStg u o ⟨w.v, false⟩
  let t := { t with stgEcc := Sparse.set (fun _ => 0) t.stgEcc (sk u o / 4) (fixWord w.v y).2 }
  (w, t.noteWord (eccKey 1 (sk u o / 4)) y (src.memRec 1 (cluUnit u) (wordSig o y)))

/-- Writes consecutive words of a shadow slot. -/
def State.putWordsAt (s : State) (u o : Nat) : List (BitVec 32) → State
  | [] => s
  | w :: ws => (s.putStg u o ⟨w, false⟩).putWordsAt u (o + 4) ws

/-- Places a shadow of one half of a tile: a free slot of the cluster's 64, else the oldest shadow is dropped and its
slot taken (R118). An earlier shadow of the same half gives up its slot. -/
def State.placeShadow (s : State) (u l tile : Nat) (half : Bool) (copy : List (BitVec 32)) : State :=
  let mine (x : Shadow) := x.clu == u && x.l == l && x.tile == tile && x.half == half
  let s := match s.shadows.find? mine with
    | some x => s.dropShadow x false
    | none => s
  let used := (s.shadows.filter fun (x : Shadow) => x.clu == u).map (·.slot)
  let (slot, s) := match (List.range 64).find? fun n => !used.contains n with
    | some n => (n, s)
    | none => match s.shadows.find? fun (x : Shadow) => x.clu == u with
      | some x => (x.slot, s.dropShadow x true)
      | none => (0, s)
  let s := s.putWordsAt u (0x3E0000 + 2048 * slot) copy
  let x : Shadow := { clu := u, slot := slot, l := l, tile := tile, half := half }
  State.showUsed { s with shadows := s.shadows ++ [x] } u

/-- Frees the shadows of a tile whose half is written without one. -/
def State.freeShadow (s : State) (l tile : Nat) (half : Bool) : State :=
  match s.shadows.find? fun (x : Shadow) => x.l == l && x.tile == tile && x.half == half with
  | some x => s.dropShadow x false
  | none => s

end Sys2Proof.Machine
end

