-- ==== Sys2Proof/Machine/Scalar.lean ====
section
/-! DEFINITION. Scalar and control instructions (R135 to R137): arithmetic written at issue, LDS and STS on the cluster
staging buffer, branches and END. -/
namespace Sys2Proof.Machine

/-- Whether a VAMAX is pending on a register the scalar instruction reads or writes (R91, R94). -/
def State.scalarHeld (s : State) (e k : Nat) (rs : List Nat) : Bool := rs.any fun r => (s.eng e).scalarBusy k r

/-- The first operand: 0 when Z is set, else RA (R136). -/
def opX (x : Ctx) (w : BitVec 64) : BitVec 32 := if scZ w then 0 else x.s (scRA w)

/-- The second operand: IMM when I is set, else RB (R136). -/
def opY (x : Ctx) (w : BitVec 64) : BitVec 32 := if scI w then scIMM w else x.s (scRB w)

/-- A scalar arithmetic instruction: RD := x op y at issue (R136). -/
def State.scalarOp (s : State) (c : Cx) (w : BitVec 64) (f : BitVec 32 → BitVec 32 → BitVec 32) : State :=
  let e := c.pos.key
  let k := c.ctx.val
  s.atIssue e k w (legalScalar w) fun s x =>
    if s.scalarHeld e k ([scRD w] ++ (if scZ w then [] else [scRA w]) ++ (if scI w then [] else [scRB w])) then s
    else s.setCtx (4 * e + k) ((x.past w (s.nextTurn e)).setS (scRD w) (f (opX x w) (opY x w)))

/-- Whether a staging-buffer offset is a multiple of 4 below 4 MiB (R136). -/
def stgOk (o : BitVec 32) : Bool := o.toNat % 4 == 0 && decide (o.toNat < 0x400000)

/-- ADDS (R136). -/
def execAdds (c : Cx) (w : BitVec 56) (s : State) : Host.Outcome State Fault Refusal :=
  .next (s.scalarOp c (mkWord 0x80 w) fun x y => x + y)
/-- SUBS (R136). -/
def execSubs (c : Cx) (w : BitVec 56) (s : State) : Host.Outcome State Fault Refusal :=
  .next (s.scalarOp c (mkWord 0x81 w) fun x y => x - y)
/-- MULS: the low 32 bits (R136). -/
def execMuls (c : Cx) (w : BitVec 56) (s : State) : Host.Outcome State Fault Refusal :=
  .next (s.scalarOp c (mkWord 0x82 w) fun x y => x * y)
/-- ANDS (R136). -/
def execAnds (c : Cx) (w : BitVec 56) (s : State) : Host.Outcome State Fault Refusal :=
  .next (s.scalarOp c (mkWord 0x83 w) fun x y => x &&& y)
/-- ORS (R136). -/
def execOrs (c : Cx) (w : BitVec 56) (s : State) : Host.Outcome State Fault Refusal :=
  .next (s.scalarOp c (mkWord 0x84 w) fun x y => x ||| y)
/-- XORS (R136). -/
def execXors (c : Cx) (w : BitVec 56) (s : State) : Host.Outcome State Fault Refusal :=
  .next (s.scalarOp c (mkWord 0x85 w) fun x y => x ^^^ y)
/-- SHLS: shifts use y mod 32 (R136). -/
def execShls (c : Cx) (w : BitVec 56) (s : State) : Host.Outcome State Fault Refusal :=
  .next (s.scalarOp c (mkWord 0x86 w) fun x y => x <<< (y.toNat % 32))
/-- SHRS: logical (R136). -/
def execShrs (c : Cx) (w : BitVec 56) (s : State) : Host.Outcome State Fault Refusal :=
  .next (s.scalarOp c (mkWord 0x87 w) fun x y => x >>> (y.toNat % 32))
/-- SRAS: arithmetic (R136). -/
def execSras (c : Cx) (w : BitVec 56) (s : State) : Host.Outcome State Fault Refusal :=
  .next (s.scalarOp c (mkWord 0x88 w) fun x y => x.sshiftRight (y.toNat % 32))

/-- LDS: the context waits for the word at x + IMM of its cluster's staging buffer (R136) (DEDUCED, log entry 89). -/
def execLds (c : Cx) (w : BitVec 56) (s : State) : Host.Outcome State Fault Refusal :=
  let w := mkWord 0x8C w
  let e := c.pos.key
  let k := c.ctx.val
  .next (s.atIssue e k w (legalLdSt w false) fun s x =>
    if s.scalarHeld e k ([scRD w] ++ (if scZ w then [] else [scRA w])) then s
    else
      let o := opX x w + scIMM w
      if stgOk o then
        s.setCtx (4 * e + k) { ((x.past w (s.nextTurn e)).wait 6 0 s.now) with lds := some (o.toNat, scRD w) }
      else s.illegal e k)

/-- LDS_RETURN: after its 8 tokens the word arrives and the context leaves WAIT; a poisoned word loads its bits, sets
NSTAT.POISON and contributes POISONED (R136). -/
def execLdsReturn (c : Cx) (s : State) : Host.Outcome State Fault Refusal :=
  let x := s.ctx c.key
  .next (match x.lds with
    | none => s
    | some (o, rd) =>
      let (w, s) := s.readStg (s.engSrc c.pos.key c.ctx.val 0x8C x.at_) c.pos.clu o
      let s := s.settle c.pos.key
      let y := { (x.setS rd w.v).resume with lds := none }
      s.setCtx c.key (if w.p then { y.setS 31 (y.s 31 ||| 0x20000000) with code := y.code.max .poisoned } else y))

/-- STS: RB into the staging buffer at x + IMM, without a wait (R136). -/
def execSts (c : Cx) (w : BitVec 56) (s : State) : Host.Outcome State Fault Refusal :=
  let w := mkWord 0x8D w
  let e := c.pos.key
  let k := c.ctx.val
  .next (s.atIssue e k w (legalLdSt w true) fun s x =>
    if s.scalarHeld e k ([scRB w] ++ (if scZ w then [] else [scRA w])) then s
    else
      let o := opX x w + scIMM w
      if stgOk o then (s.writeStg c.pos.clu o.toNat ⟨x.s (scRB w), false⟩).setCtx (4 * e + k) (x.past w (s.nextTurn e))
      else s.illegal e k)

/-- The word offset a branch at `pc` goes to (R137) (DESIGN CHOICE, log entry 11). -/
def branchTo (pc : Nat) (w : BitVec 64) : Nat := (((pc : Int) + brOFS w) % 2 ^ 61).toNat

/-- Whether a BR is taken (R137). -/
def brTaken (x : Ctx) (w : BitVec 64) : Bool :=
  let a := x.s (brRA w)
  let b := x.s (brRB w)
  match brCOND w with
  | 0 => true
  | 1 => a == b
  | 2 => a != b
  | 3 => a.slt b
  | 4 => !a.slt b
  | 5 => a.ult b
  | 6 => !a.ult b
  | _ => false

/-- BR (R137). -/
def execBr (c : Cx) (w : BitVec 56) (s : State) : Host.Outcome State Fault Refusal :=
  let w := mkWord 0x90 w
  let e := c.pos.key
  let k := c.ctx.val
  .next (s.atIssue e k w (legalBR w) fun s x =>
    if brCOND w ≠ 0 ∧ s.scalarHeld e k [brRA w, brRB w] then s
    else
      let y := x.past w (s.nextTurn e)
      s.setCtx (4 * e + k) (if brTaken x w then { y with pc := branchTo x.pc w } else y))

/-- LOOP: RC := RC − 1, and a branch while it is not 0 (R137). -/
def execLoop (c : Cx) (w : BitVec 56) (s : State) : Host.Outcome State Fault Refusal :=
  let w := mkWord 0x91 w
  let e := c.pos.key
  let k := c.ctx.val
  .next (s.atIssue e k w (legalLOOP w) fun s x =>
    if s.scalarHeld e k [brRA w] then s
    else
      let v := x.s (brRA w) - 1
      let y := (x.past w (s.nextTurn e)).setS (brRA w) v
      s.setCtx (4 * e + k) (if v ≠ 0 then { y with pc := branchTo x.pc w } else y))

/-- END: the context goes to DRAIN (R137). -/
def execEndTask (c : Cx) (w : BitVec 56) (s : State) : Host.Outcome State Fault Refusal :=
  let w := mkWord 0x92 w
  let e := c.pos.key
  let k := c.ctx.val
  .next (s.atIssue e k w (legalEND w) fun s x => s.setCtx (4 * e + k) { x.past w (s.nextTurn e) with st := .drain })

end Sys2Proof.Machine
end

