-- ==== Sys2Proof/Machine/Sync.lean ====
section
/-! DEFINITION. Semaphores (R138 to R140): signals with release semantics, FIFO waiters, and their service. -/
namespace Sys2Proof.Machine

/-- The key of semaphore `k` of cluster `u`. -/
def semKey (u k : Nat) : Nat := 256 * u + k

/-- A started command of a queue, by SEQ, with a change. -/
def State.modCmd (s : State) (q : Nat) (seq : BitVec 32) (f : Cmd → Cmd) : State :=
  let c := s.cq q
  s.setCq q { c with infl := c.infl.map (fun (x : Cmd) => if hdSEQ x.hdr = seq then f x else x) }

/-- A served waiter goes on: a context returns to RUN, a WAITSEM has its condition (R140, R153). -/
def State.serve (s : State) (w : Waiter) : State :=
  match w with
  | .ctx l k _ =>
    match s.engineOf l with
    | none => s
    | some e => s.endWait e k Ctx.resume
  | .cmd q seq _ => s.modCmd q seq fun c => { c with done := true }

/-- A waiter's N. -/
def Waiter.n : Waiter → Nat
  | .ctx _ _ n => n
  | .cmd _ _ n => n

/-- Serves the head of a waiter queue while the value is at least its N, strictly first in, first out (R140). -/
def State.serviceLoop (s : State) (u k : Nat) : List Waiter → State
  | [] => s.setWaiters (semKey u k) []
  | w :: ws =>
    let v := s.fget (F.STR_SEM_VALUE u k)
    if w.n ≤ v then ((s.fset (F.STR_SEM_VALUE u k) (v - w.n)).serve w).serviceLoop u k ws
    else s.setWaiters (semKey u k) (w :: ws)

/-- Service of a semaphore's waiters (R140). -/
def State.service (s : State) (u k : Nat) : State := s.serviceLoop u k (s.waiters (semKey u k))

/-- A signal adds N: a result above 0xFFFF saturates and sets OVF; then the waiters are served (R139, R140). `by` is who
signals: 1 a collective completion, 2 a host queue's command, 0 another (R275). -/
def State.signal (s : State) (u k n who : Nat) : State :=
  let v := s.fget (F.STR_SEM_VALUE u k) + n
  let s := if 0xFFFF < v then s.setFlag (F.STR_SEM_OVF u k) true else s
  let s := { s with semBy := Sparse.set (fun _ => 0) s.semBy (semKey u k) who }
  (s.fset (F.STR_SEM_VALUE u k) (min v 0xFFFF)).service u k

/-- A register write to STR_SEMk: VALUE takes bits [15:0], OVF clears where 1 is written, then the waiters are served
(R7, R140, R165). -/
def State.semWrite (s : State) (u k : Nat) (v : BitVec 32) : State :=
  let s := if v.getLsbD 31 then s.setFlag (F.STR_SEM_OVF u k) false else s
  (s.fset (F.STR_SEM_VALUE u k) (v.toNat % 2 ^ 16)).service u k

/-- Whether any work of context `k` with a number below `upto` has still to complete: tile instructions, stream
transfers, batches and collectives (R139) (DESIGN CHOICE, log entry 94). -/
def State.workBelow (s : State) (e k upto : Nat) : Bool :=
  (s.eng e).ents.any (fun q => q.ctx == k && decide (q.id < upto)) ||
    (match s.slotOf e with
     | none => false
     | some l =>
       (List.range 6).any (fun n =>
         let x := s.xfer (6 * l + n)
         x.st != .free && x.ctx == k && decide (x.id < upto)) ||
       (s.batch l).any (fun b => b.ctx == k && decide (b.id < upto)) ||
       (List.range 2).any (fun n =>
         let c := s.coll (2 * l + n)
         c.id != 0 && c.ctx == k && decide (c.id < upto)))

/-- SWAIT (R138, R140): the context waits at the tail of its cluster's semaphore, which is then served. -/
def execSwait (c : Cx) (w : BitVec 56) (s : State) : Host.Outcome State Fault Refusal :=
  let w := mkWord 0xA0 w
  let e := c.pos.key
  let k := c.ctx.val
  let u := c.pos.clu
  .next (s.atIssue e k w (legalSWAIT w) fun s x =>
    match s.slotOf e with
    | none => s
    | some l =>
      let s := s.setCtx (4 * e + k) ((x.past w (s.nextTurn e)).wait 1 (sgSEM w) s.now)
      (s.setWaiters (semKey u (sgSEM w)) (s.waiters (semKey u (sgSEM w)) ++ [.ctx l k (sgN w)])).service u (sgSEM w))

/-- SSIG (R138, R139): a signal awaits its release; the context does not wait, and a fifth pending signal holds issue. -/
def execSsig (c : Cx) (w : BitVec 56) (s : State) : Host.Outcome State Fault Refusal :=
  let w := mkWord 0xA1 w
  let e := c.pos.key
  let k := c.ctx.val
  .next (s.atIssue e k w (legalSSIG w) fun s x =>
    if 4 ≤ x.pend.length then s
    else
      let u := if sgLOCAL w then c.pos.clu else cluKey (sgDIE w) (sgCLU w)
      let p : SigPend := { clu := u, sem := sgSEM w, n := sgN w, upto := s.nextId }
      s.setCtx (4 * e + k) { x.past w (s.nextTurn e) with pend := x.pend ++ [p] })

/-- SSIG_RELEASE (R139): the oldest pending signal of a context is applied once all earlier work of the context has
completed. -/
def execSsigRelease (c : Cx) (s : State) : Host.Outcome State Fault Refusal :=
  let e := c.pos.key
  let x := s.ctx c.key
  .next (match x.pend with
    | [] => s
    | p :: ps =>
      if s.workBelow e c.ctx.val p.upto then s
      else (s.setCtx c.key { x with pend := ps }).signal p.clu p.sem p.n 0)

end Sys2Proof.Machine
end

