-- ==== Sys2Proof/Machine/Formats.lean ====
section
/-! DEFINITION. Exact numbers, the element formats (R29, R30), scale words (R32, R34) and every conversion of R35 to
R39 and R49. Nothing here reads the state. -/
namespace Sys2Proof.Machine

/-! ## Exact numbers -/

/-- A value before rounding: NaN, an infinity, or the exact rational ±(n / d) × 2^e with `d` not 0. -/
inductive Num where
  | nan
  | inf (neg : Bool)
  | fin (neg : Bool) (n d : Nat) (e : Int)
  deriving DecidableEq, Repr

/-- The magnitude n / d × 2^e as one fraction. -/
def frac (n d : Nat) (e : Int) : Nat × Nat := (n * 2 ^ e.toNat, d * 2 ^ (-e).toNat)

/-- floor (log2 (N / D)) of a non-zero fraction. -/
def flog2 (N D : Nat) : Int :=
  let k : Int := (Nat.log2 N : Int) - (Nat.log2 D : Int)
  if D * 2 ^ k.toNat ≤ N * 2 ^ (-k).toNat then k else k - 1

/-- Whether a number is finite. -/
def Num.finite : Num → Bool
  | .fin _ _ _ _ => true
  | _ => false

/-- Whether a number is zero of either sign. -/
def Num.isZero : Num → Bool
  | .fin _ n _ _ => n == 0
  | _ => false

/-- The sign of a number; NaN has none. -/
def Num.isNeg : Num → Bool
  | .nan => false
  | .inf b => b
  | .fin b _ _ _ => b

/-- The number with its sign reversed. -/
def Num.negate : Num → Num
  | .nan => .nan
  | .inf b => .inf !b
  | .fin b n d e => .fin (!b) n d e

/-- The exact sum; a sum of opposite operands is +0, and a sum of zeros of one sign keeps it (R31). -/
def Num.add : Num → Num → Num
  | .nan, _ => .nan
  | _, .nan => .nan
  | .inf a, .inf b => if a = b then .inf a else .nan
  | .inf a, .fin _ _ _ _ => .inf a
  | .fin _ _ _ _, .inf b => .inf b
  | .fin s n d e, .fin t m c f =>
    let g := min e f
    let x : Int := (n * c * 2 ^ (e - g).toNat : Nat)
    let y : Int := (m * d * 2 ^ (f - g).toNat : Nat)
    let v := (if s then -x else x) + (if t then -y else y)
    if v = 0 then .fin (s && t) 0 1 0 else .fin (decide (v < 0)) v.natAbs (d * c) g

/-- The exact product (R31, R73). -/
def Num.mul : Num → Num → Num
  | .nan, _ => .nan
  | _, .nan => .nan
  | .inf a, .inf b => .inf (a != b)
  | .inf a, .fin t m _ _ => if m = 0 then .nan else .inf (a != t)
  | .fin s n _ _, .inf b => if n = 0 then .nan else .inf (s != b)
  | .fin s n d e, .fin t m c f => .fin (s != t) (n * m) (d * c) (e + f)

/-- Whether `x` is less than `y`; zeros compare by sign, +0 above -0 (R115). Neither is NaN. -/
def Num.lt : Num → Num → Bool
  | .nan, _ => false
  | _, .nan => false
  | .inf a, .inf b => a && !b
  | .inf a, .fin _ _ _ _ => a
  | .fin _ _ _ _, .inf b => !b
  | .fin s n d e, .fin t m c f =>
    if n = 0 ∧ m = 0 then s && !t
    else
      let g := min e f
      let x : Int := (n * c * 2 ^ (e - g).toNat : Nat)
      let y : Int := (m * d * 2 ^ (f - g).toNat : Nat)
      decide ((if s then -x else x) < (if t then -y else y))

/-- The larger of two numbers; NaN if either is NaN (R115). -/
def Num.maxOf (x y : Num) : Num := if x = .nan ∨ y = .nan then .nan else if x.lt y then y else x

/-- The smaller of two numbers; NaN if either is NaN (R115). -/
def Num.minOf (x y : Num) : Num := if x = .nan ∨ y = .nan then .nan else if y.lt x then y else x

/-! ## Formats (R29, R30) -/

/-- An element format: mantissa bits, exponent of the smallest normal, largest finite magnitude code, sign bit, the NaN
the T4 writes, the infinity of an encoding that has one, and whether a conversion to it keeps infinities (R37). -/
structure EFmt where
  m : Nat
  emin : Int
  maxMag : Nat
  sgn : Option Nat
  nanCode : Nat
  infMag : Option Nat
  wide : Bool
  deriving DecidableEq, Repr

def bf16 : EFmt := ⟨7, -126, 0x7F7F, some 15, 0x7FC0, some 0x7F80, true⟩
def binary16 : EFmt := ⟨10, -14, 0x7BFF, some 15, 0x7E00, some 0x7C00, true⟩
def e4m3 : EFmt := ⟨3, -6, 0x7E, some 7, 0x7F, none, false⟩
def e5m2 : EFmt := ⟨2, -14, 0x7B, some 7, 0x7E, some 0x7C, false⟩
def zm8u : EFmt := ⟨4, -6, 0xFF, none, 0xFF, none, false⟩
def binary32 : EFmt := ⟨23, -126, 0x7F7FFFFF, some 31, 0x7FC00000, some 0x7F800000, true⟩

/-- The finite magnitude a code without its sign stands for: n × 2^e (R29). -/
def EFmt.mag (f : EFmt) (c : Nat) : Nat × Int :=
  let E := c / 2 ^ f.m
  if E = 0 then (c % 2 ^ f.m, f.emin - f.m) else (2 ^ f.m + c % 2 ^ f.m, f.emin - f.m + (E - 1 : Nat))

/-- The value of a code (R29, R30). -/
def EFmt.decode (f : EFmt) (c : Nat) : Num :=
  let neg := match f.sgn with
    | some b => c.testBit b
    | none => false
  let mg := match f.sgn with
    | some b => c % 2 ^ b
    | none => c
  if mg ≤ f.maxMag then .fin neg (f.mag mg).1 1 (f.mag mg).2
  else if f.infMag = some mg then .inf neg
  else .nan

/-- A magnitude code with its sign. -/
def EFmt.withSign (f : EFmt) (neg : Bool) (c : Nat) : Nat :=
  match f.sgn with
  | some b => if neg then c + 2 ^ b else c
  | none => c

/-- How a conversion rounds: to nearest even, stochastically with a draw (R49), or towards +infinity. -/
inductive Rnd where
  | even
  | stoch (u : Nat)
  | up
  deriving DecidableEq, Repr

/-- Whether the magnitude N / D exceeds the format's largest finite value (R36). -/
def EFmt.above (f : EFmt) (N D : Nat) : Bool :=
  let (n, e) := f.mag f.maxMag
  let (a, b) := frac n 1 e
  decide (a * D < N * b)

/-- The magnitude code of a magnitude N / D not above range, rounded once (R35, R49): the quotient and remainder in
units of the target's spacing, codes of consecutive magnitudes being consecutive. -/
def EFmt.round (f : EFmt) (r : Rnd) (N D : Nat) : Nat :=
  if N = 0 then 0 else
  let E := max (flog2 N D) f.emin
  let u := E - f.m
  let (N', D') := (N * 2 ^ (-u).toNat, D * 2 ^ u.toNat)
  let q := N' / D'
  let rem := N' % D'
  let up := match r with
    | .even => decide (D' < 2 * rem) || (decide (2 * rem = D') && q % 2 == 1)
    | .stoch d => decide (d < rem * 2 ^ 24 / D')
    | .up => decide (0 < rem)
  (E - f.emin).toNat * 2 ^ f.m + q + (if up then 1 else 0)

/-- The outcome of one conversion: the code, and whether it counted a saturation, an underflow and a non-finite source
(R36, R37). -/
structure Cv where
  code : Nat
  sat : Bool := false
  ufl : Bool := false
  nonfin : Bool := false
  deriving DecidableEq, Repr

/-- Every conversion of R35 to R37: a finite value is rounded once, saturates above range and keeps its sign; a
non-finite source follows R37; ZM8U has no sign (R31). -/
def EFmt.conv (f : EFmt) (r : Rnd) (x : Num) : Cv :=
  match x with
  | .nan => { code := f.nanCode, sat := f.sgn.isNone, nonfin := true }
  | .inf neg =>
    match f.wide, f.infMag with
    | true, some c => { code := f.withSign neg c, nonfin := true }
    | _, _ => { code := f.withSign neg f.maxMag, sat := true, nonfin := true }
  | .fin neg n d e =>
    if n = 0 then { code := f.withSign neg 0 }
    else if f.sgn.isNone ∧ neg then { code := 0, sat := true }
    else
      let (N, D) := frac n d e
      if f.above N D then { code := f.withSign neg f.maxMag, sat := true }
      else
        let c := f.round r N D
        { code := f.withSign neg c, ufl := c == 0 }

/-- A finite magnitude rounded up to BF16; above the largest finite BF16 value it is +infinity (R41). -/
def amaxCode (n d : Nat) (e : Int) : Nat :=
  let (N, D) := frac n d e
  if bf16.above N D then 0x7F80 else bf16.round .up N D

/-! ## Scales -/

/-- Whether a scale word is valid: 1 ≤ e ≤ 254 (R32). -/
def swValid (w : BitVec 16) : Bool := decide (1 ≤ w.toNat / 256) && decide (w.toNat / 256 ≤ 254)

/-- The value of a scale word, 2^(e - 127) × (1 + f/256), as n × 2^k (R32). -/
def swVal (w : BitVec 16) : Num := .fin false (256 + w.toNat % 256) 1 ((w.toNat / 256 : Nat) - 135)

/-- The value of an E8M0 block scale (R34). -/
def e8m0 (c : Nat) : Num := if c = 0xFF then .nan else .fin false 1 1 ((c : Int) - 127)

/-- A finite number divided by a scale word's value (R38). -/
def divSw (x : Num) (w : BitVec 16) : Num :=
  match x with
  | .fin s n d e => .fin s n (d * (256 + w.toNat % 256)) (e - ((w.toNat / 256 : Nat) - 135))
  | y => y

/-- A number times a power of two. -/
def Num.scale2 (x : Num) (k : Int) : Num :=
  match x with
  | .fin s n d e => .fin s n d (e + k)
  | y => y

/-- The exponent of the element format's largest binade (R39). -/
def EFmt.emax (f : EFmt) : Int := f.emin + (f.maxMag / 2 ^ f.m - 1 : Nat)

/-- floor (log2 A) of the largest magnitude A among the finite elements; none when A is 0 or no element is finite. -/
def blockTop (xs : List Num) : Option Int :=
  xs.foldl (fun o x => match x with
    | .fin _ n d e =>
      if n = 0 then o
      else
        let k := flog2 n d + e
        match o with
        | none => some k
        | some j => some (max j k)
    | _ => o) none

/-- The E8M0 code of a block's shared scale (R39). -/
def blockScale (f : EFmt) (xs : List Num) : Nat :=
  match blockTop xs with
  | none => 0
  | some k => (max (-127) (min 127 (k - f.emax)) + 127).toNat

/-- A block of elements converted under its shared scale (R39): the scale code and each element's conversion. -/
def blockConv (f : EFmt) (rs : Nat → Rnd) (xs : List Num) : Nat × List Cv :=
  let c := blockScale f xs
  (c, xs.mapIdx fun i x => f.conv (rs i) (x.scale2 (127 - (c : Int))))

/-! ## Stochastic rounding (R50) -/

/-- The six rounds of R50. -/
def srRounds : List Nat → BitVec 64 → BitVec 64 → BitVec 64 → BitVec 64 × BitVec 64
  | [], x, y, _ => (x, y)
  | r :: rs, x, y, k =>
    let x := x + y + k
    let y := (y.rotateLeft r) ^^^ x
    srRounds rs x y (k.rotateLeft 11 + 0x6E3D0B57)

/-- The 24-bit draw of R50 from the job seed, the step, the tensor id, the purpose and the element index. -/
def srDraw (seed : BitVec 64) (step : BitVec 32) (tensor : BitVec 16) (purpose : BitVec 16) (index : BitVec 48) : Nat :=
  let x : BitVec 64 := step ++ tensor ++ purpose
  let y : BitVec 64 := index.zeroExtend 64 ^^^ 0xC4A17D3B52E90F67
  let (x, y) := srRounds [13, 29, 7, 41, 19, 53] x y seed
  ((x ^^^ y) >>> 40).toNat

end Sys2Proof.Machine
end

