-- ==== Sys2Proof/Machine/Accum.lean ====
section
/-! DEFINITION. The long accumulator (R61 to R84): the element and header images, the step rule, non-finite and
poisoned elements, preload, saved images and the combination of two tiles. -/
namespace Sys2Proof.Machine

/-- A long-accumulator element (R61, R62). -/
structure El where
  res : Nat := 0
  poison : Bool := false
  inx : Bool := false
  ra : Nat := 0
  anchor : Nat := 0
  w : Int := 0
  deriving DecidableEq, Repr

/-- A tile header (R63). -/
structure Hd where
  smax : Int := 0
  smin : Int := 0
  preload : Bool := false
  cls : Nat := 0
  fa : Nat := 0
  fb : Nat := 0
  count : Nat := 0
  deriving DecidableEq, Repr

/-- The saved image of an element (R62). -/
def El.pack (x : El) : BitVec 128 :=
  BitVec.ofNat 6 x.res ++ BitVec.ofBool x.poison ++ BitVec.ofBool x.inx ++ BitVec.ofNat 4 x.ra ++
    BitVec.ofNat 12 x.anchor ++ BitVec.ofInt 104 x.w

/-- The element an image holds (R62). -/
def El.unpack (b : BitVec 128) : El :=
  { res := (b.extractLsb' 122 6).toNat, poison := b.getLsbD 121, inx := b.getLsbD 120,
    ra := (b.extractLsb' 116 4).toNat, anchor := (b.extractLsb' 104 12).toNat, w := (b.extractLsb' 0 104).toInt }

/-- The image of a tile header (R63). -/
def Hd.pack (h : Hd) : BitVec 128 :=
  (0 : BitVec 57) ++ BitVec.ofInt 10 h.smax ++ BitVec.ofInt 10 h.smin ++ BitVec.ofBool h.preload ++
    BitVec.ofNat 2 h.cls ++ BitVec.ofNat 8 h.fa ++ BitVec.ofNat 8 h.fb ++ BitVec.ofNat 32 h.count

/-- The header an image holds (R63). -/
def Hd.unpack (b : BitVec 128) : Hd :=
  { smax := (b.extractLsb' 61 10).toInt, smin := (b.extractLsb' 51 10).toInt, preload := b.getLsbD 50,
    cls := (b.extractLsb' 48 2).toNat, fa := (b.extractLsb' 40 8).toNat, fb := (b.extractLsb' 32 8).toNat,
    count := (b.extractLsb' 0 32).toNat }

/-- The anchor field that marks a non-finite element (R73). -/
def nonfinAnchor : Nat := 0xFFF

/-- Whether an element is finite. -/
def El.finite (x : El) : Bool := x.anchor != nonfinAnchor

/-- The weight of window bit 0 (R61). -/
def El.a (x : El) : Int := (x.anchor : Int) - 2048

/-- floor (v × 2^k). -/
def shiftFloor (v : Int) (k : Int) : Int := if 0 ≤ k then v * 2 ^ k.toNat else v / 2 ^ (-k).toNat

/-- The number of bits of a window that holds `v`, less its sign: the least n with -2^n ≤ v < 2^n. -/
def needBits (v : Int) : Nat :=
  let m := if v < 0 then (-v - 1).toNat else v.toNat
  if m = 0 then 0 else Nat.log2 m + 1

/-- RESIDUE after a step that moves the window from `w` to `w'` and its anchor up by `k` (R81): the residue path folds
the step in, allowing for 2^6 ≡ 1 mod 63, so a residue that differed keeps differing. -/
def foldRes (res : Nat) (w w' : Int) (k : Int) : Nat :=
  ((w' + ((res : Int) - w) * 2 ^ ((-k) % 6).toNat) % 63).toNat

/-- An element made non-finite, or kept so, by a non-finite value: 1 is +infinity, 2 -infinity, 3 NaN (R73). -/
def El.absorb (x : El) (v : Nat) : El :=
  let w : Nat := if x.finite then v else if x.w = v then v else 3
  { x with anchor := nonfinAnchor, w := w, res := w % 63 }

/-- One 8-bit-class step: adds P × 2^q to a finite element (R67). -/
def El.step8 (x : El) (P q : Int) : El :=
  let a := x.a
  let lo := if x.inx = false ∧ q < a then q else a
  let m := min a q
  let v := x.w * 2 ^ (a - m).toNat + P * 2 ^ (q - m).toNat
  let a' := max lo (m + (needBits v : Int) - 103)
  let w' := shiftFloor v (m - a')
  { x with w := w', anchor := (a' + 2048).toNat, inx := x.inx || decide (shiftFloor w' (a' - m) ≠ v),
           ra := if lo < a' then min (x.ra + 1) 15 else x.ra, res := foldRes x.res x.w w' (a' - a) }

/-- One 16-bit-class step: adds P × 2^q to a finite element (R67). -/
def El.step16 (x : El) (P q : Int) : El :=
  let a := x.a
  let m := min a q
  let v := x.w * 2 ^ (a - m).toNat + P * 2 ^ (q - m).toNat
  let a' := if v = 0 then a else max a ((Nat.log2 v.natAbs : Int) + m - 102)
  let w' := shiftFloor v (m - a')
  { x with w := w', anchor := (a' + 2048).toNat, inx := x.inx || decide (shiftFloor w' (a' - m) ≠ v),
           res := foldRes x.res x.w w' (a' - a) }

/-- The signed numerator of a finite number of denominator 1. -/
def sgnInt (neg : Bool) (n : Nat) : Int := if neg then -(n : Int) else n

/-- A step with the exact value p (R67, R73): the classes differ only in the rule for a finite element. -/
def El.step (eight : Bool) (x : El) (p : Num) (q : Int) : El :=
  match p with
  | .nan => x.absorb 3
  | .inf neg => x.absorb (if neg then 2 else 1)
  | .fin neg n _ e =>
    if x.finite = false then x
    else if eight then x.step8 (shiftFloor (sgnInt neg n) (e - q)) q
    else x.step16 (sgnInt neg n) e

/-- An element reset by an overwrite (R67, R76): the 8-bit class anchors at q of its first step, the 16-bit class at
−2,048. -/
def El.fresh (eight : Bool) (q : Int) : El := { anchor := if eight then (q + 2048).toNat else 0 }

/-- An element's value before the factor F, with INEXACT as a sticky bit below a window that is not 0: an amount strictly
between 0 and the window's lowest bit, taken as 2^-64 of that bit (R78). -/
def El.value (x : El) : Num :=
  if x.finite then
    let v := x.w * 2 ^ 64 + (if x.inx ∧ x.w ≠ 0 then 1 else 0)
    .fin (decide (v < 0)) v.natAbs 1 (x.a - 64)
  else if x.w = 1 then .inf false
  else if x.w = 2 then .inf true
  else .nan

/-- An element of which only the sticky bit is left: it converts to 0 and underflows (R69, R78; DEDUCED, log entry 95). -/
def El.onlySticky (x : El) : Bool := x.finite && x.inx && x.w == 0

/-- The factor F of a header (R61). -/
def Hd.factor (h : Hd) : Num := .fin false ((256 + h.fa) * (256 + h.fb)) 1 (-16)

/-- The value V × F an ACCST converts (R78); a zero sum converts to +0 (R75). -/
def El.out (x : El) (h : Hd) : Num := x.value.mul h.factor

/-- COUNT after n further products, saturating (R63). -/
def Hd.bump (h : Hd) (n : Nat) : Hd := { h with count := min 0xFFFFFFFF (h.count + n) }

/-- Whether a tile of the 8-bit class is inside the exactness envelope (R68). -/
def Hd.inside (h : Hd) : Bool := !h.preload && decide (h.count ≤ 2 ^ 20) && decide (h.smax - h.smin ≤ 16)

/-- A preloaded element (R77): the 8-bit class anchors at the lowest set bit of the significand, and at 0 for zero;
the 16-bit class as the step rule sets it. -/
def El.preload (eight : Bool) (v : Num) (poison : Bool) : El :=
  match v with
  | .nan => { (El.absorb {} 3) with poison := poison }
  | .inf neg => { (El.absorb {} (if neg then 2 else 1)) with poison := poison }
  | .fin neg n _ e =>
    if eight then
      if n = 0 then { anchor := 0x800, poison := poison }
      else
        let z := ((List.range 64).find? fun i => n.testBit i).getD 0
        let w := sgnInt neg (n / 2 ^ z)
        { w := w, anchor := (e + z + 2048).toNat, poison := poison, res := (w % 63).toNat }
    else { (El.step16 (El.fresh false 0) (sgnInt neg n) e) with poison := poison }

/-- The header a preload sets (R77). -/
def Hd.preloaded (eight : Bool) : Hd := { preload := true, cls := if eight then 1 else 2 }

/-- Whether a saved-image header is refused (R65): CLASS 3, SMIN above SMAX in the 8-bit class, or a reserved bit. -/
def badHeader (b : BitVec 128) : Bool :=
  let h := Hd.unpack b
  h.cls == 3 || (h.cls == 1 && decide (h.smax < h.smin)) || b.extractLsb' 71 57 != 0

/-- An element loaded from a saved image (R65): POISON is set when its residue or anchor does not match, or a word
arrived poisoned. The flag says whether an IMAGE record is filed: for a mismatch, whatever words arrived poisoned. -/
def loadEl (b : BitVec 128) (poison : Bool) : El × Bool :=
  let x := El.unpack b
  let bad := decide ((x.w % 63).toNat ≠ x.res) || (!x.finite && !(x.w == 1 || x.w == 2 || x.w == 3))
  ({ x with poison := x.poison || bad || poison }, bad)

/-- Whether two tiles combine (R82). -/
def Hd.combines (h g : Hd) : Bool := h.cls == g.cls && h.fa == g.fa && h.fb == g.fb

/-- The header of a combination (R82). -/
def Hd.combine (h g : Hd) : Hd :=
  { h with preload := h.preload || g.preload, count := min 0xFFFFFFFF (h.count + g.count), smin := min h.smin g.smin,
           smax := max h.smax g.smax }

/-- One element of a combination: one step of the step rule on X with Y's value and anchor (R82). Two tiles of CLASS 0 take
the step of the 16-bit class, the spec giving an empty tile none (DESIGN CHOICE, log entry 114). -/
def El.combine (h : Hd) (x y : El) : El :=
  let eight := h.cls == 1
  let z :=
    if y.finite then
      if x.finite then (if eight then x.step8 y.w y.a else x.step16 y.w y.a) else x
    else x.absorb y.w.toNat
  { z with inx := z.inx || y.inx, poison := x.poison || y.poison,
           ra := if eight then min 15 (z.ra + y.ra) else if 2 ^ 16 < h.count then 1 else 0 }

end Sys2Proof.Machine
end

