-- ==== Sys2Proof/Machine/Funcs.lean ====
section
/-! DEFINITION. The function instructions (R116): e^x, GELU, SiLU, tanh, the sigmoid, the reciprocal and the reciprocal
square root, correctly rounded. A transcendental value is enclosed between two fixed-point numbers, in Nat arithmetic
only, at growing precision until both ends round alike. -/
namespace Sys2Proof.Machine

/-- An enclosure of a magnitude: lo / 2^P ≤ value ≤ hi / 2^P. -/
structure Encl where
  lo : Nat
  hi : Nat
  deriving DecidableEq, Repr

/-- Quotient rounded up. -/
def cdiv (a b : Nat) : Nat := (a + b - 1) / b

/-- Newton's integer square root from above, with fuel. -/
def isqrtLoop (n : Nat) : Nat → Nat → Nat
  | 0, x => x
  | k + 1, x =>
    let y := (x + n / x) / 2
    if y < x then isqrtLoop n k y else x

/-- floor (√n). -/
def isqrt (n : Nat) : Nat := if n = 0 then 0 else isqrtLoop n 64 (2 ^ (Nat.log2 n / 2 + 1))

/-- The Taylor terms of e^x for x = N / D below 128: each term is rounded down in the lower sum and up in the upper;
the tail after the last term is below that term once n > 2 x. -/
def expLoop (N D : Nat) : Nat → Nat → Encl → Encl → Encl
  | 0, _, t, acc => ⟨acc.lo, acc.hi + t.hi⟩
  | k + 1, n, t, acc =>
    let t' : Encl := ⟨t.lo * N / (D * n), cdiv (t.hi * N) (D * n)⟩
    let acc' : Encl := ⟨acc.lo + t'.lo, acc.hi + t'.hi⟩
    if t'.hi ≤ 1 ∧ 2 * N < D * n then ⟨acc'.lo, acc'.hi + 1⟩ else expLoop N D k (n + 1) t' acc'

/-- e^x for 0 ≤ x = N / D < 128. -/
def expPos (P N D : Nat) : Encl := expLoop N D (P + 600) 1 ⟨2 ^ P, 2 ^ P⟩ ⟨2 ^ P, 2 ^ P⟩

/-- The reciprocal of an enclosure of a value of at least 2^-P. -/
def Encl.inv (P : Nat) (x : Encl) : Encl := ⟨2 ^ (2 * P) / x.hi, cdiv (2 ^ (2 * P)) x.lo⟩

/-- The product of two enclosures. -/
def Encl.mul (P : Nat) (x y : Encl) : Encl := ⟨x.lo * y.lo / 2 ^ P, cdiv (x.hi * y.hi) (2 ^ P)⟩

/-- An enclosure times the rational N / D. -/
def Encl.mulRat (x : Encl) (N D : Nat) : Encl := ⟨x.lo * N / D, cdiv (x.hi * N) D⟩

/-- arctan (1 / q) by its alternating series. -/
def atanLoop (q : Nat) : Nat → Nat → Nat → Bool → Encl → Encl
  | 0, _, t, _, acc => ⟨acc.lo - t, acc.hi + t⟩
  | k + 1, n, t, plus, acc =>
    let lo := t / n
    let hi := cdiv (t + 1) n
    let acc' : Encl := if plus then ⟨acc.lo + lo, acc.hi + hi⟩ else ⟨acc.lo - hi, acc.hi - lo⟩
    if t = 0 then ⟨acc'.lo - 1, acc'.hi + 1⟩ else atanLoop q k (n + 2) (t / (q * q)) (!plus) acc'

def atanInv (P q : Nat) : Encl := atanLoop q P 1 (2 ^ P / q) true ⟨0, 0⟩

/-- π by Machin's formula. -/
def piEncl (P : Nat) : Encl :=
  let a := atanInv (P + 32) 5
  let b := atanInv (P + 32) 239
  ⟨(16 * a.lo - 4 * b.hi) / 2 ^ 32, cdiv (16 * a.hi - 4 * b.lo) (2 ^ 32)⟩

/-- √(2π). -/
def sqrtTwoPi (P : Nat) : Encl :=
  let p := piEncl P
  ⟨isqrt (2 * p.lo * 2 ^ P), isqrt (2 * p.hi * 2 ^ P) + 1⟩

/-- The terms x^(2n+1) / (1·3·5 ⋯ (2n+1)) for x² = N / D. -/
def phiLoop (N D : Nat) : Nat → Nat → Encl → Encl → Encl
  | 0, _, t, acc => ⟨acc.lo, acc.hi + t.hi⟩
  | k + 1, n, t, acc =>
    let t' : Encl := ⟨t.lo * N / (D * n), cdiv (t.hi * N) (D * n)⟩
    let acc' : Encl := ⟨acc.lo + t'.lo, acc.hi + t'.hi⟩
    if t'.hi ≤ 1 ∧ 2 * N < D * n then ⟨acc'.lo, acc'.hi + 1⟩ else phiLoop N D k (n + 2) t' acc'

/-- Φ(x) − 1/2 for 0 ≤ x = N / D < 16: the density times the series of odd powers. -/
def phiHalf (P N D : Nat) : Encl :=
  let e := expPos P (N * N) (2 * D * D)
  let dens := (e.mul P (sqrtTwoPi P)).inv P
  let t : Encl := ⟨2 ^ P * N / D, cdiv (2 ^ P * N) D⟩
  dens.mul P (phiLoop (N * N) (D * D) (P + 600) 3 t t)

/-- The two functions of an enclosure that a destination needs: its rounding, and its rounding up to BF16 (R41). -/
def sameRound (f : EFmt) (P : Nat) (x : Encl) : Bool :=
  let a := Num.fin false x.lo 1 (-(P : Int))
  let b := Num.fin false x.hi 1 (-(P : Int))
  decide (0 < x.lo) && f.conv .even a == f.conv .even b && amaxCode x.lo 1 (-(P : Int)) == amaxCode x.hi 1 (-(P : Int))

/-- A magnitude that rounds as the enclosed value does, found at growing precision. -/
def zivLoop (f : EFmt) (g : Nat → Encl) : List Nat → Num
  | [] => .fin false (g 256).lo 1 (-256)
  | P :: Ps => if sameRound f P (g P) then .fin false (g P).lo 1 (-(P : Int)) else zivLoop f g Ps

def ziv (f : EFmt) (g : Nat → Encl) : Num := zivLoop f g [320, 640, 1280, 2560]

/-- A non-zero magnitude below half the smallest subnormal of every target. -/
def tiny (neg : Bool) : Num := .fin neg 1 1 (-300)

/-- A finite magnitude above the range of every target. -/
def huge (neg : Bool) : Num := .fin neg 1 1 200

/-- A magnitude a hair below n / d × 2^e. -/
def hairBelow (neg : Bool) (n d : Nat) (e : Int) : Num := .fin neg (n * 2 ^ 64 - 1) d (e - 64)

/-- Sets the sign of a magnitude. -/
def Num.signed (neg : Bool) : Num → Num
  | .nan => .nan
  | .inf _ => .inf neg
  | .fin _ n d e => .fin neg n d e

/-- The functions of R116. -/
inductive Fn where
  | exp | relu | gelu | silu | tanh | sigm | rcp | rsq
  deriving DecidableEq, Repr

/-- What a function instruction has for one element: the exact value (or one that rounds as it does), or the written
NaN, or the largest finite value at a pole or an infinite limit (R116). -/
inductive FnRes where
  | val (v : Num)
  | nan
  | top (neg : Bool)
  deriving DecidableEq, Repr

/-- The function at a finite non-zero source of magnitude N / D and sign `neg`. -/
def Fn.finite (fn : Fn) (f : EFmt) (neg : Bool) (n d : Nat) (e : Int) : Num :=
  let (N, D) := frac n d e
  match fn with
  | .exp =>
    if 128 * D ≤ N then (if neg then tiny false else huge false)
    else ziv f fun P => if neg then (expPos P N D).inv P else expPos P N D
  | .relu => if neg then .fin false 0 1 0 else .fin false n d e
  | .gelu =>
    if 16 * D ≤ N then (if neg then tiny true else hairBelow false n d e)
    else (ziv f fun P =>
      let h := phiHalf P N D
      let half := 2 ^ P / 2
      let p : Encl := if neg then ⟨half - h.hi, half - h.lo⟩ else ⟨half + h.lo, half + h.hi⟩
      p.mulRat N D).signed neg
  | .silu =>
    if 128 * D ≤ N then (if neg then tiny true else hairBelow false n d e)
    else (ziv f fun P =>
      let E := expPos P N D
      let den : Encl := ⟨E.lo + 2 ^ P, E.hi + 2 ^ P⟩
      let g := if neg then den.inv P else (E.mul P (den.inv P))
      g.mulRat N D).signed neg
  | .tanh =>
    if 60 * D ≤ N then hairBelow neg 1 1 0
    else (ziv f fun P =>
      let E := expPos P (2 * N) D
      (Encl.mul P ⟨E.lo - 2 ^ P, E.hi - 2 ^ P⟩ (Encl.inv P ⟨E.lo + 2 ^ P, E.hi + 2 ^ P⟩))).signed neg
  | .sigm =>
    if 128 * D ≤ N then (if neg then tiny false else hairBelow false 1 1 0)
    else ziv f fun P =>
      let E := expPos P N D
      let den : Encl := ⟨E.lo + 2 ^ P, E.hi + 2 ^ P⟩
      if neg then den.inv P else E.mul P (den.inv P)
  | .rcp => .fin neg D N 0
  | .rsq =>
    let q := 2 ^ 1024 * D / N
    let r := isqrt q
    if r * r * N = 2 ^ 1024 * D then .fin false r 1 (-512) else .fin false (2 * r + 1) 1 (-513)

/-- The function of a source (R116). -/
def Fn.eval (fn : Fn) (f : EFmt) (x : Num) : FnRes :=
  match x with
  | .nan => .nan
  | .inf neg =>
    match fn with
    | .exp | .relu | .gelu | .silu => if neg then .val (.fin false 0 1 0) else .top false
    | .tanh => .val (.fin neg 1 1 0)
    | .sigm => .val (.fin false (if neg then 0 else 1) 1 0)
    | .rcp => .val (.fin false 0 1 0)
    | .rsq => if neg then .nan else .val (.fin false 0 1 0)
  | .fin neg n d e =>
    if n = 0 then
      match fn with
      | .exp => .val (.fin false 1 1 0)
      | .relu => .val (.fin false 0 1 0)
      | .gelu | .silu | .tanh => .val (.fin neg 0 1 0)
      | .sigm => .val (.fin false 1 1 (-1))
      | .rcp => .top neg
      | .rsq => .top false
    else if fn = .rsq ∧ neg then .nan
    else .val (fn.finite f neg n d e)

end Sys2Proof.Machine
end

