-- ==== Sys2Proof/Machine/Scale.lean ====
section
/-! DEFINITION. The tensor scale table (R41 to R48, R51): entry fields, amax records and counters, the step advance,
and the entry window with its commands. -/
namespace Sys2Proof.Machine

/-- Word `k` of entry `i` (R46). -/
def State.sctW (s : State) (i k : Nat) : BitVec 32 := Sparse.get (fun _ => 0) s.sct (16 * i + k)

/-- Writes word `k` of entry `i`, with good check bits (R45). -/
def State.setSctW (s : State) (i k : Nat) (v : BitVec 32) : State :=
  { s with sct := Sparse.set (fun _ => 0) s.sct (16 * i + k) v, sctEcc := Sparse.set (fun _ => 0) s.sctEcc (16 * i + k) 0 }

/-- The words of entry `i` that do not read good (R45, R185). -/
def State.sctBad (s : State) (i : Nat) : List Nat := badOf s.sctEcc 16 i

/-- A read of entry `i` (R185, R186, R317): of the words of it that do not read good, a single bit is corrected in place, and
what they record is charged to the scale table's block (R319). -/
def State.checkSct (s : State) (i : Nat) : State :=
  (s.sctBad i).foldl (fun s k =>
    let y := Sparse.get (fun _ => 0) s.sctEcc k
    let (m, z) := fixTab s.sct s.sctEcc k
    ({ s with sct := m, sctEcc := z } : State).noteWord (eccKey 3 k) y { unit := blockUnit 8, sig := wordSig (4 * k) y }) s

/-- Whether a word of entry `i` reads as poison. Such an entry is neither recorded into nor advanced, and the results that
use it are marked poison (DESIGN CHOICE, log entry 116). -/
def State.sctPoison (s : State) (i : Nat) : Bool := poisonOf s.sctEcc 16 i

/-- Bits [hi:lo] of a word. -/
def wbits (w : BitVec 32) (hi lo : Nat) : Nat := w.toNat / 2 ^ lo % 2 ^ (hi + 1 - lo)

/-- A word with bits [hi:lo] replaced. -/
def wput (w : BitVec 32) (hi lo v : Nat) : BitVec 32 :=
  let m : BitVec 32 := BitVec.ofNat 32 (2 ^ (hi + 1 - lo) - 1) <<< lo
  (w &&& ~~~m) ||| ((BitVec.ofNat 32 v <<< lo) &&& m)

/-- An entry as its sixteen words. -/
abbrev Entry := List (BitVec 32)

def State.entry (s : State) (i : Nat) : Entry := (List.range 16).map (s.sctW i)

/-- Writes an entry's words from word `k` on. -/
def State.putWords (s : State) (i : Nat) : Nat → List (BitVec 32) → State
  | _, [] => s
  | k, v :: vs => (s.setSctW i k v).putWords i (k + 1) vs

def State.setEntry (s : State) (i : Nat) (e : Entry) : State := s.putWords i 0 (e.take 16)

def enW (e : Entry) (k : Nat) : BitVec 32 := e.getD k 0
def enSet (e : Entry) (k : Nat) (v : BitVec 32) : Entry := e.set k v
def enCUR (e : Entry) : BitVec 16 := (enW e 8).truncate 16
def enPREV (e : Entry) : BitVec 16 := (enW e 8 >>> 16).truncate 16
def enTENSOR (e : Entry) : BitVec 16 := (enW e 12).truncate 16
def enFORMAT (e : Entry) : Nat := wbits (enW e 12) 19 16
def enH (e : Entry) : Nat := wbits (enW e 12) 23 20 + 1
def enMARGIN (e : Entry) : Nat := wbits (enW e 12) 26 24
def enFILL (e : Entry) : Nat := wbits (enW e 13) 19 16
def enVALID (e : Entry) : Bool := (enW e 13).getLsbD 15
def enFREEZE (e : Entry) : Bool := (enW e 13).getLsbD 14

/-- Ring slot `k` (R46). -/
def enRING (e : Entry) (k : Nat) : Nat := wbits (enW e (k / 2)) (16 * (k % 2) + 15) (16 * (k % 2))
def enSetRING (e : Entry) (k v : Nat) : Entry :=
  enSet e (k / 2) (wput (enW e (k / 2)) (16 * (k % 2) + 15) (16 * (k % 2)) v)

/-- A ring value as the fold and the advance take it: NaN or a set sign bit counts as 0 (R42). -/
def ringVal (v : Nat) : Nat := if 0x7F80 < v then 0 else v

/-- The fold of an amax into ring slot `k` by maximum (R41). -/
def enFold (e : Entry) (k a : Nat) : Entry := enSetRING e k (max (ringVal (enRING e k)) a)

/-- Whether recording and counting are enabled (R41). -/
def State.recEn (s : State) : Bool := s.flag F.SCT_CTRL_REC_EN

/-- Records an amax code in entry `i` for the step it was issued in; nothing while REC_EN is 0 or the entry has lost
VALID (R41, R48). -/
def State.recordAmax (s : State) (i : Nat) (step : BitVec 32) (a : Nat) : State :=
  if s.recEn && enVALID (s.entry i) && !s.sctPoison i then
    let s := s.checkSct i
    s.setEntry i (enFold (s.entry i) (step.toNat % 16) a)
  else s

/-- An entry with saturations, underflows and non-finite sources added: its counters saturate, and its step flags and
NONFINITE set (R40, R46, R47). -/
def enCount (e : Entry) (sat ufl nf : Nat) : Entry :=
  let e := enSet e 9 (BitVec.ofNat 32 (min 0xFFFFFFFF ((enW e 9).toNat + sat)))
  let e := enSet e 10 (BitVec.ofNat 32 (min 0xFFFFFFFF ((enW e 10).toNat + ufl)))
  let w := wput (enW e 13) 31 24 (min 0xFF (wbits (enW e 13) 31 24 + nf))
  let w := if 0 < sat then w ||| 0x1000 else w
  let w := if 0 < ufl then w ||| 0x0800 else w
  let w := if 0 < nf then w ||| 0x2000 else w
  enSet e 13 w

/-- Adds a conversion's counts to the entry it names and to the package totals; an entry that has lost VALID takes
none, and while REC_EN is 0 no counter changes (R40, R41), nor do NONFINITE, SAT_STEP and UFL_STEP, of which R41 does not
say so (DESIGN CHOICE, log entry 117). -/
def State.charge (s : State) (i sat ufl nf : Nat) : State :=
  if s.recEn then
    let s := if enVALID (s.entry i) && !s.sctPoison i then
        let s := s.checkSct i
        s.setEntry i (enCount (s.entry i) sat ufl nf)
      else s
    ((s.fsat F.SCT_SAT_TOTAL_COUNT sat).fsat F.SCT_UFL_TOTAL_COUNT ufl).fsat F.SCT_NONFIN_TOTAL_COUNT nf
  else s

/-- The largest magnitude a FORMAT's codes reach: 448 or 57,344 (R42). -/
def fmaxOf (fmt : Nat) : Nat := if fmt = 0 then 448 else 57344

/-- The smallest scale word with value at least n / d × 2^e, clamped to a valid word; the flag says whether it was
clamped (R42). -/
def wantWord (n d : Nat) (e : Int) : BitVec 16 × Bool :=
  let (N, D) := frac n d e
  let E := flog2 N D
  let (M, G) := (N * 2 ^ (8 - E).toNat, D * 2 ^ (E - 8).toNat)
  let f := (M + G - 1) / G - 256
  let x : Int := E + 127 + (if f = 256 then 1 else 0)
  if x < 1 then (0x0100, true)
  else if 254 < x then (0xFEFF, true)
  else (BitVec.ofNat 16 (x.toNat * 256 + f % 256), false)

/-- One valid entry through the advance of the step `st` that has ended (R42); the flag says whether it was clamped. -/
def enAdvance (e : Entry) (st : BitVec 32) : Entry × Bool :=
  let n := min (enH e) (enFILL e + 1)
  let a := (List.range n).foldl (fun m j => max m (ringVal (enRING e ((st.toNat + 16 - j) % 16)))) 0
  let cur := enCUR e
  let (cur', clamped) :=
    if !enFREEZE e && decide (enFORMAT e ≤ 1) && decide (0 < a) then
      match bf16.decode a with
      | .fin _ k d x => wantWord (k * 2 ^ enMARGIN e) (d * fmaxOf (enFORMAT e)) x
      | _ => (0xFEFF, true)
    else (cur, false)
  let e := enSet e 8 (cur ++ cur')
  let w := enW e 13 &&& ~~~(0x1E00 : BitVec 32)
  let w := if clamped then w ||| 0x0400 else w
  let w := if a = 0 then w ||| 0x0200 else w
  let w := wput w 19 16 (min (wbits w 19 16 + 1) 15)
  let e := enSet e 13 w
  let e := enSetRING e ((st.toNat + 1) % 16) 0
  (enSet e 11 (st + 1), clamped)

/-- The indices of the entries that hold anything. -/
def State.sctIndices (s : State) : List Nat := (s.sct.map fun p => p.1 / 16).dedup

/-- The scale-table advance (R42): every VALID entry, then SCT_STEP. -/
def State.scaleAdvance (s : State) : State :=
  let st := s.reg Reg.SCT_STEP
  let (s, n) := s.sctIndices.foldl (fun (p : State × Nat) i =>
    let t := p.1.checkSct i
    let e := t.entry i
    if enVALID e && !t.sctPoison i then
      let (e', c) := enAdvance e st
      (t.setEntry i e', p.2 + (if c then 1 else 0))
    else (t, p.2)) (s, 0)
  (s.fset F.SCT_ADV_STATUS_CLAMPS (min 0xFFFF n)).setReg Reg.SCT_STEP (st + 1)

/-! ## Schedules (R157, R158) -/

/-- A schedule table's value at step `st`: constant outside its range, a step function, or the exact linear value
rounded once to binary32 (R158). -/
def schedValue (step : Bool) (bps : List (BitVec 32 × BitVec 32)) (st : BitVec 32) : BitVec 32 :=
  match bps with
  | [] => 0
  | (s0, v0) :: rest =>
    if st.toNat ≤ s0.toNat then v0
    else
      let rec go : BitVec 32 × BitVec 32 → List (BitVec 32 × BitVec 32) → BitVec 32
        | (_, v), [] => v
        | (a, v), (b, u) :: r =>
          if b.toNat ≤ st.toNat then go (b, u) r
          else if step then v
          else
            let x := binary32.decode v.toNat
            let d := (binary32.decode u.toNat).add x.negate
            let t := match d with
              | .fin sg n dd e => Num.fin sg (n * (st.toNat - a.toNat)) (dd * (b.toNat - a.toNat)) e
              | y => y
            BitVec.ofNat 32 (binary32.conv .even (x.add t)).code
      go (s0, v0) rest

/-- Evaluates schedule slot `k` at the current SCT_STEP into PLN_SCHED_Vk, where it is loaded (R158). -/
def State.evalSlot (s : State) (k : Nat) : State :=
  match lookup s.sched k with
  | some (m, bps) => s.setReg (Reg.PLN_SCHED_V k) (schedValue m bps (s.reg Reg.SCT_STEP))
  | none => s

/-- Evaluates every loaded schedule slot at the current SCT_STEP into PLN_SCHED_Vk (R157, R158). -/
def State.evalSchedules (s : State) : State := (List.range 16).foldl State.evalSlot s

/-! ## The entry window and SCT_STEP (R44, R48, R51) -/

/-- A window image that may not be committed: VALID with a reserved FORMAT, or with FORMAT 0 or 1 and a CUR or PREV that
is not a valid scale word (R51). -/
def winBad (e : Entry) : Bool :=
  enVALID e && (decide (2 < enFORMAT e) || (decide (enFORMAT e ≤ 1) && !(swValid (enCUR e) && swValid (enPREV e))))

/-- The window registers as an entry image. -/
def State.winImage (s : State) : Entry := (List.range 16).map fun k => s.reg (Reg.SCT_WIN_DATA k)

/-- Writes the window registers from `k` on. -/
def State.putWin (s : State) : Nat → List (BitVec 32) → State
  | _, [] => s
  | k, v :: vs => (s.setReg (Reg.SCT_WIN_DATA k) v).putWin (k + 1) vs

/-- A window command starts: SCT_WIN_CMD takes OP and INDEX, and on completion SEQ counts and BUSY is 0 (R48, R51). -/
def State.winCmd (s : State) (op i : Nat) : State :=
  (((s.fset F.SCT_WIN_CMD_OP op).fset F.SCT_WIN_CMD_INDEX i).setFlag F.SCT_WIN_STATUS_BUSY false).fwrap
    F.SCT_WIN_STATUS_SEQ 1

/-- The window read: all sixteen words of the entry are latched (R48). -/
def State.winRead (s : State) (i : Nat) : State :=
  let s := s.checkSct i
  (s.winCmd 1 i).putWin 0 (s.entry i)

/-- The window write: all sixteen words are committed, unless the image is refused with ERR (R48, R51). -/
def State.winWrite (s : State) (i : Nat) : State :=
  let e := s.winImage
  let s := s.winCmd 2 i
  if winBad e then s.setFlag F.SCT_WIN_STATUS_ERR true else (s.setFlag F.SCT_WIN_STATUS_ERR false).setEntry i e

/-- The window clear: SAT_CNT, UFL_CNT, NONFIN_CNT and NONFINITE (R51). -/
def State.winClear (s : State) (i : Nat) : State :=
  let s := s.checkSct i
  let e := s.entry i
  let e := enSet (enSet e 9 0) 10 0
  let e := enSet e 13 (wput (enW e 13) 31 24 0 &&& ~~~(0x2000 : BitVec 32))
  (s.winCmd 3 i).setEntry i e

/-- A write of SCT_STEP: applied while no advance and no UPDATE runs and REC_EN is 0, and every loaded schedule slot is
then evaluated; else ignored with STEP_ERR (R44). -/
def State.writeStep (s : State) (v : BitVec 32) : State :=
  if s.flag F.SCT_ADV_STATUS_BUSY || s.upd.isSome || s.recEn then s.setFlag F.SCT_ADV_STATUS_STEP_ERR true
  else (s.setReg Reg.SCT_STEP v).evalSchedules

end Sys2Proof.Machine
end

