-- ==== Sys2Proof/Machine/TileRun.lean ====
section
/-! DEFINITION. Tile instructions in their units (R91 to R93, R103 to R116, R120 to R125): what a start checks, what an
operand pair adds, what a completion writes and returns. -/
namespace Sys2Proof.Machine

/-! ## Elements of tiles (R87, R88) -/

/-- Byte `i` of tile `t` of engine `e`. -/
def State.tb (s : State) (e t i : Nat) : Nat := (s.tileB (tk e t * 2048 + i)).toNat

/-- Byte `i` of the side-band of tile `t`. -/
def State.sb (s : State) (e t i : Nat) : Nat := (s.sideB (tk e t * 64 + i)).toNat

/-- The syndrome of word `i` of a tile: 0 to 511 its data, 512 to 527 its side-band (R185). -/
def State.tileSyn (s : State) (e t i : Nat) : BitVec 7 := Sparse.get (fun _ => 0) s.tileEcc (528 * tk e t + i)
def State.setTileSyn (s : State) (e t i : Nat) (y : BitVec 7) : State :=
  { s with tileEcc := Sparse.set (fun _ => 0) s.tileEcc (528 * tk e t + i) y }

/-- Writes a byte of a tile or of its side-band; its word takes good check bits (R185). -/
def State.setTb (s : State) (e t i v : Nat) : State :=
  (s.setTileB (tk e t * 2048 + i) (BitVec.ofNat 8 v)).setTileSyn e t (i / 4) 0
def State.setSb (s : State) (e t i v : Nat) : State :=
  (s.setSideB (tk e t * 64 + i) (BitVec.ofNat 8 v)).setTileSyn e t (512 + i / 4) 0

/-- The words of a tile that do not read good. -/
def State.badWords (s : State) (e t : Nat) : List Nat :=
  (s.tileEcc.filter fun p => p.1 / 528 == tk e t).map fun p => p.1 % 528

/-- Whether every word of a tile reads good. -/
def State.tileClean (s : State) (e t : Nat) : Bool := s.badWords e t == []

/-- Byte `b` of word `i` of a tile's data or side-band. -/
def State.wordB (s : State) (e t i b : Nat) : Nat :=
  if i < 512 then s.tb e t (4 * i + b) else s.sb e t (4 * (i - 512) + b)

/-- A read of a tile's word that does not read good (R185, R186, R317, R319): a single bit is corrected in place; an
uncorrectable data word is marked poison in the tag, and an uncorrectable word of the side-band marks every data word, as
R144 does. The record, against the engine, carries the fields of `r`. -/
def State.checkWord (s : State) (e t i : Nat) (r : FRec) : State :=
  let y := s.tileSyn e t i
  let v := BitVec.ofNat 32 (s.wordB e t i 0 + 256 * s.wordB e t i 1 + 65536 * s.wordB e t i 2 + 16777216 * s.wordB e t i 3)
  let (w, z) := fixWord v y
  let put (s : State) (b : Nat) : State :=
    let x := (w.extractLsb' (8 * b) 8).toNat
    if i < 512 then s.setTb e t (4 * i + b) x else s.setSb e t (4 * (i - 512) + b) x
  let s := ((((put s 0) |> fun s => put s 1) |> fun s => put s 2) |> fun s => put s 3).setTileSyn e t i z
  let g := s.tag (tk e t)
  let s := if (deliver v y).p then
      s.setTag (tk e t) { g with poison := if i < 512 then g.poison ||| (1#512 <<< i) else BitVec.allOnes 512 }
    else s
  s.noteWord (eccKey 2 (528 * tk e t + i)) y
    { r with unit := engineUnit e, sig := wordSig (if i < 512 then 2048 * t + 4 * i else 64 * t + 4 * (i - 512)) y }

/-- Reads a tile whole: every word of it is checked (R185). -/
def State.checkTile (s : State) (e : Nat) (r : FRec) (t : Nat) : State :=
  (s.badWords e t).foldl (fun s i => s.checkWord e t i r) s

/-- Reads the tiles an instruction takes (R185). -/
def State.checkTiles (s : State) (e : Nat) (q : QEnt) (ts : List Nat) : State :=
  ts.foldl (fun s t => s.checkTile e (s.faultTask e q.ctx (opc q.w) q.pc {}) t) s

/-- The scale word in a tile's side-band (R55). -/
def State.tileSw (s : State) (e t : Nat) : BitVec 16 := BitVec.ofNat 16 (s.sb e t 0 + 256 * s.sb e t 1)

/-- The scale-table entry index in a tile's side-band (R55). -/
def State.tileEntry (s : State) (e t : Nat) : Nat := s.sb e t 2 + 256 * s.sb e t 3

/-- The code of element (r, c) of a tile: of half `h` of an 8-bit tile. -/
def State.codeAt (s : State) (e t f h r c : Nat) : Nat :=
  if fmt8 f then s.tb e t (64 * r + 32 * h + c) else s.tb e t (64 * r + 2 * c) + 256 * s.tb e t (64 * r + 2 * c + 1)

/-- The element format of a format code (R100). -/
def efmt (f : Nat) : EFmt :=
  if f = 0 then bf16 else if f = 1 then binary16 else if f = 2 ∨ f = 4 then e4m3 else if f = 3 ∨ f = 5 then e5m2
  else zm8u

/-- The block scale code of row r, half h (R87). -/
def State.blockAt (s : State) (e t h r : Nat) : Nat := s.sb e t (2 * r + h)

/-- The scale that multiplies the codes of row r, half h of a tile. -/
def State.scaleAt (s : State) (e t f h r : Nat) : Num :=
  if fmtTs f then swVal (s.tileSw e t)
  else if fmt8 f then e8m0 (s.blockAt e t h r)
  else .fin false 1 1 0

/-- The exact value of an element with its scale (R29, R32, R34). -/
def State.elemAt (s : State) (e t f h r c : Nat) : Num :=
  ((efmt f).decode (s.codeAt e t f h r c)).mul (s.scaleAt e t f h r)

/-- Whether the word that holds an element is marked poison (R88). -/
def State.poisonAt (s : State) (e t f h r c : Nat) : Bool :=
  let i := if fmt8 f then 64 * r + 32 * h + c else 64 * r + 2 * c
  (s.tag (tk e t)).poison.getLsbD (i / 4)

/-- A tile's format code from its tag. -/
def State.fmtOf (s : State) (e t : Nat) : Nat := (s.tag (tk e t)).fmt.toNat

/-! ## Hazards and start (R91, R92) -/

/-- Entry, and whether it has started. -/
def Engine.marked (x : Engine) : List (QEnt × Bool) :=
  (x.qA ++ x.qB ++ x.qV).map (·, false) ++ (x.runA.toList ++ x.runB.toList ++ x.runV.toList).map (·, true)

/-- Whether two lists share a register. -/
def meets (a b : List Nat) : Bool := a.any b.contains

/-- Whether an earlier instruction of the engine keeps `q` from starting (R91). -/
def Engine.holds (x : Engine) (q : QEnt) : Bool :=
  x.marked.any fun (p, st) =>
    decide (p.id < q.id) &&
      (meets (tilesWritten p.w) (tilesToRead q.w false 0 ++ tilesWritten q.w) ||
        meets (tilesToRead p.w st p.pair) (tilesWritten q.w) ||
        meets (accsWritten p.w) (accsRead q.w ++ accsWritten q.w) ||
        meets (accsRead p.w) (accsWritten q.w) ||
        (match scalarWritten p.w, scalarWritten q.w with
         | some a, some b => a == b && p.ctx == q.ctx
         | _, _ => false))

/-- The tiles a stream store holds from a later writer (R91, R144): each ring register until its first tile has been read,
and afterwards the one whose tile it is reading, so that an instruction may refill the ring (DEDUCED, log entry 115). -/
def Xfer.tilesLeft (x : Xfer) : List Nat :=
  let d := x.desc
  let c := x.unit / d.per
  if x.st = .free ∨ d.store = false ∨ d.lkind = 2 ∨ d.tiles ≤ c then []
  else ((List.range (min d.tiles (2 ^ d.rlog) - c)).map fun j => d.tileReg (c + j)) ++
    (if x.unit % d.per ≠ 0 then [d.tileReg c] else [])

/-- Whether an earlier stream store of engine `e` still reads a tile `q` writes (R91, R93). -/
def State.storeHolds (s : State) (e : Nat) (q : QEnt) : Bool :=
  match s.slotOf e with
  | none => false
  | some l => (List.range 6).any fun n =>
      let x := s.xfer (6 * l + n)
      decide (x.id < q.id) && meets x.tilesLeft (tilesWritten q.w)

/-- The head entry of the queue a unit serves; a TMAC2 starts only when it heads both (R90). -/
def Engine.headOf (x : Engine) (u : Unit3) : Option QEnt :=
  match u with
  | .v => if x.runV = none then x.qV.head? else none
  | .a =>
    match x.qA.head? with
    | none => none
    | some q =>
      if x.runA ≠ none then none
      else if opc q.w = opTMAC2 then (if x.runB = none ∧ x.qB.head?.map (·.id) = some q.id then some q else none)
      else some q
  | .b =>
    match x.qB.head? with
    | none => none
    | some q =>
      if x.runB ≠ none then none
      else if opc q.w = opTMAC2 then (if x.runA = none ∧ x.qA.head?.map (·.id) = some q.id then some q else none)
      else some q

/-- Takes an entry out of the queues and units. -/
def Engine.drop (x : Engine) (id : Nat) : Engine :=
  let keep (l : List QEnt) := l.filter fun q => q.id ≠ id
  let clr (o : Option QEnt) := match o with
    | some q => if q.id = id then none else some q
    | none => none
  { x with qA := keep x.qA, qB := keep x.qB, qV := keep x.qV, runA := clr x.runA, runB := clr x.runB,
           runV := clr x.runV, vbad := x.vbad && (clr x.runV).isSome }

/-- Puts an entry into its units, out of its queues. -/
def Engine.run (x : Engine) (q : QEnt) : Engine :=
  let y := x.drop q.id
  let qs := queuesOf q.w
  { y with runA := if qs.contains .a then some q else y.runA, runB := if qs.contains .b then some q else y.runB,
           runV := if qs.contains .v then some q else y.runV }

/-- An instruction completes (R120): it leaves its unit and its context takes the code and status (R122 to R125). -/
def State.finish (s : State) (e : Nat) (q : QEnt) (c : Code) (m : Num4) (cause pairs : Nat) : State :=
  (((s.settle e).modEng e fun x => x.drop q.id).modCtx (4 * e + q.ctx) fun x => x.complete c m cause q.pc pairs).reHold e

/-- A completion with NUMERIC_FAULT (R33, R47, R103). -/
def State.numFault (s : State) (e : Nat) (q : QEnt) (cause pairs : Nat) : State :=
  s.finish e q .numericFault {} cause pairs

/-- An accumulator's key, and its header. -/
def ak (e a : Nat) : Nat := 8 * e + a
def State.hd (s : State) (e a : Nat) : Hd := Hd.unpack (s.head (ak e a))
def State.setHd (s : State) (e a : Nat) (h : Hd) : State := s.setHead (ak e a) h.pack
def State.el (s : State) (e a i : Nat) : El := El.unpack (s.acc (ak e a * 1024 + i))
def State.setEl (s : State) (e a i : Nat) (x : El) : State := s.setAcc (ak e a * 1024 + i) x.pack

/-- Applies a function to every element of an accumulator, given its index 32 r + c. -/
def State.mapAcc (s : State) (e a : Nat) (f : Nat → El → El) : State :=
  (List.range 1024).foldl (fun s i => s.setEl e a i (f i (s.el e a i))) s

/-- Sets POISON in every element of an accumulator (R84, R314). -/
def State.poisonAcc (s : State) (e a : Nat) : State := s.mapAcc e a fun _ x => { x with poison := true }

/-! ## TMAC (R102, R103) -/

/-- The fraction a tile's tensor scale word gives the header; 0 for an MXFP8 operand (R76). -/
def State.fracOf (s : State) (e t f : Nat) : Nat := if fmtTs f then (s.tileSw e t).toNat % 256 else 0

/-- FA and FB of a TMAC's pair: 0 in the 16-bit class (R76). -/
def State.pairFracs (s : State) (e : Nat) (w : BitVec 64) (i : Nat) : Nat × Nat :=
  if tmEight w then (s.fracOf e (tmRegA w i) (tmFMTA w), s.fracOf e (tmRegB w i) (tmFMTB w)) else (0, 0)

/-- The class code of a TMAC (R63). -/
def tmCls (w : BitVec 64) : Nat := if tmEight w then 1 else 2

/-- Whether a tensor-scaled operand presents an invalid scale word (R33). -/
def State.badSw (s : State) (e t f : Nat) : Bool := fmtTs f && !swValid (s.tileSw e t)

/-- Whether an MXFP8 operand's block direction does not run along the reduction (R80). -/
def blockBad (f : Nat) (along : Bool) : Bool := fmtMx f && !along

/-- The checks a TMAC makes before it adds anything (R103): the add check of R76, the .xf refusals of R70, and R33 on
the first pair. -/
def State.tmacStart (s : State) (e : Nat) (w : BitVec 64) : Option Nat :=
  let h := s.hd e (tmACC w)
  let (fa, fb) := s.pairFracs e w 0
  if !tmOW w && (h.cls != tmCls w || h.fa != fa || h.fb != fb) then some causeACC
  else if tmXF w && (!tmEight w || (!tmOW w && h.preload)) then some causeXF
  else if s.badSw e (tmRegA w 0) (tmFMTA w) || s.badSw e (tmRegB w 0) (tmFMTB w) then some causeSCALE
  else none

/-- The scale exponent of an operand's codes in row `r`, half `h` (R66) (DEDUCED, log entry 91). -/
def State.scExp (s : State) (e t f h r : Nat) : Int :=
  if fmtTs f then ((s.tileSw e t).toNat / 256 : Nat) - 127
  else (s.blockAt e t h r : Int) - 127

/-- The header after pair `i` (R63, R70, R76): an overwrite resets it at pair 0; the 8-bit class takes every scale sum
of the pair into SMIN and SMAX (DEDUCED, log entry 93). -/
def State.pairHead (s : State) (e : Nat) (w : BitVec 64) (i : Nat) : Hd :=
  let h := s.hd e (tmACC w)
  let (fa, fb) := s.pairFracs e w i
  if tmEight w then
    let sums := (List.range 2).flatMap fun hf => (List.range 32).flatMap fun r => (List.range 32).map fun c =>
      s.scExp e (tmRegA w i) (tmFMTA w) hf r + s.scExp e (tmRegB w i) (tmFMTB w) hf c
    let first := s.scExp e (tmRegA w i) (tmFMTA w) 0 0 + s.scExp e (tmRegB w i) (tmFMTB w) 0 0
    let h := if tmOW w && i == 0 then { cls := 1, fa := fa, fb := fb, smin := first, smax := first } else h
    { h with count := min 0xFFFFFFFF (h.count + 64), smin := sums.foldl min h.smin, smax := sums.foldl max h.smax }
  else
    let h : Hd := if tmOW w && i == 0 then { cls := 2 } else h
    h.bump 32

/-- The checks before a pair enters (R103), in the rule's order. -/
def State.pairCheck (s : State) (e : Nat) (w : BitVec 64) (i : Nat) : Option Nat :=
  let ra := tmRegA w i
  let rb := tmRegB w i
  let h := s.hd e (tmACC w)
  if s.fmtOf e ra ≠ tmFMTA w ∨ s.fmtOf e rb ≠ tmFMTB w then some causeFORMAT
  else if s.badSw e ra (tmFMTA w) || s.badSw e rb (tmFMTB w) then some causeSCALE
  else if blockBad (tmFMTA w) (!tmTRA w) || blockBad (tmFMTB w) (tmTRB w) then some causeBLOCKDIR
  else if !(tmOW w && i == 0) && s.pairFracs e w i ≠ (h.fa, h.fb) then some causeACC
  else if tmXF w && !(s.pairHead e w i).inside then some causeENVELOPE
  else none

/-- Row and column of an operand tile at reduction position `k` of one half for row or column `i` of the product: an
operand read along its rows, or transposed (R80). -/
def along (rows : Bool) (i k : Nat) : Nat × Nat := if rows then (i, k) else (k, i)

/-- The lowest bit weight u of a format pair's code product (R66). -/
def lowBit (f g : Nat) : Int :=
  let of (f : Nat) : Int := (efmt f).emin - (efmt f).m
  of f + of g

/-- The sum of two exact values with non-finite values absorbing (R73). -/
def Num.plus (x y : Num) : Num := x.add y

/-- One element of the accumulator after an 8-bit-class pair (R57, R66, R73, R74): 8 steps, each the exact sum of 8
consecutive products, in increasing reduction position. -/
def State.pairEl8 (s : State) (e : Nat) (w : BitVec 64) (i r c : Nat) (x : El) : El :=
  let ta := tmRegA w i
  let tb := tmRegB w i
  let fa := tmFMTA w
  let fb := tmFMTB w
  (List.range 8).foldl (fun x g =>
    let h := g / 4
    let (p, poi, sum) := (List.range 8).foldl (fun (acc : Num × Bool × Int) j =>
      let k := 8 * (g % 4) + j
      let (ar, ac) := along (!tmTRA w) r k
      let (br, bc) := along (tmTRB w) c k
      let prod := ((efmt fa).decode (s.codeAt e ta fa h ar ac)).mul ((efmt fb).decode (s.codeAt e tb fb h br bc))
      let prod := if (fmtMx fa && s.blockAt e ta h ar == 0xFF) || (fmtMx fb && s.blockAt e tb h br == 0xFF) then .nan
        else prod
      (acc.1.plus prod, acc.2.1 || s.poisonAt e ta fa h ar ac || s.poisonAt e tb fb h br bc,
        s.scExp e ta fa h ar + s.scExp e tb fb h br)) (.fin false 0 1 0, false, 0)
    let q := lowBit fa fb + sum
    let x := if g = 0 ∧ tmOW w ∧ i = 0 then El.fresh true q else x
    let y := x.step true (p.scale2 sum) q
    { y with poison := y.poison || poi }) x

/-- One element of the accumulator after a 16-bit-class pair (R57, R67, R74): 32 steps of one product each. -/
def State.pairEl16 (s : State) (e : Nat) (ta fa ha : Nat) (ra : Bool) (tb fb hb : Nat) (rb : Bool) (fresh : Bool)
    (r c : Nat) (x : El) : El :=
  let x := if fresh then El.fresh false 0 else x
  (List.range 32).foldl (fun x k =>
    let (ar, ac) := along ra r k
    let (br, bc) := along rb c k
    let y := x.step false ((s.elemAt e ta fa ha ar ac).mul (s.elemAt e tb fb hb br bc)) 0
    { y with poison := y.poison || s.poisonAt e ta fa ha ar ac || s.poisonAt e tb fb hb br bc }) x

/-- LONGSUM in every element of a 16-bit-class tile once COUNT passes 2^16 (R72). -/
def El.longsum (h : Hd) (x : El) : El := if h.cls = 2 ∧ 2 ^ 16 < h.count then { x with ra := 1 } else x

/-- An operand pair as the capture latch keeps it (R313). -/
def State.captured (s : State) (e : Nat) (w : BitVec 64) (i acc ta tb : Nat) : Capture :=
  let grab (t : Nat) := s.tiles.filter fun p => p.1 / 2048 == tk e t
  let side (t : Nat) := s.sides.filter fun p => p.1 / 64 == tk e t
  { w := w, pair := i, acc := acc, a := grab ta, sa := side ta, b := grab tb, sb := side tb }

/-- The capture latch keeps the last two pairs (R313). -/
def Engine.keep (x : Engine) (cs : List Capture) : Engine :=
  let l := x.latch ++ cs
  { x with latch := l.drop (l.length - 2) }

/-- Adds pair `i` of a TMAC into its accumulator (R60, R63, R67, R72, R76). -/
def State.addPair (s : State) (e : Nat) (w : BitVec 64) (i : Nat) : State :=
  let a := tmACC w
  let h := s.pairHead e w i
  let fresh := tmOW w && i == 0
  let s' := s.mapAcc e a fun n x =>
    if tmEight w then s.pairEl8 e w i (n / 32) (n % 32) x
    else (s.pairEl16 e (tmRegA w i) (tmFMTA w) (tmHalf w i) (!tmTRA w) (tmRegB w i) (tmFMTB w) (tmHalf w i) (tmTRB w)
      fresh (n / 32) (n % 32) x).longsum h
  (s'.setHd e a h).modEng e fun x => x.keep [s.captured e w i a (tmRegA w i) (tmRegB w i)]

/-! ## Loupe's recomputation (R118) -/

/-- Whether half `h` of a tile has a 16-bit copy: a 16-bit tile is its own. -/
def State.hasCopy (s : State) (e t f h : Nat) : Bool :=
  !fmt8 f || (if h = 1 then (s.tag (tk e t)).sh1 else (s.tag (tk e t)).sh0)

/-- The value of an element's 16-bit copy: its own, or the BF16 one of its half's shadow (R118, R177). -/
def State.copyAt (s : State) (e t f h r c : Nat) : Num :=
  if fmt8 f then
    match s.shadows.find? fun (x : Shadow) => x.clu == e / 17 && some x.l == s.slotOf e && x.tile == t && x.half == (h == 1) with
    | none => .nan
    | some x =>
      let o := 0x3E0000 + 2048 * x.slot + 2 * (32 * r + c)
      bf16.decode ((s.stgW (e / 17) (4 * (o / 4))).v.extractLsb' (8 * (o % 4)) 16).toNat
  else s.elemAt e t f h r c

/-- One element of a chain after a pair, in the 16-bit class: 32 steps for each half the pair takes. -/
def State.loupeEl (s : State) (e ta fa : Nat) (ra : Bool) (tb fb : Nat) (rb : Bool) (hs : List (Nat × Nat)) (r c : Nat)
    (x : El) : El :=
  hs.foldl (fun x h => (List.range 32).foldl (fun x k =>
    let (ar, ac) := along ra r k
    let (br, bc) := along rb c k
    x.step false ((s.copyAt e ta fa h.1 ar ac).mul (s.copyAt e tb fb h.2 br bc)) 0) x) x

/-- The armed chain of a cluster that runs on an accumulator of engine `e`. -/
def State.chainOn (s : State) (e a : Nat) : Bool :=
  match (s.loupe (e / 17)).armed with
  | some (x, b, _) => x == e && b == a && (s.loupe (e / 17)).sample.isNone
  | none => false

/-- A pair enters an accumulator: an overwrite begins the armed chain, which is recomputed from the operands' 16-bit
copies; one without a copy, or sampling suspended, makes it a chain to abandon (R118, R304). -/
def State.loupePair (s : State) (e a : Nat) (fresh : Bool) (ta fa : Nat) (ra : Bool) (tb fb : Nat) (rb : Bool)
    (hs : List (Nat × Nat)) : State :=
  let l := s.loupe (e / 17)
  if !s.chainOn e a || (!fresh && l.chain.isNone) then s
  else
    let ok := s.sampling && hs.all fun h => s.hasCopy e ta fa h.1 && s.hasCopy e tb fb h.2
    let broken := !ok || (!fresh && l.broken)
    let old := if fresh then [] else l.chain.getD []
    let new (i : Nat) : BitVec 128 :=
      let x := if fresh then El.fresh false 0 else El.unpack (Sparse.get (fun _ => 0) old i)
      (s.loupeEl e ta fa ra tb fb rb hs (i / 32) (i % 32) x).pack
    s.setLoupe (e / 17) { l with broken := broken, chain := some (if broken then []
      else (List.range 1024).foldl (fun m i => Sparse.set (fun _ => 0) m i (new i)) []) }

/-- Anything but a pair that changes an accumulator breaks a chain that runs on it (DEDUCED, log entry 30). -/
def State.loupeBreak (s : State) (e a : Nat) : State :=
  let l := s.loupe (e / 17)
  if s.chainOn e a && l.chain.isSome then s.setLoupe (e / 17) { l with broken := true } else s

/-- The halves a TMAC's pair takes of its operands: both in turn in the 8-bit class. -/
def tmHalves (w : BitVec 64) (i : Nat) : List (Nat × Nat) :=
  if tmEight w then [(0, 0), (1, 1)] else [(tmHalf w i, tmHalf w i)]

/-- Clears FULL of a tile that was read with its consume flag set (R93). -/
def State.consume (s : State) (e t : Nat) (c : Bool) : State := if c then s.setFull e t false else s

/-- The entry in an array's unit. -/
def Engine.inUnit (x : Engine) (u : Unit3) : Option QEnt :=
  match u with
  | .a => x.runA
  | .b => x.runB
  | .v => x.runV

/-- A context whose issued instruction waits for a stream to set FULL is LATE (R92, R129). -/
def State.lateOn (s : State) (e k : Nat) (ts : List Nat) : State :=
  (s.settle e).modCtx (4 * e + k) fun x => if x.st = .run then { x with st := .late, miss := ts } else x

/-- TMAC_PAIR_ENTRY (R92, R93, R103): the next pair of the running TMAC waits for FULL, stops the instruction if a check
refuses it, or enters: its products are added and its registers are read whole. -/
def execTmacPairEntry (p : Pos) (u : Unit3) (s : State) : Host.Outcome State Fault Refusal :=
  let e := p.key
  .next (match (s.eng e).inUnit u with
    | none => s
    | some q =>
      let i := q.pair
      let w := q.w
      if opc w ≠ opTMAC ∨ tmREP w < i ∨ s.canRun e = false then s
      else
        let miss := ([tmRegA w i, tmRegB w i]).filter fun t => !s.full e t
        if miss ≠ [] then s.lateOn e q.ctx miss
        else
          let s := s.checkTiles e q [tmRegA w i, tmRegB w i]
          match s.pairCheck e w i with
          | some cause => s.numFault e q cause i
          | none =>
            let s := (s.loupePair e (tmACC w) (tmOW w && i == 0) (tmRegA w i) (tmFMTA w) (!tmTRA w) (tmRegB w i) (tmFMTB w)
              (tmTRB w) (tmHalves w i)).addPair e w i
            let s := (s.consume e (tmRegA w i) (tmCA w && ringDone w (tmFMTA w) i)).consume e (tmRegB w i)
              (tmCB w && ringDone w (tmFMTB w) i)
            (s.modEng e fun x => x.run { q with pair := i + 1 }).reHold e)

/-! ## TMAC2 (R79, R105) -/

/-- The checks of TMAC2 (R105): tags, scale words, block directions, and both add checks (R76). -/
def State.tmac2Check (s : State) (e : Nat) (w : BitVec 64) : Option Nat :=
  let badAdd (ow : Bool) (a : Nat) : Bool :=
    let h := s.hd e a
    !ow && (h.cls != 2 || h.fa != 0 || h.fb != 0)
  if s.fmtOf e (t2TDY w) ≠ 0 ∨ s.fmtOf e (t2TW w) ≠ t2FMTW w ∨ s.fmtOf e (t2TX w) ≠ t2FMTX w then some causeFORMAT
  else if s.badSw e (t2TW w) (t2FMTW w) || s.badSw e (t2TX w) (t2FMTX w) then some causeSCALE
  else if blockBad (t2FMTW w) (!t2TRW w) || blockBad (t2FMTX w) (t2TRX w) then some causeBLOCKDIR
  else if badAdd (t2OWA w) (t2ACA w) || badAdd (t2OWB w) (t2ACB w) then some causeACC
  else none

/-- The two products of TMAC2 (R79): dX adds dY × Wᵀ over the columns of dY, dW adds Xᵀ × dY over its rows. -/
def State.addMirror (s : State) (e : Nat) (w : BitVec 64) : State :=
  let hA := (if t2OWA w then { cls := 2 } else s.hd e (t2ACA w)).bump 32
  let hB := (if t2OWB w then { cls := 2 } else s.hd e (t2ACB w)).bump 32
  let s1 := s.mapAcc e (t2ACA w) fun n x => (s.pairEl16 e (t2TDY w) 0 0 true (t2TW w) (t2FMTW w) (t2HSW w) (!t2TRW w)
    (t2OWA w) (n / 32) (n % 32) x).longsum hA
  let s2 := s1.mapAcc e (t2ACB w) fun n x => (s.pairEl16 e (t2TX w) (t2FMTX w) (t2HSX w) (t2TRX w) (t2TDY w) 0 0 false
    (t2OWB w) (n / 32) (n % 32) x).longsum hB
  let s2 := (s2.loupePair e (t2ACA w) (t2OWA w) (t2TDY w) 0 true (t2TW w) (t2FMTW w) (!t2TRW w) [(0, t2HSW w)]).loupePair e
    (t2ACB w) (t2OWB w) (t2TX w) (t2FMTX w) (t2TRX w) (t2TDY w) 0 false [(t2HSX w, 0)]
  let cs := [s.captured e w 0 (t2ACA w) (t2TDY w) (t2TW w), s.captured e w 0 (t2ACB w) (t2TX w) (t2TDY w)]
  ((s2.setHd e (t2ACA w) hA).setHd e (t2ACB w) hB).modEng e fun x => x.keep cs

end Sys2Proof.Machine
end

