-- ==== Sys2Proof/Machine/TileDone.lean ====
section
/-! DEFINITION. INSTRUCTION_START and INSTRUCTION_COMPLETE (R91, R120): the checks at a start, and at completion the
conversion, the destination's data, side-band and tag, the scale-table records, the consumed sources and the code. -/
namespace Sys2Proof.Machine

/-! ## Destinations (R87 to R89) -/

/-- A destination: format, half, scale word, scale-table entry (0xFFFF for none), and whether a Loupe shadow is kept. -/
structure Dest where
  tile : Nat
  fmt : Nat
  half : Nat := 0
  sw : BitVec 16 := 0x7F00
  entry : Nat := 0xFFFF
  ls : Bool := false
  deriving DecidableEq, Repr

/-- One word of tile data from bytes. -/
def nth {α : Type} (l : List α) (i : Nat) (d : α) : α := l.getD i d

/-- Writes bytes of a tile from byte `i` on. -/
def State.putTile (s : State) (e t i : Nat) : List Nat → State
  | [] => s
  | b :: bs => (s.setTb e t i b).putTile e t (i + 1) bs

/-- Writes bytes of a side-band from byte `i` on. -/
def State.putSide (s : State) (e t i : Nat) : List Nat → State
  | [] => s
  | b :: bs => (s.setSb e t i b).putSide e t (i + 1) bs

/-- The POISON bits of a tile's 512 words from a predicate on words. -/
def poisonMask (f : Nat → Bool) : BitVec 512 := BitVec.ofNat 512 ((List.range 512).foldl (fun m i =>
  if f i then m + 2 ^ i else m) 0)

/-- Whether a HALF 1 write is refused: the tag's FMT, or a tensor-scaled side-band, differs from its own (R89). -/
def State.halfBad (s : State) (e : Nat) (d : Dest) : Bool :=
  d.half == 1 && fmt8 d.fmt &&
    (s.fmtOf e d.tile != d.fmt ||
      (fmtTs d.fmt && (s.tileSw e d.tile != d.sw || s.tileEntry e d.tile != d.entry)))

/-- The side-band a low-half write sets (R55, R89). -/
def lowSide (d : Dest) (scales : List Nat) : List Nat :=
  if fmtTs d.fmt then
    [d.sw.toNat % 256, d.sw.toNat / 256, d.entry % 256, d.entry / 256] ++ List.replicate 60 0
  else (List.range 64).map fun i => if i % 2 = 0 then nth scales (i / 2) 0x7F else 0x7F

/-- Writes 32 × 32 results into a destination (R87 to R89, R93): data, side-band, tag with POISON per word, FULL, and
the shadow of an 8-bit half. LS keeps a shadow of any 8-bit half an instruction writes, also by a V-instruction other than
VCVT, which R118 does not name, and has no effect on a 16-bit target (R113; DESIGN CHOICE, log entry 92). -/
def State.store32 (s : State) (e : Nat) (d : Dest) (codes : List Nat) (poison : List Bool) (scales : List Nat)
    (copy : List (BitVec 32)) : State :=
  let t := d.tile
  let l := (s.slotOf e).getD 0
  let old := s.tag (tk e t)
  if fmt8 d.fmt then
    let row (r : Nat) := (codes.drop (32 * r)).take 32
    let s := (List.range 32).foldl (fun s r => s.putTile e t (64 * r + 32 * d.half) (row r)) s
    let word (i : Nat) : Bool := ((poison.drop (32 * (i / 16) + 4 * (i % 8))).take 4).any id
    let mine (i : Nat) : Bool := decide (i % 16 / 8 = d.half)
    let keep := d.ls && fmt8 d.fmt
    if d.half = 0 then
      let s := (List.range 32).foldl (fun s r => s.putTile e t (64 * r + 32) (List.replicate 32 0)) s
      let s := s.putSide e t 0 (lowSide d scales)
      let s := (s.freeShadow l t false).freeShadow l t true
      let s := s.setTag (tk e t) { fmt := BitVec.ofNat 3 d.fmt, full := true, sh0 := keep,
                                   poison := poisonMask (fun i => mine i && word i) }
      if keep then s.placeShadow (e / 17) l t false copy else s
    else
      let s := if fmtMx d.fmt then (List.range 32).foldl (fun s r => s.setSb e t (2 * r + 1) (nth scales r 0x7F)) s else s
      let s := s.freeShadow l t true
      let pm := poisonMask fun i => if mine i then word i else old.poison.getLsbD i
      let s := s.setTag (tk e t) { old with fmt := BitVec.ofNat 3 d.fmt, full := true, sh1 := keep, poison := pm }
      if keep then s.placeShadow (e / 17) l t true copy else s
  else
    let s := s.putTile e t 0 (codes.flatMap fun c => [c % 256, c / 256 % 256])
    let s := (s.freeShadow l t false).freeShadow l t true
    s.setTag (tk e t) { fmt := BitVec.ofNat 3 d.fmt, full := true,
                        poison := poisonMask (fun i => nth poison (2 * i) false || nth poison (2 * i + 1) false) }

/-! ## Conversion of 32 × 32 results (R35 to R41) -/

/-- The conversions of 1,024 values in row-major order, and the 32 block scales of an MXFP8 half. -/
def convAll (fmt : Nat) (sw : BitVec 16) (vals : List Num) : List Cv × List Nat :=
  if fmtMx fmt then
    let rows := (List.range 32).map fun r => blockConv (efmt fmt) (fun _ => .even) ((vals.drop (32 * r)).take 32)
    (rows.flatMap (·.2), rows.map (·.1))
  else if fmtTs fmt then (vals.map fun v => (efmt fmt).conv .even (divSw v sw), [])
  else (vals.map fun v => (efmt fmt).conv .even v, [])

/-- The counts of a list of conversions: saturations, underflows, non-finite sources. -/
def countOf (cs : List Cv) : Nat × Nat × Nat :=
  ((cs.filter (·.sat)).length, (cs.filter (·.ufl)).length, (cs.filter (·.nonfin)).length)

/-- The amax of a list of values, rounded up to BF16; none when no value is finite (R41). -/
def amaxOf (vals : List Num) : Option Nat :=
  vals.foldl (fun o v => match v with
    | .fin _ n d e => some (max (o.getD 0) (amaxCode n d e))
    | _ => o) none

/-- The pre-quantisation BF16 copy a shadow holds (R118). -/
def shadowCopy (vals : List Num) : List (BitVec 32) :=
  let c (i : Nat) : BitVec 16 := BitVec.ofNat 16 (bf16.conv .even (nth vals i .nan)).code
  (List.range 512).map fun i => c (2 * i + 1) ++ c (2 * i)

/-- The results of an instruction: the values before quantisation, their poison, what each value counts beside its
conversion (R116), and the conversions counted: one for each element, or for each row or column sum. -/
structure Result where
  vals : List Num
  poison : List Bool
  extra : List Cv := []
  line : Option Bool := none
  met : Bool := false
  deriving Repr

/-- The indices whose conversions count: every element, the first of each row, or the first of each column. -/
def counted (r : Result) : List Nat :=
  match r.line with
  | none => List.range 1024
  | some false => (List.range 32).map (32 * ·)
  | some true => List.range 32

/-- One conversion joined with what the function instruction adds or replaces (R116) (DEDUCED, log entry 95). -/
def joinCv (fmt : Nat) (c x : Cv) : Cv :=
  if x.sat then { code := (efmt fmt).withSign (x.code == 1) (efmt fmt).maxMag, sat := true, nonfin := x.nonfin }
  else { c with nonfin := c.nonfin || x.nonfin, ufl := c.ufl || x.ufl }

/-- Writes a result: the conversions, the records of a named entry, the destination, and the numeric report (R36, R40,
R41, R88, R124). `valid` says that an entry named is still VALID; counts then go to it and not to NSTAT. -/
def State.deliver32 (s : State) (e : Nat) (d : Dest) (te : Bool) (step : BitVec 32) (r : Result) : State × Num4 :=
  let (cs, scales) := convAll d.fmt d.sw r.vals
  let cs := if r.extra = [] then cs else cs.mapIdx fun i c => joinCv d.fmt c (nth r.extra i { code := 0 })
  let (sat, ufl, nf) := countOf ((counted r).map fun i => nth cs i { code := 0 })
  let s := s.store32 e d (cs.map (·.code)) r.poison scales (shadowCopy r.vals)
  let s := if te then s.charge d.entry sat ufl nf else s
  let s := match te, amaxOf (r.vals.mapIdx fun i v => if (nth r.extra i { code := 0 }).sat then .nan else v) with
    | true, some a => s.recordAmax d.entry step a
    | _, _ => s
  (s, { nonfin := r.met || decide (0 < nf), sat := decide (0 < sat), ufl := decide (0 < ufl),
        nf := if te then 0 else nf, sc := if te then 0 else sat, uc := if te then 0 else ufl })

/-! ## Sources of the vector unit (R113 to R116, R121) -/

/-- The values and poison of a source tile's 32 × 32 elements under its tag's format (R114). -/
def State.source (s : State) (e t half : Nat) (trs : Bool) : List Num × List Bool :=
  let f := s.fmtOf e t
  ((List.range 1024).map fun i =>
      let (r, c) := along (!trs) (i / 32) (i % 32)
      s.elemAt e t f half r c,
   (List.range 1024).map fun i =>
      let (r, c) := along (!trs) (i / 32) (i % 32)
      s.poisonAt e t f half r c)

/-- The exact sum of a line in a long accumulator: a zero sum is +0 (R75, R114). -/
def lineSum (xs : List Num) : Num :=
  match xs.foldl Num.add (.fin false 0 1 0) with
  | .fin _ 0 _ _ => .fin false 0 1 0
  | y => y

/-- Row `i` or column `i` of a row-major matrix. -/
def lineOf {α : Type} (xs : List α) (col : Bool) (i : Nat) (d : α) : List α :=
  (List.range 32).map fun j => if col then nth xs (32 * j + i) d else nth xs (32 * i + j) d

/-- The value and extra counts of a function instruction's element (R116). -/
def fnElt (fn : Fn) (f : EFmt) (x : Num) : Num × Cv :=
  match fn.eval f x with
  | .val v => (v, { code := 0, nonfin := !x.finite })
  | .nan => (.nan, { code := 0, nonfin := true })
  | .top neg => (.inf neg, { code := if neg then 1 else 0, sat := true, nonfin := !x.finite })

/-- The function of an opcode (R97, R116). -/
def fnOf (o : Nat) : Fn :=
  if o = opVEXP then .exp else if o = opVRELU then .relu else if o = opVGELU then .gelu else if o = opVSILU then .silu
  else if o = opVTANH then .tanh else if o = opVSIGM then .sigm else if o = opVRCP then .rcp else .rsq

/-- The elementwise operation of an opcode (R115). -/
def elop (o : Nat) (x y : Num) : Num :=
  if o = opVADD then x.add y else if o = opVSUB then x.add y.negate else if o = opVMUL then x.mul y
  else if o = opVMAX then x.maxOf y else x.minOf y

/-- The result of a TQNT or V-instruction, but VAMAX (R112, R114 to R116, R121) (DEDUCED, log entry 90). -/
def State.vresult (s : State) (e : Nat) (q : QEnt) : Result :=
  let w := q.w
  let o := opc w
  if o = opTQNT then
    let (xs, ps) := s.source e (tqTS w) 0 (tqTRS w)
    { vals := xs, poison := ps, met := xs.any (!·.finite) }
  else
    let (xs, ps) := s.source e (vTS1 w) (vHALF w) (o == opVTRN)
    if isV2 o then
      let (ys, pt) := if vSRC2 w = 0 then s.source e (vTS2 w) (vHALF w) false
        else (List.replicate 1024 (bf16.decode (q.x.toNat % 2 ^ 16)), List.replicate 1024 false)
      { vals := List.zipWith (elop o) xs ys, poison := List.zipWith or ps pt, met := xs.any (!·.finite) || ys.any (!·.finite) }
    else if o = opVCVT ∨ o = opVTRN then { vals := xs, poison := ps, met := xs.any (!·.finite) }
    else if o = opVRSUM ∨ o = opVCSUM ∨ o = opVRMAX then
      let col := o == opVCSUM
      let red := (List.range 32).map fun i =>
        let l := lineOf xs col i .nan
        if o = opVRMAX then l.foldl Num.maxOf (l.headD .nan) else lineSum l
      let rp := (List.range 32).map fun i => (lineOf ps col i false).any id
      let pick (i : Nat) : Nat := if col then i % 32 else i / 32
      { vals := (List.range 1024).map (fun i => nth red (pick i) .nan),
        poison := (List.range 1024).map (fun i => nth rp (pick i) false), line := some col, met := xs.any (!·.finite) }
    else
      let rs := xs.map (fnElt (fnOf o) (efmt (vFMT w)))
      { vals := rs.map (·.1), poison := ps, extra := rs.map (·.2), met := xs.any (!·.finite) }

/-- An MXFP8 element depends on its whole block, whose shared scale it takes; any other on its own word (R121; DEDUCED, log
entry 13). -/
def spreadPoison (fmt : Nat) (ps : List Bool) : List Bool :=
  if fmtMx fmt then
    (List.range 1024).map fun i => ((ps.drop (32 * (i / 32))).take 32).any id
  else ps

/-! ## The checks at a start (R33, R47, R65, R89, R103 to R115) -/

/-- The scale-table entry an instruction names, and the formats of entry it accepts; VAMAX accepts any (R47, R109,
R116). -/
def entryOk (s : State) (i fmt : Nat) (any : Bool) : Bool :=
  let en := s.entry i
  enVALID en && (any || (if fmtTs fmt then enFORMAT en == fmt - 2 else enFORMAT en == 2))

/-- The destination of an ACCST, TQNT or V-instruction, with the scale word it uses (R109, R112, R114). -/
def State.destOf (s : State) (q : QEnt) : Dest × Bool × Nat :=
  let w := q.w
  let o := opc w
  let swOf (te scp ext : Bool) (i : Nat) (x : BitVec 16) : BitVec 16 :=
    if te then (if scp then enPREV (s.entry i) else enCUR (s.entry i)) else if ext then x else 0x7F00
  if o = opACCST then
    ({ tile := asTD w, fmt := asFMT w, half := asHALF w,
       sw := swOf (asTE w) (asSCP w) (extBit w) (asENTRY w) (q.x.truncate 16),
       entry := if asTE w then asENTRY w else 0xFFFF, ls := asLS w }, asTE w, asENTRY w)
  else if o = opTQNT then
    ({ tile := tqTD w, fmt := tqFMT w, half := tqHALF w,
       sw := swOf (tqTE w) (tqSCP w) (extBit w) (tqENTRY w) (q.x.truncate 16),
       entry := if tqTE w then tqENTRY w else 0xFFFF, ls := tqLS w }, tqTE w, tqENTRY w)
  else
    ({ tile := vTD w, fmt := vFMT w, half := if fmt8 (vFMT w) then vHALF w else 0,
       sw := swOf (vTE w) (vSCP w) (extBit w) (vENTRY w) ((q.x >>> 16).truncate 16),
       entry := if vTE w then vENTRY w else 0xFFFF, ls := vLS w }, vTE w, vENTRY w)

/-- What stops an instruction at its start, in the order source format, source scale, entry, scale, half (R33, R47, R65,
R89, R105, R107, R109, R112, R115). -/
def State.startCheck (s : State) (e : Nat) (q : QEnt) : Option Nat :=
  let w := q.w
  let o := opc w
  if o = opTMAC then s.tmacStart e w
  else if o = opTMAC2 then s.tmac2Check e w
  else if o = opACCLD then
    (if alMODE w ≤ 1 then (if 1 < s.fmtOf e (alTS w) then some causeFORMAT else none)
     else if alMODE w = 2 then
      let h : BitVec 128 := BitVec.ofNat 128 ((List.range 16).foldl (fun n i => n + s.sb e (alTS w) i * 256 ^ i) 0)
      (if badHeader h then some causeIMAGE else none)
     else none)
  else if o = opACCST ∧ asMODE w ≠ 0 then none
  else
    let (d, te, i) := s.destOf q
    let srcs := firstTiles w
    let f1 := s.fmtOf e (srcs.headD 0)
    if (o == opTQNT || o == opVTRN) && decide (1 < f1) then some causeFORMAT
    else if o == opVCVT && fmt8 f1 && fmt8 d.fmt then some causeFORMAT
    else if srcs.any fun t => s.badSw e t (s.fmtOf e t) then some causeSCALE
    else if te && !entryOk s i d.fmt (o == opVAMAX) then some causeENTRY
    else if o = opVAMAX then none
    else if fmtTs d.fmt && !swValid d.sw then some causeSCALE
    else if s.halfBad e d then some causeFORMAT
    else none

/-! ## Saved images (R64, R65, R110) -/

/-- Byte `i` of the 16 KiB image span that starts at tile `t`. -/
def State.spanB (s : State) (e t i : Nat) : Nat := s.tb e (t + i / 2048) (i % 2048)

/-- Whether any of an element's words in the span is marked poison. -/
def State.spanPoison (s : State) (e t i : Nat) : Bool :=
  (List.range 4).any fun j => (s.tag (tk e (t + i / 128))).poison.getLsbD (i % 128 * 4 + j)

/-- Sixteen bytes as a 128-bit image, lowest first. -/
def join16 (f : Nat → Nat) : BitVec 128 := BitVec.ofNat 128 ((List.range 16).foldl (fun n i => n + f i * 256 ^ i) 0)

/-- The bytes of a 128-bit image. -/
def split16 (b : BitVec 128) : List Nat := (List.range 16).map fun i => (b.extractLsb' (8 * i) 8).toNat

/-- Loads an accumulator from an image for the instruction `q` (R65): a mismatching element takes POISON and files an IMAGE
record. -/
def State.loadImage (s : State) (e : Nat) (q : QEnt) (hdr : BitVec 128) (el : Nat → BitVec 128) (pz : Nat → Bool) : State :=
  let a := alACC q.w
  let s := (List.range 1024).foldl (fun s i =>
    let (x, rec) := loadEl (el i) (pz i)
    let s := s.setEl e a i x
    if rec then s.eventR (s.faultTask e q.ctx opACCLD q.pc { cls := 0x0C, unit := engineUnit e, sig := BitVec.ofNat 32 i })
    else s) s
  (s.loupeBreak e a).setHead (ak e a) hdr

/-- The 257 memory units of a saved image, as they have arrived in a transfer slot (R107). -/
def Xfer.image (x : Xfer) : List MWord :=
  (List.range 257).flatMap fun i => (lookup x.inbox i).getD (List.replicate 16 poisonWord)

/-- Four delivered words as one image, and whether any is poisoned. -/
def quad (ws : List MWord) (i : Nat) : BitVec 128 × Bool :=
  let w (j : Nat) : MWord := nth ws (4 * i + j) ⟨0, true⟩
  ((w 3).v ++ (w 2).v ++ (w 1).v ++ (w 0).v, (w 0).p || (w 1).p || (w 2).p || (w 3).p)

/-- The words of an accumulator's saved image in memory order (R64). -/
def State.imageWords (s : State) (e a : Nat) : List MWord :=
  let word4 (b : BitVec 128) : List MWord := (List.range 4).map fun j => ⟨b.extractLsb' (32 * j) 32, false⟩
  (List.range 1024).flatMap (fun i => word4 (s.acc (ak e a * 1024 + i))) ++ word4 (s.head (ak e a)) ++
    List.replicate 12 ⟨0, false⟩

/-! ## Start -/

/-- The transfer slot an ACCLD in mode 3 holds for a queue entry (R107). -/
def State.accSlot (s : State) (l : Nat) (id : Nat) : Option Nat :=
  (List.range 6).find? fun n => let x := s.xfer (6 * l + n); x.st != .free && x.acc.isSome && x.id == id

/-- The start of an ACCLD from memory (R107): it takes a transfer slot and its context is LATE while the data is in
flight, which is asked for where it lies in another package; once all 257 units have arrived the image is checked and
loaded, and the slot frees. -/
def State.startImage (s : State) (e : Nat) (q : QEnt) : State :=
  match s.slotOf e with
  | none => s
  | some l =>
    match s.accSlot l q.id with
    | none =>
      match s.freeSlot l with
      | none => s
      | some n =>
        ((s.setXfer (6 * l + n) { st := .active, id := q.id, ctx := q.ctx, pc := q.pc, op := opACCLD, d0 := q.x,
                                  acc := some (alACC q.w), last := s.now }).topUp l n).lateOn e q.ctx []
    | some n =>
      if (s.xfer (6 * l + n)).unit < 257 then s.lateOn e q.ctx []
      else
        let ws := (s.xfer (6 * l + n)).image
        let s := (s.setXfer (6 * l + n) {}).offer e l
        let (h, hp) := quad ws 1024
        if hp || badHeader h then s.numFault e q causeIMAGE 0
        else
          (s.loadImage e q h (fun i => (quad ws i).1) (fun i => (quad ws i).2)).settle e |>.modEng e fun x => x.run q

/-- The words an instruction reads as it starts: its first tiles, and the scale-table entry it names (R185). -/
def State.startReads (s : State) (e : Nat) (q : QEnt) : State :=
  let s := s.checkTiles e q (firstTiles q.w)
  let (_, te, i) := s.destOf q
  if te && (opc q.w == opACCST || opc q.w == opTQNT || isV (opc q.w)) then s.checkSct i else s

/-- INSTRUCTION_START (R91, R92): the head of a unit's queue starts once no earlier instruction or stream holds it and
its operands are FULL; a refused one completes with NUMERIC_FAULT and writes nothing. A TMAC2 enters both arrays here,
which latches its three tiles (DESIGN CHOICE, log entry 17). -/
def execInstructionStart (p : Pos) (u : Unit3) (s : State) : Host.Outcome State Fault Refusal :=
  let e := p.key
  .next (match (s.eng e).headOf u with
    | none => s
    | some q =>
      if s.canRun e = false ∨ (s.eng e).holds q ∨ s.storeHolds e q then s
      else
        let miss := (firstTiles q.w).filter fun t => !s.full e t
        if miss ≠ [] then s.lateOn e q.ctx miss
        else if opc q.w = opACCLD ∧ alMODE q.w = 3 then s.startImage e q
        else
          let s := s.startReads e q
          match s.startCheck e q with
          | some cause => s.numFault e q cause 0
          | none =>
            let q := if opc q.w = opACCST ∨ opc q.w = opTQNT ∨ isV (opc q.w) then { q with sw := (s.destOf q).1.sw } else q
            let s := (s.settle e).modEng e fun x => x.run q
            if opc q.w = opTMAC2 then
              ((((s.addMirror e q.w).consume e (t2TDY q.w) (t2CDY q.w)).consume e (t2TW q.w) (t2CW q.w)).consume e
                (t2TX q.w) (t2CX q.w)).reHold e
            else s)

/-! ## Completion -/

/-- A preload (R77, R107). It is no overwrite, so POISON stays where it stands (R74). -/
def State.preload (s : State) (e : Nat) (w : BitVec 64) : State :=
  let f := s.fmtOf e (alTS w)
  let eight := !alCLS w
  let s' := s.mapAcc e (alACC w) fun i x =>
    let r := if alMODE w = 0 then alBROW w else i / 32
    El.preload eight (s.elemAt e (alTS w) f 0 r (i % 32)) (x.poison || s.poisonAt e (alTS w) f 0 r (i % 32))
  (s'.loupeBreak e (alACC w)).setHd e (alACC w) (Hd.preloaded eight)

/-- The image of an accumulator written to eight tiles, with their tags (R64). -/
def State.imageToTiles (s : State) (e a t : Nat) : State :=
  let l := (s.slotOf e).getD 0
  (List.range 8).foldl (fun s j =>
    let bytes := (List.range 128).flatMap fun i => split16 (s.acc (ak e a * 1024 + 128 * j + i))
    let s := s.putTile e (t + j) 0 bytes
    let s := s.putSide e (t + j) 0 ((if j = 0 then split16 (s.head (ak e a)) else List.replicate 16 0) ++
      List.replicate 48 0)
    let s := (s.freeShadow l (t + j) false).freeShadow l (t + j) true
    s.setTag (tk e (t + j)) { full := true }) s

/-- An ACCST in mode 0 ends the chain on its accumulator (R118): one that met an operand without a shadow is abandoned and
counted as dropped, and the waiting request is armed; else each element of the output, decoded to BF16, stands beside
Loupe's own BF16 result. -/
def State.loupeEnd (s : State) (e a : Nat) (d : Dest) : State :=
  let l := s.loupe (e / 17)
  match l.armed, l.chain with
  | some (_, _, tag), some m =>
    if !s.chainOn e a then s
    else if l.broken then
      s.setLoupe (e / 17) (Loupe.armNext { l with armed := none, chain := none, broken := false, dropped := l.dropped + 1 }
        s.sampling)
    else
      let code (x : Num) : BitVec 16 := BitVec.ofNat 16 (bf16.conv .even x).code
      s.setLoupe (e / 17) { l with chain := none, sample := some (tag, (List.range 1024).map fun i =>
        (code (s.elemAt e d.tile d.fmt d.half (i / 32) (i % 32)), code (El.unpack (Sparse.get (fun _ => 0) m i)).value)) }
  | _, _ => s

/-- An ACCST rounded to a format (R78, R109, R120, R124). A header of CLASS 0, of which R120 does not speak, counts as of the
8-bit class (DESIGN CHOICE, log entry 114). -/
def State.accstRound (s : State) (e : Nat) (q : QEnt) : State :=
  let a := asACC q.w
  let h := s.hd e a
  let els := (List.range 1024).map (s.el e a)
  let (d, te, _) := s.destOf q
  let bad := (s.eng e).vbad || (te && s.sctPoison d.entry)
  let sticky := els.any El.onlySticky
  let r : Result := { vals := els.map (fun (x : El) => x.out h), poison := els.map (fun x => x.poison || bad),
                      extra := if sticky then els.map (fun x => { code := 0, ufl := x.onlySticky }) else [] }
  let (s, m) := s.deliver32 e { d with sw := q.sw } te q.step r
  let s := s.loupeEnd e a { d with sw := q.sw }
  let longsum := h.cls == 2 && els.any fun x => x.ra % 2 == 1
  let elinx := els.any (·.inx)
  let m := { m with elinx := elinx, reanch := h.cls != 2 && els.any (fun (x : El) => decide (0 < x.ra)), longsum := longsum }
  let code := if els.any (·.poison) || bad then Code.poisoned
    else if (h.cls != 2 && elinx) || longsum then .doneInexact else .done
  s.finish e q code m 0 0

/-- VAMAX (R94, R115, R116, R120). -/
def State.vamax (s : State) (e : Nat) (q : QEnt) : State :=
  let w := q.w
  let (xs, ps) := s.source e (vTS1 w) (vHALF w) false
  let a := (amaxOf xs).getD 0
  let met := xs.any (!·.finite)
  let s := s.modCtx (4 * e + q.ctx) fun x => x.setS (vSS w) (BitVec.ofNat 32 a)
  let s := if vTE w then s.recordAmax (vENTRY w) q.step a else s
  let s := if vTE w && met && s.recEn && enVALID (s.entry (vENTRY w)) then
    s.setSctW (vENTRY w) 13 (s.sctW (vENTRY w) 13 ||| 0x2000) else s
  (s.consume e (vTS1 w) (vCS1 w)).finish e q (if ps.any id || (s.eng e).vbad then .poisoned else .done) { nonfin := met } 0 0

/-- A TQNT or V-instruction (R112 to R116, R120, R121). -/
def State.vector (s : State) (e : Nat) (q : QEnt) : State :=
  let w := q.w
  let (d, te, _) := s.destOf q
  let r := s.vresult e q
  let r := { r with poison := if (s.eng e).vbad || (te && s.sctPoison d.entry) then r.poison.map fun _ => true
                             else spreadPoison d.fmt r.poison }
  let s := if opc w = opTQNT then s.consume e (tqTS w) (tqCS w)
    else (s.consume e (vTS1 w) (vCS1 w)).consume e (vTS2 w) (vCS2 w && vSRC2 w == 0 && isV2 (opc w))
  let (s, m) := s.deliver32 e { d with sw := q.sw } te q.step r
  s.finish e q (if r.poison.any id then .poisoned else .done) m 0 0

/-- The runs of at most 64 units, none across a 4 KiB granule, that make up `n` units of an address from unit `i` on, as first
unit and length (R233, R246). -/
def granuleRuns (a : BitVec 64) (n i : Nat) : Nat → List (Nat × Nat)
  | 0 => []
  | k + 1 =>
    let len := min (64 - (a.toNat / 64 + i) % 64) (n - i)
    if len = 0 then [] else (i, len) :: granuleRuns a n (i + len) k

/-- The end of an ACCST to memory (R108, R110): the image is written to this package, or sent to another in requests of
up to 64 units (R233), and the instruction completes once every one has been written. An id not learned is refused
(R23) (DEDUCED, log entry 88). -/
def State.storeImage (s : State) (e : Nat) (q : QEnt) : State :=
  let pkg := pkgOf q.x
  let ws := s.imageWords e (asACC q.w)
  if s.own pkg then (s.writeN (s.engSrc e q.ctx opACCST q.pc) pkg (q.x.toNat % 2 ^ 48) ws).finish e q .done {} 0 0
  else if s.learned pkg = false then (s.addrErr 5 true (s.engSrc e q.ctx opACCST q.pc) q.x).finish e q .done {} 0 0
  else if s.rtx.any (fun r => r.id == q.id) then s
  else if 0 < q.pair then s.finish e q .done {} 0 0
  else
    let s := (granuleRuns q.x 257 0 6).foldl (fun s r =>
      s.ask { wr := true, addr := q.x + BitVec.ofNat 64 (64 * r.1), units := r.2, data := (ws.drop (16 * r.1)).take (16 * r.2),
              id := q.id }) s
    s.modEng e fun x => x.run { q with pair := 1 }

/-- The end of an instruction in a unit (R60, R120, R127): its results become readable, its sources are consumed, and it
returns its code. A TMAC completes once its last pair has entered. -/
def State.unitDone (s : State) (e : Nat) (u : Unit3) : State :=
  (match (s.eng e).inUnit u with
    | none => s
    | some q =>
      let w := q.w
      let o := opc w
      if s.canRun e = false then s
      else if o = opTMAC then (if tmREP w < q.pair then s.finish e q .done {} 0 0 else s)
      else if o = opTMAC2 then s.finish e q .done {} 0 0
      else if o = opACCLD then
        (if alMODE w ≤ 1 then (s.preload e w).finish e q .done {} 0 0
         else if alMODE w = 2 then
          let h := join16 fun i => s.sb e (alTS w) i
          (s.loadImage e q h (fun i => join16 fun j => s.spanB e (alTS w) (16 * i + j))
            (fun i => s.spanPoison e (alTS w) i)).finish e q .done {} 0 0
         else s.finish e q .done {} 0 0)
      else if o = opACCST then
        (if asMODE w = 0 then s.accstRound e q
         else if asMODE w = 2 then (s.imageToTiles e (asACC w) (asTD w)).finish e q .done {} 0 0
         else
          s.storeImage e q)
      else if o = opVAMAX then s.vamax e q
      else s.vector e q)

end Sys2Proof.Machine
end

