-- ==== Sys2Proof/Machine/Streams.lean ====
section
/-! DEFINITION. Streams (R142 to R146, R178 to R184): SFETCH, SSTORE and SDESC, descriptor bursts, the units of a
transfer as they arrive or are accepted, tile fills, stalls, starvation and completion. -/
namespace Sys2Proof.Machine

/-! ## Issue -/

/-- Starts a transfer in a slot (R181): ACTIVE or HELD, its requests to a remote package issued. -/
def State.startXfer (s : State) (e l n : Nat) (x : Xfer) : State :=
  ((s.setXfer (xk l n) { x with st := .active, last := s.now }).topUp l n).reHold e

/-- The descriptor in eight scalar registers from RS (R142). -/
def regDesc (x : Ctx) (rs : Nat) : Desc :=
  let w (k : Nat) := join32 (x.s (rs + 2 * k)) (x.s (rs + 2 * k + 1))
  ⟨w 0, w 1, w 2, w 3⟩

/-- SFETCH and SSTORE (R142, R144, R145): an invalid descriptor or the wrong direction is illegal; with no slot open to it
the context waits; else the transfer starts. -/
def State.issueStream (s : State) (c : Cx) (w : BitVec 64) (store : Bool) : State :=
  let e := c.pos.key
  let k := c.ctx.val
  s.atIssue e k w (legalStream w) fun s x =>
    if s.scalarHeld e k ((List.range 8).map (stRS w + ·)) then s
    else
      let d := regDesc x (stRS w)
      if !d.valid || d.store != store then s.illegal e k
      else match s.slotOf e with
        | none => s
        | some l => match s.openSlot l with
          | none => s.setCtx (4 * e + k) (x.wait 3 0 s.now)
          | some n =>
            let s := { (s.setCtx (4 * e + k) (x.past w (s.nextTurn e))) with nextId := s.nextId + 1 }
            s.startXfer e l n { id := s.nextId - 1, ctx := k, pc := x.pc, op := opc w, d0 := d.d0, d1 := d.d1,
                                d2 := d.d2, d3 := d.d3 }

/-- SFETCH (R144). -/
def execSfetch (c : Cx) (w : BitVec 56) (s : State) : Host.Outcome State Fault Refusal :=
  .next (s.issueStream c (mkWord 0xB0 w) false)

/-- SSTORE (R144). -/
def execSstore (c : Cx) (w : BitVec 56) (s : State) : Host.Outcome State Fault Refusal :=
  .next (s.issueStream c (mkWord 0xB1 w) true)

/-- SDESC (R142, R145): the array must lie in this package; a third batch waits. -/
def execSdesc (c : Cx) (w : BitVec 56) (x : BitVec 64) (s : State) : Host.Outcome State Fault Refusal :=
  let w := mkWord 0xB2 w
  let e := c.pos.key
  let k := c.ctx.val
  .next (s.atIssue e k w (legalSDESC w x && s.own (pkgOf x)) fun s y =>
    match s.slotOf e with
    | none => s
    | some l =>
      if 2 ≤ (s.batch l).length then s.setCtx (4 * e + k) (y.wait 4 0 s.now)
      else
        let b : Batch := { id := s.nextId, ctx := k, pc := y.pc, addr := x, count := sdCOUNT w }
        { ((s.setCtx (4 * e + k) (y.past w (s.nextTurn e))).setBatch l (s.batch l ++ [b])) with nextId := s.nextId + 1 })

/-! ## Batches (R145, R180) -/

/-- A batch that can do no more: every descriptor completed, or none left to start after an invalid one. -/
def Batch.over (b : Batch) : Bool :=
  b.ready.isEmpty && b.finished == b.started && (b.bad || b.started == b.count)

/-- Removes the batches that are over; their SDESC completes and a waiting one may issue. -/
def State.sweep (s : State) (e l : Nat) : State :=
  let bs := s.batch l
  let left := bs.filter fun b => !b.over
  if left.length = bs.length then s else ((s.setBatch l left).wake e 4).offer e l

/-- Reads one descriptor of a batch for engine `e`: none when any word is poisoned or refused. -/
def State.readDesc (s : State) (e : Nat) (b : Batch) (i : Nat) : Option Desc × State :=
  let (ws, s) := s.readN (s.engSrc e b.ctx 0xB2 b.pc) (pkgOf b.addr) (b.addr.toNat % 2 ^ 48 + 32 * i) 8
  let w (j : Nat) : BitVec 64 := pair64 (ws.getD (2 * j) poisonWord) (ws.getD (2 * j + 1) poisonWord)
  let d : Desc := ⟨w 0, w 1, w 2, w 3⟩
  (if ws.any (·.p) || !d.valid then none else some d, s)

/-- Fetches descriptors of a batch until `n` have come or one is invalid. -/
def State.burst (s : State) (e : Nat) (b : Batch) : Nat → Batch × State
  | 0 => (b, s)
  | n + 1 =>
    if b.bad ∨ b.count ≤ b.fetched then (b, s)
    else match s.readDesc e b b.fetched with
      | (none, s) => ({ b with bad := true }, s)
      | (some d, s) =>
        s.burst e { b with fetched := b.fetched + 1, ready := b.ready ++ [(d.d0, d.d1, d.d2, d.d3)] } n

/-- Read-ahead for the fetches of a batch up to MEM_PF.DEPTH beyond the last started one (R180). -/
def State.prefetch (s : State) (b : Batch) : State :=
  if s.flag F.MEM_PF_EN then
    (b.ready.take (max 1 (min 16 (s.fget F.MEM_PF_DEPTH)))).foldl (fun s r =>
      let x : Xfer := { d0 := r.1, d1 := r.2.1, d2 := r.2.2.1, d3 := r.2.2.2 }
      if x.desc.store || !s.own (pkgOf x.d0) then s
      else (List.range x.desc.units).foldl (fun s i => s.readAhead (x.desc.unitAddr i)) s) s
  else s

/-- DESCRIPTOR_BURST_FETCH (R145, R180): the next burst of up to 16 descriptors, while fewer than four stand unstarted.
An invalid one keeps itself and every later one from starting and stops the task with ABORTED, cause ILLEGAL. -/
def execDescriptorBurstFetch (p : LPos) (i : Fin 2) (s : State) : Host.Outcome State Fault Refusal :=
  let l := p.key
  .next (match s.engineOf l, (s.batch l)[i.val]? with
    | some e, some b =>
      if b.bad || decide (b.count ≤ b.fetched) || decide (4 ≤ b.ready.length) ||
          s.memWaits (b.addr.toNat % 2 ^ 48 + 32 * b.fetched) ||
          s.edgeWaits e true (b.addr.toNat % 2 ^ 48 + 32 * b.fetched) then s
      else
        let (b', s) := s.burst e b 16
        let s := s.setBatch l ((s.batch l).set i.val b')
        let s := if b'.bad then (s.settle e).modCtx (4 * e + b.ctx) (fun x => x.complete .aborted {} causeILLEGAL b.pc 0)
          else s
        ((s.prefetch b').sweep e l).offer e l
    | _, _ => s)

/-- The next descriptor to start, with its batch's index and the batch: an earlier batch's come before a later's (R145,
R146). -/
def nextReady : List Batch → Nat → Option (Nat × Batch × BitVec 64 × BitVec 64 × BitVec 64 × BitVec 64)
  | [], _ => none
  | b :: bs, i => match b.ready with
    | r :: _ => some (i, b, r)
    | [] => if b.unstarted then none else nextReady bs (i + 1)

/-- DESCRIPTOR_START (R145): descriptors start in array order, one per free slot, the earlier batch first. -/
def execDescriptorStart (p : LPos) (s : State) : Host.Outcome State Fault Refusal :=
  let l := p.key
  .next (match s.engineOf l, s.freeSlot l, nextReady (s.batch l) 0 with
    | some e, some n, some (i, b, d0, d1, d2, d3) =>
      let s := s.setBatch l ((s.batch l).set i { b with ready := b.ready.drop 1, started := b.started + 1 })
      (s.startXfer e l n { id := b.id, ctx := b.ctx, batch := some b.id, idx := b.started, pc := b.pc, op := 0xB2, d0 := d0,
                           d1 := d1, d2 := d2, d3 := d3 }).offer e l
    | _, _, _ => s)

/-! ## Units of a transfer -/

/-- Sets the tile words of a mask to poison. -/
def State.orPoison (s : State) (e t : Nat) (m : BitVec 512) : State :=
  let g := s.tag (tk e t)
  s.setTag (tk e t) { g with poison := g.poison ||| m }

/-- Writes the words of a tile row from word `j` on, marking poisoned ones. -/
def State.fillRow (s : State) (e t r : Nat) : Nat → List MWord → State
  | _, [] => s
  | j, w :: ws =>
    let b := 64 * r + 4 * j
    let s := s.putTile e t b ((wordBytes w.v).map (·.toNat))
    (if w.p then s.orPoison e t (1#512 <<< (16 * r + j)) else s).fillRow e t r (j + 1) ws

/-- Byte `i` of delivered words, and whether its word is poisoned. -/
def byteOf (ws : List MWord) (i : Nat) : Nat × Bool :=
  let w := ws.getD (i / 4) poisonWord
  ((w.v.extractLsb' (8 * (i % 4)) 8).toNat, w.p)

/-- Writes memory row `k` of a transposed tile (R178): each 16-bit element (k, r) to (r, k), or each 8-bit element of
rows 2k and 2k + 1. A tile word with any poisoned element is marked. -/
def State.fillTransposed (s : State) (e t : Nat) (d : Desc) (k : Nat) (ws : List MWord) : State :=
  (List.range 64).foldl (fun s i =>
    let (v, p) := byteOf ws i
    let o := if d.esz = 0 then 64 * (i / 2) + 2 * k + i % 2 else 64 * (i % 32) + 2 * k + i / 32
    let s := s.setTb e t o v
    if p then s.orPoison e t (1#512 <<< (o / 4)) else s) s

/-- The side-band of a tile fetched without SCL (R55, R144). -/
def defaultSide (fmt : Nat) : List Nat :=
  if fmtTs fmt then [0x00, 0x7F, 0xFF, 0xFF] ++ List.replicate 60 0
  else if fmt8 fmt then List.replicate 64 0x7F
  else List.replicate 64 0

/-- The shadow of one half from the 512 words of its copy: none when any word is poisoned (R179). -/
def State.shadeHalf (s : State) (e l t : Nat) (half : Bool) (ws : List MWord) : State :=
  if ws.any (·.p) then s
  else
    let s := s.placeShadow (e / 17) l t half (ws.map (·.v))
    let g := s.tag (tk e t)
    s.setTag (tk e t) (if half then { g with sh1 := true } else { g with sh0 := true })

/-- The end of a tile's fill (R144): its tag, its side-band when SCL is clear, its shadows under SHD, and FULL. -/
def State.endFill (s : State) (e l t : Nat) (d : Desc) (copy : List MWord) : State :=
  let s := (s.freeShadow l t false).freeShadow l t true
  let g := s.tag (tk e t)
  let s := s.setTag (tk e t) { fmt := BitVec.ofNat 3 d.fmt, full := true, poison := g.poison }
  let s := if d.scl then s else s.putSide e t 0 (defaultSide d.fmt)
  if d.shd then (s.shadeHalf e l t false (copy.take 512)).shadeHalf e l t true (copy.drop 512) else s

/-- One unit of a fetch reaches its destination. -/
def State.landUnit (s : State) (e l n : Nat) (x : Xfer) (ws : List MWord) : State :=
  let d := x.desc
  let t := d.tileReg (x.unit / d.per)
  let last := decide ((x.unit + 1) % d.per = 0)
  match d.kind x.unit with
  | .row j =>
    if d.lkind = 2 then
      let (s, _) := ws.foldl (fun (p : State × Nat) w =>
        (p.1.writeStg (e / 17) (64 * d.sbofs + 64 * x.unit + 4 * p.2) w, p.2 + 1)) (s, 0)
      s
    else
      let s := if j % 32 = 0 then s.setTag (tk e t) { s.tag (tk e t) with poison := 0 } else s
      let s := if d.tr then s.fillTransposed e t d (j % 32) ws else s.fillRow e t (j % 32) 0 ws
      if last then s.endFill e l t d [] else s
  | .side _ =>
    let s := s.putSide e t 0 ((ws.flatMap fun w => wordBytes w.v).map (·.toNat))
    let s := if ws.any (·.p) then s.orPoison e t (BitVec.allOnes 512) else s
    if last then s.endFill e l t d [] else s
  | .copy _ =>
    let copy := x.copy ++ ws
    if last then (s.setXfer (xk l n) { x with copy := [] }).endFill e l t d copy
    else s.setXfer (xk l n) { x with copy := copy }

/-- The words of one unit of a store, read from the tile or the staging buffer (R144, R187). -/
def State.liftUnit (s : State) (e : Nat) (x : Xfer) : List MWord × State :=
  let d := x.desc
  let t := d.tileReg (x.unit / d.per)
  let word (b : Nat → Nat) (i : Nat) : BitVec 32 :=
    BitVec.ofNat 32 (b i + 256 * b (i + 1) + 65536 * b (i + 2) + 16777216 * b (i + 3))
  match d.kind x.unit with
  | .row j =>
    if d.lkind = 2 then
      (List.range 16).foldl (fun (p : List MWord × State) i =>
        let (w, s) := p.2.readStg (s.engSrc e x.ctx x.op x.pc) (e / 17) (64 * d.sbofs + 64 * x.unit + 4 * i)
        (p.1 ++ [w], s)) ([], s)
    else
      ((List.range 16).map fun i => ⟨word (s.tb e t) (64 * (j % 32) + 4 * i),
        (s.tag (tk e t)).poison.getLsbD (16 * (j % 32) + i)⟩, s)
  | _ => ((List.range 16).map fun i => ⟨word (s.sb e t) (4 * i), false⟩, s)

/-- Progress of a slot by `k` units (R182, R183): after a stall it files a resume record with the stalled time and marks the
captured stall resumed. -/
def State.progress (s : State) (e l n k : Nat) : State :=
  let x := s.xfer (xk l n)
  let us := min 0xFFFFFFFF ((s.now - x.last).toNat / 1000)
  let s' := s.setXfer (xk l n) { x with st := .active, unit := x.unit + k, last := s.now, starved := false }
  (if x.st = .stalled then
    let s' := s'.eventR (s'.faultTask e x.ctx x.op x.pc
      { cls := 0x0A, unit := engineUnit e, sig := BitVec.ofNat 32 x.cause, det0 := x.d0,
        det1 := BitVec.ofNat 64 (us + n * 2 ^ 32 + x.cause * 2 ^ 40) })
    let u := e / 17
    if s'.fget (F.STR_LAST_STALL_ENGINE u) = e % 17 ∧ s'.fget (F.STR_LAST_STALL_SLOT u) = n then
      (s'.setFlag (F.STR_LAST_STALL_RESUMED u) true).setReg (Reg.STR_LAST_DUR u) (BitVec.ofNat 32 us)
    else s'
  else s').reHold e

/-- Ends a slot: it is FREE, and an instruction waiting for one may issue (R145, R181). -/
def State.freeXfer (s : State) (e l n : Nat) : State := (s.setXfer (xk l n) {}).offer e l

/-- The words of the next unit of a fetch: read from this package, refused for an unknown one (R23), or taken from
what a remote package has sent; none when nothing has arrived. -/
def State.nextWords (s : State) (e : Nat) (x : Xfer) : Option (List MWord) × State :=
  let g := x.at x.unit
  let src := s.engSrc e x.ctx x.op x.pc
  if s.local x then
    let (ws, s) := s.readN src (pkgOf g) (g.toNat % 2 ^ 48) 16
    (some ws, s)
  else match lookup x.inbox x.unit with
    | some ws => (some ws, s)
    | none =>
      if s.learned (pkgOf g) || x.unit < x.asked then (none, s)
      else (some (List.replicate 16 poisonWord), s.addrErr 5 false src g)

/-- One 64-byte unit of a fetch (R144, R182). -/
def State.fetchUnit (s : State) (e l n : Nat) : State :=
  let x := s.xfer (xk l n)
  let d := x.desc
  if d.lkind ≠ 2 ∧ x.unit % d.per = 0 ∧ s.full e (d.tileReg (x.unit / d.per)) then s.reHold e
  else match s.nextWords e x with
    | (none, s) => s
    | (some ws, s) =>
      let x := { x with inbox := without x.inbox x.unit }
      (((s.setXfer (xk l n) x).landUnit e l n x ws).progress e l n 1).topUp l n

/-- How many requests a transfer slot has outstanding in another package. -/
def State.outstanding (s : State) (l n : Nat) (x : Xfer) : Nat :=
  (s.rtx.filter fun r => r.id == x.id && r.l == l && r.slot == n).length

/-- Whether a store may not read its next unit yet: its tile is not FULL, an instruction issued earlier has still to write the
tile (R91, R144), or 64 of its requests are outstanding (R181). -/
def State.storeWaits (s : State) (e l n : Nat) (x : Xfer) : Bool :=
  let d := x.desc
  let t := d.tileReg (x.unit / d.per)
  (d.lkind != 2 && (!s.full e t ||
    (x.unit % d.per == 0 && (s.eng e).ents.any fun q => decide (q.id < x.id) && (tilesWritten q.w).contains t))) ||
    decide (64 ≤ s.outstanding l n x)

/-- One 64-byte unit of a store (R144, R182, R187): written in poison form where the source is marked, and then the
store contributes POISONED. A store cut short ends DROPPED with the tile it had begun (R162) (DEDUCED, log entry 96). -/
def State.storeUnit (s : State) (e l n : Nat) : State :=
  let x := s.xfer (xk l n)
  let d := x.desc
  let t := d.tileReg (x.unit / d.per)
  if s.storeWaits e l n x then s.reHold e
  else
    let s := if d.lkind ≠ 2 ∧ x.unit % d.per = 0 then s.checkTile e (s.faultTask e x.ctx x.op x.pc {}) t else s
    let (ws, s) := s.liftUnit e x
    let g := x.at x.unit
    let src := s.engSrc e x.ctx x.op x.pc
    let s := if s.local x then s.writeN src (pkgOf g) (g.toNat % 2 ^ 48) ws
      else if s.learned (pkgOf g) then
        s.ask { wr := true, addr := g, units := 1, data := ws, id := x.id, l := l, slot := n, unit := x.unit }
      else s.addrErr 5 true src g
    let s := if ws.any (·.p) then s.modCtx (4 * e + x.ctx) (fun c => c.complete .poisoned {} 0 0 0) else s
    let last := decide ((x.unit + 1) % d.per = 0)
    let s := if last && decide (d.lkind ≠ 2) && d.cs then s.setFull e t false else s
    let s := s.progress e l n 1
    if x.dropping && last && decide (d.lkind ≠ 2) then s.freeXfer e l n else s

/-- One unit of a saved-image load (R107). -/
def State.imageUnit (s : State) (e l n : Nat) : State :=
  let x := s.xfer (xk l n)
  match s.nextWords e x with
  | (none, s) => s
  | (some ws, s) =>
    ((s.setXfer (xk l n) { x with inbox := upsert x.inbox x.unit ws }).progress e l n 1).topUp l n

/-- Whether two global addresses lie in one 4 KiB granule (R15, R23). -/
def State.sameGranule (s : State) (a b : BitVec 64) : Bool :=
  (pkgOf a == pkgOf b || (s.own (pkgOf a) && s.own (pkgOf b))) && a.toNat % 2 ^ 48 / 0x1000 == b.toNat % 2 ^ 48 / 0x1000

/-- Whether one transfer of an engine comes before another in issue order (R145, R146). -/
def Xfer.before (y x : Xfer) : Bool := decide (y.id < x.id) || (y.id == x.id && decide (y.idx < x.idx))

/-- Whether an earlier transfer of the slot's engine that is on its way has a request at hand in the granule of the next unit
of `x`, which therefore comes after it (R15, R146, R181). -/
def State.granuleHeld (s : State) (l : Nat) (x : Xfer) : Bool :=
  (List.range 6).any fun n =>
    let y := s.xfer (xk l n)
    (y.st == .active || (y.st == .stalled && y.cause != 6)) && y.before x &&
      (List.range (min 64 (y.total - y.unit))).any fun i => s.sameGranule (y.at (y.unit + i)) (x.at x.unit)

/-- Whether the next unit of a transfer waits: for memory in this package (R303, R306, R343), for an edge that retrains
(R18), or for an earlier transfer in its granule (R15). -/
def State.unitWaits (s : State) (e l : Nat) (x : Xfer) : Bool :=
  let a := (x.at x.unit).toNat % 2 ^ 48
  (s.local x && s.memWaits a) || s.edgeWaits e (s.local x) a || s.granuleHeld l x

/-- A unit that no path reaches makes its transfer complete with POISONED (R18). -/
def State.noPath (s : State) (e : Nat) (x : Xfer) : State :=
  if s.cutOff e (s.local x) ((x.at x.unit).toNat % 2 ^ 48) then
    s.modCtx (4 * e + x.ctx) fun c => c.complete .poisoned {} 0 0 0
  else s

/-- One unit of a transfer slot, whatever it holds. -/
def State.oneUnit (s : State) (l n : Nat) : State :=
  let x := s.xfer (xk l n)
  match s.engineOf l with
  | none => s
  | some e =>
    if x.st = .free ∨ x.total ≤ x.unit ∨ s.unitWaits e l x then s
    else
      let t :=
        if x.acc.isSome then s.imageUnit e l n
        else if x.desc.store then s.storeUnit e l n
        else s.fetchUnit e l n
      if (t.xfer (xk l n)).unit = x.unit then t else t.noPath e x

/-- STREAM_DATA_ARRIVAL (R182): the next 64-byte unit of a transfer is delivered or accepted; a slot whose tile is not
ready is HELD. -/
def execStreamDataArrival (p : LPos) (n : Fin 6) (s : State) : Host.Outcome State Fault Refusal :=
  .next (s.oneUnit p.key n.val)

/-- Units of a slot until its tile is whole or it can go no further. -/
def State.fillTile (s : State) (l n : Nat) : Nat → State
  | 0 => s
  | fuel + 1 =>
    let s := s.oneUnit l n
    let x := s.xfer (xk l n)
    if x.st = .free ∨ x.total ≤ x.unit ∨ x.unit % x.desc.per = 0 then s else s.fillTile l n fuel

/-- STREAM_TILE_FILL (R93, R144): a HELD fetch fills its next tile once FULL is 0. -/
def execStreamTileFill (p : LPos) (n : Fin 6) (s : State) : Host.Outcome State Fault Refusal :=
  let l := p.key
  let x := s.xfer (xk l n.val)
  .next (if x.st = .free ∨ x.acc.isSome ∨ x.desc.store = true ∨ x.desc.lkind = 2 then s
    else s.fillTile l n.val x.desc.per)

/-- TRANSFER_COMPLETE (R145, R146): every unit moved and, for a store to another package, written there. The slot frees,
SIG adds 1 to SEM, and its batch counts it. -/
def execTransferComplete (p : LPos) (n : Fin 6) (s : State) : Host.Outcome State Fault Refusal :=
  let l := p.key
  let x := s.xfer (xk l n.val)
  .next (match s.engineOf l with
    | none => s
    | some e =>
      if x.st = .free || x.acc.isSome || decide (x.unit < x.total) ||
          s.rtx.any (fun r => r.id == x.id && r.l == l && r.slot == n.val) then s
      else
        let s := s.freeXfer e l n.val
        let s := match x.batch with
          | none => s
          | some id => (s.setBatch l ((s.batch l).map fun (b : Batch) =>
              if b.id = id then { b with finished := b.finished + 1 } else b)).sweep e l
        if x.desc.sig && !x.dropping then s.signal (e / 17) x.desc.sem 1 0 else s)

/-- STREAM_STALL (R182, R183): no progress for the stall limit. The slot is STALLED, a stall record is filed, the
cluster's counts and capture take it. Nothing is discarded. -/
def execStreamStall (p : LPos) (n : Fin 6) (s : State) : Host.Outcome State Fault Refusal :=
  let l := p.key
  let x := s.xfer (xk l n.val)
  .next (match s.engineOf l with
    | none => s
    | some e =>
      if x.st ≠ .active ∧ x.st ≠ .held then s
      else
        let u := e / 17
        let c := s.xferCause e x
        let s := s.setXfer (xk l n.val) { x with st := .stalled, cause := c }
        let s := s.eventR (s.faultTask e x.ctx x.op x.pc
          { cls := 0x08, unit := engineUnit e, sig := BitVec.ofNat 32 c, det0 := x.d0,
            det1 := BitVec.ofNat 64 (n.val * 2 ^ 32 + c * 2 ^ 40) })
        let s := s.fsat (F.STR_STALL_CNT_STALLS u) 1
        s.setReg (Reg.STR_LAST_STALL u)
          (BitVec.ofNat 32 (2 ^ 31 + e % 17 * 2 ^ 26 + n.val * 2 ^ 23 + c * 2 ^ 19)))

/-- STREAM_STARVATION (R183): the stall has reached the starvation time; one record is filed for it. -/
def execStreamStarvation (p : LPos) (n : Fin 6) (s : State) : Host.Outcome State Fault Refusal :=
  let l := p.key
  let x := s.xfer (xk l n.val)
  .next (match s.engineOf l with
    | none => s
    | some e =>
      if x.st ≠ .stalled ∨ x.starved then s
      else
        let u := e / 17
        let s := s.setXfer (xk l n.val) { x with starved := true }
        let s := s.eventR (s.faultTask e x.ctx x.op x.pc
          { cls := 0x09, unit := engineUnit e, sig := BitVec.ofNat 32 x.cause, det0 := x.d0,
            det1 := BitVec.ofNat 64 (n.val * 2 ^ 32 + x.cause * 2 ^ 40) })
        let s := s.fsat (F.STR_STALL_CNT_STARVES u) 1
        if s.fget (F.STR_LAST_STALL_ENGINE u) = e % 17 ∧ s.fget (F.STR_LAST_STALL_SLOT u) = n.val then
          s.setFlag (F.STR_LAST_STALL_STARVED u) true
        else s)

end Sys2Proof.Machine
end

