-- ==== Sys2Proof/Machine/Rights.lean ====
section
/-! DEFINITION. Register access by requester (R7, R373, R401): what a requester may write of a register, the write of
the fields it may, and the refusal of the rest. -/
namespace Sys2Proof.Machine

/-- The w1c bits of a register. -/
def w1cMask (k : Nat) : BitVec 32 :=
  match Reg.row k with
  | none => 0
  | some r => r.fields.foldl (fun m f => if f.acc = .w1c then m ||| (⟨k, f.hi, f.lo⟩ : Fld).mask else m) 0

/-- Whether register `k` is a register of a queue that the host owns (R151, R164). -/
def State.hostQueue (s : State) (k : Nat) : Bool :=
  decide (0x1000 ≤ k) && decide (k < 0x1200) && !s.flag (F.PLN_CQ_CFG_OWNER ((k - 0x1000) / 0x20))

/-- What a requester may write of register `k`: every field, or the bits given (R373). -/
def State.mayWrite (s : State) (r : Req) (k : Nat) : Option (BitVec 32) :=
  match r with
  | .armature => none
  | .cheval => if s.fget F.DBG_LEVEL_LEVEL = 2 then none else some 0
  | .mgmt => if k = Reg.SEC_ADDR_LO ∨ k = Reg.SEC_ADDR_HI then none else some 0
  | .engine => some 0
  | .host =>
    if k = Reg.SEC_ADDR_LO ∨ k = Reg.SEC_ADDR_HI then none
    else if s.flag F.SEC_POLICY_HOSTW then
      let b := k / 0x10000
      if b = 0xC ∨ b = 0xD ∨ b = 0xE then some (w1cMask k)
      else if k = Reg.TST_RESET then (if s.flag F.SEC_POLICY_HOSTRST then none else some 0)
      else none
    else if s.hostQueue k ∨ (Reg.FLT_HMIR_LO ≤ k ∧ k ≤ Reg.FLT_HMIR_LOST) then none
    else some (w1cMask k)

/-- Whether a requester may write the whole register, so that the actions tied to the write start. -/
def State.whole (s : State) (r : Req) (k : Nat) : Bool := (s.mayWrite r k).isNone

/-- Whether a write is refused: it sets a bit the requester may not write (R373) (DEDUCED, log entry 102). -/
def State.refused (s : State) (r : Req) (k : Nat) (v : BitVec 32) : Bool :=
  match s.mayWrite r k with
  | none => false
  | some m => v &&& ~~~m != 0

/-- The register whose bit 31 is the lock of register `k` (R401). -/
def lockOf (k : Nat) : Nat :=
  if k = Reg.DIA_PRIO ∨ (Reg.DIA_MIN 0 ≤ k ∧ k ≤ Reg.DIA_MIN 2) then Reg.DIA_CAP else k

/-- The lock bit as it stands. -/
def State.locked (s : State) (k : Nat) : Bool := (s.reg (lockOf k)).getLsbD 31

/-- One field under a write (R7): rd and fx ignore it, w1c clears where it writes 1, lk ignores it once locked. -/
def fieldWrite (lock : Bool) (m v : BitVec 32) (k : Nat) (old : BitVec 32) (f : FieldRow) : BitVec 32 :=
  let mask := (⟨k, f.hi, f.lo⟩ : Fld).mask &&& m
  match f.acc with
  | .rd | .fx => old
  | .rw => (old &&& ~~~mask) ||| (v &&& mask)
  | .lk => if lock then old else (old &&& ~~~mask) ||| (v &&& mask)
  | .w1c => old &&& ~~~(v &&& mask)

/-- The register's contents after a write of `v` through the bits `m` (R7, R8, R401). -/
def State.written (s : State) (m : BitVec 32) (k : Nat) (v : BitVec 32) : BitVec 32 :=
  match Reg.row k with
  | none => s.reg k
  | some r => r.fields.foldl (fieldWrite (s.locked k) m v k) (s.reg k)

/-- Counts a refused write (R373); an engine's is an address error of kind RSVD_REG instead (R25). -/
def State.deny (s : State) (r : Req) (k : Nat) (v : BitVec 32) : State :=
  if r = .engine then s.addrErr 3 true { code := 0, unit := blockUnit 0 } (0xFFFF#16 ++ BitVec.ofNat 48 (0x30000000000 + k))
  else if s.refused r k v then s.fsat F.SEC_STATUS_DENIED 1 else s

/-- A write with no action of its own: the permitted fields take it, and a refused write counts (R7, R373). -/
def State.plainWrite (s : State) (r : Req) (k : Nat) (v : BitVec 32) : State :=
  let m := (s.mayWrite r k).getD (BitVec.allOnes 32)
  (s.setReg k (s.written m k v)).deny r k v

/-- A write that starts an action: the action for a requester who may write the whole register, else the plain write of
what it may (R373). -/
def State.acting (s : State) (r : Req) (k : Nat) (v : BitVec 32) (f : State → State) : State :=
  if s.whole r k then f s else s.plainWrite r k v

end Sys2Proof.Machine
end

