-- ==== Sys2Proof/Machine/Tree.lean ====
section
/-! DEFINITION. Collective groups and their tree (R250 to R253): the group table and its window, member lists, the
levels of nodes built from coordinates, and the climb of a value through the nodes this package hosts. -/
namespace Sys2Proof.Machine

/-! ## The group table (R251) -/

def State.grpW (s : State) (g k : Nat) : BitVec 32 := Sparse.get (fun _ => 0) s.grp (8 * g + k)

/-- Writes word `k` of entry `g`, with good check bits (R185). -/
def State.setGrpW (s : State) (g k : Nat) (v : BitVec 32) : State :=
  { s with grp := Sparse.set (fun _ => 0) s.grp (8 * g + k) v, grpEcc := Sparse.set (fun _ => 0) s.grpEcc (8 * g + k) 0 }

/-- The words of entry `g` that do not read good (R185). -/
def State.grpBad (s : State) (g : Nat) : List Nat := badOf s.grpEcc 8 g

/-- A read of entry `g` (R185, R186, R317): a single bit is corrected in place, and what is recorded is charged to Clave's
block (R319). -/
def State.checkGrp (s : State) (g : Nat) : State :=
  (s.grpBad g).foldl (fun s k =>
    let y := Sparse.get (fun _ => 0) s.grpEcc k
    let (m, z) := fixTab s.grp s.grpEcc k
    ({ s with grp := m, grpEcc := z } : State).noteWord (eccKey 4 k) y { unit := blockUnit 9, sig := wordSig (4 * k) y }) s

/-- Whether an entry is in use (R251); one with a word that reads as poison is not (DESIGN CHOICE, log entry 116). -/
def State.grpValid (s : State) (g : Nat) : Bool := (s.grpW g 0).getLsbD 31 && !poisonOf s.grpEcc 8 g
def State.grpLocal (s : State) (g : Nat) : Bool := (s.grpW g 0).getLsbD 30
def State.grpFan (s : State) (g : Nat) : Nat := (s.grpW g 0).toNat / 2 ^ 16 % 32
def State.grpNmem (s : State) (g : Nat) : Nat := (s.grpW g 0).toNat % 2 ^ 16
def State.grpNpart (s : State) (g : Nat) : Nat := (s.grpW g 1).toNat / 2 ^ 24

/-- The package address of the member list. -/
def State.grpList (s : State) (g : Nat) : Nat := (s.grpW g 2).toNat + 2 ^ 32 * (s.grpW g 3).toNat

/-- The member words as stored. -/
def State.members (s : State) (g : Nat) : List MWord :=
  (List.range (s.grpNmem g)).map fun i => s.stored (s.grpList g + 4 * i)

/-- The package id of a member word. -/
def memPkg (w : BitVec 32) : BitVec 16 := (w >>> 16).truncate 16

/-- A member word for an engine position (R251). -/
def memWord (pkg : BitVec 16) (l : Nat) : BitVec 32 :=
  BitVec.ofNat 32 (pkg.toNat * 2 ^ 16 + l / 384 * 2 ^ 14 + l / 16 % 24 * 2 ^ 8 + l % 16)

/-- The logical slot (a key) a member word names. -/
def memSlot (w : BitVec 32) : Nat := (w.toNat / 2 ^ 14 % 4 * 24 + w.toNat / 2 ^ 8 % 32) * 16 + w.toNat % 16

/-- The package id this package's members carry in a group. -/
def State.ownIn (s : State) (g : Nat) : BitVec 16 := if s.grpLocal g then 0xFFFF else s.pkgId

/-- Whether a list of member words is strictly increasing. -/
def rising : List (BitVec 32) → Bool
  | a :: b :: ws => decide (a.toNat < b.toNat) && rising (b :: ws)
  | _ => true

/-- Whether a member word's fields are in range (R251, R252). -/
def memOk (loc : Bool) (w : BitVec 32) : Bool :=
  w &&& 0x20F0 == 0 && decide (w.toNat / 2 ^ 8 % 32 ≤ 23) &&
    (if loc then memPkg w == 0xFFFF else decide ((memPkg w).toNat / 128 ≠ 511))

/-- The window image of a group entry. -/
def State.grpImage (s : State) : List (BitVec 32) := (List.range 8).map fun k => s.reg (Reg.CLV_GRP_DATA k)

/-- Writes the eight words of an entry from word `k` on. -/
def State.putGrp (s : State) (g : Nat) : Nat → List (BitVec 32) → State
  | _, [] => s
  | k, v :: vs => (s.setGrpW g k v).putGrp g (k + 1) vs

/-- Writes the window's data registers from `k` on (DEDUCED, log entry 100). -/
def State.putGrpWin (s : State) : Nat → List (BitVec 32) → State
  | _, [] => s
  | k, v :: vs => (s.setReg (Reg.CLV_GRP_DATA k) v).putGrpWin (k + 1) vs

/-- Whether an image with VALID 1 may be committed (R252), given the words of its list. -/
def grpOk (w : List (BitVec 32)) (ms : List MWord) : Bool :=
  let w0 := w.getD 0 0
  let w1 := w.getD 1 0
  let loc := w0.getLsbD 30
  let fan := w0.toNat / 2 ^ 16 % 32
  w0.toNat / 2 ^ 21 % 512 == 0 && w1.toNat % 2 ^ 24 == 0 && (w.drop 5).all (· == 0) && w0.toNat % 2 ^ 16 != 0 &&
    w1.toNat / 2 ^ 24 != 0 && (w.getD 2 0).toNat % 64 == 0 && decide ((w.getD 3 0).toNat < 2 ^ 16) &&
    (loc || (decide (2 ≤ fan) && decide (fan ≤ 16))) && ms.all (fun m => !m.p && memOk loc m.v) && rising (ms.map (·.v))

/-- A group window command starts (R51, R251): CMD takes its fields, and on completion SEQ counts. -/
def State.grpCmd (s : State) (op i : Nat) : State :=
  ((s.fset F.CLV_GRP_CMD_OP op).fset F.CLV_GRP_CMD_INDEX i).fwrap F.CLV_GRP_STATUS_SEQ 1

/-- The window read. -/
def State.grpRead (s : State) (i : Nat) : State :=
  let s := s.checkGrp i
  let w := (List.range 8).map (s.grpW i)
  (s.grpCmd 1 i).putGrpWin 0 w

/-- The window write (R252): VALID 0 without a check; VALID 1 only when the list and fields pass, with OWN and OWNCNT
written by the package. -/
def State.grpWrite (s : State) (i : Nat) : State :=
  let w := s.grpImage
  let w0 := w.getD 0 0
  let s := s.grpCmd 2 i
  if w0.getLsbD 31 = false then (s.setFlag F.CLV_GRP_STATUS_ERR false).putGrp i 0 w
  else
    let a := (w.getD 2 0).toNat + 2 ^ 32 * (w.getD 3 0).toNat
    let (ms, s) := s.readN .arm 0xFFFF (a % 2 ^ 48) (w0.toNat % 2 ^ 16)
    if grpOk w ms then
      let own : BitVec 16 := if w0.getLsbD 30 then 0xFFFF else s.pkgId
      let mine := ms.map fun m => memPkg m.v == own
      let w4 := BitVec.ofNat 32 ((mine.findIdx? id).getD 0 * 2 ^ 16 + (mine.filter id).length)
      (s.setFlag F.CLV_GRP_STATUS_ERR false).putGrp i 0 (w.set 4 w4)
    else s.setFlag F.CLV_GRP_STATUS_ERR true

/-- GROUP_READ (R251). -/
def execGroupRead (r : Req) (i : BitVec 12) (s : State) : Host.Outcome State Fault Refusal :=
  .next (s.acting r Reg.CLV_GRP_CMD (0x40000000 ||| i.zeroExtend 32) fun s => s.grpRead i.toNat)

/-- GROUP_WRITE (R252). -/
def execGroupWrite (r : Req) (i : BitVec 12) (s : State) : Host.Outcome State Fault Refusal :=
  .next (s.acting r Reg.CLV_GRP_CMD (0x80000000 ||| i.zeroExtend 32) fun s => s.grpWrite i.toNat)

/-! ## The tree (R253) -/

/-- A node by the packages beneath it, in increasing order. Its host is the first. -/
abbrev Node := List Nat

/-- The host of a node. -/
def Node.host (n : Node) : Nat := n.headD 0

/-- Joins consecutive nodes whose hosts share a coordinate. -/
def joinBy (key : Nat → Nat) : List Node → List Node
  | [] => []
  | n :: ns => match joinBy key ns with
    | [] => [n]
    | m :: ms => if key (Node.host n) = key (Node.host m) then (n ++ m) :: ms else n :: m :: ms

/-- Joins consecutive runs of `fan` nodes. -/
def joinRuns (fan : Nat) : Nat → List Node → List Node
  | 0, ns => ns
  | k + 1, ns => if ns = [] then [] else (ns.take fan).flatten :: joinRuns fan k (ns.drop fan)

/-- The levels above the rack, until one node remains. -/
def upper (fan : Nat) : Nat → List Node → List (List Node)
  | 0, _ => []
  | k + 1, ns =>
    if ns.length ≤ 1 then []
    else
      let up := joinRuns fan ns.length ns
      up :: upper fan k up

/-- The levels of a group's tree from the package nodes up (R253). -/
def levels (fan : Nat) (pkgs : List Nat) : List (List Node) :=
  let l0 : List Node := pkgs.map fun p => [p]
  let l1 := joinBy (· / 8) l0
  let l2 := joinBy (· / 128) l1
  l0 :: l1 :: l2 :: upper fan 16 l2

/-- The packages of a group, in increasing order. -/
def State.grpPkgs (s : State) (g : Nat) : List Nat :=
  if s.grpLocal g then [s.pkgId.toNat] else ((s.members g).map fun m => (memPkg m.v).toNat).eraseDups

/-- The levels of group `g`. -/
def State.tree (s : State) (g : Nat) : List (List Node) := levels (s.grpFan g) (s.grpPkgs g)

/-- Where a value climbing the tree stands: it waits for a child, goes to the host of a parent, or is the root's. -/
inductive Climb (α : Type) where
  | wait
  | send (dst : Nat) (v : α)
  | root (v : α)
  deriving DecidableEq, Repr

/-- Climbs from this package's node (R253, R254): at each level the node's children are combined in increasing order of
their lowest package id; a single child passes unchanged; a node hosted elsewhere is sent to. -/
def climb {α : Type} (own : Nat) (get : Nat → Option α) (comb : List α → α) :
    List Node → List (List Node) → α → Climb α
  | _, [], v => .root v
  | prev, ns :: up, v =>
    match ns.find? fun n => n.contains own with
    | none => .root v
    | some n =>
      if Node.host n ≠ own then .send (Node.host n) v
      else
        let kids := prev.filter fun k => n.contains (Node.host k)
        match kids with
        | [_] => climb own get comb ns up v
        | _ =>
          let vs := kids.map fun k => if Node.host k = own then some v else get (Node.host k)
          if vs.any (·.isNone) then .wait else climb own get comb ns up (comb (vs.filterMap id))

/-- The climb on group `g` from its package nodes. -/
def State.climbOn {α : Type} (s : State) (g : Nat) (get : Nat → Option α) (comb : List α → α) (v : α) : Climb α :=
  match s.tree g with
  | [] => .root v
  | l0 :: up => climb s.pkgId.toNat get comb l0 up v

/-- The hosts of the children of the nodes a package hosts, itself left out. -/
def kidsOf (own : Nat) : List Node → List (List Node) → List Nat
  | _, [] => []
  | prev, ns :: up =>
    match ns.find? fun n => n.contains own with
    | none => []
    | some n =>
      if Node.host n ≠ own then []
      else ((prev.filter fun k => n.contains (Node.host k)).map Node.host).filter (· ≠ own) ++ kidsOf own ns up

/-- The packages that send to this package's nodes of group `g`, and receive from them. -/
def State.kids (s : State) (g : Nat) : List Nat :=
  match s.tree g with
  | [] => []
  | l0 :: up => kidsOf s.pkgId.toNat l0 up

/-- The host this package sends up to; none at the root. -/
def State.parent (s : State) (g : Nat) : Option Nat :=
  (s.tree g).findSome? fun ns => (ns.find? fun n => n.contains s.pkgId.toNat).bind fun n =>
    if Node.host n = s.pkgId.toNat then none else some (Node.host n)

/-- Counts a slot that no child sent (R252). -/
def State.stray (s : State) : State := s.fsat F.CLV_STATUS_STRAY 1

/-- Sends a message to each of a list of packages. -/
def State.toAll (s : State) (ds : List Nat) (m : Msg) : State :=
  ds.foldl (fun s d => s.toPkg (BitVec.ofNat 16 d) m) s

end Sys2Proof.Machine
end

