-- ==== Sys2Proof/Machine/Collect.lean ====
section
/-! DEFINITION. Collectives (R147 to R149, R250 to R260, R402): issue and its checks, combination at a node, results on
their way down, norm statistics, time limit and withdrawal. -/
namespace Sys2Proof.Machine

/-! ## Elements in package memory -/

/-- A 16-bit element with its poison mark. -/
abbrev Elem := BitVec 16 × Bool

/-- Byte `i` of delivered words that start at the word holding address `a`. -/
def byteFrom (ws : List MWord) (a i : Nat) : Nat × Bool := byteOf ws (a % 4 + i)

/-- Reads `n` 16-bit elements at a global address of this package. R147 places SRC and DST in the issuing package and R402
does not check them: an id of another package, learned or not, is refused as UNKNOWN_PKG, the elements are poisoned, and
the collective has joined (DESIGN CHOICE, log entry 129). -/
def State.readElems (s : State) (src : Src) (g : BitVec 64) (n : Nat) : List Elem × State :=
  let a := g.toNat % 2 ^ 48
  if s.own (pkgOf g) then
    let (ws, s) := s.readN src (pkgOf g) (4 * (a / 4)) ((a % 4 + 2 * n + 3) / 4)
    ((List.range n).map fun i =>
      let (lo, p) := byteFrom ws a (2 * i)
      let (hi, q) := byteFrom ws a (2 * i + 1)
      (BitVec.ofNat 16 (lo + 256 * hi), p || q), s)
  else (List.replicate n (0, true), s.addrErr 5 false src g)

/-- Writes 16-bit elements at a global address of this package: a word with a poisoned element is written in poison
form; bytes of a word outside the elements keep what it held (R187). Another package id is refused (DESIGN CHOICE, log entry
129). -/
def State.writeElems (s : State) (src : Src) (g : BitVec 64) (es : List Elem) : State :=
  let a := g.toNat % 2 ^ 48
  if s.own (pkgOf g) then
    let b := 4 * (a / 4)
    let n := (a % 4 + 2 * es.length + 3) / 4
    let byte (i : Nat) : Nat × Bool :=
      if i < a % 4 ∨ a % 4 + 2 * es.length ≤ i then ((s.byte (b + i)).toNat, (s.stored (b + i)).p)
      else
        let (v, p) := es.getD ((i - a % 4) / 2) (0, true)
        (v.toNat / 256 ^ ((i - a % 4) % 2) % 256, p)
    s.writeN src (pkgOf g) b ((List.range n).map fun j =>
      let bs := (List.range 4).map fun k => byte (4 * j + k)
      ⟨BitVec.ofNat 32 (bs.foldr (fun x v => x.1 + 256 * v) 0), bs.any (·.2)⟩)
  else s.addrErr 5 true src g

/-- Elements as data words, two to a word (R255). -/
def packElems : List Elem → List MWord
  | [] => []
  | [(a, p)] => [⟨a.zeroExtend 32, p⟩]
  | (a, p) :: (b, q) :: es => ⟨b ++ a, p || q⟩ :: packElems es

/-- Data words as elements. -/
def unpackElems (ws : List MWord) : List Elem :=
  ws.flatMap fun (w : MWord) => [(w.v.extractLsb' 0 16, w.p), (w.v.extractLsb' 16 16, w.p)]

/-- The elements a slot carries. -/
def slotElems (d : CSlot) : List Elem := (unpackElems d.data).take (d.len.toNat + 1)

/-! ## Combination at a node (R254) -/

/-- The format of FMT 0 or 1. -/
def collFmt (fmt : Nat) : EFmt := if fmt = 1 then binary16 else bf16

/-- The combination of one element's children: the long-form sum rounded once, the maximum or the minimum. -/
def combineOne (fmt cop : Nat) (es : List Elem) : Elem :=
  let f := collFmt fmt
  let xs := es.map fun e => f.decode e.1.toNat
  let v :=
    if cop = 1 then xs.foldl Num.maxOf (xs.headD .nan)
    else if cop = 2 then xs.foldl Num.minOf (xs.headD .nan)
    else (xs.foldl (fun x v => El.step false x v 0) (El.fresh false 0)).value
  (BitVec.ofNat 16 (f.conv .even v).code, es.any (·.2))

/-- The combination of the children's vectors, element by element. -/
def combineVec (fmt cop : Nat) (vs : List (List Elem)) : List Elem :=
  let n := (vs.map (·.length)).foldl min (vs.headD []).length
  (List.range n).map fun i => combineOne fmt cop (vs.map fun v => v.getD i (0, true))

/-- The elements of one chunk that goes up or down (DESIGN CHOICE, log entry 23). -/
def chunkLen : Nat := 1024

/-- The chunks of `n` elements: first element and length; an empty vector is one empty chunk. -/
def chunksOf (n : Nat) : List (Nat × Nat) :=
  if n = 0 then [(0, 0)]
  else (List.range ((n + chunkLen - 1) / chunkLen)).map fun i => (chunkLen * i, min chunkLen (n - chunkLen * i))

/-! ## Instances -/

/-- The key of an instance: group and number. -/
def instKey (g i : Nat) : Nat := g * 2 ^ 16 + i

def State.inst (s : State) (k : Nat) : Inst := Sparse.get (fun _ => {}) s.insts k

/-- The members of this package in a group, by their index in the list. -/
def State.ownMembers (s : State) (g : Nat) : List Nat :=
  let ms := s.members g
  (List.range ms.length).filter fun i => decide (memPkg (ms.getD i poisonWord).v = s.ownIn g)

/-- Writes an instance, and shows the number of instances open (R276). -/
def State.setInst (s : State) (k : Nat) (x : Inst) : State :=
  let m := Sparse.set (fun _ => {}) s.insts k x
  ({ s with insts := m } : State).fset F.CLV_STATUS_INFLIGHT (min 0xFFFF m.length)

/-- Closes an instance once every own member has joined and left it and nothing more is owed to the tree. -/
def State.closeInst (s : State) (k : Nat) : State :=
  let x := s.inst k
  let own := s.ownMembers (k / 2 ^ 16)
  if own.all (fun m => x.left.contains m) && (x.rooted || x.cancelled || x.bad) then
    let s := s.setInst k {}
    if x.rooted && (x.op == 0 || x.op == 3) then s.settleColl (k / 2 ^ 16) (k % 2 ^ 16) else s
  else s

/-- Whether an instance has closed here: every own member has issued it, none is in it, and of the numbers modulo 2^16 it
is not one still to come (R250). What comes for it is a copy or too late, and is discarded (R259, R260; DEDUCED, log entry
119). -/
def State.instOver (s : State) (g i : Nat) : Bool :=
  let own := s.ownMembers g
  own != [] && (s.inst (instKey g i)).joined == [] && own.all fun m =>
    let c := Sparse.get (fun _ => 0) s.issued (g * 2 ^ 16 + m)
    decide (0 < c) && decide ((c + 0xFFFF - i % 2 ^ 16) % 2 ^ 16 < 2 ^ 15)

/-- A member of this package completes (R149): its slot frees, its context takes the code, and SIG signals after a
delivery. -/
def State.endMember (s : State) (k m : Nat) (c : Code) (cause : Nat) : State :=
  let x := s.inst k
  match lookup x.joined m with
  | none => s
  | some key =>
    if x.left.contains m then s
    else
      let y := s.coll key
      let l := key / 2
      let s := s.setInst k { x with left := x.left ++ [m] }
      let s := s.setColl key {}
      match s.engineOf l with
      | none => s.closeInst k
      | some e =>
        let s := ((s.settle e).modCtx (4 * e + y.ctx) fun z => z.complete c {} cause y.pc 0).wake e 5
        let s := if cdSIG y.d3 && (c == .done || c == .poisoned) then s.signal (l / 16) (cdSEM y.d3) 1 1 else s
        s.closeInst k

/-- Every own member that has joined and not left, with its slot. -/
def Inst.active (x : Inst) : List (Nat × Nat) := x.joined.filter fun p => !x.left.contains p.1

/-- Completes every active own member (DEDUCED, log entry 99). -/
def State.endAll (s : State) (k : Nat) (c : Code) (cause : Nat) : State :=
  (s.inst k).active.foldl (fun s p => s.endMember k p.1 c cause) s

/-- A member's elements at its destination (R148): all of the result, its concatenation, or its slice. -/
def destCount (op nmem count : Nat) : Nat := if op = 1 then nmem * count else count

/-- The requester of a collective's accesses. -/
def State.collSrc (s : State) (key : Nat) : Src :=
  let y := s.coll key
  match s.engineOf (key / 2) with
  | some e => s.engSrc e y.ctx (0xC0 + y.op) y.pc
  | none => { code := key / 2 / 384, unit := blockUnit 9 }

/-- The words of `n` saved images at an address. -/
def State.readImages (s : State) (src : Src) (g : BitVec 64) (n : Nat) : List MWord × State :=
  if s.own (pkgOf g) then s.readN src (pkgOf g) (4 * (g.toNat % 2 ^ 48 / 4)) (4112 * n)
  else (List.replicate (4112 * n) poisonWord, s.addrErr 5 false src g)

def State.writeImages (s : State) (src : Src) (g : BitVec 64) (ws : List MWord) : State :=
  if s.own (pkgOf g) then s.writeN src (pkgOf g) (4 * (g.toNat % 2 ^ 48 / 4)) ws else s.addrErr 5 true src g

/-- A cancelled instance (R259): every active own member's DST is written in poison form and it completes with ABORTED,
cause ABORT_CMD. -/
def State.cancelInst (s : State) (k : Nat) : State :=
  let x := s.inst k
  let g := k / 2 ^ 16
  let s := s.setInst k { x with cancelled := true }
  x.active.foldl (fun s p =>
    let y := s.coll p.2
    let n := destCount y.op (s.grpNmem g) (cdCOUNT y.d2)
    let src := s.collSrc p.2
    let s := if cdFMT y.d2 = 8 then s.writeImages src y.d1 (List.replicate (4112 * n) poisonWord)
      else s.writeElems src y.d1 (List.replicate n (0, true))
    s.endMember k p.1 .aborted causeABORT) s

/-! ## Norm statistics (R256, R257) -/

/-- The largest exact sum: 576-bit two's complement. -/
def normMax : Nat := 2 ^ 575 - 1

/-- Adds exact sums; one past the range saturates and sets OVF. -/
def normAdd (a b : Nat) (o : Bool) : Nat × Bool := if normMax < a + b then (normMax, true) else (a + b, o)

/-- x² in units of 2^-272; none for a non-finite element. -/
def squareOf (fmt : Nat) (e : Elem) : Option Nat :=
  match (collFmt fmt).decode e.1.toNat with
  | .fin _ n _ x => some (n * n * 2 ^ (2 * x + 272).toNat)
  | _ => none

/-- The exact sum of squares of elements, whether it saturated, and how many were not finite. -/
def squares (fmt : Nat) (es : List Elem) : Nat × Bool × Nat :=
  es.foldl (fun (t, o, n) e => match squareOf fmt e with
    | some q => let (t, o) := normAdd t q o; (t, o, n)
    | none => (t, o, n + 1)) (0, false, 0)

/-- A sum as binary32: nearest even, +infinity beyond the range or once a sum saturated, the written NaN (R256). -/
def normF32 (x : Nat) (nan ovf : Bool) : BitVec 32 :=
  if nan then 0x7FC00000
  else if ovf then 0x7F800000
  else
    let c := binary32.conv .even (.fin false x 1 (-272))
    if c.sat then 0x7F800000 else BitVec.ofNat 32 c.code

/-- A 576-bit field of a stored record. -/
def State.field576 (s : State) (a : Nat) : Nat :=
  (List.range 18).foldl (fun n i => n + (s.stored (a + 4 * i)).v.toNat * 2 ^ (32 * i)) 0

/-- One fold of a CNORM into its record (R257), in one write. -/
def State.foldNorm (s : State) (src : Src) (g a fmt : Nat) (dst own : List Elem) (x : StatSlot) : State :=
  let st := s.reg Reg.SCT_STEP
  let fresh := decide (lookup s.folds a ≠ some st)
  let old (o : Nat) : BitVec 32 := if fresh then 0 else (s.stored (a + o)).v
  let sum (o : Nat) : Nat := if fresh then 0 else s.field576 (a + o)
  let flags := if fresh then 0 else (old 16).toNat / 2 ^ 24
  let (q2, o2, n2) := squares fmt dst
  let (ql, ol, nl) := squares fmt own
  let ovf0 := flags.testBit 2 || o2 || ol || x.ovf
  let (xn2, ovf1) := normAdd (sum 32) q2 ovf0
  let (xloc, ovf2) := normAdd (sum 104) ql ovf1
  let (xsum, ovf) := normAdd (sum 176) x.sum.toNat ovf2
  let nonfin := flags.testBit 0 || decide (0 < n2) || decide (0 < nl) || x.nonfin
  let poison := flags.testBit 1 || dst.any (·.2) || own.any (·.2)
  let locNan := decide (old 8 = 0x7FC00000) || decide (0 < nl)
  let sumNan := decide (old 12 = 0x7FC00000) || x.nonfin
  let folds := min 255 ((old 16).toNat / 2 ^ 16 % 256 + 1)
  let nf := min 0xFFFFFFFF ((old 20).toNat + n2 + nl)
  let fl := (if nonfin then 1 else 0) + (if poison then 2 else 0) + (if ovf then 4 else 0)
  let w4 := BitVec.ofNat 32 (s.grpNmem g + folds * 2 ^ 16 + fl * 2 ^ 24)
  let ws := [normF32 xn2 nonfin ovf, if s.grpNpart g ≤ folds then st else st - 1, normF32 xloc locNan ovf,
    normF32 xsum sumNan ovf, w4, BitVec.ofNat 32 nf, 0, 0] ++ words576 xn2 ++ words576 xloc ++ words576 xsum ++ [0, 0]
  let s := { s with folds := upsert s.folds a st }
  s.writeN src 0xFFFF a (ws.map fun v => ⟨v, false⟩)

/-! ## Delivery (R253, R254) -/

/-- The elements from `pos` on, for `n` of them, as the down slots hold them; none while any is missing. -/
def takeFrom (ds : List CSlot) : Nat → Nat → Nat → Option (List Elem)
  | _, _, 0 => some []
  | 0, _, _ + 1 => none
  | fuel + 1, pos, n + 1 =>
    match ds.find? fun d => decide (d.ofs.toNat ≤ pos) && decide (pos < d.ofs.toNat + d.len.toNat + 1) with
    | none => none
    | some d =>
      let es := ((slotElems d).drop (pos - d.ofs.toNat)).take (n + 1)
      if es = [] then none else (takeFrom ds fuel (pos + es.length) (n + 1 - es.length)).map (es ++ ·)

/-- A run of the result. -/
def Inst.result (x : Inst) (first n : Nat) : Option (List Elem) := takeFrom x.downs x.downs.length first n

/-- Delivers to every active own member whose whole result has arrived: DST, and for a CNORM the fold into STAT
(R148, R256). -/
def State.deliverInst (s : State) (k : Nat) : State :=
  let g := k / 2 ^ 16
  (s.inst k).active.foldl (fun s p =>
    let x := s.inst k
    let y := s.coll p.2
    let n := destCount y.op (s.grpNmem g) (cdCOUNT y.d2)
    let first := if y.op = 2 then p.1 * cdCOUNT y.d2 else 0
    match x.result first n with
    | none => s
    | some es =>
      let src := s.collSrc p.2
      if y.op = 3 then
        match x.xsum with
        | none => s
        | some t =>
          let s := s.writeElems src y.d1 es
          let s := s.foldNorm src g (cdSTAT y.d3) (cdFMT y.d2) es ((lookup x.srcs p.1).getD []) t
          s.endMember k p.1 (if es.any (·.2) then .poisoned else .done) 0
      else
        (s.writeElems src y.d1 es).endMember k p.1 (if es.any (·.2) then .poisoned else .done) 0) s

/-- Whether this node has passed the root point of its instance: the whole result, and for a CNORM the last statistics, are
there (R256, R259). -/
def State.passedRoot (s : State) (k : Nat) (x : Inst) : Bool :=
  let all := if x.op = 1 ∨ x.op = 2 then s.grpNmem (k / 2 ^ 16) * x.count else x.count
  x.joined != [] && (x.result 0 all).isSome && (x.op != 3 || x.xsum.isSome)

/-- Result bits reach this package (R253): they are kept once (R260), passed to the children, and delivered. -/
def State.takeDown (s : State) (d : CSlot) : State :=
  let g := d.group.toNat
  let k := instKey g d.inst.toNat
  let x := s.inst k
  if x.cancelled || x.downs.any (fun q => q.ofs == d.ofs) then s
  else
    let y := { x with downs := x.downs ++ [d] }
    let s := s.setInst k { y with rooted := s.passedRoot k y }
    let s := s.toAll (s.kids g) (.down { d with src := s.pkgId })
    (s.deliverInst k).closeInst k

/-- The chunks this package's node contributes: its own members' combination, concatenation, or root source. -/
def State.ownChunks (s : State) (k : Nat) : List (Nat × List Elem) :=
  let g := k / 2 ^ 16
  let x := s.inst k
  let own := s.ownMembers g
  let cut (base : Nat) (es : List Elem) : List (Nat × List Elem) :=
    (chunksOf es.length).map fun (o, n) => (base + o, (es.drop o).take n)
  if x.op = 1 then x.srcs.flatMap fun p => cut (p.1 * x.count) p.2
  else if x.op = 2 then (match lookup x.srcs 0 with
    | some es => cut 0 es
    | none => [])
  else if own.all (fun m => (lookup x.srcs m).isSome) then
    let vs := own.filterMap fun m => lookup x.srcs m
    match vs with
    | [] => []
    | [v] => cut 0 v
    | _ => cut 0 (combineVec x.fmt x.cop vs)
  else []

/-- The output words of a node whose adders failed their residue check are poisoned, once (R315). -/
def State.hurtOut (s : State) (k : Nat) (v : List Elem) : List Elem × State :=
  let x := s.inst k
  if x.hurt then (v.map fun e => (e.1, true), s.setInst k { x with hurt := false }) else (v, s)

/-- Combines one chunk as far up the tree as this package's nodes reach (R254). -/
def State.raiseChunk (s : State) (k : Nat) (c : Nat × List Elem) : State :=
  let g := k / 2 ^ 16
  let x := s.inst k
  let ofs := BitVec.ofNat 48 c.1
  if x.passed.contains ofs then s
  else
    let get (src : Nat) : Option (List Elem) :=
      (x.ups.find? fun u => u.src.toNat == src && u.ofs == ofs).map fun u => (slotElems u).take c.2.length
    let slot (es : List Elem) : CSlot :=
      ⟨BitVec.ofNat 16 g, BitVec.ofNat 16 (k % 2 ^ 16), s.pkgId, ofs,
      BitVec.ofNat 16 (es.length - 1), packElems es⟩
    match s.climbOn g get (combineVec x.fmt x.cop) c.2 with
    | .wait => s
    | .send d v =>
      let (v, s) := (s.setInst k { x with passed := x.passed ++ [ofs] }).hurtOut k v
      s.toPkg (BitVec.ofNat 16 d) (.up (slot v))
    | .root v =>
      let (v, s) := (s.setInst k { x with passed := x.passed ++ [ofs] }).hurtOut k v
      s.takeDown (slot v)

/-- A gather's chunk goes up unchanged; at the root all of them go down once every member's has come (R254). -/
def State.raiseGather (s : State) (k : Nat) (cs : List (Nat × List Elem)) : State :=
  let g := k / 2 ^ 16
  let slot (c : Nat × List Elem) : CSlot :=
    ⟨BitVec.ofNat 16 g, BitVec.ofNat 16 (k % 2 ^ 16), s.pkgId, BitVec.ofNat 48 c.1,
      BitVec.ofNat 16 (c.2.length - 1), packElems c.2⟩
  match s.parent g with
  | some d =>
    let s := cs.foldl (fun s c =>
      let x := s.inst k
      if x.passed.contains (BitVec.ofNat 48 c.1) then s
      else (s.setInst k { x with passed := x.passed ++ [BitVec.ofNat 48 c.1] }).toPkg (BitVec.ofNat 16 d) (.up (slot c))) s
    (s.inst k).ups.foldl (fun s u =>
      let x := s.inst k
      if x.passed.contains u.ofs then s
      else (s.setInst k { x with passed := x.passed ++ [u.ofs] }).toPkg (BitVec.ofNat 16 d) (.up { u with src := s.pkgId })) s
  | none =>
    let x := s.inst k
    let have_ := (cs.map (·.2.length)).sum + (x.ups.map fun u => (slotElems u).length).sum
    if have_ < s.grpNmem g * x.count then s
    else
      let s := cs.foldl (fun s c => s.takeDown (slot c)) s
      x.ups.foldl (fun s u => s.takeDown u) s

/-- The statistics of this package's own members, once all have joined (R256). -/
def State.ownStat (s : State) (k : Nat) : Option (Nat × Bool × Bool) :=
  let x := s.inst k
  let own := s.ownMembers (k / 2 ^ 16)
  if own.all (fun m => (lookup x.srcs m).isSome) then
    some (x.srcs.foldl (fun (t, nf, o) p =>
      let (q, oq, n) := squares x.fmt p.2
      let (t, o) := normAdd t q (o || oq)
      (t, nf || decide (0 < n), o)) (0, false, false))
  else none

/-- XLOC sums climb the tree, added exactly at each node; the root's XSUM goes down (R256). -/
def State.raiseStat (s : State) (k : Nat) : State :=
  let g := k / 2 ^ 16
  let x := s.inst k
  match s.ownStat k with
  | none => s
  | some (t, nf, o) =>
    if x.statPassed then s
    else
      let mk (down : Bool) (v : Nat × Bool × Bool) : StatSlot :=
        ⟨down, BitVec.ofNat 16 g, BitVec.ofNat 16 (k % 2 ^ 16), s.pkgId, BitVec.ofNat 576 v.1, v.2.1, v.2.2⟩
      let get (src : Nat) : Option (Nat × Bool × Bool) :=
        (x.stats.find? fun u => u.src.toNat == src).map fun u => (u.sum.toNat, u.nonfin, u.ovf)
      let comb (vs : List (Nat × Bool × Bool)) : Nat × Bool × Bool :=
        vs.foldl (fun (t, nf, o) v =>
          let (t, o) := normAdd t v.1 (o || v.2.2)
          (t, nf || v.2.1, o)) (0, false, false)
      match s.climbOn g get comb (t, nf, o) with
      | .wait => s
      | .send d v => (s.setInst k { x with statPassed := true }).toPkg (BitVec.ofNat 16 d) (.stat (mk false v))
      | .root v =>
        let y := { x with statPassed := true, xsum := some (mk true v) }
        let s := s.setInst k { y with rooted := s.passedRoot k y }
        (s.toAll (s.kids g) (.stat (mk true v))).deliverInst k

/-- A chunk of the root's source goes down (R148). -/
def State.raiseScatter (s : State) (k : Nat) (c : Nat × List Elem) : State :=
  s.takeDown ⟨BitVec.ofNat 16 (k / 2 ^ 16), BitVec.ofNat 16 (k % 2 ^ 16), s.pkgId, BitVec.ofNat 48 c.1,
      BitVec.ofNat 16 (c.2.length - 1), packElems c.2⟩

/-- Whether the slots a node has from its children show another COUNT than its own members gave (R250): a chunk beyond the
vector, or of another length than the node's own at its place. -/
def Inst.countDiffers (x : Inst) (nmem : Nat) : Bool :=
  let total := if x.op = 1 then nmem * x.count else x.count
  x.op != 2 && x.ups.any fun u =>
    let n := (slotElems u).length
    decide (total < u.ofs.toNat + n) ||
      (x.op != 1 && (chunksOf x.count).any fun c => c.1 == u.ofs.toNat && c.2 != n)

/-- Everything an instance can do with what it has (R253, R254). A difference between members completes it for every one with
NUMERIC_FAULT, cause COMBINE (R250); no slot of R255 carries that to other packages (DEDUCED, log entry 99). -/
def State.raiseInst (s : State) (k : Nat) : State :=
  let x := s.inst k
  if x.joined = [] ∨ x.bad ∨ x.cancelled then s
  else if x.countDiffers (s.grpNmem (k / 2 ^ 16)) then
    ((s.setInst k { x with bad := true }).endAll k .numericFault causeCOMBINE).closeInst k
  else
    let cs := s.ownChunks k
    if x.op = 1 then s.raiseGather k cs
    else if x.op = 2 then (if (s.parent (k / 2 ^ 16)).isNone then cs.foldl (fun s c => s.raiseScatter k c) s else s)
    else
      let s := cs.foldl (fun s c => s.raiseChunk k c) s
      if x.op = 3 then s.raiseStat k else s

/-! ## Withdrawal (R258, R259) -/

/-- A withdrawal reaches this package's nodes from below, or starts here: the root cancels the instance while it has not
passed its root point, and says so to its children; any other node passes it up. -/
def State.withdrawUp (s : State) (k : Nat) : State :=
  let g := k / 2 ^ 16
  let x := s.inst k
  if x.rooted || x.cancelled || s.instOver g (k % 2 ^ 16) then s
  else match s.parent g with
    | some d => s.toPkg (BitVec.ofNat 16 d) (.withdraw g (k % 2 ^ 16))
    | none => ((s.cancelInst k).toAll (s.kids g) (.withdraw g (k % 2 ^ 16))).closeInst k

/-- A member withdraws with a code (R258, R259). -/
def State.withdrawMember (s : State) (key : Nat) (c : Code) (cause : Nat) : State :=
  let y := s.coll key
  if y.id = 0 then s
  else
    let k := instKey (cdGROUP y.d2) y.inst
    (s.endMember k y.member c cause).withdrawUp k

/-! ## Issue (R147 to R149, R402) -/

/-- The descriptor of a collective as read: none when it cannot be read whole (R402). -/
def State.readColl (s : State) (src : Src) (g : BitVec 64) : Option (BitVec 64 × BitVec 64 × BitVec 64 × BitVec 64) × State :=
  if s.own (pkgOf g) then
    let (ws, s) := s.readN src (pkgOf g) (g.toNat % 2 ^ 48) 8
    let w (j : Nat) : BitVec 64 := pair64 (ws.getD (2 * j) poisonWord) (ws.getD (2 * j + 1) poisonWord)
    (if ws.any (·.p) then none else some (w 0, w 1, w 2, w 3), s)
  else (none, s.addrErr 5 false src g)

/-- The checks of R402 on a descriptor that has been read: the member index, when it may join (DEDUCED, log entry 97). -/
def State.collCheck (s : State) (l op : Nat) (d2 d3 : BitVec 64) : Option Nat :=
  let g := cdGROUP d2
  let fmt := cdFMT d2
  if bits64 d2 11 0 = 0 ∧ bits64 d3 54 42 = 0 ∧ (op = 3 ∨ cdSTAT d3 = 0) ∧ (fmt ≤ 1 ∨ fmt = 8) ∧ cdOP d2 ≤ 2 ∧
      (op = 0 ∨ cdOP d2 = 0) ∧ s.grpValid g ∧ (fmt ≠ 8 ∨ s.grpLocal g) then
    (s.members g).findIdx? fun m => m.v == memWord (s.ownIn g) l
  else none

/-- A member joins its instance (R250): its source is read, a difference or a CNORM of saved images completes every
member with NUMERIC_FAULT, cause COMBINE, and a cancelled instance completes it with ABORTED. -/
def State.joinInst (s : State) (key : Nat) : State :=
  let y := s.coll key
  let g := cdGROUP y.d2
  let k := instKey g y.inst
  let x := s.inst k
  let fmt := cdFMT y.d2
  let count := cdCOUNT y.d2
  let differs := x.joined ≠ [] ∧ (x.op ≠ y.op ∨ x.fmt ≠ fmt ∨ x.cop ≠ cdOP y.d2 ∨ x.count ≠ count)
  let bad := x.bad || decide differs || (y.op == 3 && fmt == 8)
  let n := if y.op = 2 then (if y.member = 0 then s.grpNmem g * count else 0) else count
  let src := s.collSrc key
  let (es, ws, s) :=
    if fmt = 8 then
      let (ws, s) := s.readImages src y.d0 n
      (([] : List Elem), ws, s)
    else
      let (es, s) := s.readElems src y.d0 n
      (es, ([] : List MWord), s)
  let x := if x.joined = [] then { x with op := y.op, fmt := fmt, cop := cdOP y.d2, count := count } else x
  let s := s.setInst k { x with bad := bad, joined := x.joined ++ [(y.member, key)], srcs := upsert x.srcs y.member es,
                                imgs := upsert x.imgs y.member ws }
  if bad then (s.endAll k .numericFault causeCOMBINE).closeInst k
  else if x.cancelled then (s.cancelInst k).closeInst k
  else if s.grpLocal g then s
  else ((s.raiseInst k).deliverInst k).closeInst k

/-- Issue of a collective (R149, R402): with the collective engine disabled it is refused (R163); a third waits; one that
fails the checks completes at once with ABORTED, cause ILLEGAL, and joins nothing; else it takes a slot, its context goes
on, and it joins the next instance of its group. -/
def State.issueColl (s : State) (c : Cx) (w x : BitVec 64) (op : Nat) : State :=
  let e := c.pos.key
  let k := c.ctx.val
  s.atIssue e k w (legalColl w x) fun s y =>
    match s.slotOf e with
    | none => s
    | some l =>
      match (List.range 2).find? fun n => (s.coll (2 * l + n)).id == 0 with
      | none => s.setCtx (4 * e + k) (y.wait 5 0 s.now)
      | some n =>
        let src := s.engSrc e k (opc w) y.pc
        let s := { (s.setCtx (4 * e + k) (y.past w (s.nextTurn e))) with nextId := s.nextId + 1 }
        let cause := if s.fnOff 4 0 0 then causeABORT else causeILLEGAL
        let refuse (s : State) : State := s.modCtx (4 * e + k) fun z => z.complete .aborted {} cause y.pc 0
        if s.fnOff 4 0 0 then refuse s else
        match s.readColl src x with
        | (none, s) => refuse s
        | (some (d0, d1, d2, d3), s) =>
          let s := s.checkGrp (cdGROUP d2)
          match s.collCheck l op d2 d3 with
          | none => refuse s
          | some m =>
            let key := cdGROUP d2 * 2 ^ 16 + m
            let i := Sparse.get (fun _ => 0) s.issued key
            let s := { s with issued := Sparse.set (fun _ => 0) s.issued key (i + 1) }
            let z : Coll := { id := s.nextId - 1, ctx := k, pc := y.pc, op := op, d0 := d0, d1 := d1, d2 := d2, d3 := d3,
                              member := m, inst := i % 2 ^ 16, at_ := s.now }
            (s.setColl (2 * l + n) z).joinInst (2 * l + n)

/-- CRED (R148). -/
def execCred (c : Cx) (w : BitVec 56) (x : BitVec 64) (s : State) : Host.Outcome State Fault Refusal :=
  .next (s.issueColl c (mkWord 0xC0 w) x 0)
/-- CGATH (R148). -/
def execCgath (c : Cx) (w : BitVec 56) (x : BitVec 64) (s : State) : Host.Outcome State Fault Refusal :=
  .next (s.issueColl c (mkWord 0xC1 w) x 1)
/-- CSCAT (R148). -/
def execCscat (c : Cx) (w : BitVec 56) (x : BitVec 64) (s : State) : Host.Outcome State Fault Refusal :=
  .next (s.issueColl c (mkWord 0xC2 w) x 2)
/-- CNORM (R148). -/
def execCnorm (c : Cx) (w : BitVec 56) (x : BitVec 64) (s : State) : Host.Outcome State Fault Refusal :=
  .next (s.issueColl c (mkWord 0xC3 w) x 3)

/-! ## Slots that arrive (R253 to R256, R260) -/

/-- COLLECTIVE_UP_DATA (R252, R254): a child's data is kept once and combined; a slot from another package is stray. -/
def execCollectiveUpData (d : CSlot) (s : State) : Host.Outcome State Fault Refusal :=
  let g := d.group.toNat
  let k := instKey g d.inst.toNat
  let s := s.checkGrp g
  let x := s.inst k
  .next (if g ≥ 4096 || !s.grpValid g || !(s.kids g).contains d.src.toNat then s.stray
    else
      let s := s.took d.src (.up d)
      if x.cancelled || x.rooted || x.ups.any (fun u => u.src == d.src && u.ofs == d.ofs) || s.instOver g d.inst.toNat then s
      else (s.setInst k { x with ups := x.ups ++ [d] }).raiseInst k)

/-- COLLECTIVE_DOWN_DATA (R253, R257): result bits from above, passed on to the children and delivered. -/
def execCollectiveDownData (d : CSlot) (s : State) : Host.Outcome State Fault Refusal :=
  let g := d.group.toNat
  let s := s.checkGrp g
  .next (if g ≥ 4096 || !s.grpValid g || s.parent g != some d.src.toNat then s.stray
    else
      let s := s.took d.src (.down d)
      if s.instOver g d.inst.toNat then s else s.takeDown d)

/-- COLLECTIVE_WITHDRAW (R259): from a child it goes up, or cancels the instance at the root; from above it cancels the
instance here and goes down. -/
def execCollectiveWithdraw (g : BitVec 12) (i src : BitVec 16) (s : State) : Host.Outcome State Fault Refusal :=
  let k := instKey g.toNat i.toNat
  let s := s.checkGrp g.toNat
  .next (if s.grpValid g.toNat = false then s.stray
    else if (s.kids g.toNat).contains src.toNat then (s.took src (.withdraw g.toNat i.toNat)).withdrawUp k
    else if s.parent g.toNat = some src.toNat then
      let s := s.took src (.withdraw g.toNat i.toNat)
      let x := s.inst k
      if x.rooted || x.cancelled || s.instOver g.toNat i.toNat then s
      else ((s.cancelInst k).toAll (s.kids g.toNat) (.withdraw g.toNat i.toNat)).closeInst k
    else s.stray)

/-- COLLECTIVE_STATISTICS (R256): a child's XLOC sum is added exactly on its way up; XSUM comes down to every member. -/
def execCollectiveStatistics (d : StatSlot) (s : State) : Host.Outcome State Fault Refusal :=
  let g := d.group.toNat
  let k := instKey g d.inst.toNat
  let s := s.checkGrp g
  let x := s.inst k
  .next (if g ≥ 4096 || !s.grpValid g then s.stray
    else if d.down then
      (if s.parent g ≠ some d.src.toNat then s.stray
       else
        let s := s.took d.src (.stat d)
        let y := { x with xsum := some d }
        if x.cancelled || x.xsum.isSome || s.instOver g d.inst.toNat then s
        else (((s.setInst k { y with rooted := s.passedRoot k y }).toAll (s.kids g)
          (.stat { d with src := s.pkgId })).deliverInst k).closeInst k)
    else if (s.kids g).contains d.src.toNat = false then s.stray
    else
      let s := s.took d.src (.stat d)
      if x.cancelled || x.stats.any (fun u => u.src == d.src) || s.instOver g d.inst.toNat then s
      else (s.setInst k { x with stats := x.stats ++ [d] }).raiseInst k)

/-- COLLECTIVE_TIMEOUT (R258): CLV_CFG.TLIM after its issue, an instance that is not complete for a member completes for
it with TIMEOUT, and the member withdraws. -/
def execCollectiveTimeout (p : LPos) (n : Fin 2) (s : State) : Host.Outcome State Fault Refusal :=
  let key := 2 * p.key + n.val
  .next (if s.fget F.CLV_CFG_TLIM = 0 ∨ (s.now - (s.coll key).at_).toNat < s.fget F.CLV_CFG_TLIM * 1000000 then s
    else s.withdrawMember key .timeout 0)

/-! ## LOCAL groups (R148, R254) -/

/-- A maximum or minimum of two long-form elements: the whole element of the larger or smaller value, a NaN before either,
with POISON and INEXACT of both. R254 gives its table no row for saved images (DESIGN CHOICE, log entry 120). -/
def El.pick (min_ : Bool) (x y : El) : El :=
  let v := if min_ then x.value.minOf y.value else x.value.maxOf y.value
  let z := if v = x.value then x else y
  { z with inx := x.inx || y.inx, poison := x.poison || y.poison }

/-- One tile of a long-form combination: headers and elements of the members' images in member order (R82, R254), summed, or
for OP 1 and 2 their maximum or minimum. Headers are taken as delivered; none when two do not combine. -/
def combineTile (cop : Nat) (ts : List (List MWord)) : Option (List MWord) :=
  let tile (ws : List MWord) : Hd × List El × Bool :=
    let (h, hp) := quad ws 1024
    (Hd.unpack h, (List.range 1024).map (fun i => (loadEl (quad ws i).1 (quad ws i).2).1), hp)
  let join (h : Hd) (x y : El) : El := if cop = 0 then El.combine h x y else El.pick (cop == 2) x y
  match ts.map tile with
  | [] => none
  | t :: rest =>
    let go := rest.foldl (fun (o : Option (Hd × List El × Bool)) u => match o with
      | none => none
      | some (h, xs, p) =>
        if h.combines u.1 then
          let h' := h.combine u.1
          some (h', (xs.zip u.2.1).map (fun q => join h' q.1 q.2), p || u.2.2)
        else none) (some t)
    match go with
    | none => none
    | some (h, xs, p) =>
      let word4 (b : BitVec 128) : List MWord := (List.range 4).map fun j => ⟨b.extractLsb' (32 * j) 32, false⟩
      some ((xs.flatMap fun x => word4 { x with poison := x.poison || p }.pack) ++ word4 h.pack ++
        List.replicate 12 ⟨0, false⟩)

/-- A moved image whose words arrived poisoned carries POISON inside instead (R110, R254). -/
def cleanImage (ws : List MWord) : List MWord :=
  let hp := (quad ws 1024).2
  (List.range 4112).map fun i =>
    let p := decide (i < 4096) && decide (i % 4 = 3) && (hp || (quad ws (i / 4)).2)
    let v := (ws.getD i poisonWord).v
    ⟨if p then v ||| 0x02000000 else v, false⟩

/-- Image `t` of a member's source. -/
def Inst.image (x : Inst) (m t : Nat) : List MWord := (((lookup x.imgs m).getD []).drop (t * 4112)).take 4112

/-- The images one member receives, each with the sources it comes from: the tile sums, the concatenation or its slice
(R148, R254) (DEDUCED, log entry 98). -/
def imageResult (x : Inst) (nmem m : Nat) : Option (List MWord) :=
  if x.op = 1 then
    some ((List.range nmem).flatMap fun i => (List.range x.count).flatMap fun t => cleanImage (x.image i t))
  else if x.op = 2 then some ((List.range x.count).flatMap fun t => cleanImage (x.image 0 (m * x.count + t)))
  else
    let tiles := (List.range x.count).map fun t => combineTile x.cop ((List.range nmem).map fun i => x.image i t)
    if tiles.any (·.isNone) then none else some (tiles.filterMap id).flatten

/-- Whether any word of the images a member receives arrived poisoned. -/
def imagePoison (x : Inst) (nmem m : Nat) : Bool :=
  if x.op = 2 then (List.range x.count).any fun t => (x.image 0 (m * x.count + t)).any (·.p)
  else (List.range nmem).any fun i => ((lookup x.imgs i).getD []).any (·.p)

/-- LOCAL_COLLECTIVE_DONE (R148, R253, R254): once every member of a LOCAL group has joined, the instance is combined at
level 0, each member's DST and STAT are written and each completes. -/
def execLocalCollectiveDone (g : BitVec 12) (i : BitVec 16) (s : State) : Host.Outcome State Fault Refusal :=
  let k := instKey g.toNat i.toNat
  let x := s.inst k
  let nmem := s.grpNmem g.toNat
  .next (if s.grpLocal g.toNat = false ∨ x.bad ∨ x.cancelled ∨ x.joined.length < nmem then s
    else if x.fmt = 8 then
      let s := s.setInst k { x with rooted := true }
      if (imageResult x nmem 0).isNone then (s.endAll k .numericFault causeCOMBINE).closeInst k
      else
        (x.active.foldl (fun s p =>
          let hurt := x.hurt && x.op != 1 && x.op != 2
          let ws := (imageResult x nmem p.1).getD []
          let ws := if hurt then ws.mapIdx (fun i w =>
            if i % 4112 < 4096 ∧ i % 4 = 3 then { w with v := w.v ||| 0x02000000 } else w) else ws
          let y := s.coll p.2
          (s.writeImages (s.collSrc p.2) y.d1 ws).endMember k p.1
            (if imagePoison x nmem p.1 || hurt then .poisoned else .done) 0) s).closeInst k
    else s.raiseInst k)

end Sys2Proof.Machine
end

