-- ==== Sys2Proof/Machine/Barrier.lean ====
section
/-! DEFINITION. Barriers and start waves (R141, R267 to R274): arrival, release instants, waves, the job barrier's slots
on the tree, withdrawal, pace notices and pace-follow. -/
namespace Sys2Proof.Machine

/-- The group of job barriers. -/
def State.jobGrp (s : State) : Nat := s.fget F.CLV_CFG_JOBGRP

/-- The package's pace notice: the cause of its throttle and the step in force (R272). -/
def State.notice (s : State) : BitVec 4 × BitVec 4 :=
  (BitVec.ofNat 4 (s.fget F.DIA_STATUS_CAUSE), BitVec.ofNat 4 (s.fget F.DIA_PACE_STEP))

/-- Replaces the first entry that satisfies a predicate. -/
def modFirst {α : Type} (p : α → Bool) (f : α → α) : List α → List α
  | [] => []
  | x :: xs => if p x then f x :: xs else x :: modFirst p f xs

/-- Whether an entry is a barrier of this id that has not fixed its release. -/
def pendingBar (id : BarId) (b : BarId × Bar) : Bool := decide (b.1 = id) && b.2.rel.isNone

/-- Whether an entry is one that may still take local arrivals. -/
def openBar (id : BarId) (b : BarId × Bar) : Bool := pendingBar id b && b.2.own.isNone

/-- The first entry of an id that satisfies a predicate. -/
def State.bar? (s : State) (p : BarId × Bar → Bool) : Option Bar := (s.bars.find? p).map (·.2)

def State.modBar (s : State) (p : BarId × Bar → Bool) (f : Bar → Bar) : State :=
  { s with bars := modFirst p (fun b => (b.1, f b.2)) s.bars }

/-- Removes entries with no arrival of any kind left (R141). -/
def State.closeBars (s : State) : State :=
  { s with bars := s.bars.filter fun b => b.2.arr ≠ [] || b.2.kids ≠ [] || b.2.own.isSome }

/-- Resumes waiting contexts of a barrier (R141, R269). -/
def State.resumeAll (s : State) (cs : List (Nat × Nat)) : State :=
  cs.foldl (fun s c => match s.engineOf c.1 with
    | none => s
    | some e => s.endWait e c.2 Ctx.resume) s

/-! ## The job barrier (R267, R273, R274) -/

/-- The latest of the arrivals beneath a node; on equal times the lower package id (R267). -/
def latest (a b : BarSlot) : BarSlot :=
  if a.time.toNat < b.time.toNat then b
  else if b.time.toNat < a.time.toNat then a
  else if b.pkg.toNat < a.pkg.toNat then b else a

def latestOf : List BarSlot → BarSlot
  | [] => ⟨0, 0, 0, 0, 0, 0⟩
  | b :: bs => bs.foldl latest b

/-- Records the notice of a release (R273), and takes it as a follow ceiling with FOLLOW set; the step in force follows (R274,
R284). -/
def State.takeNotice (s : State) (b : BarSlot) : State :=
  let s := s.setReg Reg.CLV_PEER_PACE (1#1 ++ 0#3 ++ b.cause ++ b.step ++ 0#4 ++ b.pkg)
  if s.flag F.CLV_PACE_CFG_FOLLOW = false then s
  else if 1 ≤ b.cause.toNat ∧ b.cause.toNat ≤ 4 then
    ((s.fset F.CLV_PACE_CFG_CEIL (min b.step.toNat (s.fget F.CLV_PACE_CFG_FLOOR))).setFlag F.CLV_PACE_CFG_HELD true).rePace
  else if b.cause = 0 ∨ b.cause = 5 then ((s.fset F.CLV_PACE_CFG_CEIL 0).setFlag F.CLV_PACE_CFG_HELD false).rePace
  else s

/-- The release of a job barrier at this package (R268): at T, or on receipt when T has passed or the package is not
ALIGNED. -/
def State.fixRelease (s : State) (id : BarId) (t : BitVec 64) : State :=
  let late := decide (t.toNat < s.now.toNat) || !s.flag F.CLV_TB_STATUS_ALIGNED
  let s := if late then s.fsat F.CLV_LATE_REL_VALUE 1 else s
  s.modBar (pendingBar id) fun b => { b with rel := some (if late then s.now else t) }

/-- The root fixes T, records the notice and the spread of its children's times, and sends the release (R267, R273). -/
def State.releaseJob (s : State) (bid : BitVec 8) (top : List BarSlot) (v : BarSlot) : State :=
  let t := s.now + BitVec.ofNat 64 (1000 * s.fget F.CLV_BAR_CFG_LEAD_JOB)
  let times := top.map fun b => b.time.toNat
  let spread := min 0xFFFFFFFF (times.foldl max 0 - times.foldl min (times.headD 0))
  let s := s.setReg Reg.CLV_BAR_LAST (1#1 ++ 0#3 ++ v.cause ++ v.step ++ 0#4 ++ v.pkg)
  let s := s.setReg Reg.CLV_BAR_SPREAD (BitVec.ofNat 32 spread)
  let s := s.takeNotice v
  let s := s.toAll (s.kids s.jobGrp) (.bar 1 { v with time := t })
  let s := if t.toNat < s.now.toNat ∨ s.flag F.CLV_TB_STATUS_ALIGNED = false then s.fixRelease (.job bid) t
    else s.modBar (pendingBar (.job bid)) fun b => { b with rel := some t }
  s

/-- The arrivals of the root's children: those its last combination takes. -/
def State.topKids (s : State) (g : Nat) (get : Nat → Option BarSlot) (own : BarSlot) : List BarSlot :=
  let me := s.pkgId.toNat
  let rec go : List Node → List (List Node) → BarSlot → List BarSlot → List BarSlot
    | _, [], _, last => last
    | prev, ns :: up, v, last =>
      match ns.find? fun n => n.contains me with
      | none => last
      | some n =>
        let vs := (prev.filter fun k => n.contains (Node.host k)).filterMap fun k =>
          if Node.host k = me then some v else get (Node.host k)
        if vs.length ≤ 1 then go ns up v last else go ns up (latestOf vs) vs
  match s.tree g with
  | [] => [own]
  | l0 :: up => go l0 up own [own]

/-- A job barrier's node forwards, or the root releases, once every child and the package itself have arrived (R267). -/
def State.raiseBar (s : State) (bid : BitVec 8) : State :=
  match s.bar? (pendingBar (.job bid)) with
  | none => s
  | some b => match b.own with
    | none => s
    | some own =>
      if b.up then s
      else
        let get (src : Nat) : Option BarSlot := lookup b.kids (BitVec.ofNat 16 src)
        match s.climbOn s.jobGrp get latestOf own with
        | .wait => s
        | .send d v =>
          (s.modBar (pendingBar (.job bid)) fun b => { b with up := true }).toPkg (BitVec.ofNat 16 d) (.bar 0 v)
        | .root v => s.releaseJob bid (s.topKids s.jobGrp get own) v

/-! ## Arrival (R141) -/

/-- The scope instance an engine's BAR names. -/
def barIdOf (scope bid : Nat) (c : Cx) : BarId :=
  let b := BitVec.ofNat 8 bid
  if scope = 0 then .cluster ⟨c.pos.die, c.pos.cl⟩ b else if scope = 1 then .die c.pos.die b
  else if scope = 2 then .package b else .job b

/-- What happens when a barrier's arrivals reach COUNT (R141, R267, R268). -/
def State.fillBar (s : State) (id : BarId) : State :=
  match s.bar? (openBar id) with
  | none => s
  | some b =>
    if b.count = 0 ∨ b.arr.length < b.count then s
    else match id with
      | .cluster _ _ => ((s.resumeAll b.arr).modBar (openBar id) fun _ => {}).closeBars
      | .job bid =>
        let (cause, step) := s.notice
        let own : BarSlot := ⟨BitVec.ofNat 16 s.jobGrp, bid, cause, step, s.pkgId, s.now⟩
        (s.modBar (openBar id) fun b => { b with own := some own }).raiseBar bid
      | _ => s.modBar (openBar id) fun b =>
          { b with rel := some (s.now + BitVec.ofNat 64 (s.fget F.CLV_BAR_CFG_LEAD_LOCAL)) }

/-- BAR (R141): the context waits at the barrier, which opens at its first arrival with that arrival's COUNT; a different
COUNT stops the task with ABORTED, cause ILLEGAL. -/
def execBar (c : Cx) (w : BitVec 56) (s : State) : Host.Outcome State Fault Refusal :=
  let w := mkWord 0xA2 w
  let e := c.pos.key
  let k := c.ctx.val
  .next (s.atIssue e k w (legalBAR w) fun s x =>
    match s.slotOf e with
    | none => s
    | some l =>
      let id := barIdOf (brrSCOPE w) (brrBID w) c
      let n := brrCOUNT w
      let wait (s : State) : State := s.setCtx (4 * e + k) ((x.past w (s.nextTurn e)).wait 2 (brrBID w) s.now)
      match s.bar? (openBar id) with
      | none =>
        let b : Bar := { count := n, arr := [(l, k)] }
        (wait { s with bars := s.bars ++ [(id, b)] }).fillBar id
      | some b =>
        if b.count ≠ 0 ∧ b.count ≠ n then s.illegal e k
        else (wait (s.modBar (openBar id) fun b => { b with count := n, arr := b.arr ++ [(l, k)] })).fillBar id)

/-- A waiting context leaves its barrier (R162, R270): before the release is fixed its arrival is subtracted, and an
arrival that had left the package is withdrawn; after it the release stands for the rest. -/
def State.leaveBars (s : State) (l k : Nat) : State :=
  let mine (b : BarId × Bar) : Bool := b.2.arr.contains (l, k)
  match s.bars.find? mine with
  | none => s
  | some (id, b) =>
    let arr := b.arr.filter (· ≠ (l, k))
    if b.rel.isSome then (s.modBar mine fun (b : Bar) =>
      { b with arr := arr, own := if arr = [] then none else b.own, kids := if arr = [] then [] else b.kids }).closeBars
    else
      let s' := (s.modBar mine fun b =>
        { b with arr := arr, count := if arr = [] then 0 else b.count, own := none, up := false,
                 pulled := b.pulled || b.up }).closeBars
      match id, b.up, s.parent s.jobGrp with
      | .job bid, true, some d =>
        s'.toPkg (BitVec.ofNat 16 d) (.bar 2 ⟨BitVec.ofNat 16 s.jobGrp, bid, 0, 0, s.pkgId, 0⟩)
      | _, _, _ => s'

/-! ## Slots and instants -/

/-- BARRIER_ARRIVAL_SLOT (R267): a child's arrival is kept once and forwarded with the others. -/
def execBarrierArrivalSlot (src : BitVec 16) (b : BarSlot) (s : State) : Host.Outcome State Fault Refusal :=
  let id : BarId := .job b.bid
  .next (if b.group.toNat ≠ s.jobGrp ∨ (s.kids s.jobGrp).contains src.toNat = false then s.stray
    else
      let s := s.took src (.bar 0 b)
      let s := match s.bar? (pendingBar id) with
        | none => { s with bars := s.bars ++ [(id, ({ kids := [(src, b)] } : Bar))] }
        | some x => if (lookup x.kids src).isSome then s
            else s.modBar (pendingBar id) fun x => { x with kids := x.kids ++ [(src, b)] }
      s.raiseBar b.bid)

/-- BARRIER_RELEASE_SLOT (R268, R270, R273, R274): the release goes on down the tree, its notice is recorded and followed, and
the package releases at T by its own timebase, an arrival withdrawn after it had left included. A release for which no arrival
of this package stands is a copy and is discarded. -/
def execBarrierReleaseSlot (b : BarSlot) (s : State) : Host.Outcome State Fault Refusal :=
  let id : BarId := .job b.bid
  .next (if b.group.toNat ≠ s.jobGrp then s.stray
    else
      let s := match s.parent s.jobGrp with
        | some d => s.took (BitVec.ofNat 16 d) (.bar 1 b)
        | none => s
      match s.bar? (pendingBar id) with
      | none => s
      | some x =>
        if x.own.isNone ∧ x.pulled = false then s
        else
          let s := ((s.toAll (s.kids s.jobGrp) (.bar 1 b)).takeNotice b).fixRelease id b.time
          { s with bars := s.bars.filter fun y => !(decide (y.1 = id) && y.2.rel.isSome && y.2.arr == []) })

/-- BARRIER_WITHDRAW_SLOT (R270): before T is fixed a child's arrival is removed, and taken back further up if it had been
forwarded. -/
def execBarrierWithdrawSlot (src : BitVec 16) (b : BarSlot) (s : State) : Host.Outcome State Fault Refusal :=
  let id : BarId := .job b.bid
  .next (if b.group.toNat ≠ s.jobGrp ∨ (s.kids s.jobGrp).contains src.toNat = false then s.stray
    else
      let s := s.took src (.bar 2 b)
      match s.bar? (pendingBar id) with
      | none => s
      | some x =>
        let s' := (s.modBar (pendingBar id) fun x => { x with kids := without x.kids src, up := false,
                                                              pulled := x.pulled || x.up }).closeBars
        match x.up, s.parent s.jobGrp with
        | true, some d => s'.toPkg (BitVec.ofNat 16 d) (.bar 2 { b with pkg := s.pkgId })
        | _, _ => s')

/-- RELEASE_INSTANT (R268): the timebase has reached T. -/
def execReleaseInstant (id : BarId) (s : State) : Host.Outcome State Fault Refusal :=
  let due (b : BarId × Bar) : Bool := decide (b.1 = id) && !b.2.released && (match b.2.rel with
    | some t => decide (t.toNat ≤ s.now.toNat)
    | none => false)
  .next (s.modBar due fun b => { b with released := true })

/-- The wave of a logical slot (R269). -/
def State.waveOf (s : State) (l : Nat) : Nat := l % 16 / max 1 (s.fget F.CLV_WAVE_SLOTS)

/-- START_WAVE (R269): the contexts whose wave has come, T + w × PERIOD, resume; the barrier closes with its last. -/
def execStartWave (id : BarId) (w : Fin 16) (s : State) : Host.Outcome State Fault Refusal :=
  let due (b : BarId × Bar) : Bool := decide (b.1 = id) && b.2.released && (match b.2.rel with
    | some t => decide (t.toNat + w.val * s.fget F.CLV_WAVE_PERIOD ≤ s.now.toNat)
    | none => false) && b.2.arr.any (fun c => s.waveOf c.1 == w.val)
  .next (match s.bar? due with
    | none => s
    | some b =>
      let go := b.arr.filter fun c => s.waveOf c.1 == w.val
      let rest := b.arr.filter fun c => s.waveOf c.1 != w.val
      let s := s.resumeAll go
      if rest = [] then { s with bars := s.bars.eraseP due } else s.modBar due fun b => { b with arr := rest })

end Sys2Proof.Machine
end

