-- ==== Sys2Proof/Machine/Waipol.lean ====
section
/-! DEFINITION. The Waipol link layer as received (R228 to R238): training, flits, acknowledgements, credits and retry,
the service of remote requests, responses, retrains and lane retirement. -/
namespace Sys2Proof.Machine

/-! ## Port states (R229, R236, R249) -/

/-- The highest generation WPL_CFG permits. -/
def State.genMax (s : State) (p : Nat) : Nat := if s.fget (F.WPL_CFG_GEN_MAX p) ≥ 2 then 2 else 1

/-- The retired lanes of a port. -/
def State.lret (s : State) (p : Nat) : Nat := s.fget (F.WPL_STATUS_LRET p)

/-- The WIDTH and PAIR a port trains at (R237): four lanes with none retired, else the lower good pair; none with both
pairs hit. -/
def widthOf (lret : Nat) : Option (Nat × Nat) :=
  if lret = 0 then some (2, 0) else if lret % 4 = 0 then some (1, 0) else if lret / 4 = 0 then some (1, 1) else none

/-- The link layer of a port that starts again from DOWN: sequence state, credits and keys are new; what Inscription or
discovery keeps stays. -/
def Port.fresh (x : Port) : Port :=
  { charged := x.charged, lastHello := x.lastHello, hseq := x.hseq, peerSer := x.peerSer, clrLanes := x.clrLanes,
    authAt := x.authAt, modFault := x.modFault }

/-- Takes a port out of service into DOWN (0) or RETIRED (6): nothing of its link state survives. -/
def State.portDown (s : State) (p st : Nat) : State :=
  let s := s.leaveActive p st
  let l := s.lret p
  let s := (s.setReg (Reg.WPL_STATUS p) 0).fset (F.WPL_STATUS_LRET p) l
  (s.modPort p Port.fresh).setPortState p st

/-- A port begins to train (R229): at Gen1 first, with the ENC setting it has now. -/
def State.beginTraining (s : State) (p : Nat) : State :=
  let on := s.flag (F.WPL_CFG_ENC p)
  (s.setPortState p 1).modPort p fun x => { x.fresh with enc := on }

/-- Applies a written LANE_CLR (R237) and the width that the retired lanes leave; a port with both pairs hit is
RETIRED. -/
def State.settleLanes (s : State) (p : Nat) : State :=
  let s := if (s.port p).clrLanes then
      (s.fset (F.WPL_STATUS_LRET p) 0).modPort p fun x => { x with clrLanes := false } else s
  match widthOf (s.lret p) with
  | some (w, pr) => (s.fset (F.WPL_STATUS_WIDTH p) w).fset (F.WPL_STATUS_PAIR p) pr
  | none => s.portDown p 6

/-- The serial a hello carries as its own (R239). -/
def State.serial (_s : State) : BitVec 64 := Config.serial

/-- The digest of the running Armature image. -/
def State.armDigest (s : State) : BitVec 384 := (s.sec.arm.getD (s.fget F.SEC_BOOT_ARM_SLOT) {}).digest

/-- Whether the discovery policy is adopt (R242). -/
def State.adopt (s : State) : Bool :=
  if s.flag F.WPL_DISC_CFG_OVR then s.flag F.WPL_DISC_CFG_POLICY else s.flag F.WPL_STRAP_POLICY

/-- The fence id of the job. -/
def State.fenceId (s : State) : BitVec 64 := s.reg64 Reg.WPL_FENCE_LO Reg.WPL_FENCE_HI

/-- The hello a port sends now (R239). HSEQ counts this hello. -/
def State.ownHello (s : State) (p : Nat) : Hello :=
  let b (c : Bool) (v : BitVec 8) : BitVec 8 := if c then v else 0
  { kind := 0, id := BitVec.ofNat 16 (s.fget F.WPL_STRAP_ID), port := BitVec.ofNat 8 p,
    gen := BitVec.ofNat 8 (0x20 + s.fget (F.WPL_STATUS_GEN p)), rev := BitVec.ofNat 8 (s.fget F.WPL_REV_REV),
    flags := b (s.flag F.PLN_PKG_ID_VALID) 1 ||| b (s.fget (F.WPL_STATUS_STATE p) == 5) 2 |||
      b (s.port p).enc 4 ||| b s.adopt 8,
    serial := s.serial, peer := (s.port p).peerSer, fw := Config.fwWord s.armDigest, fence := s.fenceId,
    hseq := BitVec.ofNat 32 ((s.port p).hseq + 1) }

/-- Whether a port has a trained link: DISCOVERY, ACTIVE, FENCED or QUARANTINED. -/
def State.linked (s : State) (p : Nat) : Bool :=
  let st := s.fget (F.WPL_STATUS_STATE p)
  decide (2 ≤ st) && decide (st ≤ 5)

/-- Sends a hello, in every state except DOWN (R240). -/
def State.sendHello (s : State) (p : Nat) : State :=
  if s.fget (F.WPL_STATUS_STATE p) = 0 then s
  else
    let h := s.ownHello p
    (s.modPort p fun x => { x with hseq := (x.hseq + 1) % 2 ^ 32 }).post p (.hello h)

/-- A port enters DISCOVERY and sends a hello (R240). `heard` says whether it does so at a hello it has received, which stands
(R242, R245). -/
def State.enterDiscovery (s : State) (p : Nat) (heard : Bool) : State :=
  let now := s.now
  let s := (s.leaveActive p 2).fset (F.WPL_STATUS_CAUSE p) 0
  let s := s.modPort p fun x => { x with entered := now, heard := heard, swap := none, afresh := false }
  (s.fset (F.WPL_STATUS_ROLE p) p).sendHello p

/-- PORT_TRAINING_DONE (R229, R237): the port's generation is Gen2 once its peer has said it supports it and GEN_MAX
permits, else Gen1; its lanes are those not retired. It exchanges capabilities and enters DISCOVERY. An end of training
at a generation or width the rules do not give does not occur. -/
def execPortTrainingDone (p : Fin 12) (gen width : BitVec 2) (pair : Bool) (s : State) :
    Host.Outcome State Fault Refusal :=
  let p := p.val
  .next (if s.fget (F.WPL_STATUS_STATE p) ≠ 1 then s
    else
      let s' := s.settleLanes p
      let g := if (s'.port p).peerGen ≥ 2 ∧ s'.genMax p ≥ 2 then 2 else 1
      if s'.fget (F.WPL_STATUS_STATE p) ≠ 1 then s'
      else if gen.toNat = g ∧ width.toNat = s'.fget (F.WPL_STATUS_WIDTH p) ∧ pair = s'.flag (F.WPL_STATUS_PAIR p) then
        ((s'.fset (F.WPL_STATUS_GEN p) g).enterDiscovery p false).post p (.management (s'.genMax p))
      else s)

/-- LINK_MANAGEMENT (R229): the peer's highest generation is taken; a port at Gen1 whose two ends support Gen2 trains
again to move there. -/
def execLinkManagement (p : Fin 12) (peerGen : BitVec 2) (s : State) : Host.Outcome State Fault Refusal :=
  let p := p.val
  .next (if s.linked p = false then s
    else
      let s := (s.takeFlits p 6 1).modPort p fun x => { x with peerGen := peerGen.toNat }
      if s.fget (F.WPL_STATUS_GEN p) = 1 ∧ 2 ≤ peerGen.toNat ∧ s.genMax p = 2 then
        let s := s.leaveActive p 1
        s.beginTraining p |>.modPort p fun x => { x with peerGen := peerGen.toNat }
      else s)

/-! ## Flits as received (R231 to R235) -/

/-- The credits of a virtual channel's whole receive buffer (R234). -/
def vcDepth (v : Nat) : Nat := [96, 96, 64, 64, 8, 8, 8, 8].getD v 0

/-- A retrain of the port begins: traffic waits (R236). -/
def State.startRetrain (s : State) (p : Nat) : State :=
  if (s.port p).training then s
  else (s.modPort p fun x => { x with training := true }).fsat (F.WPL_LANE_RETRAINS p) 1

/-- The sender replays from ACK + 1 (R235); at the eighth replay without an advance of ACK the port retrains (R236). The lane
that retrain is charged to comes with RETRAIN_TRIGGER (DEDUCED, log entry 60). -/
def State.replayed (s : State) (p : Nat) : State :=
  let s := (s.modPort p fun x => { x with stuck := x.stuck + 1 }).fsat (F.WPL_ERR_REPLAY p) 1
  if 8 ≤ (s.port p).stuck then s.startRetrain p else s

/-- The acknowledgement, NAK and credits of a header (R231, R235): an acknowledged flit leaves the retry buffer with every
flit before it, and a NAK replays from ACK + 1. -/
def State.takeHeader (s : State) (p : Nat) (h : BitVec 64) : State :=
  let ack := bits64 h 47 38
  let cvc := bits64 h 35 33
  let cred := bits64 h 32 27
  let x := s.port p
  let x := { x with credits := x.credits.set cvc (min (vcDepth cvc) (x.credits.getD cvc 0 + cred)) }
  let x := if bits64 h 37 37 = 1 ∧ x.retry.any (fun e => e.1 == ack) then
      { x with retry := (x.retry.dropWhile fun e => e.1 != ack).drop 1, stuck := 0 } else x
  let s := s.setPort p x
  (if bits64 h 36 36 = 1 then s.replayed p else s).pump p

/-- A flit not taken (R235): a NAK with the last good SEQ goes back, once, and flits are discarded until the replayed one. -/
def State.dropFlit (s : State) (p : Nat) : State :=
  if (s.port p).discard then s
  else (s.modPort p fun x => { x with discard := true }).sendIdle p true 0 0

/-- A control flit with one slot of a virtual channel, and its data flits, arrive in order (DESIGN CHOICE, log entry 20). -/
def State.takeSlot (s : State) (p : Nat) (m : Msg) : State :=
  s.takeFlits p m.vc (m.flits ((s.port p).enc && decide (m.vc < 6)))

/-! ## Remote requests served here (R23, R25, R233, R346) -/

/-- The words of one 64-byte unit read for a remote requester, with its status. -/
def State.serveUnit (s : State) (p : Nat) (a : BitVec 64) : (Nat × List MWord) × State :=
  let x := a.toNat % 2 ^ 48
  let bad := List.replicate 16 poisonWord
  if 0x30000000000 ≤ x then ((1, bad), s.addrErr 4 false (.port p) a)
  else
    let st := match s.locate x with
      | .err _ | .regs _ => 1
      | l => if s.hole l then 2 else 0
    let (ws, s) := s.readN (.port p) (pkgOf a) x 16
    ((st, ws), s)

/-- The units of a remote read: the status is the first that is not good. -/
def State.serveUnits (s : State) (p : Nat) (a : BitVec 64) : Nat → Nat × List MWord × State
  | 0 => (0, [], s)
  | n + 1 =>
    let ((st, ws), s) := s.serveUnit p a
    let (st', ws', s) := s.serveUnits p (a + 64) n
    (if st = 0 then st' else st, ws ++ ws', s)

/-- A remote read: every word of a refused one is marked poison (R233). -/
def State.serveRead (s : State) (p : Nat) (a : BitVec 64) (n : Nat) : Nat × List MWord × State :=
  let (st, ws, s) := s.serveUnits p a n
  (st, if st = 0 then ws else ws.map fun w => { w with p := true }, s)

/-- The units of a remote write. -/
def State.serveWrite (s : State) (p : Nat) (a : BitVec 64) (d : List MWord) : Nat → Nat × State
  | 0 => (0, s)
  | n + 1 =>
    let x := a.toNat % 2 ^ 48
    let (st, s) :=
      if 0x30000000000 ≤ x then (1, s.addrErr 4 true (.port p) a)
      else
        let st := match s.locate x with
          | .err _ | .regs _ => 1
          | l => if s.hole l then 2 else 0
        (st, s.writeN (.port p) (pkgOf a) x (d.take 16))
    let (st', s) := s.serveWrite p (a + 64) (d.drop 16) n
    (if st = 0 then st' else st, s)

/-- Whether a request to a package address waits: for memory, or for an edge of its path that retrains (R18, R306, R343). -/
def State.inWaits (s : State) (a : Nat) : Bool :=
  s.memWaits a || (match s.pathIn none a with
    | some es => es.any s.modWait.contains
    | none => false)

/-- Whether this package serves a request: it is in service (R346) and the address names it. -/
def State.serves (s : State) (r : ReqSlot) : Bool := !s.flag F.TST_STATUS_OOS && s.own (pkgOf r.addr)

/-- The response slot to a request (R233). -/
def answer (r : ReqSlot) (own : BitVec 16) (st : Nat) : ReqSlot := ⟨BitVec.ofNat 8 st, r.len, own, r.tag, 0⟩

/-- READ_REQUEST (R23, R25, R233, R346): the target reads and answers with its data, every word of a refused read marked
poison. -/
def execReadRequest (p : Fin 12) (r : ReqSlot) (s : State) : Host.Outcome State Fault Refusal :=
  let p := p.val
  let n := r.len.toNat % 64 + 1
  .next (if s.carries p 0 = false ∨ s.inWaits (r.addr.toNat % 2 ^ 48) then s
    else
      let s := s.takeSlot p (.req false r [])
      if s.serves r then
        let (st, ws, s) := s.serveRead p r.addr n
        s.post p (.rsp false (answer r s.pkgId st) ws)
      else s.post p (.rsp false (answer r s.pkgId 1) (List.replicate (16 * n) poisonWord)))

/-- A write request with all its data (R233). -/
def State.doWrite (s : State) (p : Nat) (r : ReqSlot) (d : List MWord) : State :=
  if s.serves r then
    let (st, s) := s.serveWrite p r.addr d (r.len.toNat % 64 + 1)
    s.post p (.rsp true (answer r s.pkgId st) [])
  else s.post p (.rsp true (answer r s.pkgId 1) [])

/-- Whether a write request whose data is still arriving at a port waits for memory (R306, R343). -/
def State.writeWaits (s : State) (p : Nat) : Bool :=
  (s.port p).part.any fun q => q.1 == 0 && s.inWaits (q.2.1.addr.toNat % 2 ^ 48)

/-! ## Responses to this package's transactions (R233, R247) -/

/-- The units of a response reach the transfer slot that asked for them. -/
def Xfer.land (x : Xfer) (unit : Nat) (d : List MWord) : Nat → Xfer
  | 0 => x
  | n + 1 =>
    let ws := (List.range 16).map fun i => d.getD i poisonWord
    ({ x with inbox := upsert x.inbox unit ws } : Xfer).land (unit + 1) (d.drop 16) n

/-- A response with all its data completes its transaction; one for a tag no longer outstanding is discarded (R247). A write's
completion is progress of the store that asked for it (R182; DEDUCED, log entry 118). -/
def State.finishTx (s : State) (wr : Bool) (r : ReqSlot) (d : List MWord) : State :=
  match s.rtx.find? fun t => t.tag == r.tag.toNat && t.wr == wr with
  | none => s
  | some t =>
    let s := { s with rtx := s.rtx.filter fun q => q.tag != t.tag }
    let x := s.xfer (xk t.l t.slot)
    if x.st = .free ∨ x.id ≠ t.id then s
    else if wr then (match s.engineOf t.l with
      | some e => s.progress e t.l t.slot 0
      | none => s)
    else s.setXfer (xk t.l t.slot) (x.land t.unit d t.units)

/-- A header whose data has all arrived is acted on; otherwise it waits for data flits (R232). -/
def State.withData (s : State) (p vc : Nat) (r : ReqSlot) (d : List MWord) : State :=
  if d.length < 16 * (r.len.toNat % 64 + 1) then s.modPort p fun x => { x with part := x.part ++ [(vc, r, d)] }
  else if vc = 0 then s.doWrite p r d
  else s.finishTx false r d

/-- WRITE_REQUEST (R233): the write is made, and answered, once its data has arrived. -/
def execWriteRequest (p : Fin 12) (r : ReqSlot) (d : List MWord) (s : State) : Host.Outcome State Fault Refusal :=
  .next (if s.carries p.val 0 = true ∧ s.inWaits (r.addr.toNat % 2 ^ 48) = false then
      (s.takeSlot p.val (.req true r d)).withData p.val 0 r d else s)

/-- READ_RESPONSE (R233): the data completes the read it answers. -/
def execReadResponse (p : Fin 12) (r : ReqSlot) (d : List MWord) (s : State) : Host.Outcome State Fault Refusal :=
  .next (if s.carries p.val 1 then (s.takeSlot p.val (.rsp false r d)).withData p.val 1 r d else s)

/-- WRITE_COMPLETION (R233): completes the write it answers. -/
def execWriteCompletion (p : Fin 12) (r : ReqSlot) (s : State) : Host.Outcome State Fault Refusal :=
  .next (if s.carries p.val 1 then (s.takeSlot p.val (.rsp true r [])).finishTx true r [] else s)

/-- Hands words to the headers of a virtual channel in order (R232): each takes what it lacks. -/
def State.feed (s : State) (p vc : Nat) : Nat → List MWord → State
  | 0, _ => s
  | fuel + 1, ws =>
    match (s.port p).part.find? fun e => e.1 == vc with
    | none => s
    | some (_, r, d) =>
      let need := 16 * (r.len.toNat % 64 + 1) - d.length
      let d' := d ++ ws.take need
      let rest := (s.port p).part.filter (· ≠ (vc, r, d))
      if ws.length < need then
        s.modPort p fun x => { x with part := modFirst (fun e => e.1 == vc) (fun _ => (vc, r, d')) x.part }
      else
        let s := s.modPort p fun x => { x with part := rest }
        let s := if vc = 0 then s.doWrite p r d' else s.finishTx false r d'
        s.feed p vc fuel (ws.drop need)
where
  modFirst {α : Type} (q : α → Bool) (f : α → α) : List α → List α
    | [] => []
    | x :: xs => if q x then f x :: xs else x :: modFirst q f xs

/-- The words of a data flit with their poison marks (R232). -/
def flitData (enc : Bool) (f : Flit) : List MWord :=
  let p := f.h.getLsbD 58
  (f.d.take (flitWords enc p)).zipIdx.map fun (v, i) => ⟨v, p && f.map.getLsbD i⟩

/-- The eight bytes of a 64-bit word, lowest address first. -/
def dwordBytes (w : BitVec 64) : List (BitVec 8) := wordBytes (w.truncate 32) ++ wordBytes ((w >>> 32).truncate 32)

/-- Bytes 0 to 251 of a data flit (R231, R232); words it does not fill are 0. -/
def flitBytes (f : Flit) : List (BitVec 8) :=
  let p := f.h.getLsbD 58
  let ws := f.d.take (flitWords false p)
  dwordBytes f.h ++ (if p then dwordBytes f.map else []) ++ (ws ++ List.replicate (flitWords false p - ws.length) 0).flatMap
    wordBytes

/-- Whether a data flit passes its CRC (R231). A protected flit's CRC covers an encrypted field, which the model does not
hold: FLIT_DROPPED reports its failure (DESIGN CHOICE, log entry 20). -/
def flitPasses (f : Flit) (enc : Bool) : Bool := enc || crc32 (flitBytes f) == f.crc

/-- A flit that fails its CRC: counted and dropped (R231, R235). -/
def State.badCrc (s : State) (p : Nat) : State := (s.dropFlit p).fsat (F.WPL_ERR_CRC p) 1

/-- DATA_FLIT (R231, R232, R235): a data flit in SEQ order is taken, and its words go to the headers before it with their
marks; one that fails its CRC or is out of order is dropped. The first protected flit after a new key ends the old one (R365)
(DEDUCED, log entry 62). -/
def execDataFlit (p : Fin 12) (f : Flit) (s : State) : Host.Outcome State Fault Refusal :=
  let p := p.val
  let vc := bits64 f.h 61 59
  let enc := (s.port p).enc && decide (vc < 6)
  .next (if bits64 f.h 63 62 ≠ 2 ∨ s.carries p vc = false ∨ (vc = 0 ∧ s.writeWaits p) then s
    else if flitPasses f enc = false then s.badCrc p
    else if bits64 f.h 57 48 ≠ ((s.port p).rxSeq + 1) % 1024 then s.dropFlit p
    else
      let s := (s.takeFlits p vc 1).modPort p fun x => { x with oldKey := if vc < 6 then none else x.oldKey }
      (s.takeHeader p f.h).feed p vc 64 (flitData enc f))

/-- IDLE_FLIT (R231): acknowledgements and credits. -/
def execIdleFlit (p : Fin 12) (h : BitVec 64) (s : State) : Host.Outcome State Fault Refusal :=
  .next (if bits64 h 63 62 = 0 ∧ s.linked p.val ∧ (s.port p.val).training = false then s.takeHeader p.val h else s)

/-- REPLAY_TIMEOUT (R235): no acknowledgement has advanced for 1 µs; the sender replays from ACK + 1. -/
def execReplayTimeout (p : Fin 12) (s : State) : Host.Outcome State Fault Refusal :=
  let p := p.val
  .next (if (s.port p).retry = [] ∨ s.linked p = false ∨ (s.port p).training then s
    else s.replayed p)

/-! ## Retrains and lanes (R236, R237) -/

/-- The charges of the current 10 min of service time (R237). -/
def State.recentCharges (s : State) (p : Nat) : List (Nat × BitVec 32) :=
  (s.port p).charged.filter fun c => decide (s.svc.toNat - c.2.toNat < 600)

/-- WPL_LANE.WINDOW: the charges of the current 10 min, four bits a lane (R249). -/
def State.windowOf (s : State) (p : Nat) : Nat :=
  let n (i : Nat) := min 15 ((s.recentCharges p).filter fun c => c.1 == i).length
  n 0 + 16 * n 1 + 256 * n 2 + 4096 * n 3

/-- Shows WPL_LANE.WINDOW as it stands. -/
def State.showWindow (s : State) (p : Nat) : State :=
  let cs := s.recentCharges p
  (s.modPort p fun x => { x with charged := cs }).fset (F.WPL_LANE_WINDOW p) (s.windowOf p)

/-- Shows the windows of every port. -/
def State.showWindows (s : State) : State := (List.range 12).foldl (fun s p => s.showWindow p) s

/-- Whether a lane is one the port uses. -/
def State.laneUsed (s : State) (p lane : Nat) : Bool :=
  match s.fget (F.WPL_STATUS_WIDTH p) with
  | 2 => true
  | 1 => lane / 2 == s.fget (F.WPL_STATUS_PAIR p)
  | _ => false

/-- A retrain charged to a lane (R237): the third within 10 min retires it, with a LINK record. -/
def State.chargeLane (s : State) (p lane : Nat) : State :=
  let t := s.svc
  let s := (s.modPort p fun x => { x with charged := x.charged ++ [(lane, t)] }).showWindow p
  let n := ((s.port p).charged.filter fun c => c.1 == lane).length
  if n < 3 ∨ (s.lret p).testBit lane then s
  else
    let s := s.fset (F.WPL_STATUS_LRET p) (s.lret p + 2 ^ lane)
    s.classify { cls := 7, unit := BitVec.ofNat 32 (0x90000000 + p * 256 + lane), sig := BitVec.ofNat 32 lane }

/-- RETRAIN_TRIGGER (R236, R237): a retrain charged to the active lane with the most symbol errors starts, or counts
while another runs; a port with both lane pairs hit is RETIRED. -/
def execRetrainTrigger (p : Fin 12) (lane : Fin 4) (s : State) : Host.Outcome State Fault Refusal :=
  let p := p.val
  .next (if s.linked p = false ∨ s.laneUsed p lane.val = false then s
    else
      let s := (s.startRetrain p).chargeLane p lane.val
      if widthOf (s.lret p) = none ∧ (s.port p).clrLanes = false then s.portDown p 6 else s)

/-- Starts a key exchange (R365): the port's share and its certificate chain are sent. -/
def State.startKey (s : State) (p : Nat) : State := (s.post p (.key 0)).post p (.key 1)

/-- RETRAIN_DONE (R236): the port goes on with its retry buffer and sequence state; the third failure in succession
takes it DOWN. An ENC setting that takes effect on an ACTIVE port starts its key exchange (R238, R249, R365). -/
def execRetrainDone (p : Fin 12) (ok : Bool) (s : State) : Host.Outcome State Fault Refusal :=
  let p := p.val
  .next (if (s.port p).training = false then s
    else if ok then
      let on := s.flag (F.WPL_CFG_ENC p)
      let turned := on && !(s.port p).enc
      let s := s.modPort p fun x => { x with training := false, fails := 0, stuck := 0, enc := on,
                                             keyed := x.keyed && on }
      let s := (s.setFlag (F.WPL_STATUS_ENC p) (on && (s.port p).keyed)).settleLanes p
      (if turned && s.active p then s.startKey p else s).pump p
    else if (s.port p).fails ≥ 2 then s.portDown p 0
    else s.modPort p fun x => { x with fails := x.fails + 1 })

/-- DOWN_RETRY (R228, R236, R352): from step 6 on, an enabled DOWN port tries to train, unless its module still holds it DOWN;
whether it does, the module says then (DESIGN CHOICE, log entry 7). -/
def execDownRetry (p : Fin 12) (s : State) : Host.Outcome State Fault Refusal :=
  let p := p.val
  .next (if s.fget (F.WPL_STATUS_STATE p) = 0 ∧ s.flag (F.WPL_CFG_EN p) ∧ 6 ≤ s.fget F.PLN_BOOT_STEP then
      (if (s.port p).modFault then
        (let (v, s) := s.draw
         if v.getLsbD 0 then s else (s.modPort p fun x => { x with modFault := false }).beginTraining p)
       else s.beginTraining p) else s)

/-- MODULE_FAULT (R228): the module of an uplink is absent, silent or faulted and holds its port DOWN (DEDUCED, log entry
60). -/
def execModuleFault (p : Fin 12) (s : State) : Host.Outcome State Fault Refusal :=
  .next (if p.val < 7 then s
    else
      let s := s.modPort p.val fun x => { x with modFault := true }
      if s.fget (F.WPL_STATUS_STATE p.val) = 6 then s else s.portDown p.val 0)

/-- The write of one action bit of WPL_CTRL. -/
def ctrlBit (b : Nat) : BitVec 32 := 1#32 <<< b

/-- What WPL_CTRL.RETRAIN does (R249): a retrain charged to no lane. A RETIRED port with LANE_CLR written trains. -/
def State.ctrlRetrain (s : State) (p : Nat) : State :=
  if s.fget (F.WPL_STATUS_STATE p) = 6 ∧ (s.port p).clrLanes then s.beginTraining p
  else if s.linked p then s.startRetrain p
  else s

/-- RETRAIN (R249). -/
def execRetrain (r : Req) (p : Fin 12) (s : State) : Host.Outcome State Fault Refusal :=
  .next (s.acting r (Reg.WPL_CTRL p.val) (ctrlBit 31) fun s => s.ctrlRetrain p.val)

/-- What WPL_CTRL.LANE_CLR does (R237). -/
def State.ctrlLaneClr (s : State) (p : Nat) : State := s.modPort p fun x => { x with clrLanes := true }

/-- LANE_CLR (R237). -/
def execLaneClr (r : Req) (p : Fin 12) (s : State) : Host.Outcome State Fault Refusal :=
  .next (s.acting r (Reg.WPL_CTRL p.val) (ctrlBit 28) fun s => s.ctrlLaneClr p.val)

end Sys2Proof.Machine
end

