-- ==== Sys2Proof/Machine/Pace.lean ====
section
/-! DEFINITION. Pace, clocks, power cap, PACE_N and the thermal loop (R279 to R302, R307). -/
namespace Sys2Proof.Machine

/-! ## Parking (R296, R301, R304) -/

/-- The engines of logical slots parked, over every cluster that has one bound (R310). -/
def State.parkedCount (s : State) : Nat :=
  ((List.range 16).filter s.parkedSlot).foldl (fun n i =>
    n + ((List.range 96).filter fun u => s.flag (boundFld (16 * u + i))).length) 0

/-- Charges the idle time of every engine of a logical slot. -/
def State.settleSlot (s : State) (i : Nat) : State :=
  (List.range 96).foldl (fun s u => match s.engineOf (16 * u + i) with
    | some e => s.settle e
    | none => s) s

/-- Changes what is parked (R296, R307): newly parked slots stop; a slot is admitted when every parking is released, in
its wave of CLV_WAVE from this moment. -/
def State.repark (s : State) (f : Power → Power) : State :=
  let t := s.modPower f
  let off := (List.range 16).filter fun i => s.parkedSlot i && !t.parkedSlot i
  let on := (List.range 16).filter fun i => !s.parkedSlot i && t.parkedSlot i
  let s := (off ++ on).foldl State.settleSlot s
  let now := s.now
  let per := s.fget F.CLV_WAVE_PERIOD
  let adm := (s.power.admits.filter fun a => !off.contains a.1 && !on.contains a.1) ++
    off.map fun i => (i, now + BitVec.ofNat 64 (s.waveOf i * per))
  let s := s.modPower fun p => { f p with admits := adm }
  (s.fset F.DIA_STATUS_PARKED s.parkedCount).rePace

/-! ## Heliostats (R281 to R283) -/

/-- HELIOSTAT_WINDOW (R281): the slowest replica's error in 0.01 % is shown; the die is LOCKED while it is at or above
nominal; the rail is trimmed 1 mV towards the band of 0.2 % to 1.0 %, never upwards while a droop ceiling is in
force (DEDUCED, log entry 63). -/
def execHeliostatWindow (d : Fin 4) (err : Int) (s : State) : Host.Outcome State Fault Refusal :=
  let d := d.val
  let v := s.fget (F.HEL_STATUS_VOUT d)
  let v' := if err < 20 then (if s.fget F.DIA_PACE_DROOP = 0 then min 850 (v + 1) else v)
    else if 100 < err then max 550 (v - 1) else v
  .next (if s.power.railsUp = false ∨ s.dieQ d ∨ v < 550 then s
    else ((s.fset (F.HEL_STATUS_ERR d) (unsigned 12 (clampInt (-2048) 2047 err))).setFlag (F.HEL_STATUS_LOCKED d)
      (decide (0 ≤ err))).fset (F.HEL_STATUS_VOUT d) v')

/-- RAIL_MAX (R283): the rail has stood at 850 mV for 1 ms with the slowest replica more than 0.5 % below nominal. -/
def execRailMax (d : Fin 4) (s : State) : Host.Outcome State Fault Refusal :=
  let d := d.val
  .next (if s.fget (F.HEL_STATUS_VOUT d) = 850 ∧ signed 12 (s.fget (F.HEL_STATUS_ERR d)) < -50 then
      let c := max (s.fget (F.HEL_STATUS_MCEIL d)) (min 15 (s.fget F.DIA_PACE_STEP + 1))
      let s := ((s.setFlag (F.HEL_STATUS_RAIL_MAX d) true).fset (F.HEL_STATUS_MCEIL d) c).rePace
      s.event 0x0E (BitVec.ofNat 32 (0x20000000 + d)) (BitVec.ofNat 32 d) 0 0
    else s)

/-- A die goes to step `n` (R282). To a slower step its meter switches at once and the rail follows down; to a faster one the
rail is driven first. -/
def State.dieStep (s : State) (n d : Nat) : State :=
  if s.dieQ d ∨ s.power.railsUp = false then s
  else
    let s := if s.fget (F.HEL_STATUS_STEP d) ≤ n then s.fset (F.HEL_STATUS_STEP d) n else s
    s.fset (F.HEL_STATUS_VOUT d) (s.tableVolt d n)

/-- PACE_STEP_CHANGE (R282): the dies go to the step in force, when it is another than the one they went to. In RETENTION and
STANDBY the rails stay where R306 puts them. -/
def execPaceStepChange (s : State) : Host.Outcome State Fault Refusal :=
  let n := s.stepNow
  .next (if n = s.power.target ∨ 2 ≤ s.fget F.DIA_PSTATE_STATE then s
    else [0, 1, 2, 3].foldl (fun s d => s.dieStep n d) (s.modPower fun p => { p with target := n }))

/-- METER_SWITCH (R282): the slowest replica has reached the new nominal rate; the die's meter switches to the faster
step. -/
def execMeterSwitch (d : Fin 4) (s : State) : Host.Outcome State Fault Refusal :=
  .next (if s.power.target < s.fget (F.HEL_STATUS_STEP d.val) ∧ s.dieQ d.val = false then
      s.fset (F.HEL_STATUS_STEP d.val) s.power.target else s)

/-! ## The Collimator (R287, R288, R291) -/

/-- The spread depth of the reference in ppm (R309: 0.01 % units, 0 to 50). -/
def State.refDepth (s : State) : Int := 100 * (min 50 (s.fget F.COL_CFG_REFSSC_DEPTH) : Nat)

/-- Whether a measurement window lies within the band of expectation (R287). -/
def State.refBand (s : State) (ppm : Int) : Bool :=
  if s.flag F.COL_CFG_REFSSC then decide (-(s.refDepth + 200) ≤ ppm) && decide (ppm ≤ 200)
  else decide (-200 ≤ ppm) && decide (ppm ≤ 200)

/-- Whether the reference passes: 16 consecutive windows within the band that agree with each other within 20 ppm. -/
def refPass (w : List Int) : Bool :=
  w.length == 16 && w.all fun a => w.all fun b => decide (a - b ≤ 20)

/-- REFERENCE_WINDOW (R287, R288, R354): a window is judged while the reference is judged or has returned. At step 4 of the
power-up order a reference that does not pass sets FAIL 2, and judging repeats. -/
def execReferenceWindow (ppm : Int) (s : State) : Host.Outcome State Fault Refusal :=
  let st := s.fget F.COL_STATUS_STATE
  .next (if st ≠ 1 ∧ st ≠ 4 then s
    else
      let w := if s.refBand ppm then (s.power.refWin ++ [ppm]) else []
      let w := w.drop (w.length - 16)
      let s := s.modPower fun p => { p with refWin := w }
      if st = 1 ∧ refPass w then (s.modPower fun p => { p with refWin := [] }).fset F.COL_STATUS_STATE 2
      else if st = 1 ∧ (w = [] ∨ w.length = 16) ∧ s.fget F.PLN_BOOT_STEP = 4 ∧ s.fget F.PLN_BOOT_FAIL ≠ 2 then
        (s.fset F.PLN_BOOT_FAIL 2).event 0x0D (blockUnit 1) 0 0 0
      else s)

/-- ROOT_LOCK (R287, R352 step 4, R261): the root is locked, and a timebase that has not started starts at 0. -/
def execRootLock (s : State) : Host.Outcome State Fault Refusal :=
  .next (if s.fget F.COL_STATUS_STATE = 2 then
      let s := s.fset F.COL_STATUS_STATE 3
      let s := if s.fget F.PLN_BOOT_STEP = 4 then
          (if s.fget F.PLN_BOOT_FAIL = 2 then s.fset F.PLN_BOOT_FAIL 0 else s).fset F.PLN_BOOT_STEP 5 else s
      if s.time.run then s else { s with time := { run := true } }
    else s)

/-- REFERENCE_LOSS (R288). -/
def execReferenceLoss (s : State) : Host.Outcome State Fault Refusal :=
  .next (if s.fget F.COL_STATUS_STATE = 3 then
      (((s.fset F.COL_STATUS_STATE 4).fsat F.COL_STATUS_LOSSES 1).modPower fun p => { p with refWin := [] }).event 0x0D
        (blockUnit 1) 0 0 0
    else s)

/-- REFERENCE_RETURN (R288): judged again under R287, and the root pulled to it. -/
def execReferenceReturn (s : State) : Host.Outcome State Fault Refusal :=
  .next (if s.fget F.COL_STATUS_STATE = 4 ∧ refPass s.power.refWin then
      (s.modPower fun p => { p with refWin := [] }).fset F.COL_STATUS_STATE 3 else s)

/-- Whether SEL names a domain (R291). -/
def selOk (k : Nat) : Bool :=
  decide (k ≤ 1) || (decide (0x10 ≤ k) && decide (k ≤ 0x1B)) || (decide (0x20 ≤ k) && decide (k ≤ 0x38)) ||
    (decide (0x40 ≤ k) && decide (k ≤ 0x4C)) || (decide (0x50 ≤ k) && decide (k ≤ 0x55))

/-- A write of COL_FCNT_CTRL by a requester who may (R291, R309): GATE and SEL, and a count when START is 1; START reads
1 while counting. -/
def State.writeFcnt (s : State) (v : BitVec 32) : State :=
  let on := s.flag F.COL_FCNT_CTRL_START
  (s.setReg Reg.COL_FCNT_CTRL (v &&& 0x80F000FF)).setFlag F.COL_FCNT_CTRL_START (v.getLsbD 31 || on)

/-- FCNT_START (R291). -/
def execFcntStart (r : Req) (v : BitVec 32) (s : State) : Host.Outcome State Fault Refusal :=
  .next (s.acting r Reg.COL_FCNT_CTRL v fun s => s.writeFcnt v)

/-- FCNT_DONE (R291): the gate has ended with this many edges or tokens of the domain. -/
def execFcntDone (edges : Nat) (s : State) : Host.Outcome State Fault Refusal :=
  .next (if s.flag F.COL_FCNT_CTRL_START then
      (s.setFlag F.COL_FCNT_CTRL_START false).setReg Reg.COL_FCNT_RESULT
        (if selOk (s.fget F.COL_FCNT_CTRL_SEL) then BitVec.ofNat 32 (min 0xFFFFFFFF edges) else 0)
    else s)

/-! ## The Diaphragm (R292 to R298) -/

/-- The cap in W as it acts (R298). -/
def State.capW (s : State) : Nat := min 2800 (max 1000 (s.fget F.DIA_CAP_CAP))

/-- The domains in priority order (R294, R310). -/
def State.prio (s : State) : List Nat :=
  let o := s.fget F.DIA_PRIO_ORDER
  [o / 16 % 4, o / 4 % 4, o % 4]

/-- The guaranteed shares and what is left of the cap (R294). -/
def giveMin (dem minw : List Nat) : Nat → List Nat → Nat → List Nat × Nat
  | 0, g, left => (g, left)
  | n + 1, g, left =>
    let d := g.length
    let x := min (dem.getD d 0) (minw.getD d 0)
    giveMin dem minw n (g ++ [x]) (left - x)

/-- The rest in priority order (R294). -/
def givePrio (dem : List Nat) : List Nat → List Nat → Nat → List Nat × Nat
  | [], g, left => (g, left)
  | d :: ds, g, left =>
    let x := min (dem.getD d 0 - g.getD d 0) left
    givePrio dem ds (g.set d (g.getD d 0 + x)) (left - x)

/-- The cap shared among the domains, in mW (R294). -/
def share (cap : Nat) (dem minw order : List Nat) : List Nat :=
  let (g, left) := giveMin dem minw 3 [] cap
  let (g, left) := givePrio dem order g left
  g.set 0 (g.getD 0 0 + left)

/-- The predicted compute power at step `n`, in mW, summed over the dies (R59, R295). -/
def State.predict (s : State) (e : PowerEst) (n : Nat) : ℚ :=
  (List.range 4).foldl (fun t d =>
    let c := s.fget (F.HEL_STATUS_STEP d)
    let r : ℚ := (20 - n : ℚ) / (20 - c : ℚ)
    let v : ℚ := (s.tableVolt d n : ℚ) / (s.tableVolt d c : ℚ)
    t + (e.arrays.getD d 0 : ℚ) * r * v ^ 2 + (e.control.getD d 0 : ℚ) * v ^ 2 + (e.sram.getD d 0 : ℚ) * r +
      (e.rifflers.getD d 0 : ℚ)) 0

/-- The largest number of slots of 16 at `hi` within the budget (R295). -/
def dutyOf (lo hi budget : ℚ) : Nat :=
  ((List.range 16).filter fun (k : Nat) => decide (lo + (k : ℚ) / 16 * (hi - lo) ≤ budget)).foldl max 0

/-- The steps and the duty of the cap ceiling for a compute budget (R295). -/
def State.capChoice (s : State) (e : PowerEst) (budget : Nat) : Nat × Nat × Nat :=
  let b : ℚ := budget
  let floor := s.fget F.DIA_PACE_FLOOR
  let top := s.otherCeil
  if b < s.predict e floor then (floor, floor, 0)
  else
    let lo := ((List.range 16).find? fun n => decide (top ≤ n) && decide (s.predict e n ≤ b)).getD floor
    if top < lo then (lo, lo - 1, dutyOf (s.predict e lo) (s.predict e (lo - 1)) b) else (lo, lo, 0)

/-- The mean of the estimates of the last 1 ms, in W. -/
def meanW (xs : List Nat) : Nat := if xs = [] then 0 else xs.sum / xs.length / 1000

/-- The throttling of memory and links for their budgets (R297): the grant rate in 64ths with its floor, and one port more
or every port back on four lanes. A port in `busy`, over 45 % utilised in the last 1 ms, is not lowered. -/
def State.throttle (s : State) (busy : BitVec 12) (dem give : List Nat) : State :=
  let d1 := dem.getD 1 0
  let thr := if d1 ≤ give.getD 1 0 then 64 else max 16 (64 * give.getD 1 0 / d1)
  let s := s.modPower fun p => { p with memThr := thr }
  let put (w : Nat) (s : State) (p : Nat) : State :=
    if s.lret p = 0 ∧ s.fget (F.WPL_STATUS_WIDTH p) ≠ 0 then s.fset (F.WPL_STATUS_WIDTH p) w else s
  if dem.getD 2 0 ≤ give.getD 2 0 then
    let low := (List.range 12).filter s.power.linkLow.getLsbD
    low.foldl (put 2) (s.modPower fun p => { p with linkLow := 0 })
  else match [11, 10, 9, 8, 7, 6, 5, 4, 3, 2, 1, 0].find? fun p => !s.power.linkLow.getLsbD p && !busy.getLsbD p with
    | some p => put 1 (s.modPower fun w => { w with linkLow := w.linkLow ||| (1#12 <<< p) }) p
    | none => s

/-- The domains' demands: the estimate divided by the present throttle fraction (R294). Compute runs at the rate of the
step the dies are at against the set ceiling's and with the slots not parked; a port on its lower two lanes runs at half. -/
def State.demands (s : State) (est : List Nat) : List Nat :=
  let c := s.stepNow
  let act := 16 - min 15 s.power.parkDia
  let ports := ((List.range 12).filter fun p => s.fget (F.WPL_STATUS_WIDTH p) != 0).length
  let low := ((List.range 12).filter fun p => s.fget (F.WPL_STATUS_WIDTH p) != 0 && s.power.linkLow.getLsbD p).length
  [est.getD 0 0 * (20 - s.setCeil) * 16 / ((20 - c) * act), est.getD 1 0 * 64 / s.power.memThr,
   if ports = 0 then est.getD 2 0 else est.getD 2 0 * (2 * ports) / (2 * ports - low)]

/-- A rail's correction gain in units of 2^-16 (R293). -/
def State.gain (s : State) (r : Nat) : Int := (lookup s.power.gains r).getD 65536

/-- An estimate under a domain's weight trim, in 0.1 % and within ±50, and its rail's gain (R293, R310). -/
def State.trimmed (s : State) (trim : Fld) (rail x : Nat) : Nat :=
  let t := clampInt (-50) 50 (signed 8 (s.fget trim))
  ((x : Int) * (1000 + t) * s.gain rail / 65536000).toNat

/-- The Diaphragm's estimate: what its factory weights give, trimmed by domain and corrected by rail (R293). The rails are
numbered as R381 lists them. -/
def State.weigh (s : State) (e : PowerEst) : PowerEst :=
  { e with
    arrays := e.arrays.mapIdx (s.trimmed F.DIA_WTRIM_COMPUTE),
    control := e.control.mapIdx (s.trimmed F.DIA_WTRIM_COMPUTE),
    sram := e.sram.map (s.trimmed F.DIA_WTRIM_COMPUTE 4),
    rifflers := e.rifflers.map (s.trimmed F.DIA_WTRIM_COMPUTE 8),
    memory := e.memory.mapIdx (fun i x => s.trimmed F.DIA_WTRIM_MEMORY (9 + i) x),
    links := e.links.mapIdx (fun i x => s.trimmed F.DIA_WTRIM_LINKS (5 + i) x) }

/-- The slots of every cluster to park for an estimate over budget (R295, R296): in proportion to the excess, rounded
up. -/
def State.excess (s : State) (est budget : Nat) : Nat :=
  let act := 16 - s.power.parkDia
  if est ≤ budget then 0 else (act * (est - budget) + est - 1) / est

/-- DIAPHRAGM_ESTIMATE (R293 to R298): demands, shares, budgets and estimates; the cap ceiling's steps; parking at once of
the excess over 3 %, and of any excess at FLOOR; admission once the choice holds the estimate within the budget with
every engine admitted. The operand is what the activity counters give under the factory weights (DESIGN CHOICE, log entry
42). -/
def execDiaphragmEstimate (e : PowerEst) (s : State) : Host.Outcome State Fault Refusal :=
  let e := s.weigh e
  let comp := e.arrays.sum + e.control.sum + e.sram.sum + e.rifflers.sum
  let est := [comp, e.memory.sum, e.links.sum]
  let dem := s.demands est
  let give := share (1000 * s.capW) dem ([0, 1, 2].map fun c => 1000 * s.fget (F.DIA_MIN_W c)) s.prio
  let budget := give.getD 0 0
  let hist := ((comp, e.memory.sum, e.links.sum) :: s.power.est).take 500
  let s := s.modPower fun p => { p with est := hist }
  let means := [meanW (hist.map (·.1)), meanW (hist.map (·.2.1)), meanW (hist.map (·.2.2))]
  let s := [0, 1, 2].foldl (fun s c =>
    (s.fset (F.DIA_PWR_BUDGET c) (give.getD c 0 / 1000)).fset (F.DIA_PWR_EST c) (means.getD c 0)) s
  let s := (s.fset (F.DIA_PWR_BUDGET 3) s.capW).fset (F.DIA_PWR_EST 3) means.sum
  let s := s.throttle e.busy dem give
  let (lo, hi, k) := s.capChoice e budget
  let binds := decide (s.otherCeil < lo)
  let s := ((s.modPower fun p => { p with capLo := lo, capHi := hi, capBinds := binds }).fset F.DIA_STATUS_STEP_HI hi).fset
    F.DIA_STATUS_DUTY k
  let atFloor := decide ((budget : ℚ) < s.predict e (s.fget F.DIA_PACE_FLOOR))
  let act := 16 - min 15 s.power.parkDia
  let full : PowerEst := { e with arrays := e.arrays.map fun a => a * 16 / act }
  .next (if 103 * budget < 100 * comp ∨ (atFloor ∧ budget < comp) then
      s.repark fun p => { p with parkDia := min 16 (p.parkDia + s.excess comp budget) }
    else if 0 < s.power.parkDia ∧ comp ≤ budget ∧ s.predict full lo ≤ (budget : ℚ) then
      s.repark fun p => { p with parkDia := 0 }
    else s.rePace)

/-- DITHER_SLOT (R295): the next 16 µs slot of the cap frame. -/
def execDitherSlot (s : State) : Host.Outcome State Fault Refusal :=
  .next (s.modPower fun p => { p with frame := (p.frame + 1) % 16 })

/-- REGULATOR_READ (R293): a rail's gain moves a quarter of the way to the measured ratio, within 0.80 to 1.20; a gain
held at a limit for 100 ms files a record (DESIGN CHOICE, log entry 64). -/
def execRegulatorRead (rail : Fin 18) (meas est : Nat) (heldLong : Bool) (s : State) :
    Host.Outcome State Fault Refusal :=
  let r := rail.val
  let g := s.gain r
  let g := if est = 0 then g else clampInt 52429 78643 (g + ((65536 * meas / est : Nat) - g) / 4)
  let s := s.modPower fun p => { p with gains := upsert p.gains r g }
  .next (if heldLong ∧ (g = 52429 ∨ g = 78643) then s.event 0x0E 0xE0000000 (BitVec.ofNat 32 r) 0 0 else s)

/-- What a write of DIA_CAP does beside its fields (R298, R307): the frame restarts. -/
def State.writeCap (s : State) (r : Req) (v : BitVec 32) : State :=
  let t := s.plainWrite r Reg.DIA_CAP v
  if s.whole r Reg.DIA_CAP = false ∨ s.locked Reg.DIA_CAP then t else t.modPower fun p => { p with frame := 0 }

/-- DIA_CAP_WRITE (R298). -/
def execDiaCapWrite (r : Req) (v : BitVec 32) (s : State) : Host.Outcome State Fault Refusal := .next (s.writeCap r v)

/-- A write of DIA_PRIO (R294): one that does not name each domain once is ignored and sets ERR. -/
def State.writePrio (s : State) (r : Req) (v : BitVec 32) : State :=
  let o := [v.toNat / 16 % 4, v.toNat / 4 % 4, v.toNat % 4]
  if s.whole r Reg.DIA_PRIO = false ∨ s.locked Reg.DIA_PRIO ∨ [0, 1, 2].all o.contains then s.plainWrite r Reg.DIA_PRIO v
  else s.setFlag F.DIA_STATUS_ERR true

/-- DIA_PRIO_WRITE (R294). -/
def execDiaPrioWrite (r : Req) (v : BitVec 32) (s : State) : Host.Outcome State Fault Refusal := .next (s.writePrio r v)

/-- A write of DIA_MINc (R294): one that takes the minima's sum above the cap or above 1,000 W is ignored and sets
ERR. -/
def State.writeMin (s : State) (r : Req) (c : Nat) (v : BitVec 32) : State :=
  let sum := (([0, 1, 2].filter (· ≠ c)).map fun k => s.fget (F.DIA_MIN_W k)).sum + v.toNat % 4096
  if s.whole r (Reg.DIA_MIN c) = false ∨ s.locked (Reg.DIA_MIN c) ∨ sum ≤ min 1000 s.capW then
    s.plainWrite r (Reg.DIA_MIN c) v
  else s.setFlag F.DIA_STATUS_ERR true

/-- DIA_MIN_WRITE (R294). -/
def execDiaMinWrite (r : Req) (c : Fin 3) (v : BitVec 32) (s : State) : Host.Outcome State Fault Refusal :=
  .next (s.writeMin r c.val v)

/-! ## PACE_N (R299) -/

/-- A falling edge of PACE_N sets the droop ceiling two steps slower than the step in force (R299). -/
def State.paceFall (s : State) : State :=
  let c := s.fget F.DIA_PACE_STEP
  (s.modPower fun p => { p with paceLow := true, paceFrom := c, droopP := min 15 (c + 2) }).rePace

/-- PACE_N_FALL (R299): the edge has been held for 100 ns. Before the facet inputs are judged it is not acted on (R386). -/
def execPaceNFall (s : State) : Host.Outcome State Fault Refusal :=
  .next (if s.power.paceLow ∨ s.power.judged = false then s else s.paceFall)

/-- A board thermal warning (R299). -/
def State.boardWarn (s : State) : State :=
  let c := max (s.fget F.DIA_PACE_BOARD) (min 15 (s.power.paceFrom + 1))
  ((s.modPower fun p => { p with droopP := 0 }).fset F.DIA_PACE_BOARD c).rePace

/-- PACE_N_RISE (R299): the pulse is classed by its width in ns. -/
def execPaceNRise (ns : Nat) (s : State) : Host.Outcome State Fault Refusal :=
  .next (if s.power.paceLow = false then s
    else
      let s := s.modPower fun p => { p with paceLow := false }
      if ns < 500 then ((s.modPower fun p => { p with droopP := 0 }).fsat F.DIA_PACEN_GLITCH 1).rePace
      else if ns ≤ 5000 then s.fsat F.DIA_PACEN_DROOPS 1
      else if ns ≤ 60000 then (s.fsat F.DIA_PACEN_WARNS 1).boardWarn
      else if ns < 100000 then (s.fsat F.DIA_PACEN_INVALID 1).boardWarn
      else s)

/-- DROOP_RELAX (R299): after the hold, the droop ceiling relaxes one step. -/
def execDroopRelax (s : State) : Host.Outcome State Fault Refusal :=
  .next (if s.power.paceLow then s else (s.modPower fun p => { p with droopP := p.droopP - 1 }).rePace)

/-- BOARD_RELAX (R299): after 100 ms without a warning, the board ceiling relaxes one step. -/
def execBoardRelax (s : State) : Host.Outcome State Fault Refusal :=
  .next ((s.fset F.DIA_PACE_BOARD (s.fget F.DIA_PACE_BOARD - 1)).rePace)

/-! ## The thermal loop (R301, R302) -/

/-- THERMAL_SAMPLE (R301, R357): the hottest sensor and what it reads in 0.25 °C, to which its user offset is added. At
104 °C the ceiling is P15 at once and slots 8 to 15 are parked; below 97 °C they are admitted. A sensor excluded or
retired takes no part (R316, R339). -/
def execThermalSample (sensor : BitVec 10) (t : Int) (s : State) : Host.Outcome State Fault Refusal :=
  let k := sensor.toNat
  let t := t + s.calUser 2 k
  let s := if s.gone.contains k then s else { s with temps := upsert s.temps k (BitVec.ofInt 16 t) }
  .next (if s.excl.contains k ∨ s.gone.contains k then s
    else
      let s := (s.fset F.DIA_THERM_SENSOR k).fset F.DIA_THERM_TMAX (unsigned 16 t)
      if 416 ≤ t then (s.fset F.DIA_PACE_THERM 15).repark fun p => { p with parkTherm := true }
      else if t < 388 ∧ s.power.parkTherm then s.repark fun p => { p with parkTherm := false }
      else s)

/-- THERMAL_SLOWDOWN (R301): at or above 100 °C, one step slower each 100 µs. -/
def execThermalSlowdown (s : State) : Host.Outcome State Fault Refusal :=
  .next (if 400 ≤ signed 16 (s.fget F.DIA_THERM_TMAX) then
      (s.fset F.DIA_PACE_THERM (min 15 (s.fget F.DIA_PACE_THERM + 1))).rePace else s)

/-- THERMAL_SPEEDUP (R301): below 97 °C, with parked engines admitted, one step faster each 1 ms. -/
def execThermalSpeedup (s : State) : Host.Outcome State Fault Refusal :=
  .next (if signed 16 (s.fget F.DIA_THERM_TMAX) < 388 ∧ s.power.parkTherm = false then
      (s.fset F.DIA_PACE_THERM (s.fget F.DIA_PACE_THERM - 1)).rePace else s)

/-- HBM_TEMP (R302): a stack's own temperature, in 0.25 °C, throttles its channels. -/
def execHbmTemp (h : Fin 16) (t : Int) (s : State) : Host.Outcome State Fault Refusal :=
  let old := s.power.hbmThr
  let thr := if 400 ≤ t then 16 else if 380 ≤ t then 32 else if t < 360 then 64 else old.getD h.val 64
  .next (s.modPower fun p => { p with hbmThr := old.set h.val thr })

end Sys2Proof.Machine
end

