-- ==== Sys2Proof/Machine/Capture.lean ====
section
/-! DEFINITION. Capture slots and the judgement of the faults that own them (R314, R323, R324). -/
namespace Sys2Proof.Machine

/-- Shows the capture slots in use (R329). -/
def State.showCaps (s : State) : State := s.fset F.FLT_RING_CAPS s.caps.length

/-- The DETAIL of an ARITH record of an array: capture slot and pair (R318). -/
def capDet (n pair : Nat) : BitVec 64 := BitVec.ofNat 64 (n + pair * 2 ^ 16)

/-- The fault of a capture slot, as a further record of it names it. -/
def CapSlot.fault (c : CapSlot) (n : Nat) (replayed : Bool) : FRec :=
  { cls := c.cls, poison := true, replay := replayed, unit := c.unit, sig := c.sig, det0 := capDet n c.cap.pair }

/-- Judges by history the fault of a capture slot whose replay will not run, and frees the slot (R324). -/
def State.dropCapture (s : State) (n : Nat) (c : CapSlot) : State :=
  let s := ({ s with caps := without s.caps n } : State).showCaps
  let r := c.fault n false
  if s.isPermanent r then s else s.settleFault r (s.third r) false

/-- The engine key a capture slot's unit code names (R319). -/
def CapSlot.eng (c : CapSlot) : Nat :=
  (c.unit.toNat / 0x10000 % 4 * 24 + c.unit.toNat / 0x100 % 32) * 17 + c.unit.toNat % 32

/-- Gives up the replays of the engines that satisfy `p` (R324). -/
def State.dropReplays (s : State) (p : Nat → Bool) : State :=
  (s.caps.filter fun c => p c.2.eng).foldl (fun s c => s.dropCapture c.1 c.2) s

end Sys2Proof.Machine
end

