-- ==== Sys2Proof/Machine/Discovery.lean ====
section
/-! DEFINITION. Discovery (R239 to R245): the neighbour table and its window, the judgement of hellos, swaps, the
settling of coordinates, quarantine and its timers, port keys (R365), and dropped flits (R235, R238). -/
namespace Sys2Proof.Machine

/-! ## The expected-neighbour table (R241, R248) -/

def State.nbrW (s : State) (i k : Nat) : BitVec 32 := Sparse.get (fun _ => 0) s.nbr (4 * i + k)

/-- Writes the words of an entry from word `k` on. -/
def State.putNbr (s : State) (i : Nat) : Nat → List (BitVec 32) → State
  | _, [] => s
  | k, v :: vs => ({ s with nbr := Sparse.set (fun _ => 0) s.nbr (4 * i + k) v } : State).putNbr i (k + 1) vs

/-- An entry by its fields. -/
def nbrEntry (valid anyport anyser anyplane : Bool) (lport rport rid kind genmin : Nat) : List (BitVec 32) :=
  let b (c : Bool) (n : Nat) := if c then 2 ^ n else 0
  [BitVec.ofNat 32 (b valid 31 + b anyport 30 + b anyser 29 + b anyplane 28 + lport * 2 ^ 24 + rport * 2 ^ 16 + rid),
   BitVec.ofNat 32 (kind * 2 ^ 30 + genmin * 2 ^ 28), 0, 0]

/-- Entry `i` of the automatic fill from strap coordinates (R241). -/
def autoEntry (id i : Nat) : List (BitVec 32) :=
  let rack := id / 128 * 128
  if i ≤ 6 then nbrEntry true false true false i (6 - i) (id / 8 * 8 + (id + i + 1) % 8) 0 1
  else if i ≤ 10 then nbrEntry true true true false i 0 (rack + (i - 7)) 1 1
  else if i = 11 then nbrEntry true true true true 11 0 rack 1 1
  else [0, 0, 0, 0]

/-- Fills the table from the strap coordinates (R241). -/
def State.autoFill (s : State) : State :=
  (List.range 64).foldl (fun s i => s.putNbr i 0 (autoEntry (s.fget F.WPL_STRAP_ID) i)) s

/-- Whether a window image may be committed (R248). -/
def nbrOk (w : List (BitVec 32)) : Bool :=
  let w0 := w.getD 0 0
  let w1 := w.getD 1 0
  decide (w0.toNat / 2 ^ 24 % 16 ≤ 11) && w1.toNat % 2 ^ 28 == 0 && decide (w1.toNat / 2 ^ 30 ≤ 1) &&
    (w1.toNat / 2 ^ 28 % 4 == 1 || w1.toNat / 2 ^ 28 % 4 == 2)

/-- Writes the window's data registers from `k` on. -/
def State.putNbrWin (s : State) : Nat → List (BitVec 32) → State
  | _, [] => s
  | k, v :: vs => (s.setReg (Reg.WPL_NBR_DATA k) v).putNbrWin (k + 1) vs

/-- A window command takes CMD and counts in SEQ (R51, R248). -/
def State.nbrCmd (s : State) (op i : Nat) : State :=
  ((s.fset F.WPL_NBR_CMD_OP op).fset F.WPL_NBR_CMD_INDEX i).fwrap F.WPL_NBR_STATUS_SEQ 1

/-- The window read. -/
def State.nbrRead (s : State) (i : Nat) : State :=
  (s.nbrCmd 1 i).putNbrWin 0 ((List.range 4).map (s.nbrW i))

/-- The window write: committed, or refused with ERR (R248). -/
def State.nbrWrite (s : State) (i : Nat) : State :=
  let w := (List.range 4).map fun k => s.reg (Reg.WPL_NBR_DATA k)
  let s := s.nbrCmd 2 i
  if nbrOk w then (s.setFlag F.WPL_NBR_STATUS_ERR false).putNbr i 0 w else s.setFlag F.WPL_NBR_STATUS_ERR true

/-- NBR_READ (R248). -/
def execNbrRead (r : Req) (i : BitVec 6) (s : State) : Host.Outcome State Fault Refusal :=
  .next (s.acting r Reg.WPL_NBR_CMD (0x40000000 ||| i.zeroExtend 32) fun s => s.nbrRead i.toNat)

/-- NBR_WRITE (R248). -/
def execNbrWrite (r : Req) (i : BitVec 6) (s : State) : Host.Outcome State Fault Refusal :=
  .next (s.acting r Reg.WPL_NBR_CMD (0x80000000 ||| i.zeroExtend 32) fun s => s.nbrWrite i.toNat)

/-! ## Coordinates (R244) -/

/-- PLN_PKG_ID settles once the strap values are valid and two tray ports or an uplink are ACTIVE, or SOLO is set, and no
strap conflict stands (R244). -/
def State.settleId (s : State) : State :=
  let tray := ((List.range 7).filter s.active).length
  let up := [7, 8, 9, 10, 11].any s.active
  if s.flag F.PLN_PKG_ID_VALID || s.flag F.WPL_DISC_STATUS_STRAP_CONFLICT || !s.flag F.WPL_STRAP_VALID then s
  else if 2 ≤ tray ∨ up ∨ s.flag F.WPL_DISC_CFG_SOLO then
    s.setReg Reg.PLN_PKG_ID (BitVec.ofNat 32 (2 ^ 31 + s.fget F.WPL_STRAP_ID))
  else s

/-- A write of WPL_DISC_CFG (R241, R244): AUTO from 0 to 1 before LOCK fills the table at once; SOLO may settle the
coordinates. -/
def State.writeDiscCfg (s : State) (r : Req) (v : BitVec 32) : State :=
  let was := s.flag F.WPL_DISC_CFG_AUTO
  let s := s.plainWrite r Reg.WPL_DISC_CFG v
  (if was = false ∧ s.flag F.WPL_DISC_CFG_AUTO then s.autoFill else s).settleId

/-- AUTO_FILL (R241): a write of WPL_DISC_CFG. -/
def execAutoFill (r : Req) (v : BitVec 32) (s : State) : Host.Outcome State Fault Refusal :=
  .next (s.writeDiscCfg r v)

/-! ## Quarantine (R242, R245) -/

/-- Files a DISCOVERY record: the signature is the port and the cause (R320; DESIGN CHOICE, log entry 41). -/
def State.discovery (s : State) (p cause : Nat) : State :=
  s.event 0x10 (blockUnit (0x10 + p)) (BitVec.ofNat 32 (p * 16 + cause)) 0 0

/-- Quarantines a port with a cause; two tray ports with cause STRAP are a strap conflict (R242, R244). -/
def State.quarantine (s : State) (p cause : Nat) : State :=
  let s := (s.leaveActive p 5).fset (F.WPL_STATUS_CAUSE p) cause
  let s := s.modPort p fun x => { x with afresh := false }
  let n := ((List.range 7).filter fun q =>
    s.fget (F.WPL_STATUS_STATE q) == 5 && s.fget (F.WPL_STATUS_CAUSE q) == 5).length
  if cause = 5 ∧ 2 ≤ n ∧ s.flag F.WPL_DISC_STATUS_STRAP_CONFLICT = false then
    (s.setFlag F.WPL_DISC_STATUS_STRAP_CONFLICT true).discovery p 5
  else s

/-- Whether a port holds a quarantine that only REJUDGE has judged again: AUTH, ENC or OPERATOR (R242). -/
def State.heldQuar (s : State) (p : Nat) : Bool :=
  s.fget (F.WPL_STATUS_STATE p) == 5 && decide (11 ≤ s.fget (F.WPL_STATUS_CAUSE p)) && !(s.port p).afresh

/-! ## Judging a hello (R242, R243) -/

/-- Whether entry `i` matches a hello, apart from LPORT and GENMIN (R241). -/
def State.nbrMatch (s : State) (i : Nat) (h : Hello) : Bool :=
  let w := s.nbrW i 0
  let kind := (s.nbrW i 1).toNat / 2 ^ 30
  let rid := w.toNat % 2 ^ 16
  w.getLsbD 31 && kind == h.kind.toNat &&
    (if w.getLsbD 28 && kind == 1 then rid / 16 == h.id.toNat / 16 else rid == h.id.toNat) &&
    (w.getLsbD 30 || w.toNat / 2 ^ 16 % 256 == h.port.toNat) &&
    (w.getLsbD 29 || (s.nbrW i 3 ++ s.nbrW i 2) == h.serial)

/-- The local port of an entry. -/
def State.nbrPort (s : State) (i : Nat) : Nat := (s.nbrW i 0).toNat / 2 ^ 24 % 16

/-- The lowest generation an entry accepts. -/
def State.nbrGen (s : State) (i : Nat) : Nat := (s.nbrW i 1).toNat / 2 ^ 28 % 4

/-- The matching entries of a hello. -/
def State.matches (s : State) (h : Hello) : List Nat := (List.range 64).filter fun i => s.nbrMatch i h

/-- What rules 1 to 8 make of a hello (R242): quarantine with a cause, a swap candidate for a port, or on to rule 9,
with whether rule 4 or rule 7 let it pass. -/
inductive Verdict where
  | quar (cause : Nat)
  | swap (q : Nat) (warn4 : Bool)
  | go (warn4 warn7 : Bool)
  deriving DecidableEq, Repr

/-- Whether the straps contradict a hello (R242 rule 5, R227). -/
def State.strapBad (s : State) (h : Hello) : Bool :=
  let own := s.fget F.WPL_STRAP_ID
  let id := h.id.toNat
  if h.kind = 0 then
    id / 8 == own / 8 && decide (h.port.toNat ≤ 6) && (id % 8 + h.port.toNat + 1) % 8 != own % 8
  else h.kind == 1 && id / 128 != own / 128

/-- Whether rule 4 of R242 speaks of a hello: a package's build outside the window. -/
def State.warn4 (s : State) (h : Hello) : Bool :=
  h.kind == 0 && !(decide ((s.reg Reg.WPL_FW_MIN).toNat ≤ h.fw.toNat) && decide (h.fw.toNat ≤ (s.reg Reg.WPL_FW_MAX).toNat))

/-- Rules 1 to 8 of R242, and the row for no match (DEDUCED, log entry 59). -/
def State.judge (s : State) (p : Nat) (h : Hello) : Verdict :=
  let fw := Config.fwWord s.armDigest
  let rev := s.fget F.WPL_REV_REV
  let warn4 := s.warn4 h
  let ms := s.matches h
  let mine := ms.filter fun i => s.nbrPort i == p
  let gen := h.gen.toNat % 16
  if h.serial = s.serial then .quar 1
  else if h.rev.toNat + 1 < rev ∨ rev + 1 < h.rev.toNat then .quar 2
  else if h.kind = 0 ∧ h.fw >>> 24 ≠ fw >>> 24 then .quar 3
  else if warn4 ∧ s.adopt = false then .quar 4
  else if s.strapBad h then .quar 5
  else if mine.any (fun i => decide (s.nbrGen i ≤ gen)) then .go warn4 false
  else if mine ≠ [] then (if s.adopt then .go warn4 true else .quar 6)
  else match ms.head? with
    | some i => if s.adopt then .swap (s.nbrPort i) warn4 else .quar 7
    | none => .quar 7

/-- The port enters ACTIVE (R242, R244, R365): the negotiated revision is the lower, the coordinates may settle, waiting
traffic gets a route, and an encrypted port keys itself. -/
def State.goActive (s : State) (p : Nat) (h : Hello) : State :=
  let was := s.active p
  let s := (s.setPortState p 3).fset (F.WPL_STATUS_CAUSE p) 0
  let s := (s.fset (F.WPL_STATUS_REV p) (min h.rev.toNat (s.fget F.WPL_REV_REV))).settleId
  if was then s.pump p
  else
    let on := (s.port p).enc
    let s := (s.modPort p fun x => { x with keyed := false }).setFlag (F.WPL_STATUS_ENC p) false
    let s := if on then s.startKey p else s
    s.reroute.pump p

/-- Rules 9 to 11, with the ENC check of R238 before them; `warn4` and `warn7` say that the peer is accepted under rule 4
or 7, which sets FW_WARN and files a record when the port was not ACTIVE already. -/
def State.goOn (s : State) (p : Nat) (h : Hello) (warn4 warn7 : Bool) : State :=
  if h.flags.getLsbD 2 ≠ (s.port p).enc then s.quarantine p 11
  else if h.peer ≠ s.serial then
    if s.fget (F.WPL_STATUS_STATE p) = 3 ∨ s.fget (F.WPL_STATUS_STATE p) = 4 then s.enterDiscovery p true else s
  else
    let s := if (warn4 || warn7) && !s.active p then
        (s.setFlag F.WPL_DISC_STATUS_FW_WARN true).discovery p (if warn4 then 4 else 6) else s
    if h.fence ≠ s.fenceId then (s.leaveActive p 4).fset (F.WPL_STATUS_CAUSE p) 0
    else s.goActive p h

/-- Ends a swap of port `p` with its partner: both serve their own roles, and the partner is judged afresh. -/
def State.unswap (s : State) (p : Nat) : State :=
  match (s.port p).swap with
  | none => s
  | some q =>
    let s := s.modPort p fun x => { x with swap := none }
    if s.fget (F.WPL_STATUS_ROLE p) = q ∧ q ≠ p then
      (s.fset (F.WPL_STATUS_ROLE p) p).enterDiscovery q (s.port q).heard else s

/-- Whether ports p and q form a swap (R243), by their last hellos. -/
def State.swapHolds (s : State) (p q : Nat) (h : Hello) : Bool :=
  match (s.port q).lastHello with
  | none => false
  | some g => (s.port q).heard && s.linked q && (s.port q).swap == some p && p != q &&
      (s.matches g).any (fun i => s.nbrPort i == p) && g.peer == s.serial && h.peer == s.serial

/-- A hello judged (R242, R243). -/
def State.judged (s : State) (p : Nat) (h : Hello) : State :=
  match s.judge p h with
  | .quar c => (s.unswap p).quarantine p c
  | .go a b => (s.unswap p).goOn p h a b
  | .swap q a =>
    let s := if (s.port p).swap = some q then s else s.unswap p
    let back := s.fget (F.WPL_STATUS_STATE p) == 3 || s.fget (F.WPL_STATUS_STATE p) == 4
    let s := s.modPort p fun x => { x with swap := some q }
    if s.swapHolds p q h then
      let new := decide (s.fget (F.WPL_STATUS_ROLE p) ≠ q)
      let s := if new then
          (((s.fset (F.WPL_STATUS_ROLE p) q).fset (F.WPL_STATUS_ROLE q) p).setFlag
            F.WPL_DISC_STATUS_SWAPPED true).discovery p 7 else s
      let s := s.goOn p h a false
      match new, (s.port q).lastHello with
      | true, some g => s.goOn q g (s.warn4 g) false
      | _, _ => s
    else if back then (s.enterDiscovery p true).modPort p fun x => { x with swap := some q }
    else s

/-- HELLO (R240, R242, R245): the peer's fields are shown, a hello that does not echo the own serial is answered, an
ACTIVE port that hears a new serial returns to DISCOVERY, and the hello is judged unless the port's quarantine waits for
REJUDGE. -/
def execHello (p : Fin 12) (h : Hello) (s : State) : Host.Outcome State Fault Refusal :=
  let p := p.val
  .next (if s.linked p = false ∨ (s.port p).training then s
    else
      let s := s.takeFlits p 6 1
      let s := if s.active p ∧ (s.port p).peerSer ≠ h.serial then s.enterDiscovery p true else s
      let s := ((s.setReg (Reg.WPL_PEER_ID p) (BitVec.ofNat 32 (h.kind.toNat % 4 * 2 ^ 30 + h.port.toNat * 2 ^ 16 +
        h.id.toNat))).setReg (Reg.WPL_PEER_SER_LO p) (h.serial.truncate 32)).setReg (Reg.WPL_PEER_SER_HI p)
          ((h.serial >>> 32).truncate 32)
      let s := s.setReg (Reg.WPL_PEER_FW p) h.fw
      let s := s.modPort p fun x => { x with lastHello := some h, peerSer := h.serial, heard := true }
      let s := if h.peer ≠ s.serial then s.sendHello p else s
      if s.heldQuar p then s else (s.modPort p fun x => { x with afresh := false }).judged p h)

/-- HELLO_TIMER (R240). -/
def execHelloTimer (p : Fin 12) (s : State) : Host.Outcome State Fault Refusal := .next (s.sendHello p.val)

/-- DISCOVERY_SILENT (R242): no hello within 1 s of entering DISCOVERY. -/
def execDiscoverySilent (p : Fin 12) (s : State) : Host.Outcome State Fault Refusal :=
  .next (if s.fget (F.WPL_STATUS_STATE p.val) = 2 ∧ (s.port p.val).heard = false then s.quarantine p.val 9 else s)

/-- ONEWAY_TIMEOUT (R242 rule 9): 300 ms in DISCOVERY without the own serial in the peer's hello. -/
def execOnewayTimeout (p : Fin 12) (s : State) : Host.Outcome State Fault Refusal :=
  let p := p.val
  .next (match (s.port p).lastHello with
    | some h => if s.fget (F.WPL_STATUS_STATE p) = 2 ∧ (s.port p).heard ∧ h.peer ≠ s.serial ∧ (s.port p).swap = none
        then s.quarantine p 8 else s
    | none => s)

/-- SWAP_TIMEOUT (R243): a candidate without a partner for 1 s. -/
def execSwapTimeout (p : Fin 12) (s : State) : Host.Outcome State Fault Refusal :=
  let p := p.val
  .next (if s.fget (F.WPL_STATUS_STATE p) = 2 ∧ (s.port p).swap.isSome then
      (s.modPort p fun x => { x with swap := none }).quarantine p 7 else s)

/-- HELLO_LOST (R245): no hello for 350 ms. A port that has never heard one waits for SILENT. -/
def execHelloLost (p : Fin 12) (s : State) : Host.Outcome State Fault Refusal :=
  let p := p.val
  .next (if (s.port p).heard ∧ s.linked p ∧ s.fget (F.WPL_STATUS_STATE p) ≠ 5 then (s.unswap p).quarantine p 10 else s)

/-- What WPL_CTRL.REJUDGE does (R249). -/
def State.ctrlRejudge (s : State) (p : Nat) : State := s.modPort p fun x => { x with afresh := true }

/-- REJUDGE (R249). -/
def execRejudge (r : Req) (p : Fin 12) (s : State) : Host.Outcome State Fault Refusal :=
  .next (s.acting r (Reg.WPL_CTRL p.val) (ctrlBit 30) fun s => s.ctrlRejudge p.val)

/-- What WPL_CTRL.QUAR does (R249): a port with a link is quarantined. -/
def State.ctrlQuar (s : State) (p : Nat) : State := if s.linked p then (s.unswap p).quarantine p 13 else s

/-- QUAR (R249). -/
def execQuar (r : Req) (p : Fin 12) (s : State) : Host.Outcome State Fault Refusal :=
  .next (s.acting r (Reg.WPL_CTRL p.val) (ctrlBit 29) fun s => s.ctrlQuar p.val)

/-- A write of WPL_CTRL: each bit that is 1 starts its action (R249). -/
def State.writeCtrl (s : State) (p : Nat) (v : BitVec 32) : State :=
  let s := if v.getLsbD 28 then s.ctrlLaneClr p else s
  let s := if v.getLsbD 29 then s.ctrlQuar p else s
  let s := if v.getLsbD 30 then s.ctrlRejudge p else s
  if v.getLsbD 31 then s.ctrlRetrain p else s

/-- A write of WPL_CFG (R249): EN 0 holds the port in DOWN. -/
def State.writeCfg (s : State) (r : Req) (p : Nat) (v : BitVec 32) : State :=
  let s := s.plainWrite r (Reg.WPL_CFG p) v
  if s.flag (F.WPL_CFG_EN p) then s else s.portDown p 0

/-! ## Keys (R365) -/

/-- KEY_EXCHANGE (R365): a fragment that does not check quarantines the port with cause AUTH; the peer's certificate is
answered with finished, and the peer's finished puts the new key in force, the old one being held until a flit under the
new key authenticates (DESIGN CHOICE, log entry 61). -/
def execKeyExchange (p : Fin 12) (msg : BitVec 8) (idx : BitVec 16) (body : BitVec 96) (s : State) :
    Host.Outcome State Fault Refusal :=
  let p := p.val
  .next (if s.active p = false ∨ (s.port p).enc = false ∨ (s.port p).training ∨ 2 < msg.toNat then s
    else
      let s := s.takeFlits p 7 1
      let n := s.free
      if Config.shareOk (n + idx.toNat) body = false then ({ s with free := n + 1 } : State).quarantine p 12
      else if msg = 1 then s.post p (.key 2)
      else if msg = 2 then
        let s := { s with free := n + 1 }
        let s := s.modPort p fun x => { x with oldKey := if x.keyed then some x.keyId else none,
                                               keyed := true, keyId := Config.portKey n }
        (s.setFlag (F.WPL_STATUS_ENC p) true).pump p
      else s)

/-- REKEY (R365): a keyed port begins another exchange; the key in force stays until it ends. -/
def execRekey (p : Fin 12) (s : State) : Host.Outcome State Fault Refusal :=
  .next (if s.active p.val ∧ (s.port p.val).keyed then s.startKey p.val else s)

/-! ## Dropped flits (R231, R235, R238) -/

/-- An uncorrectable codeword: more than 32 within 1 ms start a retrain (R236). -/
def State.badCodeword (s : State) (p : Nat) : State :=
  let now := s.now
  let s := (s.fsat (F.WPL_FEC_UE_COUNT p) 1).modPort p fun x =>
    { x with ueAt := now :: x.ueAt.filter fun t => decide (now.toNat - t.toNat < 1000000) }
  if 32 < (s.port p).ueAt.length then s.startRetrain p else s

/-- FLIT_DROPPED: a flit that fails its CRC, its codeword, the order or authentication is dropped, counted, and a NAK
goes back; the sixteenth authentication failure within 1 s quarantines the port. -/
def execFlitDropped (p : Fin 12) (c : DropCause) (s : State) : Host.Outcome State Fault Refusal :=
  let p := p.val
  .next (if s.linked p = false ∨ (s.port p).training then s
    else
      let s := s.dropFlit p
      match c with
      | .crc => s.fsat (F.WPL_ERR_CRC p) 1
      | .fec => s.badCodeword p
      | .order => s
      | .auth =>
        let now := s.now
        let s := (s.fsat (F.WPL_ERR_AUTH p) 1).modPort p fun x =>
          { x with authAt := now :: x.authAt.filter fun t => decide (now.toNat - t.toNat < 1000000000) }
        if (s.port p).authAt.length ≥ 16 then s.quarantine p 12 else s)

end Sys2Proof.Machine
end

