-- ==== Sys2Proof/Machine/Dump.lean ====
section
/-! DEFINITION. Crash dumps (R347) and the RECOVERY records (R342 to R346). -/
namespace Sys2Proof.Machine

/-- The slot a new dump goes to: one not flagged NEW, the older of two flagged. Of two not flagged, the older (R347)
(DEDUCED, log entry 65). -/
def State.dumpSlot (s : State) : Nat :=
  let n (k : Nat) : Nat := match lookup s.dumps k with
    | some d => d.n + 1
    | none => 0
  match s.flag F.TST_DUMP_NEW0, s.flag F.TST_DUMP_NEW1 with
  | false, true => 0
  | true, false => 1
  | _, _ => if n 1 < n 0 then 1 else 0

/-- Writes a crash dump (R347): the timebase, the registers with the contexts and waiters they show, the last 256 fault
records, the capture slots, the queue states and the hang graph; the host is interrupted (R393). -/
def State.dump (s : State) (cause : Nat) (hang : List (Nat × Nat)) : State :=
  let k := s.dumpSlot
  let new : Fld := if k = 0 then F.TST_DUMP_NEW0 else F.TST_DUMP_NEW1
  let d : Dump := { n := s.fget F.TST_DUMP_DUMPS, cause := cause, time := s.now, regs := s.regs,
                    recs := s.ring.drop (s.ring.length - 256), caps := s.caps, queues := s.cqs,
                    ctxs := s.ctxs, semq := s.semq, hang := hang }
  let s := if s.flag new then s.fsat F.TST_DUMP_LOST 1 else s
  let s := ({ s with dumps := upsert s.dumps k d } : State).fsat F.TST_DUMP_DUMPS 1
  ((s.setFlag new true).fset F.TST_DUMP_CAUSE cause).irq 18

/-- TAKE (R347, R350): a write of 1 to TST_DUMP.TAKE takes a dump. -/
def execTakeDump (r : Req) (s : State) : Host.Outcome State Fault Refusal :=
  .next (s.acting r Reg.TST_DUMP 0x20000000 fun s => s.dump 7 [])

/-- A RECOVERY record for a unit (R320 class 0x12); its signature says what happened: 1 hang, 2 reset, 3 quarantine,
4 out of service, 5 retirement, 6 firmware fallback (DESIGN CHOICE, log entry 43). -/
def State.recovery (s : State) (unit : BitVec 32) (what : Nat) : State :=
  s.event 0x12 unit (BitVec.ofNat 32 what) 0 0

/-- The package declares itself out of service (R346, R388): OOS, a dump, and FAULT_N held low from the end of the pulse
in progress. -/
def State.outOfService (s : State) : State :=
  if s.flag F.TST_STATUS_OOS then s
  else
    let s := ((s.setFlag F.TST_STATUS_OOS true).recovery 0xE0000000 4).dump 6 []
    if s.fget F.PLN_FAULTN_ACTIVE = 0 then s.setFlag F.PLN_FAULTN_HELD true else s

end Sys2Proof.Machine
end

