-- ==== Sys2Proof/Machine/CapRun.lean ====
section
/-! DEFINITION. The run of a test capsule on an engine (R337, R338). -/
namespace Sys2Proof.Machine

/-- Bytes of a capsule pair: the TMAC word, then two tiles with their side-bands (R337). -/
def capPair : Nat := 8 + 2 * (2048 + 64)

/-- Places an operand of a capsule in a tile register, with the tag its TMAC asks for. -/
def State.capTile (s : State) (e t fmt : Nat) (o : List (BitVec 8)) : State :=
  ((s.setTag (tk e t) { fmt := BitVec.ofNat 3 fmt, full := true }).putTile e t 0 ((o.take 2048).map (·.toNat))).putSide e t 0
    (((o.drop 2048).take 64).map (·.toNat))

/-- The pairs of a capsule in order, the first from an overwrite (R338); none where a check of R103 refuses one. -/
def State.capPairs (s : State) (e a : Nat) (first : Bool) (o : List (BitVec 8)) : Nat → Option State
  | 0 => some s
  | n + 1 =>
    let ow : BitVec 64 := 1 <<< 53
    let w := BitVec.ofNat 64 (fieldOf o 0 8)
    let w := if first then w ||| ow else w &&& ~~~ow
    let s := (s.capTile e (tmRegA w 0) (tmFMTA w) ((o.drop 8).take 2112)).capTile e (tmRegB w 0) (tmFMTB w)
      ((o.drop 2120).take 2112)
    if opc w ≠ opTMAC ∨ legalTMAC w = false ∨ tmACC w ≠ a ∨ (s.tmacStart e w).isSome ∨ (s.pairCheck e w 0).isSome then none
    else (s.addPair e w 0).capPairs e a false (o.drop capPair) n

/-- Whether a capsule run on engine `e` ends with the image the capsule expects, bit for bit (R337, R338). -/
def State.capMatches (s : State) (e : Nat) (z : Capsule) : Bool :=
  let n := fieldOf z.bytes 12 16
  let pairs := z.bytes.drop 64
  let a := tmACC (BitVec.ofNat 64 (fieldOf pairs 0 8))
  let expect := (pairs.drop (n * capPair)).take 16448
  n != 0 && expect.length == 16448 &&
    (match s.capPairs e a true pairs n with
     | none => false
     | some t => (t.imageWords e a).flatMap (fun w => wordBytes w.v) == expect)

end Sys2Proof.Machine
end

