-- ==== Sys2Proof/Machine/Loupe.lean ====
section
/-! DEFINITION. Loupe (R117 to R119, R325 to R328) and the window onto the fault ring, the history, the Loupe table and
the advisory ring (R329). -/
namespace Sys2Proof.Machine

/-! ## The Loupe table (R326) -/

/-- Word `j` of Loupe entry `i`. -/
def State.lpW (s : State) (i j : Nat) : BitVec 32 := Sparse.get (fun _ => 0) s.lpTab (16 * i + j)

/-- Writes word `j` of entry `i`, with good check bits (R185). -/
def State.setLpW (s : State) (i j : Nat) (v : BitVec 32) : State :=
  { s with lpTab := Sparse.set (fun _ => 0) s.lpTab (16 * i + j) v, lpEcc := Sparse.set (fun _ => 0) s.lpEcc (16 * i + j) 0 }

/-- What a read of words of the Loupe table or, with `adv`, of the advisory ring does where they do not read good (R185, R186,
R317): a single bit is corrected in place, and what is recorded is charged to the fault block (R319). -/
def State.checkFlt (s : State) (adv : Bool) (ks : List Nat) : State :=
  ks.foldl (fun s k =>
    let y := Sparse.get (fun _ => 0) (if adv then s.advEcc else s.lpEcc) k
    let s := if adv then
        let (v, z) := fixWord ((lookup s.advRing k).getD 0) y
        { s with advRing := upsert s.advRing k v, advEcc := Sparse.set (fun _ => 0) s.advEcc k z }
      else
        let (m, z) := fixTab s.lpTab s.lpEcc k
        { s with lpTab := m, lpEcc := z }
    s.noteWord (eccKey (if adv then 6 else 5) k) y { unit := blockUnit 10, sig := wordSig (4 * k) y }) s

/-- A read of the whole Loupe table. -/
def State.checkLoupe (s : State) : State := s.checkFlt false (s.lpEcc.map (·.1))

/-- The words of a window entry that do not read good: of target 2 the Loupe table's, of 3 the advisory ring's. -/
def State.fltBad (s : State) (tgt i : Nat) : List Nat :=
  if tgt = 2 then badOf s.lpEcc 16 i else if tgt = 3 then badOf s.advEcc 4 i else []

/-- Bits [hi:lo] of word `j` of an entry. -/
def State.lpF (s : State) (i j hi lo : Nat) : Nat := (s.lpW i j).toNat / 2 ^ lo % 2 ^ (hi + 1 - lo)

/-- Writes bits [hi:lo] of word `j` of an entry, saturating. -/
def State.setLpF (s : State) (i j hi lo v : Nat) : State :=
  let m := 2 ^ (hi + 1 - lo) - 1
  s.setLpW i j ((s.lpW i j &&& ~~~(BitVec.ofNat 32 m <<< lo)) ||| (BitVec.ofNat 32 (min m v) <<< lo))

/-- Whether an entry is in use (R326); one with a word that reads as poison is not (DESIGN CHOICE, log entry 116). -/
def State.lpValid (s : State) (i : Nat) : Bool := s.lpF i 8 16 16 == 1 && !poisonOf s.lpEcc 16 i

/-- The VALID entry of a tensor id. -/
def State.lpOf (s : State) (tag : Nat) : Option Nat :=
  (List.range 256).find? fun i => s.lpValid i && s.lpF i 8 15 0 == tag

/-- The bin of an element, from the narrow result and Loupe's (R325); none for a non-finite one. -/
def binOf (n l : BitVec 16) : Option Nat :=
  match bf16.decode n.toNat, bf16.decode l.toNat with
  | .fin a x c e, .fin b y d f =>
    if y = 0 then some (if x = 0 then 15 else 0)
    else match (Num.fin a x c e).add (.fin (!b) y d f) with
      | .fin _ z g h =>
        if z = 0 then some 15
        else
          let (N, D) := frac z g h
          let (M, G) := frac y d f
          some (((List.range 16).filter fun k => decide (N * G * 2 ^ k ≤ D * M)).length - 1)
      | _ => none
  | _, _ => none

/-- One element filed in entry `i` (R325, R326). -/
def State.lpFile (s : State) (i : Nat) (p : BitVec 16 × BitVec 16) : State :=
  match binOf p.1 p.2 with
  | none => s.setLpF i 9 31 16 (s.lpF i 9 31 16 + 1)
  | some k =>
    let s := s.setLpF i (k / 2) (16 * (k % 2) + 15) (16 * (k % 2)) (s.lpF i (k / 2) (16 * (k % 2) + 15) (16 * (k % 2)) + 1)
    let s := s.setLpF i 10 31 0 (s.lpF i 10 31 0 + 1)
    if k ≤ s.lpF i 8 31 24 then s.setLpF i 11 31 0 (s.lpF i 11 31 0 + 1) else s

/-- Raises the advisory of entry `i` (R327): the ring's next entry holds tensor id and T, the step, SC and SN (DESIGN
CHOICE, log entry 29). -/
def State.advise (s : State) (i : Nat) : State :=
  let t := s.fget F.FLT_LP_ADV_TAIL_INDEX
  let full := (lookup s.advRing (4 * t)).isSome
  let ws := [BitVec.ofNat 32 (s.lpF i 8 31 24 * 2 ^ 16 + s.lpF i 8 15 0), s.reg Reg.SCT_STEP, s.lpW i 11, s.lpW i 10]
  let ring := (ws.mapIdx fun j w => (4 * t + j, w)).foldl (fun m p => upsert m p.1 p.2) s.advRing
  let good := (List.range 4).foldl (fun z j => Sparse.set (fun _ => 0) z (4 * t + j) 0) s.advEcc
  let s := { s with advRing := ring, advEcc := good }
  let s := (s.fset F.FLT_LP_ADV_TAIL_INDEX ((t + 1) % 256)).fsat F.FLT_LP_ADVISORIES 1
  let s := if full then s.fsat F.FLT_LP_ADV_LOST 1 else s
  let s := s.setLpF i 8 17 17 1
  if s.flag F.FLT_CFG_IRQ_ADV then s.irq 17 else s

/-- Judges one entry at a STEP, and clears SN and SC (R327). -/
def State.lpJudge (s : State) (i : Nat) : State :=
  let sn := s.lpF i 10 31 0
  let s := if s.lpValid i && decide (1024 ≤ sn) && decide (s.lpF i 9 15 0 * sn < s.lpF i 11 31 0 * 2 ^ 16) then s.advise i
    else s
  (s.setLpW i 10 0).setLpW i 11 0

/-- The judgement of every entry at a STEP (R327). -/
def State.loupeJudge (s : State) : State := (List.range 256).foldl State.lpJudge s.checkLoupe

/-! ## Sampling (R118, R119, R325, R328) -/

/-- LOUPE_AUTO_ARM (R119): Loupe arms a chain itself, unless it is busy, the engine is held or a sag level suspends
sampling (R304). -/
def execLoupeAutoArm (e : Pos) (acc : Fin 8) (tag : BitVec 16) (s : State) : Host.Outcome State Fault Refusal :=
  let l := s.loupe e.clu
  .next (if l.armed.isSome || (s.eng e.key).loupeHold || !s.sampling then s
    else s.setLoupe e.clu { l with armed := some (e.key, acc.val, tag.toNat) })

/-- LOUPE_HOLD_EXPIRY (R119). -/
def execLoupeHoldExpiry (e : Pos) (s : State) : Host.Outcome State Fault Refusal :=
  .next (s.modEng e.key fun x => { x with loupeHold := false })

/-- Whether a fault of Loupe's own checker array stands: a CHECKER fault of the cluster has been judged PERMANENT (R328;
DEDUCED, log entry 30). -/
def State.checkerStands (s : State) (u : Nat) : Bool :=
  s.hist.any fun h => h.cls == 6 && h.unit == cluUnit u && h.disp == 2

/-- LOUPE_CHAIN_DONE (R118, R119, R304, R325): the finished chain's elements are filed under its TAG, and the queued
request, if any, is armed. While sampling is suspended the chain waits. `pairs` are the elements, narrow and recomputed,
that the chain has given; any other list is no event. -/
def execLoupeChainDone (u : Clu) (pairs : List (BitVec 16 × BitVec 16)) (s : State) : Host.Outcome State Fault Refusal :=
  let l := s.loupe u.key
  .next (match l.sample with
    | none => s
    | some (tag, ps) =>
      if !s.sampling ∨ pairs ≠ ps then s
      else
        let s := s.setLoupe u.key (Loupe.armNext { l with armed := none, sample := none, broken := false } s.sampling)
        if s.checkerStands u.key then s
        else
          let s := s.checkLoupe
          match s.lpOf tag with
          | none => s.fsat F.FLT_LP_UNMATCHED 1
          | some i => pairs.foldl (fun s p => s.lpFile i p) s)

/-! ## The window (R329) -/

/-- The eight words of a history entry (R322). -/
def Hist.words (h : Hist) : List (BitVec 32) :=
  [h.unit, h.sig, h.t1, h.t2, h.t3, h.flags ++ h.disp ++ h.count, h.first, 0]

/-- Writes the window's data registers, words beyond the entry reading 0. -/
def State.putFlt (s : State) (ws : List (BitVec 32)) : State :=
  (List.range 16).foldl (fun s k => s.setReg (Reg.FLT_WIN_DATA k) (ws.getD k 0)) s

/-- What a window read of a target finds; none for an overwritten record or an index out of range. -/
def State.fltRead (s : State) (tgt i : Nat) : Option (List (BitVec 32)) :=
  if tgt = 0 then
    (lookup s.ring ((s.reg Reg.FLT_LAST_RSEQ).toNat / 2 ^ 28 * 2 ^ 28 + i)).map FRec.words
  else if tgt = 1 then
    (if i < 4096 then some ((s.hist[i]?.map Hist.words).getD []) else none)
  else if tgt = 2 then (if i < 256 then some ((List.range 16).map (s.lpW i)) else none)
  else if i < 256 then some ((List.range 4).map fun j => (lookup s.advRing (4 * i + j)).getD 0)
  else none

/-- A window command (R51, R329): 1 reads, 2 writes and 3 clears a Loupe entry; on completion SEQ counts. -/
def State.fltCmd (s : State) (op tgt i : Nat) : State :=
  let s := ((s.fset F.FLT_WIN_CMD_OP op).fset F.FLT_WIN_CMD_TGT tgt).fset F.FLT_WIN_CMD_INDEX i
  let fin (s : State) (err : Bool) : State := (s.setFlag F.FLT_WIN_STATUS_ERR err).fwrap F.FLT_WIN_STATUS_SEQ 1
  if op = 1 then
    let s := s.checkFlt (tgt == 3) (s.fltBad tgt i)
    match s.fltRead tgt i with
    | some ws => fin (s.putFlt ws) false
    | none => fin s true
  else if tgt ≠ 2 ∨ 256 ≤ i then fin s true
  else if op = 2 then
    fin ((List.range 12).foldl (fun s k => s.setLpW i k (s.reg (Reg.FLT_WIN_DATA k))) s) false
  else
    let s := (List.range 8).foldl (fun s k => s.setLpW i k 0) (s.checkFlt false (s.fltBad 2 i))
    fin ((s.setLpF i 9 31 16 0).setLpF i 8 17 17 0) false

/-- The register value that names a window command. -/
def fltWord (op tgt : Nat) (i : BitVec 28) : BitVec 32 := BitVec.ofNat 32 (op * 2 ^ 30 + tgt * 2 ^ 28 + i.toNat)

/-- FAULT_WIN_READ (R329). -/
def execFaultWinRead (r : Req) (tgt : Fin 4) (i : BitVec 28) (s : State) : Host.Outcome State Fault Refusal :=
  .next (s.acting r Reg.FLT_WIN_CMD (fltWord 1 tgt i) fun s => s.fltCmd 1 tgt i.toNat)

/-- LOUPE_ENTRY_WRITE (R329). -/
def execLoupeEntryWrite (r : Req) (i : BitVec 28) (s : State) : Host.Outcome State Fault Refusal :=
  .next (s.acting r Reg.FLT_WIN_CMD (fltWord 2 2 i) fun s => s.fltCmd 2 2 i.toNat)

/-- LOUPE_ENTRY_CLEAR (R329). -/
def execLoupeEntryClear (r : Req) (i : BitVec 28) (s : State) : Host.Outcome State Fault Refusal :=
  .next (s.acting r Reg.FLT_WIN_CMD (fltWord 3 2 i) fun s => s.fltCmd 3 2 i.toNat)

end Sys2Proof.Machine
end

