-- ==== Sys2Proof/Machine/Float.lean ====
section
/-! DEFINITION. The Rifflers' arithmetic: binary32 operations, each correctly rounded to nearest even (R212), and dot
products in long accumulators of the 16-bit class (R71, R216). -/
namespace Sys2Proof.Machine

/-- One rounding to binary32 (R212). A finite result above range saturates: no unit forms an infinity from finite
operands (R31, R36; DEDUCED, log entry 25). -/
def r32 (x : Num) : Num := binary32.decode (binary32.conv .even x).code

/-- The exact quotient, with the values IEEE 754 gives the special operands. -/
def Num.div : Num → Num → Num
  | .nan, _ => .nan
  | _, .nan => .nan
  | .inf _, .inf _ => .nan
  | .inf a, .fin t _ _ _ => .inf (a != t)
  | .fin s _ _ _, .inf b => .fin (s != b) 0 1 0
  | .fin s n d e, .fin t m c f =>
    if m = 0 then (if n = 0 then .nan else .inf (s != t)) else .fin (s != t) (n * c) (d * m) (e - f)

/-- The square root to at least 39 bits, an inexact one with a sticky bit below: rounded to binary32 it is correct. -/
def Num.sqrt : Num → Num
  | .nan => .nan
  | .inf b => if b then .nan else .inf false
  | .fin s n d e =>
    if n = 0 then .fin s 0 1 0
    else if s then .nan
    else
      let (N, D) := frac n d e
      let k := 40 + Nat.log2 D
      let v := N * 4 ^ k / D
      let r := isqrt v
      .fin false (2 * r + (if r * r * D = N * 4 ^ k then 0 else 1)) 1 (-(k + 1 : Nat))

def fmul (x y : Num) : Num := r32 (x.mul y)
def fadd (x y : Num) : Num := r32 (x.add y)
def fsub (x y : Num) : Num := r32 (x.add y.negate)
def fdiv (x y : Num) : Num := r32 (x.div y)
def fsqrt (x : Num) : Num := r32 x.sqrt

/-- 1 as a number. -/
def Num.one : Num := .fin false 1 1 0

/-- +0 as a number. -/
def Num.zero : Num := .fin false 0 1 0

/-- A binary32 word as a number. -/
def f32 (w : BitVec 32) : Num := binary32.decode w.toNat

/-- The binary32 code of a number. -/
def f32code (x : Num) : BitVec 32 := BitVec.ofNat 32 (binary32.conv .even x).code

/-- pw(x, n): x raised to n by square-and-multiply from the most significant bit of n, each product rounded (R212). -/
def pw (x : Num) (n : Nat) : Num :=
  (List.range (Nat.log2 n + 1)).reverse.foldl
    (fun r i => let q := fmul r r; if n.testBit i then fmul q x else q) .one

/-- A BF16 element with its poison. -/
abbrev PEl := BitVec 16 × Bool

/-- A sum of BF16 products added in order to a long accumulator of the 16-bit class (R67, R71), with the products'
poison. -/
def dot (x : El) (ps : List (PEl × PEl)) : El :=
  ps.foldl (fun x p =>
    let y := x.step false ((bf16.decode p.1.1.toNat).mul (bf16.decode p.2.1.toNat)) 0
    { y with poison := x.poison || p.1.2 || p.2.2 }) x

/-- A number rounded once to BF16 at nearest even. -/
def toBf (x : Num) : BitVec 16 := BitVec.ofNat 16 (bf16.conv .even x).code

/-- An element of a row-major B × B matrix. -/
def mat (b : Nat) (m : List PEl) (i j : Nat) : PEl := m.getD (i * b + j) (0, false)

/-- The row-major matrix of a function. -/
def matOf {α : Type} (b : Nat) (f : Nat → Nat → α) : List α :=
  (List.range b).flatMap fun i => (List.range b).map fun j => f i j

end Sys2Proof.Machine
end

