-- ==== Sys2Proof/Machine/Update.lean ====
section
/-! DEFINITION. The parameter update of one chunk (R207 to R216): the entry and rule fields, units, copies and
addresses, moments, sparse rows, preconditioners, and everything a serving Riffler sends to memory. -/
namespace Sys2Proof.Machine

/-! ## Entries and rule sets (R210, R211) -/

/-- An update-list entry as read: eight little-endian 64-bit words. -/
abbrev Ent := List (BitVec 64)

def Ent.b (e : Ent) (k hi lo : Nat) : Nat := bits64 (e.getD k 0) hi lo
def Ent.w (e : Ent) : Nat := Ent.b e 0 47 0
def Ent.g (e : Ent) : Nat := Ent.b e 1 47 0
def Ent.tensor (e : Ent) : Nat := Ent.b e 2 63 48
def Ent.nel (e : Ent) : Nat := Ent.b e 2 47 0
def Ent.idx0 (e : Ent) : Nat := Ent.b e 3 47 0
def Ent.mom (e : Ent) : Nat := Ent.b e 4 37 0
def Ent.aux (e : Ent) : Nat := Ent.b e 5 47 0
def Ent.scols (e : Ent) : Nat := Ent.b e 6 31 0
def Ent.rset (e : Ent) : Nat := Ent.b e 6 39 37
def Ent.sparse (e : Ent) : Bool := Ent.b e 6 36 36 == 1
def Ent.precond (e : Ent) : Bool := Ent.b e 6 35 35 == 1
def Ent.proot (e : Ent) : Bool := Ent.b e 6 34 34 == 1
def Ent.sweep (e : Ent) : Bool := Ent.b e 6 33 33 == 1
def Ent.blog (e : Ent) : Nat := Ent.b e 6 43 40
def Ent.tcols (e : Ent) : Nat := Ent.b e 7 47 0

/-- ROWS: NEL / SCOLS (R210). -/
def Ent.rows (e : Ent) : Nat := Ent.nel e / Ent.scols e

/-- B of a PRECOND entry. -/
def Ent.dim (e : Ent) : Nat := 2 ^ Ent.blog e

/-- Whether an entry is well formed (R210): no reserved bit, aligned addresses, and the fields' ranges (DEDUCED, log entry
80). -/
def Ent.ok (e : Ent) : Bool :=
  Ent.b e 0 63 48 == 0 && Ent.b e 1 63 48 == 0 && Ent.b e 3 63 48 == 0 && Ent.b e 4 63 38 == 0 &&
  Ent.b e 5 63 48 == 0 && Ent.b e 6 32 32 == 0 && Ent.b e 6 63 44 == 0 && Ent.b e 7 63 48 == 0 &&
  Ent.w e % 64 == 0 && Ent.g e % 64 == 0 && Ent.mom e % 64 == 0 && !(Ent.sparse e && Ent.precond e) &&
  Ent.scols e != 0 && Ent.nel e % max 1 (Ent.scols e) == 0 &&
  (if Ent.sparse e then (List.range 8).any (fun i => Ent.scols e == 2 ^ (i + 5)) else true) &&
  (if Ent.precond e then
    decide (7 ≤ Ent.blog e) && decide (Ent.blog e ≤ 11) && Ent.rows e % Ent.dim e == 0 &&
      Ent.scols e % Ent.dim e == 0 && Ent.aux e % 64 == 0
   else Ent.blog e == 0 && (Ent.sparse e || Ent.aux e == 0))

/-- A named rule set as read: sixteen 32-bit words. -/
abbrev Rule := List (BitVec 32)

def Rule.f (r : Rule) (k : Nat) : Num := f32 (r.getD k 0)
def Rule.n (r : Rule) (k hi lo : Nat) : Nat := (r.getD k 0).toNat / 2 ^ lo % 2 ^ (hi + 1 - lo)
def Rule.lrslot (r : Rule) : Nat := Rule.n r 6 3 0
def Rule.nsit (r : Rule) : Nat := Rule.n r 6 15 8
def Rule.period (r : Rule) : Nat := Rule.n r 6 31 16
def Rule.t0 (r : Rule) : Nat := (r.getD 7 0).toNat
def Rule.delay (r : Rule) : Nat := Rule.n r 10 15 0

/-- Whether every reserved bit of a rule set is 0 (R210, R211). -/
def Rule.ok (r : Rule) : Bool := Rule.n r 6 7 4 == 0 && Rule.n r 10 31 16 == 0 && (r.drop 11).all (· == 0)

/-- Whether `x` is at least 0. -/
def Num.nonneg (x : Num) : Bool := x != .nan && (x.isZero || !x.isNeg)

/-- Whether a rule set's values lie in their ranges (R211). -/
def Rule.inRange (r : Rule) : Bool :=
  (Rule.f r 0).nonneg && (Rule.f r 0).lt .one && (Rule.f r 1).nonneg && (Rule.f r 1).lt .one &&
  (Rule.f r 2).finite && (Rule.f r 2).nonneg && !(Rule.f r 2).isZero &&
  (Rule.f r 3).finite && (Rule.f r 3).nonneg && (Rule.f r 4).nonneg && !(Rule.f r 4).isZero && (Rule.f r 5).finite &&
  decide (4 ≤ Rule.nsit r) && decide (Rule.nsit r ≤ 32) && decide (1 ≤ Rule.period r) &&
  (Rule.f r 8).nonneg && !(Num.one.lt (Rule.f r 8)) && (Rule.f r 9).finite && (Rule.f r 9).nonneg &&
  decide (1 ≤ Rule.delay r) && decide (Rule.delay r ≤ Rule.period r)

/-! ## Units, chunks and copies (R205, R207 to R209) -/

/-- Units of an entry. -/
def Ent.units (e : Ent) : Nat :=
  if Ent.precond e then Ent.nel e / (Ent.dim e * Ent.dim e) else (Ent.nel e + 4095) / 4096

/-- Chunks per unit. -/
def Ent.cpu (e : Ent) : Nat := if Ent.precond e then Ent.dim e * Ent.dim e / 4096 else 1

/-- The home Riffler of a unit. -/
def homeOf (u : Nat) : Nat := u % 4

/-- The alternate Riffler of a unit. -/
def altOf (u : Nat) : Nat := (u % 4 + 1 + u / 4 % 3) % 4

/-- part(n) (R205). -/
def part (n : Nat) : Nat := 0x10000000000 + n * 0x4000000000

/-- Bytes of a chunk record (R209). -/
def Ent.chb (e : Ent) : Nat := if Ent.sparse e then 8768 else 8512

/-- The address of a unit's chunk record: its home copy or its other copy (R208). -/
def Ent.rec (e : Ent) (u c : Nat) (home : Bool) : Nat :=
  let q := (Ent.units e + 3) / 4
  if home then part (homeOf u) + Ent.mom e + (u / 4 * Ent.cpu e + c) * Ent.chb e
  else part (altOf u) + Ent.mom e + (q * Ent.cpu e + u / 4 * Ent.cpu e + c) * Ent.chb e

/-- Bytes of a factor area (R216). -/
def areaSize (b : Nat) : Nat := 64 + 8 * b * b

/-- The address of a unit's factor area on its home or its alternate (R216). -/
def areaAt (pre b nu u : Nat) (home : Bool) : Nat :=
  if home then part (homeOf u) + pre + u / 4 * areaSize b
  else part (altOf u) + pre + ((nu + 3) / 4 + u / 4) * areaSize b

/-- A run of consecutive shard elements of a chunk: the first element's place in the chunk and in the shard, the
length, and for each run what happens to it: nothing, or an update (`true`: with gradients) with its k (R213). -/
structure Run where
  x : Nat
  e : Nat
  len : Nat
  act : Option (Bool × Nat)
  deriving DecidableEq, Repr

/-- Elements of a chunk. -/
def Ent.len (e : Ent) (u : Nat) : Nat := if Ent.precond e then 4096 else min 4096 (Ent.nel e - 4096 * u)

/-- The runs of a chunk (R207): `touch` says what happens to a shard row. -/
def Ent.runs (e : Ent) (u c : Nat) (touch : Nat → Nat → Option (Bool × Nat)) : List Run :=
  if Ent.precond e then
    let b := Ent.dim e
    let i := u / (Ent.scols e / b)
    let j := u % (Ent.scols e / b)
    (List.range (4096 / b)).map fun r =>
      ⟨r * b, (i * b + c * (4096 / b) + r) * Ent.scols e + j * b, b, some (true, 1)⟩
  else if Ent.sparse e then
    let n := 4096 / Ent.scols e
    (List.range (Ent.len e u / Ent.scols e)).map fun r =>
      ⟨r * Ent.scols e, (u * n + r) * Ent.scols e, Ent.scols e, touch (u * n + r) r⟩
  else [⟨0, 4096 * u, Ent.len e u, some (true, 1)⟩]

/-- The element index of a shard element in the whole tensor (R212). -/
def Ent.index (e : Ent) (i : Nat) : BitVec 48 :=
  BitVec.ofNat 48 (Ent.idx0 e + i / Ent.scols e * Ent.tcols e + i % Ent.scols e)

/-! ## Words and bytes of a record -/

/-- A byte of a list of words, with its word's poison. -/
def recByte (ws : List MWord) (o : Nat) : Nat × Bool :=
  let w := ws.getD (o / 4) ⟨0, false⟩
  (w.v.toNat / 2 ^ (8 * (o % 4)) % 256, w.p)

/-- A BF16 element of a list of words. -/
def recHalf (ws : List MWord) (i : Nat) : PEl :=
  let w := ws.getD (i / 2) ⟨0, false⟩
  (BitVec.ofNat 16 (w.v.toNat / 2 ^ (16 * (i % 2))), w.p)

/-- Words with bytes replaced, the bytes in rising order of offset: a word all of whose bytes are replaced takes their
poison, another keeps its own too. -/
def overlay : Nat → List MWord → List (Nat × BitVec 8 × Bool) → List MWord
  | _, [], _ => []
  | o, w :: ws, bs =>
    let (now, later) := bs.span fun b => b.1 < o + 4
    let v := now.foldl (fun (v : BitVec 32) b =>
      let sh := 8 * (b.1 % 4)
      (v &&& ~~~((0xFF : BitVec 32) <<< sh)) ||| (BitVec.ofNat 32 b.2.1.toNat <<< sh)) w.v
    ⟨v, now.any (·.2.2) || (w.p && now.length < 4)⟩ :: overlay (o + 4) ws later

/-- The two bytes of a 16-bit value at an offset. -/
def half (o : Nat) (v : BitVec 16) (p : Bool) : List (Nat × BitVec 8 × Bool) :=
  [(o, v.extractLsb' 0 8, p), (o + 1, v.extractLsb' 8 8, p)]

/-- Words at consecutive addresses. -/
def placed (a : Nat) (ws : List MWord) : List (Nat × MWord) := ws.mapIdx fun i w => (a + 4 * i, w)

/-- BF16 elements as words. -/
def bfWords : List PEl → List MWord
  | a :: b :: r => ⟨b.1 ++ a.1, a.2 || b.2⟩ :: bfWords r
  | [a] => [⟨0#16 ++ a.1, a.2⟩]
  | [] => []

/-! ## The chosen copy (R219, R220) -/

/-- The STAMP of a copy at an address, if the copy is VALID: its header is good, which that of a hole is not (DEDUCED, log
entry 26). -/
def State.stampAt (s : State) (n a : Nat) : Option Nat × State :=
  let (ws, s) := s.readN (.riffler n) s.pkgId a 2
  let h := ws.getD 1 poisonWord
  if ws.any (·.p) || !h.v.getLsbD 0 then (none, s) else (some (ws.getD 0 poisonWord).v.toNat, s)

/-- The copy a serving Riffler takes: the VALID one with the later STAMP, the home copy on a tie (R219 step 1): its
address and STAMP. -/
def State.choose (s : State) (n home alt : Nat) : Option (Nat × Nat) × State :=
  let (h, s) := s.stampAt n home
  let (a, s) := s.stampAt n alt
  (match h, a with
   | some x, some y => if x < y then some (alt, y) else some (home, x)
   | some x, none => some (home, x)
   | none, some y => some (alt, y)
   | none, none => none, s)

/-! ## Moments (R212 to R214) -/

/-- An element after its moments: its place in the chunk and in the shard, whether it has a gradient, f·g, the moments
as written, their codes, whether its inputs were poisoned, and what its moments count. -/
structure Mo where
  x : Nat
  e : Nat
  full : Bool
  g : Num
  cm : Nat
  cv : Nat
  m : Num
  v : Num
  p : Bool
  nonfin : Nat := 0
  sat : Nat := 0
  ufl : Nat := 0
  deriving DecidableEq, Repr

/-- A Riffler's rounding of a write (R35, R49, R50): purpose 1 a weight, 2 a first moment, 3 a second moment. -/
def Upd.rnd (u : Upd) (e : Ent) (purpose i : Nat) : Rnd :=
  if u.sr then .stoch (srDraw u.seed u.step (BitVec.ofNat 16 (Ent.tensor e)) (BitVec.ofNat 16 purpose) (Ent.index e i))
  else .even

/-- Offset of M1 in a record. -/
def Ent.o1 (e : Ent) : Nat := if Ent.sparse e then 320 else 64

/-- The moments of element `x` as a record holds them, with poison (R209). -/
def Ent.moments (e : Ent) (rec : List MWord) (x : Nat) : Num × Num × Bool :=
  let o := Ent.o1 e
  let (a, p) := recByte rec (o + x)
  let (sa, q) := recByte rec (o + 4096 + x / 32)
  let (b, r) := recByte rec (o + 4224 + x)
  let (sb, t) := recByte rec (o + 8320 + x / 32)
  (r32 ((e4m3.decode a).mul (e8m0 sa)), r32 ((zm8u.decode b).mul (e8m0 sb)), p || q || r || t)

/-- The moments of one block of at most 32 elements, `x` being the first one's place: the block's two scale codes and
its elements (R39, R212). `gr` gives an element's gradient when its row is touched; `f` is the clip factor. -/
def Upd.block (u : Upd) (e : Ent) (rule : Rule) (f : Num) (rec : List MWord) (rp : Bool) (k x i n : Nat)
    (gr : Nat → Option PEl) : Nat × Nat × List Mo :=
  let b1 := Rule.f rule 0
  let b2 := Rule.f rule 1
  let p1 := pw b1 k
  let p2 := pw b2 k
  let raw := (List.range n).map fun j =>
    let (m, v, p) := Ent.moments e rec (x + j)
    let (g0, gp, full) := match gr j with
      | some (c, p) => (bf16.decode c.toNat, p, true)
      | none => (.zero, false, false)
    let g := if g0.finite then (if full then fmul f g0 else .zero) else .zero
    let m := fadd (fmul p1 m) (fmul (fsub .one b1) g)
    let v := fadd (fmul p2 v) (fmul (fmul (fsub .one b2) g) g)
    (m, v, g, p || gp || rp, full, if g0.finite then 0 else 1)
  let (sm, ms) := blockConv e4m3 (fun j => u.rnd e 2 (i + j)) (raw.map (·.1))
  let (sv, vs) := blockConv zm8u (fun j => u.rnd e 3 (i + j)) (raw.map (·.2.1))
  let cnt (c : Cv) : Nat × Nat := (if c.sat then 1 else 0, if c.ufl then 1 else 0)
  (sm, sv, raw.mapIdx fun j r =>
    let cm := ms.getD j { code := 0 }
    let cv := vs.getD j { code := 0 }
    { x := x + j, e := i + j, full := r.2.2.2.2.1, g := r.2.2.1, cm := cm.code, cv := cv.code,
      m := r32 ((e4m3.decode cm.code).mul (e8m0 sm)), v := r32 ((zm8u.decode cv.code).mul (e8m0 sv)), p := r.2.2.2.1,
      nonfin := r.2.2.2.2.2, sat := (cnt cm).1 + (cnt cv).1, ufl := (cnt cm).2 + (cnt cv).2 })

/-- The moments of a run: the scales of its blocks (block number, M1S, M2S) and its elements. -/
def Upd.run (u : Upd) (e : Ent) (rule : Rule) (f : Num) (rec : List MWord) (r : Run) (gs : List PEl) :
    List (Nat × Nat × Nat) × List Mo :=
  match r.act with
  | none => ([], [])
  | some (full, k) =>
    let rp := Ent.sparse e && (recByte rec (64 + 2 * (r.x / max 1 (Ent.scols e)))).2
    ((List.range ((r.len + 31) / 32)).map fun b =>
      let x := r.x + 32 * b
      let (sm, sv, ms) := u.block e rule f rec rp k x (r.e + 32 * b) (min 32 (r.len - 32 * b)) fun j =>
        if full then some (gs.getD (32 * b + j) (0, false)) else none
      ((x / 32, sm, sv), ms)).foldr (fun a b => (a.1 :: b.1, a.2 ++ b.2)) ([], [])

/-- The elements `n` from shard element `i` of a BF16 array at `a`, in whole words, for Riffler `rif`. -/
def State.readEls (s : State) (rif a i n : Nat) : List MWord × State :=
  s.readN (.riffler rif) s.pkgId (a + 2 * i) ((n + 1) / 2)

/-- The clip factor of a rule set. -/
def Upd.factor (u : Upd) (rset : Nat) : Num := f32 ((lookup (u.clip.getD []) rset).getD 0x3F800000)

/-- The moments of every run, gradients being read for the runs that have them. -/
def Upd.moments (u : Upd) (s : State) (rif : Nat) (e : Ent) (rule : Rule) (rec : List MWord) :
    List Run → (List (Nat × Nat × Nat) × List Mo) × State
  | [] => (([], []), s)
  | r :: rs =>
    let full := match r.act with
      | some (b, _) => b
      | none => false
    let (ws, s) := if full then s.readEls rif (Ent.g e) r.e r.len else ([], s)
    let a := u.run e rule (u.factor (Ent.rset e)) rec r ((List.range r.len).map (recHalf ws))
    let (b, s) := u.moments s rif e rule rec rs
    ((a.1 ++ b.1, a.2 ++ b.2), s)

/-- The record after the update: header, row stamps, codes and scales, a block's scales poisoned with any of its elements; the
rest as it was (R209, R212, R213). -/
def Ent.newRec (e : Ent) (step : BitVec 32) (rec : List MWord) (runs : List Run) (sc : List (Nat × Nat × Nat))
    (ms : List Mo) : List MWord :=
  let o := Ent.o1 e
  let stamps := if Ent.sparse e then runs.flatMap fun r =>
      if r.act.isSome then half (64 + 2 * (r.x / max 1 (Ent.scols e))) (step.truncate 16) false else []
    else []
  let bp (b : Nat) : Bool := ms.any fun m => m.x / 32 == b && m.p
  let w := overlay 0 rec (stamps ++ ms.map (fun m => (o + m.x, BitVec.ofNat 8 m.cm, m.p)) ++
    sc.map (fun b => (o + 4096 + b.1, BitVec.ofNat 8 b.2.1, bp b.1)) ++
    ms.map (fun m => (o + 4224 + m.x, BitVec.ofNat 8 m.cv, m.p)) ++
    sc.map (fun b => (o + 8320 + b.1, BitVec.ofNat 8 b.2.2, bp b.1)))
  [⟨step, false⟩, ⟨1, false⟩] ++ List.replicate 14 ⟨0, false⟩ ++ w.drop 16

/-- The record a copy holds, or an empty one. -/
def State.readRec (s : State) (rif : Nat) (e : Ent) (ch : Option (Nat × Nat)) : List MWord × State :=
  match ch with
  | some (a, _) => s.readN (.riffler rif) s.pkgId a (Ent.chb e / 4)
  | none => (List.replicate (Ent.chb e / 4) ⟨0, false⟩, s)

/-- A row's bitmap word with a free value where it was delivered poisoned (DESIGN CHOICE, log entry 27). -/
def State.touchWord (s : State) (rif a : Nat) : BitVec 32 × State :=
  let (w, s) := s.readW (.riffler rif) s.pkgId (4 * (a / 4))
  if w.p then (s.draw.1.truncate 32, s.draw.2) else (w.v, s)

/-- The bitmap bits of `n` rows from row `r` (R213). -/
def State.touched (s : State) (rif aux r : Nat) : Nat → List Bool × State
  | 0 => ([], s)
  | n + 1 =>
    let a := aux + r / 8
    let (w, s) := s.touchWord rif a
    let (bs, s) := s.touched rif aux (r + 1) n
    (w.getLsbD (8 * (a % 4) + r % 8) :: bs, s)

/-! ## One weight (R212) -/

/-- d of an element from its moments as written, before any preconditioner (R212). -/
def Upd.dOf (u : Upd) (rule : Rule) (m v : Num) : Num :=
  let t := (max 1 ((u.step.toNat : Int) - Rule.t0 rule + 1)).toNat
  fdiv (fdiv m (fsub .one (pw (Rule.f rule 0) t)))
    (fadd (fsqrt (fdiv v (fsub .one (pw (Rule.f rule 1) t)))) (Rule.f rule 2))

/-- The new weight: w - lr * (d + wd * w), rounded to BF16 on its write (R212). -/
def Upd.weight (u : Upd) (e : Ent) (rule : Rule) (i : Nat) (w d : Num) : Cv :=
  let lr := fmul (Rule.f rule 5) (f32 (u.sched.getD (Rule.lrslot rule) 0))
  bf16.conv (u.rnd e 1 i) (fsub w (fmul lr (fadd d (fmul (Rule.f rule 3) w))))

/-! ## Preconditioners (R216, R217) -/

/-- A unit's factor area as a Riffler holds it: L, R, PL and PR; none while not VALID. -/
structure Area where
  l : List PEl
  r : List PEl
  pl : List PEl
  pr : List PEl
  deriving DecidableEq, Repr

/-- The identity matrix in BF16. -/
def identity (b : Nat) : List PEl := matOf b fun i j => (if i = j then 0x3F80 else 0, false)

/-- The factors of a VALID area at an address; zero factors and the identity where there is none (R216). -/
def State.readArea (s : State) (rif b : Nat) (ch : Option (Nat × Nat)) : Area × State :=
  match ch with
  | some (a, _) =>
    let (ws, s) := s.readN (.riffler rif) s.pkgId (a + 64) (2 * b * b)
    let m (k : Nat) : List PEl := (List.range (b * b)).map fun i => recHalf ws (k * b * b + i)
    (⟨m 0, m 1, m 2, m 3⟩, s)
  | none =>
    let z : List PEl := List.replicate (b * b) (0, false)
    (⟨z, z, identity b, identity b⟩, s)

/-- The accumulation L := BP·L + Gb·Gbᵀ, R := BP·R + Gbᵀ·Gb (R216). -/
def accumulate (b : Nat) (bp : BitVec 16) (g : List PEl) (a : Area) : Area :=
  let out (f : List PEl) (i j : Nat) (ps : List (PEl × PEl)) : PEl :=
    let x := dot (El.fresh false 0) (((bp, false), mat b f i j) :: ps)
    (toBf x.value, x.poison)
  { a with l := matOf b fun i j => out a.l i j ((List.range b).map fun k => (mat b g i k, mat b g j k)),
           r := matOf b fun i j => out a.r i j ((List.range b).map fun k => (mat b g k i, mat b g k j)) }

/-- An element's exact value, INEXACT apart. -/
def El.exact (x : El) : Num := if x.finite then .fin (decide (x.w < 0)) x.w.natAbs 1 x.a else x.value

/-- PL·d·PR: d rounded to BF16, the products summed in long form, each element rounded once to binary32 (R216; DEDUCED, log
entry 28). -/
def precondition (b : Nat) (a : Area) (d : List (Num × Bool)) : List (Num × Bool) :=
  let db := d.map fun x => (toBf x.1, x.2)
  let t := matOf b fun i j => dot (El.fresh false 0) ((List.range b).map fun k => (mat b a.pl i k, mat b db k j))
  matOf b fun i j =>
    let z := (List.range b).foldl (fun (z : El) k =>
      let x := t.getD (i * b + k) {}
      let y := mat b a.pr k j
      let n := z.step false (x.exact.mul (bf16.decode y.1.toNat)) 0
      { n with inx := n.inx || x.inx, poison := z.poison || x.poison || y.2 }) (El.fresh false 0)
    (r32 z.value, z.poison)

/-- The words of an area at step `st`. -/
def Area.words (a : Area) (st : BitVec 32) : List MWord :=
  [⟨st, false⟩, ⟨1, false⟩] ++ List.replicate 14 ⟨0, false⟩ ++ bfWords (a.l ++ a.r ++ a.pl ++ a.pr)

/-- A BF16 element of a sum of products in a long accumulator. -/
def El.bf (x : El) : PEl := (toBf x.value, x.poison)

/-- The product of two matrices, each element rounded once to BF16 (R217). -/
def matMul (b : Nat) (x y : List PEl) : List PEl :=
  matOf b fun i j => (dot (El.fresh false 0) ((List.range b).map fun k => (mat b x i k, mat b y k j))).bf

/-- One iteration of the coupled Newton–Schulz method: T := (3I − Z·Y) / 2, Y := Y·T, Z := T·Z (R217; PRESUMED, log entry
24). -/
def schulz (b : Nat) (y z : List PEl) : List PEl × List PEl :=
  let t := matOf b fun i j =>
    let x := dot ((El.fresh false 0).step false (.fin false (if i = j then 3 else 0) 1 0) 0)
      ((List.range b).map fun k => (mat b z i k, let e := mat b y k j; (e.1 ^^^ 0x8000, e.2)))
    (toBf (x.value.mul (.fin false 1 1 (-1))), x.poison)
  (matMul b y t, matMul b t z)

/-- `n` iterations. -/
def schulzN (b : Nat) : Nat → List PEl × List PEl → List PEl × List PEl
  | 0, p => p
  | n + 1, p => schulzN b n (schulz b p.1 p.2)

/-- Every element through `f`, rounded once to BF16. -/
def mapBf (f : Num → Num) (m : List PEl) : List PEl := m.map fun x => (toBf (f (bf16.decode x.1.toNat)), x.2)

/-- The square root and the inverse square root of a matrix, scaled by its Frobenius norm (R217; PRESUMED, log entry 24). -/
def sqrtPair (b iters : Nat) (a : List PEl) : List PEl × List PEl :=
  let norm := fsqrt (r32 (dot (El.fresh false 0) (a.map fun x => (x, x))).value)
  let root := fsqrt norm
  let (y, z) := schulzN b iters (mapBf (·.div norm) a, identity b)
  (mapBf (·.mul root) y, mapBf (·.div root) z)

/-- (F + DAMP·I)^(-1/p) of a factor F: for p = 4 the method is applied again to the square root it yields (R217). -/
def rootOf (r : Root) (f : List PEl) : List PEl :=
  let a := matOf r.dim fun i j =>
    let x := mat r.dim f i j
    if i = j then (toBf ((bf16.decode x.1.toNat).add (f32 r.damp)), x.2) else x
  let h := sqrtPair r.dim r.iters a
  if r.root4 then (sqrtPair r.dim r.iters h.1).2 else h.2

/-- The roots of an area's factors (R217). -/
def rootsOf (r : Root) (a : Area) : Root := { r with pl := rootOf r a.l, pr := rootOf r a.r, fin := false }

/-- Whether a root is that of a unit of an entry, whatever list names the entry (R217). -/
def Root.of (r : Root) (e : Ent) (un : Nat) : Bool := r.pre == Ent.aux e && r.unit == un

/-- The runs and record of chunk `c` of a unit with its moments as this step writes them; a copy that already holds the
step gives them as stored (R212, R219). -/
def Upd.unitMoments (u : Upd) (s : State) (rif : Nat) (e : Ent) (rule : Rule) (un : Nat) :
    List Nat → List (Num × Num × Bool) × State
  | [] => ([], s)
  | c :: cs =>
    let (ch, s) := s.choose rif (Ent.rec e un c true) (Ent.rec e un c false)
    let (rec, s) := s.readRec rif e ch
    let (here, s) :=
      if ch.map (·.2) = some u.step.toNat then ((List.range 4096).map (Ent.moments e rec), s)
      else
        let (ms, s) := u.moments s rif e rule rec (Ent.runs e un c fun _ _ => none)
        (ms.2.map fun m => (m.m, m.v, m.p), s)
    let (rest, s) := u.unitMoments s rif e rule un cs
    (here ++ rest, s)

/-- The gradients of a whole unit, f·g rounded to BF16, a non-finite one as 0 (R216). -/
def Upd.unitGrads (u : Upd) (s : State) (rif : Nat) (e : Ent) : List Run → List PEl × State
  | [] => ([], s)
  | r :: rs =>
    let (ws, s) := s.readEls rif (Ent.g e) r.e r.len
    let here := (List.range r.len).map fun j =>
      let (c, p) := recHalf ws j
      let g := bf16.decode c.toNat
      (if g.finite then toBf (fmul (u.factor (Ent.rset e)) g) else 0, p)
    let (rest, s) := u.unitGrads s rif e rs
    (here ++ rest, s)

/-- What a unit's preconditioner gives a chunk's service (R216, R217): d after PL·d·PR for the whole unit, the writes of
the factor area, whether the area started from zero, and the roots its accumulation begins. -/
def Upd.precond (u : Upd) (s : State) (rif : Nat) (e : Ent) (ent : Nat) (rule : Rule) (un : Nat) :
    (List (Num × Bool) × List (Nat × MWord) × Bool × Option Root) × State :=
  let b := Ent.dim e
  let ah := areaAt (Ent.aux e) b (Ent.units e) un true
  let aa := areaAt (Ent.aux e) b (Ent.units e) un false
  let (ch, s) := s.choose rif ah aa
  let (area, s) := s.readArea rif b ch
  let done := ch.map (·.2) = some u.step.toNat
  let (g, s) := u.unitGrads s rif e ((List.range (Ent.cpu e)).flatMap fun c => Ent.runs e un c fun _ _ => none)
  let inst := s.roots.find? fun r => r.of e un && decide (r.install ≤ u.step.toNat)
  let area' := if done then area else accumulate b (toBf (Rule.f rule 8)) g area
  let area' := match inst with
    | some r => if done then area' else
      { area' with pl := r.pl, pr := r.pr }
    | none => area'
  let (mv, s) := u.unitMoments s rif e rule un (List.range (Ent.cpu e))
  let d := mv.map fun x => (u.dOf rule x.1 x.2.1, x.2.2)
  let out := precondition b area' d
  if done then ((out, [], false, none), s)
  else
    let own := if rif = homeOf un then ah else aa
    let begun : Root := { ent := ent, pre := Ent.aux e, unit := un, rif := rif, install := u.step.toNat + Rule.delay rule,
                          root4 := Ent.proot e, damp := rule.getD 9 0, iters := Rule.nsit rule, dim := b, nu := Ent.units e }
    ((out, placed own (area'.words u.step), ch.isNone,
      if u.step.toNat % Rule.period rule = 0 then some (rootsOf begun area') else none), s)

/-- Whether Riffler `n` is in service: UP or draining (R220, R225). -/
def State.rifIn (s : State) (n : Nat) : Bool := [1, 2].contains (s.fget (F.RIF_STATUS_STATE n))

/-! ## A chunk (R219) -/

/-- The weight words of the runs that have gradients. -/
def State.readWeights (s : State) (rif : Nat) (e : Ent) : List Run → List (Run × List MWord) × State
  | [] => ([], s)
  | r :: rs =>
    match r.act with
    | some (true, _) =>
      let (ws, s) := s.readEls rif (Ent.w e) r.e r.len
      let (rest, s) := s.readWeights rif e rs
      ((r, ws) :: rest, s)
    | _ => s.readWeights rif e rs

/-- The places in the chunk whose weight word was delivered poisoned: their elements' moments take the poison too
(R212). -/
def weightPoison (rw : List (Run × List MWord)) : List Nat :=
  rw.flatMap fun p => ((List.range p.1.len).filter fun j => (recHalf p.2 j).2).map (p.1.x + ·)

/-- The new weights of a run: its writes, and each element's conversion. `ds` gives d by place in the chunk. -/
def Upd.weights (u : Upd) (e : Ent) (rule : Rule) (ms : List Mo) (ds : Nat → Num × Bool) (p : Run × List MWord) :
    List (Nat × MWord) × List Cv :=
  let outs := (ms.filter fun m => decide (p.1.x ≤ m.x) && decide (m.x < p.1.x + p.1.len)).map fun m =>
    let (c, q) := recHalf p.2 (m.x - p.1.x)
    let (d, dp) := ds m.x
    (m.x - p.1.x, u.weight e rule m.e (bf16.decode c.toNat) d, q || dp || m.p)
  (placed (Ent.w e + 2 * p.1.e)
    (overlay 0 p.2 (outs.flatMap fun o => half (2 * o.1) (BitVec.ofNat 16 o.2.1.code) o.2.2)), outs.map (·.2.1))

/-- A chunk served by Riffler `rif` (R219 steps 1 to 3): everything it will send and count. None where a SPARSE chunk
has no row to touch or sweep (R213). -/
def Upd.serve (u : Upd) (s : State) (rif : Nat) (id : ChunkId) : Option Chunk × State :=
  let e := u.ents.getD id.ent.toNat []
  let rule := (lookup u.rules (Ent.rset e)).getD []
  let home := Ent.rec e id.unit id.chunk true
  let alt := Ent.rec e id.unit id.chunk false
  let n := if Ent.sparse e then 4096 / max 1 (Ent.scols e) else 0
  let (bits, s) := if Ent.sparse e then
      s.touched rif (Ent.aux e) (id.unit * n) (Ent.len e id.unit / max 1 (Ent.scols e)) else ([], s)
  if Ent.sparse e && !Ent.sweep e && !bits.any (· = true) then (none, s)
  else
    let (ch, s) := s.choose rif home alt
    if ch.map (·.2) = some u.step.toNat then (some { id := id, rif := rif, already := true }, s)
    else
      let (rec, s) := s.readRec rif e ch
      let runs := Ent.runs e id.unit id.chunk fun _ r =>
        let st := (recByte rec (64 + 2 * r)).1 + 256 * (recByte rec (65 + 2 * r)).1
        let k := (u.step.toNat % 2 ^ 16 + 2 ^ 16 - st) % 2 ^ 16
        let k := if k = 0 then 1 else k
        if bits.getD r false then some (true, k) else if Ent.sweep e then some (false, k) else none
      let ((sc, ms), s) := u.moments s rif e rule rec runs
      let (rw, s) := s.readWeights rif e runs
      let wp := weightPoison rw
      let ms := ms.map fun (m : Mo) => { m with p := m.p || wp.contains m.x }
      let ((ds, area, fresh, root), s) :=
        if Ent.precond e then u.precond s rif e id.ent.toNat rule id.unit else (([], [], false, none), s)
      let d (x : Nat) : Num × Bool :=
        if Ent.precond e then ds.getD (id.chunk * 4096 + x) (.zero, false)
        else match ms.find? fun m => m.x == x with
          | some m => (u.dOf rule m.m m.v, false)
          | none => (.zero, false)
      let out := rw.map (u.weights e rule ms d)
      let ws := out.flatMap (·.1)
      let cv := out.flatMap (·.2)
      let new := Ent.newRec e u.step rec runs sc ms
      let mine := rif = homeOf id.unit
      let other := if mine then altOf id.unit else homeOf id.unit
      let sum (f : Mo → Nat) : Nat := ms.foldl (fun a m => a + f m) 0
      (some { id := id, rif := rif, buf := ws, own := placed (if mine then home else alt) new ++ area,
              oth := if u.mirror && s.rifIn other then some (placed (if mine then alt else home) new)
                else none,
              poison := ws.any (·.2.p) || new.any (·.p) || area.any (·.2.p), fresh := fresh, root := root,
              cnt := { chunks := 1, rows := if Ent.sparse e then (runs.filter (·.act.isSome)).length else 0,
                       zeroed := if ch.isNone then 1 else 0, nonfin := sum (·.nonfin),
                       poison := (ms.filter (·.p)).length,
                       sat := (cv.filter (·.sat)).length + sum (·.sat),
                       ufl := (cv.filter (·.ufl)).length + sum (·.ufl) } }, s)

end Sys2Proof.Machine
end

