-- ==== Sys2Proof/Machine/Riffler.lean ====
section
/-! DEFINITION. The Rifflers and the running UPDATE (R205 to R225): its start and checks, norm slots and clipping,
dispatch, release and own copies of chunks, background roots, a Riffler leaving and returning, and the end with its
status record. -/
namespace Sys2Proof.Machine

/-- A started command has done its work: its code and cause (R159). The first code stands. -/
def State.finishCmd (s : State) (q : Nat) (seq : BitVec 32) (c : Code) (cause : Nat) : State :=
  s.modCmd q seq fun x => if x.done then x else { x with done := true, code := c, cause := cause }

/-- A started command of a queue. -/
def State.cmd? (s : State) (q : Nat) (seq : BitVec 32) : Option Cmd := (s.cq q).infl.find? fun c => hdSEQ c.hdr == seq

/-- Reads words at a global address for the command processor; one that names another package is refused (R23, R210). -/
def State.readG (s : State) (g : BitVec 64) (n : Nat) : List MWord × State :=
  if s.own (pkgOf g) then s.readN .cmd (pkgOf g) (g.toNat % 2 ^ 48) n
  else (List.replicate n poisonWord, s.addrErr 5 false .cmd g)

/-- Writes words at a global address for the command processor. -/
def State.writeG (s : State) (g : BitVec 64) (ws : List MWord) : State :=
  if s.own (pkgOf g) then s.writeN .cmd (pkgOf g) (g.toNat % 2 ^ 48) ws else s.addrErr 5 true .cmd g

/-- Writes words at their addresses for a Riffler, in order. -/
def State.writeAll (s : State) (n prev : Nat) : List (Nat × MWord) → State
  | [] => s
  | (a, w) :: r => (s.writeAt (a % 64 == 0 || a != prev + 4) (.riffler n) s.pkgId a w).writeAll n a r

/-! ## Rifflers in service (R220, R225) -/

/-- Whether Riffler `n` takes new chunks: UP. -/
def State.rifUp (s : State) (n : Nat) : Bool := s.fget (F.RIF_STATUS_STATE n) == 1

/-- Rifflers in service: UP or DRAIN. -/
def State.rifCount (s : State) : Nat := ((List.range 4).filter s.rifIn).length

/-- Rifflers that no drain is about to take: UP. -/
def State.rifStay (s : State) : Nat := ((List.range 4).filter s.rifUp).length

/-- Sets a Riffler's state, with its bits of RIF_PKG_STATUS.OUT and PLN_DIE_MAP.RIF_ACTIVE (R224, R225). -/
def State.setRif (s : State) (n st : Nat) : State :=
  let bit (v : Nat) (b : Bool) : Nat := if b then v ||| 2 ^ n else v &&& (15 - 2 ^ n)
  let s := s.fset (F.RIF_STATUS_STATE n) st
  let s := s.fset F.RIF_PKG_STATUS_OUT (bit (s.fget F.RIF_PKG_STATUS_OUT) (st != 1))
  s.fset F.PLN_DIE_MAP_RIF_ACTIVE (bit (s.fget F.PLN_DIE_MAP_RIF_ACTIVE) (st == 1 || st == 2))

/-- Shows the chunks each Riffler holds (R225). -/
def State.showHeld (s : State) : State :=
  let act := match s.upd with
    | some u => u.act
    | none => []
  (List.range 4).foldl (fun s n => s.fset (F.RIF_STATUS_HELD n) (min 16 (act.filter (·.rif == n)).length)) s

/-- Shows whether a root computation is in progress (R224). -/
def State.showRoot (s : State) : State := s.setFlag F.RIF_ROOT_BUSY (s.roots.any (!·.fin))

/-! ## The end of an UPDATE (R222, R223) -/

/-- Chunks of an UPDATE. -/
def Upd.total (u : Upd) : Nat := u.ents.foldl (fun n e => n + Ent.units e * Ent.cpu e) 0

/-- Whether an UPDATE has nothing left to do but end. -/
def State.updOver (s : State) (u : Upd) : Bool :=
  u.act.isEmpty && s.owns.isEmpty && (u.halt.isSome || u.skipped || (u.clip.isSome && u.fin.length == u.total))

/-- Writes a counter into a status record, saturating at `n` bits. -/
def satN (n v : Nat) : BitVec 64 := BitVec.ofNat 64 (min (2 ^ n - 1) v)

/-- The sixteen words of the status record (R223). -/
def Upd.status (u : Upd) : List MWord :=
  let lo (v : BitVec 64) : BitVec 32 := v.truncate 32
  let hi (v : BitVec 64) : BitVec 32 := (v >>> 32).truncate 32
  let wide (n : Nat) : List (BitVec 32) := [lo (satN 64 n), hi (satN 64 n)]
  let fl : BitVec 32 := BitVec.ofNat 32 ((if u.skipped then 1 else 0) + (if u.migrated then 2 else 0) +
    (if u.degraded then 4 else 0))
  let c := u.cnt
  ([u.step, fl, u.n2, u.clipMin] ++ wide c.chunks ++ wide c.already ++ wide c.rows ++
    [lo (satN 32 c.zeroed), lo (satN 32 c.nonfin), lo (satN 32 c.poison), lo (satN 32 c.sat), lo (satN 32 c.ufl),
     lo (satN 32 c.lag)]).map fun v => ⟨v, false⟩

/-- Ends the running UPDATE: its status record, then its code by the precedence of R133 (R222). -/
def State.updClose (s : State) (u : Upd) : State :=
  let (c0, cause) := u.halt.getD (.done, 0)
  let c := (c0.max (if u.poisoned then .poisoned else .done)).max (if u.migrated then .migrated else .done)
  let s := (s.writeG u.pay.w4 u.status).setFlag F.RIF_PKG_STATUS_BUSY false
  ({ s with upd := none }.finishCmd u.q u.seq c (if c = c0 then cause else 0)).showHeld

/-! ## The start of an UPDATE (R210, R211, R218) -/

/-- Whether the UPDATE payload itself is well formed, at the current SCT_STEP. -/
def updPayOk (p : Payload) (step : BitVec 32) : Bool :=
  p.w1.toNat % 64 == 0 && p.w3.toNat % 8 == 0 && p.w4.toNat % 64 == 0 && p.w5.toNat % 64 == 0 &&
  p.w6 == 0 && p.w7 == 0 && bits64 p.w2 55 48 == 0 && decide (1 ≤ bits64 p.w2 47 32) &&
  decide (bits64 p.w2 47 32 ≤ 4096) && decide (bits64 p.w2 63 56 ≤ 16) && bits64 p.w2 31 0 == step.toNat

/-- Words two by two as 64-bit values. -/
def pairs64 : List MWord → List (BitVec 64)
  | a :: b :: r => pair64 a b :: pairs64 r
  | _ => []

/-- A list in pieces of `k`, at most `n` of them. -/
def pieces {α : Type} (k : Nat) : Nat → List α → List (List α)
  | 0, _ => []
  | n + 1, l => l.take k :: pieces k n (l.drop k)

/-- The rule sets an update list names, in rising order. -/
def namedRules (ents : List Ent) : List Nat := (List.range 8).filter fun r => ents.any fun e => Ent.rset e == r

/-- Reads the named rule sets. -/
def State.readRules (s : State) (g : BitVec 64) : List Nat → List (Nat × List MWord) × State
  | [] => ([], s)
  | r :: rs =>
    let (ws, s) := s.readG (g + BitVec.ofNat 64 (64 * r)) 16
    let (rest, s) := s.readRules g rs
    ((r, ws) :: rest, s)

/-- Begins an UPDATE whose turn has come: the list and rule sets are read and checked before any chunk starts, a
malformed one ends ABORTED, cause ILLEGAL, and a rule value out of range NUMERIC_FAULT, with nothing written (R210,
R211); with fewer than three Rifflers, or a drain that will leave fewer, it ends as R221 says, and out of service
UNIT_RETIRED (R346). SCT_CTRL.SR_EN is taken once, here, the spec saying no instant (DESIGN CHOICE, log entry 128). -/
def State.updBegin (s : State) (r : UpdReq) : State :=
  let q := r.q
  let seq := r.seq
  match s.cmd? q seq with
  | none => s
  | some x =>
    let p := x.pay
    let bad (s : State) : State := s.finishCmd q seq .aborted causeILLEGAL
    if s.flag F.TST_STATUS_OOS then s.finishCmd q seq .unitRetired 0
    else if updPayOk p (s.reg Reg.SCT_STEP) = false then bad s
    else
      let n := bits64 p.w2 47 32
      let (ws, s) := s.readG p.w1 (16 * n)
      let ents := pieces 8 n (pairs64 ws)
      let (rs, s) := s.readRules p.w5 (namedRules ents)
      let rules := rs.map fun r => (r.1, r.2.map (·.v))
      if ws.any (·.p) || rs.any (·.2.any (·.p)) || !ents.all Ent.ok || !rules.all (fun r => Rule.ok r.2) then bad s
      else if rules.any (fun r => !Rule.inRange r.2) then s.finishCmd q seq .numericFault 0
      else
        let short : Option (Code × Nat) :=
          if 3 ≤ s.rifStay then none
          else if 3 ≤ s.rifCount then some (.aborted, causeABORT)
          else match s.rifOut.drop 1 with
            | (_, false) :: _ => some (.aborted, causeABORT)
            | _ => some (.unitRetired, 0)
        if short = some (.aborted, causeABORT) then s.finishCmd q seq .aborted causeABORT
        else
          let nn := bits64 p.w2 63 56
          let u : Upd := {
            q := q, seq := seq, step := s.reg Reg.SCT_STEP, pay := p, ents := ents, rules := rules,
            sched := r.sched, seed := r.seed, sr := s.flag F.SCT_CTRL_SR_EN,
            mirror := s.flag F.RIF_CFG_MIRROR, degraded := decide (s.rifCount < 4), halt := short,
            clip := if nn = 0 then some (rules.map fun r => (r.1, 0x3F800000)) else none }
          let s := { s with upd := some u }.setFlag F.RIF_PKG_STATUS_BUSY true
          if s.updOver u then s.updClose u else s

/-- Takes up waiting UPDATEs in start order until one runs (R218). -/
def State.updRun (s : State) : List UpdReq → State
  | [] => { s with updq := [] }
  | x :: r =>
    let s := s.updBegin x
    if s.upd.isSome then { s with updq := r } else s.updRun r

/-- Ends the running UPDATE once it is over, and takes up the next. -/
def State.updSettle (s : State) : State :=
  match s.upd with
  | some u => if s.updOver u then let s := s.updClose u; s.updRun s.updq else s
  | none => s

/-- An UPDATE command starts, which fixes its schedule values and seed (R50, R212): it runs, or waits behind the one that runs
(R218) (DEDUCED, log entry 81). -/
def State.updStart (s : State) (q : Nat) (seq : BitVec 32) : State :=
  let r : UpdReq := { q := q, seq := seq, sched := (List.range 16).map fun k => s.reg (Reg.PLN_SCHED_V k),
                      seed := s.reg64 Reg.SCT_SEED_LO Reg.SCT_SEED_HI }
  if s.upd.isSome then { s with updq := s.updq ++ [r] } else s.updRun [r]

/-- Halts the running UPDATE: its unreleased chunks are dropped, and it ends once the released ones are complete
(R221). -/
def State.updHalt (s : State) (c : Code) (cause : Nat) : State :=
  match s.upd with
  | none => s
  | some u =>
    let h := match u.halt with
      | none => (c, cause)
      | some (c0, k) => if c0.rank < c.rank then (c, cause) else (c0, k)
    ({ s with upd := some { u with halt := some h, act := [] } }.showHeld).updSettle

/-- An abort or a timeout of an UPDATE command (R162, R221). -/
def State.updStop (s : State) (q : Nat) (seq : BitVec 32) (c : Code) : State :=
  match s.upd with
  | some u =>
    if u.q = q ∧ u.seq = seq then s.updHalt c 0
    else { s with updq := s.updq.filter fun r => !(r.q == q && r.seq == seq) }.finishCmd q seq c 0
  | none => s

/-! ## Clipping (R215) -/

/-- The norm slots as read: none for one that does not hold the step, a poisoned one as NaN (R215). -/
def normVals (step : BitVec 32) : List MWord → List (Option Num)
  | a :: b :: r => (if a.p || b.p then some .nan else if b.v = step then some (f32 a.v) else none) :: normVals step r
  | _ => []

/-- min(1, c / sqrt(N2)), 1 for c of +infinity (R215). -/
def clipOf (c n2 : Num) : Num := if c = .inf false then .one else Num.minOf .one (fdiv c (fsqrt n2))

/-- UPDATE_NORM_READY (R215). -/
def execUpdateNormReady (s : State) : Host.Outcome State Fault Refusal :=
  match s.upd with
  | none => .next s
  | some u =>
    if u.clip.isSome || u.halt.isSome then .next s
    else
      let (ws, t) := s.readG u.pay.w3 (2 * bits64 u.pay.w2 63 56)
      let vs := normVals u.step ws
      if vs.any Option.isNone then .next s
      else
        let n2 := r32 ((vs.filterMap fun v => v).foldl Num.add .zero)
        let u := { u with n2 := f32code n2 }
        if !n2.finite || (n2.isNeg && !n2.isZero) then
          let t := ({ t with upd := some { u with skipped := true, clipMin := 0 } }).fsat F.RIF_SKIPS_COUNT 1
          .next t.updSettle
        else
          let fs := u.rules.map fun r => (r.1, clipOf (Rule.f r.2 4) n2)
          let least := fs.foldl (fun m f => Num.minOf m f.2) .one
          .next { t with upd := some { u with clip := some (fs.map fun (f : Nat × Num) => (f.1, f32code f.2)),
                                              clipMin := f32code least } }.updSettle

/-! ## Chunks (R218, R219) -/

/-- Whether an id names a chunk of the running UPDATE that is neither in service nor ended. -/
def State.chunkFree (s : State) (u : Upd) (k : ChunkId) : Bool :=
  let e := u.ents.getD k.ent.toNat []
  decide (k.ent.toNat < u.ents.length) && decide (k.unit < Ent.units e) && decide (k.chunk < Ent.cpu e) &&
    !u.fin.contains k && !u.act.any (·.id == k) && !s.owns.any (·.id == k)

/-- Whether a unit's chunks wait for a root that is to be installed for this step and has not finished (R217). -/
def State.awaitsRoot (s : State) (u : Upd) (k : ChunkId) : Bool :=
  let e := u.ents.getD k.ent.toNat []
  Ent.precond e && s.roots.any fun r => r.of e k.unit && decide (r.install ≤ u.step.toNat) && !r.fin

/-- Chunks a Riffler may hold: RIF_CFG.INFLIGHT, 0 acting as 1 and above 16 as 16 (R224). -/
def State.inflight (s : State) : Nat := min 16 (max 1 (s.fget F.RIF_CFG_INFLIGHT))

/-- CHUNK_DISPATCH (R218, R219 steps 1 to 4): the chunk goes to its home Riffler, or to its alternate while the home is
not UP (R220), unless fewer than three Rifflers are in service. -/
def execChunkDispatch (k : ChunkId) (s : State) : Host.Outcome State Fault Refusal :=
  match s.upd with
  | none => .next s
  | some u =>
    let n := if s.rifUp (homeOf k.unit) then homeOf k.unit else altOf k.unit
    if u.clip.isNone || u.halt.isSome || !s.chunkFree u k || decide (s.rifCount < 3) || !s.rifUp n || !s.running || s.power.l4 ||
        decide (s.inflight ≤ (u.act.filter (·.rif == n)).length) then .next s
    else if s.awaitsRoot u k then
      .next (if u.rootWait then s
        else { s with upd := some { u with rootWait := true } }.fsat F.RIF_ROOT_WAITS 1)
    else
      match u.serve s n k with
      | (none, s) => .next { s with upd := some { u with fin := u.fin ++ [k] } }.updSettle
      | (some ch, s) => .next ({ s with upd := some { u with act := u.act ++ [ch] } }.showHeld).showRoot

/-- The counters of two services together (R223). -/
def UpdCnt.add (a b : UpdCnt) : UpdCnt :=
  { chunks := a.chunks + b.chunks, already := a.already + b.already, rows := a.rows + b.rows,
    zeroed := a.zeroed + b.zeroed, nonfin := a.nonfin + b.nonfin, poison := a.poison + b.poison, sat := a.sat + b.sat,
    ufl := a.ufl + b.ufl, lag := a.lag + b.lag }

/-- What a released chunk counts as started from zero: its factor area once, however many of the unit's chunks found it so
(R216, R223, R225). -/
def Chunk.area (c : Chunk) : Nat × Nat × Nat := (c.id.ent.toNat, c.id.unit, c.rif)

def Upd.newArea (u : Upd) (c : Chunk) : Bool := c.fresh && !u.areas.contains c.area

/-- The roots a released chunk's accumulation begins, unless another chunk of the unit has begun them (R217). -/
def State.beginRoot (s : State) (r : Option Root) : State :=
  match r with
  | none => s
  | some r =>
    if s.roots.any fun x => x.pre == r.pre && x.unit == r.unit && x.install == r.install then s
    else { s with roots := s.roots ++ [r] }.showRoot

/-- CHUNK_RELEASE (R219 step 5): Plinth releases the buffered writes; the chunk commits. -/
def execChunkRelease (k : ChunkId) (s : State) : Host.Outcome State Fault Refusal :=
  match s.upd with
  | none => .next s
  | some u =>
    match u.act.find? fun c => c.id == k with
    | none => .next s
    | some c =>
      let u := { u with act := u.act.filter (·.id ≠ k), fin := u.fin ++ [k] }
      let s := s.settleChunk k
      if c.already then
        .next (({ s with upd := some { u with cnt := u.cnt.add { already := 1 } } }).showHeld).updSettle
      else
        let home := decide (c.rif = homeOf k.unit)
        let other := if home then altOf k.unit else homeOf k.unit
        let oth := if s.rifIn other then c.oth else none
        let zeroed := c.cnt.zeroed + (if u.newArea c then 1 else 0)
        let u := { u with areas := if u.newArea c then u.areas ++ [c.area] else u.areas,
                          cnt := u.cnt.add { c.cnt with zeroed := zeroed }, poisoned := u.poisoned || c.poison,
                          migrated := u.migrated || !home }
        let s := (s.writeAll c.rif 0 c.buf).writeAll c.rif 0 (oth.getD [])
        let s := (s.fwrap (F.RIF_CHUNKS_COUNT c.rif) 1).fsat (F.RIF_ZERO_COUNT c.rif) zeroed
        let s := s.beginRoot c.root
        .next ({ s with upd := some u, owns := s.owns ++ [{ c with oth := oth }] }).showHeld

/-- CHUNK_OWN_COPY (R219 step 6): the serving Riffler writes its own copy, and its factor area; roots installed with it
are spent. -/
def execChunkOwnCopy (k : ChunkId) (s : State) : Host.Outcome State Fault Refusal :=
  match s.owns.find? fun c => c.id == k, s.upd with
  | some c, some u =>
    let s := { s with owns := s.owns.filter (·.id ≠ k) }.writeAll c.rif 0 c.own
    let e := u.ents.getD k.ent.toNat []
    let spent (r : Root) : Bool :=
      Ent.precond e && r.of e k.unit && decide (r.install ≤ u.step.toNat)
    .next { s with roots := s.roots.filter (fun r => !spent r) }.updSettle
  | _, _ => .next s

/-- ROOT_DONE (R217): the background computation finishes and waits for its install step; the oldest one not finished that
began from entry `e` of its list for unit `un`. -/
def execRootDone (e : BitVec 12) (un : Nat) (s : State) : Host.Outcome State Fault Refusal :=
  let mine (r : Root) : Bool := r.ent == e.toNat && r.unit == un && !r.fin
  .next { s with roots := s.roots.takeWhile (fun r => !mine r) ++
    match s.roots.dropWhile (fun r => !mine r) with
    | [] => []
    | r :: rs => { r with fin := true } :: rs }.showRoot

/-! ## Leaving and returning (R220, R221) -/

/-- A Riffler begins the drain of a DISABLE: it completes what it holds and takes nothing new (R221). -/
def State.rifDrain (s : State) (n : Nat) : State := if s.rifUp n then s.setRif n 2 else s

/-- Whether the running UPDATE still serves a chunk of a root's unit at the step that began it. -/
def Upd.redoes (u : Upd) (r : Root) : Bool :=
  u.halt.isNone && u.ents.zipIdx.any fun (e, i) =>
    Ent.precond e && r.of e r.unit &&
      r.install == u.step.toNat + Rule.delay ((lookup u.rules (Ent.rset e)).getD []) &&
      (List.range (Ent.cpu e)).any fun c => !u.fin.contains ⟨BitVec.ofNat 12 i, r.unit, c⟩

/-- The roots a departed Riffler was computing, computed again by the unit's other Riffler: with the chunk of the unit that is
still to be served, else from the factors it chooses (R217). -/
def State.moveRoots (s : State) (n : Nat) : List Root → List Root × State
  | [] => ([], s)
  | r :: rs =>
    if r.rif = n && s.upd.any (·.redoes r) then s.moveRoots n rs
    else if r.rif = n then
      let m := if n = homeOf r.unit then altOf r.unit else homeOf r.unit
      let (ch, s) := s.choose m (areaAt r.pre r.dim r.nu r.unit true) (areaAt r.pre r.dim r.nu r.unit false)
      let (a, s) := s.readArea m r.dim ch
      let (rest, s) := s.moveRoots n rs
      (rootsOf { r with rif := m } a :: rest, s)
    else
      let (rest, s) := s.moveRoots n rs
      (r :: rest, s)

/-- A Riffler leaves service (R220, R221): its unreleased chunks are dropped, own copies it still owed lag unless the
other copy was written, and an UPDATE left with fewer than three Rifflers halts. `fault` is false at the end of a
DISABLE (DEDUCED, log entry 82). -/
def State.rifLeave (s : State) (n : Nat) (fault : Bool) : State :=
  if !s.rifIn n then s
  else
    let s := { s.setRif n 3 with rifOut := s.rifOut ++ [(n, fault)] }
    let gone := s.owns.filter (·.rif == n)
    let lag := (gone.filter (·.oth.isNone)).length
    let s := { s with owns := s.owns.filter (fun c => !(c.rif == n)) }.fsat (F.RIF_LAG_COUNT n) lag
    let (rs, s) := s.moveRoots n s.roots
    let s := { s with roots := rs }.showRoot
    match s.upd with
    | none => s
    | some u =>
      let act := u.act.filter fun c => !(c.rif == n)
      let u := { u with degraded := true, act := act, cnt := u.cnt.add { lag := lag } }
      let s := { s with upd := some u }.showHeld
      if 3 ≤ s.rifCount then s.updSettle
      else if fault then s.updHalt .unitRetired 0
      else s.updHalt .aborted causeABORT

/-- Whether a Riffler is disabled by a DISABLE of KIND 2. -/
def State.rifDisabled (s : State) (n : Nat) : Bool := s.fnOff 2 0 n

/-- A Riffler returns to service (R220). -/
def State.rifReturn (s : State) (n : Nat) : State :=
  { s.setRif n 1 with rifOut := s.rifOut.filter (·.1 ≠ n) }

/-- RIFFLER_LEAVE (R220): a fault takes Riffler `n` out of service. -/
def execRifflerLeave (n : Fin 4) (s : State) : Host.Outcome State Fault Refusal := .next (s.rifLeave n true)

/-- RIFFLER_RETURN (R220): a Riffler that is out of service, neither retired nor disabled and with an open edge,
returns. -/
def execRifflerReturn (n : Fin 4) (s : State) : Host.Outcome State Fault Refusal :=
  if s.fget (F.RIF_STATUS_STATE n) = 3 && s.rifEdgeOpen n && !s.gone.contains (0x10000 + n) && !s.rifDisabled n then
    .next (s.rifReturn n)
  else .next s

end Sys2Proof.Machine
end

