-- ==== Sys2Proof/Machine/Stop.lean ====
section
/-! DEFINITION. Stopping work that has not committed (R162): what becomes of a task's issued instructions, streams,
collectives and waits, and its task record. -/
namespace Sys2Proof.Machine

/-! ## Task records (R132, R156, R159) -/

/-- The UNIT word of a completion record (R159). -/
def unitWord (e k : Nat) : BitVec 32 :=
  BitVec.ofNat 32 (2 ^ 31 + e / 408 * 2 ^ 16 + e / 17 % 24 * 2 ^ 8 + k * 2 ^ 5 + e % 17)

/-- The command processor receives a task record: the LAUNCH counts it, combines its code, and is done with its last
one (R156, R159). -/
def State.taskRecord (s : State) (q : Nat) (seq : BitVec 32) (c : Code) (nstat nfault unit : BitVec 32) (cut : Bool) :
    State :=
  s.modCmd q seq fun x =>
    let bad := decide (c ≠ .done)
    let x := if bad && !x.first then
        { x with first := true, unit := unit, nfault := nfault, cause := nfault.toNat / 2 ^ 27 } else x
    { x with ended := x.ended + 1, notDone := x.notDone + (if bad then 1 else 0),
             cutN := x.cutN + (if cut then 1 else 0),
             code := x.code.max c, nstat := x.nstat ||| (nstat &&& 0xFFC00000),
             done := decide (x.tasks ≤ x.ended + 1) }

/-! ## The parts of a task (R162) -/

/-- A running array instruction that R162 stops at its pair boundary: a TMAC between pairs, or a TMAC2. -/
def QEnt.midway (q : QEnt) : Bool :=
  opc q.w == opTMAC2 || (opc q.w == opTMAC && decide (0 < q.pair) && decide (q.pair ≤ tmREP q.w))

/-- An array instruction in its unit that has added nothing: discarded with the unstarted ones. -/
def QEnt.unentered (q : QEnt) : Bool := opc q.w == opTMAC && q.pair == 0

/-- Discards a context's unstarted instructions and ends its running array instructions, poisoning the accumulators they
were adding to (R84, R162). -/
def State.stopArrays (s : State) (e k : Nat) : State :=
  let x := s.eng e
  let mine (q : QEnt) : Bool := q.ctx == k
  let cut := ([x.runA, x.runB].filterMap fun r => r).filter fun q => mine q && q.midway
  let s := cut.foldl (fun s q =>
    if opc q.w = opTMAC then s.poisonAcc e (tmACC q.w) else (s.poisonAcc e (t2ACA q.w)).poisonAcc e (t2ACB q.w)) s
  let keep (r : Option QEnt) : Option QEnt := r.filter fun q => !(mine q && (q.midway || q.unentered))
  s.modEng e fun y =>
    { y with qA := y.qA.filter (fun q => !mine q), qB := y.qB.filter (fun q => !mine q),
             qV := y.qV.filter (fun q => !mine q), runA := keep y.runA, runB := keep y.runB }

/-- The instruction NFAULT names for a stopped task, with its PAIRS: a TMAC stopped part-way, else the one issued last
(R162; DESIGN CHOICE, log entry 32). -/
def State.stopPoint (s : State) (e k : Nat) : Nat × Nat :=
  let x := s.eng e
  match ([x.runA, x.runB].filterMap fun r => r).find? fun q => q.ctx == k && q.midway && opc q.w == opTMAC with
  | some q => (q.pc, q.pair)
  | none => ((s.ctx (4 * e + k)).at_, 0)

/-- What R162 does to a transfer slot of a stopped context: a fetch is dropped; a store that has read nothing is dropped,
one from tiles ends with the tile it is in, one from the staging buffer completes. A transfer that has moved every
unit completes. -/
def State.stopXfer (s : State) (e l n : Nat) : State :=
  let x := s.xfer (xk l n)
  let d := x.desc
  if x.acc.isSome then s.freeXfer e l n
  else if x.total ≤ x.unit then s
  else if !d.store || x.unit == 0 then s.freeXfer e l n
  else if d.lkind = 2 then s
  else if x.unit % d.per = 0 then s.freeXfer e l n
  else s.setXfer (xk l n) { x with dropping := true }

/-- A context's streams and batches under R162. -/
def State.stopStreams (s : State) (e k l : Nat) : State :=
  let s := (List.range 6).foldl (fun s n =>
    let x := s.xfer (xk l n)
    if x.st ≠ .free ∧ x.ctx = k then s.stopXfer e l n else s) s
  let bs := s.batch l
  let left := bs.filter fun b => !(b.ctx == k)
  if left.length = bs.length then s else ((s.setBatch l left).wake e 4).offer e l

/-- A waiting context leaves its waiter queue or its barrier (R162). -/
def State.stopWait (s : State) (e k l : Nat) : State :=
  let x := s.ctx (4 * e + k)
  let u := e / 17
  if x.st ≠ .wait then s
  else if x.why = 1 then
    (s.setWaiters (semKey u x.wid) ((s.waiters (semKey u x.wid)).filter fun w => match w with
      | .ctx l' k' _ => !(l' == l && k' == k)
      | .cmd _ _ _ => true)).service u x.wid
  else if x.why = 2 then s.leaveBars l k
  else s

/-- A context of a stopped task (R162): ABORTED with cause ABORT_CMD, or TIMEOUT, which writes no NFAULT (R125). An LDS in
flight still returns (DEDUCED, log entry 85). -/
def Ctx.halt (x : Ctx) (c : Code) (iofs pairs : Nat) : Ctx :=
  let x := { x with pend := [], cap := none, cut := true, held := none }
  let x := if x.st = .wait ∧ x.why = 6 then x else { x with st := .run, why := 0, wid := 0, miss := [] }
  if c = .aborted then x.complete .aborted {} causeABORT iofs pairs else { x with code := x.code.max c }.stop

/-- Whether a hand-over has begun that moves engine `e`'s contexts (R163, R332). -/
def State.leaving (s : State) (e : Nat) : Bool :=
  let r := s.rot (e / 17)
  r.x == e && (r.phase == .stopped || r.phase == .copied)

/-- Stops the task of context `k` of engine `e` (R162); while a hand-over moves it, the stop acts on the spare (R163). -/
def State.stopTask (s : State) (e k : Nat) (c : Code) : State :=
  let x := s.ctx (4 * e + k)
  if x.task.isNone || x.cut then s
  else if s.leaving e then s.setCtx (4 * e + k) { x with held := some c }
  else
    let s := s.settle e
    let s := if s.peerWait e k then s.payPeer e else s
    let (iofs, pairs) := s.stopPoint e k
    let s := s.stopArrays e k
    let l := (s.slotOf e).getD 0
    let s := s.stopWait e k l
    let s := s.modCtx (4 * e + k) fun x => x.halt c iofs pairs
    let s := s.stopStreams e k l
    (List.range 2).foldl (fun s n =>
      let y := s.coll (2 * l + n)
      if y.id ≠ 0 ∧ y.ctx = k then s.withdrawMember (2 * l + n) c (if c = .aborted then causeABORT else 0) else s) (s.reHold e)

/-! ## Outputs begun on an engine that goes (R163) -/

/-- Every data word of a tile register is poison. -/
def State.poisonTile (s : State) (e t : Nat) : State :=
  s.setTag (tk e t) { s.tag (tk e t) with poison := BitVec.allOnes 512 }

/-- Units written in poison form at a global address, for an instruction or transfer of context `k` with a work number. -/
def State.poisonUnits (s : State) (e k op pc id : Nat) (g : BitVec 64) (n : Nat) : State :=
  if s.own (pkgOf g) then
    s.writeN (s.engSrc e k op pc) (pkgOf g) (g.toNat % 2 ^ 48) (List.replicate (16 * n) poisonWord)
  else if s.learned (pkgOf g) then
    (granuleRuns g n 0 (n / 64 + 2)).foldl (fun s r => s.ask
      { wr := true, addr := g + BitVec.ofNat 64 (64 * r.1), units := r.2, data := List.replicate (16 * r.2) poisonWord,
        id := id }) s
  else s

/-- What an instruction in a unit had begun to write is poisoned: its accumulators, its tiles, or its image in memory. -/
def State.poisonOut (s : State) (e : Nat) (q : QEnt) : State :=
  let w := q.w
  let s := if opc w = opTMAC then s.poisonAcc e (tmACC w)
    else if opc w = opTMAC2 then (s.poisonAcc e (t2ACA w)).poisonAcc e (t2ACB w)
    else if opc w = opACCLD then s.poisonAcc e (alACC w)
    else s
  let s := (tilesWritten w).foldl (fun s t => s.poisonTile e t) s
  if opc w = opACCST ∧ asMODE w ≠ 0 ∧ asMODE w ≠ 2 then s.poisonUnits e q.ctx opACCST q.pc q.id q.x 257 else s

/-- What a store had begun to write is poisoned, whole (DESIGN CHOICE, log entry 122). -/
def State.poisonStore (s : State) (e l n : Nat) : State :=
  let x := s.xfer (xk l n)
  if x.st = .free ∨ x.acc.isSome ∨ x.desc.store = false ∨ x.unit = 0 then s
  else (List.range x.total).foldl (fun s i => s.poisonUnits e x.ctx x.op x.pc x.id (x.at i) 1) s

/-- An engine retires with no spare: the outputs its tasks had begun are poisoned (R163). -/
def State.poisonBegun (s : State) (e l : Nat) : State :=
  let x := s.eng e
  let begun := ([x.runA, x.runB, x.runV].filterMap fun r => r).filter fun q => !q.unentered
  (List.range 6).foldl (fun s n => s.poisonStore e l n) (begun.foldl (fun s q => s.poisonOut e q) s)

/-- The contexts that hold tasks satisfying `p`, by engine and context. -/
def State.tasksOf (s : State) (p : Nat → Nat → TaskRef → Bool) : List (Nat × Nat) :=
  s.ctxs.filterMap fun c => match c.2.task with
    | some t => if p (c.1 / 4) (c.1 % 4) t && !c.2.cut then some (c.1 / 4, c.1 % 4) else none
    | none => none

/-- Stops several tasks. -/
def State.stopTasks (s : State) (ts : List (Nat × Nat)) (c : Code) : State :=
  ts.foldl (fun s t => s.stopTask t.1 t.2 c) s

/-- Launched tasks that have not started, satisfying `p`, end unstarted with a code (R162, R163). -/
def State.dropWaiting (s : State) (p : WTask → Bool) (c : Code) : State :=
  let out := s.wtasks.filter p
  let s := { s with wtasks := s.wtasks.filter fun w => !p w }
  out.foldl (fun s w =>
    let unit := match s.engineOf w.l with
      | some e => unitWord e w.k
      | none => 0
    s.taskRecord w.q w.seq c 0 (if c = .aborted then nfaultOf causeABORT 0 0 else 0) unit true) s

end Sys2Proof.Machine
end

