-- ==== Sys2Proof/Machine/Queue.lean ====
section
/-! DEFINITION. The command queues (R151 to R164): reading slots, starting commands, launching tasks, aborts, timeouts,
disables, and commits with their completion records. -/
namespace Sys2Proof.Machine

/-! ## Reading (R152, R154, R160) -/

/-- Halts a queue with a cause (R160); the first cause stands. -/
def State.haltQ (s : State) (q cause : Nat) : State :=
  if s.flag (F.PLN_CQ_STATUS_HALT q) then s
  else (s.setFlag (F.PLN_CQ_STATUS_HALT q) true).fset (F.PLN_CQ_STATUS_HCAUSE q) cause

/-- Whether a queue may read and start commands: enabled and not halted (R160, R164). -/
def State.queueRuns (s : State) (q : Nat) : Bool :=
  s.flag (F.PLN_CQ_CFG_EN q) && decide (s.fget (F.PLN_CQ_CFG_LOG2N q) ≤ 13) && !s.flag (F.PLN_CQ_STATUS_HALT q)

/-- Entries of a queue's rings (R164). -/
def State.entries (s : State) (q : Nat) : Nat := 2 ^ (min 13 (s.fget (F.PLN_CQ_CFG_LOG2N q)) + 6)

/-- The package address of a ring: address bits below its alignment are not part of it (R164). -/
def State.ringAt (s : State) (lo hi align : Nat) : Nat :=
  ((s.reg hi).toNat % 2 ^ 16 * 2 ^ 32 + (s.reg lo).toNat) / align * align

/-- Takes a slot's contents as the queue's next command: a SEQ break halts the queue, and the first command a queue ever
reads is taken with any SEQ (R152, R160; DEDUCED, log entry 33). -/
def State.takeCmd (s : State) (q : Nat) (h : BitVec 64) (p : Payload) : State :=
  let c := s.cq q
  if (match c.next with
      | some n => n != hdSEQ h
      | none => false) then s.haltQ q 1
  else
    (s.setCq q { c with next := some (hdSEQ h + 1), read := c.read ++ [(h, p)], total := c.total + 1 }).fwrap
      (F.PLN_CQ_STATUS_HEAD q) 1

/-- The header and payload in the sixteen words of a slot. -/
def slotWords (ws : List MWord) : BitVec 64 × Payload :=
  let w (k : Nat) : BitVec 64 := pair64 (ws.getD (2 * k) poisonWord) (ws.getD (2 * k + 1) poisonWord)
  (w 0, ⟨w 1, w 2, w 3, w 4, w 5, w 6, w 7⟩)

/-- Reads up to `n` slots of a queue's ring, until it is empty or halts (R154, R160). -/
def State.readSlots (s : State) (q : Nat) : Nat → State
  | 0 => s
  | n + 1 =>
    let head := s.fget (F.PLN_CQ_STATUS_HEAD q)
    if !s.queueRuns q || s.fget (F.PLN_CQ_TAIL_TAIL q) == head then s
    else
      let a := s.ringAt (Reg.PLN_CQ_RING_LO q) (Reg.PLN_CQ_RING_HI q) 64 + 64 * (head % s.entries q)
      if s.memWaits a then s
      else
      let (ws, s) := s.readN .cmd s.pkgId a 16
      if ws.any (·.p) then s.haltQ q 2
      else (s.takeCmd q (slotWords ws).1 (slotWords ws).2).readSlots q n

/-- Reads whatever a queue's ring holds. -/
def State.fetchCmds (s : State) (q : Nat) : State :=
  s.readSlots q ((s.fget (F.PLN_CQ_TAIL_TAIL q) + 2 ^ 20 - s.fget (F.PLN_CQ_STATUS_HEAD q)) % 2 ^ 20)

/-! ## Payloads (R153, R155, R158) -/

/-- Whether every payload word from `w2` on is 0. -/
def rest0 (p : Payload) : Bool := p.w2 == 0 && p.w3 == 0 && p.w4 == 0 && p.w5 == 0 && p.w6 == 0 && p.w7 == 0

/-- The register a REGWR names, by its offset in the register window; none where the address is not a word of this
package's window (R23, R153). -/
def State.regOf (s : State) (p : Payload) : Option Nat :=
  let a := p.w1.toNat % 2 ^ 48
  if s.own (pkgOf p.w1) && decide (0x30000000000 ≤ a) && decide (a < 0x30100000000) && a % 4 == 0 then
    some (a - 0x30000000000) else none

/-- Whether a command is a phase write: a REGWR naming PLN_PHASE (R195). -/
def State.phaseCmd (s : State) (h : BitVec 64) (p : Payload) : Bool :=
  hdCMD h == 0x0A && s.regOf p == some Reg.PLN_PHASE

/-- Whether a unit byte triple names something DISABLE and ENABLE know (R153). -/
def unitOk (kind die idx : Nat) : Bool :=
  match kind with
  | 0 => decide (die < 4) && decide (idx < 24)
  | 1 => decide (die < 4)
  | 2 => decide (idx < 4)
  | 3 => decide (idx < 12)
  | 4 => true
  | _ => false

/-- Whether a command is refused before it does anything: another code, SYS on a host queue, or a malformed payload
(R153). UPDATE's payload is judged when its turn comes (R210). A SCHEDLD whose table lies in another package, which R158 does
not speak of, is malformed (DEDUCED, log entry 87). -/
def State.malformed (s : State) (q : Nat) (h : BitVec 64) (p : Payload) : Bool :=
  let host := !s.flag (F.PLN_CQ_CFG_OWNER q)
  let b (w : BitVec 64) (hi lo : Nat) : Nat := bits64 w hi lo
  (hdSYS h && host) || b h 52 48 != 0 ||
    (match hdCMD h with
     | 0x00 | 0x04 => p.w1 != 0 || !rest0 p
     | 0x01 => b p.w1 5 0 != 0 || !s.own (pkgOf p.w1) || b p.w2 63 46 != 0 || b p.w5 31 20 != 0 || b p.w5 63 34 != 0 ||
        b p.w5 33 32 == 3 || p.w6 != 0 || p.w7 != 0
     | 0x02 | 0x03 => decide (3 < b p.w1 7 0) || decide (23 < b p.w1 15 8) || b p.w1 31 24 != 0 || b p.w1 63 48 != 0 ||
        b p.w1 47 32 == 0 || !rest0 p
     | 0x05 => b p.w1 2 0 != 0 || !s.own (pkgOf p.w1) || b p.w2 7 4 != 0 || decide (1 < b p.w2 23 16) ||
        b p.w2 63 24 != 0 || p.w3 != 0 || p.w4 != 0 || p.w5 != 0 || p.w6 != 0 || p.w7 != 0
     | 0x06 => decide (15 < b p.w1 31 0) || (host && s.flag (F.PLN_CQ_CFG_OWNER (b p.w1 31 0))) || b p.w2 63 32 != 0 ||
        p.w3 != 0 || p.w4 != 0 || p.w5 != 0 || p.w6 != 0 || p.w7 != 0
     | 0x07 => !unitOk (b p.w1 7 0) (b p.w1 15 8) (b p.w1 23 16) || b p.w1 31 24 != 0 ||
        decide (1000000 < b p.w1 63 32) || !rest0 p
     | 0x08 => !unitOk (b p.w1 7 0) (b p.w1 15 8) (b p.w1 23 16) || b p.w1 63 24 != 0 || !rest0 p
     | 0x09 => false
     | 0x0A => (s.regOf p).isNone || b p.w2 63 32 != 0 || p.w3 != 0 || p.w4 != 0 || p.w5 != 0 || p.w6 != 0 || p.w7 != 0
     | _ => true)

/-! ## Starting (R154) -/

/-- Shows a queue's commands started and not committed (R164). -/
def State.showInfl (s : State) (q : Nat) : State :=
  s.fset (F.PLN_CQ_STATUS_INFLIGHT q) (min 63 ((s.cq q).infl.filter (·.began)).length)

/-- Whether any queue has a command that has started, or was aborted unstarted, and has not committed (R154, R162). -/
def State.anyOwed (s : State) : Bool := s.cqs.any fun c => !c.2.infl.isEmpty

/-- Whether a command is a full fence: STEP or a phase write (R154, R195). -/
def State.fullFence (s : State) (h : BitVec 64) (p : Payload) : Bool := hdCMD h == 0x04 || s.phaseCmd h p

/-- Whether the head of a queue may start, a full fence's own conditions apart (R152, R154): a command aborted unstarted still
owes its record and its commit. -/
def State.mayStart (s : State) (q : Nat) (h : BitVec 64) : Bool :=
  let c := s.cq q
  s.cpRuns && s.queueRuns q && decide ((c.infl.filter (·.began)).length < 32) && (s.fence.isNone || s.fence == some (q, hdSEQ h)) &&
    decide ((c.recs + 2 ^ 20 - s.fget (F.PLN_CQ_CPL_HEAD_HEAD q)) % 2 ^ 20 + c.infl.length < s.entries q) &&
    !(hdFENCE h && !c.infl.isEmpty)

/-- Whether a command of an Armature queue is a system task's (R150, R152). -/
def State.sysCmd (s : State) (q : Nat) (h : BitVec 64) : Bool := hdSYS h && s.flag (F.PLN_CQ_CFG_OWNER q)

/-- Takes the head of a queue as started. -/
def State.beginCmd (s : State) (q : Nat) (h : BitVec 64) (p : Payload) : State :=
  let c := s.cq q
  let x : Cmd := { hdr := h, pay := p, start := s.now }
  (s.setCq q { c with read := c.read.drop 1, infl := c.infl ++ [x] }).showInfl q

/-! ## LAUNCH and tasks (R132, R155, R156) -/

/-- The logical slots a LAUNCH selects (R155), by key. -/
def launchSlots (t : BitVec 64) : List Nat :=
  (List.range 4).flatMap fun d => (List.range 24).flatMap fun c => (List.range 16).filterMap fun l =>
    if t.getLsbD d && t.getLsbD (4 + c) && t.getLsbD (28 + l) then some (cluKey d c * 16 + l) else none

/-- The initial value of s`i` (R155): the payload's, or a schedule value. -/
def State.launchS (s : State) (p : Payload) (i : Nat) : BitVec 32 :=
  if p.w5.getLsbD (16 + i) then s.reg (Reg.PLN_SCHED_V (bits64 p.w5 (4 * i + 3) (4 * i)))
  else if i < 2 then (p.w3 >>> (32 * i)).truncate 32 else (p.w4 >>> (32 * (i - 2))).truncate 32

/-- Why a launch target is not started: quarantined, unbound or out of service, or disabled (R156, R163, R331, R346). -/
def State.targetCode (s : State) (l : Nat) : Option Code :=
  let u := l / 16
  if s.flag F.TST_STATUS_OOS || s.dieQ (u / 24) || s.flag (F.STR_SPARE_QUAR u) || (s.engineOf l).isNone then
    some .unitRetired
  else if s.fnOff 0 (u / 24) (u % 24) || s.disabled.any (fun d => d.1 == 1 && d.2.1 == u / 24) then some .aborted
  else none

/-- The position word of s29 (R132). -/
def posWord (l : Nat) : BitVec 32 := BitVec.ofNat 32 (l / 384 * 2 ^ 16 + l / 16 % 24 * 2 ^ 8 + l % 16)

/-- A task starts in its context (R132). -/
def State.startTask (s : State) (w : WTask) (e : Nat) : State :=
  let x : Ctx := { st := .run, prog := w.prog, task := some ⟨w.q, w.seq, w.sys⟩ }
  (s.settle e).setCtx (4 * e + w.k)
    (((((x.setS 0 w.s0).setS 1 w.s1).setS 2 w.s2).setS 3 w.s3).setS 29 (posWord w.l))

/-- Starts the first task that waits for context `k` of logical slot `l`, once the context is FREE (R132, R156). -/
def State.startWaiting (s : State) (l k : Nat) : State :=
  match s.engineOf l, s.wtasks.find? fun w => w.l == l && w.k == k with
  | some e, some w =>
    if (s.ctx (4 * e + k)).st = .free && !(s.eng e).stop && !(s.eng e).resetting then
      ({ s with wtasks := s.wtasks.erase w }).startTask w e
    else s
  | _, _ => s

/-- One target of a LAUNCH (R156). -/
def State.launchOne (s : State) (q : Nat) (h : BitVec 64) (p : Payload) (l : Nat) : State :=
  let k := bits64 p.w2 45 44
  match s.targetCode l with
  | some c =>
    let unit := match s.engineOf l with
      | some e => unitWord e k
      | none => 0
    s.taskRecord q (hdSEQ h) c 0 (if c = .aborted then nfaultOf causeABORT 0 0 else 0) unit false
  | none =>
    let w : WTask := { q := q, seq := hdSEQ h, l := l, k := k, prog := p.w1, s0 := s.launchS p 0, s1 := s.launchS p 1,
                       s2 := s.launchS p 2, s3 := s.launchS p 3, sys := s.sysCmd q h }
    { s with wtasks := s.wtasks ++ [w] }.startWaiting l k

/-- LAUNCH as it starts (R156, R194): no task where its phase is not in force. -/
def State.launch (s : State) (q : Nat) (h : BitVec 64) (p : Payload) : State :=
  let ph := bits64 p.w5 33 32
  if ph ≠ 0 ∧ ph ≠ s.fget F.PLN_PHASE_PHASE then s.finishCmd q (hdSEQ h) .aborted causeILLEGAL
  else
    let ts := launchSlots p.w2
    let s := s.modCmd q (hdSEQ h) fun x => { x with tasks := ts.length, done := ts.isEmpty }
    ts.foldl (fun s l => s.launchOne q h p l) s

/-! ## Disable and enable (R153, R163) -/

/-- Whether an engine lies in the cluster or die a DISABLE names. -/
def inFn (kind die idx e : Nat) : Bool :=
  if kind = 0 then e / 17 == cluKey die idx else kind == 1 && e / 408 == die

/-- The tasks that need a function: those in the cluster or die, those with transactions on the port, or those with a
collective in progress. -/
def State.fnTasks (s : State) (kind die idx : Nat) : List (Nat × Nat) :=
  s.tasksOf fun e k _ =>
    let l := (s.slotOf e).getD 0
    if kind ≤ 1 then inFn kind die idx e
    else if kind = 3 then s.rtx.any fun r => r.port == some idx && r.l == l &&
      (s.xfer (xk r.l r.slot)).id == r.id && (s.xfer (xk r.l r.slot)).ctx == k
    else kind == 4 && (List.range 2).any fun n => (s.coll (2 * l + n)).id != 0 && (s.coll (2 * l + n)).ctx == k

/-- Tasks launched on a function and not started. -/
def fnWaits (kind die idx : Nat) (w : WTask) : Bool :=
  if kind = 0 then w.l / 16 == cluKey die idx else kind == 1 && w.l / 384 == die

/-- Whether a disabled function holds no work. -/
def State.fnIdle (s : State) (kind die idx : Nat) : Bool :=
  if kind = 2 then (match s.upd with
    | some u => !u.act.any (·.rif == idx)
    | none => true) && !s.owns.any (·.rif == idx)
  else (s.fnTasks kind die idx).isEmpty && !s.wtasks.any (fnWaits kind die idx)

/-- DISABLE as it starts: new work is refused from here on, and a Riffler drains (R163, R221) (DEDUCED, log entry 83). -/
def State.disableFn (s : State) (q : Nat) (seq : BitVec 32) (kind die idx : Nat) : State :=
  let f := (kind, (if kind ≤ 1 then die else 0), (if kind = 1 ∨ kind = 4 then 0 else idx))
  let s := { s with disabled := if s.disabled.contains f then s.disabled else s.disabled ++ [f],
                    drains := s.drains ++ [(q, seq, f)] }
  if kind = 2 then s.rifDrain idx else s

/-- The end of a drain (R163, R221): work still running is stopped and counted, a Riffler leaves service, and the
DISABLE is done. -/
def State.drainOver (s : State) (d : Nat × BitVec 32 × Nat × Nat × Nat) (c : Code) : State :=
  let (q, seq, kind, die, idx) := d
  let s := { s with drains := s.drains.filter (· ≠ d) }
  let (n, s) :=
    if kind = 2 then
      ((match s.upd with
        | some u => (u.act.filter (·.rif == idx)).length
        | none => 0), s.rifLeave idx false)
    else
      let ts := s.fnTasks kind die idx
      let ws := s.wtasks.filter (fnWaits kind die idx)
      (ts.length + ws.length, (s.dropWaiting (fnWaits kind die idx) .aborted).stopTasks ts .aborted)
  (s.modCmd q seq fun x => { x with c1 := n }).finishCmd q seq c 0

/-- ENABLE: the function takes new work again; a Riffler out of service returns (R153, R220). -/
def State.enableFn (s : State) (kind die idx : Nat) : State :=
  let f := (kind, (if kind ≤ 1 then die else 0), (if kind = 1 ∨ kind = 4 then 0 else idx))
  let s := { s with disabled := s.disabled.filter (· ≠ f) }
  if kind = 2 && (s.fget (F.RIF_STATUS_STATE idx) == 2 || (s.fget (F.RIF_STATUS_STATE idx) == 3 &&
      s.rifEdgeOpen idx && !s.gone.contains (0x10000 + idx))) then s.rifReturn idx
  else s

/-! ## Stopping commands (R162, R163) -/

/-- Whether a full fence that has not started is the command (q, seq). -/
def State.dropFence (s : State) (q : Nat) (seq : BitVec 32) : State :=
  if s.fence = some (q, seq) then { s with fence := none } else s

/-- A command read and not started ends with a code, without running (R162). -/
def State.dropRead (s : State) (q : Nat) (h : BitVec 64) (p : Payload) (c : Code) : State :=
  let y := s.cq q
  let x : Cmd := { hdr := h, pay := p, start := s.now, began := false, done := true, code := c, stop := some c }
  (s.setCq q { y with read := y.read.filter (fun r => hdSEQ r.1 ≠ hdSEQ h), infl := y.infl ++ [x] }).dropFence q
    (hdSEQ h)

/-- A WAITSEM leaves its semaphore's queue. -/
def State.leaveSem (s : State) (p : Payload) (q : Nat) (seq : BitVec 32) : State :=
  let u := cluKey (bits64 p.w1 7 0) (bits64 p.w1 15 8)
  let k := bits64 p.w1 23 16
  (s.setWaiters (semKey u k) ((s.waiters (semKey u k)).filter fun w => match w with
    | .ctx _ _ _ => true
    | .cmd q' seq' _ => !(q' == q && seq' == seq))).service u k

/-- An abort or a timeout acts on a started command that has not committed (R162, R163). -/
def State.stopCmd (s : State) (q : Nat) (x : Cmd) (c : Code) : State :=
  let seq := hdSEQ x.hdr
  let s := s.modCmd q seq fun y => { y with stop := some c }
  if x.done then s
  else match hdCMD x.hdr with
    | 0x01 =>
      (s.dropWaiting (fun w => w.q == q && w.seq == seq) c).stopTasks
        (s.tasksOf fun _ _ t => t.q == q && t.seq == seq) c
    | 0x03 => (s.leaveSem x.pay q seq).finishCmd q seq c 0
    | 0x07 =>
      match s.drains.find? fun d => d.1 == q && d.2.1 == seq with
      | some d => s.drainOver d c
      | none => s.finishCmd q seq c 0
    | 0x09 => s.updStop q seq c
    | _ => s.finishCmd q seq c 0

/-! ## ABORT (R153, R163) -/

/-- Whether a SEQ lies in the inclusive range of an ABORT, modulo 2^32. -/
def inRange (first last seq : BitVec 32) : Bool := decide ((seq - first).toNat ≤ (last - first).toNat)

/-- How many of the `n` SEQs that end before `next` lie in a range (R163's COUNT2). -/
def seqOverlap (next : BitVec 32) (n : Nat) (first last : BitVec 32) : Nat :=
  let n := min n (2 ^ 32)
  let a := (next - BitVec.ofNat 32 n - first).toNat
  let m := (last - first).toNat + 1
  (min (a + n) m - min a m) + min (a + n - 2 ^ 32) m

/-- ABORT as it starts: every uncommitted command of the range but itself is stopped; one found aborting is waited for
and counted in COUNT2 with those committed before (R163; DEDUCED, log entry 34) (DEDUCED, log entry 86). -/
def State.abort (s : State) (q : Nat) (h : BitVec 64) (p : Payload) : State :=
  let t := bits64 p.w1 31 0
  let first : BitVec 32 := (p.w1 >>> 32).truncate 32
  let last : BitVec 32 := p.w2.truncate 32
  let y := s.cq t
  let hit (sq : BitVec 32) : Bool := inRange first last sq && !(t == q && sq == hdSEQ h)
  let inf := y.infl.filter fun x => hit (hdSEQ x.hdr)
  let rd := y.read.filter fun r => hit (hdSEQ r.1)
  let live := inf.filter fun x => x.stop.isNone
  let all := seqOverlap (y.next.getD 0) y.total first last
  let self := if t = q ∧ inRange first last (hdSEQ h) then 1 else 0
  let c2 := all - inf.length - rd.length - self + (inf.length - live.length)
  let s := rd.foldl (fun s r => s.dropRead t r.1 r.2 .aborted) s
  let s := live.foldl (fun s x => s.stopCmd t x .aborted) s
  let ts := inf.map (fun x => hdSEQ x.hdr) ++ rd.map fun r => hdSEQ r.1
  let s := s.modCmd q (hdSEQ h) fun x => { x with targets := ts, c1 := live.length + rd.length, c2 := c2 }
  if ts.isEmpty then s.finishCmd q (hdSEQ h) .doneBeforeAbort 0 else s

/-- A commit of (t, seq) is what an ABORT may have waited for (R163). -/
def Cmd.released (t : Nat) (seq : BitVec 32) (x : Cmd) : Cmd :=
  if hdCMD x.hdr = 0x06 ∧ bits64 x.pay.w1 31 0 = t ∧ x.targets.contains seq then
    let ts := x.targets.erase seq
    if ts.isEmpty ∧ x.done = false then
      { x with targets := ts, done := true, code := if 0 < x.c1 then .done else .doneBeforeAbort }
    else { x with targets := ts }
  else x

/-! ## Commit (R159, R161) -/

/-- The eight words of a completion record (R159). PHASE is 1 in the first pass of the ring, for which the spec gives no value
(DESIGN CHOICE, log entry 124). -/
def State.record (s : State) (q : Nat) (x : Cmd) (c : Code) : List MWord :=
  let phase := 1 - (s.cq q).recs / s.entries q % 2
  ([hdSEQ x.hdr,
    BitVec.ofNat 32 (hdCMD x.hdr * 2 ^ 24 + phase * 2 ^ 23 + x.cause * 2 ^ 8 + c.val),
    s.now.truncate 32, (s.now >>> 32).truncate 32, x.unit, x.nstat, x.nfault,
    BitVec.ofNat 32 (min 0xFFFF (if hdCMD x.hdr = 1 then x.tasks else x.c2) * 2 ^ 16 +
      min 0xFFFF (if hdCMD x.hdr = 1 then x.notDone else x.c1))] : List (BitVec 32)).map fun v => ⟨v, false⟩

/-- Writes a completion record: a failed write halts the queue and takes no place in the ring (R160; DEDUCED, log entry
33). -/
def State.putRecord (s : State) (q : Nat) (ws : List MWord) : State :=
  let y := s.cq q
  let a := s.ringAt (Reg.PLN_CQ_CPL_LO q) (Reg.PLN_CQ_CPL_HI q) 32 + 32 * (y.recs % s.entries q)
  let s' := s.writeN .cmd s.pkgId a ws
  if s.readable a then s'.setCq q { y with recs := (y.recs + 1) % 2 ^ 20 } else s'.haltQ q 3

/-- Interrupts a queue's owner (R152, R393). -/
def State.irqOwner (s : State) (q : Nat) : State :=
  if s.flag (F.PLN_CQ_CFG_OWNER q) then { s with armIrq := s.armIrq ||| (1 <<< q) } else s.irq q

/-- A phase write takes effect at its commit point (R195, R196). -/
def State.setPhase (s : State) (v : Nat) : State :=
  (((s.fset F.PLN_PHASE_PHASE v).fwrap F.PLN_PHASE_CHANGES 1).setReg Reg.PLN_PHASE_T_LO (s.now.truncate 32)).setReg
    Reg.PLN_PHASE_T_HI ((s.now >>> 32).truncate 32)

/-- A semaphore command's cluster, semaphore and N. -/
def semArgs (p : Payload) : Nat × Nat × Nat :=
  (cluKey (bits64 p.w1 7 0) (bits64 p.w1 15 8), bits64 p.w1 23 16, bits64 p.w1 47 32)

/-- Whether a waiter is a WAITSEM of a queue. -/
def Waiter.ofQueue (q : Nat) : Waiter → Bool
  | .ctx _ _ _ => false
  | .cmd r _ _ => r == q

/-- A started WAITSEM joins its semaphore's waiters unless one of its queue's stands there: a semaphore has one place for each
command queue (R140; DEDUCED, log entry 123). -/
def State.joinSem (s : State) (q : Nat) (seq : BitVec 32) (p : Payload) : State :=
  let (u, k, n) := semArgs p
  if (s.waiters (semKey u k)).any (Waiter.ofQueue q) then s
  else (s.setWaiters (semKey u k) (s.waiters (semKey u k) ++ [Waiter.cmd q seq n])).service u k

/-- The next WAITSEM of a queue on the same semaphore takes the place of one that has committed (R140). -/
def State.nextSem (s : State) (q : Nat) (x : Cmd) : State :=
  let at_ (p : Payload) : Nat × Nat := ((semArgs p).1, (semArgs p).2.1)
  if hdCMD x.hdr ≠ 0x03 then s
  else match (s.cq q).infl.find? fun y => hdCMD y.hdr == 0x03 && !y.done && at_ y.pay == at_ x.pay with
    | some y => s.joinSem q (hdSEQ y.hdr) y.pay
    | none => s

/-- The commit of a command that is done (R161): its record in completion order, and everything that waited for it. -/
def State.commit (s : State) (q : Nat) (x : Cmd) : State :=
  let seq := hdSEQ x.hdr
  let c := x.code.max (x.stop.getD Code.done)
  let y := s.cq q
  let s := (s.setCq q { y with infl := y.infl.filter fun z => hdSEQ z.hdr ≠ seq }).dropFence q seq
  let s := match x.phase with
    | some v => if c = Code.done then s.setPhase v else s
    | none => s
  let s := if hdCMD x.hdr = 0x09 then s.fwrap F.RIF_PKG_STATUS_UPDATES 1 else s
  let s := s.putRecord q (s.record q x c)
  let s := { s with cqs := s.cqs.map fun (p : Nat × CQ) =>
    (p.1, { p.2 with infl := p.2.infl.map (Cmd.released q seq) }) }
  let s := (s.showInfl q).nextSem q x
  if hdIRQ x.hdr then s.irqOwner q else s

/-- COMMAND_COMMIT (R161): a command that is done commits; a DISABLE whose function holds no more work ends its drain
first. -/
def execCommandCommit (q : Fin 16) (seq : BitVec 32) (s : State) : Host.Outcome State Fault Refusal :=
  let q := q.val
  let s' := match s.drains.find? fun d => d.1 == q && d.2.1 == seq with
    | some d => if s.fnIdle d.2.2.1 d.2.2.2.1 d.2.2.2.2 then s.drainOver d .done else s
    | none => s
  .next (match s'.cmd? q seq with
    | some x => if x.done then s'.commit q x else s
    | none => s)

/-- COMMAND_TIMEOUT (R152, R162): the command's TLIM has expired. -/
def execCommandTimeout (q : Fin 16) (seq : BitVec 32) (s : State) : Host.Outcome State Fault Refusal :=
  .next (match s.cmd? q seq with
    | some x => if hdTLIM x.hdr = 0 ∨ x.stop.isSome ∨ x.began = false then s else s.stopCmd q x .timeout
    | none => s)

/-- DRAIN_END (R163): a disable's drain time has expired. -/
def execDrainEnd (q : Fin 16) (seq : BitVec 32) (s : State) : Host.Outcome State Fault Refusal :=
  .next (match s.drains.find? fun d => d.1 == q.val && d.2.1 == seq with
    | some d => s.drainOver d .done
    | none => s)

/-! ## Tasks (R132) -/

/-- TASK_START (R132, R156). -/
def execTaskStart (l : LPos) (k : Fin 4) (s : State) : Host.Outcome State Fault Refusal :=
  .next (s.startWaiting l.key k)

/-- Whether everything a context issued has completed (R132). -/
def State.drained (s : State) (e k : Nat) : Bool :=
  (s.ctx (4 * e + k)).pend.isEmpty && !s.workBelow e k s.nextId

/-- TASK_COMPLETE (R132): a context in DRAIN with nothing outstanding sends its task record and becomes FREE. -/
def execTaskComplete (c : Cx) (s : State) : Host.Outcome State Fault Refusal :=
  let e := c.pos.key
  let k := c.ctx.val
  let x := s.ctx c.key
  .next (match x.task with
    | none => s
    | some t =>
      if x.st ≠ .drain ∨ x.held.isSome ∨ s.drained e k = false then s
      else ((s.settle e).setCtx c.key {}).taskRecord t.q t.seq x.code (x.s 31) (x.s 30) (unitWord e k) x.cut)

/-! ## What each command does as it starts (R153 to R158) -/

/-- SIGSEM: applied as SSIG (R153). -/
def State.sigSem (s : State) (q : Nat) (h : BitVec 64) (p : Payload) : State :=
  let (u, k, n) := semArgs p
  (s.signal u k n (if s.flag (F.PLN_CQ_CFG_OWNER q) then 0 else 2)).finishCmd q (hdSEQ h) .done 0

/-- WAITSEM: waits as SWAIT (R140, R153). -/
def State.waitSem (s : State) (q : Nat) (h : BitVec 64) (p : Payload) : State := s.joinSem q (hdSEQ h) p

/-- STEP: the scale-table advance, the schedules at the next step, and Loupe's judgement (R42, R157, R327). -/
def State.stepAll (s : State) (q : Nat) (h : BitVec 64) : State :=
  (s.scaleAdvance.evalSchedules.loupeJudge).finishCmd q (hdSEQ h) .done 0

/-- The breakpoints in the words of a schedule table. -/
def bpsOf : List MWord → List (BitVec 32 × BitVec 32)
  | a :: b :: r => (a.v, b.v) :: bpsOf r
  | _ => []

/-- Whether breakpoints may be loaded: steps strictly increasing and values finite (R158). -/
def bpsOk : List (BitVec 32 × BitVec 32) → Bool
  | [] => true
  | [(_, v)] => (f32 v).finite
  | (a, v) :: (b, w) :: r => decide (a.toNat < b.toNat) && (f32 v).finite && bpsOk ((b, w) :: r)

/-- SCHEDLD (R158): a table that may not be loaded leaves the slot unchanged. -/
def State.schedLoad (s : State) (q : Nat) (h : BitVec 64) (p : Payload) : State :=
  let n := bits64 p.w2 15 8
  let slot := bits64 p.w2 3 0
  let bad (s : State) : State := s.finishCmd q (hdSEQ h) .numericFault 0
  if n < 2 ∨ 64 < n then bad s
  else
    let (ws, s) := s.readG p.w1 (2 * n)
    let bps := bpsOf ws
    if ws.any (·.p) || !bpsOk bps then bad s
    else
      let m := bits64 p.w2 23 16 == 1
      let s := { s with sched := upsert s.sched slot (m, bps) }
      (s.setReg (Reg.PLN_SCHED_V slot) (schedValue m bps (s.reg Reg.SCT_STEP))).finishCmd q (hdSEQ h) .done 0

/-- What a command that has started does, by its code; REGWR apart. -/
def State.runCmd (s : State) (q : Nat) (h : BitVec 64) (p : Payload) : State :=
  let seq := hdSEQ h
  let b (hi lo : Nat) : Nat := bits64 p.w1 hi lo
  match hdCMD h with
  | 0x00 => s.finishCmd q seq .done 0
  | 0x01 => s.launch q h p
  | 0x02 => s.sigSem q h p
  | 0x03 => s.waitSem q h p
  | 0x04 => s.stepAll q h
  | 0x05 => s.schedLoad q h p
  | 0x06 => s.abort q h p
  | 0x07 => s.disableFn q seq (b 7 0) (b 15 8) (b 23 16)
  | 0x08 => (s.enableFn (b 7 0) (b 15 8) (b 23 16)).finishCmd q seq .done 0
  | 0x09 => s.updStart q seq
  | _ => s

/-- Starts the head of a queue with `act` for its effect (R153, R154, R195): a full fence waits until every started
command has committed, holding the processor meanwhile (DEDUCED, log entry 35), and a malformed command ends ABORTED. -/
def State.startHead (s : State) (q : Nat) (act : State → BitVec 64 → Payload → State) : State :=
  match (s.cq q).read with
  | [] => s
  | (h, p) :: _ =>
    if s.mayStart q h = false then s
    else if s.fullFence h p && s.anyOwed then { s with fence := some (q, hdSEQ h) }
    else
      let s := s.beginCmd q h p
      let s := if s.fullFence h p then { s with fence := some (q, hdSEQ h) } else s
      if s.malformed q h p then s.finishCmd q (hdSEQ h) .aborted causeILLEGAL else act s h p

/-- A command placed in a queue's ring and read: started at once when it may (R152 to R154) (DESIGN CHOICE, log entry 15). -/
def State.place (s : State) (q code : Nat) (h : BitVec 64) (p : Payload) : State :=
  let h := BitVec.ofNat 8 code ++ (h.truncate 56 : BitVec 56)
  if s.queueRuns q = false then s
  else
    let s := s.takeCmd q h p
    if (s.cq q).read = [(h, p)] then s.startHead q fun s h p => s.runCmd q h p else s

/-- NOP commits at its start (R153). -/
def execNop (q : Fin 16) (h : BitVec 64) (p : Payload) (s : State) : Host.Outcome State Fault Refusal :=
  let s := s.place q 0x00 h p
  .next (match s.cmd? q (hdSEQ h) with
    | some x => if hdCMD x.hdr = 0 ∧ x.done then s.commit q x else s
    | none => s)

/-- LAUNCH (R155, R156). -/
def execLaunch (q : Fin 16) (h : BitVec 64) (p : Payload) (s : State) : Host.Outcome State Fault Refusal :=
  .next (s.place q 0x01 h p)

/-- SIGSEM (R153). -/
def execSigsem (q : Fin 16) (h : BitVec 64) (p : Payload) (s : State) : Host.Outcome State Fault Refusal :=
  .next (s.place q 0x02 h p)

/-- WAITSEM (R153). -/
def execWaitsem (q : Fin 16) (h : BitVec 64) (p : Payload) (s : State) : Host.Outcome State Fault Refusal :=
  .next (s.place q 0x03 h p)

/-- STEP (R157). -/
def execStepCmd (q : Fin 16) (h : BitVec 64) (p : Payload) (s : State) : Host.Outcome State Fault Refusal :=
  .next (s.place q 0x04 h p)

/-- SCHEDLD (R158). -/
def execSchedld (q : Fin 16) (h : BitVec 64) (p : Payload) (s : State) : Host.Outcome State Fault Refusal :=
  .next (s.place q 0x05 h p)

/-- ABORT (R163). -/
def execAbortCmd (q : Fin 16) (h : BitVec 64) (p : Payload) (s : State) : Host.Outcome State Fault Refusal :=
  .next (s.place q 0x06 h p)

/-- DISABLE (R163). -/
def execDisable (q : Fin 16) (h : BitVec 64) (p : Payload) (s : State) : Host.Outcome State Fault Refusal :=
  .next (s.place q 0x07 h p)

/-- ENABLE (R153). -/
def execEnable (q : Fin 16) (h : BitVec 64) (p : Payload) (s : State) : Host.Outcome State Fault Refusal :=
  .next (s.place q 0x08 h p)

/-- UPDATE (R210, R218). -/
def execUpdate (q : Fin 16) (h : BitVec 64) (p : Payload) (s : State) : Host.Outcome State Fault Refusal :=
  .next (s.place q 0x09 h p)

/-! ## System instructions (R150) -/

/-- TRET (R150): legal in a system task only; the unit's retirement is recorded in Inscription, which completes it, and
FAULT_N reports it (R388). -/
def execTret (c : Cx) (w : BitVec 56) (s : State) : Host.Outcome State Fault Refusal :=
  let w := mkWord 0xE0 w
  let e := c.pos.key
  let k := c.ctx.val
  let sys := (s.ctx c.key).task.any (·.sys)
  .next (s.atIssue e k w (legalTRET w && sys) fun s x =>
    if s.scalarHeld e k [tcRI w] then s
    else
      let u := x.s (tcRI w)
      let s := if s.retire.contains u then s else ({ s with retire := s.retire ++ [u] } : State).faultN 1
      s.setCtx c.key (x.past w (s.nextTurn e)))

/-- TCAP (R150): legal in a system task only; its context waits for the run. -/
def execTcap (c : Cx) (w : BitVec 56) (s : State) : Host.Outcome State Fault Refusal :=
  let w := mkWord 0xE1 w
  let e := c.pos.key
  let k := c.ctx.val
  let sys := (s.ctx c.key).task.any (·.sys)
  .next (s.atIssue e k w (legalTCAP w && sys) fun s x =>
    if s.scalarHeld e k [tcRI w, tcRD w] then s
    else
      s.setCtx c.key { ((x.past w (s.nextTurn e)).wait 8 0 s.now) with
        cap := some ((x.s (tcRI w)).toNat % 256, tcRD w) })

/-- Whether capsules may load and run: PROVISIONED, DEPLOYED or GRANTED (R338). -/
def State.capLife (s : State) : Bool := s.sec.life == 1 || s.sec.life == 2 || s.sec.life == 3

/-- Whether every other context of an engine is FREE, WAIT or DRAIN with nothing it issued still running: neither
instructions nor transfers, batches or collectives (R150). -/
def State.othersIdle (s : State) (e k : Nat) : Bool :=
  ([0, 1, 2, 3].filter (· ≠ k)).all fun j =>
    let st := (s.ctx (4 * e + j)).st
    st != .run && st != .late && !s.workBelow e j s.nextId

/-- What TCAP writes to RD for the capsule at an index (R150, R337, R338): the run passes where its image is the one the
capsule expects and the silicon gives that image with every residue checking. -/
def State.tcapResult (s : State) (e i : Nat) (silicon : Bool) : Nat :=
  if !s.capLife then 3
  else match lookup s.capsules i with
    | none => 2
    | some z => if z.size = 0 then 2 else if silicon && s.capMatches e z then 0 else 1

/-- TCAP_RUN (R150, R337): the capsule runs on its own engine; `silicon` says whether the engine computed as it should. -/
def execTcapRun (c : Cx) (silicon : Bool) (s : State) : Host.Outcome State Fault Refusal :=
  let e := c.pos.key
  let k := c.ctx.val
  let x := s.ctx c.key
  .next (match x.cap with
    | none => s
    | some (i, rd) =>
      if s.othersIdle e k = false ∨ s.canRun e = false ∨ x.st ≠ .wait then s
      else
        let res := s.tcapResult e i silicon
        let s := if res = 1 then s.permanent 0x11 (engineUnit e) (BitVec.ofNat 32 i) else s
        (s.settle e).setCtx c.key { (x.setS rd (BitVec.ofNat 32 res)).resume with cap := none })

end Sys2Proof.Machine
end

