-- ==== Sys2Proof/Machine/Repair.lean ====
section
/-! DEFINITION. Slot maps, hand-over and the test rotation (R330 to R336), quarantine, die-to-die edges (R16, R17) and the
retirement of units (R339, R340). -/
namespace Sys2Proof.Machine

/-! ## The slot map and the spare (R330, R331, R351) -/

/-- The spare a retirement in a cluster takes, as an engine key: none while NONE is 1 or an engine is being tested or handed
over (R339). -/
def State.spareIn (s : State) (u : Nat) : Option Nat :=
  let ph := (s.rot u).phase
  if s.flag (F.STR_SPARE_NONE u) || !(ph == .idle || ph == .grace) then none
  else some (17 * u + s.fget (F.STR_SPARE_SPARE u))

/-- The spare free for a rotation or a replay: none in a quarantined cluster (R324, R334). -/
def State.spareOf (s : State) (u : Nat) : Option Nat := if s.flag (F.STR_SPARE_QUAR u) then none else s.spareIn u

/-- Counts the clusters with no spare in FLT_STATUS (R324). -/
def State.showNoSpare (s : State) : State :=
  s.fset F.FLT_STATUS_NOSPARE ((List.range 96).filter fun u => s.flag (F.STR_SPARE_NONE u)).length

/-- Names the spare, or says that the cluster has none, which ends the replays it owes (R324). -/
def State.setSpare (s : State) (u : Nat) (e : Option Nat) : State :=
  (match e with
   | some e => (s.setFlag (F.STR_SPARE_NONE u) false).fset (F.STR_SPARE_SPARE u) (e % 17)
   | none => ((s.setFlag (F.STR_SPARE_NONE u) true).fset (F.STR_SPARE_SPARE u) 0x1F).dropReplays fun e =>
      e / 17 == u).showNoSpare

/-- Whether an engine is retired. -/
def State.retired (s : State) (e : Nat) : Bool := (s.fget (F.STR_SPARE_RETIRED (e / 17))).testBit (e % 17)

/-- Binds logical slot `l` to an engine, or unbinds it. -/
def State.bind (s : State) (l : Nat) (e : Option Nat) : State :=
  match e with
  | some e => (s.setFlag (boundFld l) true).fset (engineFld l) (e % 17)
  | none => (s.setFlag (boundFld l) false).fset (engineFld l) 0

/-- The slot map at package cold reset (R330): slots in increasing order take the engines not retired; the one left over
is the spare. -/
def State.rebuildMap (s : State) (u : Nat) : State :=
  let free := ((List.range 17).map (17 * u + ·)).filter fun e => !s.retired e
  let s := (List.range 16).foldl (fun s i => s.bind (16 * u + i) (free[i]?)) s
  s.setSpare u (free[16]?)

/-! ## Hand-over (R332, R333) -/

/-- Moves the entries under keys [n·x, n·x + n) to n·t, in place of what stood there. -/
def moveRange {α : Type} [DecidableEq α] (d : α) (m : List (Nat × α)) (n x t : Nat) : List (Nat × α) :=
  (m.filter fun p => p.1 / n == x).foldl (fun o p => Sparse.set (fun _ => d) o (t * n + p.1 % n) p.2)
    (m.filter fun p => p.1 / n != x && p.1 / n != t)

/-- An armed Loupe chain follows its engine. -/
def Loupe.follow (x t : Nat) (l : Loupe) : Loupe :=
  let go (c : Nat × Nat × Nat) : Nat × Nat × Nat := if c.1 = x then (t, c.2) else c
  { l with armed := l.armed.map go, queued := l.queued.map go }

/-- Copies the state of engine `x` to `t` (R332 step 2): contexts, tile registers with tags and side-bands, accumulators,
queues and pending signals. -/
def State.copyEngine (s : State) (x t : Nat) : State :=
  let a := s.eng x
  let b := s.eng t
  let now := s.now
  let s := { s with ctxs := moveRange {} s.ctxs 4 x t, tiles := moveRange 0 s.tiles 131072 x t,
                    sides := moveRange 0 s.sides 4096 x t, tags := moveRange {} s.tags 64 x t,
                    tileEcc := moveRange 0 s.tileEcc 33792 x t,
                    accs := moveRange 0 s.accs 8192 x t, heads := moveRange 0 s.heads 8 x t }
  let s := s.setEng t { b with qA := a.qA, qB := a.qB, qV := a.qV, runA := none, runB := none, runV := none,
                               loupeHold := a.loupeHold, latch := a.latch, stop := false, copying := false,
                               peerIdle := a.peerIdle,
                               busyAt := now }
  let s := s.setEng x { a with qA := [], qB := [], qV := [], runA := none, runB := none, runV := none,
                               loupeHold := false, latch := [], stop := false, copying := false, peerIdle := 0 }
  s.setLoupe (x / 17) ((s.loupe (x / 17)).follow x t)

/-- Whether nothing runs in an engine's arrays or vector unit. -/
def Engine.quiet (x : Engine) : Bool := x.runA.isNone && x.runB.isNone && x.runV.isNone

/-- Step 1 of a hand-over: the engine issues nothing more (R332). -/
def State.beginHandover (s : State) (u : Nat) (r : Rot) : State :=
  let s := s.settle r.x
  (s.modEng r.x fun x => { x with stop := true }).setRot u { r with phase := .stopped }

/-- Stops that met a hand-over now abandoned act on the engine that keeps its slot (R163, R333). -/
def State.stopHeld (s : State) (e : Nat) : State :=
  [0, 1, 2, 3].foldl (fun s k => match (s.ctx (4 * e + k)).held with
    | some c => (s.modCtx (4 * e + k) fun x => { x with held := none }).stopTask e k c
    | none => s) s

/-- Abandons a hand-over or a rotation (R333): the engine leaving issues again; a rotation is deferred. -/
def State.abandon (s : State) (u : Nat) : State :=
  let r := s.rot u
  match r.phase with
  | .idle => s
  | .testing =>
    ((s.setFlag (F.STR_SPARE_TESTING u) false).setRot u { r with phase := .idle }).setSpare u (some r.x)
  | _ =>
    let s := (s.settle r.x).modEng r.x fun x => { x with stop := false, copying := false }
    let s := (s.setRot u { r with phase := .idle, drainOver := false }).stopHeld r.x
    if r.test then (s.modEng r.x fun x => { x with deferred := true }).fsat F.TST_COUNT_DEFERRED 1 else s

/-- Whether the rotation or hand-over of its cluster uses an engine as the one leaving, tested or taking over. -/
def State.involved (s : State) (e : Nat) : Bool :=
  let r := s.rot (e / 17)
  match r.phase with
  | .idle => false
  | .testing => r.x == e
  | _ => r.x == e || r.s == e

/-- Whether a capture of engine `e` still owes its replay with replays enabled (R324). -/
def State.owesReplay (s : State) (e : Nat) : Bool :=
  s.flag F.FLT_CFG_REPLAY && s.caps.any fun c => c.2.unit == engineUnit e && !c.2.running

/-- Whether every context of an engine is FREE or waits at BAR (R335). -/
def State.atBarrier (s : State) (e : Nat) : Bool :=
  [0, 1, 2, 3].all fun k =>
    let c := s.ctx (4 * e + k)
    c.st == .free || (c.st == .wait && c.why == 2)

/-- Whether a context of an engine drains (R163, R335). -/
def State.drains? (s : State) (e : Nat) : Bool := [0, 1, 2, 3].any fun k => (s.ctx (4 * e + k)).st == .drain

/-- HANDOVER (R332, R335, R339): issue stops on the engine bound to a slot: of a rotation whose window has opened, once
every context is at a barrier or FREE with nothing running, or once its draining context is FREE after the window; or
of an engine whose retirement or replay is owed. Only the hand-over of a retirement is one for a fault: that of a replay moves
the work as the test rotation does (R324). -/
def execHandover (c : Clu) (i : Fin 16) (s : State) : Host.Outcome State Fault Refusal :=
  let u := c.key
  let l := 16 * u + i.val
  let r := s.rot u
  .next (match s.engineOf l, s.spareIn u with
    | some e, some sp =>
      let retires := s.retire.contains (engineUnit e)
      if r.phase = .grace ∧ r.x = e then
        (if (s.atBarrier e ∧ (s.eng e).quiet) ∨ (r.drainOver ∧ s.drains? e = false) then
          s.beginHandover u { r with drainOver := false } else s)
      else if retires ∨ (s.owesReplay e ∧ (s.spareOf u).isSome) then
        s.beginHandover u { r with x := e, s := sp, slot := l, fault := retires, test := false, drainOver := false,
                                   owed := if r.phase = .grace then r.owed + 1 else r.owed }
      else s
    | _, _ => s)

/-- HANDOVER_COPY (R332 step 2): nothing runs in the engine's arrays or vector unit; the copy begins, and its contexts
show WHY 7. -/
def execHandoverCopy (c : Clu) (s : State) : Host.Outcome State Fault Refusal :=
  let u := c.key
  let r := s.rot u
  .next (if r.phase = .stopped ∧ (s.eng r.x).quiet then
      ((s.settle r.x).modEng r.x fun x => { x with copying := true }).setRot u { r with phase := .copied } else s)

/-- The tasks of an engine take MIGRATED (R163, R332). -/
def State.markMigrated (s : State) (e : Nat) : State :=
  [0, 1, 2, 3].foldl (fun s k => s.modCtx (4 * e + k) fun x =>
    if x.task.isSome then { x with code := x.code.max .migrated } else x) s

/-- Marks the history entries of a unit RETIRED (R322). -/
def State.markRetired (s : State) (unit : BitVec 32) : State :=
  { s with hist := s.hist.map (fun (h : Hist) => if h.unit == unit then { h with flags := h.flags ||| 4 } else h),
           retire := s.retire.filter (· ≠ unit) }

/-- An engine is retired: recorded in Inscription, with a RECOVERY record. -/
def State.recordRetired (s : State) (e : Nat) : State :=
  let f := F.STR_SPARE_RETIRED (e / 17)
  ((s.fset f (s.fget f ||| 2 ^ (e % 17))).markRetired (engineUnit e)).recovery (engineUnit e) 5

/-- HANDOVER_BIND (R332 step 3, R163): the slot map binds the slot to the spare, stops that met the hand-over act there,
and the engine that left is tested, replayed or retired. -/
def execHandoverBind (c : Clu) (s : State) : Host.Outcome State Fault Refusal :=
  let u := c.key
  let r := s.rot u
  .next (if r.phase ≠ .copied then s
    else
      let s := s.settle r.x
      let retires := !r.test && s.retire.contains (engineUnit r.x)
      let s := if retires then s.markMigrated r.x else s
      let s := (s.copyEngine r.x r.s).bind r.slot (some r.s)
      let s := [0, 1, 2, 3].foldl (fun s k =>
        match (s.ctx (4 * r.s + k)).held with
        | some cd => (s.setRot u { r with phase := .idle }).stopTask r.s k cd
        | none => s) s
      if retires then
        ((s.setRot u { r with phase := .idle, fault := false }).setSpare u none).recordRetired r.x
      else
        ((s.setSpare u (some r.x)).setFlag (F.STR_SPARE_TESTING u) r.test).setRot u { r with phase := .testing })

/-! ## The test rotation (R334 to R336) -/

/-- Whether a cluster's rotation is suspended: EN 0, no spare, quarantine, or sag level L1 (R304, R334). -/
def State.rotSuspended (s : State) (u : Nat) : Bool :=
  !s.flag F.TST_CFG_EN || s.flag (F.STR_SPARE_NONE u) || s.flag (F.STR_SPARE_QUAR u) || !s.sampling ||
    s.dieQ (u / 24) || s.clReset.contains u || s.dieReset.contains (u / 24)

/-- TST_STATUS.SUSP as it reads. -/
def State.susp (s : State) : Bool := (List.range 96).any s.rotSuspended

/-- The bound engine to test next (R334, R335): deferred ones first, then the oldest test, then the lowest number. -/
def State.nextTested (s : State) (u : Nat) : Option (Nat × Nat) :=
  let bs := (List.range 16).filterMap fun i => (s.engineOf (16 * u + i)).map fun e => (e, 16 * u + i)
  let rank (e : Nat) : Nat := (if (s.eng e).deferred then 0 else 2 ^ 32 + (s.eng e).lastTest * 32) + e % 17
  bs.foldl (fun b x => match b with
    | none => some x
    | some y => if rank x.1 < rank y.1 then some x else some y) none

/-- ROTATION_DUE (R334, R335): the engine is selected and the grace window opens; a rotation due in a suspension is owed
(DEDUCED, log entry 66). -/
def execRotationDue (c : Clu) (s : State) : Host.Outcome State Fault Refusal :=
  let u := c.key
  let r := s.rot u
  .next (if s.rotSuspended u ∨ r.phase ≠ .idle then s.setRot u { r with owed := r.owed + 1 }
    else match s.nextTested u, s.spareOf u with
      | some (e, l), some sp =>
        s.setRot u { r with phase := .grace, x := e, s := sp, slot := l, fault := false, test := true,
                            drainOver := false, owed := r.owed - 1 }
      | _, _ => s)

/-- GRACE_EXPIRY (R335): the window ends; a draining context holds the hand-over back. -/
def execGraceExpiry (c : Clu) (s : State) : Host.Outcome State Fault Refusal :=
  let u := c.key
  let r := s.rot u
  .next (if r.phase ≠ .grace then s
    else if s.drains? r.x then s.setRot u { r with drainOver := true }
    else s.beginHandover u r)

/-- ROTATION_DEFERRAL (R335): a context is still draining GRACE after the window. -/
def execRotationDeferral (c : Clu) (s : State) : Host.Outcome State Fault Refusal :=
  let u := c.key
  let r := s.rot u
  .next (if r.phase = .grace ∧ r.drainOver ∧ s.drains? r.x then
      ((s.setRot u { r with phase := .idle, drainOver := false }).modEng r.x fun x =>
        { x with deferred := true }).fsat F.TST_COUNT_DEFERRED 1
    else s)

/-- The tested engine becomes the spare (R334). -/
def State.testPassed (s : State) (u : Nat) (r : Rot) : State :=
  let n := r.tests + 1
  (s.modEng r.x fun x => { x with lastTest := n, deferred := false }).setSpare u (some r.x)

/-- The tested engine is retired and the cluster has no spare (R336). -/
def State.testFailed (s : State) (u : Nat) (r : Rot) : State := (s.setSpare u none).recordRetired r.x

/-- The class of a failing site (R320, R336). -/
def siteClass : FailSite → BitVec 8
  | .arith => 3
  | .lockstep => 4
  | .handshake => 5
  | .checker | .loupe => 6

/-- The record of a failing site: the engine under test, or the cluster for its Loupe's checker array (R328, R336). -/
def siteRec (u x : Nat) (a : FailSite) (sig : BitVec 32) : FRec :=
  { cls := siteClass a, unit := if a = .loupe then cluUnit u else engineUnit x, sig := sig }

/-- Whether a rotation runs the capsule at an index: it is stored and enabled, and the lifecycle state permits capsules (R334,
R338). -/
def State.capRuns (s : State) (i : Nat) : Bool :=
  s.capLife && (match lookup s.capsules i with
    | some z => z.enabled && z.size != 0
    | none => false)

/-- The first enabled capsule whose image an engine that computes as it should does not give (R338). -/
def State.capFails (s : State) (e : Nat) : Option Nat :=
  (s.capsules.find? fun c => s.capRuns c.1 && !s.capMatches e c.2).map (·.1)

/-- A capsule mismatch: PERMANENT at once, and the engine is retired with no repeat (R336). -/
def State.capsuleFailed (s : State) (u : Nat) (r : Rot) (i : Nat) : State :=
  ((s.fsat F.TST_COUNT_FAILS 1).permanent 0x11 (engineUnit r.x) (BitVec.ofNat 32 i)).testFailed u r

/-- The self-test and checker tests are over, the enabled capsules having run: the engine becomes the spare unless a capsule
fails (R334). -/
def State.testsOver (s : State) (u : Nat) (r : Rot) : State :=
  match s.capFails r.x with
  | some i => s.capsuleFailed u r i
  | none => s.testPassed u r

/-- Whether an outcome is the mismatch of a capsule that the rotation does not run. -/
def State.noEvent (s : State) (o : TestOutcome) : Bool :=
  match o with
  | .capsule i => !s.capRuns i.toNat
  | _ => false

/-- ROTATION_TEST_DONE (R334, R336). A failing checker array of Loupe is a fault of the cluster, and the engine passes (R328;
DEDUCED, log entry 30). A mismatch of a capsule that the rotation does not run is no event. -/
def execRotationTestDone (c : Clu) (o : TestOutcome) (s : State) : Host.Outcome State Fault Refusal :=
  let u := c.key
  let r := s.rot u
  .next (if r.phase ≠ .testing ∨ r.test = false ∨ s.noEvent o then s
    else
      let s := (s.setFlag (F.STR_SPARE_TESTING u) false).fwrap F.TST_COUNT_ROTATIONS 1
      let s := s.setRot u { r with phase := .idle, tests := r.tests + 1 }
      match o with
      | .pass => s.testsOver u r
      | .passRepeat a sig => ((s.fsat F.TST_COUNT_FAILS 1).classify (siteRec u r.x a sig)).testsOver u r
      | .failTwice a sig =>
        let f := siteRec u r.x a sig
        let s := ((s.fsat F.TST_COUNT_FAILS 1).occur f).filePermanent f true
        if a = .loupe then s.testsOver u r else s.testFailed u r
      | .capsule i => s.capsuleFailed u r i.toNat)

/-! ## Ending the work of a cluster or die (R343) -/

/-- Every task of the clusters that satisfy `p` ends with a code, started or not. -/
def State.stopWhere (s : State) (p : Nat → Bool) (c : Code) : State :=
  (s.dropWaiting (fun w => p (w.l / 16)) c).stopTasks (s.tasksOf fun e _ _ => p (e / 17)) c

/-- A cluster's engines are reset: queues, units, contexts' instruction state and tile tags (R88, R343) (DEDUCED, log
entry 37). -/
def State.clearEngine (s : State) (e : Nat) : State :=
  let x := s.eng e
  let s := { s with tags := s.tags.filter fun t => t.1 / 64 != e }
  s.setEng e { x with qA := [], qB := [], qV := [], runA := none, runB := none, runV := none, stop := false,
                      copying := false, loupeHold := false, latch := [] }

/-! ## Quarantine (R17, R345, R346) -/

/-- A cluster is quarantined: its tasks end POISONED, its rotation is abandoned, the replays it owes are given up (R324), and
FAULT_N reports it. -/
def State.quarCluster (s : State) (u : Nat) : State :=
  if s.flag (F.STR_SPARE_QUAR u) then s
  else
    let s := (s.abandon u).stopWhere (· == u) .poisoned
    (((s.setFlag (F.STR_SPARE_QUAR u) true).dropReplays fun e => e / 17 == u).recovery (cluUnit u) 3).faultN 2

/-- A die is quarantined: its hand-overs and replays are abandoned, its tasks end POISONED, its stacks and SRAM slot leave
the address map, its rail falls, a dump is written, and with a second die quarantined the package is out of service (R17,
R345, R347, R353). -/
def State.quarDie (s : State) (d : Nat) : State :=
  if s.dieQ d then s
  else
    let s := ((List.range 24).foldl (fun s i => s.abandon (24 * d + i)) s).stopWhere (fun u => u / 24 == d) .poisoned
    let s := s.dropReplays fun e => e / 408 == d
    let s := s.fset F.TST_ESC_DIEQ (s.fget F.TST_ESC_DIEQ ||| 2 ^ d)
    let s := s.fset F.PLN_DIE_MAP_CD_ACTIVE (s.fget F.PLN_DIE_MAP_CD_ACTIVE &&& (15 - 2 ^ d))
    let s := (s.fset (F.HEL_STATUS_VOUT d) 0).setFlag (F.HEL_STATUS_LOCKED d) false
    let s := { s with cache := s.cache.filter fun c => c.die != d }
    let s := ((s.recovery (BitVec.ofNat 32 (0x20000000 + d)) 3).dump 5 []).faultN 2
    if 2 ≤ ((List.range 4).filter s.dieQ).length then s.outOfService else s

/-! ## Die-to-die edges (R13, R16, R17) -/

/-- Modules of an edge, and how many of them are active when it is FULL. -/
def edgeMods (e : Nat) : Nat × Nat := if e < 8 then (34, 32) else (9, 8)

/-- The failed modules of an edge. -/
def State.badMods (s : State) (e : Nat) : BitVec 34 := Sparse.get (fun _ => 0) s.modBad e

/-- The good modules of an edge. -/
def State.goodMods (s : State) (e : Nat) : Nat :=
  ((List.range (edgeMods e).1).filter fun m => !(s.badMods e).getLsbD m).length

/-- Whether an edge is trained: FULL or NARROW. -/
def State.edgeUp (s : State) (e : Nat) : Bool :=
  s.fget (F.PLN_EDGE_STATUS_STATE e) == 1 || s.fget (F.PLN_EDGE_STATUS_STATE e) == 2

/-- Whether an open path joins a die to Plinth (R17; DEDUCED, log entry 68). -/
def State.joined (s : State) (d : Nat) : Bool := (s.plinthPath d).isSome

/-- What the states of the edges lead to (R17): a Riffler behind a CLOSED edge leaves service, and a die no path joins to
Plinth is quarantined. -/
def State.edgeEffects (s : State) : State :=
  let s := (List.range 4).foldl (fun s n => if s.rifEdgeOpen n then s else s.rifLeave n true) s
  (List.range 4).foldl (fun s d => if s.joined d then s else s.quarDie d) s

/-- An edge's state from its count of good modules (R16). -/
def State.setEdge (s : State) (e : Nat) : State :=
  let (_, act) := edgeMods e
  let g := s.goodMods e
  let st := if act ≤ g then 1 else if act / 2 ≤ g then 2 else 3
  ((s.fset (F.PLN_EDGE_STATUS_STATE e) st).fset (F.PLN_EDGE_STATUS_ACTIVE e) (if st = 3 then 0 else min act g)).fset
    (F.PLN_EDGE_STATUS_SPARES e) (g - act)

/-- A module fails (R16, R339): with a spare the edge retrains to substitute it; with none the edge narrows or closes. -/
def State.failModule (s : State) (e m : Nat) : State :=
  let (n, act) := edgeMods e
  if n ≤ m ∨ (s.badMods e).getLsbD m then s
  else
    let g := s.goodMods e
    let s := { s with modBad := Sparse.set (fun _ => 0) s.modBad e (s.badMods e ||| (1#34 <<< m)) }
    if act < g then { s with modWait := if s.modWait.contains e then s.modWait else s.modWait ++ [e] }
    else (s.setEdge e).edgeEffects

/-- EDGE_MODULE_FAIL (R16, R18, R320): the failure is a classified LINK record. No transfer is lost. -/
def execEdgeModuleFail (e : Fin 12) (m : BitVec 6) (s : State) : Host.Outcome State Fault Refusal :=
  let e := e.val
  let m := m.toNat
  .next (if s.edgeUp e = false ∨ (edgeMods e).1 ≤ m ∨ (s.badMods e).getLsbD m then s
    else
      (s.failModule e m).classify
        { cls := 7, unit := BitVec.ofNat 32 (0x80000000 + e * 256 + m), sig := BitVec.ofNat 32 m })

/-- MODULE_SPARE_DONE (R339): the retrain of the edge with its spare module ends. -/
def execModuleSpareDone (e : Fin 12) (s : State) : Host.Outcome State Fault Refusal :=
  .next (if s.modWait.contains e.val then
      (({ s with modWait := s.modWait.filter (· ≠ e.val) } : State).setEdge e.val).edgeEffects else s)

/-! ## Storage (R170, R191, R340) -/

/-- Entries a unit's retired-page table holds. -/
def pageCap (u : Nat) : Nat := if u < 16 then 512 else 128

/-- The entries in use of a unit's retired-page table. -/
def State.pageList (s : State) (u : Nat) : List (BitVec 32) :=
  (s.pages.filter fun p => p.1 / 512 == u && p.2.getLsbD 31).map (·.2)

/-- The channel an entry counts against (R340). -/
def entryCh (u : Nat) (w : BitVec 32) : Nat := if u < 16 then w.toNat / 2 ^ 19 % 32 else w.toNat / 2 ^ 25 % 8

/-- Writes a unit's table anew, in order. -/
def State.putPages (s : State) (u : Nat) (ws : List (BitVec 32)) : State :=
  let rest := s.pages.filter fun p => p.1 / 512 != u
  { s with pages := (ws.mapIdx fun i w => (512 * u + i, w)).foldl (fun m p => Sparse.set (fun _ => 0) m p.1 p.2) rest }

/-- Retires a channel (R339, R340): its bit of MEM_H_CHRET; a stack or device with too many is RETIRED. -/
def State.retireChannel (s : State) (u ch : Nat) : State :=
  let s := s.setReg (Reg.MEM_H_CHRET u) (s.reg (Reg.MEM_H_CHRET u) ||| (1#32 <<< ch))
  let n := ((List.range 32).filter (s.reg (Reg.MEM_H_CHRET u)).getLsbD).length
  let s := s.fset (F.MEM_H_STATUS_RETCH u) n
  let lim := if u < 16 then s.fget F.TST_THR_STACK_CH else s.fget F.TST_THR_SLOW_CH
  if lim ≤ n then s.fset (F.MEM_H_STATUS_STATE u) 3 else s

/-- The channel with the most entries, the lowest on a tie. -/
def worstCh (u : Nat) (ws : List (BitVec 32)) : Nat :=
  let n (c : Nat) : Nat := (ws.filter fun w => entryCh u w == c).length
  (List.range 32).foldl (fun b c => if n b < n c then c else b) 0

/-- Enters a page in the retired-page table (R339, R340). -/
def State.retirePage (s : State) (u : Nat) (w : BitVec 32) : State :=
  let ws := s.pageList u
  if ws.contains w then s
  else if pageCap u ≤ ws.length then
    let c := worstCh u ws
    (s.putPages u (ws.filter fun x => entryCh u x != c)).retireChannel u c
  else
    let ws := ws ++ [w]
    let s := s.putPages u ws
    let c := entryCh u w
    if max 1 (s.fget F.TST_THR_CH_PAGES) ≤ (ws.filter fun x => entryCh u x == c).length then s.retireChannel u c else s

/-- The channel a slow-tier page is charged to (R170): that of the word whose fault retired it, as its signature names it;
0 where no record does (DEDUCED, log entry 67). -/
def State.chargeOf (s : State) (unit : BitVec 32) : Nat :=
  match s.hist.find? fun h => h.unit == unit && h.disp == 2 with
  | some h => h.sig.toNat / 2 ^ 7 % 1024 / 64 % 8
  | none => 0

/-- The words of a granule rewritten after its remapping (R339): corrected where they can be, else in poison form. -/
def State.remapGranule (s : State) (d g : Nat) : State :=
  let base := 0x20000000000 + d * 0x400000000 + 0x1000 * g
  (List.range 1024).foldl (fun s i =>
    let a := base + 4 * i
    if s.syn a = 0 then s else s.store a (s.stored a)) s

/-- Retires a stacked-SRAM granule (R339): remapped while one of the die's 64 spares is left, else a hole, and the cache
line it holds goes. -/
def State.retireGranule (s : State) (d g : Nat) : State :=
  if s.granSpare.contains (d, g) ∨ s.granDead.contains (d, g) then s
  else if (s.granSpare.filter fun x => x.1 == d).length < 64 then
    ({ s with granSpare := s.granSpare ++ [(d, g)] } : State).remapGranule d g
  else
    let s := { s with granDead := s.granDead ++ [(d, g)] }
    { s with cache := s.cache.filter fun c => !(c.die == d && s.lineDead d c.gran) }

/-! ## The retirement of a unit (R339) -/

/-- An engine is retired (R339, R333): bound with the spare free, it is handed over; with no spare its slot is unbound and
its tasks end UNIT_RETIRED, the outputs they had begun poisoned (R163); the spare or an engine under test just goes. While
another engine of the cluster is being handed over or tested, the request waits. -/
def State.retireEngine (s : State) (e : Nat) : State :=
  let u := e / 17
  let r := s.rot u
  if s.retired e then s.markRetired (engineUnit e)
  else if r.phase = .testing ∧ r.x = e then
    (((s.setFlag (F.STR_SPARE_TESTING u) false).setRot u { r with phase := .idle }).setSpare u none).recordRetired e
  else match s.slotOf e with
    | none =>
      if r.phase = .stopped ∨ r.phase = .copied then s
      else
        let s := if r.phase = .grace then s.setRot u { r with phase := .idle, owed := r.owed + 1 } else s
        (if s.fget (F.STR_SPARE_SPARE u) = e % 17 then s.setSpare u none else s).recordRetired e
    | some l =>
      match s.spareIn u with
      | some sp => s.beginHandover u { r with x := e, s := sp, slot := l, fault := true, test := false,
                                              drainOver := false,
                                              owed := if r.phase = .grace then r.owed + 1 else r.owed }
      | none =>
        if s.flag (F.STR_SPARE_NONE u) = false then s
        else
          let s := s.poisonBegun e l
          let s := (s.dropWaiting (fun w => w.l == l) .unitRetired).stopTasks (s.tasksOf fun x _ _ => x == e) .unitRetired
          (((s.settle e).clearEngine e).bind l none).recordRetired e

/-- Retires a Waipol lane (R237). -/
def State.retireLane (s : State) (p lane : Nat) : State :=
  if (s.lret p).testBit lane then s
  else
    let s := s.fset (F.WPL_STATUS_LRET p) (s.lret p + 2 ^ lane)
    if widthOf (s.lret p) = none then s.portDown p 6
    else if s.linked p ∧ (s.port p).training = false then s.startRetrain p else s

/-- Takes a Riffler out for good: it leaves service, and its devices' accesses are holes (R176, R339). -/
def State.retireRiffler (s : State) (n : Nat) : State :=
  ({ s with gone := if s.gone.contains (0x10000 + n) then s.gone else s.gone ++ [0x10000 + n] } : State).rifLeave n true

/-- The retirement of the unit a code names (R319, R339). A vector unit goes with its engine (DEDUCED, log entry 44); a
Plinth block and the package have no row in R339, and a code that names no unit retires none. -/
def State.retireUnit (s : State) (unit : BitVec 32) : State :=
  let v := unit.toNat
  let t := v / 2 ^ 28
  let done (s : State) : State := (s.markRetired unit).recovery unit 5
  let eng := (v / 2 ^ 16 % 4 * 24 + v / 2 ^ 8 % 32) * 17 + v % 32
  let noEng := decide (23 < v / 2 ^ 8 % 32) || decide (16 < v % 32)
  if (t = 0 ∨ t = 13) ∧ (noEng ∨ engineUnit eng ≠ BitVec.ofNat 32 (v % 2 ^ 28)) then s.markRetired unit
  else if t = 1 ∧ noEng then s.markRetired unit
  else if t = 0 then s.retireEngine eng
  else if t = 1 then done (s.quarCluster (cluKey (v / 2 ^ 16 % 4) (v / 2 ^ 8 % 32)))
  else if t = 2 then done (s.quarDie (v % 4))
  else if t = 3 then done (s.retirePage (v / 2 ^ 24 % 16) (BitVec.ofNat 32 (2 ^ 31 + v % 2 ^ 24)))
  else if t = 4 then done (s.retireChannel (v / 2 ^ 24 % 16) (v % 32))
  else if t = 5 then
    done (s.retirePage (16 + v / 2 ^ 25 % 8) (BitVec.ofNat 32 (2 ^ 31 + s.chargeOf unit * 2 ^ 25 + v % 2 ^ 25)))
  else if t = 6 then done (s.retireChannel (16 + v / 2 ^ 25 % 8) (v % 8))
  else if t = 7 then done (s.retireGranule (v / 2 ^ 26 % 4) (v % 2 ^ 22))
  else if t = 8 then done (s.failModule (min 11 (v / 2 ^ 8 % 16)) (v % 64))
  else if t = 9 then done (s.retireLane (min 11 (v / 2 ^ 8 % 16)) (v % 4))
  else if t = 10 then done (s.retireRiffler (v % 4))
  else if t = 12 then
    done { s with excl := if s.excl.contains (v % 1024) then s.excl else s.excl ++ [v % 1024],
                  gone := if s.gone.contains (v % 1024) then s.gone else s.gone ++ [v % 1024] }
  else if t = 13 then
    (if s.retired eng then s.markRetired unit
     else if s.retire.contains (engineUnit eng) then s
     else { s with retire := s.retire ++ [engineUnit eng] })
  else s.markRetired unit

/-- UNIT_RETIREMENT (R339): a PERMANENT judgement or TRET has named the unit. -/
def execUnitRetirement (unit : BitVec 32) (s : State) : Host.Outcome State Fault Refusal :=
  .next (if s.retire.contains unit then s.retireUnit unit else s)

end Sys2Proof.Machine
end

