-- ==== Sys2Proof/Machine/Resets.lean ====
section
/-! DEFINITION. Resets and escalation (R343 to R346): engine, cluster, memory channel, link port, Riffler, die, package
warm and package cold, what each clears and what each keeps. -/
namespace Sys2Proof.Machine

/-! ## Escalation counts (R345) -/

/-- The service seconds of the last `n` seconds among `ts`. -/
def recent (now : BitVec 32) (n : Nat) (ts : List (BitVec 32)) : List (BitVec 32) :=
  ts.filter fun t => decide (now.toNat - t.toNat < n)

/-- Counts a reset of a unit, keeping the times of the last `n` seconds. -/
def State.countReset (s : State) (unit : BitVec 32) (n : Nat) : State :=
  let ts := s.svc :: recent s.svc n (Sparse.get (fun _ => []) s.resets unit.toNat)
  { s with resets := Sparse.set (fun _ => []) s.resets unit.toNat ts }

/-- How many resets of a unit the last `n` seconds hold. -/
def State.resetsOf (s : State) (unit : BitVec 32) (n : Nat) : Nat :=
  (recent s.svc n (Sparse.get (fun _ => []) s.resets unit.toNat)).length

/-! ## Engines, clusters and dies (R343, R344) -/

/-- A reset engine's tile registers hold nothing: the transfers that fill or read them end with its tasks (DEDUCED, log
entry 38). -/
def State.endTransfers (s : State) (l : Nat) (all : Bool) : State :=
  (List.range 6).foldl (fun s n =>
    let x := s.xfer (xk l n)
    if x.st = .free ∨ (x.total ≤ x.unit ∧ x.acc.isNone) then s
    else if all || x.acc.isSome || x.desc.lkind != 2 then s.setXfer (xk l n) {} else s) s

/-- An engine reset (R343): its tasks end POISONED under R162; sequencer, queues and tile tags are reset. A hand-over it
takes part in is abandoned (R333). -/
def State.resetEngine (s : State) (e : Nat) : State :=
  let s := if s.involved e then s.abandon (e / 17) else s
  let s := (s.settle e).stopTasks (s.tasksOf fun x _ _ => x == e) .poisoned
  let s := match s.slotOf e with
    | some l => s.endTransfers l false
    | none => s
  (s.clearEngine e).modEng e fun x => { x with resetting := true }

/-- What a cluster reset clears: engines, semaphores, the staging buffer and Loupe. WAITSEM commands go on waiting. -/
def State.clearCluster (s : State) (u : Nat) : State :=
  let s := (List.range 17).foldl (fun s i => (s.settle (17 * u + i)).clearEngine (17 * u + i)) s
  let s := (List.range 16).foldl (fun s i => (s.endTransfers (16 * u + i) true).setBatch (16 * u + i) []) s
  let sem (k : Nat) : Bool := k / 0x10000 == 0x100 + u && decide (0x400 ≤ k % 0x10000) && decide (k % 0x10000 < 0x800)
  let cmds (ws : List Waiter) : List Waiter := ws.filter fun w => match w with
    | .ctx _ _ _ => false
    | .cmd _ _ _ => true
  let s := { s with regs := s.regs.filter (fun r => !sem r.1),
                    semq := s.semq.filterMap (fun (p : Nat × List Waiter) => if p.1 / 256 = u then
                      (if cmds p.2 = [] then none else some (p.1, cmds p.2)) else some p),
                    semBy := s.semBy.filter (fun p => p.1 / 256 != u),
                    stg := s.stg.filter (fun p => p.1 / 0x400000 != u),
                    stgEcc := s.stgEcc.filter (fun p => p.1 / 0x100000 != u),
                    shadows := s.shadows.filter (fun (x : Shadow) => x.clu != u) }
  (s.setLoupe u {}).showUsed u

/-- The clusters of a die that satisfy `p` end their work: hand-overs, replays and tasks. -/
def State.endWork (s : State) (us : List Nat) : State :=
  let s := us.foldl (fun s u => s.abandon u) s
  let s := s.dropReplays fun e => us.contains (e / 17)
  s.stopWhere us.contains .poisoned

/-- A die reset (R343, R345): every task on the die ends POISONED; SRAM and HBM contents are kept. The second within 24 h
quarantines the die. -/
def State.resetDie (s : State) (d : Nat) : State :=
  let us := (List.range 24).map (24 * d + ·)
  let s := us.foldl (fun s u => s.clearCluster u) (s.endWork us)
  let unit := BitVec.ofNat 32 (0x20000000 + d)
  let s := ({ s with dieReset := if s.dieReset.contains d then s.dieReset else s.dieReset ++ [d] } : State)
  let s := (s.recovery unit 2).countReset unit 86400
  if 2 ≤ s.resetsOf unit 86400 then s.quarDie d else s

/-- A cluster reset (R343, R345): every task of the cluster ends POISONED. The third within 1 h quarantines the cluster,
and the third of the die within 10 min resets the die. -/
def State.resetCluster (s : State) (u : Nat) : State :=
  let s := (s.endWork [u]).clearCluster u
  let s := ({ s with clReset := if s.clReset.contains u then s.clReset else s.clReset ++ [u] } : State)
  let s := (s.recovery (cluUnit u) 2).countReset (cluUnit u) 3600
  let s := if 3 ≤ s.resetsOf (cluUnit u) 3600 then s.quarCluster u else s
  let n := ((List.range 24).map fun c => s.resetsOf (cluUnit (u / 24 * 24 + c)) 600).sum
  if 3 ≤ n ∧ s.dieReset.contains (u / 24) = false then s.resetDie (u / 24) else s

/-- The end of an engine reset with its check (R344, R345): a failed one leaves the engine issuing nothing; the third
reset within 10 min retires the engine, and the second failed one of the cluster within 1 min resets the cluster (DESIGN
CHOICE, log entry 39). -/
def State.endEngineReset (s : State) (e : Nat) (pass : Bool) : State :=
  let unit := engineUnit e
  let s := s.modEng e fun x => { x with resetting := false, failed := !pass }
  let s := (s.recovery unit 2).countReset unit 600
  let s := if 3 ≤ s.resetsOf unit 600 ∧ s.retire.contains unit = false ∧ s.retired e = false then
      ({ s with retire := s.retire ++ [unit] } : State).faultN 1 else s
  if pass then s
  else
    let ts := s.svc :: recent s.svc 60 (Sparse.get (fun _ => []) s.resetFail (e / 17))
    let s := { s with resetFail := Sparse.set (fun _ => []) s.resetFail (e / 17) ts }
    if 2 ≤ ts.length then s.resetCluster (e / 17) else s

/-! ## Memory channels, ports and Rifflers (R343) -/

/-- The unit code of a memory channel (R319). -/
def chanUnit (u ch : Nat) : BitVec 32 :=
  if u < 16 then BitVec.ofNat 32 (0x40000000 + u * 2 ^ 24 + ch) else BitVec.ofNat 32 (0x60000000 + (u - 16) * 2 ^ 25 + ch)

/-- Channels of a stack or a slow device. -/
def chans (u : Nat) : Nat := if u < 16 then 32 else 8

/-- A memory channel reset (R343): its contents are kept, and accesses to it wait. -/
def State.resetChannel (s : State) (u ch : Nat) : State :=
  if chans u ≤ ch ∨ s.chReset.contains (u, ch) then s
  else ({ s with chReset := s.chReset ++ [(u, ch)] } : State).recovery (chanUnit u ch) 2

/-- A port reset (R343): to DOWN, its retired lanes kept. A RETIRED port stays as it is. -/
def State.resetPort (s : State) (p : Nat) : State :=
  if s.fget (F.WPL_STATUS_STATE p) = 6 then s
  else (s.portDown p 0).recovery (blockUnit (0x10 + p)) 2

/-- A Riffler reset (R220, R343). -/
def State.resetRiffler (s : State) (n : Nat) : State :=
  (s.rifLeave n true).recovery (BitVec.ofNat 32 (0xA0000000 + n)) 2

/-! ## What package resets keep (R7, R343, R353, R356) -/

/-- The bits of the lk fields of a register (R7, R401): only a package cold reset clears them. -/
def lkMask (k : Nat) : BitVec 32 :=
  match Reg.row k with
  | none => 0
  | some r => r.fields.foldl (fun m f => if f.acc = .lk then m ||| (⟨k, f.hi, f.lo⟩ : Fld).mask else m) 0

/-- The bits of a register that Inscription or the fuses hold, which no reset clears (R343, R356): the retirement tables,
escalation counts, dumps, fault ring and service time, the ageing offsets, and Burin's state. -/
def inscribed (k : Nat) : BitVec 32 :=
  let b := k / 0x10000
  let o := k % 0x10000
  let all : BitVec 32 := 0xFFFFFFFF
  if 4 ≤ b ∧ b < 8 then (if 0x100 ≤ o then 0xFF else 0)
  else if b = 0xA then (if o = 4 ∨ o = 8 ∨ o = 0x10 then all else if o = 0xC then 0x80000000 else 0)
  else if b = 0xB then
    (if o = 4 then 0x40000000 else if o = 0x18 ∨ o = 0x30 then all else if o = 0x2C then 0x1FFFFFF
     else if 0x40 ≤ o ∧ o < 0x50 then all else 0)
  else if b = 0xC then (if o = 0 then 0x20000000 else 0)
  else if b = 0xD then (if o = 0 then 0xE0000000 else if o = 8 then 0xC0003FFF else 0)
  else if 0x10 ≤ b ∧ b < 0x1C then (if o = 0x108 then 0xF00 else 0)
  else if 0x40 ≤ b ∧ b < 0x58 then (if o = 0x104 then all else if o = 0x100 then 0x3F else 0)
  else if 0x100 ≤ b ∧ b < 0x160 then (if o = 0x50 then 0x4001FFFF else 0)
  else 0

/-- The bits of a register a package warm reset keeps: the lk fields, what Inscription holds, what the management island
and the Collimator hold, the slot maps, the timebase and idle counters, the counts since package cold reset, and the
margin ceilings, which only the margin plan makes faster (R283, R343, R353; DEDUCED, log entry 45). A trip or an emergency
stop stands until it is re-armed (R300, R303). The totals of R51, which R51 counts since package cold reset, clear as R44
says (DEDUCED, log entry 45). -/
def warmKept (k : Nat) : BitVec 32 :=
  let b := k / 0x10000
  let o := k % 0x10000
  let all : BitVec 32 := 0xFFFFFFFF
  lkMask k ||| inscribed k |||
    (if b = 0 then
       (if o = 0x208 ∨ o = 0x300 then 0xFFFF else if o = 0x400 ∨ o = 0x404 ∨ o = 0x408 then all
        else if o = 0x40C then 0x60000000 else 0)
     else if b = 1 ∨ b = 0xC ∨ b = 0xD ∨ b = 0xE then all
     else if b = 2 then
       (if o = 8 then 0x60000 else if o = 0x40 then 0xF0 else if o = 0x4C then all else if o = 0x50 then 0xFFFF else 0)
     else if 4 ≤ b ∧ b < 8 then (if o = 0 then 0xF000 else 0)
     else if b = 9 then (if (0x100 ≤ o ∧ o < 0x128) ∨ 0x300 ≤ o then all else 0)
     else if b = 0xA then (if o = 0xC then all else 0)
     else if 0x10 ≤ b ∧ b < 0x1C then
       (if o = 0x120 ∨ o = 0x124 ∨ (b = 0x10 ∧ o = 0) then all else 0)
     else if 0x20 ≤ b ∧ b < 0x24 then (if o = 0x104 ∨ (b = 0x20 ∧ o = 8) then all else 0)
     else if 0x40 ≤ b ∧ b < 0x58 then
       (if o = 0x108 ∨ o = 0x10C then all else if o = 0x110 then 0xFFFF else 0)
     else if 0x58 ≤ b ∧ b < 0x5C then (if o = 0x48 ∨ o = 0x4C then all else 0)
     else if 0x100 ≤ b ∧ b < 0x160 then
       (if 0x40 ≤ o ∧ o < 0x50 then all else if o = 0x50 then 0xDFFFFFFF else 0)
     else 0)

/-- The register file after a reset that keeps the bits `m` of each register. -/
def keepRegs (m : Nat → BitVec 32) (rs : List (Nat × BitVec 32)) : List (Nat × BitVec 32) :=
  rs.filterMap fun r =>
    let v := (r.2 &&& m r.1) ||| (Reg.reset r.1 &&& ~~~(m r.1))
    if v = Reg.reset r.1 then none else some (r.1, v)

/-- Each entry of a store changed, those that read as the default left out. -/
def keepEach {α : Type} [DecidableEq α] (d : α) (f : α → α) (m : List (Nat × α)) : List (Nat × α) :=
  m.filterMap fun p => if f p.2 = d then none else some (p.1, f p.2)

/-- Stacks and devices that are RETIRED stay so (R339, R340). -/
def State.keepRetired (s old : State) : State :=
  (List.range 24).foldl (fun s u =>
    if old.fget (F.MEM_H_STATUS_STATE u) = 3 then s.fset (F.MEM_H_STATUS_STATE u) 3 else s) s

/-- A port after a package reset: what Inscription holds of it. -/
def Port.kept (x : Port) : Port := { charged := x.charged, hseq := x.hseq, clrLanes := x.clrLanes, modFault := x.modFault }

/-- What every package reset keeps: the queue of commands and the model's own counters, what the island records in
Inscription (R356), the host's memory, and Burin. -/
def State.survivors (s : State) : State :=
  { pending := s.pending, free := s.free, sent := s.sent, ring := s.ring, hist := s.hist, ceHist := s.ceHist,
    crash := s.crash, retire := s.retire, pages := s.pages, granSpare := s.granSpare, granDead := s.granDead,
    modBad := s.modBad, gone := s.gone, excl := s.gone, resets := s.resets, resetFail := s.resetFail,
    dumps := s.dumps, vhist := s.vhist, capsules := s.capsules, sec := s.sec, mirror := s.mirror,
    ports := keepEach {} Port.kept s.ports,
    hbmEpoch := s.hbmEpoch, sramEpoch := s.sramEpoch, sramClean := s.sramClean, mem := s.mem, ecc := s.ecc,
    bursts := s.bursts }

/-- The pins, rails and set levels a package warm reset does not change. -/
def Power.kept (p : Power) : Power :=
  { auxUp := p.auxUp, railsUp := p.railsUp, l4 := p.l4, pwrfailLow := p.pwrfailLow, paceLow := p.paceLow, sag := p.sag,
    droopL2 := p.droopL2, parkSag := p.parkSag, perstLow := p.perstLow, judged := p.judged }

/-- A byte address that a warm reset keeps: HBM unless the interleave policy changes, and the slow tier. -/
def keptAddr (ilv : Bool) (a : Nat) : Bool := decide (a < 0x20000000000) && (!ilv || decide (0xC000000000 ≤ a))

/-- The state after a package warm reset (R44, R169, R330, R343, R353): all but the management island is reset; HBM and
the slow tier keep their contents, fast-tier contents only while the policy is unchanged; all commands end with no
records; clusters released from quarantine rejoin; PLN_PKG_ID settles again where SOLO stands (R244); and the start-up
order runs from step 5. -/
def State.warm (s : State) : State :=
  let ilv := s.fget F.MEM_CFG_ILV != s.fget F.MEM_CFG_ILV_ACT
  let t := s.survivors
  let t := { t with regs := keepRegs warmKept s.regs, time := s.time, idle := s.idle, power := s.power.kept,
                    hbmEpoch := if ilv then s.free + 1 else s.hbmEpoch, sramEpoch := s.free + 1, sramClean := 0,
                    free := s.free + 1,
                    mem := s.mem.filter (fun c => keptAddr ilv c.1), ecc := s.ecc.filter (fun c => keptAddr ilv (4 * c.1)),
                    bursts := if ilv then [] else s.bursts, excl := s.excl, temps := s.temps,
                    engines := keepEach {} (fun (e : Engine) =>
                      { lastTest := e.lastTest, deferred := e.deferred, busyAt := s.now }) s.engines,
                    rots := keepEach {} (fun (r : Rot) => { owed := r.owed, tests := r.tests }) s.rots }
  let t := (t.keepRetired s).fset F.MEM_CFG_ILV_ACT (s.fget F.MEM_CFG_ILV)
  let t := if s.flag F.DIA_STATUS_TRIPPED ∨ s.flag F.DIA_STATUS_ESTOP then t.fset F.DIA_PSTATE_STATE 2 else t
  let t := (List.range 96).foldl (fun t u =>
    if (s.sec.relClu.getD (u / 24) 0).getLsbD (u % 24) then t.setFlag (F.STR_SPARE_QUAR u) false else t) t
  let t := { t with sec := { t.sec with relClu := [0, 0, 0, 0], mgmtRef := s.sec.mgmtRef } }
  (t.fset F.PLN_BOOT_STEP 5).showWindows.showCaps.settleId.rePace

/-- The faults filed PENDING are judged by their history before a reset of the package takes their replays (R323, R324). -/
def State.judgeAll (s : State) : State := (s.dropReplays fun _ => true).settleWork fun _ _ => true

/-- A package warm reset, with its escalation (R343, R345): the fourth within 7 days that counts puts the package out of
service. -/
def State.warmReset (s : State) (counted : Bool) : State :=
  let s := (s.judgeAll.warm.recovery 0xE0000000 2).faultN 2
  if counted then
    let s := s.countReset 0xE0000000 604800
    let n := s.resetsOf 0xE0000000 604800
    let s := s.fset F.TST_ESC_WARM7D (min 255 n)
    if 4 ≤ n then s.outOfService else s
  else s

/-- The lifecycle state after a grant ends without its last steps: the former one (R367, R369). -/
def State.endLife (s : State) : State :=
  let s := { s with sec := { s.sec with granting := none } }
  if s.sec.life = 3 then
    let s := { s with sec := { s.sec with life := s.sec.former } }
    (s.fset F.SEC_LIFE_STATE s.sec.former).setFlag F.SEC_LIFE_ZEROED false
  else s

/-- A trial ends: the former slots run again (R366). -/
def State.endTrial (s : State) : State :=
  let s := match s.sec.trialArm with
    | some k => s.fset F.SEC_BOOT_ARM_SLOT k
    | none => s
  let s := match s.sec.trialIsl with
    | some k => s.fset F.SEC_BOOT_ISL_SLOT k
    | none => s
  { s.setFlag F.SEC_BOOT_TRIAL false with sec := { s.sec with trialArm := none, trialIsl := none } }

/-- The state with all power-held contents lost: Inscription and the fuses remain (R306, R343, R372). -/
def State.lost (s : State) : State :=
  let t := { s.survivors with regs := keepRegs inscribed s.regs, mem := [], ecc := [], bursts := [],
                              hbmEpoch := 0, sramEpoch := 0 }
  let t := { t with sec := { t.sec with meas := List.replicate 8 0, udsBlocked := false, attKey := false, recov := [],
                                        recovering := false, report := false, mgmtAddr := 0, mgmtRef := false,
                                        mgmtOut := 0 } }
  (t.keepRetired s).endLife.endTrial.showWindows.showCaps

/-- The nonce in force is replaced (R362). -/
def State.newNonce (s : State) : State :=
  let n := Config.nonce s.sec.draws
  let s := { s with sec := { s.sec with draws := s.sec.draws + 1 } }
  [0, 1, 2, 3].foldl (fun s k => s.setReg (Reg.SEC_NONCE k) (n.extractLsb' (32 * k) 32)) s

/-- The start of the power-up order from auxiliary power good (R330, R343, R352, R362): everything is reset, lock bits are
cleared, the slot maps are rebuilt, and step 1 begins. -/
def State.coldStart (s : State) : State :=
  let s := (List.range 96).foldl (fun s u =>
    let s := if (s.sec.relClu.getD (u / 24) 0).getLsbD (u % 24) then s.setFlag (F.STR_SPARE_QUAR u) false else s
    s.rebuildMap u) s.lost
  let s := { s with sec := { s.sec with relClu := [0, 0, 0, 0] } }
  let s := s.modPower fun p => { p with auxUp := true, cold := true }
  s.newNonce.fset F.PLN_BOOT_STEP 1

/-- A package cold reset by TST_RESET (R343, R352, R386): the power-up order with the facets in SERVICE and the pins as
they are; no reset samples the straps again, so steps 1 and 2 await nothing and step 3 begins (DESIGN CHOICE, log entry
49). -/
def State.coldReset (s : State) : State :=
  let t := [Reg.WPL_STRAP, Reg.PLN_FACET, Reg.PLN_FAULTN, Reg.PLN_MGMT].foldl (fun t k => t.setReg k (s.reg k)) s.judgeAll.coldStart
  let t := if 2 ≤ s.fget F.PLN_FACET_PHASE then t.fset F.PLN_FACET_PHASE 1 else t
  (t.modPower fun p => { p with pwrfailLow := s.power.pwrfailLow, paceLow := s.power.paceLow, judged := s.power.judged,
                                perstLow := s.power.perstLow }).fset F.PLN_BOOT_STEP 3

/-! ## The commands (R343, R350) -/

/-- A write of TST_RESET with these fields. -/
def tstReset (kind die cl idx : Nat) : BitVec 32 := BitVec.ofNat 32 (kind * 2 ^ 28 + die * 2 ^ 26 + cl * 2 ^ 21 + idx * 2 ^ 11)

/-- What a write of TST_RESET does: each KIND acts once; a unit that does not exist is reset in no domain (R350). -/
def State.tstReset (s : State) (v : BitVec 32) : State :=
  let kind := v.toNat / 2 ^ 28
  let d := v.toNat / 2 ^ 26 % 4
  let c := v.toNat / 2 ^ 21 % 32
  let i := v.toNat / 2 ^ 11 % 1024
  match kind with
  | 1 => if 24 ≤ c ∨ 17 ≤ i then s else s.resetEngine (cluKey d c * 17 + i)
  | 2 => if 24 ≤ c then s else s.resetCluster (cluKey d c)
  | 3 => if i < 512 then s.resetChannel (i / 32) (i % 32) else if i < 576 then s.resetChannel (16 + (i - 512) / 8) (i % 8) else s
  | 4 => if 12 ≤ i then s else s.resetPort i
  | 5 => if 4 ≤ i then s else s.resetRiffler i
  | 6 => s.resetDie d
  | 7 => s.warmReset true
  | 8 => s.coldReset
  | _ => s

/-- A write of TST_RESET by a requester: the action where it may write the register (R373). -/
def State.writeReset (s : State) (r : Req) (v : BitVec 32) : State := s.acting r Reg.TST_RESET v fun s => s.tstReset v

/-- RESET_ENGINE (R343, R344). -/
def execResetEngine (r : Req) (e : Pos) (s : State) : Host.Outcome State Fault Refusal :=
  .next (s.writeReset r (tstReset 1 e.die e.cl e.eng))

/-- ENGINE_RESET_DONE (R344, R345). -/
def execEngineResetDone (e : Pos) (pass : Bool) (s : State) : Host.Outcome State Fault Refusal :=
  .next (if (s.eng e.key).resetting then s.endEngineReset e.key pass else s)

/-- RESET_CLUSTER (R343). -/
def execResetCluster (r : Req) (u : Clu) (s : State) : Host.Outcome State Fault Refusal :=
  .next (s.writeReset r (tstReset 2 u.die u.cl 0))

/-- CLUSTER_RESET_DONE (R343): the cluster returns to service. -/
def execClusterResetDone (u : Clu) (s : State) : Host.Outcome State Fault Refusal :=
  .next { s with clReset := s.clReset.filter (· ≠ u.key) }

/-- RESET_MEMORY_CHANNEL (R343). A slow-tier device has eight channels: no write names another. -/
def execResetMemoryChannel (r : Req) (u : Fin 24) (ch : Fin 32) (s : State) : Host.Outcome State Fault Refusal :=
  .next (if chans u ≤ ch then s
    else s.writeReset r (tstReset 3 0 0 (if u.val < 16 then 32 * u.val + ch.val else 512 + 8 * (u.val - 16) + ch.val)))

/-- CHANNEL_TRAINING_LOSS (R343): a memory channel that has lost training is reset. -/
def execChannelTrainingLoss (u : Fin 24) (ch : Fin 32) (s : State) : Host.Outcome State Fault Refusal :=
  .next (s.resetChannel u.val ch.val)

/-- MEMORY_CHANNEL_RESET_DONE (R343): the channel returns, and the accesses that waited proceed. -/
def execMemoryChannelResetDone (u : Fin 24) (ch : Fin 32) (s : State) : Host.Outcome State Fault Refusal :=
  .next { s with chReset := s.chReset.filter (· ≠ (u.val, ch.val)) }

/-- RESET_LINK_PORT (R343). -/
def execResetLinkPort (r : Req) (p : Fin 12) (s : State) : Host.Outcome State Fault Refusal :=
  .next (s.writeReset r (tstReset 4 0 0 p))

/-- RESET_RIFFLER (R343). -/
def execResetRiffler (r : Req) (n : Fin 4) (s : State) : Host.Outcome State Fault Refusal :=
  .next (s.writeReset r (tstReset 5 0 0 n))

/-- RESET_DIE (R343). -/
def execResetDie (r : Req) (d : Fin 4) (s : State) : Host.Outcome State Fault Refusal :=
  .next (s.writeReset r (tstReset 6 d 0 0))

/-- DIE_RESET_DONE (R343): the die and its stack PHYs return to service. -/
def execDieResetDone (d : Fin 4) (s : State) : Host.Outcome State Fault Refusal :=
  .next { s with dieReset := s.dieReset.filter (· ≠ d.val) }

/-- RESET_PACKAGE_WARM (R343, R353). -/
def execResetPackageWarm (r : Req) (s : State) : Host.Outcome State Fault Refusal :=
  .next (s.writeReset r (tstReset 7 0 0 0))

/-- RESET_PACKAGE_COLD (R343, R352). -/
def execResetPackageCold (r : Req) (s : State) : Host.Outcome State Fault Refusal :=
  .next (s.writeReset r (tstReset 8 0 0 0))

end Sys2Proof.Machine
end

