-- ==== Sys2Proof/Machine/Burin.lean ====
section
/-! DEFINITION. Burin's measurements, lifecycle and debug levels, and the DEBUG phase of the facet balls (R361, R367, R370 to
R372, R376, R387). -/
namespace Sys2Proof.Machine

/-- The 48 bytes of a digest, least significant first. -/
def bytes48 (d : BitVec 384) : List (BitVec 8) := (List.range 48).map fun i => d.extractLsb' (8 * i) 8

/-- Extends a measurement value: M := SHA-384(M ∥ digest) (R361). -/
def State.measure (s : State) (k : Nat) (digest : BitVec 384) : State :=
  let m := s.sec.meas
  { s with sec := { s.sec with meas := m.set k (Config.sha384 (bytes48 (m.getD k 0) ++ bytes48 digest)) } }

/-- The highest debug level of a lifecycle state (R372). -/
def State.lifeMax (s : State) (life : Nat) : Nat :=
  match life with
  | 1 => 1
  | 2 => if s.flag F.SEC_POLICY_DBGMAX then 1 else 0
  | _ => 2

/-- The highest debug level now (R372): Cheval is unpowered in STANDBY and OFF. -/
def State.levelMax (s : State) : Nat :=
  if s.power.auxUp = false ∨ s.fget F.DIA_PSTATE_STATE = 3 then 0 else s.lifeMax s.sec.life

/-- The facet balls return to SERVICE (R387). -/
def State.leaveDebug (s : State) : State :=
  if s.flag F.DBG_LEVEL_FACET then (s.setFlag F.DBG_LEVEL_FACET false).fset F.PLN_FACET_PHASE 1 else s

/-- Sets the debug level (R361, R371): leaving FULL returns the facet balls to SERVICE first and releases the engines the
debugger halted (DEDUCED, log entry 48); a change is measured. -/
def State.setLevel (s : State) (n : Nat) : State :=
  let old := s.fget F.DBG_LEVEL_LEVEL
  if n = old then s
  else
    let s := if old = 2 then
        { s.leaveDebug with engines := s.engines.map fun (p : Nat × Engine) => (p.1, { p.2 with halted := false, steps := 0 }) }
      else s
    let s := { s with engines := s.engines.filter fun (p : Nat × Engine) => p.2 ≠ ({} : Engine) }
    (s.fset F.DBG_LEVEL_LEVEL n).measure 6 (Config.eventDigest s.sec.life n)

/-- Every Waipol port key is erased (R368, R372). -/
def State.eraseKeys (s : State) : State :=
  (List.range 12).foldl (fun s p => (s.modPort p fun x => { x with keyed := false, keyId := 0, oldKey := none }).setFlag
    (F.WPL_STATUS_ENC p) false) s

/-- A change of lifecycle state (R361, R367, R371, R387): the debug level falls to the new state's maximum first, the
DEBUG phase is left, and in GRANTED and RETIRED neither attestation key nor port keys exist (R364, R372). A change measured
when it was asked for is not measured again. -/
def State.lifeChange (s : State) (new : Nat) (measured : Bool) : State :=
  let s := s.setLevel (min (s.fget F.DBG_LEVEL_LEVEL) (s.lifeMax new))
  let s := s.leaveDebug
  let s := if measured then s else s.measure 6 (Config.eventDigest new (s.fget F.DBG_LEVEL_LEVEL))
  let s := if 3 ≤ new then s.eraseKeys else s
  let s := { s with sec := { s.sec with life := new, attKey := s.sec.attKey && decide (new < 3),
                                        udsBlocked := s.sec.udsBlocked || new == 3, udsGone := s.sec.udsGone || new == 4 } }
  (s.fset F.SEC_LIFE_STATE new).setFlag F.SEC_LIFE_ZEROED false

/-- The attestation key is derived (R360, R361, R372), where the lifecycle state has one and the UDS can be reached. -/
def State.deriveKey (s : State) : State :=
  { s with sec := { s.sec with attKey := (s.sec.life == 1 || s.sec.life == 2) && !s.sec.udsBlocked && !s.sec.udsGone } }

/-- The Armature image that runs is measured, and sets WPL_REV (R248, R352, R361, R366). -/
def State.armRuns (s : State) (rev : BitVec 8) : State :=
  ((s.measure 2 s.armDigest).fset F.WPL_REV_REV rev.toNat).deriveKey

/-- What a write of DBG_CTRL does (R371, R376, R387): a level up to the highest permitted takes effect, one above it is
refused and counted; FACET 1 enters the DEBUG phase at FULL, in the form PLN_FACET.TWOPIN selects, and is refused and
counted below it; FACET 0 leaves the phase. -/
def State.dbgCtrl (s : State) (v : BitVec 32) : State :=
  let s := s.setReg Reg.DBG_CTRL (v &&& 0xE0000000)
  let n := v.toNat / 2 ^ 30
  let s := if n ≤ s.levelMax then s.setLevel n else s.fsat F.DBG_LEVEL_DENIED 1
  if v.getLsbD 29 = false then s.leaveDebug
  else if s.fget F.DBG_LEVEL_LEVEL ≠ 2 then s.fsat F.DBG_LEVEL_DENIED 1
  else if s.flag F.DBG_LEVEL_FACET then s
  else (s.setFlag F.DBG_LEVEL_FACET true).fset F.PLN_FACET_PHASE (if s.flag F.PLN_FACET_TWOPIN then 3 else 2)

/-- A write of DBG_CTRL by a requester (R373). -/
def State.writeDbg (s : State) (r : Req) (v : BitVec 32) : State := s.acting r Reg.DBG_CTRL v fun s => s.dbgCtrl v

/-- DEBUG_LEVEL_REQUEST (R371). -/
def execDebugLevelRequest (r : Req) (v : BitVec 32) (s : State) : Host.Outcome State Fault Refusal :=
  .next (s.writeDbg r v)

/-- FACET_REQUEST (R387). -/
def execFacetRequest (r : Req) (v : BitVec 32) (s : State) : Host.Outcome State Fault Refusal := .next (s.writeDbg r v)

/-! ## The facet outputs (R384, R388) -/

/-- What the facet balls drive: STATUS1:STATUS0, FAULT_N, THROT_N, HOT_N and CLKOK; none while a ball is not driven as an
output of the SERVICE phase. -/
structure FacetOut where
  status : Option Nat := none
  faultN : Option Bool := none
  throtN : Option Bool := none
  hotN : Option Bool := none
  clkok : Option Bool := none
  deriving DecidableEq, Repr

/-- The STATUS code: 3 out of service or RETIRED, 2 the DEBUG phase, 1 READY, else 0 (R384). -/
def State.statusCode (s : State) : Nat :=
  if s.flag F.TST_STATUS_OOS ∨ s.sec.life = 4 then 3
  else if 2 ≤ s.fget F.PLN_FACET_PHASE then 2
  else if s.fget F.PLN_BOOT_STEP = 11 then 1
  else 0

/-- The facet outputs in each phase (R384): all off in STRAP; the DEBUG phase takes FACET9, and in its four-pin form
FACET10 and FACET11 too. -/
def State.facetOut (s : State) : FacetOut :=
  let ph := s.fget F.PLN_FACET_PHASE
  let on (b v : Bool) : Option Bool := if b then some v else none
  { status := if ph = 0 then none else some s.statusCode,
    faultN := on (ph != 0) (s.fget F.PLN_FAULTN_ACTIVE == 0 && !s.flag F.PLN_FAULTN_HELD),
    throtN := on (ph == 1) (s.fget F.DIA_STATUS_CAUSE == 0),
    hotN := on (ph == 1 || ph == 3) (decide (signed 16 (s.fget F.DIA_THERM_TMAX) < 400)),
    clkok := on (ph == 1 || ph == 3) (s.fget F.COL_STATUS_STATE == 3) }

/-! ## FAULT_N (R388) -/

/-- The highest pending code. -/
def State.topPending (s : State) : Option Nat :=
  [4, 3, 2, 1].find? fun c => (s.fget F.PLN_FAULTN_PENDING).testBit (c - 1)

/-- With the line idle and not held, the highest pending code is sent. -/
def State.nextPulse (s : State) : State :=
  if s.fget F.PLN_FAULTN_ACTIVE ≠ 0 ∨ s.flag F.PLN_FAULTN_HELD then s
  else match s.topPending with
    | none => s
    | some c => ((s.fset F.PLN_FAULTN_PENDING (s.fget F.PLN_FAULTN_PENDING - 2 ^ (c - 1))).fset F.PLN_FAULTN_ACTIVE
        c).fsat F.PLN_FAULTN_PULSES 1

/-- FAULTN_PULSE_END (R388): the pulse and its gap end. Out of service holds the line from here; else the highest pending
code is sent (DESIGN CHOICE, log entry 78). -/
def execFaultnPulseEnd (s : State) : Host.Outcome State Fault Refusal :=
  .next (if s.fget F.PLN_FAULTN_ACTIVE = 0 then s
    else
      let s := s.fset F.PLN_FAULTN_ACTIVE 0
      if s.flag F.TST_STATUS_OOS then s.setFlag F.PLN_FAULTN_HELD true else s.nextPulse)

end Sys2Proof.Machine
end

