-- ==== Sys2Proof/Machine/Supply.lean ====
section
/-! DEFINITION. Trips and emergency stops, supply sag, PWRFAIL_N and the power states (R300, R303 to R307). -/
namespace Sys2Proof.Machine

/-! ## Halts (R300, R303, R306) -/

/-- The Rifflers suspend (R219, R303, R305): unreleased chunks are dropped; released ones complete. -/
def State.dropChunks (s : State) : State :=
  match s.upd with
  | none => s
  | some u => ({ s with upd := some { u with act := [] } } : State).showHeld

/-- Sets the rail of every die in service. -/
def State.setRails (s : State) (f : Nat → Nat) : State :=
  (List.range 4).foldl (fun s d => if s.dieQ d then s else s.fset (F.HEL_STATUS_VOUT d) (f d)) s

/-- Enters RETENTION (R303, R306): every engine halts, the core rails fall to 0.50 V, the memories refresh themselves and
the Rifflers suspend. Everything is retained. -/
def State.retain (s : State) : State :=
  let s := ((List.range 16).foldl State.settleSlot s).dropChunks
  (s.setRails fun _ => 500).fset F.DIA_PSTATE_STATE 2

/-- Leaves RETENTION into IDLE (R306): the rails return to the voltage of the step in force, and the transactions that
waited are issued. -/
def State.unretain (s : State) : State :=
  let s := s.fset F.DIA_PSTATE_STATE 1
  ((List.range 16).foldl State.settleSlot (s.setRails fun d => s.tableVolt d (s.fget F.DIA_PACE_STEP))).reroute

/-- Whether a trip or an emergency stop stands. -/
def State.stopped (s : State) : Bool := s.flag F.DIA_STATUS_TRIPPED || s.flag F.DIA_STATUS_ESTOP

/-- TRIP (R303, R320, R347, R388): the package halts; the trip is counted, recorded and reported, and a dump is written. -/
def execTrip (sensor : BitVec 10) (s : State) : Host.Outcome State Fault Refusal :=
  .next (if s.power.railsUp = false then s
    else
      let s := (s.retain.setFlag F.DIA_STATUS_TRIPPED true).fsat F.DIA_TRIP_TRIPS 1
      let k := sensor.toNat
      ((s.event 0x0F (BitVec.ofNat 32 (0xC0000000 + k)) (BitVec.ofNat 32 k) 0 0).faultN 4).dump 2 [])

/-- EMERGENCY_STOP (R300, R347, R388): PACE_N is low at 100 µs. -/
def execEmergencyStop (s : State) : Host.Outcome State Fault Refusal :=
  .next (if s.power.paceLow = false ∨ s.power.railsUp = false then s
    else ((s.retain.setFlag F.DIA_STATUS_ESTOP true).faultN 3).dump 3 [])

/-- What a write of 1 to DIA_TRIP.REARM does (R300, R303, R307): both conditions must hold where both flags stand; at any
other time the write is ignored and sets ERR. The thermal ceiling starts at FLOOR, and slots are admitted in waves
(DEDUCED, log entry 79). -/
def State.rearm (s : State) : State :=
  let hot := s.flag F.DIA_STATUS_TRIPPED && decide (380 ≤ signed 16 (s.fget F.DIA_THERM_TMAX))
  let low := s.flag F.DIA_STATUS_ESTOP && s.power.paceLow
  if s.stopped = false ∨ hot ∨ low then s.setFlag F.DIA_STATUS_ERR true
  else
    let s := (s.setFlag F.DIA_STATUS_TRIPPED false).setFlag F.DIA_STATUS_ESTOP false
    let s := (s.fset F.DIA_PACE_THERM (s.fget F.DIA_PACE_FLOOR)).rePace
    let now := s.now
    let per := s.fget F.CLV_WAVE_PERIOD
    let adm := ((List.range 16).filter fun i => !s.parkedSlot i).map fun i => (i, now + BitVec.ofNat 64 (s.waveOf i * per))
    (s.modPower fun p => { p with admits := adm }).unretain

/-- A write of DIA_TRIP (R310). -/
def State.writeTrip (s : State) (r : Req) (v : BitVec 32) : State :=
  s.acting r Reg.DIA_TRIP v fun s => if v.getLsbD 31 then s.rearm else s

/-- REARM (R303). -/
def execRearm (r : Req) (s : State) : Host.Outcome State Fault Refusal := .next (s.writeTrip r 0x80000000)

/-! ## Sag (R304, R305) -/

/-- Shows the highest level in force, and counts an entry to L1 or above (R310). -/
def State.showSag (s : State) : State :=
  let old := s.fget F.DIA_SAG_LEVEL
  let g := s.power.sag
  let n := if s.power.l4 then 4 else if g.getLsbD 2 then 3 else if g.getLsbD 1 then 2 else if g.getLsbD 0 then 1 else 0
  let s := s.fset F.DIA_SAG_LEVEL n
  if old = 0 ∧ 0 < n then s.fsat F.DIA_SAG_EVENTS 1 else s

/-- Whether the actions of L2, and those of L3, are in force (R304): the levels are cumulative, and L4 stands above them. -/
def Power.l2 (p : Power) : Bool := p.sag.getLsbD 1 || p.l4
def Power.l3 (p : Power) : Bool := p.sag.getLsbD 2 || p.l4

/-- A change of the levels in force, with what follows from it (R304): L2 sets the droop ceiling four steps slower than
the step in force at its entry, L3 parks slots 8 to 15, and at the end of the suspension of L1 Loupe arms the requests
that waited. -/
def State.toLevels (s : State) (f : Power → Power) : State :=
  let was := s.power
  let step := s.fget F.DIA_PACE_STEP
  let s := s.modPower f
  let now := s.power
  let s := if was.l2 = now.l2 then s
    else (s.modPower fun p => { p with droopL2 := if now.l2 then min 15 (step + 4) else 0 }).rePace
  let s := if was.l3 = now.l3 then s else s.repark fun p => { p with parkSag := now.l3 }
  ({ s with loupes := s.loupes.map fun x => (x.1, x.2.armNext s.sampling) } : State).showSag

/-- SAG_TRIGGER (R304). -/
def execSagTrigger (_rail : Fin 18) (level : Fin 3) (s : State) : Host.Outcome State Fault Refusal :=
  let new : BitVec 3 := if level.val = 0 then 1 else if level.val = 1 then 3 else 7
  .next (if s.power.railsUp = false then s else s.toLevels fun p => { p with sag := p.sag ||| new })

/-- SAG_CLEAR (R304): a level clears with those above it; L4 has a clearing of its own. -/
def execSagClear (level : Fin 3) (s : State) : Host.Outcome State Fault Refusal :=
  let keep : BitVec 3 := if level.val = 0 then 0 else if level.val = 1 then 1 else 3
  .next (s.toLevels fun p => { p with sag := p.sag &&& keep })

/-- PWRFAIL_ASSERT (R304, R305, R347): L4, with the actions of the levels below it. Started commands run on; unreleased chunks
are dropped, no new transaction is issued, and a dump is written. Before step 5 of the power-up order it only holds start-up
(R386). -/
def execPwrfailAssert (s : State) : Host.Outcome State Fault Refusal :=
  .next (if s.power.judged = false ∨ s.power.pwrfailLow then s
    else
      let s := s.modPower fun p => { p with pwrfailLow := true }
      if s.power.railsUp = false then s
      else ((s.toLevels fun p => { p with l4 := true }).dropChunks).dump 1 [])

/-- PWRFAIL_RELEASE (R305). -/
def execPwrfailRelease (s : State) : Host.Outcome State Fault Refusal :=
  .next (s.modPower fun p => { p with pwrfailLow := false })

/-- L4_CLEAR (R305): 10 ms after PWRFAIL_N rose with the rails in regulation; what waited goes on. -/
def execL4Clear (s : State) : Host.Outcome State Fault Refusal :=
  .next (if s.power.l4 = false ∨ s.power.pwrfailLow then s
    else (s.toLevels fun p => { p with l4 := false }).reroute)

/-! ## STANDBY and OFF (R306, R367, R372) -/

/-- The bits of a register STANDBY keeps: as a warm reset, less the timebase and its counters, which start again with the
root (R261, R306; DEDUCED, log entry 45). -/
def standbyKept (k : Nat) : BitVec 32 := if k / 0x10000 = 9 then lkMask k ||| inscribed k else warmKept k

/-- Enters STANDBY (R306, R361, R367, R371, R372, R387): the main rails are off, and everything but the management island is
lost; a grant ends, which is a lifecycle change and is measured, and the debug level is CLOSED. -/
def State.standby (s : State) : State :=
  let s := s.judgeAll.setLevel 0
  let s := (if s.sec.life = 3 then s.measure 6 (Config.eventDigest s.sec.former 0) else s).endLife
  let t := s.survivors
  let p : Power := { auxUp := s.power.auxUp, pwrfailLow := s.power.pwrfailLow, paceLow := s.power.paceLow,
                     perstLow := s.power.perstLow, judged := s.power.judged }
  let t := { t with regs := keepRegs standbyKept s.regs, power := p, mem := [], ecc := [],
                    bursts := [], hbmEpoch := 0, sramEpoch := 0,
                    excl := s.excl, sec := { s.sec with report := false } }
  (((t.keepRetired s).setReg Reg.PLN_BOOT (s.reg Reg.PLN_BOOT)).fset F.COL_STATUS_STATE 0).fset F.DIA_PSTATE_STATE 3
    |>.setFlag F.SEC_STATUS_BUSY false |>.showWindows |>.showCaps

/-- MAIN_RAILS_FALL (R305, R306): L5; the package is in STANDBY. -/
def execMainRailsFall (s : State) : Host.Outcome State Fault Refusal :=
  .next (if s.power.railsUp = false then s
    else
      let s := if s.fget F.DIA_SAG_LEVEL = 0 then s.fsat F.DIA_SAG_EVENTS 1 else s
      s.standby.fset F.DIA_SAG_LEVEL 5)

/-- AUX_RAIL_LOSS (R306): the package is OFF. -/
def execAuxRailLoss (s : State) : Host.Outcome State Fault Refusal := .next s.lost

/-- IDLE_ENTRY (R306): no token on any engine for 1 µs. -/
def execIdleEntry (s : State) : Host.Outcome State Fault Refusal :=
  .next (if s.fget F.DIA_PSTATE_STATE = 0 ∧ s.engines.all (fun p => p.2.quiet) then s.fset F.DIA_PSTATE_STATE 1 else s)

/-- IDLE_EXIT (R306): a token flows. -/
def execIdleExit (s : State) : Host.Outcome State Fault Refusal :=
  .next (if s.fget F.DIA_PSTATE_STATE = 1 ∧ s.running then s.fset F.DIA_PSTATE_STATE 0 else s)

/-- Whether a command has started and not committed. -/
def State.anyBegun (s : State) : Bool := s.cqs.any fun c => c.2.infl.any fun (x : Cmd) => x.began

/-- What a write of DIA_PSTATE.REQ does (R306, R307, R310): a request the state does not permit is ignored and sets ERR. -/
def State.pstateReq (s : State) (req : Nat) : State :=
  let st := s.fget F.DIA_PSTATE_STATE
  let err (s : State) : State := s.setFlag F.DIA_STATUS_ERR true
  if req = 0 then s
  else if req = 1 then (if 2 ≤ st ∨ s.anyBegun ∨ s.power.l4 ∨ s.stopped then err s else s.retain)
  else if req = 2 then (if st ≠ 2 ∨ s.stopped then err s else s.unretain)
  else if st ≠ 2 ∨ s.power.l4 ∨ s.stopped then err s
  else s.standby

/-- A write of DIA_PSTATE; REQ reads 0. -/
def State.writePstate (s : State) (r : Req) (v : BitVec 32) : State :=
  s.acting r Reg.DIA_PSTATE v fun s => s.pstateReq (v.toNat / 2 ^ 27 % 4)

/-- PSTATE_RETENTION (R306). -/
def execPstateRetention (r : Req) (s : State) : Host.Outcome State Fault Refusal := .next (s.writePstate r 0x08000000)

/-- PSTATE_LEAVE_RETENTION (R306). -/
def execPstateLeaveRetention (r : Req) (s : State) : Host.Outcome State Fault Refusal :=
  .next (s.writePstate r 0x10000000)

/-- PSTATE_STANDBY (R306). -/
def execPstateStandby (r : Req) (s : State) : Host.Outcome State Fault Refusal := .next (s.writePstate r 0x18000000)

end Sys2Proof.Machine
end

