-- ==== Sys2Proof/Machine/Security.lean ====
section
/-! DEFINITION. Burin's commands (R356 to R369, R373, R375): signed objects, firmware images and live update, the
lifecycle with its grant and zeroisation, releases, attestation, fused minima and revocations. -/
namespace Sys2Proof.Machine

/-! ## Objects in memory -/

/-- Reads `n` bytes at a global address for Burin; none where the memory is not up, the address is refused or a hole, or a
word is poisoned. -/
def State.readBytes (s : State) (g : BitVec 64) (n : Nat) : Option (List (BitVec 8)) × State :=
  let a := g.toNat % 2 ^ 48
  if s.own (pkgOf g) = false then (none, s.addrErr 5 false .arm g)
  else if s.memWaits a then (none, s)
  else
    let (ws, s) := s.readN .arm (pkgOf g) a ((n + 3) / 4)
    if ws.any (·.p) then (none, s) else (some ((ws.flatMap fun w => wordBytes w.v).take n), s)

/-- Words from bytes, four to a word. -/
def byteWords : List (BitVec 8) → List MWord
  | a :: b :: c :: d :: r => ⟨d ++ c ++ b ++ a, false⟩ :: byteWords r
  | _ => []

/-- The address in SEC_ADDR, 64-byte aligned (R375). -/
def State.secAddr (s : State) : BitVec 64 := s.reg64 Reg.SEC_ADDR_LO Reg.SEC_ADDR_HI &&& ~~~63#64

/-! ## Signed objects (R362, R363) -/

/-- The hash of a key Burin holds: the Rilyel keys once provisioned, and the operator keys installed. -/
def State.keyHash (s : State) (k : Nat) : Option (BitVec 384) :=
  if k < 4 then (if s.sec.life = 0 then none else some (Config.rilyelKey k)) else s.sec.opKeys[k - 4]?

/-- Whether key `k` may sign an object of a type in the present lifecycle state; in GRANTED, as in the state it came from
(DESIGN CHOICE, log entry 50). -/
def State.maySign (s : State) (typ k : Nat) : Bool :=
  if typ = 4 ∨ typ = 6 ∨ typ = 8 then decide (4 ≤ k)
  else if typ = 5 ∨ typ = 7 then
    (if (if s.sec.life = 3 then s.sec.former else s.sec.life) = 1 then decide (k < 4) else decide (4 ≤ k))
  else decide (k < 4)

/-- The nonce in force. -/
def State.nonce (s : State) : Nat :=
  leNat ([0, 1, 2, 3].flatMap fun k => wordBytes (s.reg (Reg.SEC_NONCE k)))

/-- The RESULT of checking an object of a type against a minimum SVN (R362, R363, R375); with several grounds for refusal
the order is the model's (DESIGN CHOICE, log entry 50). -/
def State.checkObj (s : State) (typ : Nat) (o : List (BitVec 8)) (floor : Nat) : Nat :=
  let n := o.length
  let b := o.drop (n - 160)
  let k := fieldOf b 16 17
  let t := fieldOf b 8 16
  let non := fieldOf b 32 48
  let fresh := decide (5 ≤ typ) && decide (typ ≤ 7)
  if n < 160 ∨ fieldOf b 17 32 ≠ 0 ∨ fieldOf b 48 64 ≠ 0 ∨ (fresh = false ∧ non ≠ 0) then 6
  else if fieldOf b 0 4 ≠ typ ∨ 8 ≤ k ∨ s.maySign typ k = false ∨ s.sec.revoked.getLsbD k then 2
  else match s.keyHash k with
    | none => 2
    | some h =>
      if Config.sigOk h (o.take (n - 96)) (b.drop 64) = false then 1
      else if (t ≠ Config.serial.toNat ∧ (t ≠ 0 ∨ (5 ≤ typ ∧ typ ≤ 8))) ∨ (fresh ∧ non ≠ s.nonce) then 3
      else if typ ≤ 3 ∧ fieldOf b 4 8 < floor then 4
      else 0

/-- The key and the SVN an object's block names. -/
def objKey (o : List (BitVec 8)) : Nat := fieldOf (o.drop (o.length - 160)) 16 17
def objSvn (o : List (BitVec 8)) : Nat := fieldOf (o.drop (o.length - 160)) 4 8

/-- Reads an object of `n` bytes at SEC_ADDR and checks it: the RESULT, the object and the state. Memory that is not up
answers 8 (DESIGN CHOICE, log entry 50). -/
def State.takeObj (s : State) (typ n floor : Nat) : Nat × List (BitVec 8) × State :=
  if s.own (pkgOf s.secAddr) && s.memWaits (s.secAddr.toNat % 2 ^ 48) then (8, [], s)
  else match s.readBytes s.secAddr n with
    | (none, s) => (6, [], s)
    | (some o, s) => (s.checkObj typ o floor, o, s)

/-! ## Running a command (R373, R375) -/

/-- Whether a requester may start a SEC_CMD operation (R373). -/
def State.mayCmd (s : State) (r : Req) (op : Nat) : Bool :=
  match r with
  | .armature => true
  | .cheval => s.fget F.DBG_LEVEL_LEVEL == 2
  | .host => [1, 2, 6, 7, 8, 9, 10, 11, 12, 13, 15].contains op
  | .mgmt => op == 10
  | .engine => false

/-- A command completes with a RESULT. -/
def State.secDone (s : State) (res : Nat) : State :=
  ((s.setFlag F.SEC_STATUS_BUSY false).fset F.SEC_STATUS_RESULT res).fwrap F.SEC_STATUS_SEQ 1

/-- Finishes a command with the outcome of its body. -/
def secEnd (x : Nat × State) : State := x.2.secDone x.1

/-! ## Firmware (R356, R363, R366) -/

/-- The fused minimum SVN of a type of object. -/
def State.minSvn (s : State) (typ : Nat) : Nat :=
  if typ = 1 then s.fget F.SEC_BOOT_ISL_SVN else if typ = 2 then s.fget F.SEC_BOOT_ARM_SVN else s.sec.svnCap

/-- The firmware slots, and the slot that runs, of island (false) or Armature (true). -/
def State.slots (s : State) (arm : Bool) : List FwSlot := if arm then s.sec.arm else s.sec.isl
def State.bootSlot (s : State) (arm : Bool) : Nat :=
  if arm then s.fget F.SEC_BOOT_ARM_SLOT else s.fget F.SEC_BOOT_ISL_SLOT

/-- Whether the image in a slot verifies (R352, R362, R363). -/
def State.slotOk (s : State) (arm : Bool) (k : Nat) : Bool :=
  let f := (s.slots arm).getD k {}
  f.valid && decide (s.minSvn (if arm then 2 else 1) ≤ f.svn) && !s.sec.revoked.getLsbD f.key

/-- Writes a firmware slot. -/
def State.putSlot (s : State) (arm : Bool) (k : Nat) (f : FwSlot) : State :=
  if arm then { s with sec := { s.sec with arm := s.sec.arm.set k f } }
  else { s with sec := { s.sec with isl := s.sec.isl.set k f } }

/-- STAGE (R366): a verified image goes to the inactive slot. An image larger than its slot is refused (R356). -/
def State.stage (s : State) (arm : Bool) (n : Nat) : Nat × State :=
  let typ := if arm then 2 else 1
  if (if arm then 0x800000 else 0x200000) < n then (6, s)
  else
    let (res, o, s) := s.takeObj typ n (s.minSvn typ)
    if res = 0 then
      (0, s.putSlot arm (1 - s.bootSlot arm) { valid := true, svn := objSvn o, digest := Config.sha384 o, key := objKey o })
    else (res, s)

/-- Whether an image is on trial. -/
def State.onTrial (s : State) (arm : Bool) : Bool := (if arm then s.sec.trialArm else s.sec.trialIsl).isSome

/-- Makes a slot the running one: the image is measured, and an Armature image sets its revision and has a new attestation
key (R361, R366) (DEDUCED, log entry 70). -/
def State.runSlot (s : State) (arm : Bool) (k : Nat) : State :=
  if arm then
    let s := s.fset F.SEC_BOOT_ARM_SLOT k
    s.armRuns (Config.fwRev s.armDigest)
  else (s.fset F.SEC_BOOT_ISL_SLOT k).measure 1 ((s.sec.isl.getD k {}).digest)

/-- SWITCH (R366): the staged image runs on trial. With none staged, or one of the same kind on trial, it is unavailable
(DESIGN CHOICE, log entry 69). -/
def State.switch (s : State) (arm : Bool) : Nat × State :=
  let was := s.bootSlot arm
  if s.slotOk arm (1 - was) = false ∨ s.onTrial arm then (8, s)
  else
    let s := if arm then { s with sec := { s.sec with trialArm := some was } }
      else { s with sec := { s.sec with trialIsl := some was } }
    (0, (s.runSlot arm (1 - was)).setFlag F.SEC_BOOT_TRIAL true)

/-- CONFIRM (R366): the trial slot is ACTIVE. -/
def State.confirm (s : State) (arm : Bool) : Nat × State :=
  if s.onTrial arm = false then (8, s)
  else
    let s := if arm then { s with sec := { s.sec with trialArm := none } }
      else { s with sec := { s.sec with trialIsl := none } }
    (0, s.setFlag F.SEC_BOOT_TRIAL (s.onTrial (!arm)))

/-- A firmware fallback is recorded (R354, R366). -/
def State.fellBack (s : State) : State := (s.setFlag F.SEC_BOOT_FALLBACK true).recovery 0xE0000000 6

/-- CONFIRM_TIMEOUT (R366): no CONFIRM within 60 s; the former slots run again. -/
def execConfirmTimeout (s : State) : Host.Outcome State Fault Refusal :=
  .next (if s.flag F.SEC_BOOT_TRIAL = false then s
    else
      let arm := s.sec.trialArm
      let isl := s.sec.trialIsl
      let s := s.endTrial
      let s := match isl with
        | some k => s.runSlot false k
        | none => s
      let s := match arm with
        | some k => s.runSlot true k
        | none => s
      s.fellBack)

/-! ## Lifecycle (R367 to R369) -/

/-- INSTALL (R367): 1 to 4 operator key hashes, in PROVISIONED only. -/
def State.install (s : State) (n : Nat) : Nat × State :=
  if s.sec.life ≠ 1 then (5, s)
  else if n = 0 ∨ 4 < n then (6, s)
  else match s.readBytes s.secAddr (48 * n) with
    | (none, s) => (6, s)
    | (some o, s) =>
      let ks := (List.range n).map fun i => BitVec.ofNat 384 (fieldOf o (48 * i) (48 * i + 48))
      (0, { s with sec := { s.sec with opKeys := ks } }.lifeChange 2 false)

/-- Steps 1 and 2 of a change into or out of GRANTED (R369): it is measured, and a warm reset that does not count begins.
The command runs until zeroisation ends. -/
def State.beginGrant (s : State) (target : Nat) : State :=
  let s := s.measure 6 (Config.eventDigest target (s.fget F.DBG_LEVEL_LEVEL))
  let s := { s with sec := { s.sec with granting := some target } }
  (s.setFlag F.SEC_STATUS_BUSY true).warmReset false

/-- GRANT (R369): step 1 verifies the object. -/
def State.grantCmd (s : State) : State :=
  if s.sec.life ≠ 1 ∧ s.sec.life ≠ 2 then s.secDone 5
  else
    let (res, _, s) := s.takeObj 5 160 0
    if res ≠ 0 then s.secDone res
    else ({ s.newNonce with sec := { s.newNonce.sec with former := s.sec.life } } : State).beginGrant 3

/-- END (R367, R369): steps 2 to 4 run again towards the former state. -/
def State.endCmd (s : State) : State := if s.sec.life ≠ 3 then s.secDone 5 else s.beginGrant s.sec.former

/-- What zeroisation writes with zeros and erases (R368). -/
def State.zeroise (s : State) : State :=
  let s := { s with mem := [], ecc := [], hbmEpoch := 0, sramEpoch := 0, wback := [], cache := [], stg := [], stgEcc := [],
                    bursts := [], tiles := [], sides := [], tileEcc := [], tags := [], accs := [], heads := [], sct := [],
                    sctEcc := [], grp := [], grpEcc := [], lpTab := [], lpEcc := [], shadows := [] }
  ((s.setReg Reg.SCT_SEED_LO 0).setReg Reg.SCT_SEED_HI 0).eraseKeys

/-- ZEROISATION (R368, R369): step 3, after the warm reset; a trip or an emergency stop suspends it. In GRANTED the UDS is
blocked from here on, and no attestation key exists. -/
def execZeroisation (s : State) : Host.Outcome State Fault Refusal :=
  .next (match s.sec.granting with
    | none => s
    | some t =>
      if s.fget F.PLN_BOOT_STEP ≠ 11 ∨ s.power.zeroing ∨ s.stopped then s
      else
        let s := s.zeroise.modPower fun p => { p with zeroing := true }
        if t = 3 then { s with sec := { s.sec with udsBlocked := true, attKey := false } } else s)

/-- ZEROISATION_DONE (R369): step 4, the new state takes effect with ZEROED set, and the command ends. -/
def execZeroisationDone (s : State) : Host.Outcome State Fault Refusal :=
  .next (match s.sec.granting with
    | none => s
    | some t =>
      if s.power.zeroing = false ∨ s.stopped then s
      else
        let s := (s.modPower fun p => { p with zeroing := false }).lifeChange t true
        ({ s.setFlag F.SEC_LIFE_ZEROED true with sec := { s.sec with granting := none } } : State).secDone 0)

/-- RETIRE (R367, R372): irreversible; the UDS is gone, and the package is out of service. -/
def State.retireCmd (s : State) : Nat × State :=
  if s.sec.life = 0 ∨ s.sec.life = 4 then (5, s)
  else
    let (res, _, s) := s.takeObj 7 160 0
    if res ≠ 0 then (res, s) else (0, (s.newNonce.lifeChange 4 false).outOfService)

/-- RELEASE (R362, R375, R388): dies and clusters are named for their return at the next package reset; out of service and the
warm-reset count clear at once, and FAULT_N rises. A RETIRED package stays out of service (R367). -/
def State.releaseCmd (s : State) : Nat × State :=
  if s.sec.life = 4 then (5, s)
  else
    let (res, o, s) := s.takeObj 6 176 0
    if res ≠ 0 then (res, s)
    else
      let s := s.newNonce
      let clu := (List.range 4).map fun d => s.sec.relClu.getD d 0 ||| BitVec.ofNat 24 (fieldOf o (4 + 3 * d) (7 + 3 * d))
      let s := { s with sec := { s.sec with relDies := s.sec.relDies ||| BitVec.ofNat 4 (fieldOf o 0 4), relClu := clu } }
      if (BitVec.ofNat 32 (fieldOf o 0 4)).getLsbD 8 then
        let s := (s.setFlag F.TST_STATUS_OOS false).fset F.TST_ESC_WARM7D 0
        let s := { s with resets := Sparse.set (fun _ => []) s.resets 0xE0000000 [] }
        (0, (s.setFlag F.PLN_FAULTN_HELD false).nextPulse)
      else (0, s)

/-! ## Attestation, records and fuses (R361, R363, R364, R375) -/

/-- The bytes of a number, least significant first. -/
def leBytes (n v : Nat) : List (BitVec 8) := (List.range n).map fun i => BitVec.ofNat 8 (v / 256 ^ i)

/-- The report less its signature (R364). -/
def State.report456 (s : State) (nonce : List (BitVec 8)) : List (BitVec 8) :=
  leBytes 4 1 ++ leBytes 1 (s.fget F.SEC_LIFE_STATE) ++ leBytes 1 (s.fget F.DBG_LEVEL_LEVEL) ++ leBytes 2 0 ++
    leBytes 8 Config.serial.toNat ++ leBytes 8 s.now.toNat ++ leBytes 8 0 ++ nonce ++
    leBytes 4 ((s.sec.isl.getD (s.bootSlot false) {}).svn) ++ leBytes 4 ((s.sec.arm.getD (s.bootSlot true) {}).svn) ++
    s.sec.meas.flatMap bytes48

/-- ATTEST (R364): RESULT 8 where no attestation key exists. -/
def State.attest (s : State) : Nat × State :=
  if s.sec.attKey = false then (8, s)
  else match s.readBytes s.secAddr 32 with
    | (none, s) => (6, s)
    | (some n, s) =>
      let b := s.report456 n
      let g := s.secAddr
      let s := s.writeN .arm (pkgOf g) (g.toNat % 2 ^ 48) (byteWords (b ++ (List.range 96).map (Config.attSig b)))
      (0, { s with sec := { s.sec with report := true } })

/-- BOOTCFG (R356, R362): the boot configuration record, 4 KiB with its block, acts at the next step 3. -/
def State.bootcfgCmd (s : State) : Nat × State :=
  let (res, o, s) := s.takeObj 8 4096 0
  if res ≠ 0 then (res, s) else (0, { s with sec := { s.sec with bootcfg := some o } })

/-- SVN (R363): the object's own SVN becomes the minimum of the type its first payload word names (DESIGN CHOICE, log
entry 51). -/
def State.svnCmd (s : State) : Nat × State :=
  let (res, o, s) := s.takeObj 9 164 0
  let t := fieldOf o 0 4
  let v := objSvn o
  if res ≠ 0 then (res, s)
  else if t = 0 ∨ 3 < t then (6, s)
  else if 64 < v then (4, s)
  else
    let v := max v (s.minSvn t)
    (0, if t = 1 then s.fset F.SEC_BOOT_ISL_SVN v else if t = 2 then s.fset F.SEC_BOOT_ARM_SVN v
        else { s with sec := { s.sec with svnCap := v } })

/-- EXTEND (R361): measurement 7 takes the 48-byte digest at SEC_ADDR. -/
def State.extendCmd (s : State) : Nat × State :=
  match s.readBytes s.secAddr 48 with
  | (none, s) => (6, s)
  | (some d, s) => (0, s.measure 7 (BitVec.ofNat 384 (leNat d)))

/-- KEYREV (R362): the key its first payload word names is never accepted again; an object may not revoke its own key
(DESIGN CHOICE, log entry 51). -/
def State.keyrevCmd (s : State) : Nat × State :=
  let (res, o, s) := s.takeObj 10 164 0
  let k := fieldOf o 0 4
  if res ≠ 0 then (res, s)
  else if 8 ≤ k then (6, s)
  else if k = objKey o then (2, s)
  else (0, { s with sec := { s.sec with revoked := s.sec.revoked ||| (1#8 <<< k) } })

/-! ## Calibration overlays (R357 to R359) -/

/-- Whether an ITEM and INDEX name a calibrated quantity (R357). -/
def calOk (item idx : Nat) : Bool :=
  match item with
  | 1 => decide (idx < 64)
  | 2 => decide (idx / 64 ≤ 3) || (idx / 64 == 4 && decide (idx % 64 < 32)) ||
      (decide (5 ≤ idx / 64) && decide (idx / 64 ≤ 8) && decide (idx % 64 < 8))
  | 3 => decide (idx < 3)
  | 4 => decide (idx < 48)
  | 5 => decide (idx / 64 < 12) && decide (idx % 64 < (edgeMods (idx / 64)).1)
  | 6 => decide (idx < 512)
  | _ => false

/-- The length of an overlay without a signature block. -/
def calLen (o : List (BitVec 8)) : Nat := 64 + 8 * fieldOf o 4 8

/-- Whether an overlay carries a signature block. -/
def calSigned (o : List (BitVec 8)) : Bool := o.length == calLen o + 160

/-- The RESULT of checking an overlay (R358). -/
def State.checkCal (s : State) (o : List (BitVec 8)) : Nat :=
  let es := calEntries o
  if fieldOf o 0 4 ≠ 1 ∨ fieldOf o 4 8 = 0 ∨ 4096 < fieldOf o 4 8 ∨ fieldOf o 8 64 ≠ 0 ∨
      es.any (fun e => !calOk e.1 e.2.1 || !e.2.2.2) ∨ decide (es.map (fun e => (e.1, e.2.1))).Nodup = false then 6
  else if calSigned o then s.checkObj 4 o 0
  else if s.flag F.SEC_POLICY_CALSIG then 2
  else 0

/-- OVERLAY (R359): an overlay that checks is staged for the next step 10. Its signature block is there when what follows the
entries names its type (DEDUCED, log entry 52). -/
def State.overlayCmd (s : State) : Nat × State :=
  match s.readBytes s.secAddr 64 with
  | (none, s) => (6, s)
  | (some h, s) =>
    if fieldOf h 0 4 ≠ 1 ∨ fieldOf h 4 8 = 0 ∨ 4096 < fieldOf h 4 8 then (6, s)
    else
      let n := calLen h
      match s.readBytes s.secAddr n with
      | (none, s) => (6, s)
      | (some o, s) =>
        let (b, s) := s.readBytes s.secAddr (n + 160)
        let o := match b with
          | some b => if fieldOf b n (n + 4) = 4 then b else o
          | none => o
        let res := s.checkCal o
        if res ≠ 0 then (res, s)
        else (0, ({ s with sec := { s.sec with staged := some o } } : State).setFlag F.INS_CAL_STAGED true)

/-! ## SEC_CMD -/

/-- What a SEC_CMD operation does (R375). `n` is the length of an image in bytes, or the number of hashes (DESIGN CHOICE,
log entry 50). -/
def State.secRun (s : State) (op : Nat) (tgt : Bool) (n : Nat) : State :=
  match op with
  | 1 => secEnd (s.stage false n)
  | 2 => secEnd (s.stage true n)
  | 3 => secEnd (s.switch tgt)
  | 4 => secEnd (s.confirm tgt)
  | 5 => secEnd (s.install n)
  | 6 => s.grantCmd
  | 7 => s.endCmd
  | 8 => secEnd s.releaseCmd
  | 9 => secEnd s.retireCmd
  | 10 => secEnd s.attest
  | 11 => secEnd s.overlayCmd
  | 12 => secEnd s.bootcfgCmd
  | 13 => secEnd s.svnCmd
  | 14 => secEnd s.extendCmd
  | 15 => secEnd s.keyrevCmd
  | _ => s

/-- A write of SEC_CMD (R373, R375): a requester who may not start the operation is refused with RESULT 9; a write while BUSY
is ignored with RESULT 7. -/
def State.writeSec (s : State) (r : Req) (v : BitVec 32) (n : Nat) : State :=
  let op := v.toNat / 2 ^ 28
  if s.mayCmd r op = false then
    let s := s.deny r Reg.SEC_CMD v
    if op = 0 ∨ r = .engine ∨ s.flag F.SEC_STATUS_BUSY then s else s.fset F.SEC_STATUS_RESULT 9
  else if s.flag F.SEC_STATUS_BUSY then s.fset F.SEC_STATUS_RESULT 7
  else (s.setReg Reg.SEC_CMD (v &&& 0xF8000000)).secRun op (v.getLsbD 27) n

/-- The word that starts an operation. -/
def secWord (op : Nat) (tgt : Bool) : BitVec 32 := BitVec.ofNat 32 (op * 2 ^ 28 + if tgt then 2 ^ 27 else 0)

/-- STAGE_ISL (R366). -/
def execStageIsl (r : Req) (n : Nat) (s : State) : Host.Outcome State Fault Refusal :=
  .next (s.writeSec r (secWord 1 false) n)

/-- STAGE_ARM (R366). -/
def execStageArm (r : Req) (n : Nat) (s : State) : Host.Outcome State Fault Refusal :=
  .next (s.writeSec r (secWord 2 false) n)

/-- SWITCH (R366). -/
def execSwitchFw (r : Req) (arm : Bool) (s : State) : Host.Outcome State Fault Refusal :=
  .next (s.writeSec r (secWord 3 arm) 0)

/-- CONFIRM (R366). -/
def execConfirmFw (r : Req) (arm : Bool) (s : State) : Host.Outcome State Fault Refusal :=
  .next (s.writeSec r (secWord 4 arm) 0)

/-- INSTALL (R367). -/
def execInstall (r : Req) (n : Nat) (s : State) : Host.Outcome State Fault Refusal :=
  .next (s.writeSec r (secWord 5 false) n)

/-- GRANT (R369). -/
def execGrant (r : Req) (s : State) : Host.Outcome State Fault Refusal := .next (s.writeSec r (secWord 6 false) 0)

/-- END (R367). -/
def execEndGrant (r : Req) (s : State) : Host.Outcome State Fault Refusal := .next (s.writeSec r (secWord 7 false) 0)

/-- RELEASE (R375). -/
def execReleaseQuar (r : Req) (s : State) : Host.Outcome State Fault Refusal := .next (s.writeSec r (secWord 8 false) 0)

/-- RETIRE (R367). -/
def execRetirePkg (r : Req) (s : State) : Host.Outcome State Fault Refusal := .next (s.writeSec r (secWord 9 false) 0)

/-- ATTEST (R364). -/
def execAttest (r : Req) (s : State) : Host.Outcome State Fault Refusal := .next (s.writeSec r (secWord 10 false) 0)

/-- OVERLAY (R359). -/
def execOverlay (r : Req) (s : State) : Host.Outcome State Fault Refusal := .next (s.writeSec r (secWord 11 false) 0)

/-- BOOTCFG (R375). -/
def execBootcfg (r : Req) (s : State) : Host.Outcome State Fault Refusal := .next (s.writeSec r (secWord 12 false) 0)

/-- SVN (R363). -/
def execSvn (r : Req) (s : State) : Host.Outcome State Fault Refusal := .next (s.writeSec r (secWord 13 false) 0)

/-- EXTEND (R361). -/
def execExtend (r : Req) (s : State) : Host.Outcome State Fault Refusal := .next (s.writeSec r (secWord 14 false) 0)

/-- KEYREV (R362). -/
def execKeyrev (r : Req) (s : State) : Host.Outcome State Fault Refusal := .next (s.writeSec r (secWord 15 false) 0)

/-- PROVISIONING (R360, R367): the UDS and the key hashes are fused, and BLANK becomes PROVISIONED. -/
def execProvisioning (s : State) : Host.Outcome State Fault Refusal :=
  .next (if s.sec.life = 0 then s.lifeChange 1 false else s)

end Sys2Proof.Machine
end

