-- ==== Sys2Proof/Machine/Capsules.lean ====
section
/-! DEFINITION. The repartition of stacked SRAM (R175) and the capsule library (R337, R338, R350). -/
namespace Sys2Proof.Machine

/-! ## Repartition (R175) -/

/-- The contents of scratch from GiB `lo` up to GiB `hi` of a die go: bytes, syndromes and the write-backs that waited
(R188). -/
def State.dropScratch (s : State) (d lo hi : Nat) : State :=
  let out (a : Nat) : Bool := decide (0x20000000000 ≤ a) && (a - 0x20000000000) / 0x400000000 == d &&
    decide (lo ≤ (a - 0x20000000000) % 0x400000000 / 0x40000000) &&
    decide ((a - 0x20000000000) % 0x400000000 / 0x40000000 < hi)
  { s with mem := s.mem.filter (fun c => !out c.1), ecc := s.ecc.filter (fun c => !out (4 * c.1)),
           wback := s.wback.filter (fun c => !out (4 * c.1)) }

/-- A write of MEM_SRAM_CFG (R175): steps 1 and 2. A write while BUSY, or of a value above 12, is ignored and sets ERR. -/
def State.writeSramCfg (s : State) (r : Req) (d : Nat) (v : BitVec 32) : State :=
  s.acting r (Reg.MEM_SRAM_CFG d) v fun s =>
    let n := v.toNat % 16
    if s.flag (F.MEM_SRAM_STATUS_BUSY d) ∨ 12 < n then s.setFlag (F.MEM_SRAM_STATUS_ERR d) true
    else
      let s := (s.fset (F.MEM_SRAM_CFG_SCRATCH d) n).setFlag (F.MEM_SRAM_STATUS_BUSY d) true
      if n < s.fget (F.MEM_SRAM_STATUS_ACT d) then (s.dropScratch d n 12).fset (F.MEM_SRAM_STATUS_ACT d) n else s

/-- SRAM_REPARTITION (R175). -/
def execSramRepartition (r : Req) (d : Fin 4) (v : BitVec 32) (s : State) : Host.Outcome State Fault Refusal :=
  .next (s.writeSramCfg r d.val v)

/-- REPARTITION_WRITEBACK_DONE (R175): steps 3 and 4. -/
def execRepartitionWritebackDone (d : Fin 4) (s : State) : Host.Outcome State Fault Refusal :=
  .next (if s.flag (F.MEM_SRAM_STATUS_BUSY d.val) = false then s
    else { s with cache := s.cache.filter fun (x : CLine) => x.die != d.val })

/-- The mask of GiB `lo` to `hi - 1` of a die's stacked SRAM. -/
def gibMask (d lo hi : Nat) : BitVec 48 :=
  (List.range 12).foldl (fun m g => if lo ≤ g ∧ g < hi then m ||| (1#48 <<< (12 * d + g)) else m) 0

/-- REPARTITION_DONE (R175): steps 5 and 6, once the lines have gone. Added scratch reads zeros with valid check bits. -/
def execRepartitionDone (d : Fin 4) (s : State) : Host.Outcome State Fault Refusal :=
  let d := d.val
  let n := s.fget (F.MEM_SRAM_CFG_SCRATCH d)
  let act := s.fget (F.MEM_SRAM_STATUS_ACT d)
  .next (if s.flag (F.MEM_SRAM_STATUS_BUSY d) = false ∨ s.cache.any (fun (x : CLine) => x.die == d) then s
    else
      let s := if act < n then
          { s.dropScratch d act n with sramClean := s.sramClean ||| gibMask d act n } else s
      (s.fset (F.MEM_SRAM_STATUS_ACT d) n).setFlag (F.MEM_SRAM_STATUS_BUSY d) false)

/-! ## Capsules (R337, R338) -/

/-- KiB of the pool in use. -/
def poolKib (cs : List (Nat × Capsule)) : Nat := ((cs.map fun c => c.2.size).sum + 1023) / 1024

/-- Shows the library in TST_CAP_STATUS. -/
def State.showLib (s : State) : State :=
  (s.fset F.TST_CAP_STATUS_COUNT s.capsules.length).fset F.TST_CAP_STATUS_POOL (poolKib s.capsules)

/-- The address in TST_CAP_ADDR, 64-byte aligned (R338). -/
def State.capAddr (s : State) : BitVec 64 := s.reg64 Reg.TST_CAP_ADDR_LO Reg.TST_CAP_ADDR_HI &&& ~~~63#64

/-- Whether a capsule's header has the format of R337. -/
def capHeadOk (h : List (BitVec 8)) : Bool :=
  let n := fieldOf h 12 16
  fieldOf h 0 2 == 1 && decide (fieldOf h 2 3 ≤ 3) && fieldOf h 3 4 == 0 && fieldOf h 16 64 == 0 && decide (1 ≤ n) &&
    decide (n ≤ 60) && fieldOf h 4 8 == 64 + n * (8 + 2 * (2048 + 64)) + 16448 + 160

/-- A load (R338): nothing is stored unless the signature verifies, the format is right and the pool has room (DEDUCED,
log entry 73). -/
def State.capLoad (s : State) (i : Nat) : Nat × State :=
  match s.readBytes s.capAddr 64 with
  | (none, s) => (2, s)
  | (some h, s) =>
    if capHeadOk h = false then (2, s)
    else match s.readBytes s.capAddr (fieldOf h 4 8) with
      | (none, s) => (1, s)
      | (some o, s) =>
        if s.checkObj 3 o s.sec.svnCap ≠ 0 then (1, s)
        else
          let lib := upsert s.capsules i { size := o.length, enabled := true, bytes := o }
          if 24576 < poolKib lib then (3, s)
          else (0, ({ s with capsules := lib } : State).measure 5 (Config.sha384 o))

/-- A capsule is enabled or disabled; an empty index stays empty. -/
def State.capEnable (s : State) (i : Nat) (en : Bool) : State :=
  { s with capsules := s.capsules.map fun (c : Nat × Capsule) => if c.1 = i then (i, { c.2 with enabled := en }) else c }

/-- What TST_CAP_CMD does (R338, R350, R372): every operation needs a lifecycle state that permits capsules. -/
def State.capCmd (s : State) (v : BitVec 32) : State :=
  let op := v.toNat / 2 ^ 30
  let i := v.toNat % 256
  let s := s.setReg Reg.TST_CAP_CMD (v &&& 0xE00000FF)
  if op = 0 then s
  else
    let (res, s) :=
      if s.capLife = false then (4, s)
      else if op = 1 then s.capLoad i
      else if op = 2 then (0, { s with capsules := without s.capsules i })
      else (0, s.capEnable i (v.getLsbD 29))
    (s.fset F.TST_CAP_STATUS_RESULT res).showLib

/-- A write of TST_CAP_CMD by a requester (R373). -/
def State.writeCapCmd (s : State) (r : Req) (v : BitVec 32) : State := s.acting r Reg.TST_CAP_CMD v fun s => s.capCmd v

/-- The word of a capsule command. -/
def capWord (op : Nat) (en : Bool) (i : BitVec 8) : BitVec 32 :=
  BitVec.ofNat 32 (op * 2 ^ 30 + (if en then 2 ^ 29 else 0) + i.toNat)

/-- CAPSULE_LOAD (R338). -/
def execCapsuleLoad (r : Req) (i : BitVec 8) (s : State) : Host.Outcome State Fault Refusal :=
  .next (s.writeCapCmd r (capWord 1 false i))

/-- CAPSULE_ERASE (R350). -/
def execCapsuleErase (r : Req) (i : BitVec 8) (s : State) : Host.Outcome State Fault Refusal :=
  .next (s.writeCapCmd r (capWord 2 false i))

/-- CAPSULE_ENABLE (R350). -/
def execCapsuleEnable (r : Req) (i : BitVec 8) (en : Bool) (s : State) : Host.Outcome State Fault Refusal :=
  .next (s.writeCapCmd r (capWord 3 en i))

end Sys2Proof.Machine
end

