-- ==== Sys2Proof/Machine/Boot.lean ====
section
/-! DEFINITION. The power-up order (R352 to R355), the facet straps (R384 to R386), calibration as applied (R357 to R359),
and leaving STANDBY. PLN_BOOT.STEP shows the last step begun: the event that ends a step begins the next (DESIGN CHOICE,
log entry 49). -/
namespace Sys2Proof.Machine

/-- AUX_POWER_GOOD (R352). -/
def execAuxPowerGood (s : State) : Host.Outcome State Fault Refusal := .next (if s.power.auxUp then s else s.coldStart)

/-! ## Straps and facets (R385, R386) -/

/-- The bits of a word that are 1. -/
def ones (n : Nat) (w : BitVec 24) : Nat := ((List.range n).filter w.getLsbD).length

/-- Whether a strap word is valid (R385). -/
def strapOk (w : BitVec 24) (ambig : BitVec 12) : Bool :=
  w.toNat / 2 ^ 22 == 1 && w.toNat / 2 ^ 17 % 32 == ones 17 w && w.toNat % 512 != 511 && ambig == 0

/-- The package id a strap word names: rack, tray and slot in the places of R21. -/
def strapId (w : BitVec 24) : Nat := w.toNat % 512 * 128 + w.toNat / 2 ^ 9 % 16 * 8 + w.toNat / 2 ^ 13 % 8

/-- STRAP_LATCH (R352 step 2, R385, R386, R389): the sampled word is latched, and step 3 begins. Straps are latched only once
after AUX_PG rises (DEDUCED, log entry 71). -/
def execStrapLatch (word : BitVec 24) (ambig : BitVec 12) (s : State) : Host.Outcome State Fault Refusal :=
  let ok := strapOk word ambig
  let v := strapId word + (if ok then 2 ^ 31 + (if word.getLsbD 16 then 2 ^ 30 else 0) else 0)
  .next (if s.fget F.PLN_BOOT_STEP ≠ 1 then s
    else
      let s := s.setReg Reg.WPL_STRAP (BitVec.ofNat 32 v)
      let s := (s.fset F.PLN_FACET_WORD word.toNat).fset F.PLN_FACET_AMBIG (ones 12 (ambig.zeroExtend 24))
      let s := s.fset F.PLN_MGMT_STATADDR (if ok then 0x50 + word.toNat / 2 ^ 13 % 8 else 0x4F)
      s.settleId.fset F.PLN_BOOT_STEP 3)

/-- FACET_OUTPUTS_ON (R386 step 4): the facets are in SERVICE. -/
def execFacetOutputsOn (s : State) : Host.Outcome State Fault Refusal :=
  .next (if s.fget F.PLN_BOOT_STEP < 3 ∨ s.fget F.PLN_FACET_PHASE ≠ 0 then s else s.fset F.PLN_FACET_PHASE 1)

/-- FACET_INPUTS_JUDGED (R386 step 5): a PACE_N that is low is a falling edge now; a PWRFAIL_N that is low holds start-up. -/
def execFacetInputsJudged (pwrfailLow paceLow : Bool) (s : State) : Host.Outcome State Fault Refusal :=
  .next (if s.fget F.PLN_FACET_PHASE = 0 ∨ s.power.judged then s
    else
      let s := s.modPower fun p => { p with judged := true, pwrfailLow := pwrfailLow }
      if paceLow then s.paceFall else s)

/-! ## Step 3 (R352, R354, R356) -/

/-- Takes a register's bits from the boot configuration record. -/
def State.bootTake (s : State) (rec : List (BitVec 8)) (k : Nat) (mask : BitVec 32) : State :=
  let (v, m) := Config.bootReg rec k
  s.setReg k ((s.reg k &&& ~~~(m &&& mask)) ||| (v &&& m &&& mask))

/-- Applies the boot configuration record (R169, R241, R352, R375, R392): COL_CFG and SEC_POLICY are written and locked,
MEM_CFG.ILV, WPL_DISC_CFG.AUTO and the host port's mode are loaded; a policy of 3 is not a policy. Without a record the
reset values stand, and SEC_POLICY is locked (DEDUCED, log entry 72). -/
def State.bootConfig (s : State) : State :=
  let s := match s.sec.bootcfg with
    | none => s
    | some rec =>
      let s := (s.bootTake rec Reg.COL_CFG (lkMask Reg.COL_CFG)).setFlag F.COL_CFG_LOCK true
      let s := s.bootTake rec Reg.SEC_POLICY (lkMask Reg.SEC_POLICY)
      let ilv := s.fget F.MEM_CFG_ILV
      let s := s.bootTake rec Reg.MEM_CFG F.MEM_CFG_ILV.mask
      let s := if s.fget F.MEM_CFG_ILV = 3 then s.fset F.MEM_CFG_ILV ilv else s
      let s := s.bootTake rec Reg.WPL_DISC_CFG F.WPL_DISC_CFG_AUTO.mask
      (s.bootTake rec Reg.PLN_HOST F.PLN_HOST_MODE.mask).measure 3 (Config.sha384 rec)
  (s.setFlag F.SEC_POLICY_LOCK true).fset F.MEM_CFG_ILV_ACT (s.fget F.MEM_CFG_ILV)

/-- The island firmware runs: step 3 ends, and step 4 judges the reference. Out of service, which Inscription holds, holds
FAULT_N low (R388). -/
def State.islandUp (s : State) : State :=
  let s := s.bootConfig
  let s := if s.flag F.TST_STATUS_OOS then s.setFlag F.PLN_FAULTN_HELD true else s
  (s.fset F.COL_STATUS_STATE 1).fset F.PLN_BOOT_STEP 4

/-- FIRMWARE_VERIFY (R352 step 3, R354, R361): the island image of the active slot, or of the other; with both refused
only the recovery loader runs. -/
def execFirmwareVerify (s : State) : Host.Outcome State Fault Refusal :=
  .next (if s.fget F.PLN_BOOT_STEP ≠ 3 ∨ s.sec.recovering then s
    else
      let k := s.bootSlot false
      let s := s.measure 0 Config.romDigest
      if s.slotOk false k then (s.runSlot false k).islandUp
      else
        let s := s.fset F.PLN_BOOT_FAIL 1
        if s.slotOk false (1 - k) then (s.runSlot false (1 - k)).fellBack.islandUp
        else
          let s := s.recovery 0xE0000000 6
          { s with sec := { s.sec with recovering := true, recov := [] } })

/-- RECOVERY_GO (R354, R389): an island image signed as a type 1 object boots; one that is refused leaves the loader waiting,
with its bytes gone. -/
def State.recoveryGo (s : State) : State :=
  let o := s.sec.recov
  let ok := s.checkObj 1 o (s.minSvn 1) == 0
  let s := { s with sec := { s.sec with recov := [], mgmtRef := !ok } }
  if ok then
    ({ s with sec := { s.sec with recovering := false } } : State).measure 1 (Config.sha384 o) |>.islandUp
  else s

/-! ## Steps 5 and 6 (R352, R354) -/

/-- RAIL_SEQUENCE (R352 step 5, R353): the main rails rise, each compute core rail to its P15 voltage. A quarantined die keeps
0 V, but for one released, which is tested. A PWRFAIL_N that is low holds the step (R386). -/
def execRailSequence (s : State) : Host.Outcome State Fault Refusal :=
  .next (if s.fget F.PLN_BOOT_STEP ≠ 5 ∨ s.power.pwrfailLow then s
    else
      let s := s.modPower fun p => { p with railsUp := true, sag := 0 }
      let s := (List.range 4).foldl (fun s d =>
        if s.dieQ d ∧ s.sec.relDies.getLsbD d = false then s.fset (F.HEL_STATUS_VOUT d) 0
        else s.fset (F.HEL_STATUS_VOUT d) (s.tableVolt d 15)) s
      s.showSag.fset F.PLN_BOOT_STEP 6)

/-- RAIL_TIMEOUT (R320, R354 step 5): a rail is late; all main rails fall, and the package is in STANDBY until a package cold
reset. Which rail, by its place in R381, the record names is a free value (DESIGN CHOICE, log entry 7). -/
def execRailTimeout (s : State) : Host.Outcome State Fault Refusal :=
  .next (if s.fget F.PLN_BOOT_STEP ≠ 5 then s
    else
      let (r, s) := s.draw
      (s.event 0x0E 0xE0000000 (BitVec.ofNat 32 (r.toNat % 16)) 0 0).standby.fset F.PLN_BOOT_FAIL 3)

/-- The Waipol ports begin to train at step 6 (R229, R352): those enabled, but for one whose retired lanes leave no width. -/
def State.startPorts (s : State) : State :=
  (List.range 12).foldl (fun s p =>
    if s.flag (F.WPL_CFG_EN p) = false then s
    else if widthOf (s.lret p) = none ∧ (s.port p).clrLanes = false then s.setPortState p 6
    else s.beginTraining p) s

/-- ARMATURE_START (R352 step 6, R354): the Armature image of the active slot, or of the other, is verified, measured and
started; it sets WPL_REV, and the neighbour table is filled when AUTO is 1. With both refused the island serves management
only and the rails above Plinth's fall. -/
def execArmatureStart (rev : BitVec 8) (s : State) : Host.Outcome State Fault Refusal :=
  let go (s : State) : State :=
    let s := s.armRuns rev
    let s := if s.flag F.WPL_DISC_CFG_AUTO then s.autoFill else s
    s.startPorts.fset F.PLN_BOOT_STEP 7
  .next (if s.fget F.PLN_BOOT_STEP ≠ 6 ∨ s.power.railsUp = false then s
    else
      let k := s.bootSlot true
      if s.slotOk true k then go s
      else if s.slotOk true (1 - k) then go (s.fset F.SEC_BOOT_ARM_SLOT (1 - k)).fellBack
      else
        let s := (s.fset F.PLN_BOOT_FAIL 4).recovery 0xE0000000 6
        (s.setRails fun _ => 0).modPower fun p => { p with railsUp := false })

/-! ## Steps 7 to 9 (R352 to R354) -/

/-- Step 7 ends once every die has passed or is quarantined. With two or more quarantined the package declares itself out of
service and goes on (R345, R354). -/
def State.endDies (s : State) : State :=
  if (List.range 4).all fun d => (s.fget F.PLN_BOOT_DIEPASS).testBit d || (s.dieQ d && !s.sec.relDies.getLsbD d) then
    let up := ((List.range 4).filter fun d => !s.dieQ d).foldl (fun m d => m + 2 ^ d) 0
    let s := if 2 ≤ ((List.range 4).filter s.dieQ).length then s.outOfService else s
    (s.fset F.PLN_DIE_MAP_CD_ACTIVE up).fset F.PLN_BOOT_STEP 8
  else s

/-- DIE_SELF_TEST (R352 step 7, R353, R354): a die that fails twice is quarantined; a released one that passes rejoins. A
quarantined die that is not released is not tested. -/
def execDieSelfTest (d : Fin 4) (pass passRepeat : Bool) (s : State) : Host.Outcome State Fault Refusal :=
  let d := d.val
  let rel := s.sec.relDies.getLsbD d
  .next (if s.fget F.PLN_BOOT_STEP ≠ 7 ∨ (s.fget F.PLN_BOOT_DIEPASS).testBit d then s
    else if s.dieQ d ∧ rel = false then s.endDies
    else
      let s := { s with sec := { s.sec with relDies := s.sec.relDies &&& ~~~(1#4 <<< d) } }
      if pass ∨ passRepeat then
        let s := s.fset F.TST_ESC_DIEQ (s.fget F.TST_ESC_DIEQ &&& (15 - 2 ^ d))
        (s.fset F.PLN_BOOT_DIEPASS (s.fget F.PLN_BOOT_DIEPASS ||| 2 ^ d)).endDies
      else
        let s := if s.dieQ d then (s.fset (F.HEL_STATUS_VOUT d) 0).recovery (BitVec.ofNat 32 (0x20000000 + d)) 3
          else s.quarDie d
        (s.fset F.PLN_BOOT_FAIL 5).endDies)

/-- Marks failed modules of an edge, the highest first, until no more than `g` are good (DESIGN CHOICE, log entry 74). -/
def State.markMods (s : State) (e g : Nat) : Nat → State
  | 0 => s
  | m + 1 =>
    if s.goodMods e ≤ g then s
    else
      ({ s with modBad := Sparse.set (fun _ => 0) s.modBad e (s.badMods e ||| (1#34 <<< m)) } : State).markMods e g m

/-- The memories that start-up trains: not RETIRED, not on a quarantined die, not behind a CLOSED edge. -/
def State.trains (s : State) (u : Nat) : Bool :=
  s.fget (F.MEM_H_STATUS_STATE u) != 3 && !(decide (u < 16) && s.dieQ (u / 4)) &&
    !(decide (16 ≤ u) && !s.rifEdgeOpen ((u - 16) / 2))

/-- Sets the state of the memories that start-up trains (R191): 1 TRAINING or 2 UP. -/
def State.setMems (s : State) (st : Nat) : State :=
  (List.range 24).foldl (fun s u => if s.trains u then s.fset (F.MEM_H_STATUS_STATE u) st else s) s

/-- EDGE_TRAINING (R16, R352 step 8, R354): an edge is trained with the modules found good. With the last edge the states take
effect under R17, and step 9 begins to train the memories (R191). -/
def execEdgeTraining (e : Fin 12) (good : BitVec 6) (s : State) : Host.Outcome State Fault Refusal :=
  let e := e.val
  .next (if s.fget F.PLN_BOOT_STEP ≠ 8 ∨ s.fget (F.PLN_EDGE_STATUS_STATE e) ≠ 0 then s
    else
      let s := (s.markMods e good.toNat (edgeMods e).1).setEdge e
      if (List.range 12).all fun k => s.fget (F.PLN_EDGE_STATUS_STATE k) != 0 then (s.edgeEffects.setMems 1).fset F.PLN_BOOT_STEP 9
      else s)

/-- MEMORY_TRAINING (R352 step 9, R353, R354): channels that failed three times are retired; stacks, devices and Rifflers
are up, but for those retired, behind a CLOSED edge or on a quarantined die; every tier is written with zeros, but not
after a warm reset. -/
def execMemoryTraining (failed : List (Fin 24 × Fin 32)) (s : State) : Host.Outcome State Fault Refusal :=
  .next (if s.fget F.PLN_BOOT_STEP ≠ 9 then s
    else
      let s := failed.foldl (fun s f =>
        let u := f.1.val
        let ch := f.2.val
        if chans u ≤ ch ∨ (s.reg (Reg.MEM_H_CHRET u)).getLsbD ch then s
        else (s.retireChannel u ch).recovery (chanUnit u ch) 5) s
      let s := s.setMems 2
      let s := (List.range 4).foldl (fun s n =>
        if s.rifEdgeOpen n ∧ s.gone.contains (0x10000 + n) = false then s.rifReturn n
        else
          { s.setRif n 3 with rifOut := if s.rifOut.any (·.1 == n) then s.rifOut else s.rifOut ++ [(n, true)] }) s
      let s := if s.power.cold then
          { s with mem := [], ecc := [], bursts := [], hbmEpoch := 0, sramEpoch := 0, wback := [] }
        else s
      (s.modPower fun p => { p with cold := false }).fset F.PLN_BOOT_STEP 10)

/-! ## Step 10 (R352, R354, R357 to R359, R361) -/

/-- One entry of the overlay in force: a user offset beyond its bound is clamped and counted (R357, R359). The offsets of
items 2, 4, 5 and 6 stay with the overlay. -/
def State.calEntry (s : State) (e : Nat × Nat × Int × Bool) : State :=
  let b := calBound e.1
  let v := clampInt (-b) b e.2.2.1
  let s := if v = e.2.2.1 then s else s.fsat F.INS_CAL_CLAMPED 1
  if e.1 = 1 then s.fset (F.HEL_VT_USER (e.2.1 / 16) (e.2.1 % 16)) (unsigned 8 v)
  else if e.1 = 3 then
    s.fset (if e.2.1 = 0 then F.DIA_WTRIM_COMPUTE else if e.2.1 = 1 then F.DIA_WTRIM_MEMORY else F.DIA_WTRIM_LINKS)
      (unsigned 8 v)
  else s

/-- Puts an overlay in force, or none. -/
def State.calInForce (s : State) (o : Option (List (BitVec 8))) : State :=
  let s := s.setReg Reg.INS_CAL 0
  match o with
  | none => s
  | some o =>
    let s := ((s.setFlag F.INS_CAL_VALID true).setFlag F.INS_CAL_SIGNED (calSigned o)).fset F.INS_CAL_ENTRIES (fieldOf o 4 8)
    ((calEntries o).foldl State.calEntry s).measure 4 (Config.sha384 o)

/-- The overlay of step 10 (R354, R359): a staged one becomes current when it is accepted. One that is refused leaves the user
offsets 0, and does not replace the current one (DEDUCED, log entry 52). -/
def State.applyCal (s : State) : State :=
  match s.sec.staged with
  | some o =>
    let s := { s with sec := { s.sec with staged := none } }
    if s.checkCal o = 0 then ({ s with sec := { s.sec with current := some o } } : State).calInForce (some o)
    else s.calInForce none
  | none => match s.sec.current with
    | some o => if s.checkCal o = 0 then s.calInForce (some o) else s.calInForce none
    | none => s.calInForce none

/-- CALIBRATION_APPLY (R352 step 10, R361): the effective calibration is applied, the Heliostats lock at UCEIL, and the
overlay and the capsule library are measured. -/
def execCalibrationApply (s : State) : Host.Outcome State Fault Refusal :=
  .next (if s.fget F.PLN_BOOT_STEP ≠ 10 ∨ s.power.calib then s
    else
      let s := s.applyCal
      let c := s.fget F.DIA_PACE_UCEIL
      let s := if s.stopped then s
        else (List.range 4).foldl (fun s d => if s.dieQ d then s
          else ((s.fset (F.HEL_STATUS_STEP d) c).fset (F.HEL_STATUS_VOUT d) (s.tableVolt d c)).setFlag (F.HEL_STATUS_LOCKED d)
            true) s
      let s := s.capsules.foldl (fun s c => s.measure 5 (Config.sha384 c.2.bytes)) s
      (s.modPower fun p => { p with calib := true, target := c }).rePace)

/-- READY (R352 step 11): queues may start. -/
def execReady (ms : Nat) (s : State) : Host.Outcome State Fault Refusal :=
  .next (if s.fget F.PLN_BOOT_STEP ≠ 10 ∨ s.power.calib = false then s
    else (s.fset F.PLN_BOOT_STEP 11).fset F.PLN_BOOT_MS (min 0xFFFF ms))

/-- STANDBY_EXIT (R306, R353, R354): steps 4 to 11 run again; after a rail has failed, only a package cold reset retries. -/
def execStandbyExit (s : State) : Host.Outcome State Fault Refusal :=
  .next (if s.fget F.DIA_PSTATE_STATE ≠ 3 ∨ s.fget F.PLN_BOOT_FAIL = 3 then s
    else
      let s := (s.setReg Reg.PLN_BOOT 0).fset F.PLN_BOOT_STEP 4
      let s := (s.fset F.COL_STATUS_STATE 1).fset F.DIA_PSTATE_STATE (if s.stopped then 2 else 1)
      s.modPower fun p => { p with cold := true })

end Sys2Proof.Machine
end

