-- ==== Sys2Proof/Machine/Faults.lean ====
section
/-! DEFINITION. Fault detection (R313 to R317, R322, R324): residue checks and INSTRUCTION_COMPLETE, lockstep, heartbeats,
the handshake watchdog, sensors, replays, write-backs of corrected words, the patrol scrub and service time. -/
namespace Sys2Proof.Machine

/-! ## Arrays (R313, R314) -/

/-- The accumulator an array instruction adds to in a unit. -/
def accOf (w : BitVec 64) (u : Unit3) : Option Nat :=
  if opc w = opTMAC then some (tmACC w)
  else if opc w = opTMAC2 then (match u with
    | .a => some (t2ACA w)
    | .b => some (t2ACB w)
    | .v => none)
  else none

/-- The operand-pair code of an ARITH signature (R320). -/
def pairCode (w : BitVec 64) : Nat :=
  if opc w ≠ opTMAC ∨ tmEight w = false then 0
  else 1 + tmFMTA w % 2 + tmFMTB w % 2

/-- The first element of an accumulator whose window does not match its RESIDUE, with the residue difference (R81, R313,
R320). -/
def State.residueBad (s : State) (e a : Nat) : Option (Nat × Nat) :=
  ((List.range 1024).find? fun i =>
    let x := s.el e a i
    (x.w % 63).toNat != x.res % 63).map fun i =>
      let x := s.el e a i
      (i, ((x.w - (x.res : Int)) % 63).toNat)

/-- Whether an ARITH fault of an engine can be replayed (R324): replays are enabled, the cluster is in service and a spare
is free, and the engine is not the spare itself (DEDUCED, log entry 56). -/
def State.canReplay (s : State) (e : Nat) : Bool :=
  s.flag F.FLT_CFG_REPLAY && !s.flag (F.STR_SPARE_QUAR (e / 17)) && (s.slotOf e).isSome && (s.spareOf (e / 17)).isSome

/-- The latched pair that a mismatch at accumulator `a` names (R313, R314): the latest of the instruction, or for an ACCST the
latest added to the accumulator. -/
def Engine.latched (x : Engine) (q : QEnt) (a : Nat) : Option Capture :=
  x.latch.reverse.find? fun c => c.acc == a && (opc q.w == opACCST || c.w == q.w)

/-- A mismatch in an array (R314, R323, R324): the accumulator is poisoned, and the pair is copied to a free capture slot.
With a replay owed the record is filed PENDING and the slot kept for it; with none, or at a third occurrence, the fault is
judged at once and the slot freed. With no free slot the record says so. What the signature of an ACCST says of a pair
that has left the latch is a free value (DESIGN CHOICE, log entry 46). -/
def State.arithFault (s : State) (e : Nat) (q : QEnt) (a i diff : Nat) : State :=
  let (f, s) := s.draw
  let held := (s.eng e).latched q a
  let cap := held.getD { w := q.w, acc := a, pair := if opc q.w = opACCST then f.toNat % 65536 else q.pair - 1 }
  let code := if (s.hd e a).cls = 2 then 0
    else match held with
      | some c => pairCode c.w
      | none => if opc q.w = opACCST then 1 + f.toNat % 3 else pairCode q.w
  let s := s.poisonAcc e a
  let unit := engineUnit e
  let sig := BitVec.ofNat 32 ((if 4 ≤ a then 2 ^ 31 else 0) + code * 2 ^ 28 + i * 2 ^ 18 + diff * 2 ^ 12)
  let r : FRec := s.faultTask e q.ctx (opc q.w) q.pc { cls := 3, poison := true, unit := unit, sig := sig }
  match (List.range 16).find? fun n => (lookup s.caps n).isNone with
  | none => s.classify { r with lost := true, det0 := capDet 0xFF cap.pair }
  | some n =>
    let r := { r with det0 := capDet n cap.pair }
    if s.canReplay e ∧ (s.occur r).third r = false then
      let s := ({ s with caps := upsert s.caps n { unit := unit, sig := sig, cls := 3, cap := cap } } : State).showCaps
      (s.occur r).fileLimited { r with disp := 0 }
    else s.classify r

/-- The comparison of one accumulator. -/
def State.checkAcc (s : State) (e : Nat) (q : QEnt) (a : Nat) : State :=
  match s.residueBad e a with
  | none => s
  | some (i, diff) => s.arithFault e q a i diff

/-- RESIDUE_CHECK (R81, R313, R314): at a pair boundary, the residue path is compared with the window of every element of
the accumulator that the unit's instruction adds to. -/
def execResidueCheck (p : Pos) (u : Unit3) (s : State) : Host.Outcome State Fault Refusal :=
  let e := p.key
  .next (match (s.eng e).inUnit u with
    | none => s
    | some q => match accOf q.w u with
      | none => s
      | some a => s.checkAcc e q a)

/-! ## Other arithmetic units (R315) -/

/-- The signature of a unit other than an array (R320). -/
def unitSig (lane diff : BitVec 6) : BitVec 32 := BitVec.ofNat 32 (lane.toNat * 2 ^ 26 + diff.toNat * 2 ^ 12)

/-- A mismatch in a Riffler: the chunk is dropped and served again, by the alternate after a reproduction, which is PERMANENT
and takes the Riffler out of service (R315, R323, R324). -/
def State.chunkMismatch (s : State) (k : ChunkId) (sig : BitVec 32) : State :=
  match s.upd with
  | none => s
  | some u => match u.act.find? fun c => c.id == k with
    | none => s
    | some c =>
      let s := ({ s with upd := some { u with act := u.act.filter fun x => x.id ≠ k } } : State).showHeld
      let (again, s) := s.unitFault (.riffler k) (unitRec (BitVec.ofNat 32 (0xA0000000 + c.rif)) sig)
      if again then s.rifLeave c.rif true else s

/-- Whether an operation's results pass the vector unit's arithmetic. -/
def vecOp (w : BitVec 64) : Bool := isV (opc w) || opc w == opTQNT || (opc w == opACCST && asMODE w == 0)

/-- The unit code of an engine's vector unit (R319). -/
def vectorUnit (e : Nat) : BitVec 32 := engineUnit e ||| 0xD0000000

/-- UNIT_RESIDUE_MISMATCH (R315): a vector unit's output is marked poison, a Riffler's chunk is served again, and a
collective node's next output words are poisoned; each files an ARITH record naming the unit, PENDING until the work has been
served again (R323). A difference of 0 is no mismatch. -/
def execUnitResidueMismatch (u : ArithUnit) (lane diff : BitVec 6) (s : State) : Host.Outcome State Fault Refusal :=
  let sig := unitSig lane diff
  .next (if diff = 0 ∨ diff = 63 then s
    else match u with
      | .vector p =>
        let e := p.key
        (match (s.eng e).runV with
         | some q =>
           if vecOp q.w then
             ((s.modEng e fun x => { x with vbad := true }).unitFault u
               (s.faultTask e q.ctx (opc q.w) q.pc { unitRec (vectorUnit e) sig with poison := true })).2
           else s
         | none => s)
      | .riffler k => s.chunkMismatch k sig
      | .collective g i =>
        let k := instKey g.toNat i.toNat
        let x := s.inst k
        if x.joined = [] ∨ (x.op ≠ 0 ∧ x.op ≠ 3) ∨ x.rooted then s
        else ((s.setInst k { x with hurt := true }).unitFault u { unitRec (blockUnit 9) sig with poison := true }).2)

/-! ## INSTRUCTION_COMPLETE (R81, R120) -/

/-- The accumulators compared as an instruction ends (R81): those a TMAC or TMAC2 has added to once its last pair has entered,
and that of an ACCST, once. -/
def endAccs (q : QEnt) : List Nat :=
  let o := opc q.w
  if o = opTMAC then (if tmREP q.w < q.pair then [tmACC q.w] else [])
  else if o = opTMAC2 then [t2ACA q.w, t2ACB q.w]
  else if o = opACCST ∧ q.pair = 0 then [asACC q.w]
  else []

/-- INSTRUCTION_COMPLETE (R81, R120, R315): an accumulator is compared with its residues at each tile completion and at every
ACCST, and a vector operation that ends without a mismatch settles one that was PENDING; then the instruction ends. -/
def execInstructionComplete (p : Pos) (u : Unit3) (s : State) : Host.Outcome State Fault Refusal :=
  let e := p.key
  .next (match (s.eng e).inUnit u with
    | none => s
    | some q =>
      if s.canRun e = false then s
      else
        let s := (endAccs q).foldl (fun s a => s.checkAcc e q a) s
        let s := if vecOp q.w ∧ (s.eng e).vbad = false then s.settleVector (vectorUnit e) else s
        s.unitDone e u)

/-! ## Lockstep, heartbeats, watchdogs (R316) -/

/-- Every command that has started and not committed ends with a code, as under R162. -/
def State.stopAll (s : State) (p : Nat → Cmd → Bool) (c : Code) : State :=
  (s.cqs.flatMap fun y => (y.2.infl.filter fun x => x.began && x.stop.isNone && p y.1 x).map fun x => (y.1, x)).foldl
    (fun s x => s.stopCmd x.1 x.2 c) s

/-- The task fields of a fault of an engine's sequencer: those of the first instruction in a unit, if any (R318; DESIGN
CHOICE, log entry 126). -/
def State.metTask (s : State) (e : Nat) (r : FRec) : FRec :=
  let x := s.eng e
  match ([x.runA, x.runB, x.runV].filterMap fun q => q).head? with
  | some q => s.faultTask e q.ctx (opc q.w) q.pc r
  | none => r

/-- The commands read and not started end with a code (R162). -/
def State.dropAllRead (s : State) (c : Code) : State :=
  (s.cqs.flatMap fun y => y.2.read.map fun r => (y.1, r)).foldl (fun s x => s.dropRead x.1 x.2.1 x.2.2 c) s

/-- LOCKSTEP_MISMATCH (R316, R343): an engine is reset, a cluster-sequencer fault resets its cluster, a Riffler's resets
it; a rebuilt Plinth unit ends the commands not committed that it works on with POISONED (DEDUCED, log entry 57). -/
def execLockstepMismatch (u : LockUnit) (point : BitVec 32) (s : State) : Host.Outcome State Fault Refusal :=
  let of (unit : BitVec 32) : FRec := { cls := 4, unit := unit, sig := point }
  .next (match u with
    | .engine p => (s.resetEngine p.key).classify (s.metTask p.key (of (engineUnit p.key)))
    | .cluster c => (s.resetCluster c.key).classify (of (cluUnit c.key))
    | .cmdProc => ((s.stopAll (fun _ _ => true) .poisoned).dropAllRead .poisoned).classify (of (blockUnit 0))
    | .collEngine => (s.stopTasks (s.fnTasks 4 0 0) .poisoned).classify (of (blockUnit 9))
    | .scheduler => (s.stopAll (fun _ x => hdCMD x.hdr == 0x09) .poisoned).classify (of (blockUnit 0x20))
    | .riffler n => (s.resetRiffler n.val).classify (of (BitVec.ofNat 32 (0xA0000000 + n.val))))

/-- HEARTBEAT_MISS (R160, R316): a core silent or inconsistent for 100 ms is reset and the queues it serves halt. -/
def execHeartbeatMiss (core : BitVec 8) (served : BitVec 16) (s : State) : Host.Outcome State Fault Refusal :=
  let s := (List.range 16).foldl (fun s q =>
    if served.getLsbD q && s.flag (F.PLN_CQ_CFG_OWNER q) then s.haltQ q 4 else s) s
  .next (s.classify { cls := 4, unit := blockUnit 0, sig := BitVec.ofNat 32 core.toNat })

/-- HANDSHAKE_WATCHDOG (R316): as an engine sequencer's mismatch, with a HANDSHAKE record. -/
def execHandshakeWatchdog (p : Pos) (stage : BitVec 32) (s : State) : Host.Outcome State Fault Refusal :=
  .next ((s.resetEngine p.key).classify (s.metTask p.key { cls := 5, unit := engineUnit p.key, sig := stage }))

/-- The unit code of a sensor (R319). -/
def sensorUnit (n : Nat) : BitVec 32 := BitVec.ofNat 32 (0xC0000000 + n)

/-- SENSOR_CHECK (R316): a sensor more than 8 °C off for 10 ms is excluded and its fault judged from history; one judged
TRANSIENT rejoins once it has stayed within 8 °C for 10 ms. -/
def execSensorCheck (sensor : BitVec 10) (off : Bool) (s : State) : Host.Outcome State Fault Refusal :=
  let n := sensor.toNat
  let r : FRec := { cls := 0x0F, unit := sensorUnit n, sig := BitVec.ofNat 32 n }
  .next (if s.gone.contains n then s
    else if off then
      (if s.excl.contains n then s
       else ({ s with excl := s.excl ++ [n] } : State).classify r)
    else if s.excl.contains n ∧ s.isPermanent r = false then { s with excl := s.excl.filter (· ≠ n) }
    else s)

/-! ## Replays (R324) -/

/-- The reference engine of a replay: the lowest-numbered other engine of the cluster that is not retired. -/
def State.refEngine (s : State) (e : Nat) : Option Nat :=
  ((List.range 17).map fun i => e / 17 * 17 + i).find? fun f => f != e && !s.retired f

/-- The replayed engine becomes its cluster's spare. -/
def State.endReplay (s : State) (e : Nat) : State :=
  let r := s.rot (e / 17)
  if r.phase = .testing ∧ r.test = false ∧ r.x = e then
    (s.setRot (e / 17) { r with phase := .idle, fault := false }).setSpare (e / 17) (some e) else s

/-- Whether an engine's cluster or die is disabled: its replays are abandoned (R324). -/
def State.replayOff (s : State) (e : Nat) : Bool := s.fnOff 0 (e / 408) (e / 17 % 24) || s.fnOff 1 (e / 408) 0

/-- REPLAY (R324): the suspect's work has migrated and it has become the engine under replay; it and the reference run the
captured pair. -/
def execReplay (n : Fin 16) (s : State) : Host.Outcome State Fault Refusal :=
  .next (match lookup s.caps n.val with
    | none => s
    | some c =>
      let r := s.rot (c.eng / 17)
      if s.replayOff c.eng then (s.dropCapture n.val c).endReplay c.eng
      else if c.running ∨ r.phase ≠ .testing ∨ r.test ∨ r.x ≠ c.eng then s
      else match s.refEngine c.eng with
        | none => s
        | some f => { s with caps := upsert s.caps n.val { c with running := true, ref := f } })

/-- REPLAY_DONE (R323, R324): reproduced, the fault is PERMANENT and the capture is kept; not reproduced, it is TRANSIENT;
with the reference failing too, both engines are judged by their own history, the lower UNIT first (R321), and the capture is
kept. -/
def execReplayDone (n : Fin 16) (suspectBad refBad : Bool) (s : State) : Host.Outcome State Fault Refusal :=
  .next (match lookup s.caps n.val with
    | none => s
    | some c =>
      if s.replayOff c.eng then (s.dropCapture n.val c).endReplay c.eng
      else if c.running = false then s
      else
        let s := if suspectBad ∨ refBad then { s with crash := s.crash ++ [c] } else s
        let s := ({ s with caps := without s.caps n.val } : State).showCaps
        let r := c.fault n.val true
        let judged (s : State) : State := if s.isPermanent r then s else s.settleFault r (s.third r) false
        let other (s : State) : State := s.classify { r with poison := false, unit := engineUnit c.ref }
        let s :=
          if refBad then (if c.ref < c.eng then judged (other s) else other (judged s))
          else s.settleFault r suspectBad suspectBad
        s.endReplay c.eng)

/-! ## Memory (R188, R189) and service time (R322) -/

/-- CORRECTED_WRITEBACK (R186, R188): the scheduled rewrite of a word reaches memory, unless a newer write has discarded
it. -/
def execCorrectedWriteback (a : BitVec 48) (s : State) : Host.Outcome State Fault Refusal :=
  let w := a.toNat / 4
  .next (match s.wback.find? fun p => p.1 == w with
    | none => s
    | some (_, marker) =>
      let rest := s.wback.erase (w, marker)
      let x := s.stored (4 * w)
      if s.readable (4 * w) then { s.store (4 * w) ⟨x.v, marker || x.p⟩ with wback := rest } else { s with wback := rest })

/-- Whether an address lies in a tier. -/
def inTier (t : Tier) : Loc → Bool
  | .hbm _ _ _ => t == .hbm
  | .slow _ _ _ => t == .slow
  | .scratch _ _ => t == .sram
  | _ => false

/-- The patrol's progress over a tier, in address order: per cent of the pass, and a pass completed at its last word. -/
def State.scrubProgress (s : State) (t : Tier) (a : Nat) : State :=
  let go (us : List Nat) (base size : Nat) : State :=
    us.foldl (fun s u =>
      if a / 4 * 4 + 4 = base + size then (s.fset (F.MEM_H_SCRUB_PCT u) 0).fwrap (F.MEM_H_SCRUB_PASSES u) 1
      else s.fset (F.MEM_H_SCRUB_PCT u) (100 * (a - base) / size)) s
  match t with
  | .hbm => go (List.range 16) 0 0xC000000000
  | .slow => go ((List.range 8).map (16 + ·)) 0x10000000000 0x10000000000
  | .sram => s

/-- PATROL_SCRUB (R189): a word of a tier is read; a corrected word is rewritten under R188, and one with an uncorrectable
error other than the marker is rewritten in poison form. Holes, and lines being written back, are skipped (DEDUCED, log
entry 55). -/
def execPatrolScrub (t : Tier) (a : BitVec 48) (s : State) : Host.Outcome State Fault Refusal :=
  let a := a.toNat / 4 * 4
  let l := s.locate a
  let busy : Bool := match l with
    | .hbm st _ _ => s.flag (F.MEM_SRAM_STATUS_BUSY (st / 4)) && s.cache.any fun (c : CLine) => c.gran == a / 0x1000 && c.dirty
    | _ => false
  .next (if s.flag F.MEM_SCRUB_EN = false ∨ inTier t l = false ∨ s.memWaits a then s
    else if s.hole l ∨ busy then s.scrubProgress t a
    else
      let bad := s.burstBad a || decide (synOf (s.syn a) = .bad)
      let s := s.onRead (a % 64 == 0) Src.cmd l a
      (if bad then s.store a ⟨s.rawWord a, true⟩ else s).scrubProgress t a)

/-- SERVICE_TIME_TICK (R322): one second while the auxiliary rail is up; what is counted over a span of service time is
shown anew (R237, R345). -/
def execServiceTimeTick (s : State) : Host.Outcome State Fault Refusal :=
  .next (if s.power.auxUp = false then s
    else
      let s := s.setReg Reg.FLT_SVC_TIME (s.svc + 1)
      let s := s.showWindows
      s.fset F.TST_ESC_WARM7D (min 255 (s.resetsOf 0xE0000000 604800)))

end Sys2Proof.Machine
end

