-- ==== Sys2Proof/Machine/Hang.lean ====
section
/-! DEFINITION. The hang detector (R341, R342) and the margin plan (R348, R349). -/
namespace Sys2Proof.Machine

/-! ## The wait-for graph (R341) -/

/-- The nodes of the wait-for graph: a context by 4 times its logical slot plus its number, a transfer slot and a
collective slot by their keys above these offsets. Commands wait for tasks and nothing of the table waits for a command,
so they are on no cycle. -/
def xferNode (x : Nat) : Nat := 0x10000 + x
def collNode (c : Nat) : Nat := 0x20000 + c

/-- The tiles an issued instruction reads and consumes (R93). -/
def consumes (w : BitVec 64) : List Nat :=
  let keep (b : Bool) (ts : List Nat) : List Nat := if b then ts else []
  let o := opc w
  if o = opTMAC then
    keep (tmCA w) ((List.range (tmREP w + 1)).map (tmRegA w)) ++ keep (tmCB w) ((List.range (tmREP w + 1)).map (tmRegB w))
  else if o = opTMAC2 then keep (t2CDY w) [t2TDY w] ++ keep (t2CW w) [t2TW w] ++ keep (t2CX w) [t2TX w]
  else if o = opTQNT then keep (tqCS w) [tqTS w]
  else if isV o then keep (vCS1 w) [vTS1 w] ++ keep (vCS2 w && vSRC2 w == 0 && isV2 o) [vTS2 w]
  else []

/-- The contexts of a logical slot that hold tasks. -/
def State.taskCtxs (s : State) (l : Nat) : List Nat :=
  match s.engineOf l with
  | none => []
  | some e => (List.range 4).filter fun k => (s.ctx (4 * e + k)).task.isSome

/-- Whether a logical slot lies in the scope of a barrier. -/
def inScope (l : Nat) : BarId → Bool
  | .cluster u _ => l / 16 == u.key
  | .die d _ => l / 384 == d.val
  | _ => true

/-- What a semaphore waits for: contexts with a signal to it pending release, and transfers and collectives with SIG set
on it. -/
def State.semSources (s : State) (u k : Nat) : List Nat :=
  let cs := s.ctxs.filterMap fun c =>
    if c.2.pend.any fun p => p.clu == u && p.sem == k then
      (s.slotOf (c.1 / 4)).map fun l => 4 * l + c.1 % 4 else none
  let xs := s.xfers.filterMap fun x =>
    if x.1 / 96 = u ∧ x.2.st ≠ .free ∧ x.2.acc = none ∧ x.2.desc.sig = true ∧ x.2.desc.sem = k then
      some (xferNode x.1) else none
  let ls := s.colls.filterMap fun c =>
    if c.1 / 32 = u ∧ c.2.id ≠ 0 ∧ cdSIG c.2.d3 = true ∧ cdSEM c.2.d3 = k then some (collNode c.1) else none
  cs ++ xs ++ ls

/-- What context `k` of logical slot `l` waits for. -/
def State.ctxWaits (s : State) (l k : Nat) : List Nat :=
  match s.engineOf l with
  | none => []
  | some e =>
    let c := s.ctx (4 * e + k)
    if c.st = .late then
      (List.range 6).filterMap fun n =>
        if (s.xfer (xk l n)).fills.any c.miss.contains then some (xferNode (xk l n)) else none
    else if c.st ≠ .wait then []
    else if c.why = 1 then s.semSources (l / 16) c.wid
    else if c.why = 2 then
      match s.bars.find? fun b => b.2.arr.contains (l, k) && b.2.rel.isNone with
      | some (id, b) =>
        if b.count ≤ b.arr.length then []
        else (List.range 1536).flatMap fun m =>
          if inScope m id then
            ((s.taskCtxs m).filter fun j => !b.arr.contains (m, j)).map fun j => 4 * m + j
          else []
      | none => []
    else if c.why = 3 then
      (List.range 6).filterMap fun n =>
        if (s.xfer (xk l n)).st ≠ .free then some (4 * l + (s.xfer (xk l n)).ctx) else none
    else if c.why = 5 then
      (List.range 2).filterMap fun n =>
        if (s.coll (2 * l + n)).id ≠ 0 then some (4 * l + (s.coll (2 * l + n)).ctx) else none
    else []

/-- What a HELD transfer slot waits for: each context with a consuming read of the tile it would fill. -/
def State.xferWaits (s : State) (x : Nat) : List Nat :=
  let l := x / 6
  let t := s.xfer x
  let heldNow : Bool := t.st == .held || (t.st == .stalled && t.cause == 6)
  match s.engineOf l, t.fills with
  | some e, r :: _ =>
    if heldNow then ((s.eng e).ents.filter fun q => (consumes q.w).contains r).map fun q => 4 * l + q.ctx else []
  | _, _ => []

/-- What a member of a collective waits for: the contexts of each local member that has not issued. -/
def State.collWaits (s : State) (c : Nat) : List Nat :=
  let y := s.coll c
  let g := cdGROUP y.d2
  let x := s.inst (instKey g y.inst)
  let ms := s.members g
  (s.ownMembers g).flatMap fun m =>
    if (lookup x.joined m).isSome then []
    else
      let l := memSlot (ms.getD m poisonWord).v
      (s.taskCtxs l).map fun k => 4 * l + k

/-- The edges out of a node (DEDUCED, log entry 40). -/
def State.waitsFor (s : State) (n : Nat) : List Nat :=
  if n < 0x10000 then s.ctxWaits (n / 4) (n % 4)
  else if n < 0x20000 then s.xferWaits (n - 0x10000)
  else s.collWaits (n - 0x20000)

/-- The nodes reached from a frontier. -/
def State.reachGo (s : State) : Nat → List Nat → List Nat → List Nat
  | 0, seen, _ => seen
  | fuel + 1, seen, front =>
    let next := (front.flatMap s.waitsFor).dedup.filter fun n => !seen.contains n
    if next.isEmpty then seen else s.reachGo fuel (seen ++ next) next

def State.reach (s : State) (n : Nat) : List Nat := s.reachGo 16384 [] [n]

/-- The contexts of the cycle a waiting context is on, in rising order: none when it is on no cycle. -/
def State.cycleOf (s : State) (waiting : List Nat) (n : Nat) : List Nat :=
  let r := s.reach n
  if r.contains n then waiting.filter fun m => r.contains m && (s.reach m).contains n else []

/-- Every cycle of the graph, by its contexts. -/
def State.cyclesNow (s : State) : List (List Nat) :=
  let waiting := (List.range 1536).flatMap fun l =>
    ((s.taskCtxs l).filter fun k => !(s.ctxWaits l k).isEmpty).map fun k => 4 * l + k
  ((waiting.map (s.cycleOf waiting)).filter fun c => !c.isEmpty).dedup

/-- The edges of a cycle, for the crash dump. -/
def State.cycleEdges (s : State) (c : List Nat) : List (Nat × Nat) :=
  let r := (c.flatMap s.reach).dedup
  r.flatMap fun n => ((s.waitsFor n).filter r.contains).map fun m => (n, m)

/-- The youngest command of a cycle that has not been stopped: the one that started last (R342). -/
def State.youngest (s : State) (c : List Nat) : Option (Nat × Cmd) :=
  let cmds := c.filterMap fun n => match s.engineOf (n / 4) with
    | none => none
    | some e => match (s.ctx (4 * e + n % 4)).task with
      | none => none
      | some t => (s.cmd? t.q t.seq).map fun x => (t.q, x)
  (cmds.filter fun x => x.2.stop.isNone).foldl (fun (b : Option (Nat × Cmd)) x => match b with
    | none => some x
    | some y => if y.2.start.toNat ≤ x.2.start.toNat then some x else some y) none

/-- A cycle found by `n` scans in a row: the third is a hang, with a RECOVERY record, a dump, HANGS and FAULT_N code 2 (R388);
the third and each third one after it costs a command when ACT is 1 (R342). -/
def State.judgeCycle (s : State) (c : List Nat) (n : Nat) : State :=
  if n % 3 ≠ 0 then s
  else
    let s := if n = 3 then (((s.recovery 0xE0000000 1).dump 4 (s.cycleEdges c)).fsat F.TST_HANG_HANGS 1).faultN 2 else s
    if s.flag F.TST_HANG_ACT then
      match s.youngest c with
      | some (q, x) => s.stopCmd q x .aborted
      | none => s
    else s

/-- HANG_SCAN (R341, R342). -/
def execHangScan (s : State) : Host.Outcome State Fault Refusal :=
  let found := s.cyclesNow.map fun c => (c, (lookup s.cycles c).getD 0 + 1)
  .next (if s.running = false then s
    else found.foldl (fun s c => s.judgeCycle c.1 c.2) { s with cycles := found })

/-! ## The margin plan (R348, R349) -/

/-- A step's table voltage before its limits, in mV (DESIGN CHOICE, log entry 54). -/
def State.rawVolt (s : State) (d k : Nat) : Int :=
  (s.fget (F.HEL_VT_FACT d k) : Int) + clampInt (-40) 40 (signed 8 (s.fget (F.HEL_VT_USER d k))) +
    signed 8 (s.fget (F.HEL_VT_AGE d k))

/-- The AGE offset of a step for the day's drift: one that would pass a limit holds there, sets AGE_SAT and files a
record (R348). -/
def State.ageStep (s : State) (d k : Nat) (drift : Int) : State :=
  let a := signed 8 (s.fget (F.HEL_VT_AGE d k)) + clampInt (-2) 4 drift
  let s := s.fset (F.HEL_VT_AGE d k) (unsigned 8 (clampInt (-128) 127 a))
  if a < -128 ∨ 127 < a then
    (s.setFlag (F.TST_AGE_AGE_SAT d) true).event 0x0E (BitVec.ofNat 32 (0x20000000 + d)) (BitVec.ofNat 32 d) 0 0
  else s

/-- The margin ceiling of a die with a step above 850 mV: the fastest step that is not (R348). -/
def State.marginCeil (s : State) (d : Nat) : State :=
  if (List.range 16).any fun k => decide (850 < s.rawVolt d k) then
    let c := ((List.range 16).find? fun k => decide (s.rawVolt d k ≤ 850)).getD 15
    (s.fset (F.HEL_STATUS_MCEIL d) c).rePace
  else s

/-- The least-squares slope of daily values, oldest first, in mV a day. -/
def slopeOf (vs : List Nat) : ℚ :=
  let n : ℚ := vs.length
  let xy := vs.zipIdx
  let sx : ℚ := (xy.map fun p => (p.2 : ℚ)).sum
  let sy : ℚ := (xy.map fun p => (p.1 : ℚ)).sum
  let sxx : ℚ := (xy.map fun p => (p.2 : ℚ) ^ 2).sum
  let sxy : ℚ := (xy.map fun p => (p.1 : ℚ) * p.2).sum
  (n * sxy - sx * sy) / (n * sxx - sx ^ 2)

/-- TST_AGEd.DAYS from the daily values, latest first (R349). -/
def daysOf (vs : List Nat) : Nat :=
  let b := slopeOf vs.reverse
  if vs.length < 30 then 0xFFFF
  else if b ≤ 0 then 0xFFFE
  else min 0xFFFE (((850 : ℚ) - (vs.headD 0 : Nat)) / b).floor.toNat

/-- MARGIN_PLAN (R348, R349): the day's plan of a die, with the ceiling of each step's drift in mV. -/
def execMarginPlan (d : Fin 4) (drift : List Int) (s : State) : Host.Outcome State Fault Refusal :=
  let d := d.val
  let s := ((List.range 16).foldl (fun s k => s.ageStep d k (drift.getD k 0)) s).marginCeil d
  let vs := (s.tableVolt d 4 :: (lookup s.vhist d).getD []).take 90
  let n := daysOf vs
  let s := { s with vhist := upsert s.vhist d vs }
  let s := (s.fset (F.TST_AGE_VP4 d) (vs.headD 0)).fset (F.TST_AGE_DAYS d) n
  .next (if n < 365 then s.event 0x0E (BitVec.ofNat 32 (0x20000000 + d)) (BitVec.ofNat 32 d) 0 0 else s)

end Sys2Proof.Machine
end

