-- ==== Sys2Proof/Machine/Timebase.lean ====
section
/-! DEFINITION. The timebase (R261 to R266): SYNC edges, alignment, the two-step exchange between racks, adjustments, and
the reads that latch an upper half. -/
namespace Sys2Proof.Machine

def State.modTime (s : State) (f : Time → Time) : State := { s with time := f s.time }

/-- A signed 32-bit field as an integer. -/
def int32 (v : BitVec 32) : Int := v.toInt

/-- The delay of a SYNC edge in whole ns: SYNC_DLY counts 125 ps (R262, R277; DESIGN CHOICE, log entry 2). -/
def State.syncDelay (s : State) : Nat := s.fget F.CLV_TB_CFG_SYNC_DLY / 8

/-- SYNC_EDGE (R262, R263): once aligned, an edge within ±2 root periods writes its error, and one further off sets
SYNC_ERR and files a record. An armed value is loaded after the delay of SYNC_DLY. `err` is the edge's error in root
periods. -/
def execSyncEdge (err : Int) (s : State) : Host.Outcome State Fault Refusal :=
  let s := s.setFlag F.CLV_TB_STATUS_SYNC_LOST false
  let s := if s.flag F.CLV_TB_STATUS_ALIGNED = false then s
    else if -2 ≤ err ∧ err ≤ 2 then s.fset F.CLV_TB_STATUS_ERRT (unsigned 16 err)
    else (s.setFlag F.CLV_TB_STATUS_SYNC_ERR true).event 0x0D (blockUnit 9) 1 0 0
  .next (if s.flag F.CLV_TB_CFG_ARM = false then s
    else if s.syncDelay = 0 then s.loadArm
    else s.modTime fun t => { t with load := some s.syncDelay })

/-- SYNC_LOST (R263): no edge for 1.5 s; the timebase runs on. -/
def execSyncLost (s : State) : Host.Outcome State Fault Refusal :=
  .next (if s.flag F.CLV_TB_STATUS_ALIGNED then s.setFlag F.CLV_TB_STATUS_SYNC_LOST true else s)

/-- Whether this package is a rack leader with an upstream (R264). -/
def State.leader (s : State) : Bool := s.fget F.CLV_TB_CFG_ROLE == 1

/-- TIME_EXCHANGE (R264): a leader opens its next exchange with its upstream. -/
def execTimeExchange (s : State) : Host.Outcome State Fault Refusal :=
  .next (if s.leader then s.modTime fun t => { t with ex := { seq := (t.ex.seq + 1) % 2 ^ 16 } } else s)

/-- Sends a time slot to the upstream's port (R264, R277). -/
def State.toUpstream (s : State) (typ : Nat) (t : TimeSlot) : State :=
  s.post (min 11 (s.fget F.CLV_TB_PEER_PORT)) (.time typ t)

/-- Whether a time slot comes from the leader's upstream. -/
def State.fromUpstream (s : State) (t : TimeSlot) : Bool := s.leader && t.src.toNat == s.fget F.CLV_TB_PEER_ID

/-- Takes a time slot from the port it came by. -/
def State.tookTime (s : State) (typ : Nat) (x : TimeSlot) : State := s.took x.src (.time typ x)

/-- TIME_SYNC (R264, R266): the arrival is stamped t2; the residence time added on the way is kept. -/
def execTimeSync (x : TimeSlot) (s : State) : Host.Outcome State Fault Refusal :=
  let s := s.tookTime 0 x
  .next (if s.fromUpstream x then
      s.modTime fun t => { t with ex := { seq := x.seq.toNat, t2 := some x.stamp, corr := (x.corr.toNat : Int) } }
    else s)

/-- FOLLOW_UP (R264, R266): carries t1; the leader sends DELAY_REQ at t3. -/
def execFollowUp (x : TimeSlot) (s : State) : Host.Outcome State Fault Refusal :=
  let s := s.tookTime 1 x
  .next (if s.fromUpstream x ∧ s.time.ex.seq = x.seq.toNat ∧ s.time.ex.t2.isSome then
      let s := s.modTime fun t => { t with ex := { t.ex with t1 := some x.time, t3 := some t.tb } }
      s.toUpstream 2 ⟨x.seq, s.pkgId, 0, 0, 0⟩
    else s)

/-- DELAY_REQ (R264, R266): an upstream answers with the time of arrival t4, carrying the request's residence. -/
def execDelayReq (x : TimeSlot) (s : State) : Host.Outcome State Fault Refusal :=
  let s := s.tookTime 2 x
  .next (if s.fget F.CLV_TB_CFG_ROLE = 0 then s
    else s.toPkg x.src (.time 3 ⟨x.seq, s.pkgId, x.corr, x.stamp, 0⟩))

/-- DELAY_RESP (R264): carries t4 and completes a measurement: ((t2 − t1) − (t4 − t3)) / 2 − CLV_TB_ASYM, less the
residence times of the switches. -/
def execDelayResp (x : TimeSlot) (s : State) : Host.Outcome State Fault Refusal :=
  let s := s.tookTime 3 x
  let e := s.time.ex
  .next (match s.fromUpstream x, e.t1, e.t2, e.t3 with
    | true, some t1, some t2, some t3 =>
      if e.seq ≠ x.seq.toNat then s
      else
        let down : Int := (t2.toNat : Int) - t1.toNat - e.corr
        let up : Int := (x.time.toNat : Int) - t3.toNat - x.corr.toNat
        let ofs := (down - up) / 2 - int32 (s.reg Reg.CLV_TB_ASYM)
        s.modTime fun t => { t with ex := { seq := e.seq }, offs := t.offs ++ [ofs] }
    | _, _, _, _ => s)

/-- The median of a list: the middle one, or the mean of the middle two rounded down. -/
def median (xs : List Int) : Int :=
  let ys := xs.mergeSort (· ≤ ·)
  let n := ys.length
  if n = 0 then 0
  else if n % 2 = 1 then ys.getD (n / 2) 0
  else (ys.getD (n / 2 - 1) 0 + ys.getD (n / 2) 0) / 2

/-- The packages of this package's rack that it can reach. -/
def State.rackPkgs (s : State) : List (BitVec 16) :=
  ((List.range 128).map fun i => BitVec.ofNat 16 (s.pkgId.toNat / 128 * 128 + i)).filter fun p =>
    p != s.pkgId && s.learned p

/-- OFFSET_CORRECTION (R264, R265): the leader takes the median of the second's offsets, shows it, and issues an
adjustment 2 ms ahead to every package of its rack, itself among them. The phase is the offset undone; the rate is not
given by any rule and is a free value (DESIGN CHOICE, log entries 7 and 101). LOCKED_UP sets with an offset within
50 ns once the corrections have settled, which `settled` says, and clears with one outside (R264, R277). -/
def execOffsetCorrection (settled : Bool) (s : State) : Host.Outcome State Fault Refusal :=
  .next (if s.leader = false ∨ s.time.offs = [] then s
    else
      let m := median s.time.offs
      let (r, s) := s.draw
      let rate : BitVec 32 := r.truncate 32
      let at_ := s.now + 2000000
      let s := (s.setReg Reg.CLV_TB_OFS (BitVec.ofInt 32 m)).setFlag F.CLV_TB_STATUS_LOCKED_UP
        (decide (-50 ≤ m ∧ m ≤ 50) && (settled || s.flag F.CLV_TB_STATUS_LOCKED_UP))
      let s := s.modTime fun t => { t with offs := [], adj := some (at_, -m, int32 rate) }
      let a : TimeSlot := ⟨0, s.pkgId, 0, at_, 0⟩
      let b : TimeSlot := ⟨0, s.pkgId, 0, rate ++ BitVec.ofInt 32 (-m), 0⟩
      s.rackPkgs.foldl (fun s p => s.toPkg p (.adjust a b)) s)

/-- ADJUST (R265, R266): the two slots give the instant, the phase in ns and the rate in units of 2^-40. -/
def execAdjust (a b : TimeSlot) (s : State) : Host.Outcome State Fault Refusal :=
  .next ((s.took a.src (.adjust a b)).modTime fun t =>
    { t with adj := some (a.time, int32 (b.time.truncate 32), int32 ((b.time >>> 32).truncate 32)) })

/-- ADJUST_APPLY (R265): at the instant given, a forward phase is stepped while STEP_OK is 1, any other is slewed; the
rate takes effect. -/
def execAdjustApply (s : State) : Host.Outcome State Fault Refusal :=
  .next (match s.time.adj with
    | none => s
    | some (at_, ph, rate) =>
      if s.now.toNat < at_.toNat then s
      else if s.flag F.CLV_TB_CFG_STEP_OK ∧ 0 < ph then
        s.modTime fun t => { t with tb := t.tb + BitVec.ofNat 64 ph.toNat, rate := rate, adj := none }
      else s.modTime fun t => { t with slew := ph, rate := rate, adj := none })

/-- A read of CLV_TB_LO latches CLV_TB_HI (R261). -/
def State.latchTime (s : State) : State :=
  (s.setReg Reg.CLV_TB_LO (s.now.truncate 32)).setReg Reg.CLV_TB_HI ((s.now >>> 32).truncate 32)

/-- TB_LATCH_READ (R261). Every requester but an engine may read (R373). -/
def execTbLatchRead (r : Req) (s : State) : Host.Outcome State Fault Refusal :=
  .next (if r = .engine then s.deny r Reg.CLV_TB_LO 0 else s.latchTime)

/-- A read of CLV_IDLE_c_LO latches CLV_IDLE_c_HI (R278). -/
def State.latchIdle (s : State) (c : Nat) : State :=
  let v := Sparse.get (fun _ => 0) s.idle c
  (s.setReg (Reg.CLV_IDLE_LO c) (v.truncate 32)).setReg (Reg.CLV_IDLE_HI c) ((v >>> 32).truncate 32)

/-- CLV_IDLE_LATCH_READ (R278). -/
def execClvIdleLatchRead (r : Req) (c : Fin 7) (s : State) : Host.Outcome State Fault Refusal :=
  .next (if r = .engine then s.deny r (Reg.CLV_IDLE_LO c.val) 0 else s.latchIdle c.val)

end Sys2Proof.Machine
end

