-- ==== Sys2Proof/Machine/Regs.lean ====
section
/-! DEFINITION. Reads and writes of the register window (R6 to R8, R26, R373): one operation for each, with the behaviour that
each register's description ties to them. -/
namespace Sys2Proof.Machine

/-- Whether a block index is assigned (R26). -/
def blockAssigned (b : Nat) : Bool :=
  decide (b ≤ 2) || (decide (4 ≤ b) && decide (b ≤ 0xE)) || (decide (0x10 ≤ b) && decide (b ≤ 0x1B)) ||
    (decide (0x20 ≤ b) && decide (b ≤ 0x23)) || (decide (0x40 ≤ b) && decide (b ≤ 0x5B)) ||
    (decide (0x100 ≤ b) && decide (b ≤ 0x15F))

/-- The requester of a register access as an address error names it (R27). -/
def reqSrc : Req → Src
  | .host => .host
  | _ => .arm

/-- A register write that keeps the bits `m` of the register where `bad` holds. -/
def keepBits (bad : Bool) (m old v : BitVec 32) : BitVec 32 := if bad then (v &&& ~~~m) ||| (old &&& m) else v

/-! ## Command queues (R160, R164) -/

/-- A write of a queue's CFG (R160, R164): OWNER is not the host's to write, and EN is ignored while LOG2N exceeds 13. EN from
0 to 1 restarts a halted queue at HEAD. -/
def State.writeCqCfg (s : State) (r : Req) (q : Nat) (v : BitVec 32) : State :=
  let k := Reg.PLN_CQ_CFG q
  let old := s.reg k
  let v := keepBits (r == .host) 0x40000000 old v
  let v := keepBits (decide (13 < v.toNat / 2 ^ 20 % 16)) 0x80000000 old v
  let s := s.plainWrite r k v
  if old.getLsbD 31 = false ∧ s.flag (F.PLN_CQ_CFG_EN q) then
    ((s.setFlag (F.PLN_CQ_STATUS_HALT q) false).fset (F.PLN_CQ_STATUS_HCAUSE q) 0).fetchCmds q
  else s

/-- A write of a queue's TAIL, the doorbell (R154, R164). -/
def State.writeTail (s : State) (r : Req) (q : Nat) (v : BitVec 32) : State :=
  let k := Reg.PLN_CQ_TAIL q
  if s.whole r k then (s.plainWrite r k v).fetchCmds q else s.plainWrite r k v

/-! ## Windows (R48, R51, R248, R251, R329) -/

/-- A write of SCT_WIN_CMD (R51): it starts the command it names. -/
def State.writeSctWin (s : State) (r : Req) (v : BitVec 32) : State :=
  let i := v.toNat % 2 ^ 15
  s.acting r Reg.SCT_WIN_CMD v fun s =>
    match v.toNat / 2 ^ 30 with
    | 1 => s.winRead i
    | 2 => s.winWrite i
    | 3 => s.winClear i
    | _ => (s.fset F.SCT_WIN_CMD_OP 0).fset F.SCT_WIN_CMD_INDEX i

/-- A write of CLV_GRP_CMD (R251, R276): OP 3 starts no command. -/
def State.writeGrpWin (s : State) (r : Req) (v : BitVec 32) : State :=
  let i := v.toNat % 2 ^ 12
  s.acting r Reg.CLV_GRP_CMD v fun s =>
    match v.toNat / 2 ^ 30 with
    | 1 => s.grpRead i
    | 2 => s.grpWrite i
    | op => (s.fset F.CLV_GRP_CMD_OP op).fset F.CLV_GRP_CMD_INDEX i

/-- A write of WPL_NBR_CMD (R248): OP 3 starts no command. -/
def State.writeNbrWin (s : State) (r : Req) (v : BitVec 32) : State :=
  let i := v.toNat % 64
  s.acting r Reg.WPL_NBR_CMD v fun s =>
    match v.toNat / 2 ^ 30 with
    | 1 => s.nbrRead i
    | 2 => s.nbrWrite i
    | op => (s.fset F.WPL_NBR_CMD_OP op).fset F.WPL_NBR_CMD_INDEX i

/-- A write of FLT_WIN_CMD (R329). -/
def State.writeFltWin (s : State) (r : Req) (v : BitVec 32) : State :=
  let op := v.toNat / 2 ^ 30
  let tgt := v.toNat / 2 ^ 28 % 4
  let i := v.toNat % 2 ^ 28
  s.acting r Reg.FLT_WIN_CMD v fun s =>
    if op = 0 then ((s.fset F.FLT_WIN_CMD_OP 0).fset F.FLT_WIN_CMD_TGT tgt).fset F.FLT_WIN_CMD_INDEX i else s.fltCmd op tgt i

/-! ## Registers with rules of their own -/

/-- A write of FLT_CFG (R324, R329): one that clears REPLAY leaves no replay to run, and what they were owed for is judged by
history. -/
def State.writeFltCfg (s : State) (r : Req) (v : BitVec 32) : State :=
  let was := s.flag F.FLT_CFG_REPLAY
  let s := s.plainWrite r Reg.FLT_CFG v
  if was && !s.flag F.FLT_CFG_REPLAY then s.dropReplays fun _ => true else s

/-- A write of TST_DUMP (R347, R350): NEW bits clear where 1 is written, and TAKE takes a dump and reads 0. -/
def State.writeDump (s : State) (r : Req) (v : BitVec 32) : State :=
  let act := s.whole r Reg.TST_DUMP && v.getLsbD 29
  let s := (s.plainWrite r Reg.TST_DUMP v).setFlag F.TST_DUMP_TAKE false
  if act then s.dump 7 [] else s

/-- A write of a semaphore's register (R140, R165). -/
def State.writeSem (s : State) (r : Req) (u k : Nat) (v : BitVec 32) : State :=
  s.acting r (Reg.STR_SEM u k) v fun s => s.semWrite u k v

/-- A write of SCT_STEP (R44). -/
def State.writeSctStep (s : State) (r : Req) (v : BitVec 32) : State := s.acting r Reg.SCT_STEP v fun s => s.writeStep v

/-- A write of MEM_SCRUB (R190): a period of 0 is ignored. -/
def State.writeScrub (s : State) (r : Req) (v : BitVec 32) : State :=
  let old := s.reg Reg.MEM_SCRUB
  let z (f : Fld) (v : BitVec 32) : BitVec 32 := keepBits (v &&& f.mask == 0) f.mask old v
  s.plainWrite r Reg.MEM_SCRUB (z F.MEM_SCRUB_HBM_H (z F.MEM_SCRUB_SLOW_H (z F.MEM_SCRUB_SRAM_H v)))

/-- A write of a Burin address register (R375, R389): what lies there is no longer the last report. -/
def State.writeSecAddr (s : State) (r : Req) (k : Nat) (v : BitVec 32) : State :=
  let t := s.plainWrite r k v
  if t.reg k = s.reg k then t else { t with sec := { t.sec with report := false } }

/-- The value a plain write of register `k` takes: fields whose description ignores the value written keep theirs (R190, R278,
R290, R309, R357). -/
def State.taken (s : State) (k : Nat) (v : BitVec 32) : BitVec 32 :=
  let old := s.reg k
  if k = Reg.MEM_CFG then keepBits (v &&& 3 == 3) 3 old v
  else if k = Reg.CLV_WAVE then keepBits (!([1, 2, 4, 8, 16].contains (v.toNat % 32))) 0x1F old v
  else if k = Reg.COL_OUT_CFG 0 ∨ k = Reg.COL_OUT_CFG 1 then
    keepBits (decide (v.toNat % 64 < 3) || decide (47 < v.toNat % 64)) 0x3F old v
  else if k = Reg.DIA_WTRIM ∨ (4 ≤ k / 0x10000 ∧ k / 0x10000 < 8 ∧ 0x100 ≤ k % 0x10000) then
    (if s.flag F.SEC_POLICY_CALSIG then old else v)
  else v

/-- A register write (R7, R26, R373): `src` is who an address error names, `r` the requester whose rights apply, `k` the
register's offset in the window. -/
def State.regWrite (s : State) (src : Src) (r : Req) (k : Nat) (v : BitVec 32) : State :=
  let b := k / 0x10000
  let o := k % 0x10000
  let p := b - 0x10
  if r = .engine then s.deny r k v
  else if blockAssigned b = false then s.addrErr 3 true src (0xFFFF#16 ++ BitVec.ofNat 48 (0x30000000000 + k))
  else if 0x1000 ≤ k ∧ k < 0x1200 then
    let q := (k - 0x1000) / 0x20
    if o % 0x20 = 0x10 then s.writeCqCfg r q v else if o % 0x20 = 0x14 then s.writeTail r q v else s.plainWrite r k v
  else if k = Reg.SCT_STEP then s.writeSctStep r v
  else if k = Reg.SCT_WIN_CMD then s.writeSctWin r v
  else if k = Reg.CLV_GRP_CMD then s.writeGrpWin r v
  else if k = Reg.WPL_NBR_CMD then s.writeNbrWin r v
  else if k = Reg.FLT_WIN_CMD then s.writeFltWin r v
  else if 0x100 ≤ b ∧ 0x400 ≤ o ∧ o < 0x800 then s.writeSem r (b - 0x100) ((o - 0x400) / 4) v
  else if k = Reg.MEM_SCRUB then s.writeScrub r v
  else if 0x58 ≤ b ∧ b < 0x5C ∧ o = 0 then s.writeSramCfg r (b - 0x58) v
  else if k = Reg.WPL_DISC_CFG then s.writeDiscCfg r v
  else if 0x10 ≤ b ∧ b < 0x1C ∧ o = 0x100 then s.writeCfg r p v
  else if 0x10 ≤ b ∧ b < 0x1C ∧ o = 0x104 then s.acting r k v fun s => s.writeCtrl p v
  else if k = Reg.COL_FCNT_CTRL then s.acting r k v fun s => s.writeFcnt v
  else if k = Reg.DIA_CAP then s.writeCap r v
  else if k = Reg.DIA_PRIO then s.writePrio r v
  else if Reg.DIA_MIN 0 ≤ k ∧ k ≤ Reg.DIA_MIN 2 then s.writeMin r ((k - Reg.DIA_MIN 0) / 4) v
  else if k = Reg.DIA_PACE ∨ k = Reg.CLV_PACE_CFG then (s.plainWrite r k v).rePace
  else if k = Reg.FLT_CFG then s.writeFltCfg r v
  else if k = Reg.DIA_TRIP then s.writeTrip r v
  else if k = Reg.DIA_PSTATE then s.writePstate r v
  else if k = Reg.TST_RESET then s.writeReset r v
  else if k = Reg.TST_DUMP then s.writeDump r v
  else if k = Reg.TST_CAP_CMD then s.writeCapCmd r v
  else if k = Reg.SEC_ADDR_LO ∨ k = Reg.SEC_ADDR_HI then s.writeSecAddr r k v
  else if k = Reg.SEC_CMD then
    let (n, s) := s.draw
    s.writeSec r v n.toNat
  else if k = Reg.DBG_CTRL then s.writeDbg r v
  else s.plainWrite r k (s.taken k v)

/-! ## Reads -/

/-- A context's register (R165): in a hand-over whose state has been copied, a task that would run waits for the migration. -/
def State.ctxReg (s : State) (e k : Nat) : BitVec 32 :=
  let x := s.ctx (4 * e + k)
  let st : Nat := match x.st with
    | .free => 0
    | .run => 1
    | .late => 2
    | .wait => 3
    | .drain => 4
  let mig := x.st != .free && (s.rot (e / 17)).phase == .copied && ((s.rot (e / 17)).x == e || (s.rot (e / 17)).s == e)
  BitVec.ofNat 32 ((if mig then 3 else st) * 2 ^ 29 + (if mig then 7 else x.why % 16) * 2 ^ 25 +
    (if mig then 0 else x.wid % 256) * 2 ^ 17 + x.pc % 2 ^ 15)

/-- The value of a register (R7), with those that show other state: a semaphore's waiters and the contexts (R165), the
retired-page window (R191), and the suspension of rotations (R350) (DEDUCED, log entry 58). -/
def State.regValue (s : State) (k : Nat) : BitVec 32 :=
  let b := k / 0x10000
  let o := k % 0x10000
  let u := b - 0x40
  let per := if u < 16 then 512 else 128
  if 0x100 ≤ b ∧ 0x400 ≤ o ∧ o < 0x800 then
    (s.reg k &&& 0x80FFFFFF) ||| (BitVec.ofNat 32 (s.waiters (semKey (b - 0x100) ((o - 0x400) / 4))).length <<< 24)
  else if 0x100 ≤ b ∧ 0x800 ≤ o ∧ o < 0x910 then s.ctxReg (17 * (b - 0x100) + (o - 0x800) / 16) (o / 4 % 4)
  else if 0x40 ≤ b ∧ b < 0x58 ∧ o = 0x118 then BitVec.ofNat 32 (s.pageList u).length
  else if 0x40 ≤ b ∧ b < 0x58 ∧ o = 0x120 then
    Sparse.get (fun _ => 0) s.pages (512 * u + s.fget (F.MEM_H_RETPG_IDX_INDEX u) % per)
  else if k = Reg.TST_STATUS then (s.reg k &&& 0x7FFFFFFF) ||| (if s.susp then 0x80000000 else 0)
  else s.reg k

/-- A register read (R7, R26, R261, R278, R373): the value, and what reading it does. -/
def State.regRead (s : State) (src : Src) (r : Req) (k : Nat) : BitVec 32 × State :=
  if r = .engine then (0, s.deny r k 0)
  else if blockAssigned (k / 0x10000) = false then
    (0, s.addrErr 3 false src (0xFFFF#16 ++ BitVec.ofNat 48 (0x30000000000 + k)))
  else
    let s := if k = Reg.CLV_TB_LO then s.latchTime
      else match (List.range 7).find? fun c => Reg.CLV_IDLE_LO c == k with
        | some c => s.latchIdle c
        | none => s
    (s.regValue k, s)

/-! ## The rows -/

/-- REGISTER_WRITE (R7, R373). -/
def execRegisterWrite (r : Req) (a : BitVec 32) (v : BitVec 32) (s : State) : Host.Outcome State Fault Refusal :=
  .next (s.regWrite (reqSrc r) r (a.toNat / 4 * 4) v)

/-- SEM_VALUE_WRITE (R140). -/
def execSemValueWrite (r : Req) (u : Clu) (k : BitVec 8) (v : BitVec 32) (s : State) : Host.Outcome State Fault Refusal :=
  .next (s.writeSem r u.key k.toNat v)

/-- SCT_STEP_WRITE (R44). -/
def execSctStepWrite (r : Req) (v : BitVec 32) (s : State) : Host.Outcome State Fault Refusal :=
  .next (s.writeSctStep r v)

/-- SCT_WIN_READ (R48). -/
def execSctWinRead (r : Req) (i : BitVec 15) (s : State) : Host.Outcome State Fault Refusal :=
  .next (s.writeSctWin r (0x40000000 ||| i.zeroExtend 32))

/-- SCT_WIN_WRITE (R48). -/
def execSctWinWrite (r : Req) (i : BitVec 15) (s : State) : Host.Outcome State Fault Refusal :=
  .next (s.writeSctWin r (0x80000000 ||| i.zeroExtend 32))

/-- SCT_WIN_CLEAR (R51). -/
def execSctWinClear (r : Req) (i : BitVec 15) (s : State) : Host.Outcome State Fault Refusal :=
  .next (s.writeSctWin r (0xC0000000 ||| i.zeroExtend 32))

/-- CQ_DOORBELL (R164). -/
def execCqDoorbell (r : Req) (q : Fin 16) (v : BitVec 32) (s : State) : Host.Outcome State Fault Refusal :=
  .next (s.writeTail r q.val v)

/-- CQ_ENABLE (R160). -/
def execCqEnable (r : Req) (q : Fin 16) (v : BitVec 32) (s : State) : Host.Outcome State Fault Refusal :=
  .next (s.writeCqCfg r q.val v)

end Sys2Proof.Machine
end

