-- ==== Sys2Proof/Machine/Start.lean ====
section
/-! DEFINITION. REGWR and the phase write (R153, R195, R373), and the start of commands (R154). -/
namespace Sys2Proof.Machine

/-- The requester a queue's commands act as (R373). -/
def State.queueReq (s : State) (q : Nat) : Req := if s.flag (F.PLN_CQ_CFG_OWNER q) then .armature else .host

/-- Whether a register write by a requester is refused (R373). -/
def State.regRefused (s : State) (r : Req) (k : Nat) (v : BitVec 32) : Bool :=
  if k = Reg.SEC_CMD then !s.mayCmd r (v.toNat / 2 ^ 28) && v != 0 else s.refused r k v

/-- REGWR as it starts (R153, R195, R373): a refused write has its permitted fields applied and ends ABORTED; a write of
PLN_PHASE takes effect at its commit, and PHASE 3 or any other bit ends it ABORTED. -/
def State.regWr (s : State) (q : Nat) (h : BitVec 64) (p : Payload) : State :=
  let seq := hdSEQ h
  let r := s.queueReq q
  let k := (s.regOf p).getD 0
  let v : BitVec 32 := p.w2.truncate 32
  let bad (s : State) : State := s.finishCmd q seq .aborted causeILLEGAL
  if k = Reg.PLN_PHASE then
    if v.toNat % 2 ^ 30 ≠ 0 ∨ v.toNat / 2 ^ 30 = 3 then bad s
    else if s.refused r k v then bad (s.deny r k v)
    else
      let s := if s.whole r k then s.modCmd q seq fun x => { x with phase := some (v.toNat / 2 ^ 30) } else s
      s.finishCmd q seq .done 0
  else
    let no := s.regRefused r k v
    let s := s.regWrite .cmd r k v
    if no then bad s else s.finishCmd q seq .done 0

/-- What any command that has started does. -/
def State.runAny (s : State) (q : Nat) (h : BitVec 64) (p : Payload) : State :=
  if hdCMD h = 0x0A then s.regWr q h p else s.runCmd q h p

/-- COMMAND_START (R154): the queue's turn in the round robin. Its ring is read, and the next command starts if it may
(DESIGN CHOICE, log entry 16). -/
def execCommandStart (q : Fin 16) (s : State) : Host.Outcome State Fault Refusal :=
  .next ((s.fetchCmds q.val).startHead q.val fun s h p => s.runAny q.val h p)

/-- A REGWR placed in a queue's ring and read: started at once when it may. -/
def State.placeReg (s : State) (q : Nat) (h : BitVec 64) (p : Payload) : State :=
  let h := 0x0A#8 ++ (h.truncate 56 : BitVec 56)
  if s.queueRuns q = false then s
  else
    let s := s.takeCmd q h p
    if (s.cq q).read = [(h, p)] then s.startHead q (fun s h p => s.runAny q h p) else s

/-- REGWR (R153). -/
def execRegwr (q : Fin 16) (h : BitVec 64) (p : Payload) (s : State) : Host.Outcome State Fault Refusal :=
  .next (s.placeReg q.val h p)

/-- PHASE_WRITE (R195): a REGWR that names PLN_PHASE, committed at once when every earlier command has committed. -/
def execPhaseWrite (q : Fin 16) (h : BitVec 64) (p : Payload) (s : State) : Host.Outcome State Fault Refusal :=
  let s := s.placeReg q.val h { p with w1 := 0xFFFF030000000300 }
  .next (match s.cmd? q.val (hdSEQ h) with
    | some x => if x.phase.isSome ∧ x.done then s.commit q.val x else s
    | none => s)

end Sys2Proof.Machine
end

