-- ==== Sys2Proof/Machine/Host.lean ====
section
/-! DEFINITION. The host port (R355, R392 to R394), the management bus (R389), and Cheval's test access port (R370). -/
namespace Sys2Proof.Machine

/-! ## The host port -/

/-- PERST_ASSERT (R160, R355): the host port is reset, and host queues halt with HCAUSE 5. -/
def execPerstAssert (s : State) : Host.Outcome State Fault Refusal :=
  .next (if s.power.perstLow then s
    else
      let s := (s.modPower fun p => { p with perstLow := true }).setReg Reg.PLN_HOST (s.reg Reg.PLN_HOST &&& 0x6000FFFF)
      (List.range 16).foldl (fun s q => if s.flag (F.PLN_CQ_CFG_OWNER q) then s else s.haltQ q 5) { s with bar4 := [] })

/-- PERST_DEASSERT (R355). -/
def execPerstDeassert (s : State) : Host.Outcome State Fault Refusal :=
  .next (s.modPower fun p => { p with perstLow := false })

/-- HOST_LINK_UP (R355, R392): training needs PERST# deasserted and step 5 complete; training of a link that is up counts as
a retrain. -/
def execHostLinkUp (rate : BitVec 3) (width : BitVec 5) (s : State) : Host.Outcome State Fault Refusal :=
  .next (if s.power.perstLow ∨ s.power.railsUp = false ∨ s.fget F.PLN_BOOT_STEP < 6 ∨ rate = 0 ∨ rate = 7 ∨
      [4, 8, 16].contains width.toNat = false then s
    else
      let s := if s.flag F.PLN_HOST_UP then s.fsat F.PLN_HOST_RETRAINS 1 else s
      ((s.setFlag F.PLN_HOST_UP true).fset F.PLN_HOST_RATE rate.toNat).fset F.PLN_HOST_WIDTH width.toNat)

/-- Reads registers from an offset of the window for the host. -/
def State.hostRegs (s : State) (k : Nat) : Nat → List MWord × State
  | 0 => ([], s)
  | n + 1 =>
    let (v, s) := s.regRead .host .host k
    let (ws, s) := s.hostRegs (k + 4) n
    (⟨v, false⟩ :: ws, s)

/-- Writes registers from an offset of the window for the host. -/
def State.hostRegWrites (s : State) (k : Nat) : List (BitVec 32) → State
  | [] => s
  | v :: vs => (s.regWrite .host .host k v).hostRegWrites (k + 4) vs

/-- Reads memory through BAR2: offsets at or above the register window are reserved memory (R25, R393). -/
def State.hostMem (s : State) (head : Bool) (a : Nat) : Nat → List MWord × State
  | 0 => ([], s)
  | n + 1 =>
    let first := head || a % 64 == 0
    let (w, s) := if 0x30000000000 ≤ a then
        (poisonWord, if first then s.addrErr 0 false .host (0xFFFF#16 ++ BitVec.ofNat 48 a) else s)
      else s.readAt first (n == 0 || a % 64 == 60) .host 0xFFFF a
    let (ws, s) := s.hostMem false (a + 4) n
    (w :: ws, s)

/-- The read of a fast-tier sector that a write of part of it makes first (R173). -/
def State.readSector (s : State) (a : Nat) : State :=
  let b := a / 64 * 64
  match s.locate b with
  | .hbm st ch pg =>
    if s.hole (.hbm st ch pg) then s
    else (List.range 16).foldl (fun s i => s.onRead (i == 0) .host (.hbm st ch pg) (b + 4 * i)) s
  | _ => s

/-- Writes memory through BAR2: of a sector written in part the rest is read first (R173). -/
def State.hostMemWrite (s : State) (head : Bool) (a : Nat) : List MWord → State
  | [] => s
  | w :: ws =>
    let first := head || a % 64 == 0
    let part := decide (a % 64 ≠ 0) || decide (ws.length < 15)
    let s := if first && part then s.readSector a else s
    let s := if 0x30000000000 ≤ a then
        (if first then s.addrErr 0 true .host (0xFFFF#16 ++ BitVec.ofNat 48 a) else s)
      else s.writeAt first .host 0xFFFF a w
    s.hostMemWrite false (a + 4) ws

/-- The word of BAR4 at an offset (DESIGN CHOICE, log entry 76). -/
def State.bar4Word (s : State) (o : Nat) : MWord :=
  let b (i : Nat) : BitVec 8 := Sparse.get (fun _ => 0) s.bar4 (o + i)
  ⟨b 3 ++ b 2 ++ b 1 ++ b 0, false⟩

/-- Stores words in BAR4. -/
def State.bar4Write (s : State) (o : Nat) : List (BitVec 32) → State
  | [] => s
  | v :: vs =>
    let m := ((wordBytes v).mapIdx fun i b => (o + i, b)).foldl (fun m p => Sparse.set (fun _ => 0) m p.1 p.2) s.bar4
    ({ s with bar4 := m } : State).bar4Write (o + 4) vs

/-- Whether an access of `n` words from a BAR2 offset waits for memory. -/
def State.hostWaits (s : State) (o n : Nat) : Bool := (List.range (n / 16 + 2)).any fun i => s.memWaits (o + 64 * i)

/-- HOST_READ (R355, R393, R394): `n` words at an offset of BAR0 (0), BAR2 (1) or BAR4 (2). A completion with a poisoned
word is poisoned as a whole. A read of memory that waits has no effect yet. -/
def execHostRead (bar : Fin 3) (o : BitVec 48) (n : Nat) (s : State) : Host.Outcome State Fault Refusal :=
  let a := o.toNat / 4 * 4
  .next (if s.flag F.PLN_HOST_UP = false then s
    else if bar.val = 0 then
      let (ws, s) := s.hostRegs (a % 2 ^ 32) n
      { s with cpl := ws, cplPoison := false }
    else if bar.val = 1 then
      if s.hostWaits a n then s
      else
        let (ws, s) := s.hostMem true (a % 2 ^ 42) n
        { s with cpl := ws, cplPoison := ws.any (·.p) }
    else { s with cpl := (List.range n).map fun i => s.bar4Word ((a + 4 * i) % 0x10000), cplPoison := false })

/-- HOST_WRITE (R355, R373, R393, R394): a poisoned TLP writes memory in poison form; one to registers or BAR4 is dropped
(DEDUCED, log entry 53). A write of memory that waits has no effect yet. -/
def execHostWrite (bar : Fin 3) (o : BitVec 48) (d : List (BitVec 32)) (poison : Bool) (s : State) :
    Host.Outcome State Fault Refusal :=
  let a := o.toNat / 4 * 4
  .next (if s.flag F.PLN_HOST_UP = false then s
    else if bar.val = 1 then
      if s.hostWaits a d.length then s else s.hostMemWrite true (a % 2 ^ 42) (d.map fun v => ⟨v, poison⟩)
    else if poison then s
    else if bar.val = 0 then s.hostRegWrites (a % 2 ^ 32) d
    else s.bar4Write (a % 0x10000) d)

/-! ## The management bus (R389) -/

/-- Whether the management bus is served: its inputs are judged. -/
def State.busUp (s : State) : Bool := s.power.judged && s.power.auxUp

/-- A transaction to the package: the first after power-up that is no CCC selects SMBus. -/
def State.busMode (s : State) : State := if s.fget F.PLN_MGMT_MODE = 0 then s.fset F.PLN_MGMT_MODE 2 else s

/-- Notes whether the last access was refused. -/
def State.busRef (s : State) (no : Bool) : State := { s with sec := { s.sec with mgmtRef := no } }

/-- MGMT_ADDR. -/
def execMgmtAddr (a : BitVec 64) (s : State) : Host.Outcome State Fault Refusal :=
  .next (if s.busUp = false then s
    else
      let s := s.busMode
      { s with sec := { s.sec with mgmtAddr := a, mgmtRef := false } })

/-- The register offset a management address names. -/
def State.busReg (s : State) (g : BitVec 64) : Option Nat :=
  let a := g.toNat % 2 ^ 48
  if s.own (pkgOf g) && decide (0x30000000000 ≤ a) && decide (a < 0x30100000000) && a % 4 == 0 then
    some (a - 0x30000000000) else none

/-- MGMT_READ: a register, or the report while it lies at SEC_ADDR; ADDR advances by 4. Any other address is refused
(DEDUCED, log entry 77). -/
def execMgmtRead (s : State) : Host.Outcome State Fault Refusal :=
  let g := s.sec.mgmtAddr
  let off := (g - s.secAddr).toNat
  .next (if s.busUp = false then s
    else
      let s := s.busMode
      let give (v : BitVec 32) (s : State) : State :=
        { s with sec := { s.sec with mgmtOut := v, mgmtAddr := g + 4, mgmtRef := false } }
      match s.busReg g with
      | some k =>
        let (v, s) := s.regRead .arm .mgmt k
        give v s
      | none =>
        if s.sec.report ∧ off < 552 ∧ off % 4 = 0 then
          let (w, s) := s.readW .arm (pkgOf g) (g.toNat % 2 ^ 48)
          give w.v s
        else s.busRef true)

/-- MGMT_WRITE (R373): SEC_ADDR, SEC_CMD ATTEST, and the 32-byte nonce at SEC_ADDR while no command of Burin runs. -/
def execMgmtWrite (v : BitVec 32) (s : State) : Host.Outcome State Fault Refusal :=
  let g := s.sec.mgmtAddr
  let off := (g - s.secAddr).toNat
  .next (if s.busUp = false then s
    else
      let s := s.busMode
      match s.busReg g with
      | some k =>
        let no := if k = Reg.SEC_CMD then !s.mayCmd .mgmt (v.toNat / 2 ^ 28) else (s.mayWrite .mgmt k).isSome
        (s.regWrite .arm .mgmt k v).busRef no
      | none =>
        if off < 32 ∧ off % 4 = 0 ∧ s.flag F.SEC_STATUS_BUSY = false ∧ s.own (pkgOf g) ∧
            s.memWaits (g.toNat % 2 ^ 48) = false then
          let s := (s.writeW .arm (pkgOf g) (g.toNat % 2 ^ 48) ⟨v, false⟩).busRef false
          { s with sec := { s.sec with report := false } }
        else s.busRef true)

/-- MGMT_STATUS: bit 0 says whether the last access was refused. -/
def execMgmtStatus (s : State) : Host.Outcome State Fault Refusal :=
  .next (if s.busUp = false then s
    else
      let s := s.busMode
      { s with sec := { s.sec with mgmtOut := if s.sec.mgmtRef then 1 else 0 } })

/-- RECOVERY (R354, R389): up to 32 bytes are appended while the recovery loader waits. -/
def execRecovery (d : List (BitVec 8)) (s : State) : Host.Outcome State Fault Refusal :=
  .next (if s.busUp = false then s
    else
      let s := s.busMode
      if s.sec.recovering = false ∨ 32 < d.length then s.busRef true
      else { s with sec := { s.sec with recov := s.sec.recov ++ d, mgmtRef := false } })

/-- RECOVERY_GO (R354, R389). -/
def execRecoveryGo (s : State) : Host.Outcome State Fault Refusal :=
  .next (if s.busUp = false then s
    else
      let s := s.busMode
      if s.sec.recovering then s.recoveryGo else s.busRef true)

/-- CCC_BROADCAST (R389): it selects I3C when no mode is chosen, and in I3C mode may assign a dynamic address. -/
def execCccBroadcast (dyn : Option (BitVec 7)) (s : State) : Host.Outcome State Fault Refusal :=
  .next (if s.busUp = false ∨ s.fget F.PLN_MGMT_MODE = 2 then s
    else
      let s := s.fset F.PLN_MGMT_MODE 1
      match dyn with
      | none => s
      | some a => (s.setFlag F.PLN_MGMT_DAA true).fset F.PLN_MGMT_DYNADDR a.toNat)

/-! ## Cheval's test access port (R370) -/

/-- Whether the test access port is open: level FULL, the facets in the DEBUG phase. -/
def State.tapOpen (s : State) : Bool := s.fget F.DBG_LEVEL_LEVEL == 2 && s.flag F.DBG_LEVEL_FACET

/-- Whether any queue is enabled. -/
def State.anyQueue (s : State) : Bool := (List.range 16).any fun q => s.flag (F.PLN_CQ_CFG_EN q)

/-- TEST_ACCESS_PORT_ACCESS (R370, R373): nothing answers while the port is closed. Halt stops an engine's issue; a single
step lets it issue once; memory and registers are read and written, fx fields apart. Boundary scan, permitted while no
queue is enabled, acts on the balls alone. What internal scan does to the state no rule says. -/
def execTestAccessPortAccess (o : TapOp) (s : State) : Host.Outcome State Fault Refusal :=
  if s.tapOpen = false then .next s
  else match o with
    | .halt e => .next (((s.settle e.key).modEng e.key fun x => { x with halted := true, steps := 0 }))
    | .singleStep e => .next (s.modEng e.key fun x => if x.halted then { x with steps := x.steps + 1 } else x)
    | .resume e => .next ((s.settle e.key).modEng e.key fun x => { x with halted := false, steps := 0 })
    | .scan => .fault .scanUnspecified
    | .boundaryScan => .next s
    | .memRead a => .next (if s.memWaits a.toNat then s else
        let (w, s) := s.readW .arm 0xFFFF (a.toNat / 4 * 4)
        { s with tapOut := w })
    | .memWrite a v => .next (if s.memWaits a.toNat then s else s.writeW .arm 0xFFFF (a.toNat / 4 * 4) ⟨v, false⟩)
    | .regRead a => .next (
        let (v, s) := s.regRead .arm .cheval (a.toNat / 4 * 4)
        { s with tapOut := ⟨v, false⟩ })
    | .regWrite a v => .next (s.regWrite .arm .cheval (a.toNat / 4 * 4) v)

end Sys2Proof.Machine
end

