-- ==== Sys2Proof/Machine/Dispatch.lean ====
section
/-! DEFINITION. exec: one arm per command, each a direct call of the command's meaning or a rejection by name. -/
namespace Sys2Proof.Machine

/-- The effect of a command on everything but the queue of waiting commands. -/
def exec (i : Instr) (s : State) : Host.Outcome State Fault Refusal :=
  match i with
  | .tmac c w => Sys2Proof.Machine.execTmac c w s
  | .tmac2 c w => Sys2Proof.Machine.execTmac2 c w s
  | .accld c w x => Sys2Proof.Machine.execAccld c w x s
  | .accst c w x => Sys2Proof.Machine.execAccst c w x s
  | .tqnt c w x => Sys2Proof.Machine.execTqnt c w x s
  | .lpsamp c w => Sys2Proof.Machine.execLpsamp c w s
  | .vadd c w x => Sys2Proof.Machine.execVadd c w x s
  | .vsub c w x => Sys2Proof.Machine.execVsub c w x s
  | .vmul c w x => Sys2Proof.Machine.execVmul c w x s
  | .vmax c w x => Sys2Proof.Machine.execVmax c w x s
  | .vmin c w x => Sys2Proof.Machine.execVmin c w x s
  | .vcvt c w x => Sys2Proof.Machine.execVcvt c w x s
  | .vtrn c w x => Sys2Proof.Machine.execVtrn c w x s
  | .vexp c w x => Sys2Proof.Machine.execVexp c w x s
  | .vrelu c w x => Sys2Proof.Machine.execVrelu c w x s
  | .vgelu c w x => Sys2Proof.Machine.execVgelu c w x s
  | .vsilu c w x => Sys2Proof.Machine.execVsilu c w x s
  | .vtanh c w x => Sys2Proof.Machine.execVtanh c w x s
  | .vsigm c w x => Sys2Proof.Machine.execVsigm c w x s
  | .vrcp c w x => Sys2Proof.Machine.execVrcp c w x s
  | .vrsq c w x => Sys2Proof.Machine.execVrsq c w x s
  | .vrsum c w x => Sys2Proof.Machine.execVrsum c w x s
  | .vrmax c w x => Sys2Proof.Machine.execVrmax c w x s
  | .vcsum c w x => Sys2Proof.Machine.execVcsum c w x s
  | .vamax c w x => Sys2Proof.Machine.execVamax c w x s
  | .adds c w => Sys2Proof.Machine.execAdds c w s
  | .subs c w => Sys2Proof.Machine.execSubs c w s
  | .muls c w => Sys2Proof.Machine.execMuls c w s
  | .ands c w => Sys2Proof.Machine.execAnds c w s
  | .ors c w => Sys2Proof.Machine.execOrs c w s
  | .xors c w => Sys2Proof.Machine.execXors c w s
  | .shls c w => Sys2Proof.Machine.execShls c w s
  | .shrs c w => Sys2Proof.Machine.execShrs c w s
  | .sras c w => Sys2Proof.Machine.execSras c w s
  | .lds c w => Sys2Proof.Machine.execLds c w s
  | .ldsReturn c => Sys2Proof.Machine.execLdsReturn c s
  | .sts c w => Sys2Proof.Machine.execSts c w s
  | .br c w => Sys2Proof.Machine.execBr c w s
  | .loop c w => Sys2Proof.Machine.execLoop c w s
  | .endTask c w => Sys2Proof.Machine.execEndTask c w s
  | .swait c w => Sys2Proof.Machine.execSwait c w s
  | .ssig c w => Sys2Proof.Machine.execSsig c w s
  | .ssigRelease c => Sys2Proof.Machine.execSsigRelease c s
  | .semValueWrite r u k v => Sys2Proof.Machine.execSemValueWrite r u k v s
  | .bar c w => Sys2Proof.Machine.execBar c w s
  | .sfetch c w => Sys2Proof.Machine.execSfetch c w s
  | .sstore c w => Sys2Proof.Machine.execSstore c w s
  | .sdesc c w x => Sys2Proof.Machine.execSdesc c w x s
  | .descriptorBurstFetch l b => Sys2Proof.Machine.execDescriptorBurstFetch l b s
  | .descriptorStart l => Sys2Proof.Machine.execDescriptorStart l s
  | .streamDataArrival l n => Sys2Proof.Machine.execStreamDataArrival l n s
  | .streamTileFill l n => Sys2Proof.Machine.execStreamTileFill l n s
  | .transferComplete l n => Sys2Proof.Machine.execTransferComplete l n s
  | .streamStall l n => Sys2Proof.Machine.execStreamStall l n s
  | .streamStarvation l n => Sys2Proof.Machine.execStreamStarvation l n s
  | .cred c w x => Sys2Proof.Machine.execCred c w x s
  | .cgath c w x => Sys2Proof.Machine.execCgath c w x s
  | .cscat c w x => Sys2Proof.Machine.execCscat c w x s
  | .cnorm c w x => Sys2Proof.Machine.execCnorm c w x s
  | .tret c w => Sys2Proof.Machine.execTret c w s
  | .tcap c w => Sys2Proof.Machine.execTcap c w s
  | .tcapRun c silicon => Sys2Proof.Machine.execTcapRun c silicon s
  | .instructionStart e q => Sys2Proof.Machine.execInstructionStart e q s
  | .tmacPairEntry e q => Sys2Proof.Machine.execTmacPairEntry e q s
  | .instructionComplete e q => Sys2Proof.Machine.execInstructionComplete e q s
  | .contextResume c => Sys2Proof.Machine.execContextResume c s
  | .taskComplete c => Sys2Proof.Machine.execTaskComplete c s
  | .cqDoorbell r q v => Sys2Proof.Machine.execCqDoorbell r q v s
  | .cqEnable r q v => Sys2Proof.Machine.execCqEnable r q v s
  | .commandStart q => Sys2Proof.Machine.execCommandStart q s
  | .nop q h p => Sys2Proof.Machine.execNop q h p s
  | .launch q h p => Sys2Proof.Machine.execLaunch q h p s
  | .taskStart l k => Sys2Proof.Machine.execTaskStart l k s
  | .sigsem q h p => Sys2Proof.Machine.execSigsem q h p s
  | .waitsem q h p => Sys2Proof.Machine.execWaitsem q h p s
  | .stepCmd q h p => Sys2Proof.Machine.execStepCmd q h p s
  | .schedld q h p => Sys2Proof.Machine.execSchedld q h p s
  | .abortCmd q h p => Sys2Proof.Machine.execAbortCmd q h p s
  | .disable q h p => Sys2Proof.Machine.execDisable q h p s
  | .drainEnd q seq => Sys2Proof.Machine.execDrainEnd q seq s
  | .enable q h p => Sys2Proof.Machine.execEnable q h p s
  | .update q h p => Sys2Proof.Machine.execUpdate q h p s
  | .regwr q h p => Sys2Proof.Machine.execRegwr q h p s
  | .phaseWrite q h p => Sys2Proof.Machine.execPhaseWrite q h p s
  | .commandCommit q seq => Sys2Proof.Machine.execCommandCommit q seq s
  | .commandTimeout q seq => Sys2Proof.Machine.execCommandTimeout q seq s
  | .collectiveUpData d => Sys2Proof.Machine.execCollectiveUpData d s
  | .collectiveDownData d => Sys2Proof.Machine.execCollectiveDownData d s
  | .collectiveWithdraw g ix src => Sys2Proof.Machine.execCollectiveWithdraw g ix src s
  | .collectiveStatistics d => Sys2Proof.Machine.execCollectiveStatistics d s
  | .collectiveTimeout l n => Sys2Proof.Machine.execCollectiveTimeout l n s
  | .barrierArrivalSlot src b => Sys2Proof.Machine.execBarrierArrivalSlot src b s
  | .barrierReleaseSlot b => Sys2Proof.Machine.execBarrierReleaseSlot b s
  | .barrierWithdrawSlot src b => Sys2Proof.Machine.execBarrierWithdrawSlot src b s
  | .releaseInstant b => Sys2Proof.Machine.execReleaseInstant b s
  | .startWave b w => Sys2Proof.Machine.execStartWave b w s
  | .sctStepWrite r v => Sys2Proof.Machine.execSctStepWrite r v s
  | .sctWinRead r ix => Sys2Proof.Machine.execSctWinRead r ix s
  | .sctWinWrite r ix => Sys2Proof.Machine.execSctWinWrite r ix s
  | .sctWinClear r ix => Sys2Proof.Machine.execSctWinClear r ix s
  | .updateNormReady => Sys2Proof.Machine.execUpdateNormReady s
  | .chunkDispatch k => Sys2Proof.Machine.execChunkDispatch k s
  | .chunkRelease k => Sys2Proof.Machine.execChunkRelease k s
  | .chunkOwnCopy k => Sys2Proof.Machine.execChunkOwnCopy k s
  | .rootDone e u => Sys2Proof.Machine.execRootDone e u s
  | .rifflerLeave n => Sys2Proof.Machine.execRifflerLeave n s
  | .rifflerReturn n => Sys2Proof.Machine.execRifflerReturn n s
  | .portTrainingDone p gen width pair => Sys2Proof.Machine.execPortTrainingDone p gen width pair s
  | .linkManagement p peerGen => Sys2Proof.Machine.execLinkManagement p peerGen s
  | .dataFlit p f => Sys2Proof.Machine.execDataFlit p f s
  | .idleFlit p h => Sys2Proof.Machine.execIdleFlit p h s
  | .readRequest p sl => Sys2Proof.Machine.execReadRequest p sl s
  | .writeRequest p sl d => Sys2Proof.Machine.execWriteRequest p sl d s
  | .readResponse p sl d => Sys2Proof.Machine.execReadResponse p sl d s
  | .writeCompletion p sl => Sys2Proof.Machine.execWriteCompletion p sl s
  | .replayTimeout p => Sys2Proof.Machine.execReplayTimeout p s
  | .retrainTrigger p lane => Sys2Proof.Machine.execRetrainTrigger p lane s
  | .retrainDone p ok => Sys2Proof.Machine.execRetrainDone p ok s
  | .downRetry p => Sys2Proof.Machine.execDownRetry p s
  | .moduleFault p => Sys2Proof.Machine.execModuleFault p s
  | .hello p m => Sys2Proof.Machine.execHello p m s
  | .helloTimer p => Sys2Proof.Machine.execHelloTimer p s
  | .discoverySilent p => Sys2Proof.Machine.execDiscoverySilent p s
  | .onewayTimeout p => Sys2Proof.Machine.execOnewayTimeout p s
  | .swapTimeout p => Sys2Proof.Machine.execSwapTimeout p s
  | .helloLost p => Sys2Proof.Machine.execHelloLost p s
  | .keyExchange p msg idx body => Sys2Proof.Machine.execKeyExchange p msg idx body s
  | .rekey p => Sys2Proof.Machine.execRekey p s
  | .retrain r p => Sys2Proof.Machine.execRetrain r p s
  | .rejudge r p => Sys2Proof.Machine.execRejudge r p s
  | .quar r p => Sys2Proof.Machine.execQuar r p s
  | .laneClr r p => Sys2Proof.Machine.execLaneClr r p s
  | .nbrRead r ix => Sys2Proof.Machine.execNbrRead r ix s
  | .nbrWrite r ix => Sys2Proof.Machine.execNbrWrite r ix s
  | .autoFill r v => Sys2Proof.Machine.execAutoFill r v s
  | .groupRead r ix => Sys2Proof.Machine.execGroupRead r ix s
  | .groupWrite r ix => Sys2Proof.Machine.execGroupWrite r ix s
  | .syncEdge err => Sys2Proof.Machine.execSyncEdge err s
  | .syncLost => Sys2Proof.Machine.execSyncLost s
  | .timeExchange => Sys2Proof.Machine.execTimeExchange s
  | .timeSync sl => Sys2Proof.Machine.execTimeSync sl s
  | .followUp sl => Sys2Proof.Machine.execFollowUp sl s
  | .delayReq sl => Sys2Proof.Machine.execDelayReq sl s
  | .delayResp sl => Sys2Proof.Machine.execDelayResp sl s
  | .offsetCorrection settled => Sys2Proof.Machine.execOffsetCorrection settled s
  | .adjust a b => Sys2Proof.Machine.execAdjust a b s
  | .adjustApply => Sys2Proof.Machine.execAdjustApply s
  | .tbLatchRead r => Sys2Proof.Machine.execTbLatchRead r s
  | .heliostatWindow d err => Sys2Proof.Machine.execHeliostatWindow d err s
  | .railMax d => Sys2Proof.Machine.execRailMax d s
  | .paceStepChange => Sys2Proof.Machine.execPaceStepChange s
  | .meterSwitch d => Sys2Proof.Machine.execMeterSwitch d s
  | .referenceWindow ppm => Sys2Proof.Machine.execReferenceWindow ppm s
  | .rootLock => Sys2Proof.Machine.execRootLock s
  | .referenceLoss => Sys2Proof.Machine.execReferenceLoss s
  | .referenceReturn => Sys2Proof.Machine.execReferenceReturn s
  | .fcntStart r v => Sys2Proof.Machine.execFcntStart r v s
  | .fcntDone edges => Sys2Proof.Machine.execFcntDone edges s
  | .diaphragmEstimate e => Sys2Proof.Machine.execDiaphragmEstimate e s
  | .ditherSlot => Sys2Proof.Machine.execDitherSlot s
  | .regulatorRead rail meas est heldLong => Sys2Proof.Machine.execRegulatorRead rail meas est heldLong s
  | .diaCapWrite r v => Sys2Proof.Machine.execDiaCapWrite r v s
  | .diaPrioWrite r v => Sys2Proof.Machine.execDiaPrioWrite r v s
  | .diaMinWrite r c v => Sys2Proof.Machine.execDiaMinWrite r c v s
  | .paceNFall => Sys2Proof.Machine.execPaceNFall s
  | .paceNRise ns => Sys2Proof.Machine.execPaceNRise ns s
  | .emergencyStop => Sys2Proof.Machine.execEmergencyStop s
  | .droopRelax => Sys2Proof.Machine.execDroopRelax s
  | .boardRelax => Sys2Proof.Machine.execBoardRelax s
  | .thermalSample sensor t => Sys2Proof.Machine.execThermalSample sensor t s
  | .thermalSlowdown => Sys2Proof.Machine.execThermalSlowdown s
  | .thermalSpeedup => Sys2Proof.Machine.execThermalSpeedup s
  | .hbmTemp h t => Sys2Proof.Machine.execHbmTemp h t s
  | .trip sensor => Sys2Proof.Machine.execTrip sensor s
  | .rearm r => Sys2Proof.Machine.execRearm r s
  | .sagTrigger rail level => Sys2Proof.Machine.execSagTrigger rail level s
  | .sagClear level => Sys2Proof.Machine.execSagClear level s
  | .pwrfailAssert => Sys2Proof.Machine.execPwrfailAssert s
  | .pwrfailRelease => Sys2Proof.Machine.execPwrfailRelease s
  | .l4Clear => Sys2Proof.Machine.execL4Clear s
  | .mainRailsFall => Sys2Proof.Machine.execMainRailsFall s
  | .auxRailLoss => Sys2Proof.Machine.execAuxRailLoss s
  | .idleEntry => Sys2Proof.Machine.execIdleEntry s
  | .idleExit => Sys2Proof.Machine.execIdleExit s
  | .pstateRetention r => Sys2Proof.Machine.execPstateRetention r s
  | .pstateLeaveRetention r => Sys2Proof.Machine.execPstateLeaveRetention r s
  | .pstateStandby r => Sys2Proof.Machine.execPstateStandby r s
  | .residueCheck e q => Sys2Proof.Machine.execResidueCheck e q s
  | .unitResidueMismatch u lane diff => Sys2Proof.Machine.execUnitResidueMismatch u lane diff s
  | .lockstepMismatch u point => Sys2Proof.Machine.execLockstepMismatch u point s
  | .heartbeatMiss core served => Sys2Proof.Machine.execHeartbeatMiss core served s
  | .handshakeWatchdog e stage => Sys2Proof.Machine.execHandshakeWatchdog e stage s
  | .sensorCheck sensor off => Sys2Proof.Machine.execSensorCheck sensor off s
  | .replay n => Sys2Proof.Machine.execReplay n s
  | .replayDone n suspectBad refBad => Sys2Proof.Machine.execReplayDone n suspectBad refBad s
  | .correctedWriteback a => Sys2Proof.Machine.execCorrectedWriteback a s
  | .patrolScrub t a => Sys2Proof.Machine.execPatrolScrub t a s
  | .serviceTimeTick => Sys2Proof.Machine.execServiceTimeTick s
  | .loupeAutoArm e acc tag => Sys2Proof.Machine.execLoupeAutoArm e acc tag s
  | .loupeHoldExpiry e => Sys2Proof.Machine.execLoupeHoldExpiry e s
  | .loupeChainDone u pairs => Sys2Proof.Machine.execLoupeChainDone u pairs s
  | .faultWinRead r tgt ix => Sys2Proof.Machine.execFaultWinRead r tgt ix s
  | .loupeEntryWrite r ix => Sys2Proof.Machine.execLoupeEntryWrite r ix s
  | .loupeEntryClear r ix => Sys2Proof.Machine.execLoupeEntryClear r ix s
  | .rotationDue u => Sys2Proof.Machine.execRotationDue u s
  | .graceExpiry u => Sys2Proof.Machine.execGraceExpiry u s
  | .rotationDeferral u => Sys2Proof.Machine.execRotationDeferral u s
  | .handover u sl => Sys2Proof.Machine.execHandover u sl s
  | .handoverCopy u => Sys2Proof.Machine.execHandoverCopy u s
  | .handoverBind u => Sys2Proof.Machine.execHandoverBind u s
  | .rotationTestDone u o => Sys2Proof.Machine.execRotationTestDone u o s
  | .unitRetirement unit => Sys2Proof.Machine.execUnitRetirement unit s
  | .moduleSpareDone e => Sys2Proof.Machine.execModuleSpareDone e s
  | .edgeModuleFail e m => Sys2Proof.Machine.execEdgeModuleFail e m s
  | .channelTrainingLoss u ch => Sys2Proof.Machine.execChannelTrainingLoss u ch s
  | .hangScan => Sys2Proof.Machine.execHangScan s
  | .resetEngine r e => Sys2Proof.Machine.execResetEngine r e s
  | .engineResetDone e pass => Sys2Proof.Machine.execEngineResetDone e pass s
  | .resetCluster r u => Sys2Proof.Machine.execResetCluster r u s
  | .resetMemoryChannel r u ch => Sys2Proof.Machine.execResetMemoryChannel r u ch s
  | .resetLinkPort r p => Sys2Proof.Machine.execResetLinkPort r p s
  | .resetRiffler r n => Sys2Proof.Machine.execResetRiffler r n s
  | .resetDie r d => Sys2Proof.Machine.execResetDie r d s
  | .resetPackageWarm r => Sys2Proof.Machine.execResetPackageWarm r s
  | .resetPackageCold r => Sys2Proof.Machine.execResetPackageCold r s
  | .capsuleLoad r ix => Sys2Proof.Machine.execCapsuleLoad r ix s
  | .capsuleErase r ix => Sys2Proof.Machine.execCapsuleErase r ix s
  | .capsuleEnable r ix en => Sys2Proof.Machine.execCapsuleEnable r ix en s
  | .takeDump r => Sys2Proof.Machine.execTakeDump r s
  | .marginPlan d drift => Sys2Proof.Machine.execMarginPlan d drift s
  | .sramRepartition r d v => Sys2Proof.Machine.execSramRepartition r d v s
  | .repartitionWritebackDone d => Sys2Proof.Machine.execRepartitionWritebackDone d s
  | .repartitionDone d => Sys2Proof.Machine.execRepartitionDone d s
  | .auxPowerGood => Sys2Proof.Machine.execAuxPowerGood s
  | .strapLatch word ambig => Sys2Proof.Machine.execStrapLatch word ambig s
  | .facetOutputsOn => Sys2Proof.Machine.execFacetOutputsOn s
  | .facetInputsJudged pwrfailLow paceLow => Sys2Proof.Machine.execFacetInputsJudged pwrfailLow paceLow s
  | .firmwareVerify => Sys2Proof.Machine.execFirmwareVerify s
  | .railSequence => Sys2Proof.Machine.execRailSequence s
  | .railTimeout => Sys2Proof.Machine.execRailTimeout s
  | .armatureStart rev => Sys2Proof.Machine.execArmatureStart rev s
  | .dieSelfTest d pass passRepeat => Sys2Proof.Machine.execDieSelfTest d pass passRepeat s
  | .edgeTraining e good => Sys2Proof.Machine.execEdgeTraining e good s
  | .memoryTraining failed => Sys2Proof.Machine.execMemoryTraining failed s
  | .calibrationApply => Sys2Proof.Machine.execCalibrationApply s
  | .ready ms => Sys2Proof.Machine.execReady ms s
  | .perstAssert => Sys2Proof.Machine.execPerstAssert s
  | .perstDeassert => Sys2Proof.Machine.execPerstDeassert s
  | .hostRead bar o n => Sys2Proof.Machine.execHostRead bar o n s
  | .hostWrite bar o d poison => Sys2Proof.Machine.execHostWrite bar o d poison s
  | .stageIsl r n => Sys2Proof.Machine.execStageIsl r n s
  | .stageArm r n => Sys2Proof.Machine.execStageArm r n s
  | .switchFw r arm => Sys2Proof.Machine.execSwitchFw r arm s
  | .confirmFw r arm => Sys2Proof.Machine.execConfirmFw r arm s
  | .confirmTimeout => Sys2Proof.Machine.execConfirmTimeout s
  | .install r n => Sys2Proof.Machine.execInstall r n s
  | .grant r => Sys2Proof.Machine.execGrant r s
  | .zeroisation => Sys2Proof.Machine.execZeroisation s
  | .zeroisationDone => Sys2Proof.Machine.execZeroisationDone s
  | .endGrant r => Sys2Proof.Machine.execEndGrant r s
  | .releaseQuar r => Sys2Proof.Machine.execReleaseQuar r s
  | .retirePkg r => Sys2Proof.Machine.execRetirePkg r s
  | .attest r => Sys2Proof.Machine.execAttest r s
  | .overlay r => Sys2Proof.Machine.execOverlay r s
  | .bootcfg r => Sys2Proof.Machine.execBootcfg r s
  | .svn r => Sys2Proof.Machine.execSvn r s
  | .extend r => Sys2Proof.Machine.execExtend r s
  | .keyrev r => Sys2Proof.Machine.execKeyrev r s
  | .debugLevelRequest r v => Sys2Proof.Machine.execDebugLevelRequest r v s
  | .facetRequest r v => Sys2Proof.Machine.execFacetRequest r v s
  | .faultnPulseEnd => Sys2Proof.Machine.execFaultnPulseEnd s
  | .mgmtAddr a => Sys2Proof.Machine.execMgmtAddr a s
  | .mgmtRead => Sys2Proof.Machine.execMgmtRead s
  | .mgmtWrite v => Sys2Proof.Machine.execMgmtWrite v s
  | .mgmtStatus => Sys2Proof.Machine.execMgmtStatus s
  | .recovery d => Sys2Proof.Machine.execRecovery d s
  | .recoveryGo => Sys2Proof.Machine.execRecoveryGo s
  | .registerWrite r a v => Sys2Proof.Machine.execRegisterWrite r a v s
  | .clusterResetDone u => Sys2Proof.Machine.execClusterResetDone u s
  | .dieResetDone d => Sys2Proof.Machine.execDieResetDone d s
  | .memoryChannelResetDone u ch => Sys2Proof.Machine.execMemoryChannelResetDone u ch s
  | .localCollectiveDone g ix => Sys2Proof.Machine.execLocalCollectiveDone g ix s
  | .flitDropped p f => Sys2Proof.Machine.execFlitDropped p f s
  | .hostLinkUp rate width => Sys2Proof.Machine.execHostLinkUp rate width s
  | .cccBroadcast dyn => Sys2Proof.Machine.execCccBroadcast dyn s
  | .testAccessPortAccess o => Sys2Proof.Machine.execTestAccessPortAccess o s
  | .provisioning => Sys2Proof.Machine.execProvisioning s
  | .standbyExit => Sys2Proof.Machine.execStandbyExit s
  | .clvIdleLatchRead r c => Sys2Proof.Machine.execClvIdleLatchRead r c s

end Sys2Proof.Machine
end

