-- ==== Sys2Proof/Safety.lean ====
section
/-! DEFINITION. The terms the statements use: when a command completes with a next state, when an instruction may
issue, what a command may change, and the invariants every step keeps. -/
namespace Sys2Proof

/-- The context, base word and extension word of a tile, accumulator, quantise or vector instruction (R96, R97). -/
def Instr.tileForm : Instr → Option (Cx × BitVec 64 × BitVec 64)
  | .tmac c w => some (c, 0x10#8 ++ w, 0)
  | .tmac2 c w => some (c, 0x11#8 ++ w, 0)
  | .accld c w x => some (c, 0x20#8 ++ w, x)
  | .accst c w x => some (c, 0x21#8 ++ w, x)
  | .tqnt c w x => some (c, 0x30#8 ++ w, x)
  | .vadd c w x => some (c, 0x40#8 ++ w, x)
  | .vsub c w x => some (c, 0x41#8 ++ w, x)
  | .vmul c w x => some (c, 0x42#8 ++ w, x)
  | .vmax c w x => some (c, 0x43#8 ++ w, x)
  | .vmin c w x => some (c, 0x44#8 ++ w, x)
  | .vcvt c w x => some (c, 0x45#8 ++ w, x)
  | .vtrn c w x => some (c, 0x46#8 ++ w, x)
  | .vexp c w x => some (c, 0x48#8 ++ w, x)
  | .vrelu c w x => some (c, 0x49#8 ++ w, x)
  | .vgelu c w x => some (c, 0x4A#8 ++ w, x)
  | .vsilu c w x => some (c, 0x4B#8 ++ w, x)
  | .vtanh c w x => some (c, 0x4C#8 ++ w, x)
  | .vsigm c w x => some (c, 0x4D#8 ++ w, x)
  | .vrcp c w x => some (c, 0x4E#8 ++ w, x)
  | .vrsq c w x => some (c, 0x4F#8 ++ w, x)
  | .vrsum c w x => some (c, 0x50#8 ++ w, x)
  | .vrmax c w x => some (c, 0x51#8 ++ w, x)
  | .vcsum c w x => some (c, 0x52#8 ++ w, x)
  | .vamax c w x => some (c, 0x53#8 ++ w, x)
  | _ => none

end Sys2Proof

namespace Sys2Proof.Machine

/-- The rational number a finite value is; none for NaN and the infinities. -/
def Num.rat : Num → Option ℚ
  | .fin neg n d e => some ((if neg then -1 else 1) * ((n : ℚ) / d) * 2 ^ e)
  | _ => none

/-- Command `i` completes at `s` with a next state that satisfies `P`. -/
def Completes (i : Instr) (s : State) (P : State → Prop) : Prop := ∃ t, exec i s = .next t ∧ P t

/-- What every instruction needs to issue from context `c` (R92, R95, R98): its context may issue, FENCE does not hold
it, its word is legal, and its program words are read without an error. -/
def State.issues (s : State) (c : Cx) (w : BitVec 64) (legal : Bool) : Prop :=
  s.mayIssue c.pos.key c.ctx.val = true ∧ s.fenced c.pos.key c.ctx.val w = false ∧ legal = true ∧
    s.progPoison (s.ctx c.key) (wordsOf w) = false ∧ s.progClean (s.ctx c.key) (wordsOf w) = true

/-- Everything but the engines and the idle account. -/
def State.butEngines (s : State) : State := { s with engines := [], idle := [] }

/-- Everything but the contexts, the engines, the idle account and the work number. -/
def State.butIssue (s : State) : State := { s.butEngines with ctxs := [], nextId := 0 }

/-- What the issue of an instruction from context `c` may change: that context, its engine's queues and step count, the
idle account and the work number. Every register, every byte of memory and all else stays. -/
def State.issueFrame (s t : State) (c : Cx) : Prop :=
  t.butIssue = s.butIssue ∧ (∀ k, k ≠ c.key → t.ctx k = s.ctx k) ∧ (∀ e, e ≠ c.pos.key → t.eng e = s.eng e) ∧
    ∀ a, t.byte a = s.byte a

/-- The state in which a command that has just been read from queue `q` and started does its work (R154). -/
def State.begun (s : State) (q : Nat) (h : BitVec 64) (p : Payload) : State :=
  let b := (s.takeCmd q h p).beginCmd q h p
  if b.fullFence h p then { b with fence := some (q, hdSEQ h) } else b

/-- Queue `q` reads the command `h`, `p` as its only one and starts it at once (R152 to R154). -/
def State.accepts (s : State) (q : Nat) (h : BitVec 64) (p : Payload) : Prop :=
  s.queueRuns q = true ∧ ((s.takeCmd q h p).cq q).read = [(h, p)] ∧ (s.cq q).infl = [] ∧
    (s.takeCmd q h p).mayStart q h = true ∧
    ((s.takeCmd q h p).fullFence h p && (s.takeCmd q h p).anyOwed) = false ∧ (s.begun q h p).malformed q h p = false

/-- Every started command of queue `q` with this SEQ is done, with this code. -/
def State.isDone (s : State) (q : Nat) (seq : BitVec 32) (c : Code) : Prop :=
  (∃ x ∈ (s.cq q).infl, hdSEQ x.hdr = seq) ∧ ∀ x ∈ (s.cq q).infl, hdSEQ x.hdr = seq → x.done = true ∧ x.code = c

/-- Where queue `q` writes its next completion record (R159, R164). -/
def State.recordAt (s : State) (q : Nat) : Nat :=
  s.ringAt (Reg.PLN_CQ_CPL_LO q) (Reg.PLN_CQ_CPL_HI q) 32 + 32 * ((s.cq q).recs % s.entries q)

/-- A message is with a port: sent, or waiting there for credits or its key. -/
def State.withPort (s : State) (p : Nat) (dst : BitVec 16) (m : Msg) : Prop :=
  (p, m) ∈ s.sent ∨ (dst, m) ∈ (s.port p).outq

/-- Memory in canonical form: addresses strictly rising, and no byte listed that reads the same unlisted. -/
abbrev State.memWf (s : State) : Prop := Sparse.wf (memDef s.hbmEpoch s.sramEpoch s.sramClean) s.mem

end Sys2Proof.Machine
end

