-- ==== Sys2Proof/Certificates/Slice0/Obligations.lean ====
section
/-! DEFINITION. The statements about the model. -/
open Sys2Proof Sys2Proof.Machine

/-! ## The step -/

/-- With a command at the front of its queue the block runs exactly that command on the state with the queue's rest. -/
def Obligations.StepRunsFrontCommand : Prop :=
  ∀ (s : State) (c : Instr) (rest : List Instr),
    step { s with pending := c :: rest } = exec c { s with pending := rest }

/-- With no command waiting, one nanosecond passes and only the timebase may move (the model's choice, log entry 2): it
goes on, the delay of a SYNC edge runs down, and with its last nanosecond an armed value not below the timebase is loaded
(R262). -/
def Obligations.EmptyQueueTicks : Prop :=
  ∀ s : State, s.pending = [] → ∃ t, step s = .next t ∧
    let armed := s.reg64 Reg.CLV_TB_ARM_LO Reg.CLV_TB_ARM_HI
    (s.time.load = none → t.time = s.time.tick ∧ { t with time := s.time } = s) ∧
    (∀ n, s.time.load = some n → 1 < n →
      t.time = { s.time.tick with load := some (n - 1) } ∧ { t with time := s.time } = s) ∧
    ∀ n, s.time.load = some n → n ≤ 1 → t.time.load = none ∧ t.flag F.CLV_TB_CFG_ARM = false ∧
      (s.time.tick.tb.toNat ≤ armed.toNat → t.now = armed ∧ t.flag F.CLV_TB_STATUS_ALIGNED = true) ∧
      (armed.toNat < s.time.tick.tb.toNat → t.now = s.time.tick.tb ∧ t.flag F.CLV_TB_STATUS_ARM_ERR = true) ∧
      { t with time := s.time, regs := s.regs } = s

/-! ## Numbers -/

/-- Every code of the element formats (R29, R30): the value of its sign, exponent and mantissa fields, the infinities, the
NaNs, the largest finite, smallest normal and smallest subnormal, and the NaN the T4 writes; and the values of scale words
and block scales (R32, R34). -/
def Obligations.FormatValues : Prop :=
  (∀ r ∈ ([(bf16, 8, 7, 127), (binary16, 5, 10, 15), (e4m3, 4, 3, 7), (e5m2, 5, 2, 15)] : List (EFmt × Nat × Nat × Nat)),
    let f := r.1
    let eb := r.2.1
    let mb := r.2.2.1
    let bias := r.2.2.2
    ∀ S E M : Nat, S < 2 → E < 2 ^ eb → M < 2 ^ mb →
      let x := f.decode ((S * 2 ^ eb + E) * 2 ^ mb + M)
      let special : Prop := E = 2 ^ eb - 1 ∧ (f = e4m3 → M = 7)
      (special → x = if f ≠ e4m3 ∧ M = 0 then .inf (S == 1) else .nan) ∧
      (¬ special → x.rat = some ((-1) ^ S * (if E = 0 then 2 ^ (1 - bias : ℤ) * ((M : ℚ) / 2 ^ mb)
        else 2 ^ (E - bias : ℤ) * (1 + (M : ℚ) / 2 ^ mb))))) ∧
  (∀ E M : Nat, E < 16 → M < 16 → (zm8u.decode (E * 16 + M)).rat =
    some (if E = 0 then 2 ^ (-6 : ℤ) * ((M : ℚ) / 16) else 2 ^ (E - 7 : ℤ) * (1 + (M : ℚ) / 16))) ∧
  (∀ r ∈ ([(bf16, 0x7F7F, 0x80, -126, -133), (binary16, 0x7BFF, 0x400, -14, -24), (e4m3, 0x7E, 0x08, -6, -9),
      (e5m2, 0x7B, 0x04, -14, -16), (zm8u, 0xFF, 0x10, -6, -10)] : List (EFmt × Nat × Nat × ℤ × ℤ)),
    let f := r.1
    (∃ L, (f.decode r.2.1).rat = some L ∧ ∀ c q, (f.decode c).rat = some q → |q| ≤ L) ∧
    (f.decode r.2.2.1).rat = some (2 ^ r.2.2.2.1) ∧ (f.decode 1).rat = some (2 ^ r.2.2.2.2)) ∧
  (bf16.conv .even .nan).code = 0x7FC0 ∧ (binary16.conv .even .nan).code = 0x7E00 ∧
  (e4m3.conv .even .nan).code = 0x7F ∧ (e5m2.conv .even .nan).code = 0x7E ∧
  (∀ w : BitVec 16, let e := w.toNat / 256
    let f := w.toNat % 256
    (swVal w).rat = some (2 ^ (e - 127 : ℤ) * (1 + (f : ℚ) / 256)) ∧ (swValid w = true ↔ 1 ≤ e ∧ e ≤ 254)) ∧
  (∀ c : Nat, c < 255 → (e8m0 c).rat = some (2 ^ (c - 127 : ℤ))) ∧ e8m0 255 = .nan

/-- Conversions (R35, R36, R37, R49): a finite value within range becomes the nearest code, ties to even, or under a
stochastic draw u the code below or above it as u tells; above range it saturates; a negative one converts to 0 in ZM8U;
and non-finite sources convert as R37's table says. Each counts what it should. -/
def Obligations.ConversionsRound : Prop :=
  ∀ f ∈ [bf16, binary16, e4m3, e5m2, zm8u],
    (∀ (neg : Bool) (n d : Nat) (e : Int) (X L : ℚ), d ≠ 0 → (f.sgn = none → neg = false) →
      (Num.fin neg n d e).rat = some X → (f.decode f.maxMag).rat = some L →
      (|X| ≤ L → let v := f.conv .even (.fin neg n d e)
        ∃ q, (f.decode v.code).rat = some q ∧
          (∀ c y, (f.decode c).rat = some y → |q - X| ≤ |y - X| ∧ (|q - X| = |y - X| → y ≠ q → v.code % 2 = 0)) ∧
          (f.sgn ≠ none → (f.decode v.code).isNeg = neg) ∧ v.sat = false ∧ v.nonfin = false ∧
          (v.ufl = true ↔ n ≠ 0 ∧ q = 0)) ∧
      (|X| ≤ L → n ≠ 0 → ∀ (u : Nat) (E : Int), 2 ^ E ≤ |X| → |X| < 2 ^ (E + 1) →
        let v := f.conv (.stoch u) (.fin neg n d e)
        let q : ℚ := 2 ^ (max E f.emin - f.m)
        (f.decode v.code).rat = some ((if neg then -1 else 1) * (q * ((⌊|X| / q⌋ : ℚ) +
          (if (u : ℤ) < ⌊Int.fract (|X| / q) * 2 ^ 24⌋ then 1 else 0)))) ∧ v.sat = false ∧ v.nonfin = false ∧
        (v.ufl = true ↔ (f.decode v.code).isZero = true)) ∧
      (L < |X| → ∀ r, f.conv r (.fin neg n d e) = { code := f.withSign neg f.maxMag, sat := true })) ∧
    (∀ r, f.conv r .nan = if f = zm8u then { code := 0xFF, sat := true, nonfin := true }
      else { code := f.nanCode, nonfin := true }) ∧
    (∀ r neg, f.conv r (.inf neg) =
      if f = bf16 then { code := if neg then 0xFF80 else 0x7F80, nonfin := true }
      else if f = binary16 then { code := if neg then 0xFC00 else 0x7C00, nonfin := true }
      else { code := f.withSign neg f.maxMag, sat := true, nonfin := true }) ∧
    ∀ r n d e, f = zm8u → f.conv r (.fin true n d e) = if n = 0 then { code := 0 } else { code := 0, sat := true }

/-- The step advance (R42, R157): STEP moves SCT_STEP on; the entries with VALID take the next scale and no other changes.
The wanted scale's word is the smallest scale word not below it, or the nearest valid word, with CLAMPED; PREV keeps CUR,
FILL counts, the next step's ring slot is cleared, and AMAX_ZERO says that every slot folded was 0. -/
def Obligations.StepAdvancesScales : Prop :=
  (∀ (n d : Nat) (e : Int) (X : ℚ), n ≠ 0 → d ≠ 0 → (Num.fin false n d e).rat = some X →
    let r := wantWord n d e
    swValid r.1 = true ∧
    (X ≤ 2 ^ (-127 : ℤ) * (511 / 256) → r = (0x0100, true)) ∧
    (2 ^ (127 : ℤ) * (511 / 256) < X → r = (0xFEFF, true)) ∧
    (2 ^ (-127 : ℤ) * (511 / 256) < X → X ≤ 2 ^ (127 : ℤ) * (511 / 256) → r.2 = false ∧
      ∃ v, (swVal r.1).rat = some v ∧ X ≤ v ∧
        ∀ w y, swValid w = true → (swVal w).rat = some y → X ≤ y → v ≤ y)) ∧
  (∀ (e : Entry) (st : BitVec 32), e.length = 16 →
    let n := min (enH e) (enFILL e + 1)
    let slot (j : Nat) : Nat := ringVal (enRING e ((st.toNat + 16 - j) % 16))
    let e' := (enAdvance e st).1
    let scaled : Prop := enFREEZE e = false ∧ enFORMAT e ≤ 1 ∧ ∃ j < n, slot j ≠ 0
    (∀ j < n, (∀ i < n, slot i ≤ slot j) → scaled →
      (slot j = 0x7F80 → enCUR e' = 0xFEFF) ∧
      (∀ m d x, bf16.decode (slot j) = .fin false m d x →
        enCUR e' = (wantWord (m * 2 ^ enMARGIN e) (d * (if enFORMAT e = 0 then 448 else 57344)) x).1)) ∧
    (¬ scaled → enCUR e' = enCUR e ∧ (enW e' 13).getLsbD 10 = false) ∧ enPREV e' = enCUR e ∧
    enFILL e' = min (enFILL e + 1) 15 ∧ enRING e' ((st.toNat + 1) % 16) = 0 ∧
    (∀ k < 16, k ≠ (st.toNat + 1) % 16 → enRING e' k = enRING e k) ∧
    ((enW e' 13).getLsbD 9 = true ↔ ∀ j < n, slot j = 0) ∧ enW e' 11 = st + 1) ∧
  ∀ (s : State) (q : Fin 16) (h : BitVec 64) (p : Payload), s.accepts q h p → hdCMD h = 4 →
    Completes (.stepCmd q h p) s fun t =>
      t.reg Reg.SCT_STEP = s.reg Reg.SCT_STEP + 1 ∧
      (∀ i, s.sctBad i = [] →
        (enVALID (s.entry i) = true → t.entry i = (enAdvance (s.entry i) (s.reg Reg.SCT_STEP)).1) ∧
        (enVALID (s.entry i) = false → t.entry i = s.entry i)) ∧
      (∀ k m bps, lookup s.sched k = some (m, bps) → k < 16 →
        t.reg (Reg.PLN_SCHED_V k) = schedValue m bps (s.reg Reg.SCT_STEP + 1)) ∧ ∀ a, t.byte a = s.byte a

/-! ## Tile, accumulator, quantise and vector instructions -/

/-- A tile, accumulator, quantise or vector instruction that may issue, whose first operands pass the gate and whose
queues have room, enters its queues with the next work number, and its context goes on past its words (R90, R92, R94,
R130). Nothing else changes. -/
def Obligations.TileInstructionIssues : Prop :=
  ∀ (i : Instr) (c : Cx) (w x : BitVec 64) (s : State), i.tileForm = some (c, w, x) →
    s.issues c w (legalTile w x) → s.gateMiss c.pos.key (firstTiles w) = [] → (s.eng c.pos.key).room w = true →
    (isV2 (opc w) = true → vSRC2 w = 1 → (s.eng c.pos.key).scalarBusy c.ctx.val (vSS w) = false) →
    Completes i s fun t =>
      let q : QEnt := { id := s.nextId, ctx := c.ctx.val, w := w, x := extOf (s.ctx c.key) w x,
                        pc := (s.ctx c.key).pc, step := s.reg Reg.SCT_STEP }
      let on (u : Unit3) (l : List QEnt) : List QEnt := if (queuesOf w).contains u then l ++ [q] else l
      t.ctx c.key = (s.ctx c.key).past w (s.nextTurn c.pos.key) ∧
      (t.eng c.pos.key).qA = on .a (s.eng c.pos.key).qA ∧ (t.eng c.pos.key).qB = on .b (s.eng c.pos.key).qB ∧
      (t.eng c.pos.key).qV = on .v (s.eng c.pos.key).qV ∧ t.nextId = s.nextId + 1 ∧ s.issueFrame t c

/-- The issue gate (R130): a first operand fails it when it is not FULL and no issued instruction writes it, and only then;
a failed gate makes the context LATE and nothing enters a queue; a LATE context whose missing operands are FULL, or have
an issued writer, returns to RUN, or to DRAIN if its task has stopped; and an instruction behind the writer of an operand
waits (R91). The gate tests the first pair of a TMAC, which is the model's reading (log entry 12). -/
def Obligations.IssueGate : Prop :=
  (∀ (s : State) (e : Nat) (ts : List Nat) (t : Nat), t ∈ s.gateMiss e ts ↔
    t ∈ ts ∧ s.full e t = false ∧ ∀ q ∈ (s.eng e).ents, t ∉ tilesWritten q.w) ∧
  (∀ (i : Instr) (c : Cx) (w x : BitVec 64) (s : State), i.tileForm = some (c, w, x) →
    s.issues c w (legalTile w x) → s.gateMiss c.pos.key (firstTiles w) ≠ [] →
    Completes i s fun t =>
      t.ctx c.key = { s.ctx c.key with st := .late, miss := s.gateMiss c.pos.key (firstTiles w) } ∧
      (t.eng c.pos.key).ents = (s.eng c.pos.key).ents ∧ t.nextId = s.nextId ∧ s.issueFrame t c) ∧
  (∀ (c : Cx) (s : State), (s.ctx c.key).st = .late → s.gateMiss c.pos.key (s.ctx c.key).miss = [] →
    Completes (.contextResume c) s fun t =>
      (t.ctx c.key).st = (if (s.ctx c.key).stopped then .drain else .run) ∧ (t.ctx c.key).miss = [] ∧
      (∀ r, (t.ctx c.key).s r = (s.ctx c.key).s r) ∧ s.issueFrame t c) ∧
  ∀ (x : Engine) (p q : QEnt) (k : Nat), p ∈ x.ents → p.id < q.id → k ∈ tilesWritten p.w → k ∈ firstTiles q.w →
    x.holds q = true

/-- An illegal word, or one delivered with poison, stops the task with ABORTED, cause ILLEGAL (R98): NFAULT is written if
no cause stands, NSTAT's ABORTED bit sets, and the context drains. Beside what the fetch of the words records, nothing else
changes. -/
def Obligations.IllegalInstructionStopsTask : Prop :=
  ∀ (i : Instr) (c : Cx) (w x : BitVec 64) (s : State), i.tileForm = some (c, w, x) →
    s.mayIssue c.pos.key c.ctx.val = true → s.fenced c.pos.key c.ctx.val w = false →
    legalTile w x = false ∨ s.progPoison (s.ctx c.key) (wordsOf w) = true →
    Completes i s fun t =>
      (t.ctx c.key).st = .drain ∧ (t.ctx c.key).stopped = true ∧ (t.ctx c.key).code = .aborted ∧
      ((t.ctx c.key).s 31).getLsbD 30 = true ∧
      (((s.ctx c.key).s 30).toNat / 2 ^ 27 = 0 →
        (t.ctx c.key).s 30 = nfaultOf 0x10 (s.ctx c.key).pc 0) ∧
      (t.eng c.pos.key).ents = (s.eng c.pos.key).ents ∧ (s.progFetch c.pos.key c.ctx.val w).issueFrame t c

/-- LPSAMP takes effect at issue: mode 1 asks Loupe for a chain, modes 2 and 3 set and clear its hold, and it enters no
queue (R117, R119). While sampling is suspended the request waits (R304). -/
def Obligations.LoupeSampleAtIssue : Prop :=
  ∀ (c : Cx) (w : BitVec 56) (s : State), s.issues c (0x38#8 ++ w) (legalLPSAMP (0x38#8 ++ w)) →
    Completes (.lpsamp c w) s fun t =>
      let mode := bits64 (0x38#8 ++ w) 53 52
      let u := c.pos.clu
      let r := (c.pos.key, bits64 (0x38#8 ++ w) 51 49, bits64 (0x38#8 ++ w) 47 32)
      t.ctx c.key = (s.ctx c.key).past (0x38#8 ++ w) (s.nextTurn c.pos.key) ∧
      (t.eng c.pos.key).ents = (s.eng c.pos.key).ents ∧
      let free : Prop := (s.loupe u).armed = none ∧ s.sampling = true
      (mode = 1 → free → (t.loupe u).armed = some r) ∧
      (mode = 1 → ¬ free → (s.loupe u).queued = none → (t.loupe u).queued = some r) ∧
      (mode = 1 → ¬ free → (s.loupe u).queued ≠ none → (t.loupe u).dropped = (s.loupe u).dropped + 1) ∧
      (mode = 2 → (t.eng c.pos.key).loupeHold = true) ∧ (mode = 3 → (t.eng c.pos.key).loupeHold = false) ∧
      (mode ≠ 1 → ∀ v, t.loupe v = s.loupe v) ∧
      s.issueFrame { t with loupes := s.loupes } c

/-! ## Engines at work -/

/-- The head of a unit's queue starts once nothing earlier holds it, its operands are FULL and no check refuses it, the words
it reads having been checked (R185): it stands in each of its units with the scale word chosen at its start, and out of every
queue (R91, R92). One that a start check refuses completes with NUMERIC_FAULT and writes no tile and no accumulator (R33,
R103): NFAULT takes the cause while it holds none. -/
def Obligations.InstructionStarts : Prop :=
  (∀ (p : Pos) (u : Unit3) (q : QEnt) (s : State), let s1 := s.startReads p.key q
    (s.eng p.key).headOf u = some q → s.canRun p.key = true →
    (s.eng p.key).holds q = false → s.storeHolds p.key q = false → (∀ t ∈ firstTiles q.w, s.full p.key t = true) →
    ¬ (opc q.w = 0x20 ∧ alMODE q.w = 3) → s1.startCheck p.key q = none →
    Completes (.instructionStart p u) s fun t =>
      let q' : QEnt :=
        if opc q.w = 0x21 ∨ opc q.w = 0x30 ∨ isV (opc q.w) then { q with sw := (s1.destOf q).1.sw } else q
      (∀ d ∈ queuesOf q.w, (t.eng p.key).inUnit d = some q') ∧
      (∀ r ∈ (t.eng p.key).qA ++ (t.eng p.key).qB ++ (t.eng p.key).qV, r.id ≠ q.id) ∧
      (∀ a, t.byte a = s.byte a) ∧ (∀ k, t.reg k = s1.reg k) ∧ ∀ k, t.tileB k = s1.tileB k) ∧
  ∀ (p : Pos) (u : Unit3) (q : QEnt) (cause : Nat) (s : State), let s1 := s.startReads p.key q
    (s.eng p.key).headOf u = some q →
    s.canRun p.key = true → (s.eng p.key).holds q = false → s.storeHolds p.key q = false →
    (∀ t ∈ firstTiles q.w, s.full p.key t = true) → ¬ (opc q.w = 0x20 ∧ alMODE q.w = 3) →
    s1.startCheck p.key q = some cause →
    Completes (.instructionStart p u) s fun t =>
      (((s.ctx (4 * p.key + q.ctx)).s 30).toNat / 2 ^ 27 = 0 →
        (t.ctx (4 * p.key + q.ctx)).s 30 = nfaultOf cause q.pc 0) ∧
      ((t.ctx (4 * p.key + q.ctx)).s 31).getLsbD 31 = true ∧ (t.ctx (4 * p.key + q.ctx)).stopped = true ∧
      (∀ r ∈ (t.eng p.key).ents, r.id ≠ q.id) ∧ (∀ k, t.tileB k = s1.tileB k ∧ t.sideB k = s1.sideB k) ∧
      (∀ k, t.acc k = s.acc k ∧ t.head k = s.head k) ∧ (∀ a, t.byte a = s.byte a) ∧ ∀ k, t.reg k = s1.reg k

/-- A pair of a running TMAC enters (R67, R73, R76, R93, R103): every element of its accumulator tile takes the pair's
products, the header takes the pair, its registers lose FULL as the consume flags and the half say, and the pair counts;
the words it reads are checked first (R185). No other accumulator, no other tile data, no register but what that check counts
and no byte of memory changes. A TMAC whose last pair has entered, or a TMAC2 in its units, whose accumulators match their
residues, completes with DONE (R60, R81, R120): it leaves the engine, and its task's code, NFAULT and NSTAT stay. -/
def Obligations.TmacRuns : Prop :=
  (∀ (p : Pos) (u : Unit3) (q : QEnt) (s : State),
    let s1 := s.checkTiles p.key q [tmRegA q.w q.pair, tmRegB q.w q.pair]
    (s.eng p.key).inUnit u = some q → opc q.w = 0x10 →
    q.pair ≤ tmREP q.w → s.canRun p.key = true → s.full p.key (tmRegA q.w q.pair) = true →
    s.full p.key (tmRegB q.w q.pair) = true → s1.pairCheck p.key q.w q.pair = none →
    Completes (.tmacPairEntry p u) s fun t =>
      let e := p.key
      let a := tmACC q.w
      let fresh := tmOW q.w && q.pair == 0
      (∀ n, n < 1024 → t.el e a n =
        El.unpack (El.pack
          (if tmEight q.w then s1.pairEl8 e q.w q.pair (n / 32) (n % 32) (s.el e a n)
           else (s1.pairEl16 e (tmRegA q.w q.pair) (tmFMTA q.w) (tmHalf q.w q.pair) (!tmTRA q.w)
            (tmRegB q.w q.pair) (tmFMTB q.w) (tmHalf q.w q.pair) (tmTRB q.w) fresh (n / 32) (n % 32)
            (s.el e a n)).longsum (s1.pairHead e q.w q.pair)))) ∧
      (∀ k, k / 1024 ≠ 8 * e + a → t.acc k = s.acc k) ∧ t.head (8 * e + a) = (s1.pairHead e q.w q.pair).pack ∧
      (∀ k, k ≠ 8 * e + a → t.head k = s.head k) ∧
      ((tmCA q.w && ringDone q.w (tmFMTA q.w) q.pair) = true → t.full e (tmRegA q.w q.pair) = false) ∧
      ((tmCB q.w && ringDone q.w (tmFMTB q.w) q.pair) = true → t.full e (tmRegB q.w q.pair) = false) ∧
      (∀ d ∈ queuesOf q.w, (t.eng e).inUnit d = some { q with pair := q.pair + 1 }) ∧
      (∀ k, t.tileB k = s1.tileB k ∧ t.sideB k = s1.sideB k) ∧ (∀ a, t.byte a = s.byte a) ∧ ∀ k, t.reg k = s1.reg k) ∧
  ∀ (p : Pos) (u : Unit3) (q : QEnt) (s : State), (s.eng p.key).inUnit u = some q → s.canRun p.key = true →
    (opc q.w = 0x10 ∧ tmREP q.w < q.pair) ∨ opc q.w = 0x11 → (∀ a ∈ endAccs q, s.residueBad p.key a = none) →
    Completes (.instructionComplete p u) s fun t =>
      (∀ r ∈ (t.eng p.key).ents, r.id ≠ q.id) ∧
      (t.ctx (4 * p.key + q.ctx)).code = (s.ctx (4 * p.key + q.ctx)).code ∧
      (t.ctx (4 * p.key + q.ctx)).s 31 = (s.ctx (4 * p.key + q.ctx)).s 31 ∧
      (∀ r, r ≠ 31 → (t.ctx (4 * p.key + q.ctx)).s r = (s.ctx (4 * p.key + q.ctx)).s r) ∧
      (∀ k, t.tileB k = s.tileB k) ∧ (∀ k, t.acc k = s.acc k) ∧ (∀ a, t.byte a = s.byte a) ∧ ∀ k, t.reg k = s.reg k

/-! ## Scalar and control instructions -/

/-- A scalar arithmetic instruction that may issue and waits for no VAMAX writes x op y to RD at issue, with x 0 under Z
and RA otherwise and y the immediate under I and RB otherwise (R136). -/
def Obligations.ScalarArithmetic : Prop :=
  ∀ (c : Cx) (w : BitVec 56) (s : State) (r : Instr × BitVec 8 × (BitVec 32 → BitVec 32 → BitVec 32)),
    r ∈ ([(Instr.adds c w, 0x80#8, fun x y => x + y), (.subs c w, 0x81#8, fun x y => x - y),
      (.muls c w, 0x82#8, fun x y => x * y), (.ands c w, 0x83#8, fun x y => x &&& y),
      (.ors c w, 0x84#8, fun x y => x ||| y), (.xors c w, 0x85#8, fun x y => x ^^^ y),
      (.shls c w, 0x86#8, fun x y => x <<< (y.toNat % 32)), (.shrs c w, 0x87#8, fun x y => x >>> (y.toNat % 32)),
      (.sras c w, 0x88#8, fun x y => x.sshiftRight (y.toNat % 32))] :
        List (Instr × BitVec 8 × (BitVec 32 → BitVec 32 → BitVec 32))) →
    s.issues c (r.2.1 ++ w) (legalScalar (r.2.1 ++ w)) →
    (∀ k, (s.eng c.pos.key).scalarBusy c.ctx.val k = false) →
    Completes r.1 s fun t =>
      let w' : BitVec 64 := r.2.1 ++ w
      let x := if scZ w' then 0 else (s.ctx c.key).s (scRA w')
      let y := if scI w' then scIMM w' else (s.ctx c.key).s (scRB w')
      (t.ctx c.key).s (scRD w') = r.2.2 x y ∧
      (∀ k, k ≠ scRD w' → (t.ctx c.key).s k = (s.ctx c.key).s k) ∧
      (t.ctx c.key).pc = (s.ctx c.key).pc + 1 ∧ (t.ctx c.key).st = .run ∧ s.issueFrame t c

/-- BR, LOOP and END (R137): a taken BR goes OFS words from itself and any other to the next word; LOOP takes 1 off its
register and branches while it is not 0; END drains the context. -/
def Obligations.ControlFlow : Prop :=
  ∀ (c : Cx) (w : BitVec 56) (s : State), (∀ k, (s.eng c.pos.key).scalarBusy c.ctx.val k = false) →
    let x := s.ctx c.key
    let goal (w' : BitVec 64) : Nat := (((x.pc : Int) + brOFS w') % 2 ^ 61).toNat
    (s.issues c (0x90#8 ++ w) (legalBR (0x90#8 ++ w)) → Completes (.br c w) s fun t =>
      (t.ctx c.key).pc = (if brTaken x (0x90#8 ++ w) then goal (0x90#8 ++ w) else x.pc + 1) ∧
      (t.ctx c.key).st = .run ∧ (∀ k, (t.ctx c.key).s k = x.s k) ∧ s.issueFrame t c) ∧
    (s.issues c (0x91#8 ++ w) (legalLOOP (0x91#8 ++ w)) → Completes (.loop c w) s fun t =>
      (t.ctx c.key).s (brRA (0x91#8 ++ w)) = x.s (brRA (0x91#8 ++ w)) - 1 ∧
      (∀ k, k ≠ brRA (0x91#8 ++ w) → (t.ctx c.key).s k = x.s k) ∧
      (t.ctx c.key).pc = (if x.s (brRA (0x91#8 ++ w)) = 1 then x.pc + 1 else goal (0x91#8 ++ w)) ∧
      (t.ctx c.key).st = .run ∧ s.issueFrame t c) ∧
    (s.issues c (0x92#8 ++ w) (legalEND (0x92#8 ++ w)) → Completes (.endTask c w) s fun t =>
      (t.ctx c.key).st = .drain ∧ (∀ k, (t.ctx c.key).s k = x.s k) ∧ s.issueFrame t c)

/-- LDS waits for its word, LDS_RETURN brings it, and STS stores RB, at x + IMM of the cluster's staging buffer, a multiple
of 4 below 4 MiB (R136). A poisoned word loads its bits, sets NSTAT.POISON and contributes POISONED. -/
def Obligations.StagingLoadStore : Prop :=
  ∀ (c : Cx) (w : BitVec 56) (s : State), (∀ k, (s.eng c.pos.key).scalarBusy c.ctx.val k = false) →
    let x := s.ctx c.key
    let off (w' : BitVec 64) : BitVec 32 := (if scZ w' then 0 else x.s (scRA w')) + scIMM w'
    let ok (w' : BitVec 64) : Prop := (off w').toNat % 4 = 0 ∧ (off w').toNat < 0x400000
    (s.issues c (0x8C#8 ++ w) (legalLdSt (0x8C#8 ++ w) false) → ok (0x8C#8 ++ w) → Completes (.lds c w) s fun t =>
      (t.ctx c.key).st = .wait ∧ (t.ctx c.key).why = 6 ∧
      (t.ctx c.key).lds = some ((off (0x8C#8 ++ w)).toNat, scRD (0x8C#8 ++ w)) ∧ s.issueFrame t c) ∧
    (∀ o rd, x.lds = some (o, rd) → Completes (.ldsReturn c) s fun t =>
      (rd ≠ 31 → (t.ctx c.key).s rd = (s.stgW c.pos.clu o).v) ∧ (t.ctx c.key).lds = none ∧
      (t.ctx c.key).st = (if x.stopped then .drain else .run) ∧
      ((s.stgW c.pos.clu o).p = true →
        ((t.ctx c.key).s 31).getLsbD 29 = true ∧ (t.ctx c.key).code = x.code.max .poisoned) ∧
      (∀ k, k ≠ rd → k ≠ 31 → (t.ctx c.key).s k = x.s k) ∧ ∀ a, t.byte a = s.byte a) ∧
    (s.issues c (0x8D#8 ++ w) (legalLdSt (0x8D#8 ++ w) true) → ok (0x8D#8 ++ w) → Completes (.sts c w) s fun t =>
      let o := (off (0x8D#8 ++ w)).toNat
      t.stgW c.pos.clu o = ⟨x.s (scRB (0x8D#8 ++ w)), false⟩ ∧
      (∀ v i, ¬ (v * 0x400000 + i ∈ (List.range 4).map (c.pos.clu * 0x400000 + o + ·)) → t.stgB v i = s.stgB v i) ∧
      (t.ctx c.key).pc = x.pc + 1 ∧ (∀ k, (t.ctx c.key).s k = x.s k) ∧ ∀ a, t.byte a = s.byte a)

/-! ## Semaphores and barriers -/

/-- SWAIT on a semaphore with no waiter (R138, R140): a value of at least N is reduced by N and the context goes on; below
N the context waits at the semaphore. -/
def Obligations.SemaphoreWait : Prop :=
  ∀ (c : Cx) (w : BitVec 56) (s : State) (l : Nat), s.issues c (0xA0#8 ++ w) (legalSWAIT (0xA0#8 ++ w)) →
    s.slotOf c.pos.key = some l → s.engineOf l = some c.pos.key →
    s.waiters (256 * c.pos.clu + sgSEM (0xA0#8 ++ w)) = [] →
    Completes (.swait c w) s fun t =>
      let k := sgSEM (0xA0#8 ++ w)
      let n := sgN (0xA0#8 ++ w)
      let v := s.fget (F.STR_SEM_VALUE c.pos.clu k)
      (t.ctx c.key).pc = (s.ctx c.key).pc + 1 ∧ (∀ r, (t.ctx c.key).s r = (s.ctx c.key).s r) ∧
      (n ≤ v → (t.ctx c.key).st = .run ∧ t.fget (F.STR_SEM_VALUE c.pos.clu k) = v - n ∧
        t.waiters (256 * c.pos.clu + k) = []) ∧
      (v < n → (t.ctx c.key).st = .wait ∧ (t.ctx c.key).why = 1 ∧ (t.ctx c.key).wid = k ∧
        t.fget (F.STR_SEM_VALUE c.pos.clu k) = v ∧ t.waiters (256 * c.pos.clu + k) = [.ctx l c.ctx.val n]) ∧
      (∀ i, i ≠ Reg.STR_SEM c.pos.clu k → t.reg i = s.reg i) ∧ ∀ a, t.byte a = s.byte a

/-- SSIG leaves a signal pending that waits for all earlier work of its context, and SSIG_RELEASE applies the oldest one
once that work has completed (R139): N is added to the semaphore, and a sum above 0xFFFF saturates and sets OVF. -/
def Obligations.SemaphoreSignal : Prop :=
  ∀ (c : Cx) (s : State),
    (∀ w : BitVec 56, s.issues c (0xA1#8 ++ w) (legalSSIG (0xA1#8 ++ w)) → (s.ctx c.key).pend.length < 4 →
      Completes (.ssig c w) s fun t =>
        let w' : BitVec 64 := 0xA1#8 ++ w
        let u := if sgLOCAL w' then c.pos.clu else 24 * sgDIE w' + sgCLU w'
        (t.ctx c.key).pend = (s.ctx c.key).pend ++ [{ clu := u, sem := sgSEM w', n := sgN w', upto := s.nextId }] ∧
        (t.ctx c.key).st = .run ∧ (t.ctx c.key).pc = (s.ctx c.key).pc + 1 ∧ s.issueFrame t c) ∧
    ∀ p ps, (s.ctx c.key).pend = p :: ps → s.workBelow c.pos.key c.ctx.val p.upto = false →
      s.waiters (256 * p.clu + p.sem) = [] →
      Completes (.ssigRelease c) s fun t =>
        let v := s.fget (F.STR_SEM_VALUE p.clu p.sem) + p.n
        (t.ctx c.key).pend = ps ∧ t.fget (F.STR_SEM_VALUE p.clu p.sem) = min v 0xFFFF ∧
        (t.flag (F.STR_SEM_OVF p.clu p.sem) = (s.flag (F.STR_SEM_OVF p.clu p.sem) || decide (0xFFFF < v))) ∧
        (∀ i, i ≠ Reg.STR_SEM p.clu p.sem → t.reg i = s.reg i) ∧ (∀ k, k ≠ c.key → t.ctx k = s.ctx k) ∧
        ∀ a, t.byte a = s.byte a

/-- BAR (R141): the first arrival opens the barrier with its COUNT, and the last one of a cluster barrier resumes every
arrived context and closes it. -/
def Obligations.BarrierArrival : Prop :=
  ∀ (c : Cx) (w : BitVec 56) (s : State) (l : Nat), s.issues c (0xA2#8 ++ w) (legalBAR (0xA2#8 ++ w)) →
    s.slotOf c.pos.key = some l → s.engineOf l = some c.pos.key →
    let w' : BitVec 64 := 0xA2#8 ++ w
    let id := barIdOf (brrSCOPE w') (brrBID w') c
    (s.bar? (openBar id) = none → 1 < brrCOUNT w' → Completes (.bar c w) s fun t =>
      t.bars = s.bars ++ [(id, { count := brrCOUNT w', arr := [(l, c.ctx.val)] })] ∧ (t.ctx c.key).st = .wait ∧
      (t.ctx c.key).why = 2 ∧ (t.ctx c.key).wid = brrBID w' ∧ (t.ctx c.key).pc = (s.ctx c.key).pc + 1 ∧
      s.issueFrame { t with bars := s.bars } c) ∧
    ∀ b, s.bar? (openBar id) = some b → brrSCOPE w' = 0 → b.count = brrCOUNT w' → b.arr.length + 1 = b.count →
      Completes (.bar c w) s fun t =>
        (t.ctx c.key).st = .run ∧ (t.ctx c.key).pc = (s.ctx c.key).pc + 1 ∧
        (∀ m ∈ b.arr, ∀ e, s.engineOf m.1 = some e → 4 * e + m.2 ≠ c.key → (s.ctx (4 * e + m.2)).stopped = false →
          (t.ctx (4 * e + m.2)).st = .run) ∧
        (∀ k, t.reg k = s.reg k) ∧ ∀ a, t.byte a = s.byte a

/-! ## Streams -/

/-- SFETCH and SSTORE with a valid descriptor of their direction take the lowest free transfer slot, once no earlier batch has
descriptors still to start, and go on; the slot is ACTIVE, or HELD while its tile is not ready (R181); SDESC adds its batch
while fewer than two stand (R142, R144, R145). Memory does not change. -/
def Obligations.StreamsStart : Prop :=
  ∀ (c : Cx) (w : BitVec 56) (s : State) (l : Nat), s.slotOf c.pos.key = some l →
    (∀ k, (s.eng c.pos.key).scalarBusy c.ctx.val k = false) →
    (∀ r ∈ ([(Instr.sfetch c w, 0xB0#8, false), (.sstore c w, 0xB1#8, true)] : List (Instr × BitVec 8 × Bool)),
      let d := regDesc (s.ctx c.key) (stRS (r.2.1 ++ w))
      s.issues c (r.2.1 ++ w) (legalStream (r.2.1 ++ w)) → d.valid = true → d.store = r.2.2 →
      ∀ n, s.openSlot l = some n → Completes r.1 s fun t =>
        let x := t.xfer (6 * l + n)
        x.st = (if s.notReady c.pos.key x then .held else .active) ∧ x.id = s.nextId ∧ x.ctx = c.ctx.val ∧
        x.unit = 0 ∧ x.desc = d ∧ x.last = s.now ∧
        t.nextId = s.nextId + 1 ∧ (t.ctx c.key).pc = (s.ctx c.key).pc + 1 ∧ (t.ctx c.key).st = .run ∧
        (∀ k, k ≠ 6 * l + n → { t.xfer k with st := (s.xfer k).st } = s.xfer k) ∧ (∀ a, t.byte a = s.byte a) ∧
        ∀ k, t.tileB k = s.tileB k) ∧
    ∀ x : BitVec 64, s.issues c (0xB2#8 ++ w) (legalSDESC (0xB2#8 ++ w) x && s.own (pkgOf x)) →
      (s.batch l).length < 2 → Completes (.sdesc c w x) s fun t =>
        t.batch l = s.batch l ++ [{ id := s.nextId, ctx := c.ctx.val, pc := (s.ctx c.key).pc, addr := x,
                                    count := sdCOUNT (0xB2#8 ++ w) }] ∧
        t.nextId = s.nextId + 1 ∧ (t.ctx c.key).pc = (s.ctx c.key).pc + 2 ∧
        s.issueFrame { t with batches := s.batches } c

/-- A burst fetches up to 16 descriptors of a batch while fewer than four stand unstarted, and a ready descriptor starts
in array order in a free slot, the earlier batch first (R145). -/
def Obligations.DescriptorsFetchAndStart : Prop :=
  ∀ (p : LPos) (s : State),
    (∀ (i : Fin 2) e b, s.engineOf p.key = some e → (s.batch p.key)[i.val]? = some b → b.bad = false →
      b.fetched < b.count → b.ready.length < 4 →
      s.memWaits (b.addr.toNat % 2 ^ 48 + 32 * b.fetched) = false →
      s.edgeWaits e true (b.addr.toNat % 2 ^ 48 + 32 * b.fetched) = false →
      Completes (.descriptorBurstFetch p i) s fun t =>
        t.batch p.key = ((s.batch p.key).set i.val (s.burst e b 16).1).filter (fun b => !b.over) ∧
        ((s.burst e b 16).1.bad = true → (t.ctx (4 * e + b.ctx)).code = .aborted ∧
          (t.ctx (4 * e + b.ctx)).stopped = true) ∧
        ∀ a, t.byte a = s.byte a) ∧
    ∀ e n i b d0 d1 d2 d3, s.engineOf p.key = some e → s.slotOf e = some p.key → s.freeSlot p.key = some n →
      nextReady (s.batch p.key) 0 = some (i, b, d0, d1, d2, d3) → Completes (.descriptorStart p) s fun t =>
        let x := t.xfer (6 * p.key + n)
        x.st = (if s.notReady e x then .held else .active) ∧ x.id = b.id ∧ x.ctx = b.ctx ∧ x.batch = some b.id ∧
        x.unit = 0 ∧ x.desc = ⟨d0, d1, d2, d3⟩ ∧
        t.batch p.key =
          (s.batch p.key).set i { b with ready := b.ready.drop 1, started := b.started + 1 } ∧
        ∀ a, t.byte a = s.byte a

/-- The last row of a single-tile fetch from this package's memory (R144, R182): the delivered words stand in the tile
row, the tile takes the descriptor's format and becomes FULL, and the slot has moved every unit. No byte of memory
changes. -/
def Obligations.FetchFillsTile : Prop :=
  ∀ (p : LPos) (n : Fin 6) (s : State) (e : Nat), s.engineOf p.key = some e →
    let x := s.xfer (6 * p.key + n.val)
    let d := x.desc
    let ws := (s.readN (s.engSrc e x.ctx x.op x.pc) (pkgOf (x.gaddr 31)) ((x.gaddr 31).toNat % 2 ^ 48) 16).1
    x.st ≠ .free → x.st ≠ .stalled → x.acc = none → d.store = false → d.lkind = 0 → d.rows = 32 → d.rlog = 0 →
    d.tr = false → d.scl = false → d.shd = false → x.unit = 31 → s.local x = true →
    s.unitWaits e p.key x = false →
    ∀ i ∈ [Instr.streamDataArrival p n, .streamTileFill p n], Completes i s fun t =>
      (t.xfer (6 * p.key + n.val)).unit = 32 ∧ (t.xfer (6 * p.key + n.val)).st = .active ∧
      (∀ b, b < 64 → t.tileB ((64 * e + d.tile) * 2048 + 1984 + b) =
        ((ws.getD (b / 4) poisonWord).v.extractLsb' (8 * (b % 4)) 8)) ∧
      (∀ k, ¬ ((64 * e + d.tile) * 2048 + 1984 ≤ k ∧ k < (64 * e + d.tile + 1) * 2048) → t.tileB k = s.tileB k) ∧
      (t.tag (64 * e + d.tile)).full = true ∧ (t.tag (64 * e + d.tile)).fmt = BitVec.ofNat 3 d.fmt ∧
      ∀ a, t.byte a = s.byte a

/-- A transfer that has moved every unit completes (R145, R146): its slot is FREE, and SIG adds 1 to its cluster's
semaphore. -/
def Obligations.TransferCompletes : Prop :=
  ∀ (p : LPos) (n : Fin 6) (s : State) (e : Nat), s.engineOf p.key = some e →
    let x := s.xfer (6 * p.key + n.val)
    x.st ≠ .free → x.acc = none → x.total ≤ x.unit → x.batch = none →
    (∀ r ∈ s.rtx, ¬ (r.id = x.id ∧ r.l = p.key ∧ r.slot = n.val)) → s.waiters (256 * (e / 17) + x.desc.sem) = [] →
    Completes (.transferComplete p n) s fun t =>
      (t.xfer (6 * p.key + n.val)).st = .free ∧ (∀ k, k ≠ 6 * p.key + n.val → t.xfer k = s.xfer k) ∧
      (x.desc.sig = true → x.dropping = false →
        t.fget (F.STR_SEM_VALUE (e / 17) x.desc.sem) =
          min (s.fget (F.STR_SEM_VALUE (e / 17) x.desc.sem) + 1) 0xFFFF) ∧
      (x.desc.sig = false → ∀ k, t.reg k = s.reg k) ∧ (∀ k, t.tileB k = s.tileB k) ∧ ∀ a, t.byte a = s.byte a

/-- A slot that makes no progress for the stall limit is STALLED with its cause, which the cluster captures, and one that
reaches the starvation time files its one record (R182, R183); nothing is discarded. -/
def Obligations.StallsAreRecorded : Prop :=
  ∀ (p : LPos) (n : Fin 6) (s : State) (e : Nat), s.engineOf p.key = some e →
    let x := s.xfer (6 * p.key + n.val)
    (x.st = .active ∨ x.st = .held → Completes (.streamStall p n) s fun t =>
      let c := s.xferCause e x
      t.xfer (6 * p.key + n.val) = { x with st := .stalled, cause := c } ∧
      t.reg (Reg.STR_LAST_STALL (e / 17)) =
        BitVec.ofNat 32 (2 ^ 31 + e % 17 * 2 ^ 26 + n.val * 2 ^ 23 + c * 2 ^ 19) ∧
      (∀ k, t.tileB k = s.tileB k) ∧ ∀ a, t.byte a = s.byte a) ∧
    (x.st = .stalled → x.starved = false → Completes (.streamStarvation p n) s fun t =>
      t.xfer (6 * p.key + n.val) = { x with starved := true } ∧
      (∀ k, t.tileB k = s.tileB k) ∧ ∀ a, t.byte a = s.byte a)

/-! ## Collectives and the tree's slots -/

/-- CRED, CGATH, CSCAT and CNORM on a LOCAL group (R149, R250, R402): with a free collective slot, a group entry whose
words read good and a descriptor that passes its checks, the instruction takes the slot, counts on its group and joins
that instance with what it read; its context goes on. Memory does not change. -/
def Obligations.CollectiveJoins : Prop :=
  ∀ (c : Cx) (w : BitVec 56) (x : BitVec 64) (s : State) (l n m : Nat) (d0 d1 d2 d3 : BitVec 64),
    ∀ r ∈ ([(Instr.cred c w x, 0xC0#8, 0), (.cgath c w x, 0xC1#8, 1), (.cscat c w x, 0xC2#8, 2),
        (.cnorm c w x, 0xC3#8, 3)] : List (Instr × BitVec 8 × Nat)),
      s.issues c (r.2.1 ++ w) (legalColl (r.2.1 ++ w) x) → s.slotOf c.pos.key = some l →
      (List.range 2).find? (fun i => (s.coll (2 * l + i)).id == 0) = some n → s.fnOff 4 0 0 = false →
      (s.readColl (s.engSrc c.pos.key c.ctx.val (opc (r.2.1 ++ w)) (s.ctx c.key).pc) x).1 = some (d0, d1, d2, d3) →
      s.grpBad (cdGROUP d2) = [] → s.collCheck l r.2.2 d2 d3 = some m → s.grpLocal (cdGROUP d2) = true → cdFMT d2 ≤ 1 →
      let i := Sparse.get (fun _ => 0) s.issued (cdGROUP d2 * 2 ^ 16 + m)
      let k := instKey (cdGROUP d2) (i % 2 ^ 16)
      (s.inst k).joined = [] → (s.inst k).bad = false → (s.inst k).cancelled = false →
      Completes r.1 s fun t =>
        (t.inst k).joined = [(m, 2 * l + n)] ∧ (t.inst k).op = r.2.2 ∧ (t.inst k).count = cdCOUNT d2 ∧
        t.coll (2 * l + n) = { id := s.nextId, ctx := c.ctx.val, pc := (s.ctx c.key).pc, op := r.2.2, d0 := d0, d1 := d1,
                               d2 := d2, d3 := d3, member := m, inst := i % 2 ^ 16, at_ := s.now } ∧
        Sparse.get (fun _ => 0) t.issued (cdGROUP d2 * 2 ^ 16 + m) = i + 1 ∧
        (t.ctx c.key).pc = (s.ctx c.key).pc + 2 ∧ (t.ctx c.key).st = .run ∧ ∀ a, t.byte a = s.byte a

/-- Slots of a collective none of whose members here has joined yet (R252, R253, R254, R256, R259): a child's data and
statistics are kept, the parent's data is kept, a withdrawal cancels the instance at the root; and a slot from a package
that is no child only counts as stray. -/
def Obligations.CollectiveSlotsAreKept : Prop :=
  ∀ (s : State),
    (∀ d : CSlot, let k := instKey d.group.toNat d.inst.toNat
      d.group.toNat < 4096 → s.grpBad d.group.toNat = [] → s.grpValid d.group.toNat = true → (s.inst k).joined = [] →
      (s.inst k).cancelled = false →
      ((s.kids d.group.toNat).contains d.src.toNat = true → (s.inst k).rooted = false →
        (∀ u ∈ (s.inst k).ups, ¬ (u.src = d.src ∧ u.ofs = d.ofs)) →
        Completes (.collectiveUpData d) s fun t => (t.inst k).ups = (s.inst k).ups ++ [d] ∧ ∀ a, t.byte a = s.byte a) ∧
      (s.parent d.group.toNat = some d.src.toNat → (∀ q ∈ (s.inst k).downs, q.ofs ≠ d.ofs) → (s.inst k).left = [] →
        s.ownMembers d.group.toNat ≠ [] →
        Completes (.collectiveDownData d) s fun t =>
          (t.inst k).downs = (s.inst k).downs ++ [d] ∧ ∀ a, t.byte a = s.byte a)) ∧
    (∀ d : CSlot, d.group.toNat < 4096 → s.grpBad d.group.toNat = [] → s.grpValid d.group.toNat = true →
      (s.kids d.group.toNat).contains d.src.toNat = false →
      Completes (.collectiveUpData d) s fun t =>
        t.fget F.CLV_STATUS_STRAY = min (2 ^ F.CLV_STATUS_STRAY.width - 1) (s.fget F.CLV_STATUS_STRAY + 1) ∧
        { t with regs := s.regs } = s) ∧
    (∀ d : StatSlot, let k := instKey d.group.toNat d.inst.toNat
      d.group.toNat < 4096 → s.grpBad d.group.toNat = [] → s.grpValid d.group.toNat = true → d.down = false →
      (s.inst k).joined = [] →
      (s.inst k).cancelled = false → (s.kids d.group.toNat).contains d.src.toNat = true →
      (∀ u ∈ (s.inst k).stats, u.src ≠ d.src) →
      Completes (.collectiveStatistics d) s fun t =>
        (t.inst k).stats = (s.inst k).stats ++ [d] ∧ ∀ a, t.byte a = s.byte a) ∧
    ∀ (g : BitVec 12) (i src : BitVec 16), let k := instKey g.toNat i.toNat
      s.grpBad g.toNat = [] → s.grpValid g.toNat = true → (s.kids g.toNat).contains src.toNat = true →
      s.parent g.toNat = none →
      (s.inst k).rooted = false → (s.inst k).cancelled = false → (s.inst k).joined = [] → (s.inst k).left = [] →
      s.ownMembers g.toNat ≠ [] →
      Completes (.collectiveWithdraw g i src) s fun t => (t.inst k).cancelled = true ∧ ∀ a, t.byte a = s.byte a

/-- A member whose time limit passes completes with TIMEOUT and gives up its slot (R258), and a CGATH of saved images over
a LOCAL group of one member delivers them and completes (R148, R254). -/
def Obligations.MembersComplete : Prop :=
  ∀ (s : State) (p : LPos) (n : Fin 2) (e : Nat), s.engineOf p.key = some e →
    let key := 2 * p.key + n.val
    let y := s.coll key
    let g := cdGROUP y.d2
    let k := instKey g y.inst
    (s.fget F.CLV_CFG_TLIM ≠ 0 → s.fget F.CLV_CFG_TLIM * 1000000 ≤ (s.now - y.at_).toNat →
      y.id ≠ 0 → (s.inst k).joined = [(y.member, key)] → (s.inst k).left = [] →
      Completes (.collectiveTimeout p n) s fun t =>
        t.coll key = {} ∧ (t.ctx (4 * e + y.ctx)).code = (s.ctx (4 * e + y.ctx)).code.max .timeout) ∧
    (∀ (gg : BitVec 12) (i : BitVec 16) (ws : List MWord), y.inst = i.toNat → g = gg.toNat →
      s.grpLocal g = true → s.grpNmem g = 1 → (s.inst k).bad = false → (s.inst k).cancelled = false →
      (s.inst k).hurt = false → (s.inst k).joined = [(0, key)] → (s.inst k).left = [] → (s.inst k).fmt = 8 →
      (s.inst k).op = 1 → imageResult (s.inst k) 1 0 = some ws →
      Completes (.localCollectiveDone gg i) s fun t =>
        let s1 := s.setInst k { s.inst k with rooted := true }
        t.coll key = {} ∧ (∀ a, t.byte a = (s1.writeImages (s1.collSrc key) y.d1 ws).byte a) ∧
        (t.ctx (4 * e + y.ctx)).code =
          (s.ctx (4 * e + y.ctx)).code.max (if imagePoison (s.inst k) 1 0 then .poisoned else .done))

/-- The job barrier's slots, the release instant and the start waves on a package whose one barrier is `x` (R267 to R270,
R273): a child's arrival opens it, a release fixes its instant and records its notice, a withdrawal takes a child's
arrival back, the instant passes, and each wave's contexts resume when their turn has come. -/
def Obligations.BarrierSlotsAndWaves : Prop :=
  ∀ (s : State) (b : BarSlot) (src : BitVec 16) (id : BarId) (x : Bar),
    (s.bars = [] → b.group.toNat = s.jobGrp → (s.kids s.jobGrp).contains src.toNat = true →
      Completes (.barrierArrivalSlot src b) s fun t =>
        t.bars = [(.job b.bid, { kids := [(src, b)] })] ∧ { t with bars := s.bars } = s) ∧
    (s.bars = [(.job b.bid, x)] → x.rel = none → x.own.isSome = true → b.group.toNat = s.jobGrp →
      Completes (.barrierReleaseSlot b) s fun t =>
        t.bars = [(.job b.bid, { x with rel := some (if b.time.toNat < s.now.toNat ∨
          s.flag F.CLV_TB_STATUS_ALIGNED = false then s.now else b.time) })] ∧
        t.reg Reg.CLV_PEER_PACE = 1#1 ++ 0#3 ++ b.cause ++ b.step ++ 0#4 ++ b.pkg ∧ ∀ a, t.byte a = s.byte a) ∧
    (s.bars = [(.job b.bid, x)] → x.rel = none → x.own.isSome = true → x.up = false → b.group.toNat = s.jobGrp →
      (s.kids s.jobGrp).contains src.toNat = true →
      Completes (.barrierWithdrawSlot src b) s fun t =>
        t.bars = [(.job b.bid, { x with kids := without x.kids src })] ∧ { t with bars := s.bars } = s) ∧
    (∀ r, s.bars = [(id, x)] → x.released = false → x.rel = some r → r.toNat ≤ s.now.toNat →
      Completes (.releaseInstant id) s fun t =>
        t.bars = [(id, { x with released := true })] ∧ { t with bars := s.bars } = s) ∧
    ∀ (w : Fin 16) (r : BitVec 64), s.bars = [(id, x)] → x.released = true → x.rel = some r →
      r.toNat + w.val * s.fget F.CLV_WAVE_PERIOD ≤ s.now.toNat → (∃ m ∈ x.arr, s.waveOf m.1 = w.val) →
      Completes (.startWave id w) s fun t =>
        (∀ m ∈ x.arr, s.waveOf m.1 = w.val → ∀ e, s.engineOf m.1 = some e →
          (s.ctx (4 * e + m.2)).stopped = false → (t.ctx (4 * e + m.2)).st = .run) ∧
        t.bars = (if x.arr.all (fun m => s.waveOf m.1 == w.val) then []
          else [(id, { x with arr := x.arr.filter fun m => s.waveOf m.1 != w.val })]) ∧
        (∀ k, t.reg k = s.reg k) ∧ ∀ a, t.byte a = s.byte a

/-! ## The update -/

/-- The running UPDATE's steps (R215, R217, R219): finite norms give its clip factors; a chunk in service holds its writes
in Plinth; its release writes the buffered copies; the serving Riffler then writes its own; of the root computations that
run, the oldest of its entry and unit is marked finished. -/
def Obligations.UpdateSteps : Prop :=
  ∀ (s : State) (u : Upd) (k : ChunkId), s.upd = some u →
    (∀ n2, u.clip = none → u.halt = none → u.skipped = false → u.fin.length < u.total →
      (normVals u.step (s.readG u.pay.w3 (2 * bits64 u.pay.w2 63 56)).1).all Option.isSome = true →
      n2 = r32 (((normVals u.step (s.readG u.pay.w3 (2 * bits64 u.pay.w2 63 56)).1).filterMap fun v => v).foldl
        Machine.Num.add .zero) →
      n2.finite = true → n2.isNeg = false → Completes .updateNormReady s fun t =>
        t.upd.map (·.clip) =
          some (some (u.rules.map fun r => (r.1, f32code (clipOf (Rule.f r.2 4) n2)))) ∧
        t.upd.map (·.n2) = some (f32code n2) ∧ ∀ a, t.byte a = s.byte a) ∧
    (∀ ch s', u.clip.isSome = true → u.halt = none → s.chunkFree u k = true → 3 ≤ s.rifCount →
      s.rifUp (homeOf k.unit) = true → s.running = true → s.power.l4 = false →
      (u.act.filter (·.rif == homeOf k.unit)).length < s.inflight → s.awaitsRoot u k = false →
      u.serve s (homeOf k.unit) k = (some ch, s') → Completes (.chunkDispatch k) s fun t =>
        t.upd = some { u with act := u.act ++ [ch] } ∧ ∀ a, t.byte a = s'.byte a) ∧
    (∀ c, u.act.find? (fun c => c.id == k) = some c → c.already = false → s.rifOut = [] →
      Completes (.chunkRelease k) s fun t =>
        let s1 := s.settleChunk k
        (∀ a, t.byte a = ((s1.writeAll c.rif 0 c.buf).writeAll c.rif 0 (c.oth.getD [])).byte a) ∧
        t.upd.map (·.fin) = some (u.fin ++ [k]) ∧ t.upd.map (·.act) = some (u.act.filter (·.id ≠ k)) ∧
        t.owns = s.owns ++ [c]) ∧
    (∀ c, s.owns.find? (fun c => c.id == k) = some c → u.act ≠ [] → Completes (.chunkOwnCopy k) s fun t =>
      t.owns = s.owns.filter (·.id ≠ k) ∧
      ∀ a, t.byte a = ({ s with owns := s.owns.filter (·.id ≠ k) }.writeAll c.rif 0 c.own).byte a) ∧
    ∀ (e : BitVec 12) (un : Nat),
      let other (x : Root) : Prop := x.ent ≠ e.toNat ∨ x.unit ≠ un ∨ x.fin = true
      ((∀ x ∈ s.roots, other x) → Completes (.rootDone e un) s fun t =>
        t.roots = s.roots ∧ { t with regs := s.regs } = s) ∧
      ∀ (i : Nat) (r : Root), s.roots[i]? = some r → r.ent = e.toNat → r.unit = un → r.fin = false →
        (∀ x ∈ s.roots.take i, other x) → Completes (.rootDone e un) s fun t =>
          t.roots = s.roots.set i { r with fin := true } ∧ t.flag F.RIF_ROOT_BUSY = t.roots.any (!·.fin) ∧
          { t with regs := s.regs, roots := s.roots } = s

/-- A fault takes a serving Riffler out of service, and one that is out, neither retired nor disabled and with an open
edge, returns to UP (R220, R224). -/
def Obligations.RifflersLeaveAndReturn : Prop :=
  ∀ (s : State) (n : Fin 4),
    (s.rifUp n = true → s.upd = none → s.roots = [] → s.owns = [] → Completes (.rifflerLeave n) s fun t =>
      t.fget (F.RIF_STATUS_STATE n) = 3 ∧ (t.fget F.RIF_PKG_STATUS_OUT).testBit n = true ∧
      (t.fget F.PLN_DIE_MAP_RIF_ACTIVE).testBit n = false ∧ t.rifOut = s.rifOut ++ [(n.val, true)] ∧
      ∀ a, t.byte a = s.byte a) ∧
    (s.fget (F.RIF_STATUS_STATE n) = 3 → s.rifEdgeOpen n = true → s.gone.contains (0x10000 + n.val) = false →
      s.rifDisabled n = false → Completes (.rifflerReturn n) s fun t =>
      t.fget (F.RIF_STATUS_STATE n) = 1 ∧ (t.fget F.RIF_PKG_STATUS_OUT).testBit n = false ∧
      (t.fget F.PLN_DIE_MAP_RIF_ACTIVE).testBit n = true ∧ t.rifOut = s.rifOut.filter (·.1 ≠ n.val) ∧
      ∀ a, t.byte a = s.byte a)

/-! ## The command queues -/

/-- NOP and the phase write run from their ring slot to their completion record at once (R153, R159, R161, R195): the
queue's HEAD and SEQ move on, the record holds SEQ and code DONE under the ring's phase bit, no other byte of memory
changes, and a phase write of an Armature queue puts its phase in force. -/
def Obligations.NopAndPhaseWriteCommit : Prop :=
  ∀ (s : State) (q : Fin 16) (h : BitVec 64) (p : Payload),
    (∀ j, j < 8 → s.readable (s.recordAt q + 4 * j) = true) →
    let phase := 1 - (s.cq q).recs / s.entries q % 2
    let ends (t : State) : Prop :=
      (t.cq q).next = some (hdSEQ h + 1) ∧ (t.cq q).read = [] ∧ (t.cq q).infl = [] ∧
      (t.cq q).recs = ((s.cq q).recs + 1) % 2 ^ 20 ∧ t.stored (s.recordAt q) = ⟨hdSEQ h, false⟩ ∧
      ∀ a, a < s.recordAt q ∨ s.recordAt q + 32 ≤ a → t.byte a = s.byte a
    (hdCMD h = 0 → s.accepts q h p → Completes (.nop q h p) s fun t =>
      ends t ∧ t.stored (s.recordAt q + 4) = ⟨BitVec.ofNat 32 (phase * 2 ^ 23), false⟩) ∧
    (hdCMD h = 0x0A → s.accepts q h { p with w1 := 0xFFFF030000000300 } → s.flag (F.PLN_CQ_CFG_OWNER q) = true →
      p.w2.toNat % 2 ^ 30 = 0 → p.w2.toNat % 2 ^ 32 / 2 ^ 30 ≠ 3 → Completes (.phaseWrite q h p) s fun t =>
        ends t ∧ t.stored (s.recordAt q + 4) = ⟨BitVec.ofNat 32 (0x0A * 2 ^ 24 + phase * 2 ^ 23), false⟩ ∧
        t.fget F.PLN_PHASE_PHASE = p.w2.toNat % 2 ^ 32 / 2 ^ 30 ∧ t.reg Reg.PLN_PHASE_T_LO = s.now.truncate 32 ∧
        t.reg Reg.PLN_PHASE_T_HI = (s.now >>> 32).truncate 32)

/-- A LAUNCH on one free context starts its task there, a task that waited starts once its context is FREE, and a drained
context sends its task record and becomes FREE (R132, R155, R156): s0 to s3 take the payload or a schedule value, s29
the position, every other scalar register 0. -/
def Obligations.TasksStartAndComplete : Prop :=
  ∀ (s : State),
    (∀ (q : Fin 16) (h : BitVec 64) (p : Payload) (l e : Nat), let s1 := s.begun q h p
      hdCMD h = 1 → s.accepts q h p → launchSlots p.w2 = [l] → bits64 p.w5 33 32 = 0 → s.wtasks = [] →
      s1.targetCode l = none → s1.engineOf l = some e → (s.ctx (4 * e + bits64 p.w2 45 44)).st = .free →
      (s.eng e).stop = false → (s.eng e).resetting = false → Completes (.launch q h p) s fun t =>
        let x := t.ctx (4 * e + bits64 p.w2 45 44)
        x.st = .run ∧ x.prog = p.w1 ∧ x.pc = 0 ∧ x.task = some ⟨q, hdSEQ h, s1.sysCmd q h⟩ ∧
        x.s 0 = s1.launchS p 0 ∧ x.s 1 = s1.launchS p 1 ∧ x.s 2 = s1.launchS p 2 ∧ x.s 3 = s1.launchS p 3 ∧
        x.s 29 = posWord l ∧ (∀ r, 3 < r → r ≠ 29 → x.s r = 0) ∧ ∀ a, t.byte a = s.byte a) ∧
    (∀ (l : LPos) (k : Fin 4) (e : Nat) (w : WTask), s.engineOf l.key = some e →
      s.wtasks.find? (fun w => w.l == l.key && w.k == k.val) = some w → (s.ctx (4 * e + k.val)).st = .free →
      (s.eng e).stop = false → (s.eng e).resetting = false → Completes (.taskStart l k) s fun t =>
        let x := t.ctx (4 * e + k.val)
        x.st = .run ∧ x.prog = w.prog ∧ x.task = some ⟨w.q, w.seq, w.sys⟩ ∧ x.s 0 = w.s0 ∧ x.s 29 = posWord l.key ∧
        t.wtasks = s.wtasks.erase w ∧ ∀ a, t.byte a = s.byte a) ∧
    ∀ (c : Cx) (k : TaskRef), (s.ctx c.key).task = some k → (s.ctx c.key).st = .drain → (s.ctx c.key).held = none →
      s.drained c.pos.key c.ctx.val = true → Completes (.taskComplete c) s fun t =>
        t.ctx c.key = {} ∧ (∀ i : Nat, ((t.cq k.q).infl[i]?).map (·.ended) =
          ((s.cq k.q).infl[i]?).map fun x => if hdSEQ x.hdr = k.seq then x.ended + 1 else x.ended) ∧
        (∀ r, t.reg r = s.reg r) ∧ ∀ a, t.byte a = s.byte a

/-- SIGSEM adds to its semaphore, WAITSEM waits there, STEP advances SCT_STEP and SCHEDLD loads a schedule and shows its
value at the step in force (R140, R153, R157, R158). Each that is done says so with code DONE. -/
def Obligations.SemaphoreAndStepCommands : Prop :=
  ∀ (s : State) (q : Fin 16) (h : BitVec 64) (p : Payload), s.accepts q h p →
    let u := (semArgs p).1
    let k := (semArgs p).2.1
    let n := (semArgs p).2.2
    let v := s.fget (F.STR_SEM_VALUE u k)
    (hdCMD h = 2 → s.waiters (256 * u + k) = [] → Completes (.sigsem q h p) s fun t =>
      t.fget (F.STR_SEM_VALUE u k) = min (v + n) 0xFFFF ∧ t.isDone q (hdSEQ h) .done ∧ ∀ a, t.byte a = s.byte a) ∧
    (hdCMD h = 3 → s.waiters (256 * u + k) = [] → v < n → Completes (.waitsem q h p) s fun t =>
      t.waiters (256 * u + k) = [.cmd q (hdSEQ h) n] ∧ t.fget (F.STR_SEM_VALUE u k) = v ∧ ∀ a, t.byte a = s.byte a) ∧
    (hdCMD h = 4 → Completes (.stepCmd q h p) s fun t =>
      t.reg Reg.SCT_STEP = s.reg Reg.SCT_STEP + 1 ∧ t.fence = some (q.val, hdSEQ h) ∧ t.isDone q (hdSEQ h) .done ∧
      ∀ a, t.byte a = s.byte a) ∧
    (hdCMD h = 5 → ∀ bps, 2 ≤ bits64 p.w2 15 8 → bits64 p.w2 15 8 ≤ 64 →
      (∀ w ∈ ((s.begun q h p).readG p.w1 (2 * bits64 p.w2 15 8)).1, w.p = false) →
      bpsOf ((s.begun q h p).readG p.w1 (2 * bits64 p.w2 15 8)).1 = bps → bpsOk bps = true →
      Completes (.schedld q h p) s fun t =>
        let m := bits64 p.w2 23 16 == 1
        lookup t.sched (bits64 p.w2 3 0) = some (m, bps) ∧
        t.reg (Reg.PLN_SCHED_V (bits64 p.w2 3 0)) = schedValue m bps (s.reg Reg.SCT_STEP) ∧
        t.isDone q (hdSEQ h) .done ∧ ∀ a, t.byte a = s.byte a)

/-- ABORT of an empty queue ends DONE_BEFORE_ABORT; DISABLE takes a function from new work and begins its drain, whose end
counts what was stopped; ENABLE gives it back; REGWR writes its register as its queue's owner; UPDATE begins (R153,
R163, R210, R218). -/
def Obligations.ControlCommands : Prop :=
  ∀ (s : State) (q : Fin 16) (h : BitVec 64) (p : Payload),
    let s1 := s.begun q h p
    let seq := hdSEQ h
    let kind := bits64 p.w1 7 0
    let f := (kind, (if kind ≤ 1 then bits64 p.w1 15 8 else 0), (if kind = 1 ∨ kind = 4 then 0 else bits64 p.w1 23 16))
    (hdCMD h = 6 → s.accepts q h p → bits64 p.w1 31 0 ≠ q → (s.cq (bits64 p.w1 31 0)).read = [] →
      (s.cq (bits64 p.w1 31 0)).infl = [] → Completes (.abortCmd q h p) s fun t =>
        t.isDone q seq .doneBeforeAbort ∧ ∀ a, t.byte a = s.byte a) ∧
    (hdCMD h = 7 → s.accepts q h p → Completes (.disable q h p) s fun t =>
      f ∈ t.disabled ∧ (q.val, seq, f) ∈ t.drains ∧
      (kind = 2 → s.rifUp f.2.2 = true → t.fget (F.RIF_STATUS_STATE f.2.2) = 2) ∧ ∀ a, t.byte a = s.byte a) ∧
    (hdCMD h = 8 → s.accepts q h p → Completes (.enable q h p) s fun t =>
      f ∉ t.disabled ∧ t.isDone q seq .done ∧ ∀ a, t.byte a = s.byte a) ∧
    (∀ c, s.cmd? q seq = some c → c.done = false →
      s.drains.find? (fun d => d.1 == q.val && d.2.1 == seq) = some (q.val, seq, f) → kind ≤ 1 →
      s.fnTasks kind f.2.1 f.2.2 = [] → s.wtasks = [] → Completes (.drainEnd q seq) s fun t =>
        (q.val, seq, f) ∉ t.drains ∧ (∀ x ∈ (t.cq q).infl, hdSEQ x.hdr = seq → x.done = true ∧ x.c1 = 0) ∧
        ∀ a, t.byte a = s.byte a) ∧
    (∀ k, hdCMD h = 0x0A → s.accepts q h p → s1.regOf p = some k → k ≠ Reg.PLN_PHASE →
      s1.regRefused (s1.queueReq q) k (p.w2.truncate 32) = false → Completes (.regwr q h p) s fun t =>
        (∀ i, t.reg i = (s1.regWrite .cmd (s1.queueReq q) k (p.w2.truncate 32)).reg i) ∧
        ((s1.regWrite .cmd (s1.queueReq q) k (p.w2.truncate 32)).cqs = s1.cqs → t.isDone q seq .done)) ∧
    (hdCMD h = 9 → s.accepts q h p → s.upd = none → s1.flag F.TST_STATUS_OOS = false → 3 ≤ s1.rifCount →
      updPayOk p (s1.reg Reg.SCT_STEP) = true → bits64 p.w2 63 56 ≠ 0 →
      let rd := s1.readG p.w1 (16 * bits64 p.w2 47 32)
      let ents := pieces 8 (bits64 p.w2 47 32) (pairs64 rd.1)
      let rs := (rd.2.readRules p.w5 (namedRules ents)).1
      let rules := rs.map fun r => (r.1, r.2.map (·.v))
      (∀ w ∈ rd.1, w.p = false) → (∀ r ∈ rs, ∀ w ∈ r.2, w.p = false) → ents.all Ent.ok = true →
      (∀ r ∈ rules, Rule.ok r.2 = true ∧ Rule.inRange r.2 = true) → Completes (.update q h p) s fun t =>
        t.upd.map (fun u => (u.q, u.seq, u.step)) = some (q.val, seq, s1.reg Reg.SCT_STEP) ∧
        t.upd.map (·.ents) = some ents ∧ t.upd.map (·.rules) = some rules ∧ t.upd.map (·.clip) = some none ∧
        t.flag F.RIF_PKG_STATUS_BUSY = true ∧ ∀ a, t.byte a = s.byte a)

/-- The queue's turn starts the next command it has read; a command that is done commits with its record and its
interrupt; and a WAITSEM whose TLIM expires leaves its semaphore and is done with TIMEOUT (R152, R154, R159, R161,
R162). -/
def Obligations.QueueTurnCommitTimeout : Prop :=
  ∀ (s : State) (q : Fin 16) (seq : BitVec 32),
    (∀ h p rest, (s.cq q).read = (h, p) :: rest → hdCMD h = 0 → (s.cq q).infl = [] → s.mayStart q h = true →
      (s.beginCmd q h p).malformed q h p = false → s.fget (F.PLN_CQ_TAIL_TAIL q) = s.fget (F.PLN_CQ_STATUS_HEAD q) →
      Completes (.commandStart q) s fun t =>
        (t.cq q).read = rest ∧ t.isDone q (hdSEQ h) .done ∧ ∀ a, t.byte a = s.byte a) ∧
    (∀ x, s.drains = [] → s.cmd? q seq = some x → x.done = true →
      (∀ j, j < 8 → s.readable (s.recordAt q + 4 * j) = true) → Completes (.commandCommit q seq) s fun t =>
        (∀ y ∈ (t.cq q).infl, hdSEQ y.hdr ≠ seq) ∧ (t.cq q).recs = ((s.cq q).recs + 1) % 2 ^ 20 ∧
        t.stored (s.recordAt q) = ⟨seq, false⟩ ∧
        (hdIRQ x.hdr = true → s.flag (F.PLN_CQ_CFG_OWNER q) = false → t.msix.getLsbD q = true) ∧
        ∀ a, a < s.recordAt q ∨ s.recordAt q + 32 ≤ a → t.byte a = s.byte a) ∧
    ∀ x, s.cmd? q seq = some x → hdTLIM x.hdr ≠ 0 → x.stop = none → x.began = true → x.done = false →
      hdCMD x.hdr = 3 → Completes (.commandTimeout q seq) s fun t =>
        (∀ n, .cmd q seq n ∉ t.waiters (256 * (semArgs x.pay).1 + (semArgs x.pay).2.1)) ∧
        (∀ y ∈ (t.cq q).infl, hdSEQ y.hdr = seq → y.done = true ∧ y.stop = some .timeout) ∧
        ∀ a, t.byte a = s.byte a

/-- In a system task TRET records its unit for retirement and goes on, TCAP waits for its capsule, and the run writes its
result to RD (R150, R337, R338): 0 when it matched, 1 when it did not, 2 with no capsule at the index, 3 outside the
lifecycle states that run capsules. -/
def Obligations.SystemInstructions : Prop :=
  ∀ (c : Cx) (w : BitVec 56) (s : State), (∀ k, (s.eng c.pos.key).scalarBusy c.ctx.val k = false) →
    let x := s.ctx c.key
    (s.issues c (0xE0#8 ++ w) (legalTRET (0xE0#8 ++ w) && x.task.any (·.sys)) → Completes (.tret c w) s fun t =>
      x.s (tcRI (0xE0#8 ++ w)) ∈ t.retire ∧ (∀ u ∈ s.retire, u ∈ t.retire) ∧ (t.ctx c.key).pc = x.pc + 1 ∧
      (t.ctx c.key).st = .run ∧ ∀ a, t.byte a = s.byte a) ∧
    (s.issues c (0xE1#8 ++ w) (legalTCAP (0xE1#8 ++ w) && x.task.any (·.sys)) → Completes (.tcap c w) s fun t =>
      (t.ctx c.key).st = .wait ∧ (t.ctx c.key).why = 8 ∧
      (t.ctx c.key).cap = some ((x.s (tcRI (0xE1#8 ++ w))).toNat % 256, tcRD (0xE1#8 ++ w)) ∧ s.issueFrame t c) ∧
    ∀ (ok : Bool) (i rd : Nat), x.cap = some (i, rd) → s.othersIdle c.pos.key c.ctx.val = true →
      s.canRun c.pos.key = true → x.st = .wait → Completes (.tcapRun c ok) s fun t =>
        (t.ctx c.key).cap = none ∧ (t.ctx c.key).st = (if x.stopped then .drain else .run) ∧
        (t.ctx c.key).s rd =
          (if s.capLife = false then 3
           else if (lookup s.capsules i).all (fun z => z.size == 0) then 2
           else if ok && (lookup s.capsules i).all (s.capMatches c.pos.key) then 0 else 1) ∧
        (∀ r, r ≠ rd → (t.ctx c.key).s r = x.s r) ∧ ∀ a, t.byte a = s.byte a

/-! ## Registers and windows -/

/-- A register write to a register with no action of its own (R7, R373, R401): by Armature, a field marked rw takes the bits
written, rd and fx ignore them, w1c clears where a 1 is written, lk takes them until the register's lock, bit 31, is
set, and no other register and nothing else changes (of FLT_CFG, while no replay is owed, which a cleared REPLAY would
end); a host write to a register it may not write sets nothing and counts
once in SEC_STATUS.DENIED. -/
def Obligations.RegisterFieldsTakeWrites : Prop :=
  ∀ (s : State) (v : BitVec 32),
    (∀ k ∈ [Reg.PLN_PKG_ID, Reg.PLN_ADDR_ERR_INFO, Reg.SCT_CTRL, Reg.SCT_SEED_LO, Reg.MEM_PF,
        Reg.RIF_CFG, Reg.CLV_CFG, Reg.CLV_BAR_CFG, Reg.FLT_CFG], (k = Reg.FLT_CFG → s.caps = []) →
      Completes (.registerWrite .armature (BitVec.ofNat 32 k) v) s fun t =>
        (∀ row, Reg.row k = some row → ∀ f ∈ row.fields,
          let bits (x : BitVec 32) : Nat := x.toNat / 2 ^ f.lo % 2 ^ (f.hi + 1 - f.lo)
          bits (t.reg k) = match f.acc with
            | .rw => bits v
            | .rd | .fx => bits (s.reg k)
            | .w1c => bits (s.reg k &&& ~~~v)
            | .lk => if (s.reg k).getLsbD 31 then bits (s.reg k) else bits v) ∧
        (∀ i, i ≠ k → t.reg i = s.reg i) ∧ { t with regs := s.regs } = s) ∧
    (v ≠ 0 → s.flag F.SEC_POLICY_HOSTW = false →
      ∀ k ∈ [Reg.SCT_CTRL, Reg.SCT_SEED_LO, Reg.MEM_PF, Reg.RIF_CFG, Reg.CLV_CFG, Reg.CLV_BAR_CFG, Reg.FLT_CFG],
        Completes (.registerWrite .host (BitVec.ofNat 32 k) v) s fun t =>
          t.reg k = s.reg k ∧ t.fget F.SEC_STATUS_DENIED =
            min (2 ^ F.SEC_STATUS_DENIED.width - 1) (s.fget F.SEC_STATUS_DENIED + 1) ∧ { t with regs := s.regs } = s)

/-- The scale-table window and the group window by Armature (R48, R51, R251, R252): a read latches every word of its
entry, whose words read good; a write commits the window's image when it may; a clear clears the four counts and keeps the
rest. -/
def Obligations.TableWindows : Prop :=
  ∀ (s : State) (i : BitVec 15) (g : BitVec 12),
    (s.sctBad i.toNat = [] → Completes (.sctWinRead .armature i) s fun t =>
      (∀ k, k < 16 → t.reg (Reg.SCT_WIN_DATA k) = s.sctW i.toNat k) ∧ t.sct = s.sct ∧ ∀ a, t.byte a = s.byte a) ∧
    (winBad s.winImage = false → Completes (.sctWinWrite .armature i) s fun t =>
      (∀ k, k < 16 → t.sctW i.toNat k = s.reg (Reg.SCT_WIN_DATA k)) ∧
      (∀ j k, ¬ (16 * i.toNat ≤ 16 * j + k ∧ 16 * j + k < 16 * i.toNat + 16) → t.sctW j k = s.sctW j k) ∧
      t.flag F.SCT_WIN_STATUS_ERR = false) ∧
    (winBad s.winImage = true → Completes (.sctWinWrite .armature i) s fun t =>
      t.sct = s.sct ∧ t.flag F.SCT_WIN_STATUS_ERR = true) ∧
    (s.sctBad i.toNat = [] → Completes (.sctWinClear .armature i) s fun t =>
      t.sctW i.toNat 9 = 0 ∧ t.sctW i.toNat 10 = 0 ∧ (t.sctW i.toNat 13).toNat / 2 ^ 24 = 0 ∧
      (t.sctW i.toNat 13).getLsbD 13 = false ∧
      ∀ k, k < 16 → k ≠ 9 → k ≠ 10 → k ≠ 13 → t.sctW i.toNat k = s.sctW i.toNat k) ∧
    (s.grpBad g.toNat = [] → Completes (.groupRead .armature g) s fun t =>
      (∀ k, k < 8 → t.reg (Reg.CLV_GRP_DATA k) = s.grpW g.toNat k) ∧ t.grp = s.grp) ∧
    ((s.reg (Reg.CLV_GRP_DATA 0)).getLsbD 31 = false → Completes (.groupWrite .armature g) s fun t =>
      (∀ k, k < 8 → t.grpW g.toNat k = s.reg (Reg.CLV_GRP_DATA k)) ∧ t.flag F.CLV_GRP_STATUS_ERR = false ∧
      t.grpValid g.toNat = false)

/-- Register writes that act at once (R44, R140, R154, R160, R164): a semaphore takes VALUE and clears OVF where 1 is
written; SCT_STEP takes a step while nothing holds it, and keeps its own under STEP_ERR otherwise; a doorbell sets TAIL;
enabling an empty queue clears its halt. -/
def Obligations.ActingRegisterWrites : Prop :=
  ∀ (s : State) (v : BitVec 32),
    (∀ (u : Clu) (k : BitVec 8), s.waiters (256 * u.key + k.toNat) = [] →
      Completes (.semValueWrite .armature u k v) s fun t =>
        t.fget (F.STR_SEM_VALUE u.key k.toNat) = v.toNat % 2 ^ 16 ∧
        t.flag (F.STR_SEM_OVF u.key k.toNat) = (s.flag (F.STR_SEM_OVF u.key k.toNat) && !v.getLsbD 31) ∧
        ∀ i, i ≠ Reg.STR_SEM u.key k.toNat → t.reg i = s.reg i) ∧
    (s.flag F.SCT_ADV_STATUS_BUSY = false → s.upd = none → s.recEn = false →
      Completes (.sctStepWrite .armature v) s fun t => t.reg Reg.SCT_STEP = v ∧ ∀ a, t.byte a = s.byte a) ∧
    (s.flag F.SCT_ADV_STATUS_BUSY = true ∨ s.upd.isSome = true ∨ s.recEn = true →
      Completes (.sctStepWrite .armature v) s fun t =>
        t.reg Reg.SCT_STEP = s.reg Reg.SCT_STEP ∧ t.flag F.SCT_ADV_STATUS_STEP_ERR = true ∧
        ∀ a, t.byte a = s.byte a) ∧
    ∀ q : Fin 16,
      (Completes (.cqDoorbell .armature q v) s fun t =>
        t.fget (F.PLN_CQ_TAIL_TAIL q) = v.toNat % 2 ^ 20 ∧ ∀ a, t.byte a = s.byte a) ∧
      (s.flag (F.PLN_CQ_CFG_EN q) = false → v.getLsbD 31 = true → v.toNat / 2 ^ 20 % 16 ≤ 13 →
        s.fget (F.PLN_CQ_TAIL_TAIL q) = s.fget (F.PLN_CQ_STATUS_HEAD q) →
        Completes (.cqEnable .armature q v) s fun t =>
          t.flag (F.PLN_CQ_CFG_EN q) = true ∧ t.flag (F.PLN_CQ_STATUS_HALT q) = false ∧
          t.fget (F.PLN_CQ_STATUS_HCAUSE q) = 0 ∧ ∀ a, t.byte a = s.byte a)

/-! ## Waipol -/

/-- Training, retrains and lanes of a port (R228, R229, R235 to R237, R249, R352): training ends in DISCOVERY at Gen2 when
both ends allow it, else Gen1; a peer that allows Gen2 sends the port back to train; the third retrain charged to a
lane within 10 min retires it; a retrain that ends keeps the port's work, and the third failure in succession takes it
DOWN; the eighth replay without an acknowledgement starts a retrain; a faulted module holds its port DOWN until it says
otherwise, which is a free value (log entry 60). Memory does not change. -/
def Obligations.PortsTrain : Prop :=
  ∀ (s : State) (p : Fin 12),
    let st := s.fget (F.WPL_STATUS_STATE p)
    let x := s.port p
    (∀ gen : BitVec 2, st = 1 → s.lret p = 0 → x.clrLanes = false →
      gen.toNat = (if 2 ≤ x.peerGen ∧ 2 ≤ s.genMax p then 2 else 1) →
      Completes (.portTrainingDone p gen 2 false) s fun t =>
        t.fget (F.WPL_STATUS_STATE p) = 2 ∧ t.fget (F.WPL_STATUS_GEN p) = gen.toNat ∧
        t.fget (F.WPL_STATUS_WIDTH p) = 2 ∧ { t with regs := s.regs, ports := s.ports, sent := s.sent } = s) ∧
    (∀ g : BitVec 2, s.linked p = true → Completes (.linkManagement p g) s fun t =>
      (t.port p).peerGen = g.toNat ∧ (∀ a, t.byte a = s.byte a) ∧
      t.fget (F.WPL_STATUS_STATE p) =
        if s.fget (F.WPL_STATUS_GEN p) = 1 ∧ 2 ≤ g.toNat ∧ s.genMax p = 2 then 1 else st) ∧
    (∀ lane : Fin 4, s.linked p = true → s.laneUsed p lane = true → x.training = false → widthOf (s.lret p) ≠ none →
      let n := ((s.recentCharges p).filter fun c => c.1 == lane.val).length
      (n < 2 → Completes (.retrainTrigger p lane) s fun t =>
        (t.port p).training = true ∧ (t.port p).charged = s.recentCharges p ++ [(lane.val, s.svc)] ∧
        t.fget (F.WPL_LANE_RETRAINS p) = min 0xFFFF (s.fget (F.WPL_LANE_RETRAINS p) + 1) ∧
        { t with regs := s.regs, ports := s.ports } = s) ∧
      (2 ≤ n → (s.lret p).testBit lane = false → Completes (.retrainTrigger p lane) s fun t =>
        t.lret p = s.lret p + 2 ^ lane.val ∧
        (widthOf (t.lret p) = none → x.clrLanes = false → t.fget (F.WPL_STATUS_STATE p) = 6) ∧
        ∀ a, t.byte a = s.byte a)) ∧
    (x.training = true → (∀ w pr, x.clrLanes = false → widthOf (s.lret p) = some (w, pr) →
        Completes (.retrainDone p true) s fun t =>
          (t.port p).training = false ∧ (t.port p).fails = 0 ∧ t.fget (F.WPL_STATUS_WIDTH p) = w ∧
          t.fget (F.WPL_STATUS_PAIR p) = pr ∧ { t with regs := s.regs, ports := s.ports, sent := s.sent } = s) ∧
      (x.fails < 2 → Completes (.retrainDone p false) s fun t =>
        (t.port p).fails = x.fails + 1 ∧ { t with ports := s.ports } = s) ∧
      (2 ≤ x.fails → Completes (.retrainDone p false) s fun t =>
        t.fget (F.WPL_STATUS_STATE p) = 0 ∧ t.lret p = s.lret p ∧ ∀ a, t.byte a = s.byte a)) ∧
    (st = 0 → s.flag (F.WPL_CFG_EN p) = true → 6 ≤ s.fget F.PLN_BOOT_STEP →
      (x.modFault = false → Completes (.downRetry p) s fun t =>
        t.fget (F.WPL_STATUS_STATE p) = 1 ∧ (t.port p).enc = s.flag (F.WPL_CFG_ENC p) ∧
        { t with regs := s.regs, ports := s.ports } = s) ∧
      (x.modFault = true → Completes (.downRetry p) s fun t =>
        (t.fget (F.WPL_STATUS_STATE p) = 1 ∧ (t.port p).modFault = false ∨
          t.fget (F.WPL_STATUS_STATE p) = 0 ∧ (t.port p).modFault = true) ∧
        { t with regs := s.regs, ports := s.ports, free := s.free } = s)) ∧
    (7 ≤ p.val → st ≠ 6 → Completes (.moduleFault p) s fun t =>
      t.fget (F.WPL_STATUS_STATE p) = 0 ∧ (t.port p).modFault = true ∧ t.lret p = s.lret p ∧
      ∀ a, t.byte a = s.byte a) ∧
    (s.linked p = true → x.training = false → Completes (.retrain .armature p) s fun t =>
      (t.port p).training = true ∧
      t.fget (F.WPL_LANE_RETRAINS p) = min 0xFFFF (s.fget (F.WPL_LANE_RETRAINS p) + 1) ∧
      { t with regs := s.regs, ports := s.ports } = s) ∧
    (Completes (.laneClr .armature p) s fun t => (t.port p).clrLanes = true ∧ { t with ports := s.ports } = s) ∧
    (x.retry ≠ [] → s.linked p = true → x.training = false → Completes (.replayTimeout p) s fun t =>
      (t.port p).stuck = x.stuck + 1 ∧ (t.port p).training = decide (7 ≤ x.stuck) ∧
      t.fget (F.WPL_ERR_REPLAY p) = min 0xFFFF (s.fget (F.WPL_ERR_REPLAY p) + 1) ∧
      { t with regs := s.regs, ports := s.ports } = s)

/-- Flits and remote requests (R23, R25, R231 to R235, R247): a data flit is taken in SEQ order only and completes the
response before it; one whose CRC fails is dropped; an idle flit brings acknowledgement and credits; a dropped flit sends one
NAK with the last good SEQ and counts by its cause, and the sixteenth
authentication failure within 1 s quarantines the port; a request served here reads or writes this package's memory and
is answered; a response fills its transfer slot, and a response or completion ends its transaction. -/
def Obligations.FlitsAndRequests : Prop :=
  ∀ (s : State) (p : Fin 12),
    let x := s.port p
    let nak (t : State) : Prop := (t.port p).discard = true ∧ (t.port p).rxSeq = x.rxSeq ∧
      t.sent = (if x.discard then s.sent else s.sent ++ [(p.val, .idle (idleHeader x.rxSeq true 0 0))])
    (∀ f : Flit, let vc := bits64 f.h 61 59
      let good := flitPasses f (x.enc && decide (vc < 6))
      bits64 f.h 63 62 = 2 → s.carries p vc = true → (vc = 0 → s.writeWaits p = false) →
      (good = true → bits64 f.h 57 48 = (x.rxSeq + 1) % 1024 → (∀ q ∈ x.part, q.1 ≠ vc) → Completes (.dataFlit p f) s fun t =>
        (t.port p).rxSeq = (x.rxSeq + 1) % 1024 ∧ (t.port p).discard = false ∧ ∀ a, t.byte a = s.byte a) ∧
      (∀ (r : ReqSlot) (d : List MWord), good = true → bits64 f.h 57 48 = (x.rxSeq + 1) % 1024 → vc = 1 →
        x.part = [(1, r, d)] →
        16 * (r.len.toNat % 64 + 1) - d.length ≤ (flitData x.enc f).length → Completes (.dataFlit p f) s fun t =>
        (∀ y ∈ t.rtx, ¬ (y.tag = r.tag.toNat ∧ y.wr = false)) ∧ (t.port p).part = [] ∧ ∀ a, t.byte a = s.byte a) ∧
      (good = true → bits64 f.h 57 48 ≠ (x.rxSeq + 1) % 1024 → Completes (.dataFlit p f) s fun t =>
        nak t ∧ { t with ports := s.ports, sent := s.sent } = s) ∧
      (good = false → Completes (.dataFlit p f) s fun t => nak t ∧
        t.fget (F.WPL_ERR_CRC p) = min 0xFF (s.fget (F.WPL_ERR_CRC p) + 1) ∧
        { t with ports := s.ports, sent := s.sent, regs := s.regs } = s)) ∧
    (∀ h : BitVec 64, let cvc := bits64 h 35 33
      bits64 h 63 62 = 0 → bits64 h 36 36 = 0 → s.linked p = true → x.training = false → x.outq = [] →
      Completes (.idleFlit p h) s fun t =>
        (t.port p).credits = x.credits.set cvc (min (vcDepth cvc) (x.credits.getD cvc 0 + bits64 h 32 27)) ∧
        (bits64 h 37 37 = 1 → x.retry.any (fun e => e.1 == bits64 h 47 38) = true →
          (t.port p).retry = (x.retry.dropWhile fun e => e.1 != bits64 h 47 38).drop 1 ∧ (t.port p).stuck = 0) ∧
        { t with ports := s.ports } = s) ∧
    (s.linked p = true → x.training = false →
      (Completes (.flitDropped p .crc) s fun t => nak t ∧
        t.fget (F.WPL_ERR_CRC p) = min 0xFF (s.fget (F.WPL_ERR_CRC p) + 1) ∧
        { t with regs := s.regs, ports := s.ports, sent := s.sent } = s) ∧
      (Completes (.flitDropped p .fec) s fun t => nak t ∧
        t.reg (Reg.WPL_FEC_UE p) = BitVec.ofNat 32 (min 0xFFFFFFFF ((s.reg (Reg.WPL_FEC_UE p)).toNat + 1)) ∧
        { t with regs := s.regs, ports := s.ports, sent := s.sent } = s) ∧
      (Completes (.flitDropped p .order) s fun t => nak t ∧ { t with ports := s.ports, sent := s.sent } = s) ∧
      (15 ≤ (x.authAt.filter fun t => decide (s.now.toNat - t.toNat < 1000000000)).length →
        Completes (.flitDropped p .auth) s fun t => t.fget (F.WPL_STATUS_STATE p) = 5 ∧
          t.fget (F.WPL_STATUS_CAUSE p) = 12 ∧ ∀ a, t.byte a = s.byte a)) ∧
    ∀ r : ReqSlot, let n := r.len.toNat % 64 + 1
      (s.carries p 0 = true → s.inWaits (r.addr.toNat % 2 ^ 48) = false → s.serves r = true →
        (x.outq = [] →
          let s1 := s.takeSlot p (.req false r [])
          let v := s1.serveRead p r.addr n
          let m := Msg.rsp false (answer r v.2.2.pkgId v.1) v.2.1
          m.flits x.enc ≤ x.credits.getD 1 0 → x.retry.length + m.flits x.enc ≤ 64 →
          Completes (.readRequest p r) s fun t => t.sent = s1.sent ++ [(p.val, m)] ∧ ∀ a, t.byte a = s.byte a) ∧
        (∀ d : List MWord, 16 * n ≤ d.length → Completes (.writeRequest p r d) s fun t =>
          ∀ a, t.byte a = (((s.takeSlot p (.req true r d)).serveWrite p r.addr d n).2).byte a) ∧
        (∀ d : List MWord, d.length < 16 * n → Completes (.writeRequest p r d) s fun t =>
          (t.port p).part = x.part ++ [(0, r, d)] ∧ { t with ports := s.ports, sent := s.sent } = s)) ∧
      (s.carries p 1 = true →
        (∀ (d : List MWord) (q : RTx), 16 * n ≤ d.length →
          s.rtx.find? (fun y => y.tag == r.tag.toNat && y.wr == false) = some q →
          (s.xfer (6 * q.l + q.slot)).st ≠ .free → (s.xfer (6 * q.l + q.slot)).id = q.id →
          Completes (.readResponse p r d) s fun t =>
            t.xfer (6 * q.l + q.slot) = (s.xfer (6 * q.l + q.slot)).land q.unit d q.units ∧
            t.rtx = s.rtx.filter (fun y => y.tag != q.tag) ∧
            { t with ports := s.ports, sent := s.sent, rtx := s.rtx, xfers := s.xfers } = s) ∧
        (∀ q : RTx, s.rtx.find? (fun y => y.tag == r.tag.toNat && y.wr == true) = some q →
          Completes (.writeCompletion p r) s fun t =>
            let k := 6 * q.l + q.slot
            t.rtx = s.rtx.filter (fun y => y.tag != q.tag) ∧
            ((s.xfer k).st = .free ∨ (s.xfer k).id ≠ q.id ∨ s.engineOf q.l = none →
              { t with ports := s.ports, sent := s.sent, rtx := s.rtx } = s) ∧
            ((s.xfer k).st ≠ .free → (s.xfer k).id = q.id → s.engineOf q.l ≠ none →
              (t.xfer k).last = s.now ∧ (t.xfer k).unit = (s.xfer k).unit ∧ (t.xfer k).st ≠ .stalled) ∧
            (∀ k, t.tileB k = s.tileB k) ∧ ∀ a, t.byte a = s.byte a))

/-- Discovery and keys (R240, R242, R243, R245, R249, R365): a hello that a rule of R242 turns away quarantines its port
with that cause and one that passes them makes it ACTIVE; silence, a peer that does not echo, a swap without a partner,
lost hellos and an operator's order quarantine it with their causes; the peer's finished message puts a key in force,
and a share that does not check quarantines the port. -/
def Obligations.HellosAreJudged : Prop :=
  ∀ (s : State) (p : Fin 12),
    let st := s.fget (F.WPL_STATUS_STATE p)
    let x := s.port p
    let quarantined (c : Nat) (t : State) : Prop :=
      t.fget (F.WPL_STATUS_STATE p) = 5 ∧ t.fget (F.WPL_STATUS_CAUSE p) = c ∧ ∀ a, t.byte a = s.byte a
    (∀ h : Hello, s.linked p = true → x.training = false → s.active p = false → s.heldQuar p = false → x.swap = none →
      (∀ c, s.judge p h = .quar c → Completes (.hello p h) s (quarantined c)) ∧
      (s.judge p h = .go false false → h.flags.getLsbD 2 = x.enc → h.peer = s.serial → h.fence = s.fenceId →
        Completes (.hello p h) s fun t =>
          t.fget (F.WPL_STATUS_STATE p) = 3 ∧ (t.port p).peerSer = h.serial ∧ (t.port p).lastHello = some h ∧
          t.reg (Reg.WPL_PEER_FW p) = h.fw ∧ ∀ a, t.byte a = s.byte a)) ∧
    (st ≠ 0 → Completes (.helloTimer p) s fun t =>
      (t.port p).hseq = (x.hseq + 1) % 2 ^ 32 ∧ t.withPort p 0xFFFF (.hello (s.ownHello p)) ∧
      { t with ports := s.ports, sent := s.sent } = s) ∧
    (st = 2 → (x.heard = false → Completes (.discoverySilent p) s (quarantined 9)) ∧
      (∀ h, x.lastHello = some h → x.heard = true → h.peer ≠ s.serial → x.swap = none →
        Completes (.onewayTimeout p) s (quarantined 8)) ∧
      (x.swap.isSome = true → Completes (.swapTimeout p) s fun t => quarantined 7 t ∧ (t.port p).swap = none)) ∧
    (s.linked p = true → x.swap = none →
      (x.heard = true → st ≠ 5 → Completes (.helloLost p) s (quarantined 10)) ∧
      Completes (.quar .armature p) s (quarantined 13)) ∧
    (Completes (.rejudge .armature p) s fun t => (t.port p).afresh = true ∧ { t with ports := s.ports } = s) ∧
    (∀ (m : BitVec 8) (i : BitVec 16) (b : BitVec 96), s.active p = true → x.enc = true → x.training = false →
      m.toNat ≤ 2 → Completes (.keyExchange p m i b) s fun t =>
        (Config.shareOk (s.free + i.toNat) b = false → quarantined 12 t) ∧
        (Config.shareOk (s.free + i.toNat) b = true → m = 2 → (t.port p).keyed = true ∧
          (t.port p).keyId = Config.portKey s.free ∧ t.flag (F.WPL_STATUS_ENC p) = true ∧
          (t.port p).oldKey = if x.keyed then some x.keyId else none)) ∧
    (s.active p = true → x.keyed = true → Completes (.rekey p) s fun t =>
      (t.port p).keyed = true ∧ (t.port p).keyId = x.keyId ∧ t.withPort p 0xFFFF (.key 0) ∧
      t.withPort p 0xFFFF (.key 1) ∧ { t with ports := s.ports, sent := s.sent } = s)

/-- The neighbour table and its window (R241, R248), and the window onto fault records, history, Loupe table and advisory
ring (R326, R329), by Armature: a read latches every word of its entry, whose words read good, a write commits the
window's image when it may, a clear empties an entry's bins; AUTO from 0 to 1 before LOCK fills the neighbour table at
once. -/
def Obligations.NeighbourAndFaultWindows : Prop :=
  ∀ (s : State),
    (∀ i : BitVec 6, let w := (List.range 4).map fun k => s.reg (Reg.WPL_NBR_DATA k)
      (Completes (.nbrRead .armature i) s fun t =>
        (∀ k, k < 4 → t.reg (Reg.WPL_NBR_DATA k) = s.nbrW i.toNat k) ∧ { t with regs := s.regs } = s) ∧
      (nbrOk w = true → Completes (.nbrWrite .armature i) s fun t =>
        (∀ k, k < 4 → t.nbrW i.toNat k = s.reg (Reg.WPL_NBR_DATA k)) ∧
        (∀ j k, j ≠ i.toNat → k < 4 → t.nbrW j k = s.nbrW j k) ∧ t.flag F.WPL_NBR_STATUS_ERR = false ∧
        { t with regs := s.regs, nbr := s.nbr } = s) ∧
      (nbrOk w = false → Completes (.nbrWrite .armature i) s fun t =>
        t.flag F.WPL_NBR_STATUS_ERR = true ∧ { t with regs := s.regs } = s)) ∧
    (∀ v : BitVec 32, s.flag F.WPL_DISC_CFG_AUTO = false → s.flag F.WPL_DISC_CFG_LOCK = false → v.getLsbD 28 = true →
      Completes (.autoFill .armature v) s fun t =>
        (∀ i k, i < 64 → k < 4 → t.nbrW i k = (autoEntry (s.fget F.WPL_STRAP_ID) i).getD k 0) ∧
        { t with regs := s.regs, nbr := s.nbr } = s) ∧
    ∀ i : BitVec 28,
      (∀ g : Fin 4, s.fltBad g i.toNat = [] →
        (∀ ws, s.fltRead g i.toNat = some ws → Completes (.faultWinRead .armature g i) s fun t =>
          (∀ k, k < 16 → t.reg (Reg.FLT_WIN_DATA k) = ws.getD k 0) ∧ t.flag F.FLT_WIN_STATUS_ERR = false ∧
          { t with regs := s.regs } = s) ∧
        (s.fltRead g i.toNat = none → Completes (.faultWinRead .armature g i) s fun t =>
          t.flag F.FLT_WIN_STATUS_ERR = true ∧ { t with regs := s.regs } = s)) ∧
      (i.toNat < 256 →
        (Completes (.loupeEntryWrite .armature i) s fun t =>
          (∀ k, k < 12 → t.lpW i.toNat k = s.reg (Reg.FLT_WIN_DATA k)) ∧
          (∀ j k, ¬ (16 * i.toNat ≤ 16 * j + k ∧ 16 * j + k < 16 * i.toNat + 12) → t.lpW j k = s.lpW j k) ∧
          t.flag F.FLT_WIN_STATUS_ERR = false ∧ { t with regs := s.regs, lpTab := s.lpTab, lpEcc := s.lpEcc } = s) ∧
        (s.fltBad 2 i.toNat = [] → Completes (.loupeEntryClear .armature i) s fun t =>
          (∀ k, k < 8 → t.lpW i.toNat k = 0) ∧ t.lpF i.toNat 9 31 16 = 0 ∧ t.lpF i.toNat 8 17 17 = 0 ∧
          (∀ k, 10 ≤ k → k < 16 → t.lpW i.toNat k = s.lpW i.toNat k) ∧ t.flag F.FLT_WIN_STATUS_ERR = false ∧
          { t with regs := s.regs, lpTab := s.lpTab, lpEcc := s.lpEcc } = s)) ∧
      (256 ≤ i.toNat → Completes (.loupeEntryWrite .armature i) s fun t =>
        t.flag F.FLT_WIN_STATUS_ERR = true ∧ { t with regs := s.regs } = s)

/-! ## The timebase -/

/-- The timebase and its exchange between racks (R261 to R266, R278): an edge loads an armed value not below the timebase,
at once or after the delay of SYNC_DLY, and aligns the package; an aligned package's edges write their error; a leader's
exchange keeps t1 to t4 and gives one offset; the offsets'
median is shown and adjusted 2 ms ahead; an adjustment steps forward or slews at its instant; reads of the low halves
latch the high ones. -/
def Obligations.TimebaseKeepsTime : Prop :=
  ∀ (s : State),
    let armed := s.reg64 Reg.CLV_TB_ARM_LO Reg.CLV_TB_ARM_HI
    let e := s.time.ex
    (∀ err : Int,
      (s.flag F.CLV_TB_CFG_ARM = true → s.fget F.CLV_TB_CFG_SYNC_DLY < 8 → Completes (.syncEdge err) s fun t =>
        (s.now.toNat ≤ armed.toNat → t.now = armed ∧ t.flag F.CLV_TB_STATUS_ALIGNED = true) ∧
        (armed.toNat < s.now.toNat → t.now = s.now ∧ t.flag F.CLV_TB_STATUS_ARM_ERR = true) ∧
        t.flag F.CLV_TB_CFG_ARM = false ∧
        (s.flag F.CLV_TB_STATUS_ALIGNED = false → { t with regs := s.regs, time := s.time } = s) ∧
        ∀ a, t.byte a = s.byte a) ∧
      (s.flag F.CLV_TB_CFG_ARM = true → 8 ≤ s.fget F.CLV_TB_CFG_SYNC_DLY → Completes (.syncEdge err) s fun t =>
        t.time = { s.time with load := some (s.fget F.CLV_TB_CFG_SYNC_DLY / 8) } ∧ t.flag F.CLV_TB_CFG_ARM = true ∧
        ∀ a, t.byte a = s.byte a) ∧
      (s.flag F.CLV_TB_CFG_ARM = false → s.flag F.CLV_TB_STATUS_ALIGNED = true → -2 ≤ err → err ≤ 2 →
        Completes (.syncEdge err) s fun t =>
          (t.fget F.CLV_TB_STATUS_ERRT : Int) = err % 2 ^ 16 ∧ t.flag F.CLV_TB_STATUS_SYNC_LOST = false ∧
          { t with regs := s.regs } = s) ∧
      (s.flag F.CLV_TB_CFG_ARM = false → s.flag F.CLV_TB_STATUS_ALIGNED = true → err < -2 ∨ 2 < err →
        Completes (.syncEdge err) s fun t => t.flag F.CLV_TB_STATUS_SYNC_ERR = true ∧ t.time = s.time ∧
          ∀ a, t.byte a = s.byte a)) ∧
    (s.flag F.CLV_TB_STATUS_ALIGNED = true → Completes .syncLost s fun t =>
      t.flag F.CLV_TB_STATUS_SYNC_LOST = true ∧ { t with regs := s.regs } = s) ∧
    (s.leader = true → Completes .timeExchange s fun t =>
      t.time.ex = { seq := (e.seq + 1) % 2 ^ 16 } ∧ { t with time := s.time } = s) ∧
    (∀ x : TimeSlot,
      (s.fromUpstream x = true →
        (Completes (.timeSync x) s fun t =>
          t.time.ex = { seq := x.seq.toNat, t2 := some x.stamp, corr := (x.corr.toNat : Int) } ∧
          { t with time := s.time, ports := s.ports, sent := s.sent } = s) ∧
        (e.seq = x.seq.toNat → e.t2.isSome = true → Completes (.followUp x) s fun t =>
          t.time.ex = { e with t1 := some x.time, t3 := some s.now } ∧
          t.withPort (min 11 (s.fget F.CLV_TB_PEER_PORT)) 0xFFFF (.time 2 ⟨x.seq, s.pkgId, 0, 0, 0⟩) ∧
          { t with time := s.time, ports := s.ports, sent := s.sent } = s) ∧
        (∀ t1 t2 t3, e.seq = x.seq.toNat → e.t1 = some t1 → e.t2 = some t2 → e.t3 = some t3 →
          Completes (.delayResp x) s fun t =>
            let down : Int := (t2.toNat : Int) - t1.toNat - e.corr
            let up : Int := (x.time.toNat : Int) - t3.toNat - x.corr.toNat
            t.time.offs = s.time.offs ++ [(down - up) / 2 - (s.reg Reg.CLV_TB_ASYM).toInt] ∧
            { t with time := s.time, ports := s.ports, sent := s.sent } = s)) ∧
      (s.fget F.CLV_TB_CFG_ROLE ≠ 0 → Completes (.delayReq x) s fun t =>
        let m := Msg.time 3 ⟨x.seq, s.pkgId, x.corr, x.stamp, 0⟩
        (∀ p, s.route x.src 0 = some p → t.withPort p x.src m) ∧
        (s.route x.src 0 = none → t.noRoute = s.noRoute ++ [(x.src, m)]) ∧
        { t with ports := s.ports, sent := s.sent, noRoute := s.noRoute } = s)) ∧
    (∀ settled, s.leader = true → s.time.offs ≠ [] → Completes (.offsetCorrection settled) s fun t =>
      t.reg Reg.CLV_TB_OFS = BitVec.ofInt 32 (median s.time.offs) ∧ t.time.offs = [] ∧
      (t.flag F.CLV_TB_STATUS_LOCKED_UP = true ↔ |median s.time.offs| ≤ 50 ∧
        (settled = true ∨ s.flag F.CLV_TB_STATUS_LOCKED_UP = true)) ∧
      (∃ rate : Int, t.time.adj = some (s.now + 2000000, -median s.time.offs, rate)) ∧ t.now = s.now ∧
      ∀ a, t.byte a = s.byte a) ∧
    (∀ a b : TimeSlot, Completes (.adjust a b) s fun t =>
      t.time.adj = some (a.time, (b.time.truncate 32).toInt, ((b.time >>> 32).truncate 32).toInt) ∧
      { t with time := s.time, ports := s.ports, sent := s.sent } = s) ∧
    (∀ i ph rate, s.time.adj = some (i, ph, rate) → i.toNat ≤ s.now.toNat → Completes .adjustApply s fun t =>
      t.time.adj = none ∧ t.time.rate = rate ∧
      (s.flag F.CLV_TB_CFG_STEP_OK = true ∧ 0 < ph → t.now = s.now + BitVec.ofNat 64 ph.toNat ∧
        t.time.slew = s.time.slew) ∧
      (¬ (s.flag F.CLV_TB_CFG_STEP_OK = true ∧ 0 < ph) → t.now = s.now ∧ t.time.slew = ph) ∧
      { t with time := s.time } = s) ∧
    (Completes (.tbLatchRead .armature) s fun t =>
      t.reg64 Reg.CLV_TB_LO Reg.CLV_TB_HI = s.now ∧ { t with regs := s.regs } = s) ∧
    ∀ c : Fin 7, Completes (.clvIdleLatchRead .armature c) s fun t =>
      t.reg64 (Reg.CLV_IDLE_LO c) (Reg.CLV_IDLE_HI c) = Sparse.get (fun _ => 0) s.idle c ∧
      { t with regs := s.regs } = s

/-! ## Pace, clocks and power -/

/-- Heliostats, the Collimator and the frequency counter (R261, R281 to R283, R287, R288, R291, R352): a window shows the
slowest replica's error and trims the rail 1 mV; a rail at 850 mV under need makes a slower step the die's ceiling; the
dies go to a new step in force and its table voltage, outside RETENTION; the reference is judged by its windows, locks the
root, is lost and returns; a count of edges ends in RESULT. -/
def Obligations.HeliostatsAndReference : Prop :=
  ∀ (s : State) (d : Fin 4),
    let v := s.fget (F.HEL_STATUS_VOUT d)
    (∀ err : Int, s.power.railsUp = true → s.dieQ d = false → 550 ≤ v → Completes (.heliostatWindow d err) s fun t =>
      t.fget (F.HEL_STATUS_ERR d) = unsigned 12 (clampInt (-2048) 2047 err) ∧
      t.flag (F.HEL_STATUS_LOCKED d) = decide (0 ≤ err) ∧
      t.fget (F.HEL_STATUS_VOUT d) = (if err < 20 then (if s.fget F.DIA_PACE_DROOP = 0 then min 850 (v + 1) else v)
        else if 100 < err then max 550 (v - 1) else v) ∧ { t with regs := s.regs } = s) ∧
    (v = 850 → signed 12 (s.fget (F.HEL_STATUS_ERR d)) < -50 → Completes (.railMax d) s fun t =>
      t.flag (F.HEL_STATUS_RAIL_MAX d) = true ∧
      t.fget (F.HEL_STATUS_MCEIL d) = max (s.fget (F.HEL_STATUS_MCEIL d)) (min 15 (s.fget F.DIA_PACE_STEP + 1)) ∧
      ∀ a, t.byte a = s.byte a) ∧
    (s.stepNow = s.power.target ∨ 2 ≤ s.fget F.DIA_PSTATE_STATE → Completes .paceStepChange s fun t => t = s) ∧
    (s.power.railsUp = true → s.dieQ d = false → s.stepNow ≤ 15 → s.stepNow ≠ s.power.target →
      s.fget F.DIA_PSTATE_STATE < 2 → Completes .paceStepChange s fun t =>
      t.power.target = s.stepNow ∧ t.fget (F.HEL_STATUS_VOUT d) = s.tableVolt d s.stepNow ∧
      t.fget (F.HEL_STATUS_STEP d) = max (s.fget (F.HEL_STATUS_STEP d))
        (if s.fget (F.HEL_STATUS_STEP d) ≤ s.stepNow then s.stepNow else 0) ∧
      { t with regs := s.regs, power := s.power } = s) ∧
    (s.power.target < s.fget (F.HEL_STATUS_STEP d) → s.dieQ d = false → Completes (.meterSwitch d) s fun t =>
      t.fget (F.HEL_STATUS_STEP d) = s.power.target ∧ { t with regs := s.regs } = s) ∧
    (∀ ppm : Int, s.refBand ppm = true →
      let w := s.power.refWin ++ [ppm]
      let w16 := w.drop (w.length - 16)
      (s.fget F.COL_STATUS_STATE = 1 → refPass w16 = true → Completes (.referenceWindow ppm) s fun t =>
        t.fget F.COL_STATUS_STATE = 2 ∧ t.power.refWin = [] ∧ { t with regs := s.regs, power := s.power } = s) ∧
      (s.fget F.COL_STATUS_STATE = 4 → Completes (.referenceWindow ppm) s fun t =>
        t.power.refWin = w16 ∧ { t with power := s.power } = s)) ∧
    (s.fget F.COL_STATUS_STATE = 2 → Completes .rootLock s fun t =>
      t.fget F.COL_STATUS_STATE = 3 ∧ (s.fget F.PLN_BOOT_STEP = 4 → t.fget F.PLN_BOOT_STEP = 5) ∧
      (s.time.run = true → t.time = s.time) ∧ (s.time.run = false → t.now = 0 ∧ t.time.run = true) ∧
      { t with regs := s.regs, time := s.time } = s) ∧
    (s.fget F.COL_STATUS_STATE = 3 → Completes .referenceLoss s fun t =>
      t.fget F.COL_STATUS_STATE = 4 ∧ t.fget F.COL_STATUS_LOSSES = min 0xFFFF (s.fget F.COL_STATUS_LOSSES + 1) ∧
      t.power.refWin = [] ∧ t.time = s.time ∧ ∀ a, t.byte a = s.byte a) ∧
    (s.fget F.COL_STATUS_STATE = 4 → refPass s.power.refWin = true → Completes .referenceReturn s fun t =>
      t.fget F.COL_STATUS_STATE = 3 ∧ { t with regs := s.regs, power := s.power } = s) ∧
    (∀ w : BitVec 32, Completes (.fcntStart .armature w) s fun t =>
      t.fget F.COL_FCNT_CTRL_SEL = w.toNat % 256 ∧ t.fget F.COL_FCNT_CTRL_GATE = w.toNat / 2 ^ 20 % 16 ∧
      t.flag F.COL_FCNT_CTRL_START = (w.getLsbD 31 || s.flag F.COL_FCNT_CTRL_START) ∧ { t with regs := s.regs } = s) ∧
    ∀ n : Nat, s.flag F.COL_FCNT_CTRL_START = true → Completes (.fcntDone n) s fun t =>
      t.flag F.COL_FCNT_CTRL_START = false ∧
      t.reg Reg.COL_FCNT_RESULT =
        (if selOk (s.fget F.COL_FCNT_CTRL_SEL) then BitVec.ofNat 32 (min 0xFFFFFFFF n) else 0) ∧
      { t with regs := s.regs } = s

/-- The Diaphragm (R293 to R298): an estimate, weighed by the trims and gains, shares the cap, chooses the steps and duty
of the cap ceiling, and parks slots at once when compute is more than 3 % over its budget; the frame advances; a rail's
gain follows what is measured; DIA_CAP, DIA_PRIO and DIA_MIN take a write that keeps their rules before the lock, and set
ERR on one that does not. The parking count's formula is the model's (log entry 42). -/
def Obligations.PowerCapIsKept : Prop :=
  ∀ (s : State),
    (∀ est : PowerEst,
      let e := s.weigh est
      let comp := e.arrays.sum + e.control.sum + e.sram.sum + e.rifflers.sum
      let dem := s.demands [comp, e.memory.sum, e.links.sum]
      let give := share (1000 * s.capW) dem ([0, 1, 2].map fun c => 1000 * s.fget (F.DIA_MIN_W c)) s.prio
      let budget := give.getD 0 0
      Completes (.diaphragmEstimate est) s fun t =>
        t.power.est = ((comp, e.memory.sum, e.links.sum) :: s.power.est).take 500 ∧
        t.power.capLo = (s.capChoice e budget).1 ∧ t.power.capHi = (s.capChoice e budget).2.1 ∧
        t.fget F.DIA_STATUS_DUTY = (s.capChoice e budget).2.2 ∧
        (103 * budget < 100 * comp → t.power.parkDia = min 16 (s.power.parkDia + s.excess comp budget)) ∧
        ∀ a, t.byte a = s.byte a) ∧
    (Completes .ditherSlot s fun t =>
      t.power.frame = (s.power.frame + 1) % 16 ∧ { t with power := s.power } = s) ∧
    (∀ (r : Fin 18) (m n : Nat), n ≠ 0 → Completes (.regulatorRead r m n false) s fun t =>
      let g := (lookup s.power.gains r.val).getD 65536
      lookup t.power.gains r.val = some (clampInt 52429 78643 (g + (((65536 * m / n : Nat) : Int) - g) / 4)) ∧
      { t with power := s.power } = s) ∧
    (∀ v : BitVec 32,
      (s.flag F.DIA_CAP_LOCK = false → Completes (.diaCapWrite .armature v) s fun t =>
        t.fget F.DIA_CAP_CAP = v.toNat % 4096 ∧ t.flag F.DIA_CAP_LOCK = v.getLsbD 31 ∧
        t.power.frame = 0 ∧
        { t with regs := s.regs, power := s.power } = s) ∧
      (s.flag F.DIA_CAP_LOCK = true → Completes (.diaCapWrite .armature v) s fun t => (∀ k, t.reg k = s.reg k) ∧
        { t with regs := s.regs } = s) ∧
      (s.flag F.DIA_CAP_LOCK = false →
        let o := [v.toNat / 16 % 4, v.toNat / 4 % 4, v.toNat % 4]
        ([0, 1, 2].all o.contains = true → Completes (.diaPrioWrite .armature v) s fun t =>
          t.fget F.DIA_PRIO_ORDER = v.toNat % 64 ∧ { t with regs := s.regs } = s) ∧
        ([0, 1, 2].all o.contains = false → Completes (.diaPrioWrite .armature v) s fun t =>
          t.reg Reg.DIA_PRIO = s.reg Reg.DIA_PRIO ∧ t.flag F.DIA_STATUS_ERR = true ∧ { t with regs := s.regs } = s) ∧
        ∀ c : Fin 3,
          let sum := (([0, 1, 2].filter (· ≠ c.val)).map fun k => s.fget (F.DIA_MIN_W k)).sum + v.toNat % 4096
          (sum ≤ min 1000 s.capW → Completes (.diaMinWrite .armature c v) s fun t =>
            t.fget (F.DIA_MIN_W c) = v.toNat % 4096 ∧ { t with regs := s.regs } = s) ∧
          (min 1000 s.capW < sum → Completes (.diaMinWrite .armature c v) s fun t =>
            t.reg (Reg.DIA_MIN c) = s.reg (Reg.DIA_MIN c) ∧ t.flag F.DIA_STATUS_ERR = true ∧
            { t with regs := s.regs } = s)))

/-- PACE_N and temperature (R299, R301, R302, R316, R357): a held falling edge sets the droop ceiling two steps slower,
the rise is classed by its width, ceilings relax a step at a time; a sample, with its sensor's user offset, shows the
hottest sensor, at 104 °C sets P15 and parks, and below 97 °C admits; a stack's own temperature throttles it. -/
def Obligations.PaceAndTemperature : Prop :=
  ∀ (s : State),
    (s.power.paceLow = false → s.power.judged = true → s.power.droopL2 ≤ 15 → Completes .paceNFall s fun t =>
      let c := s.fget F.DIA_PACE_STEP
      t.power.paceLow = true ∧ t.power.paceFrom = c ∧ t.power.droopP = min 15 (c + 2) ∧
      t.fget F.DIA_PACE_DROOP = max (min 15 (c + 2)) s.power.droopL2 ∧
      { t with regs := s.regs, power := s.power } = s) ∧
    (∀ ns : Nat, s.power.paceLow = true → Completes (.paceNRise ns) s fun t =>
      let board := max (s.fget F.DIA_PACE_BOARD) (min 15 (s.power.paceFrom + 1))
      t.power.paceLow = false ∧
      (ns < 500 → t.power.droopP = 0 ∧ t.fget F.DIA_PACEN_GLITCH = min 0xFF (s.fget F.DIA_PACEN_GLITCH + 1)) ∧
      (500 ≤ ns → ns ≤ 5000 → t.power.droopP = s.power.droopP ∧
        t.fget F.DIA_PACEN_DROOPS = min 0xFF (s.fget F.DIA_PACEN_DROOPS + 1)) ∧
      (5000 < ns → ns ≤ 60000 → t.power.droopP = 0 ∧ t.fget F.DIA_PACE_BOARD = board ∧
        t.fget F.DIA_PACEN_WARNS = min 0xFF (s.fget F.DIA_PACEN_WARNS + 1)) ∧
      (60000 < ns → ns < 100000 → t.power.droopP = 0 ∧ t.fget F.DIA_PACE_BOARD = board ∧
        t.fget F.DIA_PACEN_INVALID = min 0xFF (s.fget F.DIA_PACEN_INVALID + 1)) ∧
      { t with regs := s.regs, power := s.power } = s) ∧
    (s.power.paceLow = false → Completes .droopRelax s fun t =>
      t.power.droopP = s.power.droopP - 1 ∧ { t with regs := s.regs, power := s.power } = s) ∧
    (Completes .boardRelax s fun t =>
      t.fget F.DIA_PACE_BOARD = s.fget F.DIA_PACE_BOARD - 1 ∧ { t with regs := s.regs } = s) ∧
    (∀ (k : BitVec 10) (c : Int), s.excl.contains k.toNat = false → s.gone.contains k.toNat = false →
      Completes (.thermalSample k c) s fun t =>
        let c := c + s.calUser 2 k.toNat
        t.fget F.DIA_THERM_SENSOR = k.toNat ∧ (t.fget F.DIA_THERM_TMAX : Int) = c % 2 ^ 16 ∧
        (416 ≤ c → t.fget F.DIA_PACE_THERM = 15 ∧ t.power.parkTherm = true) ∧
        (388 ≤ c → c < 416 → t.power = s.power) ∧ (c < 388 → t.power.parkTherm = false) ∧
        ∀ a, t.byte a = s.byte a) ∧
    (400 ≤ signed 16 (s.fget F.DIA_THERM_TMAX) → Completes .thermalSlowdown s fun t =>
      t.fget F.DIA_PACE_THERM = min 15 (s.fget F.DIA_PACE_THERM + 1) ∧ { t with regs := s.regs } = s) ∧
    (signed 16 (s.fget F.DIA_THERM_TMAX) < 388 → s.power.parkTherm = false → Completes .thermalSpeedup s fun t =>
      t.fget F.DIA_PACE_THERM = s.fget F.DIA_PACE_THERM - 1 ∧ { t with regs := s.regs } = s) ∧
    ∀ (h : Fin 16) (c : Int), Completes (.hbmTemp h c) s fun t =>
      t.power.hbmThr = s.power.hbmThr.set h (if 400 ≤ c then 16 else if 380 ≤ c then 32 else if c < 360 then 64
        else s.power.hbmThr.getD h 64) ∧ { t with power := s.power } = s

/-- Stops, sag and supply (R300, R303 to R306): a trip and an emergency stop halt the package in RETENTION with its contents
kept, and re-arm ends them when their causes have gone; sag levels act cumulatively and clear with those above;
PWRFAIL_N is L4 until it clears; the main rails' fall is L5 and STANDBY, with the fault records kept where none is pending a
judgement; the auxiliary rail's loss is OFF. -/
def Obligations.StopsAndSag : Prop :=
  ∀ (s : State) (d : Fin 4),
    let halted (t : State) : Prop := t.fget F.DIA_PSTATE_STATE = 2 ∧
      (s.dieQ d = false → t.fget (F.HEL_STATUS_VOUT d) = 500) ∧ t.tiles = s.tiles ∧ t.accs = s.accs ∧ t.ctxs = s.ctxs ∧
      ∀ a, t.byte a = s.byte a
    (∀ k : BitVec 10, s.power.railsUp = true → Completes (.trip k) s fun t =>
      halted t ∧ t.flag F.DIA_STATUS_TRIPPED = true ∧ t.fget F.TST_DUMP_CAUSE = 2 ∧
      t.fget F.DIA_TRIP_TRIPS = min 0xFFFF (s.fget F.DIA_TRIP_TRIPS + 1)) ∧
    (s.power.paceLow = true → s.power.railsUp = true → Completes .emergencyStop s fun t =>
      halted t ∧ t.flag F.DIA_STATUS_ESTOP = true ∧ t.fget F.TST_DUMP_CAUSE = 3) ∧
    (let hot := s.flag F.DIA_STATUS_TRIPPED && decide (380 ≤ signed 16 (s.fget F.DIA_THERM_TMAX))
     let low := s.flag F.DIA_STATUS_ESTOP && s.power.paceLow
     (s.stopped = true → hot = false → low = false → Completes (.rearm .armature) s fun t =>
       t.stopped = false ∧ t.fget F.DIA_PACE_THERM = s.fget F.DIA_PACE_FLOOR ∧ t.fget F.DIA_PSTATE_STATE = 1 ∧
       ∀ a, t.byte a = s.byte a) ∧
     (s.stopped = false ∨ hot = true ∨ low = true → Completes (.rearm .armature) s fun t =>
       t.flag F.DIA_STATUS_ERR = true ∧ { t with regs := s.regs } = s)) ∧
    (∀ (r : Fin 18) (l : Fin 3), s.power.railsUp = true → Completes (.sagTrigger r l) s fun t =>
      t.power.sag = s.power.sag ||| [1#3, 3#3, 7#3].getD l 0 ∧
      (0 < l.val → s.power.sag.getLsbD 1 = false → s.power.l4 = false →
        t.power.droopL2 = min 15 (s.fget F.DIA_PACE_STEP + 4)) ∧
      (l.val = 2 → s.power.sag.getLsbD 2 = false → s.power.l4 = false → t.power.parkSag = true) ∧ ∀ a, t.byte a = s.byte a) ∧
    (∀ l : Fin 3, Completes (.sagClear l) s fun t =>
      t.power.sag = s.power.sag &&& [0#3, 1#3, 3#3].getD l 0 ∧
      (l.val ≤ 1 → s.power.sag.getLsbD 1 = true → s.power.l4 = false → t.power.droopL2 = 0) ∧
      (s.power.sag.getLsbD 2 = true → s.power.l4 = false → t.power.parkSag = false) ∧
      (s.power.l4 = true → t.power.droopL2 = s.power.droopL2 ∧ t.power.parkSag = s.power.parkSag) ∧
      (l.val = 0 → s.power.l4 = false → t.fget F.DIA_SAG_LEVEL = 0) ∧
      ∀ a, t.byte a = s.byte a) ∧
    (s.power.judged = true → s.power.pwrfailLow = false → s.power.railsUp = true → Completes .pwrfailAssert s fun t =>
      t.power.l4 = true ∧ t.power.pwrfailLow = true ∧ t.sampling = false ∧
      (s.power.l4 = false → s.power.sag.getLsbD 1 = false → t.power.droopL2 = min 15 (s.fget F.DIA_PACE_STEP + 4)) ∧
      (s.power.l4 = false → s.power.sag.getLsbD 2 = false → t.power.parkSag = true) ∧ t.fget F.DIA_SAG_LEVEL = 4 ∧
      t.fget F.TST_DUMP_CAUSE = 1 ∧
      (∀ u, t.upd = some u → u.act = []) ∧ ∀ a, t.byte a = s.byte a) ∧
    (Completes .pwrfailRelease s fun t => t.power.pwrfailLow = false ∧ { t with power := s.power } = s) ∧
    (s.power.l4 = true → s.power.pwrfailLow = false → Completes .l4Clear s fun t =>
      t.power.l4 = false ∧ ∀ a, t.byte a = s.byte a) ∧
    (s.power.railsUp = true → Completes .mainRailsFall s fun t =>
      t.fget F.DIA_SAG_LEVEL = 5 ∧ t.fget F.DIA_PSTATE_STATE = 3 ∧ t.power.railsUp = false ∧
      (s.caps = [] → s.arithPend = [] → t.hist = s.hist ∧ t.ring = s.ring) ∧ t.pages = s.pages ∧ t.dumps = s.dumps) ∧
    (Completes .auxRailLoss s fun t =>
      t.fget F.PLN_BOOT_STEP = 0 ∧ t.power.auxUp = false ∧ t.hist = s.hist ∧ t.ring = s.ring ∧ t.pages = s.pages ∧
      t.dumps = s.dumps)

/-- Power states (R306): IDLE while no token flows; RETENTION on request with no command started, everything kept; back to
IDLE; STANDBY from RETENTION, where only what Inscription and the island hold stays (the fault records as they stand where
none is pending a judgement); and the way out of it, from step 4 of the power-up order. A request the state does not
permit sets ERR alone. -/
def Obligations.PowerStates : Prop :=
  ∀ (s : State) (d : Fin 4),
    let st := s.fget F.DIA_PSTATE_STATE
    let refused (t : State) : Prop := t.flag F.DIA_STATUS_ERR = true ∧ { t with regs := s.regs } = s
    (st = 0 → (∀ p ∈ s.engines, p.2.runA = none ∧ p.2.runB = none ∧ p.2.runV = none) → Completes .idleEntry s fun t =>
      t.fget F.DIA_PSTATE_STATE = 1 ∧ { t with regs := s.regs } = s) ∧
    (st = 1 → s.running = true → Completes .idleExit s fun t =>
      t.fget F.DIA_PSTATE_STATE = 0 ∧ { t with regs := s.regs } = s) ∧
    (st < 2 → s.anyBegun = false → s.power.l4 = false → s.stopped = false →
      Completes (.pstateRetention .armature) s fun t =>
        t.fget F.DIA_PSTATE_STATE = 2 ∧ t.tiles = s.tiles ∧ t.accs = s.accs ∧ t.ctxs = s.ctxs ∧
        (s.dieQ d = false → t.fget (F.HEL_STATUS_VOUT d) = 500) ∧ ∀ a, t.byte a = s.byte a) ∧
    (2 ≤ st ∨ s.anyBegun = true ∨ s.power.l4 = true ∨ s.stopped = true →
      Completes (.pstateRetention .armature) s refused) ∧
    (st = 2 → s.stopped = false → Completes (.pstateLeaveRetention .armature) s fun t =>
      t.fget F.DIA_PSTATE_STATE = 1 ∧
      (s.dieQ d = false → t.fget (F.HEL_STATUS_VOUT d) = s.tableVolt d (s.fget F.DIA_PACE_STEP)) ∧
      ∀ a, t.byte a = s.byte a) ∧
    (st ≠ 2 ∨ s.stopped = true → Completes (.pstateLeaveRetention .armature) s refused) ∧
    (st = 2 → s.power.l4 = false → s.stopped = false → Completes (.pstateStandby .armature) s fun t =>
      t.fget F.DIA_PSTATE_STATE = 3 ∧ t.power.railsUp = false ∧
      (s.caps = [] → s.arithPend = [] → t.hist = s.hist ∧ t.ring = s.ring) ∧ t.pages = s.pages) ∧
    (st ≠ 2 ∨ s.power.l4 = true ∨ s.stopped = true → Completes (.pstateStandby .armature) s refused) ∧
    (st = 3 → s.fget F.PLN_BOOT_FAIL ≠ 3 → Completes .standbyExit s fun t =>
      t.fget F.PLN_BOOT_STEP = 4 ∧ t.fget F.COL_STATUS_STATE = 1 ∧
      t.fget F.DIA_PSTATE_STATE = (if s.stopped then 2 else 1) ∧ t.power.cold = true ∧
      { t with regs := s.regs, power := s.power } = s)

/-! ## Faults, Loupe and repair -/

/-- Detected faults (R81, R88, R160, R313 to R316, R322, R343): an accumulator whose residue path disagrees is poisoned whole,
one that agrees is left as it is; a vector unit's or collective node's next output is marked; an engine's sequencer fault
or watchdog resets it, a cluster's and a Riffler's theirs; a silent core's queues halt; a sensor that is off is excluded and
rejoins; service time counts. -/
def Obligations.FaultsAreDetected : Prop :=
  ∀ (s : State),
    (∀ (p : Pos) (u : Unit3) (q : QEnt) (a : Nat), (s.eng p.key).inUnit u = some q → accOf q.w u = some a →
      (s.residueBad p.key a = none → Completes (.residueCheck p u) s fun t => t = s) ∧
      (∀ i diff, s.residueBad p.key a = some (i, diff) → Completes (.residueCheck p u) s fun t =>
        (∀ n, n < 1024 → (t.el p.key a n).poison = true) ∧ (∀ k, k / 1024 ≠ 8 * p.key + a → t.acc k = s.acc k) ∧
        (∀ k, t.tileB k = s.tileB k) ∧ ∀ b, t.byte b = s.byte b)) ∧
    (∀ (p : Pos) (q : QEnt) (lane diff : BitVec 6), diff ≠ 0 → diff ≠ 63 →
      ((s.eng p.key).runV = some q → vecOp q.w = true → Completes (.unitResidueMismatch (.vector p) lane diff) s fun t =>
        (t.eng p.key).vbad = true ∧ (∀ e, e ≠ p.key → t.eng e = s.eng e) ∧ ∀ b, t.byte b = s.byte b) ∧
      ∀ (g : BitVec 12) (i : BitVec 16), let x := s.inst (instKey g.toNat i.toNat)
        x.joined ≠ [] → x.op = 0 ∨ x.op = 3 → x.rooted = false →
        Completes (.unitResidueMismatch (.collective g i) lane diff) s fun t =>
          (t.inst (instKey g.toNat i.toNat)).hurt = true ∧ ∀ b, t.byte b = s.byte b) ∧
    (∀ (p : Pos) (point : BitVec 32),
      (Completes (.lockstepMismatch (.engine p) point) s fun t => (t.eng p.key).resetting = true ∧
        (t.eng p.key).ents = [] ∧ ∀ k, k < 64 → (t.tag (64 * p.key + k)) = {}) ∧
      (Completes (.handshakeWatchdog p point) s fun t => (t.eng p.key).resetting = true ∧
        (t.eng p.key).ents = [] ∧ ∀ k, k < 64 → (t.tag (64 * p.key + k)) = {}) ∧
      ∀ u : Clu, Completes (.lockstepMismatch (.cluster u) point) s fun t => u.key ∈ t.clReset) ∧
    (∀ (n : Fin 4) (point : BitVec 32), s.rifUp n = true → s.upd = none → s.roots = [] →
      Completes (.lockstepMismatch (.riffler n) point) s fun t =>
        t.fget (F.RIF_STATUS_STATE n) = 3 ∧ ∀ b, t.byte b = s.byte b) ∧
    (∀ (core : BitVec 8) (served : BitVec 16), Completes (.heartbeatMiss core served) s fun t =>
      (∀ q : Fin 16, served.getLsbD q = true → s.flag (F.PLN_CQ_CFG_OWNER q) = true →
        t.flag (F.PLN_CQ_STATUS_HALT q) = true ∧
        (s.flag (F.PLN_CQ_STATUS_HALT q) = false → t.fget (F.PLN_CQ_STATUS_HCAUSE q) = 4)) ∧
      ∀ b, t.byte b = s.byte b) ∧
    (∀ k : BitVec 10, s.gone.contains k.toNat = false →
      (s.excl.contains k.toNat = false → Completes (.sensorCheck k true) s fun t =>
        t.excl = s.excl ++ [k.toNat] ∧ ∀ b, t.byte b = s.byte b) ∧
      (s.excl.contains k.toNat = true →
        s.isPermanent { cls := 0x0F, unit := sensorUnit k.toNat, sig := BitVec.ofNat 32 k.toNat } = false →
        Completes (.sensorCheck k false) s fun t =>
          t.excl = s.excl.filter (· ≠ k.toNat) ∧ { t with excl := s.excl } = s)) ∧
    (s.power.auxUp = true → Completes .serviceTimeTick s fun t =>
      t.reg Reg.FLT_SVC_TIME = s.reg Reg.FLT_SVC_TIME + 1 ∧ ∀ b, t.byte b = s.byte b)

/-- Replays, rewrites, scrub and Loupe (R118, R119, R186, R188, R189, R324 to R326, R328): a replay starts against its
reference and its end frees the capture slot; a corrected word is written back; the patrol leaves data as it reads and
gives an uncorrectable word poison form; Loupe arms a chain, drops a hold, and files a chain's elements under its TAG. -/
def Obligations.ReplaysScrubAndLoupe : Prop :=
  ∀ (s : State),
    (∀ (n : Fin 16) (c : CapSlot), lookup s.caps n.val = some c → s.replayOff c.eng = false →
      (∀ f, c.running = false → (s.rot (c.eng / 17)).phase = .testing → (s.rot (c.eng / 17)).test = false →
        (s.rot (c.eng / 17)).x = c.eng → s.refEngine c.eng = some f → Completes (.replay n) s fun t =>
          lookup t.caps n.val = some { c with running := true, ref := f } ∧ { t with caps := s.caps } = s) ∧
      (∀ bad refBad, c.running = true → Completes (.replayDone n bad refBad) s fun t =>
        lookup t.caps n.val = none ∧ t.crash = (if bad = true ∨ refBad = true then s.crash ++ [c] else s.crash) ∧
        ∀ b, t.byte b = s.byte b)) ∧
    (∀ (a : BitVec 48) (w : Nat) (m : Bool), s.wback.find? (fun p => p.1 == a.toNat / 4) = some (w, m) →
      s.readable (4 * w) = true → Completes (.correctedWriteback a) s fun t =>
        t.stored (4 * w) = ⟨(s.stored (4 * w)).v, m || (s.stored (4 * w)).p⟩ ∧ t.wback = s.wback.erase (w, m) ∧
        ∀ b, b / 4 ≠ w → t.byte b = s.byte b) ∧
    (∀ (k : Tier) (x : BitVec 48), let a := x.toNat / 4 * 4
      s.flag F.MEM_SCRUB_EN = true → inTier k (s.locate a) = true → s.memWaits a = false → s.hole (s.locate a) = false →
      (∀ d, s.flag (F.MEM_SRAM_STATUS_BUSY d) = false) → Completes (.patrolScrub k x) s fun t =>
        (∀ b, t.byte b = s.byte b) ∧ (synOf (s.syn a) = .bad → t.syn a = 0x7F) ∧
        (synOf (s.syn a) = .good → t.syn a = s.syn a ∧ t.wback = s.wback) ∧
        (synOf (s.syn a) = .check → (a / 4, false) ∈ t.wback)) ∧
    (∀ (e : Pos) (acc : Fin 8) (tag : BitVec 16), (s.loupe e.clu).armed = none → (s.eng e.key).loupeHold = false →
      s.sampling = true → Completes (.loupeAutoArm e acc tag) s fun t =>
        (t.loupe e.clu).armed = some (e.key, acc.val, tag.toNat) ∧ { t with loupes := s.loupes } = s) ∧
    (∀ e : Pos, Completes (.loupeHoldExpiry e) s fun t =>
      (t.eng e.key).loupeHold = false ∧ { t with engines := s.engines } = s) ∧
    ∀ (u : Clu) (tag : Nat) (ps : List (BitVec 16 × BitVec 16)), (s.loupe u.key).sample = some (tag, ps) →
      s.sampling = true → Completes (.loupeChainDone u ps) s fun t =>
        (t.loupe u.key).armed = (s.loupe u.key).queued ∧ (t.loupe u.key).queued = none ∧
        (t.loupe u.key).sample = none ∧ (∀ b, t.byte b = s.byte b) ∧
        (s.checkerStands u.key = true → t.lpTab = s.lpTab ∧ ∀ k, t.reg k = s.reg k) ∧
        (s.checkerStands u.key = false → s.lpEcc = [] → s.lpOf tag = none →
          t.fget F.FLT_LP_UNMATCHED = min 0xFF (s.fget F.FLT_LP_UNMATCHED + 1) ∧ t.lpTab = s.lpTab) ∧
        ∀ i p k, s.checkerStands u.key = false → s.lpEcc = [] → s.lpOf tag = some i → ps = [p] →
          (binOf p.1 p.2 = some k →
            t.lpF i 10 31 0 = min 0xFFFFFFFF (s.lpF i 10 31 0 + 1) ∧ ∀ k, t.reg k = s.reg k) ∧
          (binOf p.1 p.2 = none →
            t.lpF i 9 31 16 = min 0xFFFF (s.lpF i 9 31 16 + 1) ∧ t.lpF i 10 31 0 = s.lpF i 10 31 0)

/-- The rotation, hand-over, retirement and the hang scan (R16, R163, R330 to R336, R339, R341 to R343): a rotation opens
its window on the next engine, is owed while suspended, and is deferred behind a draining context; the hand-over stops,
copies and binds, and the engine that left is tested, replayed or retired; a test's end makes the engine the spare or
retires it; a named unit is retired once; a failed module takes a spare; a channel that lost training is reset; a scan
keeps the cycles it finds. -/
def Obligations.RotationAndRetirement : Prop :=
  ∀ (s : State) (c : Clu),
    let u := c.key
    let r := s.rot u
    (s.rotSuspended u = true ∨ r.phase ≠ .idle → Completes (.rotationDue c) s fun t =>
      t.rot u = { r with owed := r.owed + 1 } ∧ { t with rots := s.rots } = s) ∧
    (∀ e l sp, s.rotSuspended u = false → r.phase = .idle → s.nextTested u = some (e, l) → s.spareOf u = some sp →
      Completes (.rotationDue c) s fun t =>
        t.rot u = { r with phase := .grace, x := e, s := sp, slot := l, fault := false, test := true,
                           drainOver := false, owed := r.owed - 1 } ∧ { t with rots := s.rots } = s) ∧
    (r.phase = .grace →
      (s.drains? r.x = true → Completes (.graceExpiry c) s fun t =>
        t.rot u = { r with drainOver := true } ∧ { t with rots := s.rots } = s) ∧
      (s.drains? r.x = false → Completes (.graceExpiry c) s fun t =>
        t.rot u = { r with phase := .stopped } ∧ (t.eng r.x).stop = true ∧ ∀ a, t.byte a = s.byte a) ∧
      (r.drainOver = true → s.drains? r.x = true → Completes (.rotationDeferral c) s fun t =>
        t.rot u = { r with phase := .idle, drainOver := false } ∧ (t.eng r.x).deferred = true ∧
        t.fget F.TST_COUNT_DEFERRED = min 0xFF (s.fget F.TST_COUNT_DEFERRED + 1) ∧ ∀ a, t.byte a = s.byte a) ∧
      ∀ (i : Fin 16) e sp, s.engineOf (16 * u + i.val) = some e → s.spareOf u = some sp → r.x = e →
        s.atBarrier e = true → (s.eng e).quiet = true → Completes (.handover c i) s fun t =>
          t.rot u = { r with phase := .stopped, drainOver := false } ∧ (t.eng e).stop = true ∧
          (∀ k, t.ctx k = s.ctx k) ∧ ∀ a, t.byte a = s.byte a) ∧
    (∀ (i : Fin 16) e sp, s.engineOf (16 * u + i.val) = some e → s.spareOf u = some sp → r.phase = .idle →
      s.retire.contains (engineUnit e) = true → Completes (.handover c i) s fun t =>
        (t.rot u).phase = .stopped ∧ (t.rot u).x = e ∧ (t.rot u).s = sp ∧ (t.rot u).fault = true ∧
        (t.eng e).stop = true ∧ ∀ a, t.byte a = s.byte a) ∧
    (r.phase = .stopped → (s.eng r.x).quiet = true → Completes (.handoverCopy c) s fun t =>
      t.rot u = { r with phase := .copied } ∧ (t.eng r.x).copying = true ∧ ∀ a, t.byte a = s.byte a) ∧
    (let y := (s.settle r.x).copyEngine r.x r.s
     r.phase = .copied → r.slot / 16 = u → r.s / 17 = u → r.x / 17 = u →
     (∀ k, k < 4 → (y.ctx (4 * r.s + k)).held = none) →
     (r.test = true ∨ s.retire.contains (engineUnit r.x) = false → Completes (.handoverBind c) s fun t =>
       t.engineOf r.slot = some r.s ∧ t.fget (F.STR_SPARE_SPARE u) = r.x % 17 ∧
       t.flag (F.STR_SPARE_TESTING u) = r.test ∧ t.rot u = { r with phase := .testing } ∧
       (∀ k, t.ctx k = y.ctx k ∧ t.tileB k = y.tileB k ∧ t.acc k = y.acc k) ∧ ∀ a, t.byte a = s.byte a) ∧
     (r.test = false → s.retire.contains (engineUnit r.x) = true → Completes (.handoverBind c) s fun t =>
       t.engineOf r.slot = some r.s ∧ t.flag (F.STR_SPARE_NONE u) = true ∧
       (t.fget (F.STR_SPARE_RETIRED u)).testBit (r.x % 17) = true ∧ t.rot u = { r with phase := .idle, fault := false } ∧
       (∀ k, t.tileB k = y.tileB k ∧ t.acc k = y.acc k) ∧ ∀ a, t.byte a = s.byte a)) ∧
    (r.phase = .testing → r.test = true → r.x / 17 = u →
      (s.capFails r.x = none → Completes (.rotationTestDone c .pass) s fun t =>
        t.fget (F.STR_SPARE_SPARE u) = r.x % 17 ∧ t.flag (F.STR_SPARE_NONE u) = false ∧
        t.flag (F.STR_SPARE_TESTING u) = false ∧ (t.rot u).phase = .idle ∧ (t.eng r.x).deferred = false ∧
        ∀ a, t.byte a = s.byte a) ∧
      (∀ site sig, site ≠ .loupe → Completes (.rotationTestDone c (.failTwice site sig)) s fun t =>
        t.flag (F.STR_SPARE_NONE u) = true ∧ (t.fget (F.STR_SPARE_RETIRED u)).testBit (r.x % 17) = true ∧
        (t.rot u).phase = .idle ∧ ∀ a, t.byte a = s.byte a) ∧
      (∀ i, s.capRuns i.toNat = true → Completes (.rotationTestDone c (.capsule i)) s fun t =>
        t.flag (F.STR_SPARE_NONE u) = true ∧ (t.fget (F.STR_SPARE_RETIRED u)).testBit (r.x % 17) = true ∧
        t.fget F.TST_COUNT_FAILS = min 0xFF (s.fget F.TST_COUNT_FAILS + 1) ∧ ∀ a, t.byte a = s.byte a) ∧
      (∀ i, s.capRuns i.toNat = false → Completes (.rotationTestDone c (.capsule i)) s fun t => t = s)) ∧
    (∀ unit : BitVec 32, s.retire.contains unit = true →
      (unit.toNat / 2 ^ 28 ∈ [1, 2, 3, 4, 5, 6, 7, 8, 9, 10, 12] → Completes (.unitRetirement unit) s fun t =>
        unit ∉ t.retire) ∧
      let d := unit.toNat / 2 ^ 26 % 4
      let g := unit.toNat % 2 ^ 22
      (unit.toNat / 2 ^ 28 = 7 → (d, g) ∉ s.granSpare → (d, g) ∉ s.granDead →
        (s.granSpare.filter fun x => x.1 == d).length < 64 → Completes (.unitRetirement unit) s fun t =>
          t.granSpare = s.granSpare ++ [(d, g)] ∧ t.granDead = s.granDead) ∧
      (unit.toNat / 2 ^ 28 = 12 → Completes (.unitRetirement unit) s fun t => t.gone.contains (unit.toNat % 1024) = true)) ∧
    (∀ (e : Fin 12) (m : BitVec 6), s.edgeUp e = true → m.toNat < (edgeMods e).1 →
      (s.badMods e).getLsbD m.toNat = false → (edgeMods e).2 < s.goodMods e →
      Completes (.edgeModuleFail e m) s fun t =>
        (t.badMods e).getLsbD m.toNat = true ∧ e.val ∈ t.modWait ∧ ∀ a, t.byte a = s.byte a) ∧
    (∀ e : Fin 12, s.modWait.contains e.val = true → (edgeMods e).2 ≤ s.goodMods e →
      Completes (.moduleSpareDone e) s fun t =>
        e.val ∉ t.modWait ∧ t.fget (F.PLN_EDGE_STATUS_STATE e) = 1 ∧
        t.fget (F.PLN_EDGE_STATUS_ACTIVE e) = (edgeMods e).2) ∧
    (∀ (m : Fin 24) (ch : Fin 32), ch.val < chans m → (m.val, ch.val) ∉ s.chReset →
      Completes (.channelTrainingLoss m ch) s fun t =>
        t.chReset = s.chReset ++ [(m.val, ch.val)] ∧ ∀ a, t.byte a = s.byte a) ∧
    (s.running = true → Completes .hangScan s fun t =>
      t.cycles = s.cyclesNow.map (fun y => (y, (lookup s.cycles y).getD 0 + 1)) ∧
      (s.cyclesNow = [] → { t with cycles := s.cycles } = s))

/-! ## Resets, test and repair of memory -/

/-- Resets (R88, R343 to R345, R352, R353): an engine's queues and tile tags are cleared and it stays in reset until its
check ends; clusters, dies and memory channels stay in reset until theirs; a port goes to DOWN with its retired lanes
kept; a Riffler leaves service; a package warm reset starts again at step 5 with HBM (policy unchanged), slow tier and
records kept, and a cold one at step 3 with the records kept (the fault records where none is pending a judgement). The
step a cold reset begins at is the model's (log entry 49). -/
def Obligations.ResetsClearAndKeep : Prop :=
  ∀ (s : State),
    (∀ e : Pos,
      (Completes (.resetEngine .armature e) s fun t =>
        (t.eng e.key).resetting = true ∧ (t.eng e.key).ents = [] ∧ ∀ k, k < 64 → (t.tag (64 * e.key + k)) = {}) ∧
      ((s.eng e.key).resetting = true → (Completes (.engineResetDone e true) s fun t =>
          (t.eng e.key).resetting = false ∧ (t.eng e.key).failed = false ∧ ∀ a, t.byte a = s.byte a) ∧
        (recent s.svc 60 (Sparse.get (fun _ => []) s.resetFail (e.key / 17)) = [] →
          Completes (.engineResetDone e false) s fun t =>
            (t.eng e.key).resetting = false ∧ (t.eng e.key).failed = true ∧ ∀ a, t.byte a = s.byte a))) ∧
    (∀ u : Clu, (Completes (.resetCluster .armature u) s fun t => u.key ∈ t.clReset) ∧
      Completes (.clusterResetDone u) s fun t =>
        t.clReset = s.clReset.filter (· ≠ u.key) ∧ { t with clReset := s.clReset } = s) ∧
    (∀ d : Fin 4, (Completes (.resetDie .armature d) s fun t => d.val ∈ t.dieReset) ∧
      Completes (.dieResetDone d) s fun t =>
        t.dieReset = s.dieReset.filter (· ≠ d.val) ∧ { t with dieReset := s.dieReset } = s) ∧
    (∀ (m : Fin 24) (ch : Fin 32),
      (ch.val < chans m → (m.val, ch.val) ∉ s.chReset → Completes (.resetMemoryChannel .armature m ch) s fun t =>
        t.chReset = s.chReset ++ [(m.val, ch.val)] ∧ ∀ a, t.byte a = s.byte a) ∧
      Completes (.memoryChannelResetDone m ch) s fun t =>
        t.chReset = s.chReset.filter (· ≠ (m.val, ch.val)) ∧ { t with chReset := s.chReset } = s) ∧
    (∀ p : Fin 12, s.fget (F.WPL_STATUS_STATE p) ≠ 6 → Completes (.resetLinkPort .armature p) s fun t =>
      t.fget (F.WPL_STATUS_STATE p) = 0 ∧ t.lret p = s.lret p ∧ ∀ a, t.byte a = s.byte a) ∧
    (∀ n : Fin 4, s.rifUp n = true → s.upd = none → s.roots = [] → Completes (.resetRiffler .armature n) s fun t =>
      t.fget (F.RIF_STATUS_STATE n) = 3 ∧ t.rifOut = s.rifOut ++ [(n.val, true)] ∧ ∀ a, t.byte a = s.byte a) ∧
    (Completes (.resetPackageWarm .armature) s fun t =>
      t.fget F.PLN_BOOT_STEP = 5 ∧ t.pages = s.pages ∧ t.capsules = s.capsules ∧
      (∀ a, 0xC000000000 ≤ a → a < 0x20000000000 → t.byte a = s.byte a) ∧
      (s.fget F.MEM_CFG_ILV = s.fget F.MEM_CFG_ILV_ACT → ∀ a, a < 0xC000000000 → t.byte a = s.byte a)) ∧
    (Completes (.resetPackageCold .armature) s fun t =>
      t.fget F.PLN_BOOT_STEP = 3 ∧ t.power.auxUp = true ∧
      (s.caps = [] → s.arithPend = [] → t.hist = s.hist ∧ t.ring = s.ring) ∧ t.pages = s.pages)

/-- Capsules, dumps, the margin plan and the repartition of stacked SRAM (R175, R337, R338, R347 to R350): a load of a
signed object of the right form that fits stores it, enabled, and one that fails stores nothing; erase and enable act on
their index; a dump takes its slot and tells the host; the plan moves each step's AGE offset by the day's drift within its
limits; a repartition takes the new boundary when the lines are written back and gone. -/
def Obligations.CapsulesDumpsMarginsAndScratch : Prop :=
  ∀ (s : State) (i : BitVec 8) (d : Fin 4),
    (s.capLife = true →
      (∀ h o, let v := capWord 1 false i
        let s1 := s.setReg Reg.TST_CAP_CMD v
        (s1.readBytes s1.capAddr 64).1 = some h → capHeadOk h = true →
        let s2 := (s1.readBytes s1.capAddr 64).2
        (s2.readBytes s2.capAddr (fieldOf h 4 8)).1 = some o → s.checkObj 3 o s.sec.svnCap = 0 →
        let c : Capsule := { size := o.length, enabled := true, bytes := o }
        poolKib (upsert s.capsules i.toNat c) ≤ 24576 → Completes (.capsuleLoad .armature i) s fun t =>
          t.fget F.TST_CAP_STATUS_RESULT = 0 ∧ lookup t.capsules i.toNat = some c ∧
          (∀ j, j ≠ i.toNat → lookup t.capsules j = lookup s.capsules j) ∧
          t.fget F.TST_CAP_STATUS_POOL = poolKib t.capsules ∧ ∀ a, t.byte a = s.byte a) ∧
      (Completes (.capsuleLoad .armature i) s fun t =>
        (t.fget F.TST_CAP_STATUS_RESULT ≠ 0 → t.capsules = s.capsules) ∧
        (t.fget F.TST_CAP_STATUS_RESULT = 0 → ∃ c, lookup t.capsules i.toNat = some c ∧ c.enabled = true ∧
          poolKib t.capsules ≤ 24576) ∧ ∀ a, t.byte a = s.byte a) ∧
      (Completes (.capsuleErase .armature i) s fun t =>
        lookup t.capsules i.toNat = none ∧ (∀ j, j ≠ i.toNat → lookup t.capsules j = lookup s.capsules j) ∧
        t.fget F.TST_CAP_STATUS_RESULT = 0 ∧ { t with regs := s.regs, capsules := s.capsules } = s) ∧
      ∀ en, Completes (.capsuleEnable .armature i en) s fun t =>
        lookup t.capsules i.toNat = (lookup s.capsules i.toNat).map (fun c => { c with enabled := en }) ∧
        (∀ j, j ≠ i.toNat → lookup t.capsules j = lookup s.capsules j) ∧
        { t with regs := s.regs, capsules := s.capsules } = s) ∧
    (s.capLife = false → Completes (.capsuleErase .armature i) s fun t =>
      t.capsules = s.capsules ∧ t.fget F.TST_CAP_STATUS_RESULT = 4) ∧
    (Completes (.takeDump .armature) s fun t =>
      t.fget F.TST_DUMP_CAUSE = 7 ∧ t.fget F.TST_DUMP_DUMPS = min 0xFFFF (s.fget F.TST_DUMP_DUMPS + 1) ∧
      t.msix.getLsbD 18 = true ∧
      ((lookup t.dumps s.dumpSlot).map fun x => (x.time, x.regs, x.caps)) = some (s.now, s.regs, s.caps) ∧
      { t with regs := s.regs, dumps := s.dumps, msix := s.msix } = s) ∧
    (∀ drift : List Int, Completes (.marginPlan d drift) s fun t =>
      (∀ k, k < 16 → signed 8 (t.fget (F.HEL_VT_AGE d k)) =
        clampInt (-128) 127 (signed 8 (s.fget (F.HEL_VT_AGE d k)) + clampInt (-2) 4 (drift.getD k 0))) ∧
      t.fget (F.TST_AGE_VP4 d) = t.tableVolt d 4 ∧ ∀ a, t.byte a = s.byte a) ∧
    (∀ v : BitVec 32, let n := v.toNat % 16
      (s.flag (F.MEM_SRAM_STATUS_BUSY d) = false → n ≤ 12 → Completes (.sramRepartition .armature d v) s fun t =>
        t.fget (F.MEM_SRAM_CFG_SCRATCH d) = n ∧ t.flag (F.MEM_SRAM_STATUS_BUSY d) = true ∧
        t.fget (F.MEM_SRAM_STATUS_ACT d) = min n (s.fget (F.MEM_SRAM_STATUS_ACT d)) ∧
        ∀ a, a < 0x20000000000 → t.byte a = s.byte a) ∧
      (s.flag (F.MEM_SRAM_STATUS_BUSY d) = true ∨ 12 < n → Completes (.sramRepartition .armature d v) s fun t =>
        t.flag (F.MEM_SRAM_STATUS_ERR d) = true ∧ { t with regs := s.regs } = s)) ∧
    (s.flag (F.MEM_SRAM_STATUS_BUSY d) = true →
      (Completes (.repartitionWritebackDone d) s fun t =>
        t.cache = s.cache.filter (fun x => x.die != d.val) ∧ { t with cache := s.cache } = s) ∧
      (s.cache.any (fun x => x.die == d.val) = false → Completes (.repartitionDone d) s fun t =>
        t.fget (F.MEM_SRAM_STATUS_ACT d) = s.fget (F.MEM_SRAM_CFG_SCRATCH d) ∧
        t.flag (F.MEM_SRAM_STATUS_BUSY d) = false ∧ ∀ a, a < 0x20000000000 → t.byte a = s.byte a))

/-! ## Start-up, the host port and the management bus -/

/-- The power-up order (R352 to R354, R361, R385, R386): each event acts at its step and begins the next. Auxiliary power
good begins step 1; the straps are latched once; an island and an Armature image that verify run, and with none the
package waits for recovery or serves management alone; rails rise to P15; dies are tested; edges and memories train;
calibration is applied; READY ends the order. Which step an event begins is the model's convention (log entry 49). -/
def Obligations.StartUpOrder : Prop :=
  ∀ (s : State) (d : Fin 4),
    let st := s.fget F.PLN_BOOT_STEP
    (s.power.auxUp = false → Completes .auxPowerGood s fun t =>
      t.fget F.PLN_BOOT_STEP = 1 ∧ t.power.auxUp = true ∧ t.hist = s.hist ∧ t.ring = s.ring) ∧
    (∀ (w : BitVec 24) (amb : BitVec 12), st = 1 → Completes (.strapLatch w amb) s fun t =>
      t.fget F.PLN_BOOT_STEP = 3 ∧ t.flag F.WPL_STRAP_VALID = strapOk w amb ∧ t.fget F.WPL_STRAP_ID = strapId w ∧
      t.fget F.PLN_FACET_WORD = w.toNat ∧
      t.fget F.PLN_MGMT_STATADDR = (if strapOk w amb then 0x50 + w.toNat / 2 ^ 13 % 8 else 0x4F) ∧
      { t with regs := s.regs } = s) ∧
    (3 ≤ st → s.fget F.PLN_FACET_PHASE = 0 → Completes .facetOutputsOn s fun t =>
      t.fget F.PLN_FACET_PHASE = 1 ∧ { t with regs := s.regs } = s) ∧
    (∀ pf pl : Bool, s.fget F.PLN_FACET_PHASE ≠ 0 → s.power.judged = false →
      Completes (.facetInputsJudged pf pl) s fun t =>
        t.power.judged = true ∧ t.power.pwrfailLow = pf ∧
        (pl = true → t.power.paceLow = true ∧ t.power.droopP = min 15 (s.fget F.DIA_PACE_STEP + 2)) ∧
        { t with regs := s.regs, power := s.power } = s) ∧
    (st = 3 → s.sec.recovering = false →
      (s.slotOk false (s.fget F.SEC_BOOT_ISL_SLOT) = true → Completes .firmwareVerify s fun t =>
        t.fget F.PLN_BOOT_STEP = 4 ∧ t.fget F.COL_STATUS_STATE = 1 ∧ t.flag F.SEC_POLICY_LOCK = true ∧
        ∀ a, t.byte a = s.byte a) ∧
      (s.slotOk false 0 = false → s.slotOk false 1 = false → Completes .firmwareVerify s fun t =>
        t.fget F.PLN_BOOT_FAIL = 1 ∧ t.sec.recovering = true ∧ t.fget F.PLN_BOOT_STEP = 3)) ∧
    (st = 5 → (s.power.pwrfailLow = false → Completes .railSequence s fun t =>
        t.fget F.PLN_BOOT_STEP = 6 ∧ t.power.railsUp = true ∧ t.power.sag = 0 ∧
        (s.dieQ d = false → t.fget (F.HEL_STATUS_VOUT d) = s.tableVolt d 15) ∧
        { t with regs := s.regs, power := s.power } = s) ∧
      Completes .railTimeout s fun t =>
        t.fget F.PLN_BOOT_FAIL = 3 ∧ t.fget F.DIA_PSTATE_STATE = 3 ∧ t.power.railsUp = false) ∧
    (∀ rev : BitVec 8, st = 6 → s.power.railsUp = true →
      (s.slotOk true (s.fget F.SEC_BOOT_ARM_SLOT) = true → Completes (.armatureStart rev) s fun t =>
        t.fget F.PLN_BOOT_STEP = 7 ∧ t.fget F.WPL_REV_REV = rev.toNat ∧ ∀ a, t.byte a = s.byte a) ∧
      (s.slotOk true 0 = false → s.slotOk true 1 = false → Completes (.armatureStart rev) s fun t =>
        t.fget F.PLN_BOOT_FAIL = 4 ∧ t.power.railsUp = false ∧ t.fget F.PLN_BOOT_STEP = 6)) ∧
    (st = 7 → (s.fget F.PLN_BOOT_DIEPASS).testBit d = false →
      (∀ pass again : Bool, pass = true ∨ again = true → s.dieQ d = false ∨ s.sec.relDies.getLsbD d = true →
        Completes (.dieSelfTest d pass again) s fun t =>
          (t.fget F.PLN_BOOT_DIEPASS).testBit d = true ∧ t.dieQ d = false ∧ ∀ a, t.byte a = s.byte a) ∧
      (s.dieQ d = false → Completes (.dieSelfTest d false false) s fun t =>
        t.dieQ d = true ∧ t.fget F.PLN_BOOT_FAIL = 5)) ∧
    (∀ (e : Fin 12) (good : BitVec 6), st = 8 → s.fget (F.PLN_EDGE_STATUS_STATE e) = 0 → s.goodMods e = good.toNat →
      Completes (.edgeTraining e good) s fun t =>
        t.fget (F.PLN_EDGE_STATUS_STATE e) = (if (edgeMods e).2 ≤ good.toNat then 1
          else if (edgeMods e).2 / 2 ≤ good.toNat then 2 else 3)) ∧
    (st = 9 → Completes (.memoryTraining []) s fun t =>
      t.fget F.PLN_BOOT_STEP = 10 ∧
      (∀ u, u < 16 → s.fget (F.MEM_H_STATUS_STATE u) ≠ 3 → s.dieQ (u / 4) = false →
        t.fget (F.MEM_H_STATUS_STATE u) = 2) ∧
      (s.power.cold = true → ∀ a, t.byte a = 0) ∧ (s.power.cold = false → ∀ a, t.byte a = s.byte a)) ∧
    (st = 10 → (s.power.calib = false → Completes .calibrationApply s fun t =>
        t.power.calib = true ∧ t.power.target = s.fget F.DIA_PACE_UCEIL ∧ t.sec.staged = none ∧
        (s.stopped = false → s.dieQ d = false → t.fget (F.HEL_STATUS_STEP d) = s.fget F.DIA_PACE_UCEIL ∧
          t.flag (F.HEL_STATUS_LOCKED d) = true) ∧ ∀ a, t.byte a = s.byte a) ∧
      ∀ ms, s.power.calib = true → Completes (.ready ms) s fun t =>
        t.fget F.PLN_BOOT_STEP = 11 ∧ t.fget F.PLN_BOOT_MS = min 0xFFFF ms ∧ { t with regs := s.regs } = s)

/-- The host port (R160, R355, R392 to R394): PERST# resets the port and halts the host's queues; the link comes up with its
rate and width; BAR0 reads and writes registers as the host may, BAR2 the memory, in poison form for a poisoned
write, BAR4 the host port's own bytes. -/
def Obligations.HostPort : Prop :=
  ∀ (s : State),
    (s.power.perstLow = false → Completes .perstAssert s fun t =>
      t.power.perstLow = true ∧ t.flag F.PLN_HOST_UP = false ∧
      (∀ q : Fin 16, s.flag (F.PLN_CQ_CFG_OWNER q) = false → t.flag (F.PLN_CQ_STATUS_HALT q) = true ∧
        (s.flag (F.PLN_CQ_STATUS_HALT q) = false → t.fget (F.PLN_CQ_STATUS_HCAUSE q) = 5)) ∧
      ∀ a, t.byte a = s.byte a) ∧
    (Completes .perstDeassert s fun t => t.power.perstLow = false ∧ { t with power := s.power } = s) ∧
    (∀ (rate : BitVec 3) (w : BitVec 5), s.power.perstLow = false → s.power.railsUp = true →
      6 ≤ s.fget F.PLN_BOOT_STEP → rate ≠ 0 → rate ≠ 7 → w.toNat ∈ [4, 8, 16] →
      Completes (.hostLinkUp rate w) s fun t =>
        t.flag F.PLN_HOST_UP = true ∧ t.fget F.PLN_HOST_RATE = rate.toNat ∧ t.fget F.PLN_HOST_WIDTH = w.toNat ∧
        (s.flag F.PLN_HOST_UP = true →
          t.fget F.PLN_HOST_RETRAINS = min 0xFFFF (s.fget F.PLN_HOST_RETRAINS + 1)) ∧ { t with regs := s.regs } = s) ∧
    (s.flag F.PLN_HOST_UP = true → ∀ (o : BitVec 48) (v : BitVec 32), let a := o.toNat / 4 * 4
      (Completes (.hostRead 0 o 1) s fun t =>
        t.cpl = [⟨(s.regRead .host .host (a % 2 ^ 32)).1, false⟩] ∧ t.cplPoison = false) ∧
      (Completes (.hostWrite 0 o [v] false) s fun t => t = s.regWrite .host .host (a % 2 ^ 32) v) ∧
      (Completes (.hostWrite 0 o [v] true) s fun t => t = s) ∧
      (a < 0x30000000000 → s.hostWaits a 1 = false → s.readable a = true →
        (Completes (.hostRead 1 o 1) s fun t =>
          t.cpl = [s.stored a] ∧ t.cplPoison = (s.stored a).p ∧ ∀ b, t.byte b = s.byte b) ∧
        ∀ poison, Completes (.hostWrite 1 o [v] poison) s fun t =>
          t.stored a = ⟨v, poison⟩ ∧ ∀ b, b / 4 ≠ a / 4 → t.byte b = s.byte b) ∧
      (a < 0x10000 → (Completes (.hostRead 2 o 1) s fun t =>
          t.cpl = [s.bar4Word a] ∧ { t with cpl := s.cpl, cplPoison := s.cplPoison } = s) ∧
        Completes (.hostWrite 2 o [v] false) s fun t =>
          t.bar4Word a = ⟨v, false⟩ ∧ { t with bar4 := s.bar4 } = s))

/-- The management bus, FAULT_N and Cheval's port (R316, R354, R370, R373, R388, R389): an address is set; a register read
advances it; SEC_ADDR takes a write; the status says whether the last access was refused; recovery bytes are gathered, and
an image whose object checks boots at step 4 while any other is dropped; a CCC selects I3C; a pulse's end sends the
highest pending code or holds the line; the test access port halts, steps and releases an engine and reads and writes, and
only at FULL with the DEBUG phase on; what internal scan does stops the model, since no rule says what the scan chains
hold. -/
def Obligations.ManagementAndTestPorts : Prop :=
  ∀ (s : State),
    (s.busUp = true → s.fget F.PLN_MGMT_MODE = 2 →
      (∀ a : BitVec 64, Completes (.mgmtAddr a) s fun t =>
        t.sec.mgmtAddr = a ∧ t.sec.mgmtRef = false ∧ { t with sec := s.sec } = s) ∧
      (∀ k, s.busReg s.sec.mgmtAddr = some k → Completes .mgmtRead s fun t =>
        t.sec.mgmtOut = (s.regRead .arm .mgmt k).1 ∧ t.sec.mgmtAddr = s.sec.mgmtAddr + 4 ∧ t.sec.mgmtRef = false) ∧
      (∀ v : BitVec 32, s.busReg s.sec.mgmtAddr = some Reg.SEC_ADDR_LO → Completes (.mgmtWrite v) s fun t =>
        t.reg Reg.SEC_ADDR_LO = v ∧ t.sec.mgmtRef = false ∧ (∀ k, k ≠ Reg.SEC_ADDR_LO → t.reg k = s.reg k) ∧
        { t with regs := s.regs, sec := s.sec } = s) ∧
      (Completes .mgmtStatus s fun t =>
        t.sec.mgmtOut = (if s.sec.mgmtRef then 1 else 0) ∧ { t with sec := s.sec } = s) ∧
      (s.sec.recovering = true → (∀ d : List (BitVec 8), d.length ≤ 32 → Completes (.recovery d) s fun t =>
          t.sec.recov = s.sec.recov ++ d ∧ t.sec.mgmtRef = false ∧ { t with sec := s.sec } = s) ∧
        (s.checkObj 1 s.sec.recov (s.minSvn 1) = 0 → Completes .recoveryGo s fun t => t.sec.recov = [] ∧
          t.sec.recovering = false ∧ t.sec.mgmtRef = false ∧ t.fget F.PLN_BOOT_STEP = 4 ∧ t.fget F.COL_STATUS_STATE = 1 ∧
          t.flag F.SEC_POLICY_LOCK = true ∧ ∀ a, t.byte a = s.byte a) ∧
        (s.checkObj 1 s.sec.recov (s.minSvn 1) ≠ 0 → Completes .recoveryGo s fun t =>
          t.sec = { s.sec with recov := [], mgmtRef := true } ∧ { t with sec := s.sec } = s) ∧
        Completes .recoveryGo s fun t => t.sec.recov = [] ∧
          ((t.sec.mgmtRef = true ∧ t.sec.recovering = true) ∨
            (t.sec.mgmtRef = false ∧ t.sec.recovering = false ∧ t.fget F.PLN_BOOT_STEP = 4)) ∧
          ∀ a, t.byte a = s.byte a)) ∧
    (s.busUp = true → s.fget F.PLN_MGMT_MODE ≠ 2 → ∀ a : BitVec 7, Completes (.cccBroadcast (some a)) s fun t =>
      t.fget F.PLN_MGMT_MODE = 1 ∧ t.flag F.PLN_MGMT_DAA = true ∧ t.fget F.PLN_MGMT_DYNADDR = a.toNat ∧
      { t with regs := s.regs } = s) ∧
    (s.fget F.PLN_FAULTN_ACTIVE ≠ 0 →
      (s.flag F.TST_STATUS_OOS = true → Completes .faultnPulseEnd s fun t =>
        t.flag F.PLN_FAULTN_HELD = true ∧ t.fget F.PLN_FAULTN_ACTIVE = 0 ∧ { t with regs := s.regs } = s) ∧
      (s.flag F.TST_STATUS_OOS = false → s.flag F.PLN_FAULTN_HELD = false → Completes .faultnPulseEnd s fun t =>
        t.fget F.PLN_FAULTN_ACTIVE = s.topPending.getD 0 ∧
        (∀ c, s.topPending = some c →
          t.fget F.PLN_FAULTN_PENDING = s.fget F.PLN_FAULTN_PENDING - 2 ^ (c - 1)) ∧ { t with regs := s.regs } = s)) ∧
    (∀ o : TapOp, s.tapOpen = false → Completes (.testAccessPortAccess o) s fun t => t = s) ∧
    (s.tapOpen = true →
      exec (.testAccessPortAccess .scan) s = .fault .scanUnspecified ∧
      (Completes (.testAccessPortAccess .boundaryScan) s fun t => t = s) ∧
      (∀ e : Pos, (Completes (.testAccessPortAccess (.halt e)) s fun t => (t.eng e.key).halted = true ∧
          (t.eng e.key).steps = 0 ∧ (∀ k, t.ctx k = s.ctx k) ∧ ∀ a, t.byte a = s.byte a) ∧
        ((s.eng e.key).halted = true → Completes (.testAccessPortAccess (.singleStep e)) s fun t =>
          (t.eng e.key).steps = (s.eng e.key).steps + 1 ∧ { t with engines := s.engines } = s) ∧
        (Completes (.testAccessPortAccess (.resume e)) s fun t => (t.eng e.key).halted = false ∧
          ∀ a, t.byte a = s.byte a)) ∧
      (∀ (x : BitVec 48) (v : BitVec 32), let a := x.toNat / 4 * 4
        s.memWaits x.toNat = false → s.readable a = true →
        (Completes (.testAccessPortAccess (.memRead x)) s fun t => t.tapOut = s.stored a ∧ ∀ b, t.byte b = s.byte b) ∧
        Completes (.testAccessPortAccess (.memWrite x v)) s fun t =>
          t.stored a = ⟨v, false⟩ ∧ ∀ b, b / 4 ≠ a / 4 → t.byte b = s.byte b) ∧
      ∀ (a v : BitVec 32),
        (Completes (.testAccessPortAccess (.regRead a)) s fun t =>
          t.tapOut = ⟨(s.regRead .arm .cheval (a.toNat / 4 * 4)).1, false⟩) ∧
        Completes (.testAccessPortAccess (.regWrite a v)) s fun t => t = s.regWrite .arm .cheval (a.toNat / 4 * 4) v)

/-! ## Security -/

/-- Firmware and lifecycle (R354, R360, R361, R366 to R369, R375), by a requester who may, while no command runs: an image
whose object checks goes to the inactive slot, and nothing is staged on a refusal; a switch puts it on trial, a
confirmation ends the trial, and a trial not confirmed falls back; key hashes are installed in PROVISIONED only; a grant
whose object checks and its end go through a warm reset and zeroisation, whose end puts the new state in force;
provisioning is the first change. -/
def Obligations.FirmwareAndLifecycle : Prop :=
  ∀ (s : State),
    (s.flag F.SEC_STATUS_BUSY = false →
      let done (res : Nat) (t : State) : Prop := t.flag F.SEC_STATUS_BUSY = false ∧ t.fget F.SEC_STATUS_RESULT = res ∧
        t.fget F.SEC_STATUS_SEQ = (s.fget F.SEC_STATUS_SEQ + 1) % 2 ^ 16
      let s1 (op : Nat) : State := s.setReg Reg.SEC_CMD (secWord op false)
      let took (op typ n floor : Nat) (o : List (BitVec 8)) : Prop :=
        ((s1 op).takeObj typ n floor).1 = 0 ∧ ((s1 op).takeObj typ n floor).2.1 = o
      let image (o : List (BitVec 8)) : FwSlot :=
        { valid := true, svn := objSvn o, digest := Config.sha384 o, key := objKey o }
      (∀ n o, (n ≤ 0x200000 → took 1 1 n (s.minSvn 1) o → Completes (.stageIsl .armature n) s fun t => done 0 t ∧
          t.sec.isl = s.sec.isl.set (1 - s.fget F.SEC_BOOT_ISL_SLOT) (image o) ∧ t.sec.arm = s.sec.arm ∧
          ∀ a, t.byte a = s.byte a) ∧
        (n ≤ 0x800000 → took 2 2 n (s.minSvn 2) o → Completes (.stageArm .armature n) s fun t => done 0 t ∧
          t.sec.arm = s.sec.arm.set (1 - s.fget F.SEC_BOOT_ARM_SLOT) (image o) ∧ t.sec.isl = s.sec.isl ∧
          ∀ a, t.byte a = s.byte a)) ∧
      (∀ n o, s.sec.life = 1 → 1 ≤ n → n ≤ 4 → ((s1 5).readBytes (s1 5).secAddr (48 * n)).1 = some o →
        Completes (.install .armature n) s fun t => done 0 t ∧ t.sec.life = 2 ∧ t.fget F.SEC_LIFE_STATE = 2 ∧
          t.sec.opKeys = (List.range n).map (fun i => BitVec.ofNat 384 (fieldOf o (48 * i) (48 * i + 48))) ∧
          ∀ a, t.byte a = s.byte a) ∧
      (∀ o, s.sec.life = 1 ∨ s.sec.life = 2 → took 6 5 160 0 o → Completes (.grant .armature) s fun t =>
        t.flag F.SEC_STATUS_BUSY = true ∧ t.sec.granting = some 3 ∧ t.sec.former = s.sec.life ∧
        t.sec.life = s.sec.life ∧ t.fget F.PLN_BOOT_STEP = 5) ∧
      (∀ n : Nat, (Completes (.stageIsl .armature n) s fun t => ∃ res, done res t ∧
          (res ≠ 0 → t.sec.isl = s.sec.isl) ∧
          (res = 0 → ∃ f : FwSlot, f.valid = true ∧ t.sec.isl = s.sec.isl.set (1 - s.fget F.SEC_BOOT_ISL_SLOT) f) ∧
          t.sec.arm = s.sec.arm ∧ ∀ a, t.byte a = s.byte a) ∧
        Completes (.stageArm .armature n) s fun t => ∃ res, done res t ∧
          (res ≠ 0 → t.sec.arm = s.sec.arm) ∧
          (res = 0 → ∃ f : FwSlot, f.valid = true ∧ t.sec.arm = s.sec.arm.set (1 - s.fget F.SEC_BOOT_ARM_SLOT) f) ∧
          t.sec.isl = s.sec.isl ∧ ∀ a, t.byte a = s.byte a) ∧
      (∀ arm : Bool,
        (s.slotOk arm (1 - s.bootSlot arm) = true → s.onTrial arm = false →
          Completes (.switchFw .armature arm) s fun t => done 0 t ∧ t.bootSlot arm = 1 - s.bootSlot arm ∧
            (if arm then t.sec.trialArm else t.sec.trialIsl) = some (s.bootSlot arm) ∧
            t.flag F.SEC_BOOT_TRIAL = true ∧ ∀ a, t.byte a = s.byte a) ∧
        (s.slotOk arm (1 - s.bootSlot arm) = false ∨ s.onTrial arm = true →
          Completes (.switchFw .armature arm) s fun t => done 8 t ∧ { t with regs := s.regs } = s) ∧
        (s.onTrial arm = true → Completes (.confirmFw .armature arm) s fun t => done 0 t ∧ t.onTrial arm = false ∧
          t.flag F.SEC_BOOT_TRIAL = s.onTrial (!arm) ∧ { t with regs := s.regs, sec := s.sec } = s) ∧
        (s.onTrial arm = false → Completes (.confirmFw .armature arm) s fun t => done 8 t ∧
          { t with regs := s.regs } = s)) ∧
      (∀ n : Nat, 1 ≤ n → n ≤ 4 →
        (s.sec.life = 1 → Completes (.install .armature n) s fun t =>
          (done 0 t ∧ t.sec.life = 2 ∧ t.sec.opKeys.length = n ∧ t.fget F.SEC_LIFE_STATE = 2) ∨
          (done 6 t ∧ t.sec.life = 1 ∧ t.sec.opKeys = s.sec.opKeys)) ∧
        (s.sec.life ≠ 1 → Completes (.install .armature n) s fun t => done 5 t ∧ t.sec = s.sec)) ∧
      (s.sec.life = 1 ∨ s.sec.life = 2 → Completes (.grant .armature) s fun t =>
        (t.flag F.SEC_STATUS_BUSY = true ∧ t.sec.granting = some 3 ∧ t.sec.former = s.sec.life ∧
          t.fget F.PLN_BOOT_STEP = 5) ∨
        ((∃ res, res ≠ 0 ∧ done res t) ∧ t.sec.life = s.sec.life ∧ t.sec.granting = s.sec.granting)) ∧
      (s.sec.life = 3 → Completes (.endGrant .armature) s fun t =>
        t.flag F.SEC_STATUS_BUSY = true ∧ t.sec.granting = some s.sec.former ∧ t.fget F.PLN_BOOT_STEP = 5)) ∧
    (s.flag F.SEC_BOOT_TRIAL = true → Completes .confirmTimeout s fun t =>
      t.flag F.SEC_BOOT_TRIAL = false ∧ t.flag F.SEC_BOOT_FALLBACK = true ∧ t.sec.trialArm = none ∧
      t.sec.trialIsl = none ∧ ∀ a, t.byte a = s.byte a) ∧
    (∀ g, s.sec.granting = some g → s.stopped = false →
      (s.fget F.PLN_BOOT_STEP = 11 → s.power.zeroing = false → Completes .zeroisation s fun t =>
        t.power.zeroing = true ∧ (∀ a, t.byte a = 0) ∧ (∀ k, t.tileB k = 0) ∧ (∀ k, t.acc k = 0) ∧
        (∀ k, Sparse.get (fun _ => 0) t.sct k = 0) ∧ ∀ p, p < 12 → (t.port p).keyed = false) ∧
      (s.power.zeroing = true → g ≤ 4 → Completes .zeroisationDone s fun t =>
        t.power.zeroing = false ∧ t.sec.life = g ∧ t.fget F.SEC_LIFE_STATE = g ∧ t.flag F.SEC_LIFE_ZEROED = true ∧
        t.sec.granting = none ∧ t.flag F.SEC_STATUS_BUSY = false ∧ t.fget F.SEC_STATUS_RESULT = 0)) ∧
    (s.sec.life = 0 → Completes .provisioning s fun t => t.sec.life = 1 ∧ t.fget F.SEC_LIFE_STATE = 1)

/-- Burin's other commands and the debug levels (R361 to R364, R367, R371, R373, R375, R387): an object that checks has
its effect (a release, a retirement, a staged overlay, the boot configuration record, a minimum, a revocation), and a
refused one changes nothing it would have changed; minima never fall and revocations never end; the report is written
where its nonce lay; measurement 7 is extended; a level up to the highest permitted takes effect and one above it is
counted; the DEBUG phase needs FULL. -/
def Obligations.SecurityCommands : Prop :=
  ∀ (s : State),
    (s.flag F.SEC_STATUS_BUSY = false →
      let s1 (op : Nat) : State := s.setReg Reg.SEC_CMD (secWord op false)
      let done (res : Nat) (t : State) : Prop := t.flag F.SEC_STATUS_BUSY = false ∧ t.fget F.SEC_STATUS_RESULT = res ∧
        t.fget F.SEC_STATUS_SEQ = (s.fget F.SEC_STATUS_SEQ + 1) % 2 ^ 16
      let took (op typ n floor : Nat) (o : List (BitVec 8)) : Prop :=
        ((s1 op).takeObj typ n floor).1 = 0 ∧ ((s1 op).takeObj typ n floor).2.1 = o
      (∀ o, s.sec.life ≠ 4 → took 8 6 176 0 o → Completes (.releaseQuar .armature) s fun t => done 0 t ∧
        t.sec.relDies = s.sec.relDies ||| BitVec.ofNat 4 (fieldOf o 0 4) ∧
        (∀ d, d < 4 → t.sec.relClu.getD d 0 = s.sec.relClu.getD d 0 ||| BitVec.ofNat 24 (fieldOf o (4 + 3 * d) (7 + 3 * d))) ∧
        ((fieldOf o 0 4).testBit 8 = true → t.flag F.TST_STATUS_OOS = false ∧ t.fget F.TST_ESC_WARM7D = 0) ∧
        ((fieldOf o 0 4).testBit 8 = false → t.flag F.TST_STATUS_OOS = s.flag F.TST_STATUS_OOS) ∧
        ∀ a, t.byte a = s.byte a) ∧
      (∀ o, s.sec.life ≠ 0 → s.sec.life ≠ 4 → took 9 7 160 0 o → Completes (.retirePkg .armature) s fun t => done 0 t ∧
        t.sec.life = 4 ∧ t.fget F.SEC_LIFE_STATE = 4 ∧ t.sec.udsGone = true ∧ t.sec.attKey = false ∧
        t.flag F.TST_STATUS_OOS = true) ∧
      (∀ h o, ((s1 11).readBytes (s1 11).secAddr 64).1 = some h → fieldOf h 0 4 = 1 → fieldOf h 4 8 ≠ 0 →
        fieldOf h 4 8 ≤ 4096 →
        let s2 := ((s1 11).readBytes (s1 11).secAddr 64).2
        (s2.readBytes s2.secAddr (calLen h)).1 = some o →
        let s3 := (s2.readBytes s2.secAddr (calLen h)).2
        let b := (s3.readBytes s3.secAddr (calLen h + 160)).1
        let x := match b with
          | some b => if fieldOf b (calLen h) (calLen h + 4) = 4 then b else o
          | none => o
        s.checkCal x = 0 → Completes (.overlay .armature) s fun t => done 0 t ∧ t.sec.staged = some x ∧
          t.flag F.INS_CAL_STAGED = true ∧ ∀ a, t.byte a = s.byte a) ∧
      (∀ o, took 12 8 4096 0 o → Completes (.bootcfg .armature) s fun t => done 0 t ∧ t.sec.bootcfg = some o ∧
        ∀ a, t.byte a = s.byte a) ∧
      (∀ o, let k := fieldOf o 0 4
        took 13 9 164 0 o → 1 ≤ k → k ≤ 3 → objSvn o ≤ 64 → Completes (.svn .armature) s fun t => done 0 t ∧
          t.minSvn k = max (objSvn o) (s.minSvn k) ∧
          (∀ j, 1 ≤ j → j ≤ 3 → j ≠ k → t.minSvn j = s.minSvn j) ∧ ∀ a, t.byte a = s.byte a) ∧
      (∀ o, let k := fieldOf o 0 4
        took 15 10 164 0 o → k < 8 → k ≠ objKey o → Completes (.keyrev .armature) s fun t => done 0 t ∧
          t.sec.revoked = s.sec.revoked ||| (1#8 <<< k) ∧ ∀ a, t.byte a = s.byte a) ∧
      (s.sec.life ≠ 4 → Completes (.releaseQuar .armature) s fun t => ∃ res, done res t ∧
        (res ≠ 0 → t.sec.relDies = s.sec.relDies ∧ t.sec.relClu = s.sec.relClu ∧
          t.flag F.TST_STATUS_OOS = s.flag F.TST_STATUS_OOS) ∧
        ∀ d, s.sec.relDies.getLsbD d = true → t.sec.relDies.getLsbD d = true) ∧
      (s.sec.life ≠ 0 → s.sec.life ≠ 4 → Completes (.retirePkg .armature) s fun t => ∃ res, done res t ∧
        (res ≠ 0 → t.sec.life = s.sec.life ∧ t.flag F.TST_STATUS_OOS = s.flag F.TST_STATUS_OOS) ∧
        (res = 0 → t.sec.life = 4 ∧ t.sec.udsGone = true ∧ t.sec.attKey = false ∧ t.flag F.TST_STATUS_OOS = true)) ∧
      (s.sec.attKey = false → Completes (.attest .armature) s fun t => done 8 t ∧ { t with regs := s.regs } = s) ∧
      (∀ n s', s.sec.attKey = true → (s1 10).readBytes (s1 10).secAddr 32 = (some n, s') →
        Completes (.attest .armature) s fun t => done 0 t ∧ t.sec.report = true ∧
          ∀ a, t.byte a = (s'.writeN .arm (pkgOf s'.secAddr) (s'.secAddr.toNat % 2 ^ 48)
            (byteWords (s'.report456 n ++ (List.range 96).map (Config.attSig (s'.report456 n))))).byte a) ∧
      (Completes (.overlay .armature) s fun t => ∃ res, done res t ∧ (res ≠ 0 → t.sec.staged = s.sec.staged) ∧
        (res = 0 → t.sec.staged.isSome = true ∧ t.flag F.INS_CAL_STAGED = true) ∧ ∀ a, t.byte a = s.byte a) ∧
      (Completes (.bootcfg .armature) s fun t => ∃ res, done res t ∧ (res ≠ 0 → t.sec.bootcfg = s.sec.bootcfg) ∧
        (res = 0 → t.sec.bootcfg.isSome = true) ∧ ∀ a, t.byte a = s.byte a) ∧
      (Completes (.svn .armature) s fun t => ∃ res, done res t ∧ (∀ k, s.minSvn k ≤ t.minSvn k) ∧
        (res ≠ 0 → ∀ k, t.minSvn k = s.minSvn k) ∧ ∀ a, t.byte a = s.byte a) ∧
      (∀ d s', (s1 14).readBytes (s1 14).secAddr 48 = (some d, s') → Completes (.extend .armature) s fun t =>
        done 0 t ∧ t.sec.meas = s.sec.meas.set 7 (Config.sha384 (bytes48 (s.sec.meas.getD 7 0) ++
          bytes48 (BitVec.ofNat 384 (leNat d)))) ∧ ∀ a, t.byte a = s.byte a) ∧
      (Completes (.keyrev .armature) s fun t => ∃ res, done res t ∧ (res ≠ 0 → t.sec.revoked = s.sec.revoked) ∧
        (∀ k, s.sec.revoked.getLsbD k = true → t.sec.revoked.getLsbD k = true) ∧ ∀ a, t.byte a = s.byte a)) ∧
    ∀ v : BitVec 32, let n := v.toNat / 2 ^ 30
      (v.getLsbD 29 = false →
        (n ≤ s.levelMax → Completes (.debugLevelRequest .armature v) s fun t =>
          t.fget F.DBG_LEVEL_LEVEL = n ∧ t.flag F.DBG_LEVEL_FACET = false ∧ ∀ a, t.byte a = s.byte a) ∧
        (s.levelMax < n → Completes (.debugLevelRequest .armature v) s fun t =>
          t.fget F.DBG_LEVEL_LEVEL = s.fget F.DBG_LEVEL_LEVEL ∧
          t.fget F.DBG_LEVEL_DENIED = min 0xFFFF (s.fget F.DBG_LEVEL_DENIED + 1) ∧ { t with regs := s.regs } = s)) ∧
      (v.getLsbD 29 = true → n = 2 → s.levelMax = 2 → s.flag F.DBG_LEVEL_FACET = false →
        Completes (.facetRequest .armature v) s fun t =>
          t.fget F.DBG_LEVEL_LEVEL = 2 ∧ t.flag F.DBG_LEVEL_FACET = true ∧
          t.fget F.PLN_FACET_PHASE = (if s.flag F.PLN_FACET_TWOPIN then 3 else 2) ∧ ∀ a, t.byte a = s.byte a)

/-! ## The whole block -/

/-- Every command of the table, on every state and with every operand, completes with a next state, but for internal scan
through the open test access port, which no rule describes (R370). -/
def Obligations.EveryCommandCompletes : Prop :=
  ∀ (c : Instr) (s : State), (¬ ∃ t, exec c s = .next t) →
    c = .testAccessPortAccess .scan ∧ s.fget F.DBG_LEVEL_LEVEL = 2 ∧ s.flag F.DBG_LEVEL_FACET = true

/-- Memory stays in canonical form: whatever the step, addresses keep rising and no byte is listed that reads the same
unlisted. -/
def Obligations.MemoryStaysCanonical : Prop :=
  ∀ (s t : State), s.memWf → step s = .next t → t.memWf

/-- At reset no command waits, memory lists nothing and is in canonical form, the package is at step 0 of its power-up order
with its coordinates not valid, and these registers hold the values their tables give (R7, R27, R44, R294, R298, R310). -/
def Obligations.ResetLeaves : Prop :=
  State.reset.pending = [] ∧ State.reset.mem = [] ∧ State.reset.memWf ∧
    State.reset.flag F.PLN_PKG_ID_VALID = false ∧ State.reset.pkgId = 0xFFFF ∧ State.reset.reg Reg.SCT_STEP = 0 ∧
    State.reset.fget F.DIA_CAP_CAP = 2800 ∧ State.reset.fget F.DIA_PRIO_ORDER = 0x24 ∧
    State.reset.fget F.DIA_PACE_UCEIL = 4 ∧ State.reset.fget F.DIA_PACE_FLOOR = 12 ∧
    State.reset.fget F.PLN_BOOT_STEP = 0 ∧ State.reset.flag F.WPL_DISC_CFG_AUTO = true
end

