-- ==== Sys2Proof/Laws/Sparse.lean ====
section
/-! SUPPORT. Laws of sparse storage: a read after a write, and the canonical form. -/
namespace Sys2Proof.Machine

variable {α : Type}

theorem Sparse.get_del (d : Nat → α) (m : List (Nat × α)) (k i : Nat) :
    Sparse.get d (Sparse.del k m) i = if i = k then d k else Sparse.get d m i := by
  induction m with
  | nil => by_cases h : i = k <;> simp [Sparse.del, Sparse.get, h]
  | cons e m ih =>
    obtain ⟨j, w⟩ := e
    by_cases hj : j = k
    · by_cases hi : i = k
      · simp [Sparse.del, hj, hi] at ih ⊢; exact ih
      · have : ¬ k = i := fun h => hi h.symm
        simp [Sparse.del, Sparse.get, hj, hi, this] at ih ⊢; exact ih
    · by_cases hi : i = k
      · simp [Sparse.del, Sparse.get, hj, hi] at ih ⊢; exact ih
      · simp [Sparse.del, Sparse.get, hj, hi] at ih ⊢; split <;> simp_all

theorem Sparse.get_put (d : Nat → α) (m : List (Nat × α)) (k i : Nat) (v : α) :
    Sparse.get d (Sparse.put k v m) i = if i = k then v else Sparse.get d m i := by
  induction m with
  | nil => simp only [Sparse.put, Sparse.get, eq_comm (a := k)]
  | cons e m ih =>
    obtain ⟨j, w⟩ := e
    unfold Sparse.put
    split
    · simp only [Sparse.get, eq_comm (a := k)]
    · split
      · rename_i hj; subst hj
        by_cases h : i = j
        · simp [Sparse.get, h]
        · have : ¬ j = i := fun x => h x.symm
          simp [Sparse.get, h, this]
      · by_cases h : i = k
        · subst h; rename_i hj; simp only [Sparse.get, hj, if_false, ih, if_true]
        · simp only [Sparse.get, ih, h, if_false]

/-- A read after a write: the written key reads as the value, every other as before. -/
theorem Sparse.get_set [DecidableEq α] (d : Nat → α) (m : List (Nat × α)) (k i : Nat) (v : α) :
    Sparse.get d (Sparse.set d m k v) i = if i = k then v else Sparse.get d m i := by
  unfold Sparse.set
  split
  · rename_i h; rw [Sparse.get_del, h]
  · exact Sparse.get_put d m k i v

@[simp] theorem Sparse.get_set_self [DecidableEq α] (d : Nat → α) (m : List (Nat × α)) (k : Nat) (v : α) :
    Sparse.get d (Sparse.set d m k v) k = v := by simp [Sparse.get_set]

theorem Sparse.get_set_other [DecidableEq α] (d : Nat → α) (m : List (Nat × α)) (k i : Nat) (v : α) (h : i ≠ k) :
    Sparse.get d (Sparse.set d m k v) i = Sparse.get d m i := by simp [Sparse.get_set, h]

@[simp] theorem Sparse.get_nil (d : Nat → α) (k : Nat) : Sparse.get d [] k = d k := rfl

theorem Sparse.del_eq_filter (k : Nat) (m : List (Nat × α)) : Sparse.del k m = m.filter (fun e => decide (e.1 ≠ k)) := by
  induction m with
  | nil => rfl
  | cons e m ih => obtain ⟨j, w⟩ := e; by_cases h : j = k <;> simp [Sparse.del, h, ih]

theorem Sparse.mem_put {k : Nat} {v : α} {m : List (Nat × α)} {e : Nat × α} (h : e ∈ Sparse.put k v m) :
    e = (k, v) ∨ e ∈ m := by
  induction m with
  | nil => simpa [Sparse.put] using h
  | cons x m ih =>
    obtain ⟨j, w⟩ := x
    unfold Sparse.put at h
    split at h
    · simpa using h
    · split at h
      · simp at h ⊢; tauto
      · simp at h ⊢; rcases h with h | h
        · tauto
        · rcases ih h with h | h <;> tauto

/-- Filtering keeps the canonical form. -/
theorem Sparse.wf_filter [DecidableEq α] {d : Nat → α} {m : List (Nat × α)} (p : Nat × α → Bool) (h : Sparse.wf d m) :
    Sparse.wf d (m.filter p) :=
  ⟨h.1.sublist List.filter_sublist, fun e he => h.2 e (List.mem_of_mem_filter he)⟩

theorem Sparse.put_sorted (k : Nat) (v : α) (m : List (Nat × α)) (h : m.Pairwise (fun a b => a.1 < b.1)) :
    (Sparse.put k v m).Pairwise (fun a b => a.1 < b.1) := by
  induction m with
  | nil => simp [Sparse.put]
  | cons x m ih =>
    obtain ⟨j, w⟩ := x
    have hx := List.pairwise_cons.1 h
    unfold Sparse.put
    split
    · rename_i hk
      refine List.pairwise_cons.2 ⟨fun e he => ?_, h⟩
      rcases List.mem_cons.1 he with rfl | he
      · exact hk
      · exact lt_trans hk (hx.1 e he)
    · split
      · rename_i _ hj; subst hj; exact List.pairwise_cons.2 ⟨hx.1, hx.2⟩
      · refine List.pairwise_cons.2 ⟨fun e he => ?_, ih hx.2⟩
        rcases Sparse.mem_put he with rfl | he
        · simp; omega
        · exact hx.1 e he

/-- A write keeps the canonical form. -/
theorem Sparse.wf_set [DecidableEq α] {d : Nat → α} {m : List (Nat × α)} (k : Nat) (v : α) (h : Sparse.wf d m) :
    Sparse.wf d (Sparse.set d m k v) := by
  unfold Sparse.set
  split
  · rw [Sparse.del_eq_filter]; exact Sparse.wf_filter _ h
  · rename_i hv
    refine ⟨Sparse.put_sorted k v m h.1, fun e he => ?_⟩
    rcases Sparse.mem_put he with rfl | he
    · exact hv
    · exact h.2 e he

theorem Sparse.wf_nil [DecidableEq α] (d : Nat → α) : Sparse.wf d [] := ⟨List.Pairwise.nil, by simp⟩

end Sys2Proof.Machine
end

