-- ==== Sys2Proof/Laws/State.lean ====
section
/-! SUPPORT. Laws of the state's own updates: what each of them leaves as it was, one field a line, and what a read
after it gives. -/
namespace Sys2Proof.Machine

variable (s : State)

/-! ## Fields an update leaves -/

@[simp] theorem State.setReg_pending (k : Nat) (v : BitVec 32) : (s.setReg k v).pending = s.pending := rfl
@[simp] theorem State.setReg_mem (k : Nat) (v : BitVec 32) : (s.setReg k v).mem = s.mem := rfl
@[simp] theorem State.setReg_ecc (k : Nat) (v : BitVec 32) : (s.setReg k v).ecc = s.ecc := rfl
@[simp] theorem State.setReg_bursts (k : Nat) (v : BitVec 32) : (s.setReg k v).bursts = s.bursts := rfl
@[simp] theorem State.setReg_hbmEpoch (k : Nat) (v : BitVec 32) : (s.setReg k v).hbmEpoch = s.hbmEpoch := rfl
@[simp] theorem State.setReg_sramEpoch (k : Nat) (v : BitVec 32) : (s.setReg k v).sramEpoch = s.sramEpoch := rfl
@[simp] theorem State.setReg_sramClean (k : Nat) (v : BitVec 32) : (s.setReg k v).sramClean = s.sramClean := rfl
@[simp] theorem State.setReg_stg (k : Nat) (v : BitVec 32) : (s.setReg k v).stg = s.stg := rfl
@[simp] theorem State.setReg_stgEcc (k : Nat) (v : BitVec 32) : (s.setReg k v).stgEcc = s.stgEcc := rfl
@[simp] theorem State.setReg_cache (k : Nat) (v : BitVec 32) : (s.setReg k v).cache = s.cache := rfl
@[simp] theorem State.setReg_wback (k : Nat) (v : BitVec 32) : (s.setReg k v).wback = s.wback := rfl
@[simp] theorem State.setReg_engines (k : Nat) (v : BitVec 32) : (s.setReg k v).engines = s.engines := rfl
@[simp] theorem State.setReg_ctxs (k : Nat) (v : BitVec 32) : (s.setReg k v).ctxs = s.ctxs := rfl
@[simp] theorem State.setReg_tiles (k : Nat) (v : BitVec 32) : (s.setReg k v).tiles = s.tiles := rfl
@[simp] theorem State.setReg_sides (k : Nat) (v : BitVec 32) : (s.setReg k v).sides = s.sides := rfl
@[simp] theorem State.setReg_tileEcc (k : Nat) (v : BitVec 32) : (s.setReg k v).tileEcc = s.tileEcc := rfl
@[simp] theorem State.setReg_tags (k : Nat) (v : BitVec 32) : (s.setReg k v).tags = s.tags := rfl
@[simp] theorem State.setReg_accs (k : Nat) (v : BitVec 32) : (s.setReg k v).accs = s.accs := rfl
@[simp] theorem State.setReg_heads (k : Nat) (v : BitVec 32) : (s.setReg k v).heads = s.heads := rfl
@[simp] theorem State.setReg_xfers (k : Nat) (v : BitVec 32) : (s.setReg k v).xfers = s.xfers := rfl
@[simp] theorem State.setReg_batches (k : Nat) (v : BitVec 32) : (s.setReg k v).batches = s.batches := rfl
@[simp] theorem State.setReg_colls (k : Nat) (v : BitVec 32) : (s.setReg k v).colls = s.colls := rfl
@[simp] theorem State.setReg_nextId (k : Nat) (v : BitVec 32) : (s.setReg k v).nextId = s.nextId := rfl
@[simp] theorem State.setReg_semq (k : Nat) (v : BitVec 32) : (s.setReg k v).semq = s.semq := rfl
@[simp] theorem State.setReg_semBy (k : Nat) (v : BitVec 32) : (s.setReg k v).semBy = s.semBy := rfl
@[simp] theorem State.setReg_bars (k : Nat) (v : BitVec 32) : (s.setReg k v).bars = s.bars := rfl
@[simp] theorem State.setReg_cqs (k : Nat) (v : BitVec 32) : (s.setReg k v).cqs = s.cqs := rfl
@[simp] theorem State.setReg_wtasks (k : Nat) (v : BitVec 32) : (s.setReg k v).wtasks = s.wtasks := rfl
@[simp] theorem State.setReg_fence (k : Nat) (v : BitVec 32) : (s.setReg k v).fence = s.fence := rfl
@[simp] theorem State.setReg_drains (k : Nat) (v : BitVec 32) : (s.setReg k v).drains = s.drains := rfl
@[simp] theorem State.setReg_disabled (k : Nat) (v : BitVec 32) : (s.setReg k v).disabled = s.disabled := rfl
@[simp] theorem State.setReg_sct (k : Nat) (v : BitVec 32) : (s.setReg k v).sct = s.sct := rfl
@[simp] theorem State.setReg_sctEcc (k : Nat) (v : BitVec 32) : (s.setReg k v).sctEcc = s.sctEcc := rfl
@[simp] theorem State.setReg_sched (k : Nat) (v : BitVec 32) : (s.setReg k v).sched = s.sched := rfl
@[simp] theorem State.setReg_upd (k : Nat) (v : BitVec 32) : (s.setReg k v).upd = s.upd := rfl
@[simp] theorem State.setReg_updq (k : Nat) (v : BitVec 32) : (s.setReg k v).updq = s.updq := rfl
@[simp] theorem State.setReg_roots (k : Nat) (v : BitVec 32) : (s.setReg k v).roots = s.roots := rfl
@[simp] theorem State.setReg_owns (k : Nat) (v : BitVec 32) : (s.setReg k v).owns = s.owns := rfl
@[simp] theorem State.setReg_rifOut (k : Nat) (v : BitVec 32) : (s.setReg k v).rifOut = s.rifOut := rfl
@[simp] theorem State.setReg_ports (k : Nat) (v : BitVec 32) : (s.setReg k v).ports = s.ports := rfl
@[simp] theorem State.setReg_rtx (k : Nat) (v : BitVec 32) : (s.setReg k v).rtx = s.rtx := rfl
@[simp] theorem State.setReg_nextTag (k : Nat) (v : BitVec 32) : (s.setReg k v).nextTag = s.nextTag := rfl
@[simp] theorem State.setReg_nbr (k : Nat) (v : BitVec 32) : (s.setReg k v).nbr = s.nbr := rfl
@[simp] theorem State.setReg_grp (k : Nat) (v : BitVec 32) : (s.setReg k v).grp = s.grp := rfl
@[simp] theorem State.setReg_grpEcc (k : Nat) (v : BitVec 32) : (s.setReg k v).grpEcc = s.grpEcc := rfl
@[simp] theorem State.setReg_insts (k : Nat) (v : BitVec 32) : (s.setReg k v).insts = s.insts := rfl
@[simp] theorem State.setReg_issued (k : Nat) (v : BitVec 32) : (s.setReg k v).issued = s.issued := rfl
@[simp] theorem State.setReg_folds (k : Nat) (v : BitVec 32) : (s.setReg k v).folds = s.folds := rfl
@[simp] theorem State.setReg_time (k : Nat) (v : BitVec 32) : (s.setReg k v).time = s.time := rfl
@[simp] theorem State.setReg_idle (k : Nat) (v : BitVec 32) : (s.setReg k v).idle = s.idle := rfl
@[simp] theorem State.setReg_power (k : Nat) (v : BitVec 32) : (s.setReg k v).power = s.power := rfl
@[simp] theorem State.setReg_temps (k : Nat) (v : BitVec 32) : (s.setReg k v).temps = s.temps := rfl
@[simp] theorem State.setReg_excl (k : Nat) (v : BitVec 32) : (s.setReg k v).excl = s.excl := rfl
@[simp] theorem State.setReg_gone (k : Nat) (v : BitVec 32) : (s.setReg k v).gone = s.gone := rfl
@[simp] theorem State.setReg_ring (k : Nat) (v : BitVec 32) : (s.setReg k v).ring = s.ring := rfl
@[simp] theorem State.setReg_hist (k : Nat) (v : BitVec 32) : (s.setReg k v).hist = s.hist := rfl
@[simp] theorem State.setReg_ceHist (k : Nat) (v : BitVec 32) : (s.setReg k v).ceHist = s.ceHist := rfl
@[simp] theorem State.setReg_caps (k : Nat) (v : BitVec 32) : (s.setReg k v).caps = s.caps := rfl
@[simp] theorem State.setReg_crash (k : Nat) (v : BitVec 32) : (s.setReg k v).crash = s.crash := rfl
@[simp] theorem State.setReg_arithPend (k : Nat) (v : BitVec 32) : (s.setReg k v).arithPend = s.arithPend := rfl
@[simp] theorem State.setReg_lpTab (k : Nat) (v : BitVec 32) : (s.setReg k v).lpTab = s.lpTab := rfl
@[simp] theorem State.setReg_advRing (k : Nat) (v : BitVec 32) : (s.setReg k v).advRing = s.advRing := rfl
@[simp] theorem State.setReg_lpEcc (k : Nat) (v : BitVec 32) : (s.setReg k v).lpEcc = s.lpEcc := rfl
@[simp] theorem State.setReg_advEcc (k : Nat) (v : BitVec 32) : (s.setReg k v).advEcc = s.advEcc := rfl
@[simp] theorem State.setReg_loupes (k : Nat) (v : BitVec 32) : (s.setReg k v).loupes = s.loupes := rfl
@[simp] theorem State.setReg_shadows (k : Nat) (v : BitVec 32) : (s.setReg k v).shadows = s.shadows := rfl
@[simp] theorem State.setReg_retire (k : Nat) (v : BitVec 32) : (s.setReg k v).retire = s.retire := rfl
@[simp] theorem State.setReg_rots (k : Nat) (v : BitVec 32) : (s.setReg k v).rots = s.rots := rfl
@[simp] theorem State.setReg_pages (k : Nat) (v : BitVec 32) : (s.setReg k v).pages = s.pages := rfl
@[simp] theorem State.setReg_granSpare (k : Nat) (v : BitVec 32) : (s.setReg k v).granSpare = s.granSpare := rfl
@[simp] theorem State.setReg_granDead (k : Nat) (v : BitVec 32) : (s.setReg k v).granDead = s.granDead := rfl
@[simp] theorem State.setReg_modBad (k : Nat) (v : BitVec 32) : (s.setReg k v).modBad = s.modBad := rfl
@[simp] theorem State.setReg_modWait (k : Nat) (v : BitVec 32) : (s.setReg k v).modWait = s.modWait := rfl
@[simp] theorem State.setReg_cycles (k : Nat) (v : BitVec 32) : (s.setReg k v).cycles = s.cycles := rfl
@[simp] theorem State.setReg_resets (k : Nat) (v : BitVec 32) : (s.setReg k v).resets = s.resets := rfl
@[simp] theorem State.setReg_resetFail (k : Nat) (v : BitVec 32) : (s.setReg k v).resetFail = s.resetFail := rfl
@[simp] theorem State.setReg_chReset (k : Nat) (v : BitVec 32) : (s.setReg k v).chReset = s.chReset := rfl
@[simp] theorem State.setReg_clReset (k : Nat) (v : BitVec 32) : (s.setReg k v).clReset = s.clReset := rfl
@[simp] theorem State.setReg_dieReset (k : Nat) (v : BitVec 32) : (s.setReg k v).dieReset = s.dieReset := rfl
@[simp] theorem State.setReg_dumps (k : Nat) (v : BitVec 32) : (s.setReg k v).dumps = s.dumps := rfl
@[simp] theorem State.setReg_vhist (k : Nat) (v : BitVec 32) : (s.setReg k v).vhist = s.vhist := rfl
@[simp] theorem State.setReg_capsules (k : Nat) (v : BitVec 32) : (s.setReg k v).capsules = s.capsules := rfl
@[simp] theorem State.setReg_sec (k : Nat) (v : BitVec 32) : (s.setReg k v).sec = s.sec := rfl
@[simp] theorem State.setReg_msix (k : Nat) (v : BitVec 32) : (s.setReg k v).msix = s.msix := rfl
@[simp] theorem State.setReg_mirror (k : Nat) (v : BitVec 32) : (s.setReg k v).mirror = s.mirror := rfl
@[simp] theorem State.setReg_cpl (k : Nat) (v : BitVec 32) : (s.setReg k v).cpl = s.cpl := rfl
@[simp] theorem State.setReg_cplPoison (k : Nat) (v : BitVec 32) : (s.setReg k v).cplPoison = s.cplPoison := rfl
@[simp] theorem State.setReg_tapOut (k : Nat) (v : BitVec 32) : (s.setReg k v).tapOut = s.tapOut := rfl
@[simp] theorem State.setReg_bar4 (k : Nat) (v : BitVec 32) : (s.setReg k v).bar4 = s.bar4 := rfl
@[simp] theorem State.setReg_armIrq (k : Nat) (v : BitVec 32) : (s.setReg k v).armIrq = s.armIrq := rfl
@[simp] theorem State.setReg_sent (k : Nat) (v : BitVec 32) : (s.setReg k v).sent = s.sent := rfl
@[simp] theorem State.setReg_noRoute (k : Nat) (v : BitVec 32) : (s.setReg k v).noRoute = s.noRoute := rfl
@[simp] theorem State.setReg_free (k : Nat) (v : BitVec 32) : (s.setReg k v).free = s.free := rfl

@[simp] theorem State.fset_pending (f : Fld) (v : Nat) : (s.fset f v).pending = s.pending := rfl
@[simp] theorem State.fset_mem (f : Fld) (v : Nat) : (s.fset f v).mem = s.mem := rfl
@[simp] theorem State.fset_ecc (f : Fld) (v : Nat) : (s.fset f v).ecc = s.ecc := rfl
@[simp] theorem State.fset_bursts (f : Fld) (v : Nat) : (s.fset f v).bursts = s.bursts := rfl
@[simp] theorem State.fset_hbmEpoch (f : Fld) (v : Nat) : (s.fset f v).hbmEpoch = s.hbmEpoch := rfl
@[simp] theorem State.fset_sramEpoch (f : Fld) (v : Nat) : (s.fset f v).sramEpoch = s.sramEpoch := rfl
@[simp] theorem State.fset_sramClean (f : Fld) (v : Nat) : (s.fset f v).sramClean = s.sramClean := rfl
@[simp] theorem State.fset_stg (f : Fld) (v : Nat) : (s.fset f v).stg = s.stg := rfl
@[simp] theorem State.fset_stgEcc (f : Fld) (v : Nat) : (s.fset f v).stgEcc = s.stgEcc := rfl
@[simp] theorem State.fset_cache (f : Fld) (v : Nat) : (s.fset f v).cache = s.cache := rfl
@[simp] theorem State.fset_wback (f : Fld) (v : Nat) : (s.fset f v).wback = s.wback := rfl
@[simp] theorem State.fset_engines (f : Fld) (v : Nat) : (s.fset f v).engines = s.engines := rfl
@[simp] theorem State.fset_ctxs (f : Fld) (v : Nat) : (s.fset f v).ctxs = s.ctxs := rfl
@[simp] theorem State.fset_tiles (f : Fld) (v : Nat) : (s.fset f v).tiles = s.tiles := rfl
@[simp] theorem State.fset_sides (f : Fld) (v : Nat) : (s.fset f v).sides = s.sides := rfl
@[simp] theorem State.fset_tileEcc (f : Fld) (v : Nat) : (s.fset f v).tileEcc = s.tileEcc := rfl
@[simp] theorem State.fset_tags (f : Fld) (v : Nat) : (s.fset f v).tags = s.tags := rfl
@[simp] theorem State.fset_accs (f : Fld) (v : Nat) : (s.fset f v).accs = s.accs := rfl
@[simp] theorem State.fset_heads (f : Fld) (v : Nat) : (s.fset f v).heads = s.heads := rfl
@[simp] theorem State.fset_xfers (f : Fld) (v : Nat) : (s.fset f v).xfers = s.xfers := rfl
@[simp] theorem State.fset_batches (f : Fld) (v : Nat) : (s.fset f v).batches = s.batches := rfl
@[simp] theorem State.fset_colls (f : Fld) (v : Nat) : (s.fset f v).colls = s.colls := rfl
@[simp] theorem State.fset_nextId (f : Fld) (v : Nat) : (s.fset f v).nextId = s.nextId := rfl
@[simp] theorem State.fset_semq (f : Fld) (v : Nat) : (s.fset f v).semq = s.semq := rfl
@[simp] theorem State.fset_semBy (f : Fld) (v : Nat) : (s.fset f v).semBy = s.semBy := rfl
@[simp] theorem State.fset_bars (f : Fld) (v : Nat) : (s.fset f v).bars = s.bars := rfl
@[simp] theorem State.fset_cqs (f : Fld) (v : Nat) : (s.fset f v).cqs = s.cqs := rfl
@[simp] theorem State.fset_wtasks (f : Fld) (v : Nat) : (s.fset f v).wtasks = s.wtasks := rfl
@[simp] theorem State.fset_fence (f : Fld) (v : Nat) : (s.fset f v).fence = s.fence := rfl
@[simp] theorem State.fset_drains (f : Fld) (v : Nat) : (s.fset f v).drains = s.drains := rfl
@[simp] theorem State.fset_disabled (f : Fld) (v : Nat) : (s.fset f v).disabled = s.disabled := rfl
@[simp] theorem State.fset_sct (f : Fld) (v : Nat) : (s.fset f v).sct = s.sct := rfl
@[simp] theorem State.fset_sctEcc (f : Fld) (v : Nat) : (s.fset f v).sctEcc = s.sctEcc := rfl
@[simp] theorem State.fset_sched (f : Fld) (v : Nat) : (s.fset f v).sched = s.sched := rfl
@[simp] theorem State.fset_upd (f : Fld) (v : Nat) : (s.fset f v).upd = s.upd := rfl
@[simp] theorem State.fset_updq (f : Fld) (v : Nat) : (s.fset f v).updq = s.updq := rfl
@[simp] theorem State.fset_roots (f : Fld) (v : Nat) : (s.fset f v).roots = s.roots := rfl
@[simp] theorem State.fset_owns (f : Fld) (v : Nat) : (s.fset f v).owns = s.owns := rfl
@[simp] theorem State.fset_rifOut (f : Fld) (v : Nat) : (s.fset f v).rifOut = s.rifOut := rfl
@[simp] theorem State.fset_ports (f : Fld) (v : Nat) : (s.fset f v).ports = s.ports := rfl
@[simp] theorem State.fset_rtx (f : Fld) (v : Nat) : (s.fset f v).rtx = s.rtx := rfl
@[simp] theorem State.fset_nextTag (f : Fld) (v : Nat) : (s.fset f v).nextTag = s.nextTag := rfl
@[simp] theorem State.fset_nbr (f : Fld) (v : Nat) : (s.fset f v).nbr = s.nbr := rfl
@[simp] theorem State.fset_grp (f : Fld) (v : Nat) : (s.fset f v).grp = s.grp := rfl
@[simp] theorem State.fset_grpEcc (f : Fld) (v : Nat) : (s.fset f v).grpEcc = s.grpEcc := rfl
@[simp] theorem State.fset_insts (f : Fld) (v : Nat) : (s.fset f v).insts = s.insts := rfl
@[simp] theorem State.fset_issued (f : Fld) (v : Nat) : (s.fset f v).issued = s.issued := rfl
@[simp] theorem State.fset_folds (f : Fld) (v : Nat) : (s.fset f v).folds = s.folds := rfl
@[simp] theorem State.fset_time (f : Fld) (v : Nat) : (s.fset f v).time = s.time := rfl
@[simp] theorem State.fset_idle (f : Fld) (v : Nat) : (s.fset f v).idle = s.idle := rfl
@[simp] theorem State.fset_power (f : Fld) (v : Nat) : (s.fset f v).power = s.power := rfl
@[simp] theorem State.fset_temps (f : Fld) (v : Nat) : (s.fset f v).temps = s.temps := rfl
@[simp] theorem State.fset_excl (f : Fld) (v : Nat) : (s.fset f v).excl = s.excl := rfl
@[simp] theorem State.fset_gone (f : Fld) (v : Nat) : (s.fset f v).gone = s.gone := rfl
@[simp] theorem State.fset_ring (f : Fld) (v : Nat) : (s.fset f v).ring = s.ring := rfl
@[simp] theorem State.fset_hist (f : Fld) (v : Nat) : (s.fset f v).hist = s.hist := rfl
@[simp] theorem State.fset_ceHist (f : Fld) (v : Nat) : (s.fset f v).ceHist = s.ceHist := rfl
@[simp] theorem State.fset_caps (f : Fld) (v : Nat) : (s.fset f v).caps = s.caps := rfl
@[simp] theorem State.fset_crash (f : Fld) (v : Nat) : (s.fset f v).crash = s.crash := rfl
@[simp] theorem State.fset_arithPend (f : Fld) (v : Nat) : (s.fset f v).arithPend = s.arithPend := rfl
@[simp] theorem State.fset_lpTab (f : Fld) (v : Nat) : (s.fset f v).lpTab = s.lpTab := rfl
@[simp] theorem State.fset_advRing (f : Fld) (v : Nat) : (s.fset f v).advRing = s.advRing := rfl
@[simp] theorem State.fset_lpEcc (f : Fld) (v : Nat) : (s.fset f v).lpEcc = s.lpEcc := rfl
@[simp] theorem State.fset_advEcc (f : Fld) (v : Nat) : (s.fset f v).advEcc = s.advEcc := rfl
@[simp] theorem State.fset_loupes (f : Fld) (v : Nat) : (s.fset f v).loupes = s.loupes := rfl
@[simp] theorem State.fset_shadows (f : Fld) (v : Nat) : (s.fset f v).shadows = s.shadows := rfl
@[simp] theorem State.fset_retire (f : Fld) (v : Nat) : (s.fset f v).retire = s.retire := rfl
@[simp] theorem State.fset_rots (f : Fld) (v : Nat) : (s.fset f v).rots = s.rots := rfl
@[simp] theorem State.fset_pages (f : Fld) (v : Nat) : (s.fset f v).pages = s.pages := rfl
@[simp] theorem State.fset_granSpare (f : Fld) (v : Nat) : (s.fset f v).granSpare = s.granSpare := rfl
@[simp] theorem State.fset_granDead (f : Fld) (v : Nat) : (s.fset f v).granDead = s.granDead := rfl
@[simp] theorem State.fset_modBad (f : Fld) (v : Nat) : (s.fset f v).modBad = s.modBad := rfl
@[simp] theorem State.fset_modWait (f : Fld) (v : Nat) : (s.fset f v).modWait = s.modWait := rfl
@[simp] theorem State.fset_cycles (f : Fld) (v : Nat) : (s.fset f v).cycles = s.cycles := rfl
@[simp] theorem State.fset_resets (f : Fld) (v : Nat) : (s.fset f v).resets = s.resets := rfl
@[simp] theorem State.fset_resetFail (f : Fld) (v : Nat) : (s.fset f v).resetFail = s.resetFail := rfl
@[simp] theorem State.fset_chReset (f : Fld) (v : Nat) : (s.fset f v).chReset = s.chReset := rfl
@[simp] theorem State.fset_clReset (f : Fld) (v : Nat) : (s.fset f v).clReset = s.clReset := rfl
@[simp] theorem State.fset_dieReset (f : Fld) (v : Nat) : (s.fset f v).dieReset = s.dieReset := rfl
@[simp] theorem State.fset_dumps (f : Fld) (v : Nat) : (s.fset f v).dumps = s.dumps := rfl
@[simp] theorem State.fset_vhist (f : Fld) (v : Nat) : (s.fset f v).vhist = s.vhist := rfl
@[simp] theorem State.fset_capsules (f : Fld) (v : Nat) : (s.fset f v).capsules = s.capsules := rfl
@[simp] theorem State.fset_sec (f : Fld) (v : Nat) : (s.fset f v).sec = s.sec := rfl
@[simp] theorem State.fset_msix (f : Fld) (v : Nat) : (s.fset f v).msix = s.msix := rfl
@[simp] theorem State.fset_mirror (f : Fld) (v : Nat) : (s.fset f v).mirror = s.mirror := rfl
@[simp] theorem State.fset_cpl (f : Fld) (v : Nat) : (s.fset f v).cpl = s.cpl := rfl
@[simp] theorem State.fset_cplPoison (f : Fld) (v : Nat) : (s.fset f v).cplPoison = s.cplPoison := rfl
@[simp] theorem State.fset_tapOut (f : Fld) (v : Nat) : (s.fset f v).tapOut = s.tapOut := rfl
@[simp] theorem State.fset_bar4 (f : Fld) (v : Nat) : (s.fset f v).bar4 = s.bar4 := rfl
@[simp] theorem State.fset_armIrq (f : Fld) (v : Nat) : (s.fset f v).armIrq = s.armIrq := rfl
@[simp] theorem State.fset_sent (f : Fld) (v : Nat) : (s.fset f v).sent = s.sent := rfl
@[simp] theorem State.fset_noRoute (f : Fld) (v : Nat) : (s.fset f v).noRoute = s.noRoute := rfl
@[simp] theorem State.fset_free (f : Fld) (v : Nat) : (s.fset f v).free = s.free := rfl

@[simp] theorem State.setEng_pending (e : Nat) (x : Engine) : (s.setEng e x).pending = s.pending := rfl
@[simp] theorem State.setEng_regs (e : Nat) (x : Engine) : (s.setEng e x).regs = s.regs := rfl
@[simp] theorem State.setEng_mem (e : Nat) (x : Engine) : (s.setEng e x).mem = s.mem := rfl
@[simp] theorem State.setEng_ecc (e : Nat) (x : Engine) : (s.setEng e x).ecc = s.ecc := rfl
@[simp] theorem State.setEng_hbmEpoch (e : Nat) (x : Engine) : (s.setEng e x).hbmEpoch = s.hbmEpoch := rfl
@[simp] theorem State.setEng_sramEpoch (e : Nat) (x : Engine) : (s.setEng e x).sramEpoch = s.sramEpoch := rfl
@[simp] theorem State.setEng_sramClean (e : Nat) (x : Engine) : (s.setEng e x).sramClean = s.sramClean := rfl
@[simp] theorem State.setEng_stg (e : Nat) (x : Engine) : (s.setEng e x).stg = s.stg := rfl
@[simp] theorem State.setEng_stgEcc (e : Nat) (x : Engine) : (s.setEng e x).stgEcc = s.stgEcc := rfl
@[simp] theorem State.setEng_ctxs (e : Nat) (x : Engine) : (s.setEng e x).ctxs = s.ctxs := rfl
@[simp] theorem State.setEng_tiles (e : Nat) (x : Engine) : (s.setEng e x).tiles = s.tiles := rfl
@[simp] theorem State.setEng_sides (e : Nat) (x : Engine) : (s.setEng e x).sides = s.sides := rfl
@[simp] theorem State.setEng_tags (e : Nat) (x : Engine) : (s.setEng e x).tags = s.tags := rfl
@[simp] theorem State.setEng_accs (e : Nat) (x : Engine) : (s.setEng e x).accs = s.accs := rfl
@[simp] theorem State.setEng_heads (e : Nat) (x : Engine) : (s.setEng e x).heads = s.heads := rfl
@[simp] theorem State.setEng_xfers (e : Nat) (x : Engine) : (s.setEng e x).xfers = s.xfers := rfl
@[simp] theorem State.setEng_batches (e : Nat) (x : Engine) : (s.setEng e x).batches = s.batches := rfl
@[simp] theorem State.setEng_colls (e : Nat) (x : Engine) : (s.setEng e x).colls = s.colls := rfl
@[simp] theorem State.setEng_nextId (e : Nat) (x : Engine) : (s.setEng e x).nextId = s.nextId := rfl
@[simp] theorem State.setEng_semq (e : Nat) (x : Engine) : (s.setEng e x).semq = s.semq := rfl
@[simp] theorem State.setEng_semBy (e : Nat) (x : Engine) : (s.setEng e x).semBy = s.semBy := rfl
@[simp] theorem State.setEng_bars (e : Nat) (x : Engine) : (s.setEng e x).bars = s.bars := rfl
@[simp] theorem State.setEng_cqs (e : Nat) (x : Engine) : (s.setEng e x).cqs = s.cqs := rfl
@[simp] theorem State.setEng_wtasks (e : Nat) (x : Engine) : (s.setEng e x).wtasks = s.wtasks := rfl
@[simp] theorem State.setEng_fence (e : Nat) (x : Engine) : (s.setEng e x).fence = s.fence := rfl
@[simp] theorem State.setEng_sct (e : Nat) (x : Engine) : (s.setEng e x).sct = s.sct := rfl
@[simp] theorem State.setEng_upd (e : Nat) (x : Engine) : (s.setEng e x).upd = s.upd := rfl
@[simp] theorem State.setEng_ports (e : Nat) (x : Engine) : (s.setEng e x).ports = s.ports := rfl
@[simp] theorem State.setEng_rtx (e : Nat) (x : Engine) : (s.setEng e x).rtx = s.rtx := rfl
@[simp] theorem State.setEng_insts (e : Nat) (x : Engine) : (s.setEng e x).insts = s.insts := rfl
@[simp] theorem State.setEng_time (e : Nat) (x : Engine) : (s.setEng e x).time = s.time := rfl
@[simp] theorem State.setEng_idle (e : Nat) (x : Engine) : (s.setEng e x).idle = s.idle := rfl
@[simp] theorem State.setEng_power (e : Nat) (x : Engine) : (s.setEng e x).power = s.power := rfl
@[simp] theorem State.setEng_ring (e : Nat) (x : Engine) : (s.setEng e x).ring = s.ring := rfl
@[simp] theorem State.setEng_hist (e : Nat) (x : Engine) : (s.setEng e x).hist = s.hist := rfl
@[simp] theorem State.setEng_rots (e : Nat) (x : Engine) : (s.setEng e x).rots = s.rots := rfl
@[simp] theorem State.setEng_loupes (e : Nat) (x : Engine) : (s.setEng e x).loupes = s.loupes := rfl
@[simp] theorem State.setEng_sec (e : Nat) (x : Engine) : (s.setEng e x).sec = s.sec := rfl
@[simp] theorem State.setEng_msix (e : Nat) (x : Engine) : (s.setEng e x).msix = s.msix := rfl
@[simp] theorem State.setEng_free (e : Nat) (x : Engine) : (s.setEng e x).free = s.free := rfl

@[simp] theorem State.setCtx_pending (c : Nat) (x : Ctx) : (s.setCtx c x).pending = s.pending := rfl
@[simp] theorem State.setCtx_regs (c : Nat) (x : Ctx) : (s.setCtx c x).regs = s.regs := rfl
@[simp] theorem State.setCtx_mem (c : Nat) (x : Ctx) : (s.setCtx c x).mem = s.mem := rfl
@[simp] theorem State.setCtx_ecc (c : Nat) (x : Ctx) : (s.setCtx c x).ecc = s.ecc := rfl
@[simp] theorem State.setCtx_hbmEpoch (c : Nat) (x : Ctx) : (s.setCtx c x).hbmEpoch = s.hbmEpoch := rfl
@[simp] theorem State.setCtx_sramEpoch (c : Nat) (x : Ctx) : (s.setCtx c x).sramEpoch = s.sramEpoch := rfl
@[simp] theorem State.setCtx_sramClean (c : Nat) (x : Ctx) : (s.setCtx c x).sramClean = s.sramClean := rfl
@[simp] theorem State.setCtx_stg (c : Nat) (x : Ctx) : (s.setCtx c x).stg = s.stg := rfl
@[simp] theorem State.setCtx_stgEcc (c : Nat) (x : Ctx) : (s.setCtx c x).stgEcc = s.stgEcc := rfl
@[simp] theorem State.setCtx_engines (c : Nat) (x : Ctx) : (s.setCtx c x).engines = s.engines := rfl
@[simp] theorem State.setCtx_tiles (c : Nat) (x : Ctx) : (s.setCtx c x).tiles = s.tiles := rfl
@[simp] theorem State.setCtx_sides (c : Nat) (x : Ctx) : (s.setCtx c x).sides = s.sides := rfl
@[simp] theorem State.setCtx_tags (c : Nat) (x : Ctx) : (s.setCtx c x).tags = s.tags := rfl
@[simp] theorem State.setCtx_accs (c : Nat) (x : Ctx) : (s.setCtx c x).accs = s.accs := rfl
@[simp] theorem State.setCtx_heads (c : Nat) (x : Ctx) : (s.setCtx c x).heads = s.heads := rfl
@[simp] theorem State.setCtx_xfers (c : Nat) (x : Ctx) : (s.setCtx c x).xfers = s.xfers := rfl
@[simp] theorem State.setCtx_batches (c : Nat) (x : Ctx) : (s.setCtx c x).batches = s.batches := rfl
@[simp] theorem State.setCtx_colls (c : Nat) (x : Ctx) : (s.setCtx c x).colls = s.colls := rfl
@[simp] theorem State.setCtx_nextId (c : Nat) (x : Ctx) : (s.setCtx c x).nextId = s.nextId := rfl
@[simp] theorem State.setCtx_semq (c : Nat) (x : Ctx) : (s.setCtx c x).semq = s.semq := rfl
@[simp] theorem State.setCtx_semBy (c : Nat) (x : Ctx) : (s.setCtx c x).semBy = s.semBy := rfl
@[simp] theorem State.setCtx_bars (c : Nat) (x : Ctx) : (s.setCtx c x).bars = s.bars := rfl
@[simp] theorem State.setCtx_cqs (c : Nat) (x : Ctx) : (s.setCtx c x).cqs = s.cqs := rfl
@[simp] theorem State.setCtx_wtasks (c : Nat) (x : Ctx) : (s.setCtx c x).wtasks = s.wtasks := rfl
@[simp] theorem State.setCtx_fence (c : Nat) (x : Ctx) : (s.setCtx c x).fence = s.fence := rfl
@[simp] theorem State.setCtx_sct (c : Nat) (x : Ctx) : (s.setCtx c x).sct = s.sct := rfl
@[simp] theorem State.setCtx_upd (c : Nat) (x : Ctx) : (s.setCtx c x).upd = s.upd := rfl
@[simp] theorem State.setCtx_ports (c : Nat) (x : Ctx) : (s.setCtx c x).ports = s.ports := rfl
@[simp] theorem State.setCtx_rtx (c : Nat) (x : Ctx) : (s.setCtx c x).rtx = s.rtx := rfl
@[simp] theorem State.setCtx_insts (c : Nat) (x : Ctx) : (s.setCtx c x).insts = s.insts := rfl
@[simp] theorem State.setCtx_time (c : Nat) (x : Ctx) : (s.setCtx c x).time = s.time := rfl
@[simp] theorem State.setCtx_idle (c : Nat) (x : Ctx) : (s.setCtx c x).idle = s.idle := rfl
@[simp] theorem State.setCtx_power (c : Nat) (x : Ctx) : (s.setCtx c x).power = s.power := rfl
@[simp] theorem State.setCtx_ring (c : Nat) (x : Ctx) : (s.setCtx c x).ring = s.ring := rfl
@[simp] theorem State.setCtx_hist (c : Nat) (x : Ctx) : (s.setCtx c x).hist = s.hist := rfl
@[simp] theorem State.setCtx_rots (c : Nat) (x : Ctx) : (s.setCtx c x).rots = s.rots := rfl
@[simp] theorem State.setCtx_loupes (c : Nat) (x : Ctx) : (s.setCtx c x).loupes = s.loupes := rfl
@[simp] theorem State.setCtx_sec (c : Nat) (x : Ctx) : (s.setCtx c x).sec = s.sec := rfl
@[simp] theorem State.setCtx_msix (c : Nat) (x : Ctx) : (s.setCtx c x).msix = s.msix := rfl
@[simp] theorem State.setCtx_free (c : Nat) (x : Ctx) : (s.setCtx c x).free = s.free := rfl

@[simp] theorem State.setTag_pending (k : Nat) (x : Tag) : (s.setTag k x).pending = s.pending := rfl
@[simp] theorem State.setTag_regs (k : Nat) (x : Tag) : (s.setTag k x).regs = s.regs := rfl
@[simp] theorem State.setTag_mem (k : Nat) (x : Tag) : (s.setTag k x).mem = s.mem := rfl
@[simp] theorem State.setTag_ecc (k : Nat) (x : Tag) : (s.setTag k x).ecc = s.ecc := rfl
@[simp] theorem State.setTag_hbmEpoch (k : Nat) (x : Tag) : (s.setTag k x).hbmEpoch = s.hbmEpoch := rfl
@[simp] theorem State.setTag_sramEpoch (k : Nat) (x : Tag) : (s.setTag k x).sramEpoch = s.sramEpoch := rfl
@[simp] theorem State.setTag_sramClean (k : Nat) (x : Tag) : (s.setTag k x).sramClean = s.sramClean := rfl
@[simp] theorem State.setTag_stg (k : Nat) (x : Tag) : (s.setTag k x).stg = s.stg := rfl
@[simp] theorem State.setTag_stgEcc (k : Nat) (x : Tag) : (s.setTag k x).stgEcc = s.stgEcc := rfl
@[simp] theorem State.setTag_engines (k : Nat) (x : Tag) : (s.setTag k x).engines = s.engines := rfl
@[simp] theorem State.setTag_ctxs (k : Nat) (x : Tag) : (s.setTag k x).ctxs = s.ctxs := rfl
@[simp] theorem State.setTag_tiles (k : Nat) (x : Tag) : (s.setTag k x).tiles = s.tiles := rfl
@[simp] theorem State.setTag_sides (k : Nat) (x : Tag) : (s.setTag k x).sides = s.sides := rfl
@[simp] theorem State.setTag_accs (k : Nat) (x : Tag) : (s.setTag k x).accs = s.accs := rfl
@[simp] theorem State.setTag_heads (k : Nat) (x : Tag) : (s.setTag k x).heads = s.heads := rfl
@[simp] theorem State.setTag_xfers (k : Nat) (x : Tag) : (s.setTag k x).xfers = s.xfers := rfl
@[simp] theorem State.setTag_batches (k : Nat) (x : Tag) : (s.setTag k x).batches = s.batches := rfl
@[simp] theorem State.setTag_colls (k : Nat) (x : Tag) : (s.setTag k x).colls = s.colls := rfl
@[simp] theorem State.setTag_nextId (k : Nat) (x : Tag) : (s.setTag k x).nextId = s.nextId := rfl
@[simp] theorem State.setTag_semq (k : Nat) (x : Tag) : (s.setTag k x).semq = s.semq := rfl
@[simp] theorem State.setTag_semBy (k : Nat) (x : Tag) : (s.setTag k x).semBy = s.semBy := rfl
@[simp] theorem State.setTag_bars (k : Nat) (x : Tag) : (s.setTag k x).bars = s.bars := rfl
@[simp] theorem State.setTag_cqs (k : Nat) (x : Tag) : (s.setTag k x).cqs = s.cqs := rfl
@[simp] theorem State.setTag_wtasks (k : Nat) (x : Tag) : (s.setTag k x).wtasks = s.wtasks := rfl
@[simp] theorem State.setTag_fence (k : Nat) (x : Tag) : (s.setTag k x).fence = s.fence := rfl
@[simp] theorem State.setTag_sct (k : Nat) (x : Tag) : (s.setTag k x).sct = s.sct := rfl
@[simp] theorem State.setTag_upd (k : Nat) (x : Tag) : (s.setTag k x).upd = s.upd := rfl
@[simp] theorem State.setTag_ports (k : Nat) (x : Tag) : (s.setTag k x).ports = s.ports := rfl
@[simp] theorem State.setTag_rtx (k : Nat) (x : Tag) : (s.setTag k x).rtx = s.rtx := rfl
@[simp] theorem State.setTag_insts (k : Nat) (x : Tag) : (s.setTag k x).insts = s.insts := rfl
@[simp] theorem State.setTag_time (k : Nat) (x : Tag) : (s.setTag k x).time = s.time := rfl
@[simp] theorem State.setTag_idle (k : Nat) (x : Tag) : (s.setTag k x).idle = s.idle := rfl
@[simp] theorem State.setTag_power (k : Nat) (x : Tag) : (s.setTag k x).power = s.power := rfl
@[simp] theorem State.setTag_ring (k : Nat) (x : Tag) : (s.setTag k x).ring = s.ring := rfl
@[simp] theorem State.setTag_hist (k : Nat) (x : Tag) : (s.setTag k x).hist = s.hist := rfl
@[simp] theorem State.setTag_rots (k : Nat) (x : Tag) : (s.setTag k x).rots = s.rots := rfl
@[simp] theorem State.setTag_loupes (k : Nat) (x : Tag) : (s.setTag k x).loupes = s.loupes := rfl
@[simp] theorem State.setTag_sec (k : Nat) (x : Tag) : (s.setTag k x).sec = s.sec := rfl
@[simp] theorem State.setTag_msix (k : Nat) (x : Tag) : (s.setTag k x).msix = s.msix := rfl
@[simp] theorem State.setTag_free (k : Nat) (x : Tag) : (s.setTag k x).free = s.free := rfl

@[simp] theorem State.setTileB_pending (k : Nat) (v : BitVec 8) : (s.setTileB k v).pending = s.pending := rfl
@[simp] theorem State.setTileB_regs (k : Nat) (v : BitVec 8) : (s.setTileB k v).regs = s.regs := rfl
@[simp] theorem State.setTileB_mem (k : Nat) (v : BitVec 8) : (s.setTileB k v).mem = s.mem := rfl
@[simp] theorem State.setTileB_ecc (k : Nat) (v : BitVec 8) : (s.setTileB k v).ecc = s.ecc := rfl
@[simp] theorem State.setTileB_hbmEpoch (k : Nat) (v : BitVec 8) : (s.setTileB k v).hbmEpoch = s.hbmEpoch := rfl
@[simp] theorem State.setTileB_sramEpoch (k : Nat) (v : BitVec 8) : (s.setTileB k v).sramEpoch = s.sramEpoch := rfl
@[simp] theorem State.setTileB_sramClean (k : Nat) (v : BitVec 8) : (s.setTileB k v).sramClean = s.sramClean := rfl
@[simp] theorem State.setTileB_stg (k : Nat) (v : BitVec 8) : (s.setTileB k v).stg = s.stg := rfl
@[simp] theorem State.setTileB_stgEcc (k : Nat) (v : BitVec 8) : (s.setTileB k v).stgEcc = s.stgEcc := rfl
@[simp] theorem State.setTileB_engines (k : Nat) (v : BitVec 8) : (s.setTileB k v).engines = s.engines := rfl
@[simp] theorem State.setTileB_ctxs (k : Nat) (v : BitVec 8) : (s.setTileB k v).ctxs = s.ctxs := rfl
@[simp] theorem State.setTileB_sides (k : Nat) (v : BitVec 8) : (s.setTileB k v).sides = s.sides := rfl
@[simp] theorem State.setTileB_tags (k : Nat) (v : BitVec 8) : (s.setTileB k v).tags = s.tags := rfl
@[simp] theorem State.setTileB_accs (k : Nat) (v : BitVec 8) : (s.setTileB k v).accs = s.accs := rfl
@[simp] theorem State.setTileB_heads (k : Nat) (v : BitVec 8) : (s.setTileB k v).heads = s.heads := rfl
@[simp] theorem State.setTileB_xfers (k : Nat) (v : BitVec 8) : (s.setTileB k v).xfers = s.xfers := rfl
@[simp] theorem State.setTileB_batches (k : Nat) (v : BitVec 8) : (s.setTileB k v).batches = s.batches := rfl
@[simp] theorem State.setTileB_colls (k : Nat) (v : BitVec 8) : (s.setTileB k v).colls = s.colls := rfl
@[simp] theorem State.setTileB_nextId (k : Nat) (v : BitVec 8) : (s.setTileB k v).nextId = s.nextId := rfl
@[simp] theorem State.setTileB_semq (k : Nat) (v : BitVec 8) : (s.setTileB k v).semq = s.semq := rfl
@[simp] theorem State.setTileB_semBy (k : Nat) (v : BitVec 8) : (s.setTileB k v).semBy = s.semBy := rfl
@[simp] theorem State.setTileB_bars (k : Nat) (v : BitVec 8) : (s.setTileB k v).bars = s.bars := rfl
@[simp] theorem State.setTileB_cqs (k : Nat) (v : BitVec 8) : (s.setTileB k v).cqs = s.cqs := rfl
@[simp] theorem State.setTileB_wtasks (k : Nat) (v : BitVec 8) : (s.setTileB k v).wtasks = s.wtasks := rfl
@[simp] theorem State.setTileB_fence (k : Nat) (v : BitVec 8) : (s.setTileB k v).fence = s.fence := rfl
@[simp] theorem State.setTileB_sct (k : Nat) (v : BitVec 8) : (s.setTileB k v).sct = s.sct := rfl
@[simp] theorem State.setTileB_upd (k : Nat) (v : BitVec 8) : (s.setTileB k v).upd = s.upd := rfl
@[simp] theorem State.setTileB_ports (k : Nat) (v : BitVec 8) : (s.setTileB k v).ports = s.ports := rfl
@[simp] theorem State.setTileB_rtx (k : Nat) (v : BitVec 8) : (s.setTileB k v).rtx = s.rtx := rfl
@[simp] theorem State.setTileB_insts (k : Nat) (v : BitVec 8) : (s.setTileB k v).insts = s.insts := rfl
@[simp] theorem State.setTileB_time (k : Nat) (v : BitVec 8) : (s.setTileB k v).time = s.time := rfl
@[simp] theorem State.setTileB_idle (k : Nat) (v : BitVec 8) : (s.setTileB k v).idle = s.idle := rfl
@[simp] theorem State.setTileB_power (k : Nat) (v : BitVec 8) : (s.setTileB k v).power = s.power := rfl
@[simp] theorem State.setTileB_ring (k : Nat) (v : BitVec 8) : (s.setTileB k v).ring = s.ring := rfl
@[simp] theorem State.setTileB_hist (k : Nat) (v : BitVec 8) : (s.setTileB k v).hist = s.hist := rfl
@[simp] theorem State.setTileB_rots (k : Nat) (v : BitVec 8) : (s.setTileB k v).rots = s.rots := rfl
@[simp] theorem State.setTileB_loupes (k : Nat) (v : BitVec 8) : (s.setTileB k v).loupes = s.loupes := rfl
@[simp] theorem State.setTileB_sec (k : Nat) (v : BitVec 8) : (s.setTileB k v).sec = s.sec := rfl
@[simp] theorem State.setTileB_msix (k : Nat) (v : BitVec 8) : (s.setTileB k v).msix = s.msix := rfl
@[simp] theorem State.setTileB_free (k : Nat) (v : BitVec 8) : (s.setTileB k v).free = s.free := rfl

@[simp] theorem State.setSideB_pending (k : Nat) (v : BitVec 8) : (s.setSideB k v).pending = s.pending := rfl
@[simp] theorem State.setSideB_regs (k : Nat) (v : BitVec 8) : (s.setSideB k v).regs = s.regs := rfl
@[simp] theorem State.setSideB_mem (k : Nat) (v : BitVec 8) : (s.setSideB k v).mem = s.mem := rfl
@[simp] theorem State.setSideB_ecc (k : Nat) (v : BitVec 8) : (s.setSideB k v).ecc = s.ecc := rfl
@[simp] theorem State.setSideB_hbmEpoch (k : Nat) (v : BitVec 8) : (s.setSideB k v).hbmEpoch = s.hbmEpoch := rfl
@[simp] theorem State.setSideB_sramEpoch (k : Nat) (v : BitVec 8) : (s.setSideB k v).sramEpoch = s.sramEpoch := rfl
@[simp] theorem State.setSideB_sramClean (k : Nat) (v : BitVec 8) : (s.setSideB k v).sramClean = s.sramClean := rfl
@[simp] theorem State.setSideB_stg (k : Nat) (v : BitVec 8) : (s.setSideB k v).stg = s.stg := rfl
@[simp] theorem State.setSideB_stgEcc (k : Nat) (v : BitVec 8) : (s.setSideB k v).stgEcc = s.stgEcc := rfl
@[simp] theorem State.setSideB_engines (k : Nat) (v : BitVec 8) : (s.setSideB k v).engines = s.engines := rfl
@[simp] theorem State.setSideB_ctxs (k : Nat) (v : BitVec 8) : (s.setSideB k v).ctxs = s.ctxs := rfl
@[simp] theorem State.setSideB_tiles (k : Nat) (v : BitVec 8) : (s.setSideB k v).tiles = s.tiles := rfl
@[simp] theorem State.setSideB_tags (k : Nat) (v : BitVec 8) : (s.setSideB k v).tags = s.tags := rfl
@[simp] theorem State.setSideB_accs (k : Nat) (v : BitVec 8) : (s.setSideB k v).accs = s.accs := rfl
@[simp] theorem State.setSideB_heads (k : Nat) (v : BitVec 8) : (s.setSideB k v).heads = s.heads := rfl
@[simp] theorem State.setSideB_xfers (k : Nat) (v : BitVec 8) : (s.setSideB k v).xfers = s.xfers := rfl
@[simp] theorem State.setSideB_batches (k : Nat) (v : BitVec 8) : (s.setSideB k v).batches = s.batches := rfl
@[simp] theorem State.setSideB_colls (k : Nat) (v : BitVec 8) : (s.setSideB k v).colls = s.colls := rfl
@[simp] theorem State.setSideB_nextId (k : Nat) (v : BitVec 8) : (s.setSideB k v).nextId = s.nextId := rfl
@[simp] theorem State.setSideB_semq (k : Nat) (v : BitVec 8) : (s.setSideB k v).semq = s.semq := rfl
@[simp] theorem State.setSideB_semBy (k : Nat) (v : BitVec 8) : (s.setSideB k v).semBy = s.semBy := rfl
@[simp] theorem State.setSideB_bars (k : Nat) (v : BitVec 8) : (s.setSideB k v).bars = s.bars := rfl
@[simp] theorem State.setSideB_cqs (k : Nat) (v : BitVec 8) : (s.setSideB k v).cqs = s.cqs := rfl
@[simp] theorem State.setSideB_wtasks (k : Nat) (v : BitVec 8) : (s.setSideB k v).wtasks = s.wtasks := rfl
@[simp] theorem State.setSideB_fence (k : Nat) (v : BitVec 8) : (s.setSideB k v).fence = s.fence := rfl
@[simp] theorem State.setSideB_sct (k : Nat) (v : BitVec 8) : (s.setSideB k v).sct = s.sct := rfl
@[simp] theorem State.setSideB_upd (k : Nat) (v : BitVec 8) : (s.setSideB k v).upd = s.upd := rfl
@[simp] theorem State.setSideB_ports (k : Nat) (v : BitVec 8) : (s.setSideB k v).ports = s.ports := rfl
@[simp] theorem State.setSideB_rtx (k : Nat) (v : BitVec 8) : (s.setSideB k v).rtx = s.rtx := rfl
@[simp] theorem State.setSideB_insts (k : Nat) (v : BitVec 8) : (s.setSideB k v).insts = s.insts := rfl
@[simp] theorem State.setSideB_time (k : Nat) (v : BitVec 8) : (s.setSideB k v).time = s.time := rfl
@[simp] theorem State.setSideB_idle (k : Nat) (v : BitVec 8) : (s.setSideB k v).idle = s.idle := rfl
@[simp] theorem State.setSideB_power (k : Nat) (v : BitVec 8) : (s.setSideB k v).power = s.power := rfl
@[simp] theorem State.setSideB_ring (k : Nat) (v : BitVec 8) : (s.setSideB k v).ring = s.ring := rfl
@[simp] theorem State.setSideB_hist (k : Nat) (v : BitVec 8) : (s.setSideB k v).hist = s.hist := rfl
@[simp] theorem State.setSideB_rots (k : Nat) (v : BitVec 8) : (s.setSideB k v).rots = s.rots := rfl
@[simp] theorem State.setSideB_loupes (k : Nat) (v : BitVec 8) : (s.setSideB k v).loupes = s.loupes := rfl
@[simp] theorem State.setSideB_sec (k : Nat) (v : BitVec 8) : (s.setSideB k v).sec = s.sec := rfl
@[simp] theorem State.setSideB_msix (k : Nat) (v : BitVec 8) : (s.setSideB k v).msix = s.msix := rfl
@[simp] theorem State.setSideB_free (k : Nat) (v : BitVec 8) : (s.setSideB k v).free = s.free := rfl

@[simp] theorem State.setAcc_pending (k : Nat) (v : BitVec 128) : (s.setAcc k v).pending = s.pending := rfl
@[simp] theorem State.setAcc_regs (k : Nat) (v : BitVec 128) : (s.setAcc k v).regs = s.regs := rfl
@[simp] theorem State.setAcc_mem (k : Nat) (v : BitVec 128) : (s.setAcc k v).mem = s.mem := rfl
@[simp] theorem State.setAcc_ecc (k : Nat) (v : BitVec 128) : (s.setAcc k v).ecc = s.ecc := rfl
@[simp] theorem State.setAcc_hbmEpoch (k : Nat) (v : BitVec 128) : (s.setAcc k v).hbmEpoch = s.hbmEpoch := rfl
@[simp] theorem State.setAcc_sramEpoch (k : Nat) (v : BitVec 128) : (s.setAcc k v).sramEpoch = s.sramEpoch := rfl
@[simp] theorem State.setAcc_sramClean (k : Nat) (v : BitVec 128) : (s.setAcc k v).sramClean = s.sramClean := rfl
@[simp] theorem State.setAcc_stg (k : Nat) (v : BitVec 128) : (s.setAcc k v).stg = s.stg := rfl
@[simp] theorem State.setAcc_stgEcc (k : Nat) (v : BitVec 128) : (s.setAcc k v).stgEcc = s.stgEcc := rfl
@[simp] theorem State.setAcc_engines (k : Nat) (v : BitVec 128) : (s.setAcc k v).engines = s.engines := rfl
@[simp] theorem State.setAcc_ctxs (k : Nat) (v : BitVec 128) : (s.setAcc k v).ctxs = s.ctxs := rfl
@[simp] theorem State.setAcc_tiles (k : Nat) (v : BitVec 128) : (s.setAcc k v).tiles = s.tiles := rfl
@[simp] theorem State.setAcc_sides (k : Nat) (v : BitVec 128) : (s.setAcc k v).sides = s.sides := rfl
@[simp] theorem State.setAcc_tags (k : Nat) (v : BitVec 128) : (s.setAcc k v).tags = s.tags := rfl
@[simp] theorem State.setAcc_heads (k : Nat) (v : BitVec 128) : (s.setAcc k v).heads = s.heads := rfl
@[simp] theorem State.setAcc_xfers (k : Nat) (v : BitVec 128) : (s.setAcc k v).xfers = s.xfers := rfl
@[simp] theorem State.setAcc_batches (k : Nat) (v : BitVec 128) : (s.setAcc k v).batches = s.batches := rfl
@[simp] theorem State.setAcc_colls (k : Nat) (v : BitVec 128) : (s.setAcc k v).colls = s.colls := rfl
@[simp] theorem State.setAcc_nextId (k : Nat) (v : BitVec 128) : (s.setAcc k v).nextId = s.nextId := rfl
@[simp] theorem State.setAcc_semq (k : Nat) (v : BitVec 128) : (s.setAcc k v).semq = s.semq := rfl
@[simp] theorem State.setAcc_semBy (k : Nat) (v : BitVec 128) : (s.setAcc k v).semBy = s.semBy := rfl
@[simp] theorem State.setAcc_bars (k : Nat) (v : BitVec 128) : (s.setAcc k v).bars = s.bars := rfl
@[simp] theorem State.setAcc_cqs (k : Nat) (v : BitVec 128) : (s.setAcc k v).cqs = s.cqs := rfl
@[simp] theorem State.setAcc_wtasks (k : Nat) (v : BitVec 128) : (s.setAcc k v).wtasks = s.wtasks := rfl
@[simp] theorem State.setAcc_fence (k : Nat) (v : BitVec 128) : (s.setAcc k v).fence = s.fence := rfl
@[simp] theorem State.setAcc_sct (k : Nat) (v : BitVec 128) : (s.setAcc k v).sct = s.sct := rfl
@[simp] theorem State.setAcc_upd (k : Nat) (v : BitVec 128) : (s.setAcc k v).upd = s.upd := rfl
@[simp] theorem State.setAcc_ports (k : Nat) (v : BitVec 128) : (s.setAcc k v).ports = s.ports := rfl
@[simp] theorem State.setAcc_rtx (k : Nat) (v : BitVec 128) : (s.setAcc k v).rtx = s.rtx := rfl
@[simp] theorem State.setAcc_insts (k : Nat) (v : BitVec 128) : (s.setAcc k v).insts = s.insts := rfl
@[simp] theorem State.setAcc_time (k : Nat) (v : BitVec 128) : (s.setAcc k v).time = s.time := rfl
@[simp] theorem State.setAcc_idle (k : Nat) (v : BitVec 128) : (s.setAcc k v).idle = s.idle := rfl
@[simp] theorem State.setAcc_power (k : Nat) (v : BitVec 128) : (s.setAcc k v).power = s.power := rfl
@[simp] theorem State.setAcc_ring (k : Nat) (v : BitVec 128) : (s.setAcc k v).ring = s.ring := rfl
@[simp] theorem State.setAcc_hist (k : Nat) (v : BitVec 128) : (s.setAcc k v).hist = s.hist := rfl
@[simp] theorem State.setAcc_rots (k : Nat) (v : BitVec 128) : (s.setAcc k v).rots = s.rots := rfl
@[simp] theorem State.setAcc_loupes (k : Nat) (v : BitVec 128) : (s.setAcc k v).loupes = s.loupes := rfl
@[simp] theorem State.setAcc_sec (k : Nat) (v : BitVec 128) : (s.setAcc k v).sec = s.sec := rfl
@[simp] theorem State.setAcc_msix (k : Nat) (v : BitVec 128) : (s.setAcc k v).msix = s.msix := rfl
@[simp] theorem State.setAcc_free (k : Nat) (v : BitVec 128) : (s.setAcc k v).free = s.free := rfl

@[simp] theorem State.setHead_pending (k : Nat) (v : BitVec 128) : (s.setHead k v).pending = s.pending := rfl
@[simp] theorem State.setHead_regs (k : Nat) (v : BitVec 128) : (s.setHead k v).regs = s.regs := rfl
@[simp] theorem State.setHead_mem (k : Nat) (v : BitVec 128) : (s.setHead k v).mem = s.mem := rfl
@[simp] theorem State.setHead_ecc (k : Nat) (v : BitVec 128) : (s.setHead k v).ecc = s.ecc := rfl
@[simp] theorem State.setHead_hbmEpoch (k : Nat) (v : BitVec 128) : (s.setHead k v).hbmEpoch = s.hbmEpoch := rfl
@[simp] theorem State.setHead_sramEpoch (k : Nat) (v : BitVec 128) : (s.setHead k v).sramEpoch = s.sramEpoch := rfl
@[simp] theorem State.setHead_sramClean (k : Nat) (v : BitVec 128) : (s.setHead k v).sramClean = s.sramClean := rfl
@[simp] theorem State.setHead_stg (k : Nat) (v : BitVec 128) : (s.setHead k v).stg = s.stg := rfl
@[simp] theorem State.setHead_stgEcc (k : Nat) (v : BitVec 128) : (s.setHead k v).stgEcc = s.stgEcc := rfl
@[simp] theorem State.setHead_engines (k : Nat) (v : BitVec 128) : (s.setHead k v).engines = s.engines := rfl
@[simp] theorem State.setHead_ctxs (k : Nat) (v : BitVec 128) : (s.setHead k v).ctxs = s.ctxs := rfl
@[simp] theorem State.setHead_tiles (k : Nat) (v : BitVec 128) : (s.setHead k v).tiles = s.tiles := rfl
@[simp] theorem State.setHead_sides (k : Nat) (v : BitVec 128) : (s.setHead k v).sides = s.sides := rfl
@[simp] theorem State.setHead_tags (k : Nat) (v : BitVec 128) : (s.setHead k v).tags = s.tags := rfl
@[simp] theorem State.setHead_accs (k : Nat) (v : BitVec 128) : (s.setHead k v).accs = s.accs := rfl
@[simp] theorem State.setHead_xfers (k : Nat) (v : BitVec 128) : (s.setHead k v).xfers = s.xfers := rfl
@[simp] theorem State.setHead_batches (k : Nat) (v : BitVec 128) : (s.setHead k v).batches = s.batches := rfl
@[simp] theorem State.setHead_colls (k : Nat) (v : BitVec 128) : (s.setHead k v).colls = s.colls := rfl
@[simp] theorem State.setHead_nextId (k : Nat) (v : BitVec 128) : (s.setHead k v).nextId = s.nextId := rfl
@[simp] theorem State.setHead_semq (k : Nat) (v : BitVec 128) : (s.setHead k v).semq = s.semq := rfl
@[simp] theorem State.setHead_semBy (k : Nat) (v : BitVec 128) : (s.setHead k v).semBy = s.semBy := rfl
@[simp] theorem State.setHead_bars (k : Nat) (v : BitVec 128) : (s.setHead k v).bars = s.bars := rfl
@[simp] theorem State.setHead_cqs (k : Nat) (v : BitVec 128) : (s.setHead k v).cqs = s.cqs := rfl
@[simp] theorem State.setHead_wtasks (k : Nat) (v : BitVec 128) : (s.setHead k v).wtasks = s.wtasks := rfl
@[simp] theorem State.setHead_fence (k : Nat) (v : BitVec 128) : (s.setHead k v).fence = s.fence := rfl
@[simp] theorem State.setHead_sct (k : Nat) (v : BitVec 128) : (s.setHead k v).sct = s.sct := rfl
@[simp] theorem State.setHead_upd (k : Nat) (v : BitVec 128) : (s.setHead k v).upd = s.upd := rfl
@[simp] theorem State.setHead_ports (k : Nat) (v : BitVec 128) : (s.setHead k v).ports = s.ports := rfl
@[simp] theorem State.setHead_rtx (k : Nat) (v : BitVec 128) : (s.setHead k v).rtx = s.rtx := rfl
@[simp] theorem State.setHead_insts (k : Nat) (v : BitVec 128) : (s.setHead k v).insts = s.insts := rfl
@[simp] theorem State.setHead_time (k : Nat) (v : BitVec 128) : (s.setHead k v).time = s.time := rfl
@[simp] theorem State.setHead_idle (k : Nat) (v : BitVec 128) : (s.setHead k v).idle = s.idle := rfl
@[simp] theorem State.setHead_power (k : Nat) (v : BitVec 128) : (s.setHead k v).power = s.power := rfl
@[simp] theorem State.setHead_ring (k : Nat) (v : BitVec 128) : (s.setHead k v).ring = s.ring := rfl
@[simp] theorem State.setHead_hist (k : Nat) (v : BitVec 128) : (s.setHead k v).hist = s.hist := rfl
@[simp] theorem State.setHead_rots (k : Nat) (v : BitVec 128) : (s.setHead k v).rots = s.rots := rfl
@[simp] theorem State.setHead_loupes (k : Nat) (v : BitVec 128) : (s.setHead k v).loupes = s.loupes := rfl
@[simp] theorem State.setHead_sec (k : Nat) (v : BitVec 128) : (s.setHead k v).sec = s.sec := rfl
@[simp] theorem State.setHead_msix (k : Nat) (v : BitVec 128) : (s.setHead k v).msix = s.msix := rfl
@[simp] theorem State.setHead_free (k : Nat) (v : BitVec 128) : (s.setHead k v).free = s.free := rfl

@[simp] theorem State.setXfer_pending (k : Nat) (x : Xfer) : (s.setXfer k x).pending = s.pending := rfl
@[simp] theorem State.setXfer_regs (k : Nat) (x : Xfer) : (s.setXfer k x).regs = s.regs := rfl
@[simp] theorem State.setXfer_mem (k : Nat) (x : Xfer) : (s.setXfer k x).mem = s.mem := rfl
@[simp] theorem State.setXfer_ecc (k : Nat) (x : Xfer) : (s.setXfer k x).ecc = s.ecc := rfl
@[simp] theorem State.setXfer_hbmEpoch (k : Nat) (x : Xfer) : (s.setXfer k x).hbmEpoch = s.hbmEpoch := rfl
@[simp] theorem State.setXfer_sramEpoch (k : Nat) (x : Xfer) : (s.setXfer k x).sramEpoch = s.sramEpoch := rfl
@[simp] theorem State.setXfer_sramClean (k : Nat) (x : Xfer) : (s.setXfer k x).sramClean = s.sramClean := rfl
@[simp] theorem State.setXfer_stg (k : Nat) (x : Xfer) : (s.setXfer k x).stg = s.stg := rfl
@[simp] theorem State.setXfer_stgEcc (k : Nat) (x : Xfer) : (s.setXfer k x).stgEcc = s.stgEcc := rfl
@[simp] theorem State.setXfer_engines (k : Nat) (x : Xfer) : (s.setXfer k x).engines = s.engines := rfl
@[simp] theorem State.setXfer_ctxs (k : Nat) (x : Xfer) : (s.setXfer k x).ctxs = s.ctxs := rfl
@[simp] theorem State.setXfer_tiles (k : Nat) (x : Xfer) : (s.setXfer k x).tiles = s.tiles := rfl
@[simp] theorem State.setXfer_sides (k : Nat) (x : Xfer) : (s.setXfer k x).sides = s.sides := rfl
@[simp] theorem State.setXfer_tags (k : Nat) (x : Xfer) : (s.setXfer k x).tags = s.tags := rfl
@[simp] theorem State.setXfer_accs (k : Nat) (x : Xfer) : (s.setXfer k x).accs = s.accs := rfl
@[simp] theorem State.setXfer_heads (k : Nat) (x : Xfer) : (s.setXfer k x).heads = s.heads := rfl
@[simp] theorem State.setXfer_batches (k : Nat) (x : Xfer) : (s.setXfer k x).batches = s.batches := rfl
@[simp] theorem State.setXfer_colls (k : Nat) (x : Xfer) : (s.setXfer k x).colls = s.colls := rfl
@[simp] theorem State.setXfer_nextId (k : Nat) (x : Xfer) : (s.setXfer k x).nextId = s.nextId := rfl
@[simp] theorem State.setXfer_semq (k : Nat) (x : Xfer) : (s.setXfer k x).semq = s.semq := rfl
@[simp] theorem State.setXfer_semBy (k : Nat) (x : Xfer) : (s.setXfer k x).semBy = s.semBy := rfl
@[simp] theorem State.setXfer_bars (k : Nat) (x : Xfer) : (s.setXfer k x).bars = s.bars := rfl
@[simp] theorem State.setXfer_cqs (k : Nat) (x : Xfer) : (s.setXfer k x).cqs = s.cqs := rfl
@[simp] theorem State.setXfer_wtasks (k : Nat) (x : Xfer) : (s.setXfer k x).wtasks = s.wtasks := rfl
@[simp] theorem State.setXfer_fence (k : Nat) (x : Xfer) : (s.setXfer k x).fence = s.fence := rfl
@[simp] theorem State.setXfer_sct (k : Nat) (x : Xfer) : (s.setXfer k x).sct = s.sct := rfl
@[simp] theorem State.setXfer_upd (k : Nat) (x : Xfer) : (s.setXfer k x).upd = s.upd := rfl
@[simp] theorem State.setXfer_ports (k : Nat) (x : Xfer) : (s.setXfer k x).ports = s.ports := rfl
@[simp] theorem State.setXfer_rtx (k : Nat) (x : Xfer) : (s.setXfer k x).rtx = s.rtx := rfl
@[simp] theorem State.setXfer_insts (k : Nat) (x : Xfer) : (s.setXfer k x).insts = s.insts := rfl
@[simp] theorem State.setXfer_time (k : Nat) (x : Xfer) : (s.setXfer k x).time = s.time := rfl
@[simp] theorem State.setXfer_idle (k : Nat) (x : Xfer) : (s.setXfer k x).idle = s.idle := rfl
@[simp] theorem State.setXfer_power (k : Nat) (x : Xfer) : (s.setXfer k x).power = s.power := rfl
@[simp] theorem State.setXfer_ring (k : Nat) (x : Xfer) : (s.setXfer k x).ring = s.ring := rfl
@[simp] theorem State.setXfer_hist (k : Nat) (x : Xfer) : (s.setXfer k x).hist = s.hist := rfl
@[simp] theorem State.setXfer_rots (k : Nat) (x : Xfer) : (s.setXfer k x).rots = s.rots := rfl
@[simp] theorem State.setXfer_loupes (k : Nat) (x : Xfer) : (s.setXfer k x).loupes = s.loupes := rfl
@[simp] theorem State.setXfer_sec (k : Nat) (x : Xfer) : (s.setXfer k x).sec = s.sec := rfl
@[simp] theorem State.setXfer_msix (k : Nat) (x : Xfer) : (s.setXfer k x).msix = s.msix := rfl
@[simp] theorem State.setXfer_free (k : Nat) (x : Xfer) : (s.setXfer k x).free = s.free := rfl

@[simp] theorem State.setBatch_pending (l : Nat) (x : List Batch) : (s.setBatch l x).pending = s.pending := rfl
@[simp] theorem State.setBatch_regs (l : Nat) (x : List Batch) : (s.setBatch l x).regs = s.regs := rfl
@[simp] theorem State.setBatch_mem (l : Nat) (x : List Batch) : (s.setBatch l x).mem = s.mem := rfl
@[simp] theorem State.setBatch_ecc (l : Nat) (x : List Batch) : (s.setBatch l x).ecc = s.ecc := rfl
@[simp] theorem State.setBatch_hbmEpoch (l : Nat) (x : List Batch) : (s.setBatch l x).hbmEpoch = s.hbmEpoch := rfl
@[simp] theorem State.setBatch_sramEpoch (l : Nat) (x : List Batch) : (s.setBatch l x).sramEpoch = s.sramEpoch := rfl
@[simp] theorem State.setBatch_sramClean (l : Nat) (x : List Batch) : (s.setBatch l x).sramClean = s.sramClean := rfl
@[simp] theorem State.setBatch_stg (l : Nat) (x : List Batch) : (s.setBatch l x).stg = s.stg := rfl
@[simp] theorem State.setBatch_stgEcc (l : Nat) (x : List Batch) : (s.setBatch l x).stgEcc = s.stgEcc := rfl
@[simp] theorem State.setBatch_engines (l : Nat) (x : List Batch) : (s.setBatch l x).engines = s.engines := rfl
@[simp] theorem State.setBatch_ctxs (l : Nat) (x : List Batch) : (s.setBatch l x).ctxs = s.ctxs := rfl
@[simp] theorem State.setBatch_tiles (l : Nat) (x : List Batch) : (s.setBatch l x).tiles = s.tiles := rfl
@[simp] theorem State.setBatch_sides (l : Nat) (x : List Batch) : (s.setBatch l x).sides = s.sides := rfl
@[simp] theorem State.setBatch_tags (l : Nat) (x : List Batch) : (s.setBatch l x).tags = s.tags := rfl
@[simp] theorem State.setBatch_accs (l : Nat) (x : List Batch) : (s.setBatch l x).accs = s.accs := rfl
@[simp] theorem State.setBatch_heads (l : Nat) (x : List Batch) : (s.setBatch l x).heads = s.heads := rfl
@[simp] theorem State.setBatch_xfers (l : Nat) (x : List Batch) : (s.setBatch l x).xfers = s.xfers := rfl
@[simp] theorem State.setBatch_colls (l : Nat) (x : List Batch) : (s.setBatch l x).colls = s.colls := rfl
@[simp] theorem State.setBatch_nextId (l : Nat) (x : List Batch) : (s.setBatch l x).nextId = s.nextId := rfl
@[simp] theorem State.setBatch_semq (l : Nat) (x : List Batch) : (s.setBatch l x).semq = s.semq := rfl
@[simp] theorem State.setBatch_semBy (l : Nat) (x : List Batch) : (s.setBatch l x).semBy = s.semBy := rfl
@[simp] theorem State.setBatch_bars (l : Nat) (x : List Batch) : (s.setBatch l x).bars = s.bars := rfl
@[simp] theorem State.setBatch_cqs (l : Nat) (x : List Batch) : (s.setBatch l x).cqs = s.cqs := rfl
@[simp] theorem State.setBatch_wtasks (l : Nat) (x : List Batch) : (s.setBatch l x).wtasks = s.wtasks := rfl
@[simp] theorem State.setBatch_fence (l : Nat) (x : List Batch) : (s.setBatch l x).fence = s.fence := rfl
@[simp] theorem State.setBatch_sct (l : Nat) (x : List Batch) : (s.setBatch l x).sct = s.sct := rfl
@[simp] theorem State.setBatch_upd (l : Nat) (x : List Batch) : (s.setBatch l x).upd = s.upd := rfl
@[simp] theorem State.setBatch_ports (l : Nat) (x : List Batch) : (s.setBatch l x).ports = s.ports := rfl
@[simp] theorem State.setBatch_rtx (l : Nat) (x : List Batch) : (s.setBatch l x).rtx = s.rtx := rfl
@[simp] theorem State.setBatch_insts (l : Nat) (x : List Batch) : (s.setBatch l x).insts = s.insts := rfl
@[simp] theorem State.setBatch_time (l : Nat) (x : List Batch) : (s.setBatch l x).time = s.time := rfl
@[simp] theorem State.setBatch_idle (l : Nat) (x : List Batch) : (s.setBatch l x).idle = s.idle := rfl
@[simp] theorem State.setBatch_power (l : Nat) (x : List Batch) : (s.setBatch l x).power = s.power := rfl
@[simp] theorem State.setBatch_ring (l : Nat) (x : List Batch) : (s.setBatch l x).ring = s.ring := rfl
@[simp] theorem State.setBatch_hist (l : Nat) (x : List Batch) : (s.setBatch l x).hist = s.hist := rfl
@[simp] theorem State.setBatch_rots (l : Nat) (x : List Batch) : (s.setBatch l x).rots = s.rots := rfl
@[simp] theorem State.setBatch_loupes (l : Nat) (x : List Batch) : (s.setBatch l x).loupes = s.loupes := rfl
@[simp] theorem State.setBatch_sec (l : Nat) (x : List Batch) : (s.setBatch l x).sec = s.sec := rfl
@[simp] theorem State.setBatch_msix (l : Nat) (x : List Batch) : (s.setBatch l x).msix = s.msix := rfl
@[simp] theorem State.setBatch_free (l : Nat) (x : List Batch) : (s.setBatch l x).free = s.free := rfl

@[simp] theorem State.setColl_pending (k : Nat) (x : Coll) : (s.setColl k x).pending = s.pending := rfl
@[simp] theorem State.setColl_regs (k : Nat) (x : Coll) : (s.setColl k x).regs = s.regs := rfl
@[simp] theorem State.setColl_mem (k : Nat) (x : Coll) : (s.setColl k x).mem = s.mem := rfl
@[simp] theorem State.setColl_ecc (k : Nat) (x : Coll) : (s.setColl k x).ecc = s.ecc := rfl
@[simp] theorem State.setColl_hbmEpoch (k : Nat) (x : Coll) : (s.setColl k x).hbmEpoch = s.hbmEpoch := rfl
@[simp] theorem State.setColl_sramEpoch (k : Nat) (x : Coll) : (s.setColl k x).sramEpoch = s.sramEpoch := rfl
@[simp] theorem State.setColl_sramClean (k : Nat) (x : Coll) : (s.setColl k x).sramClean = s.sramClean := rfl
@[simp] theorem State.setColl_stg (k : Nat) (x : Coll) : (s.setColl k x).stg = s.stg := rfl
@[simp] theorem State.setColl_stgEcc (k : Nat) (x : Coll) : (s.setColl k x).stgEcc = s.stgEcc := rfl
@[simp] theorem State.setColl_engines (k : Nat) (x : Coll) : (s.setColl k x).engines = s.engines := rfl
@[simp] theorem State.setColl_ctxs (k : Nat) (x : Coll) : (s.setColl k x).ctxs = s.ctxs := rfl
@[simp] theorem State.setColl_tiles (k : Nat) (x : Coll) : (s.setColl k x).tiles = s.tiles := rfl
@[simp] theorem State.setColl_sides (k : Nat) (x : Coll) : (s.setColl k x).sides = s.sides := rfl
@[simp] theorem State.setColl_tags (k : Nat) (x : Coll) : (s.setColl k x).tags = s.tags := rfl
@[simp] theorem State.setColl_accs (k : Nat) (x : Coll) : (s.setColl k x).accs = s.accs := rfl
@[simp] theorem State.setColl_heads (k : Nat) (x : Coll) : (s.setColl k x).heads = s.heads := rfl
@[simp] theorem State.setColl_xfers (k : Nat) (x : Coll) : (s.setColl k x).xfers = s.xfers := rfl
@[simp] theorem State.setColl_batches (k : Nat) (x : Coll) : (s.setColl k x).batches = s.batches := rfl
@[simp] theorem State.setColl_nextId (k : Nat) (x : Coll) : (s.setColl k x).nextId = s.nextId := rfl
@[simp] theorem State.setColl_semq (k : Nat) (x : Coll) : (s.setColl k x).semq = s.semq := rfl
@[simp] theorem State.setColl_semBy (k : Nat) (x : Coll) : (s.setColl k x).semBy = s.semBy := rfl
@[simp] theorem State.setColl_bars (k : Nat) (x : Coll) : (s.setColl k x).bars = s.bars := rfl
@[simp] theorem State.setColl_cqs (k : Nat) (x : Coll) : (s.setColl k x).cqs = s.cqs := rfl
@[simp] theorem State.setColl_wtasks (k : Nat) (x : Coll) : (s.setColl k x).wtasks = s.wtasks := rfl
@[simp] theorem State.setColl_fence (k : Nat) (x : Coll) : (s.setColl k x).fence = s.fence := rfl
@[simp] theorem State.setColl_sct (k : Nat) (x : Coll) : (s.setColl k x).sct = s.sct := rfl
@[simp] theorem State.setColl_upd (k : Nat) (x : Coll) : (s.setColl k x).upd = s.upd := rfl
@[simp] theorem State.setColl_ports (k : Nat) (x : Coll) : (s.setColl k x).ports = s.ports := rfl
@[simp] theorem State.setColl_rtx (k : Nat) (x : Coll) : (s.setColl k x).rtx = s.rtx := rfl
@[simp] theorem State.setColl_insts (k : Nat) (x : Coll) : (s.setColl k x).insts = s.insts := rfl
@[simp] theorem State.setColl_time (k : Nat) (x : Coll) : (s.setColl k x).time = s.time := rfl
@[simp] theorem State.setColl_idle (k : Nat) (x : Coll) : (s.setColl k x).idle = s.idle := rfl
@[simp] theorem State.setColl_power (k : Nat) (x : Coll) : (s.setColl k x).power = s.power := rfl
@[simp] theorem State.setColl_ring (k : Nat) (x : Coll) : (s.setColl k x).ring = s.ring := rfl
@[simp] theorem State.setColl_hist (k : Nat) (x : Coll) : (s.setColl k x).hist = s.hist := rfl
@[simp] theorem State.setColl_rots (k : Nat) (x : Coll) : (s.setColl k x).rots = s.rots := rfl
@[simp] theorem State.setColl_loupes (k : Nat) (x : Coll) : (s.setColl k x).loupes = s.loupes := rfl
@[simp] theorem State.setColl_sec (k : Nat) (x : Coll) : (s.setColl k x).sec = s.sec := rfl
@[simp] theorem State.setColl_msix (k : Nat) (x : Coll) : (s.setColl k x).msix = s.msix := rfl
@[simp] theorem State.setColl_free (k : Nat) (x : Coll) : (s.setColl k x).free = s.free := rfl

@[simp] theorem State.setWaiters_pending (k : Nat) (x : List Waiter) : (s.setWaiters k x).pending = s.pending := rfl
@[simp] theorem State.setWaiters_regs (k : Nat) (x : List Waiter) : (s.setWaiters k x).regs = s.regs := rfl
@[simp] theorem State.setWaiters_mem (k : Nat) (x : List Waiter) : (s.setWaiters k x).mem = s.mem := rfl
@[simp] theorem State.setWaiters_ecc (k : Nat) (x : List Waiter) : (s.setWaiters k x).ecc = s.ecc := rfl
@[simp] theorem State.setWaiters_hbmEpoch (k : Nat) (x : List Waiter) : (s.setWaiters k x).hbmEpoch = s.hbmEpoch := rfl
@[simp] theorem State.setWaiters_sramEpoch (k : Nat) (x : List Waiter) : (s.setWaiters k x).sramEpoch = s.sramEpoch := rfl
@[simp] theorem State.setWaiters_sramClean (k : Nat) (x : List Waiter) : (s.setWaiters k x).sramClean = s.sramClean := rfl
@[simp] theorem State.setWaiters_stg (k : Nat) (x : List Waiter) : (s.setWaiters k x).stg = s.stg := rfl
@[simp] theorem State.setWaiters_stgEcc (k : Nat) (x : List Waiter) : (s.setWaiters k x).stgEcc = s.stgEcc := rfl
@[simp] theorem State.setWaiters_engines (k : Nat) (x : List Waiter) : (s.setWaiters k x).engines = s.engines := rfl
@[simp] theorem State.setWaiters_ctxs (k : Nat) (x : List Waiter) : (s.setWaiters k x).ctxs = s.ctxs := rfl
@[simp] theorem State.setWaiters_tiles (k : Nat) (x : List Waiter) : (s.setWaiters k x).tiles = s.tiles := rfl
@[simp] theorem State.setWaiters_sides (k : Nat) (x : List Waiter) : (s.setWaiters k x).sides = s.sides := rfl
@[simp] theorem State.setWaiters_tags (k : Nat) (x : List Waiter) : (s.setWaiters k x).tags = s.tags := rfl
@[simp] theorem State.setWaiters_accs (k : Nat) (x : List Waiter) : (s.setWaiters k x).accs = s.accs := rfl
@[simp] theorem State.setWaiters_heads (k : Nat) (x : List Waiter) : (s.setWaiters k x).heads = s.heads := rfl
@[simp] theorem State.setWaiters_xfers (k : Nat) (x : List Waiter) : (s.setWaiters k x).xfers = s.xfers := rfl
@[simp] theorem State.setWaiters_batches (k : Nat) (x : List Waiter) : (s.setWaiters k x).batches = s.batches := rfl
@[simp] theorem State.setWaiters_colls (k : Nat) (x : List Waiter) : (s.setWaiters k x).colls = s.colls := rfl
@[simp] theorem State.setWaiters_nextId (k : Nat) (x : List Waiter) : (s.setWaiters k x).nextId = s.nextId := rfl
@[simp] theorem State.setWaiters_semBy (k : Nat) (x : List Waiter) : (s.setWaiters k x).semBy = s.semBy := rfl
@[simp] theorem State.setWaiters_bars (k : Nat) (x : List Waiter) : (s.setWaiters k x).bars = s.bars := rfl
@[simp] theorem State.setWaiters_cqs (k : Nat) (x : List Waiter) : (s.setWaiters k x).cqs = s.cqs := rfl
@[simp] theorem State.setWaiters_wtasks (k : Nat) (x : List Waiter) : (s.setWaiters k x).wtasks = s.wtasks := rfl
@[simp] theorem State.setWaiters_fence (k : Nat) (x : List Waiter) : (s.setWaiters k x).fence = s.fence := rfl
@[simp] theorem State.setWaiters_sct (k : Nat) (x : List Waiter) : (s.setWaiters k x).sct = s.sct := rfl
@[simp] theorem State.setWaiters_upd (k : Nat) (x : List Waiter) : (s.setWaiters k x).upd = s.upd := rfl
@[simp] theorem State.setWaiters_ports (k : Nat) (x : List Waiter) : (s.setWaiters k x).ports = s.ports := rfl
@[simp] theorem State.setWaiters_rtx (k : Nat) (x : List Waiter) : (s.setWaiters k x).rtx = s.rtx := rfl
@[simp] theorem State.setWaiters_insts (k : Nat) (x : List Waiter) : (s.setWaiters k x).insts = s.insts := rfl
@[simp] theorem State.setWaiters_time (k : Nat) (x : List Waiter) : (s.setWaiters k x).time = s.time := rfl
@[simp] theorem State.setWaiters_idle (k : Nat) (x : List Waiter) : (s.setWaiters k x).idle = s.idle := rfl
@[simp] theorem State.setWaiters_power (k : Nat) (x : List Waiter) : (s.setWaiters k x).power = s.power := rfl
@[simp] theorem State.setWaiters_ring (k : Nat) (x : List Waiter) : (s.setWaiters k x).ring = s.ring := rfl
@[simp] theorem State.setWaiters_hist (k : Nat) (x : List Waiter) : (s.setWaiters k x).hist = s.hist := rfl
@[simp] theorem State.setWaiters_rots (k : Nat) (x : List Waiter) : (s.setWaiters k x).rots = s.rots := rfl
@[simp] theorem State.setWaiters_loupes (k : Nat) (x : List Waiter) : (s.setWaiters k x).loupes = s.loupes := rfl
@[simp] theorem State.setWaiters_sec (k : Nat) (x : List Waiter) : (s.setWaiters k x).sec = s.sec := rfl
@[simp] theorem State.setWaiters_msix (k : Nat) (x : List Waiter) : (s.setWaiters k x).msix = s.msix := rfl
@[simp] theorem State.setWaiters_free (k : Nat) (x : List Waiter) : (s.setWaiters k x).free = s.free := rfl

@[simp] theorem State.setCq_pending (q : Nat) (x : CQ) : (s.setCq q x).pending = s.pending := rfl
@[simp] theorem State.setCq_regs (q : Nat) (x : CQ) : (s.setCq q x).regs = s.regs := rfl
@[simp] theorem State.setCq_mem (q : Nat) (x : CQ) : (s.setCq q x).mem = s.mem := rfl
@[simp] theorem State.setCq_ecc (q : Nat) (x : CQ) : (s.setCq q x).ecc = s.ecc := rfl
@[simp] theorem State.setCq_hbmEpoch (q : Nat) (x : CQ) : (s.setCq q x).hbmEpoch = s.hbmEpoch := rfl
@[simp] theorem State.setCq_sramEpoch (q : Nat) (x : CQ) : (s.setCq q x).sramEpoch = s.sramEpoch := rfl
@[simp] theorem State.setCq_sramClean (q : Nat) (x : CQ) : (s.setCq q x).sramClean = s.sramClean := rfl
@[simp] theorem State.setCq_stg (q : Nat) (x : CQ) : (s.setCq q x).stg = s.stg := rfl
@[simp] theorem State.setCq_stgEcc (q : Nat) (x : CQ) : (s.setCq q x).stgEcc = s.stgEcc := rfl
@[simp] theorem State.setCq_engines (q : Nat) (x : CQ) : (s.setCq q x).engines = s.engines := rfl
@[simp] theorem State.setCq_ctxs (q : Nat) (x : CQ) : (s.setCq q x).ctxs = s.ctxs := rfl
@[simp] theorem State.setCq_tiles (q : Nat) (x : CQ) : (s.setCq q x).tiles = s.tiles := rfl
@[simp] theorem State.setCq_sides (q : Nat) (x : CQ) : (s.setCq q x).sides = s.sides := rfl
@[simp] theorem State.setCq_tags (q : Nat) (x : CQ) : (s.setCq q x).tags = s.tags := rfl
@[simp] theorem State.setCq_accs (q : Nat) (x : CQ) : (s.setCq q x).accs = s.accs := rfl
@[simp] theorem State.setCq_heads (q : Nat) (x : CQ) : (s.setCq q x).heads = s.heads := rfl
@[simp] theorem State.setCq_xfers (q : Nat) (x : CQ) : (s.setCq q x).xfers = s.xfers := rfl
@[simp] theorem State.setCq_batches (q : Nat) (x : CQ) : (s.setCq q x).batches = s.batches := rfl
@[simp] theorem State.setCq_colls (q : Nat) (x : CQ) : (s.setCq q x).colls = s.colls := rfl
@[simp] theorem State.setCq_nextId (q : Nat) (x : CQ) : (s.setCq q x).nextId = s.nextId := rfl
@[simp] theorem State.setCq_semq (q : Nat) (x : CQ) : (s.setCq q x).semq = s.semq := rfl
@[simp] theorem State.setCq_semBy (q : Nat) (x : CQ) : (s.setCq q x).semBy = s.semBy := rfl
@[simp] theorem State.setCq_bars (q : Nat) (x : CQ) : (s.setCq q x).bars = s.bars := rfl
@[simp] theorem State.setCq_wtasks (q : Nat) (x : CQ) : (s.setCq q x).wtasks = s.wtasks := rfl
@[simp] theorem State.setCq_fence (q : Nat) (x : CQ) : (s.setCq q x).fence = s.fence := rfl
@[simp] theorem State.setCq_sct (q : Nat) (x : CQ) : (s.setCq q x).sct = s.sct := rfl
@[simp] theorem State.setCq_upd (q : Nat) (x : CQ) : (s.setCq q x).upd = s.upd := rfl
@[simp] theorem State.setCq_ports (q : Nat) (x : CQ) : (s.setCq q x).ports = s.ports := rfl
@[simp] theorem State.setCq_rtx (q : Nat) (x : CQ) : (s.setCq q x).rtx = s.rtx := rfl
@[simp] theorem State.setCq_insts (q : Nat) (x : CQ) : (s.setCq q x).insts = s.insts := rfl
@[simp] theorem State.setCq_time (q : Nat) (x : CQ) : (s.setCq q x).time = s.time := rfl
@[simp] theorem State.setCq_idle (q : Nat) (x : CQ) : (s.setCq q x).idle = s.idle := rfl
@[simp] theorem State.setCq_power (q : Nat) (x : CQ) : (s.setCq q x).power = s.power := rfl
@[simp] theorem State.setCq_ring (q : Nat) (x : CQ) : (s.setCq q x).ring = s.ring := rfl
@[simp] theorem State.setCq_hist (q : Nat) (x : CQ) : (s.setCq q x).hist = s.hist := rfl
@[simp] theorem State.setCq_rots (q : Nat) (x : CQ) : (s.setCq q x).rots = s.rots := rfl
@[simp] theorem State.setCq_loupes (q : Nat) (x : CQ) : (s.setCq q x).loupes = s.loupes := rfl
@[simp] theorem State.setCq_sec (q : Nat) (x : CQ) : (s.setCq q x).sec = s.sec := rfl
@[simp] theorem State.setCq_msix (q : Nat) (x : CQ) : (s.setCq q x).msix = s.msix := rfl
@[simp] theorem State.setCq_free (q : Nat) (x : CQ) : (s.setCq q x).free = s.free := rfl

@[simp] theorem State.setPort_pending (p : Nat) (x : Port) : (s.setPort p x).pending = s.pending := rfl
@[simp] theorem State.setPort_regs (p : Nat) (x : Port) : (s.setPort p x).regs = s.regs := rfl
@[simp] theorem State.setPort_mem (p : Nat) (x : Port) : (s.setPort p x).mem = s.mem := rfl
@[simp] theorem State.setPort_ecc (p : Nat) (x : Port) : (s.setPort p x).ecc = s.ecc := rfl
@[simp] theorem State.setPort_hbmEpoch (p : Nat) (x : Port) : (s.setPort p x).hbmEpoch = s.hbmEpoch := rfl
@[simp] theorem State.setPort_sramEpoch (p : Nat) (x : Port) : (s.setPort p x).sramEpoch = s.sramEpoch := rfl
@[simp] theorem State.setPort_sramClean (p : Nat) (x : Port) : (s.setPort p x).sramClean = s.sramClean := rfl
@[simp] theorem State.setPort_stg (p : Nat) (x : Port) : (s.setPort p x).stg = s.stg := rfl
@[simp] theorem State.setPort_stgEcc (p : Nat) (x : Port) : (s.setPort p x).stgEcc = s.stgEcc := rfl
@[simp] theorem State.setPort_engines (p : Nat) (x : Port) : (s.setPort p x).engines = s.engines := rfl
@[simp] theorem State.setPort_ctxs (p : Nat) (x : Port) : (s.setPort p x).ctxs = s.ctxs := rfl
@[simp] theorem State.setPort_tiles (p : Nat) (x : Port) : (s.setPort p x).tiles = s.tiles := rfl
@[simp] theorem State.setPort_sides (p : Nat) (x : Port) : (s.setPort p x).sides = s.sides := rfl
@[simp] theorem State.setPort_tags (p : Nat) (x : Port) : (s.setPort p x).tags = s.tags := rfl
@[simp] theorem State.setPort_accs (p : Nat) (x : Port) : (s.setPort p x).accs = s.accs := rfl
@[simp] theorem State.setPort_heads (p : Nat) (x : Port) : (s.setPort p x).heads = s.heads := rfl
@[simp] theorem State.setPort_xfers (p : Nat) (x : Port) : (s.setPort p x).xfers = s.xfers := rfl
@[simp] theorem State.setPort_batches (p : Nat) (x : Port) : (s.setPort p x).batches = s.batches := rfl
@[simp] theorem State.setPort_colls (p : Nat) (x : Port) : (s.setPort p x).colls = s.colls := rfl
@[simp] theorem State.setPort_nextId (p : Nat) (x : Port) : (s.setPort p x).nextId = s.nextId := rfl
@[simp] theorem State.setPort_semq (p : Nat) (x : Port) : (s.setPort p x).semq = s.semq := rfl
@[simp] theorem State.setPort_semBy (p : Nat) (x : Port) : (s.setPort p x).semBy = s.semBy := rfl
@[simp] theorem State.setPort_bars (p : Nat) (x : Port) : (s.setPort p x).bars = s.bars := rfl
@[simp] theorem State.setPort_cqs (p : Nat) (x : Port) : (s.setPort p x).cqs = s.cqs := rfl
@[simp] theorem State.setPort_wtasks (p : Nat) (x : Port) : (s.setPort p x).wtasks = s.wtasks := rfl
@[simp] theorem State.setPort_fence (p : Nat) (x : Port) : (s.setPort p x).fence = s.fence := rfl
@[simp] theorem State.setPort_sct (p : Nat) (x : Port) : (s.setPort p x).sct = s.sct := rfl
@[simp] theorem State.setPort_upd (p : Nat) (x : Port) : (s.setPort p x).upd = s.upd := rfl
@[simp] theorem State.setPort_rtx (p : Nat) (x : Port) : (s.setPort p x).rtx = s.rtx := rfl
@[simp] theorem State.setPort_insts (p : Nat) (x : Port) : (s.setPort p x).insts = s.insts := rfl
@[simp] theorem State.setPort_time (p : Nat) (x : Port) : (s.setPort p x).time = s.time := rfl
@[simp] theorem State.setPort_idle (p : Nat) (x : Port) : (s.setPort p x).idle = s.idle := rfl
@[simp] theorem State.setPort_power (p : Nat) (x : Port) : (s.setPort p x).power = s.power := rfl
@[simp] theorem State.setPort_ring (p : Nat) (x : Port) : (s.setPort p x).ring = s.ring := rfl
@[simp] theorem State.setPort_hist (p : Nat) (x : Port) : (s.setPort p x).hist = s.hist := rfl
@[simp] theorem State.setPort_rots (p : Nat) (x : Port) : (s.setPort p x).rots = s.rots := rfl
@[simp] theorem State.setPort_loupes (p : Nat) (x : Port) : (s.setPort p x).loupes = s.loupes := rfl
@[simp] theorem State.setPort_sec (p : Nat) (x : Port) : (s.setPort p x).sec = s.sec := rfl
@[simp] theorem State.setPort_msix (p : Nat) (x : Port) : (s.setPort p x).msix = s.msix := rfl
@[simp] theorem State.setPort_free (p : Nat) (x : Port) : (s.setPort p x).free = s.free := rfl

@[simp] theorem State.setRot_pending (u : Nat) (x : Rot) : (s.setRot u x).pending = s.pending := rfl
@[simp] theorem State.setRot_regs (u : Nat) (x : Rot) : (s.setRot u x).regs = s.regs := rfl
@[simp] theorem State.setRot_mem (u : Nat) (x : Rot) : (s.setRot u x).mem = s.mem := rfl
@[simp] theorem State.setRot_ecc (u : Nat) (x : Rot) : (s.setRot u x).ecc = s.ecc := rfl
@[simp] theorem State.setRot_hbmEpoch (u : Nat) (x : Rot) : (s.setRot u x).hbmEpoch = s.hbmEpoch := rfl
@[simp] theorem State.setRot_sramEpoch (u : Nat) (x : Rot) : (s.setRot u x).sramEpoch = s.sramEpoch := rfl
@[simp] theorem State.setRot_sramClean (u : Nat) (x : Rot) : (s.setRot u x).sramClean = s.sramClean := rfl
@[simp] theorem State.setRot_stg (u : Nat) (x : Rot) : (s.setRot u x).stg = s.stg := rfl
@[simp] theorem State.setRot_stgEcc (u : Nat) (x : Rot) : (s.setRot u x).stgEcc = s.stgEcc := rfl
@[simp] theorem State.setRot_engines (u : Nat) (x : Rot) : (s.setRot u x).engines = s.engines := rfl
@[simp] theorem State.setRot_ctxs (u : Nat) (x : Rot) : (s.setRot u x).ctxs = s.ctxs := rfl
@[simp] theorem State.setRot_tiles (u : Nat) (x : Rot) : (s.setRot u x).tiles = s.tiles := rfl
@[simp] theorem State.setRot_sides (u : Nat) (x : Rot) : (s.setRot u x).sides = s.sides := rfl
@[simp] theorem State.setRot_tags (u : Nat) (x : Rot) : (s.setRot u x).tags = s.tags := rfl
@[simp] theorem State.setRot_accs (u : Nat) (x : Rot) : (s.setRot u x).accs = s.accs := rfl
@[simp] theorem State.setRot_heads (u : Nat) (x : Rot) : (s.setRot u x).heads = s.heads := rfl
@[simp] theorem State.setRot_xfers (u : Nat) (x : Rot) : (s.setRot u x).xfers = s.xfers := rfl
@[simp] theorem State.setRot_batches (u : Nat) (x : Rot) : (s.setRot u x).batches = s.batches := rfl
@[simp] theorem State.setRot_colls (u : Nat) (x : Rot) : (s.setRot u x).colls = s.colls := rfl
@[simp] theorem State.setRot_nextId (u : Nat) (x : Rot) : (s.setRot u x).nextId = s.nextId := rfl
@[simp] theorem State.setRot_semq (u : Nat) (x : Rot) : (s.setRot u x).semq = s.semq := rfl
@[simp] theorem State.setRot_semBy (u : Nat) (x : Rot) : (s.setRot u x).semBy = s.semBy := rfl
@[simp] theorem State.setRot_bars (u : Nat) (x : Rot) : (s.setRot u x).bars = s.bars := rfl
@[simp] theorem State.setRot_cqs (u : Nat) (x : Rot) : (s.setRot u x).cqs = s.cqs := rfl
@[simp] theorem State.setRot_wtasks (u : Nat) (x : Rot) : (s.setRot u x).wtasks = s.wtasks := rfl
@[simp] theorem State.setRot_fence (u : Nat) (x : Rot) : (s.setRot u x).fence = s.fence := rfl
@[simp] theorem State.setRot_sct (u : Nat) (x : Rot) : (s.setRot u x).sct = s.sct := rfl
@[simp] theorem State.setRot_upd (u : Nat) (x : Rot) : (s.setRot u x).upd = s.upd := rfl
@[simp] theorem State.setRot_ports (u : Nat) (x : Rot) : (s.setRot u x).ports = s.ports := rfl
@[simp] theorem State.setRot_rtx (u : Nat) (x : Rot) : (s.setRot u x).rtx = s.rtx := rfl
@[simp] theorem State.setRot_insts (u : Nat) (x : Rot) : (s.setRot u x).insts = s.insts := rfl
@[simp] theorem State.setRot_time (u : Nat) (x : Rot) : (s.setRot u x).time = s.time := rfl
@[simp] theorem State.setRot_idle (u : Nat) (x : Rot) : (s.setRot u x).idle = s.idle := rfl
@[simp] theorem State.setRot_power (u : Nat) (x : Rot) : (s.setRot u x).power = s.power := rfl
@[simp] theorem State.setRot_ring (u : Nat) (x : Rot) : (s.setRot u x).ring = s.ring := rfl
@[simp] theorem State.setRot_hist (u : Nat) (x : Rot) : (s.setRot u x).hist = s.hist := rfl
@[simp] theorem State.setRot_loupes (u : Nat) (x : Rot) : (s.setRot u x).loupes = s.loupes := rfl
@[simp] theorem State.setRot_sec (u : Nat) (x : Rot) : (s.setRot u x).sec = s.sec := rfl
@[simp] theorem State.setRot_msix (u : Nat) (x : Rot) : (s.setRot u x).msix = s.msix := rfl
@[simp] theorem State.setRot_free (u : Nat) (x : Rot) : (s.setRot u x).free = s.free := rfl

@[simp] theorem State.setLoupe_pending (u : Nat) (x : Loupe) : (s.setLoupe u x).pending = s.pending := rfl
@[simp] theorem State.setLoupe_regs (u : Nat) (x : Loupe) : (s.setLoupe u x).regs = s.regs := rfl
@[simp] theorem State.setLoupe_mem (u : Nat) (x : Loupe) : (s.setLoupe u x).mem = s.mem := rfl
@[simp] theorem State.setLoupe_ecc (u : Nat) (x : Loupe) : (s.setLoupe u x).ecc = s.ecc := rfl
@[simp] theorem State.setLoupe_hbmEpoch (u : Nat) (x : Loupe) : (s.setLoupe u x).hbmEpoch = s.hbmEpoch := rfl
@[simp] theorem State.setLoupe_sramEpoch (u : Nat) (x : Loupe) : (s.setLoupe u x).sramEpoch = s.sramEpoch := rfl
@[simp] theorem State.setLoupe_sramClean (u : Nat) (x : Loupe) : (s.setLoupe u x).sramClean = s.sramClean := rfl
@[simp] theorem State.setLoupe_stg (u : Nat) (x : Loupe) : (s.setLoupe u x).stg = s.stg := rfl
@[simp] theorem State.setLoupe_stgEcc (u : Nat) (x : Loupe) : (s.setLoupe u x).stgEcc = s.stgEcc := rfl
@[simp] theorem State.setLoupe_engines (u : Nat) (x : Loupe) : (s.setLoupe u x).engines = s.engines := rfl
@[simp] theorem State.setLoupe_ctxs (u : Nat) (x : Loupe) : (s.setLoupe u x).ctxs = s.ctxs := rfl
@[simp] theorem State.setLoupe_tiles (u : Nat) (x : Loupe) : (s.setLoupe u x).tiles = s.tiles := rfl
@[simp] theorem State.setLoupe_sides (u : Nat) (x : Loupe) : (s.setLoupe u x).sides = s.sides := rfl
@[simp] theorem State.setLoupe_tags (u : Nat) (x : Loupe) : (s.setLoupe u x).tags = s.tags := rfl
@[simp] theorem State.setLoupe_accs (u : Nat) (x : Loupe) : (s.setLoupe u x).accs = s.accs := rfl
@[simp] theorem State.setLoupe_heads (u : Nat) (x : Loupe) : (s.setLoupe u x).heads = s.heads := rfl
@[simp] theorem State.setLoupe_xfers (u : Nat) (x : Loupe) : (s.setLoupe u x).xfers = s.xfers := rfl
@[simp] theorem State.setLoupe_batches (u : Nat) (x : Loupe) : (s.setLoupe u x).batches = s.batches := rfl
@[simp] theorem State.setLoupe_colls (u : Nat) (x : Loupe) : (s.setLoupe u x).colls = s.colls := rfl
@[simp] theorem State.setLoupe_nextId (u : Nat) (x : Loupe) : (s.setLoupe u x).nextId = s.nextId := rfl
@[simp] theorem State.setLoupe_semq (u : Nat) (x : Loupe) : (s.setLoupe u x).semq = s.semq := rfl
@[simp] theorem State.setLoupe_semBy (u : Nat) (x : Loupe) : (s.setLoupe u x).semBy = s.semBy := rfl
@[simp] theorem State.setLoupe_bars (u : Nat) (x : Loupe) : (s.setLoupe u x).bars = s.bars := rfl
@[simp] theorem State.setLoupe_cqs (u : Nat) (x : Loupe) : (s.setLoupe u x).cqs = s.cqs := rfl
@[simp] theorem State.setLoupe_wtasks (u : Nat) (x : Loupe) : (s.setLoupe u x).wtasks = s.wtasks := rfl
@[simp] theorem State.setLoupe_fence (u : Nat) (x : Loupe) : (s.setLoupe u x).fence = s.fence := rfl
@[simp] theorem State.setLoupe_sct (u : Nat) (x : Loupe) : (s.setLoupe u x).sct = s.sct := rfl
@[simp] theorem State.setLoupe_upd (u : Nat) (x : Loupe) : (s.setLoupe u x).upd = s.upd := rfl
@[simp] theorem State.setLoupe_ports (u : Nat) (x : Loupe) : (s.setLoupe u x).ports = s.ports := rfl
@[simp] theorem State.setLoupe_rtx (u : Nat) (x : Loupe) : (s.setLoupe u x).rtx = s.rtx := rfl
@[simp] theorem State.setLoupe_insts (u : Nat) (x : Loupe) : (s.setLoupe u x).insts = s.insts := rfl
@[simp] theorem State.setLoupe_time (u : Nat) (x : Loupe) : (s.setLoupe u x).time = s.time := rfl
@[simp] theorem State.setLoupe_idle (u : Nat) (x : Loupe) : (s.setLoupe u x).idle = s.idle := rfl
@[simp] theorem State.setLoupe_power (u : Nat) (x : Loupe) : (s.setLoupe u x).power = s.power := rfl
@[simp] theorem State.setLoupe_ring (u : Nat) (x : Loupe) : (s.setLoupe u x).ring = s.ring := rfl
@[simp] theorem State.setLoupe_hist (u : Nat) (x : Loupe) : (s.setLoupe u x).hist = s.hist := rfl
@[simp] theorem State.setLoupe_rots (u : Nat) (x : Loupe) : (s.setLoupe u x).rots = s.rots := rfl
@[simp] theorem State.setLoupe_sec (u : Nat) (x : Loupe) : (s.setLoupe u x).sec = s.sec := rfl
@[simp] theorem State.setLoupe_msix (u : Nat) (x : Loupe) : (s.setLoupe u x).msix = s.msix := rfl
@[simp] theorem State.setLoupe_free (u : Nat) (x : Loupe) : (s.setLoupe u x).free = s.free := rfl

@[simp] theorem State.setByte_pending (a : Nat) (v : BitVec 8) : (s.setByte a v).pending = s.pending := rfl
@[simp] theorem State.setByte_regs (a : Nat) (v : BitVec 8) : (s.setByte a v).regs = s.regs := rfl
@[simp] theorem State.setByte_ecc (a : Nat) (v : BitVec 8) : (s.setByte a v).ecc = s.ecc := rfl
@[simp] theorem State.setByte_hbmEpoch (a : Nat) (v : BitVec 8) : (s.setByte a v).hbmEpoch = s.hbmEpoch := rfl
@[simp] theorem State.setByte_sramEpoch (a : Nat) (v : BitVec 8) : (s.setByte a v).sramEpoch = s.sramEpoch := rfl
@[simp] theorem State.setByte_sramClean (a : Nat) (v : BitVec 8) : (s.setByte a v).sramClean = s.sramClean := rfl
@[simp] theorem State.setByte_stg (a : Nat) (v : BitVec 8) : (s.setByte a v).stg = s.stg := rfl
@[simp] theorem State.setByte_stgEcc (a : Nat) (v : BitVec 8) : (s.setByte a v).stgEcc = s.stgEcc := rfl
@[simp] theorem State.setByte_engines (a : Nat) (v : BitVec 8) : (s.setByte a v).engines = s.engines := rfl
@[simp] theorem State.setByte_ctxs (a : Nat) (v : BitVec 8) : (s.setByte a v).ctxs = s.ctxs := rfl
@[simp] theorem State.setByte_tiles (a : Nat) (v : BitVec 8) : (s.setByte a v).tiles = s.tiles := rfl
@[simp] theorem State.setByte_sides (a : Nat) (v : BitVec 8) : (s.setByte a v).sides = s.sides := rfl
@[simp] theorem State.setByte_tags (a : Nat) (v : BitVec 8) : (s.setByte a v).tags = s.tags := rfl
@[simp] theorem State.setByte_accs (a : Nat) (v : BitVec 8) : (s.setByte a v).accs = s.accs := rfl
@[simp] theorem State.setByte_heads (a : Nat) (v : BitVec 8) : (s.setByte a v).heads = s.heads := rfl
@[simp] theorem State.setByte_xfers (a : Nat) (v : BitVec 8) : (s.setByte a v).xfers = s.xfers := rfl
@[simp] theorem State.setByte_batches (a : Nat) (v : BitVec 8) : (s.setByte a v).batches = s.batches := rfl
@[simp] theorem State.setByte_colls (a : Nat) (v : BitVec 8) : (s.setByte a v).colls = s.colls := rfl
@[simp] theorem State.setByte_nextId (a : Nat) (v : BitVec 8) : (s.setByte a v).nextId = s.nextId := rfl
@[simp] theorem State.setByte_semq (a : Nat) (v : BitVec 8) : (s.setByte a v).semq = s.semq := rfl
@[simp] theorem State.setByte_semBy (a : Nat) (v : BitVec 8) : (s.setByte a v).semBy = s.semBy := rfl
@[simp] theorem State.setByte_bars (a : Nat) (v : BitVec 8) : (s.setByte a v).bars = s.bars := rfl
@[simp] theorem State.setByte_cqs (a : Nat) (v : BitVec 8) : (s.setByte a v).cqs = s.cqs := rfl
@[simp] theorem State.setByte_wtasks (a : Nat) (v : BitVec 8) : (s.setByte a v).wtasks = s.wtasks := rfl
@[simp] theorem State.setByte_fence (a : Nat) (v : BitVec 8) : (s.setByte a v).fence = s.fence := rfl
@[simp] theorem State.setByte_sct (a : Nat) (v : BitVec 8) : (s.setByte a v).sct = s.sct := rfl
@[simp] theorem State.setByte_upd (a : Nat) (v : BitVec 8) : (s.setByte a v).upd = s.upd := rfl
@[simp] theorem State.setByte_ports (a : Nat) (v : BitVec 8) : (s.setByte a v).ports = s.ports := rfl
@[simp] theorem State.setByte_rtx (a : Nat) (v : BitVec 8) : (s.setByte a v).rtx = s.rtx := rfl
@[simp] theorem State.setByte_insts (a : Nat) (v : BitVec 8) : (s.setByte a v).insts = s.insts := rfl
@[simp] theorem State.setByte_time (a : Nat) (v : BitVec 8) : (s.setByte a v).time = s.time := rfl
@[simp] theorem State.setByte_idle (a : Nat) (v : BitVec 8) : (s.setByte a v).idle = s.idle := rfl
@[simp] theorem State.setByte_power (a : Nat) (v : BitVec 8) : (s.setByte a v).power = s.power := rfl
@[simp] theorem State.setByte_ring (a : Nat) (v : BitVec 8) : (s.setByte a v).ring = s.ring := rfl
@[simp] theorem State.setByte_hist (a : Nat) (v : BitVec 8) : (s.setByte a v).hist = s.hist := rfl
@[simp] theorem State.setByte_rots (a : Nat) (v : BitVec 8) : (s.setByte a v).rots = s.rots := rfl
@[simp] theorem State.setByte_loupes (a : Nat) (v : BitVec 8) : (s.setByte a v).loupes = s.loupes := rfl
@[simp] theorem State.setByte_sec (a : Nat) (v : BitVec 8) : (s.setByte a v).sec = s.sec := rfl
@[simp] theorem State.setByte_msix (a : Nat) (v : BitVec 8) : (s.setByte a v).msix = s.msix := rfl
@[simp] theorem State.setByte_free (a : Nat) (v : BitVec 8) : (s.setByte a v).free = s.free := rfl

@[simp] theorem State.modEng_pending (e : Nat) (f : Engine → Engine) : (s.modEng e f).pending = s.pending := rfl
@[simp] theorem State.modEng_regs (e : Nat) (f : Engine → Engine) : (s.modEng e f).regs = s.regs := rfl
@[simp] theorem State.modEng_mem (e : Nat) (f : Engine → Engine) : (s.modEng e f).mem = s.mem := rfl
@[simp] theorem State.modEng_ecc (e : Nat) (f : Engine → Engine) : (s.modEng e f).ecc = s.ecc := rfl
@[simp] theorem State.modEng_hbmEpoch (e : Nat) (f : Engine → Engine) : (s.modEng e f).hbmEpoch = s.hbmEpoch := rfl
@[simp] theorem State.modEng_sramEpoch (e : Nat) (f : Engine → Engine) : (s.modEng e f).sramEpoch = s.sramEpoch := rfl
@[simp] theorem State.modEng_sramClean (e : Nat) (f : Engine → Engine) : (s.modEng e f).sramClean = s.sramClean := rfl
@[simp] theorem State.modEng_stg (e : Nat) (f : Engine → Engine) : (s.modEng e f).stg = s.stg := rfl
@[simp] theorem State.modEng_stgEcc (e : Nat) (f : Engine → Engine) : (s.modEng e f).stgEcc = s.stgEcc := rfl
@[simp] theorem State.modEng_ctxs (e : Nat) (f : Engine → Engine) : (s.modEng e f).ctxs = s.ctxs := rfl
@[simp] theorem State.modEng_tiles (e : Nat) (f : Engine → Engine) : (s.modEng e f).tiles = s.tiles := rfl
@[simp] theorem State.modEng_sides (e : Nat) (f : Engine → Engine) : (s.modEng e f).sides = s.sides := rfl
@[simp] theorem State.modEng_tags (e : Nat) (f : Engine → Engine) : (s.modEng e f).tags = s.tags := rfl
@[simp] theorem State.modEng_accs (e : Nat) (f : Engine → Engine) : (s.modEng e f).accs = s.accs := rfl
@[simp] theorem State.modEng_heads (e : Nat) (f : Engine → Engine) : (s.modEng e f).heads = s.heads := rfl
@[simp] theorem State.modEng_xfers (e : Nat) (f : Engine → Engine) : (s.modEng e f).xfers = s.xfers := rfl
@[simp] theorem State.modEng_batches (e : Nat) (f : Engine → Engine) : (s.modEng e f).batches = s.batches := rfl
@[simp] theorem State.modEng_colls (e : Nat) (f : Engine → Engine) : (s.modEng e f).colls = s.colls := rfl
@[simp] theorem State.modEng_nextId (e : Nat) (f : Engine → Engine) : (s.modEng e f).nextId = s.nextId := rfl
@[simp] theorem State.modEng_semq (e : Nat) (f : Engine → Engine) : (s.modEng e f).semq = s.semq := rfl
@[simp] theorem State.modEng_semBy (e : Nat) (f : Engine → Engine) : (s.modEng e f).semBy = s.semBy := rfl
@[simp] theorem State.modEng_bars (e : Nat) (f : Engine → Engine) : (s.modEng e f).bars = s.bars := rfl
@[simp] theorem State.modEng_cqs (e : Nat) (f : Engine → Engine) : (s.modEng e f).cqs = s.cqs := rfl
@[simp] theorem State.modEng_wtasks (e : Nat) (f : Engine → Engine) : (s.modEng e f).wtasks = s.wtasks := rfl
@[simp] theorem State.modEng_fence (e : Nat) (f : Engine → Engine) : (s.modEng e f).fence = s.fence := rfl
@[simp] theorem State.modEng_sct (e : Nat) (f : Engine → Engine) : (s.modEng e f).sct = s.sct := rfl
@[simp] theorem State.modEng_upd (e : Nat) (f : Engine → Engine) : (s.modEng e f).upd = s.upd := rfl
@[simp] theorem State.modEng_ports (e : Nat) (f : Engine → Engine) : (s.modEng e f).ports = s.ports := rfl
@[simp] theorem State.modEng_rtx (e : Nat) (f : Engine → Engine) : (s.modEng e f).rtx = s.rtx := rfl
@[simp] theorem State.modEng_insts (e : Nat) (f : Engine → Engine) : (s.modEng e f).insts = s.insts := rfl
@[simp] theorem State.modEng_time (e : Nat) (f : Engine → Engine) : (s.modEng e f).time = s.time := rfl
@[simp] theorem State.modEng_idle (e : Nat) (f : Engine → Engine) : (s.modEng e f).idle = s.idle := rfl
@[simp] theorem State.modEng_power (e : Nat) (f : Engine → Engine) : (s.modEng e f).power = s.power := rfl
@[simp] theorem State.modEng_ring (e : Nat) (f : Engine → Engine) : (s.modEng e f).ring = s.ring := rfl
@[simp] theorem State.modEng_hist (e : Nat) (f : Engine → Engine) : (s.modEng e f).hist = s.hist := rfl
@[simp] theorem State.modEng_rots (e : Nat) (f : Engine → Engine) : (s.modEng e f).rots = s.rots := rfl
@[simp] theorem State.modEng_loupes (e : Nat) (f : Engine → Engine) : (s.modEng e f).loupes = s.loupes := rfl
@[simp] theorem State.modEng_sec (e : Nat) (f : Engine → Engine) : (s.modEng e f).sec = s.sec := rfl
@[simp] theorem State.modEng_msix (e : Nat) (f : Engine → Engine) : (s.modEng e f).msix = s.msix := rfl
@[simp] theorem State.modEng_free (e : Nat) (f : Engine → Engine) : (s.modEng e f).free = s.free := rfl

@[simp] theorem State.modCtx_pending (c : Nat) (f : Ctx → Ctx) : (s.modCtx c f).pending = s.pending := rfl
@[simp] theorem State.modCtx_regs (c : Nat) (f : Ctx → Ctx) : (s.modCtx c f).regs = s.regs := rfl
@[simp] theorem State.modCtx_mem (c : Nat) (f : Ctx → Ctx) : (s.modCtx c f).mem = s.mem := rfl
@[simp] theorem State.modCtx_ecc (c : Nat) (f : Ctx → Ctx) : (s.modCtx c f).ecc = s.ecc := rfl
@[simp] theorem State.modCtx_hbmEpoch (c : Nat) (f : Ctx → Ctx) : (s.modCtx c f).hbmEpoch = s.hbmEpoch := rfl
@[simp] theorem State.modCtx_sramEpoch (c : Nat) (f : Ctx → Ctx) : (s.modCtx c f).sramEpoch = s.sramEpoch := rfl
@[simp] theorem State.modCtx_sramClean (c : Nat) (f : Ctx → Ctx) : (s.modCtx c f).sramClean = s.sramClean := rfl
@[simp] theorem State.modCtx_stg (c : Nat) (f : Ctx → Ctx) : (s.modCtx c f).stg = s.stg := rfl
@[simp] theorem State.modCtx_stgEcc (c : Nat) (f : Ctx → Ctx) : (s.modCtx c f).stgEcc = s.stgEcc := rfl
@[simp] theorem State.modCtx_engines (c : Nat) (f : Ctx → Ctx) : (s.modCtx c f).engines = s.engines := rfl
@[simp] theorem State.modCtx_tiles (c : Nat) (f : Ctx → Ctx) : (s.modCtx c f).tiles = s.tiles := rfl
@[simp] theorem State.modCtx_sides (c : Nat) (f : Ctx → Ctx) : (s.modCtx c f).sides = s.sides := rfl
@[simp] theorem State.modCtx_tags (c : Nat) (f : Ctx → Ctx) : (s.modCtx c f).tags = s.tags := rfl
@[simp] theorem State.modCtx_accs (c : Nat) (f : Ctx → Ctx) : (s.modCtx c f).accs = s.accs := rfl
@[simp] theorem State.modCtx_heads (c : Nat) (f : Ctx → Ctx) : (s.modCtx c f).heads = s.heads := rfl
@[simp] theorem State.modCtx_xfers (c : Nat) (f : Ctx → Ctx) : (s.modCtx c f).xfers = s.xfers := rfl
@[simp] theorem State.modCtx_batches (c : Nat) (f : Ctx → Ctx) : (s.modCtx c f).batches = s.batches := rfl
@[simp] theorem State.modCtx_colls (c : Nat) (f : Ctx → Ctx) : (s.modCtx c f).colls = s.colls := rfl
@[simp] theorem State.modCtx_nextId (c : Nat) (f : Ctx → Ctx) : (s.modCtx c f).nextId = s.nextId := rfl
@[simp] theorem State.modCtx_semq (c : Nat) (f : Ctx → Ctx) : (s.modCtx c f).semq = s.semq := rfl
@[simp] theorem State.modCtx_semBy (c : Nat) (f : Ctx → Ctx) : (s.modCtx c f).semBy = s.semBy := rfl
@[simp] theorem State.modCtx_bars (c : Nat) (f : Ctx → Ctx) : (s.modCtx c f).bars = s.bars := rfl
@[simp] theorem State.modCtx_cqs (c : Nat) (f : Ctx → Ctx) : (s.modCtx c f).cqs = s.cqs := rfl
@[simp] theorem State.modCtx_wtasks (c : Nat) (f : Ctx → Ctx) : (s.modCtx c f).wtasks = s.wtasks := rfl
@[simp] theorem State.modCtx_fence (c : Nat) (f : Ctx → Ctx) : (s.modCtx c f).fence = s.fence := rfl
@[simp] theorem State.modCtx_sct (c : Nat) (f : Ctx → Ctx) : (s.modCtx c f).sct = s.sct := rfl
@[simp] theorem State.modCtx_upd (c : Nat) (f : Ctx → Ctx) : (s.modCtx c f).upd = s.upd := rfl
@[simp] theorem State.modCtx_ports (c : Nat) (f : Ctx → Ctx) : (s.modCtx c f).ports = s.ports := rfl
@[simp] theorem State.modCtx_rtx (c : Nat) (f : Ctx → Ctx) : (s.modCtx c f).rtx = s.rtx := rfl
@[simp] theorem State.modCtx_insts (c : Nat) (f : Ctx → Ctx) : (s.modCtx c f).insts = s.insts := rfl
@[simp] theorem State.modCtx_time (c : Nat) (f : Ctx → Ctx) : (s.modCtx c f).time = s.time := rfl
@[simp] theorem State.modCtx_idle (c : Nat) (f : Ctx → Ctx) : (s.modCtx c f).idle = s.idle := rfl
@[simp] theorem State.modCtx_power (c : Nat) (f : Ctx → Ctx) : (s.modCtx c f).power = s.power := rfl
@[simp] theorem State.modCtx_ring (c : Nat) (f : Ctx → Ctx) : (s.modCtx c f).ring = s.ring := rfl
@[simp] theorem State.modCtx_hist (c : Nat) (f : Ctx → Ctx) : (s.modCtx c f).hist = s.hist := rfl
@[simp] theorem State.modCtx_rots (c : Nat) (f : Ctx → Ctx) : (s.modCtx c f).rots = s.rots := rfl
@[simp] theorem State.modCtx_loupes (c : Nat) (f : Ctx → Ctx) : (s.modCtx c f).loupes = s.loupes := rfl
@[simp] theorem State.modCtx_sec (c : Nat) (f : Ctx → Ctx) : (s.modCtx c f).sec = s.sec := rfl
@[simp] theorem State.modCtx_msix (c : Nat) (f : Ctx → Ctx) : (s.modCtx c f).msix = s.msix := rfl
@[simp] theorem State.modCtx_free (c : Nat) (f : Ctx → Ctx) : (s.modCtx c f).free = s.free := rfl

@[simp] theorem State.modPort_pending (p : Nat) (f : Port → Port) : (s.modPort p f).pending = s.pending := rfl
@[simp] theorem State.modPort_regs (p : Nat) (f : Port → Port) : (s.modPort p f).regs = s.regs := rfl
@[simp] theorem State.modPort_mem (p : Nat) (f : Port → Port) : (s.modPort p f).mem = s.mem := rfl
@[simp] theorem State.modPort_ecc (p : Nat) (f : Port → Port) : (s.modPort p f).ecc = s.ecc := rfl
@[simp] theorem State.modPort_hbmEpoch (p : Nat) (f : Port → Port) : (s.modPort p f).hbmEpoch = s.hbmEpoch := rfl
@[simp] theorem State.modPort_sramEpoch (p : Nat) (f : Port → Port) : (s.modPort p f).sramEpoch = s.sramEpoch := rfl
@[simp] theorem State.modPort_sramClean (p : Nat) (f : Port → Port) : (s.modPort p f).sramClean = s.sramClean := rfl
@[simp] theorem State.modPort_stg (p : Nat) (f : Port → Port) : (s.modPort p f).stg = s.stg := rfl
@[simp] theorem State.modPort_stgEcc (p : Nat) (f : Port → Port) : (s.modPort p f).stgEcc = s.stgEcc := rfl
@[simp] theorem State.modPort_engines (p : Nat) (f : Port → Port) : (s.modPort p f).engines = s.engines := rfl
@[simp] theorem State.modPort_ctxs (p : Nat) (f : Port → Port) : (s.modPort p f).ctxs = s.ctxs := rfl
@[simp] theorem State.modPort_tiles (p : Nat) (f : Port → Port) : (s.modPort p f).tiles = s.tiles := rfl
@[simp] theorem State.modPort_sides (p : Nat) (f : Port → Port) : (s.modPort p f).sides = s.sides := rfl
@[simp] theorem State.modPort_tags (p : Nat) (f : Port → Port) : (s.modPort p f).tags = s.tags := rfl
@[simp] theorem State.modPort_accs (p : Nat) (f : Port → Port) : (s.modPort p f).accs = s.accs := rfl
@[simp] theorem State.modPort_heads (p : Nat) (f : Port → Port) : (s.modPort p f).heads = s.heads := rfl
@[simp] theorem State.modPort_xfers (p : Nat) (f : Port → Port) : (s.modPort p f).xfers = s.xfers := rfl
@[simp] theorem State.modPort_batches (p : Nat) (f : Port → Port) : (s.modPort p f).batches = s.batches := rfl
@[simp] theorem State.modPort_colls (p : Nat) (f : Port → Port) : (s.modPort p f).colls = s.colls := rfl
@[simp] theorem State.modPort_nextId (p : Nat) (f : Port → Port) : (s.modPort p f).nextId = s.nextId := rfl
@[simp] theorem State.modPort_semq (p : Nat) (f : Port → Port) : (s.modPort p f).semq = s.semq := rfl
@[simp] theorem State.modPort_semBy (p : Nat) (f : Port → Port) : (s.modPort p f).semBy = s.semBy := rfl
@[simp] theorem State.modPort_bars (p : Nat) (f : Port → Port) : (s.modPort p f).bars = s.bars := rfl
@[simp] theorem State.modPort_cqs (p : Nat) (f : Port → Port) : (s.modPort p f).cqs = s.cqs := rfl
@[simp] theorem State.modPort_wtasks (p : Nat) (f : Port → Port) : (s.modPort p f).wtasks = s.wtasks := rfl
@[simp] theorem State.modPort_fence (p : Nat) (f : Port → Port) : (s.modPort p f).fence = s.fence := rfl
@[simp] theorem State.modPort_sct (p : Nat) (f : Port → Port) : (s.modPort p f).sct = s.sct := rfl
@[simp] theorem State.modPort_upd (p : Nat) (f : Port → Port) : (s.modPort p f).upd = s.upd := rfl
@[simp] theorem State.modPort_rtx (p : Nat) (f : Port → Port) : (s.modPort p f).rtx = s.rtx := rfl
@[simp] theorem State.modPort_insts (p : Nat) (f : Port → Port) : (s.modPort p f).insts = s.insts := rfl
@[simp] theorem State.modPort_time (p : Nat) (f : Port → Port) : (s.modPort p f).time = s.time := rfl
@[simp] theorem State.modPort_idle (p : Nat) (f : Port → Port) : (s.modPort p f).idle = s.idle := rfl
@[simp] theorem State.modPort_power (p : Nat) (f : Port → Port) : (s.modPort p f).power = s.power := rfl
@[simp] theorem State.modPort_ring (p : Nat) (f : Port → Port) : (s.modPort p f).ring = s.ring := rfl
@[simp] theorem State.modPort_hist (p : Nat) (f : Port → Port) : (s.modPort p f).hist = s.hist := rfl
@[simp] theorem State.modPort_rots (p : Nat) (f : Port → Port) : (s.modPort p f).rots = s.rots := rfl
@[simp] theorem State.modPort_loupes (p : Nat) (f : Port → Port) : (s.modPort p f).loupes = s.loupes := rfl
@[simp] theorem State.modPort_sec (p : Nat) (f : Port → Port) : (s.modPort p f).sec = s.sec := rfl
@[simp] theorem State.modPort_msix (p : Nat) (f : Port → Port) : (s.modPort p f).msix = s.msix := rfl
@[simp] theorem State.modPort_free (p : Nat) (f : Port → Port) : (s.modPort p f).free = s.free := rfl

@[simp] theorem State.irq_pending (v : Nat) : (s.irq v).pending = s.pending := rfl
@[simp] theorem State.irq_regs (v : Nat) : (s.irq v).regs = s.regs := rfl
@[simp] theorem State.irq_mem (v : Nat) : (s.irq v).mem = s.mem := rfl
@[simp] theorem State.irq_ecc (v : Nat) : (s.irq v).ecc = s.ecc := rfl
@[simp] theorem State.irq_hbmEpoch (v : Nat) : (s.irq v).hbmEpoch = s.hbmEpoch := rfl
@[simp] theorem State.irq_sramEpoch (v : Nat) : (s.irq v).sramEpoch = s.sramEpoch := rfl
@[simp] theorem State.irq_sramClean (v : Nat) : (s.irq v).sramClean = s.sramClean := rfl
@[simp] theorem State.irq_stg (v : Nat) : (s.irq v).stg = s.stg := rfl
@[simp] theorem State.irq_stgEcc (v : Nat) : (s.irq v).stgEcc = s.stgEcc := rfl
@[simp] theorem State.irq_engines (v : Nat) : (s.irq v).engines = s.engines := rfl
@[simp] theorem State.irq_ctxs (v : Nat) : (s.irq v).ctxs = s.ctxs := rfl
@[simp] theorem State.irq_tiles (v : Nat) : (s.irq v).tiles = s.tiles := rfl
@[simp] theorem State.irq_sides (v : Nat) : (s.irq v).sides = s.sides := rfl
@[simp] theorem State.irq_tags (v : Nat) : (s.irq v).tags = s.tags := rfl
@[simp] theorem State.irq_accs (v : Nat) : (s.irq v).accs = s.accs := rfl
@[simp] theorem State.irq_heads (v : Nat) : (s.irq v).heads = s.heads := rfl
@[simp] theorem State.irq_xfers (v : Nat) : (s.irq v).xfers = s.xfers := rfl
@[simp] theorem State.irq_batches (v : Nat) : (s.irq v).batches = s.batches := rfl
@[simp] theorem State.irq_colls (v : Nat) : (s.irq v).colls = s.colls := rfl
@[simp] theorem State.irq_nextId (v : Nat) : (s.irq v).nextId = s.nextId := rfl
@[simp] theorem State.irq_semq (v : Nat) : (s.irq v).semq = s.semq := rfl
@[simp] theorem State.irq_semBy (v : Nat) : (s.irq v).semBy = s.semBy := rfl
@[simp] theorem State.irq_bars (v : Nat) : (s.irq v).bars = s.bars := rfl
@[simp] theorem State.irq_cqs (v : Nat) : (s.irq v).cqs = s.cqs := rfl
@[simp] theorem State.irq_wtasks (v : Nat) : (s.irq v).wtasks = s.wtasks := rfl
@[simp] theorem State.irq_fence (v : Nat) : (s.irq v).fence = s.fence := rfl
@[simp] theorem State.irq_sct (v : Nat) : (s.irq v).sct = s.sct := rfl
@[simp] theorem State.irq_upd (v : Nat) : (s.irq v).upd = s.upd := rfl
@[simp] theorem State.irq_ports (v : Nat) : (s.irq v).ports = s.ports := rfl
@[simp] theorem State.irq_rtx (v : Nat) : (s.irq v).rtx = s.rtx := rfl
@[simp] theorem State.irq_insts (v : Nat) : (s.irq v).insts = s.insts := rfl
@[simp] theorem State.irq_time (v : Nat) : (s.irq v).time = s.time := rfl
@[simp] theorem State.irq_idle (v : Nat) : (s.irq v).idle = s.idle := rfl
@[simp] theorem State.irq_power (v : Nat) : (s.irq v).power = s.power := rfl
@[simp] theorem State.irq_ring (v : Nat) : (s.irq v).ring = s.ring := rfl
@[simp] theorem State.irq_hist (v : Nat) : (s.irq v).hist = s.hist := rfl
@[simp] theorem State.irq_rots (v : Nat) : (s.irq v).rots = s.rots := rfl
@[simp] theorem State.irq_loupes (v : Nat) : (s.irq v).loupes = s.loupes := rfl
@[simp] theorem State.irq_sec (v : Nat) : (s.irq v).sec = s.sec := rfl
@[simp] theorem State.irq_free (v : Nat) : (s.irq v).free = s.free := rfl

/-! ## Reads after an update -/

@[simp] theorem State.setEng_eng_self (e : Nat) (x : Engine) : (s.setEng e x).eng e = x := Sparse.get_set_self _ _ _ _
theorem State.setEng_eng (e : Nat) (x : Engine) (i : Nat) :
    (s.setEng e x).eng i = if i = e then x else s.eng i := Sparse.get_set _ _ _ _ _
@[simp] theorem State.setCtx_ctx_self (c : Nat) (x : Ctx) : (s.setCtx c x).ctx c = x := Sparse.get_set_self _ _ _ _
theorem State.setCtx_ctx (c : Nat) (x : Ctx) (i : Nat) :
    (s.setCtx c x).ctx i = if i = c then x else s.ctx i := Sparse.get_set _ _ _ _ _
@[simp] theorem State.setTag_tag_self (k : Nat) (x : Tag) : (s.setTag k x).tag k = x := Sparse.get_set_self _ _ _ _
theorem State.setTag_tag (k : Nat) (x : Tag) (i : Nat) :
    (s.setTag k x).tag i = if i = k then x else s.tag i := Sparse.get_set _ _ _ _ _
@[simp] theorem State.setTileB_tileB_self (k : Nat) (v : BitVec 8) : (s.setTileB k v).tileB k = v := Sparse.get_set_self _ _ _ _
theorem State.setTileB_tileB (k : Nat) (v : BitVec 8) (i : Nat) :
    (s.setTileB k v).tileB i = if i = k then v else s.tileB i := Sparse.get_set _ _ _ _ _
@[simp] theorem State.setSideB_sideB_self (k : Nat) (v : BitVec 8) : (s.setSideB k v).sideB k = v := Sparse.get_set_self _ _ _ _
theorem State.setSideB_sideB (k : Nat) (v : BitVec 8) (i : Nat) :
    (s.setSideB k v).sideB i = if i = k then v else s.sideB i := Sparse.get_set _ _ _ _ _
@[simp] theorem State.setAcc_acc_self (k : Nat) (v : BitVec 128) : (s.setAcc k v).acc k = v := Sparse.get_set_self _ _ _ _
theorem State.setAcc_acc (k : Nat) (v : BitVec 128) (i : Nat) :
    (s.setAcc k v).acc i = if i = k then v else s.acc i := Sparse.get_set _ _ _ _ _
@[simp] theorem State.setHead_head_self (k : Nat) (v : BitVec 128) : (s.setHead k v).head k = v := Sparse.get_set_self _ _ _ _
theorem State.setHead_head (k : Nat) (v : BitVec 128) (i : Nat) :
    (s.setHead k v).head i = if i = k then v else s.head i := Sparse.get_set _ _ _ _ _
@[simp] theorem State.setXfer_xfer_self (k : Nat) (x : Xfer) : (s.setXfer k x).xfer k = x := Sparse.get_set_self _ _ _ _
theorem State.setXfer_xfer (k : Nat) (x : Xfer) (i : Nat) :
    (s.setXfer k x).xfer i = if i = k then x else s.xfer i := Sparse.get_set _ _ _ _ _
@[simp] theorem State.setBatch_batch_self (l : Nat) (x : List Batch) : (s.setBatch l x).batch l = x := Sparse.get_set_self _ _ _ _
theorem State.setBatch_batch (l : Nat) (x : List Batch) (i : Nat) :
    (s.setBatch l x).batch i = if i = l then x else s.batch i := Sparse.get_set _ _ _ _ _
@[simp] theorem State.setColl_coll_self (k : Nat) (x : Coll) : (s.setColl k x).coll k = x := Sparse.get_set_self _ _ _ _
theorem State.setColl_coll (k : Nat) (x : Coll) (i : Nat) :
    (s.setColl k x).coll i = if i = k then x else s.coll i := Sparse.get_set _ _ _ _ _
@[simp] theorem State.setWaiters_waiters_self (k : Nat) (x : List Waiter) : (s.setWaiters k x).waiters k = x := Sparse.get_set_self _ _ _ _
theorem State.setWaiters_waiters (k : Nat) (x : List Waiter) (i : Nat) :
    (s.setWaiters k x).waiters i = if i = k then x else s.waiters i := Sparse.get_set _ _ _ _ _
@[simp] theorem State.setCq_cq_self (q : Nat) (x : CQ) : (s.setCq q x).cq q = x := Sparse.get_set_self _ _ _ _
theorem State.setCq_cq (q : Nat) (x : CQ) (i : Nat) :
    (s.setCq q x).cq i = if i = q then x else s.cq i := Sparse.get_set _ _ _ _ _
@[simp] theorem State.setPort_port_self (p : Nat) (x : Port) : (s.setPort p x).port p = x := Sparse.get_set_self _ _ _ _
theorem State.setPort_port (p : Nat) (x : Port) (i : Nat) :
    (s.setPort p x).port i = if i = p then x else s.port i := Sparse.get_set _ _ _ _ _
@[simp] theorem State.setRot_rot_self (u : Nat) (x : Rot) : (s.setRot u x).rot u = x := Sparse.get_set_self _ _ _ _
theorem State.setRot_rot (u : Nat) (x : Rot) (i : Nat) :
    (s.setRot u x).rot i = if i = u then x else s.rot i := Sparse.get_set _ _ _ _ _
@[simp] theorem State.setLoupe_loupe_self (u : Nat) (x : Loupe) : (s.setLoupe u x).loupe u = x := Sparse.get_set_self _ _ _ _
theorem State.setLoupe_loupe (u : Nat) (x : Loupe) (i : Nat) :
    (s.setLoupe u x).loupe i = if i = u then x else s.loupe i := Sparse.get_set _ _ _ _ _
@[simp] theorem State.setReg_reg_self (k : Nat) (v : BitVec 32) : (s.setReg k v).reg k = v := Sparse.get_set_self _ _ _ _
theorem State.setReg_reg (k : Nat) (v : BitVec 32) (i : Nat) :
    (s.setReg k v).reg i = if i = k then v else s.reg i := Sparse.get_set _ _ _ _ _
@[simp] theorem State.setByte_byte_self (a : Nat) (v : BitVec 8) : (s.setByte a v).byte a = v := Sparse.get_set_self _ _ _ _
theorem State.setByte_byte (a : Nat) (v : BitVec 8) (i : Nat) :
    (s.setByte a v).byte i = if i = a then v else s.byte i := Sparse.get_set _ _ _ _ _
theorem State.modEng_eng (e : Nat) (f : Engine → Engine) (i : Nat) :
    (s.modEng e f).eng i = if i = e then f (s.eng e) else s.eng i := Sparse.get_set _ _ _ _ _
@[simp] theorem State.modEng_eng_self (e : Nat) (f : Engine → Engine) : (s.modEng e f).eng e = f (s.eng e) := Sparse.get_set_self _ _ _ _
theorem State.modCtx_ctx (c : Nat) (f : Ctx → Ctx) (i : Nat) :
    (s.modCtx c f).ctx i = if i = c then f (s.ctx c) else s.ctx i := Sparse.get_set _ _ _ _ _
@[simp] theorem State.modCtx_ctx_self (c : Nat) (f : Ctx → Ctx) : (s.modCtx c f).ctx c = f (s.ctx c) := Sparse.get_set_self _ _ _ _
theorem State.modPort_port (p : Nat) (f : Port → Port) (i : Nat) :
    (s.modPort p f).port i = if i = p then f (s.port p) else s.port i := Sparse.get_set _ _ _ _ _
@[simp] theorem State.modPort_port_self (p : Nat) (f : Port → Port) : (s.modPort p f).port p = f (s.port p) := Sparse.get_set_self _ _ _ _

@[simp] theorem State.setReg_eng_same (k : Nat) (v : BitVec 32) (i : Nat) : (s.setReg k v).eng i = s.eng i := rfl
@[simp] theorem State.setReg_ctx_same (k : Nat) (v : BitVec 32) (i : Nat) : (s.setReg k v).ctx i = s.ctx i := rfl
@[simp] theorem State.setReg_tag_same (k : Nat) (v : BitVec 32) (i : Nat) : (s.setReg k v).tag i = s.tag i := rfl
@[simp] theorem State.setReg_tileB_same (k : Nat) (v : BitVec 32) (i : Nat) : (s.setReg k v).tileB i = s.tileB i := rfl
@[simp] theorem State.setReg_sideB_same (k : Nat) (v : BitVec 32) (i : Nat) : (s.setReg k v).sideB i = s.sideB i := rfl
@[simp] theorem State.setReg_acc_same (k : Nat) (v : BitVec 32) (i : Nat) : (s.setReg k v).acc i = s.acc i := rfl
@[simp] theorem State.setReg_head_same (k : Nat) (v : BitVec 32) (i : Nat) : (s.setReg k v).head i = s.head i := rfl
@[simp] theorem State.setReg_xfer_same (k : Nat) (v : BitVec 32) (i : Nat) : (s.setReg k v).xfer i = s.xfer i := rfl
@[simp] theorem State.setReg_batch_same (k : Nat) (v : BitVec 32) (i : Nat) : (s.setReg k v).batch i = s.batch i := rfl
@[simp] theorem State.setReg_coll_same (k : Nat) (v : BitVec 32) (i : Nat) : (s.setReg k v).coll i = s.coll i := rfl
@[simp] theorem State.setReg_waiters_same (k : Nat) (v : BitVec 32) (i : Nat) : (s.setReg k v).waiters i = s.waiters i := rfl
@[simp] theorem State.setReg_cq_same (k : Nat) (v : BitVec 32) (i : Nat) : (s.setReg k v).cq i = s.cq i := rfl
@[simp] theorem State.setReg_port_same (k : Nat) (v : BitVec 32) (i : Nat) : (s.setReg k v).port i = s.port i := rfl
@[simp] theorem State.setReg_rot_same (k : Nat) (v : BitVec 32) (i : Nat) : (s.setReg k v).rot i = s.rot i := rfl
@[simp] theorem State.setReg_loupe_same (k : Nat) (v : BitVec 32) (i : Nat) : (s.setReg k v).loupe i = s.loupe i := rfl
@[simp] theorem State.setReg_byte_same (k : Nat) (v : BitVec 32) (i : Nat) : (s.setReg k v).byte i = s.byte i := rfl
@[simp] theorem State.setReg_now (k : Nat) (v : BitVec 32) : (s.setReg k v).now = s.now := rfl

@[simp] theorem State.fset_eng_same (f : Fld) (v : Nat) (i : Nat) : (s.fset f v).eng i = s.eng i := rfl
@[simp] theorem State.fset_ctx_same (f : Fld) (v : Nat) (i : Nat) : (s.fset f v).ctx i = s.ctx i := rfl
@[simp] theorem State.fset_tag_same (f : Fld) (v : Nat) (i : Nat) : (s.fset f v).tag i = s.tag i := rfl
@[simp] theorem State.fset_tileB_same (f : Fld) (v : Nat) (i : Nat) : (s.fset f v).tileB i = s.tileB i := rfl
@[simp] theorem State.fset_sideB_same (f : Fld) (v : Nat) (i : Nat) : (s.fset f v).sideB i = s.sideB i := rfl
@[simp] theorem State.fset_acc_same (f : Fld) (v : Nat) (i : Nat) : (s.fset f v).acc i = s.acc i := rfl
@[simp] theorem State.fset_head_same (f : Fld) (v : Nat) (i : Nat) : (s.fset f v).head i = s.head i := rfl
@[simp] theorem State.fset_xfer_same (f : Fld) (v : Nat) (i : Nat) : (s.fset f v).xfer i = s.xfer i := rfl
@[simp] theorem State.fset_batch_same (f : Fld) (v : Nat) (i : Nat) : (s.fset f v).batch i = s.batch i := rfl
@[simp] theorem State.fset_coll_same (f : Fld) (v : Nat) (i : Nat) : (s.fset f v).coll i = s.coll i := rfl
@[simp] theorem State.fset_waiters_same (f : Fld) (v : Nat) (i : Nat) : (s.fset f v).waiters i = s.waiters i := rfl
@[simp] theorem State.fset_cq_same (f : Fld) (v : Nat) (i : Nat) : (s.fset f v).cq i = s.cq i := rfl
@[simp] theorem State.fset_port_same (f : Fld) (v : Nat) (i : Nat) : (s.fset f v).port i = s.port i := rfl
@[simp] theorem State.fset_rot_same (f : Fld) (v : Nat) (i : Nat) : (s.fset f v).rot i = s.rot i := rfl
@[simp] theorem State.fset_loupe_same (f : Fld) (v : Nat) (i : Nat) : (s.fset f v).loupe i = s.loupe i := rfl
@[simp] theorem State.fset_byte_same (f : Fld) (v : Nat) (i : Nat) : (s.fset f v).byte i = s.byte i := rfl
@[simp] theorem State.fset_now (f : Fld) (v : Nat) : (s.fset f v).now = s.now := rfl

@[simp] theorem State.setEng_ctx_same (e : Nat) (x : Engine) (i : Nat) : (s.setEng e x).ctx i = s.ctx i := rfl
@[simp] theorem State.setEng_tag_same (e : Nat) (x : Engine) (i : Nat) : (s.setEng e x).tag i = s.tag i := rfl
@[simp] theorem State.setEng_tileB_same (e : Nat) (x : Engine) (i : Nat) : (s.setEng e x).tileB i = s.tileB i := rfl
@[simp] theorem State.setEng_sideB_same (e : Nat) (x : Engine) (i : Nat) : (s.setEng e x).sideB i = s.sideB i := rfl
@[simp] theorem State.setEng_acc_same (e : Nat) (x : Engine) (i : Nat) : (s.setEng e x).acc i = s.acc i := rfl
@[simp] theorem State.setEng_head_same (e : Nat) (x : Engine) (i : Nat) : (s.setEng e x).head i = s.head i := rfl
@[simp] theorem State.setEng_xfer_same (e : Nat) (x : Engine) (i : Nat) : (s.setEng e x).xfer i = s.xfer i := rfl
@[simp] theorem State.setEng_batch_same (e : Nat) (x : Engine) (i : Nat) : (s.setEng e x).batch i = s.batch i := rfl
@[simp] theorem State.setEng_coll_same (e : Nat) (x : Engine) (i : Nat) : (s.setEng e x).coll i = s.coll i := rfl
@[simp] theorem State.setEng_waiters_same (e : Nat) (x : Engine) (i : Nat) : (s.setEng e x).waiters i = s.waiters i := rfl
@[simp] theorem State.setEng_cq_same (e : Nat) (x : Engine) (i : Nat) : (s.setEng e x).cq i = s.cq i := rfl
@[simp] theorem State.setEng_port_same (e : Nat) (x : Engine) (i : Nat) : (s.setEng e x).port i = s.port i := rfl
@[simp] theorem State.setEng_rot_same (e : Nat) (x : Engine) (i : Nat) : (s.setEng e x).rot i = s.rot i := rfl
@[simp] theorem State.setEng_loupe_same (e : Nat) (x : Engine) (i : Nat) : (s.setEng e x).loupe i = s.loupe i := rfl
@[simp] theorem State.setEng_reg_same (e : Nat) (x : Engine) (i : Nat) : (s.setEng e x).reg i = s.reg i := rfl
@[simp] theorem State.setEng_byte_same (e : Nat) (x : Engine) (i : Nat) : (s.setEng e x).byte i = s.byte i := rfl
@[simp] theorem State.setEng_fget (e : Nat) (x : Engine) (g : Fld) : (s.setEng e x).fget g = s.fget g := rfl
@[simp] theorem State.setEng_flag (e : Nat) (x : Engine) (g : Fld) : (s.setEng e x).flag g = s.flag g := rfl
@[simp] theorem State.setEng_now (e : Nat) (x : Engine) : (s.setEng e x).now = s.now := rfl

@[simp] theorem State.setCtx_eng_same (c : Nat) (x : Ctx) (i : Nat) : (s.setCtx c x).eng i = s.eng i := rfl
@[simp] theorem State.setCtx_tag_same (c : Nat) (x : Ctx) (i : Nat) : (s.setCtx c x).tag i = s.tag i := rfl
@[simp] theorem State.setCtx_tileB_same (c : Nat) (x : Ctx) (i : Nat) : (s.setCtx c x).tileB i = s.tileB i := rfl
@[simp] theorem State.setCtx_sideB_same (c : Nat) (x : Ctx) (i : Nat) : (s.setCtx c x).sideB i = s.sideB i := rfl
@[simp] theorem State.setCtx_acc_same (c : Nat) (x : Ctx) (i : Nat) : (s.setCtx c x).acc i = s.acc i := rfl
@[simp] theorem State.setCtx_head_same (c : Nat) (x : Ctx) (i : Nat) : (s.setCtx c x).head i = s.head i := rfl
@[simp] theorem State.setCtx_xfer_same (c : Nat) (x : Ctx) (i : Nat) : (s.setCtx c x).xfer i = s.xfer i := rfl
@[simp] theorem State.setCtx_batch_same (c : Nat) (x : Ctx) (i : Nat) : (s.setCtx c x).batch i = s.batch i := rfl
@[simp] theorem State.setCtx_coll_same (c : Nat) (x : Ctx) (i : Nat) : (s.setCtx c x).coll i = s.coll i := rfl
@[simp] theorem State.setCtx_waiters_same (c : Nat) (x : Ctx) (i : Nat) : (s.setCtx c x).waiters i = s.waiters i := rfl
@[simp] theorem State.setCtx_cq_same (c : Nat) (x : Ctx) (i : Nat) : (s.setCtx c x).cq i = s.cq i := rfl
@[simp] theorem State.setCtx_port_same (c : Nat) (x : Ctx) (i : Nat) : (s.setCtx c x).port i = s.port i := rfl
@[simp] theorem State.setCtx_rot_same (c : Nat) (x : Ctx) (i : Nat) : (s.setCtx c x).rot i = s.rot i := rfl
@[simp] theorem State.setCtx_loupe_same (c : Nat) (x : Ctx) (i : Nat) : (s.setCtx c x).loupe i = s.loupe i := rfl
@[simp] theorem State.setCtx_reg_same (c : Nat) (x : Ctx) (i : Nat) : (s.setCtx c x).reg i = s.reg i := rfl
@[simp] theorem State.setCtx_byte_same (c : Nat) (x : Ctx) (i : Nat) : (s.setCtx c x).byte i = s.byte i := rfl
@[simp] theorem State.setCtx_fget (c : Nat) (x : Ctx) (g : Fld) : (s.setCtx c x).fget g = s.fget g := rfl
@[simp] theorem State.setCtx_flag (c : Nat) (x : Ctx) (g : Fld) : (s.setCtx c x).flag g = s.flag g := rfl
@[simp] theorem State.setCtx_now (c : Nat) (x : Ctx) : (s.setCtx c x).now = s.now := rfl

@[simp] theorem State.setTag_eng_same (k : Nat) (x : Tag) (i : Nat) : (s.setTag k x).eng i = s.eng i := rfl
@[simp] theorem State.setTag_ctx_same (k : Nat) (x : Tag) (i : Nat) : (s.setTag k x).ctx i = s.ctx i := rfl
@[simp] theorem State.setTag_tileB_same (k : Nat) (x : Tag) (i : Nat) : (s.setTag k x).tileB i = s.tileB i := rfl
@[simp] theorem State.setTag_sideB_same (k : Nat) (x : Tag) (i : Nat) : (s.setTag k x).sideB i = s.sideB i := rfl
@[simp] theorem State.setTag_acc_same (k : Nat) (x : Tag) (i : Nat) : (s.setTag k x).acc i = s.acc i := rfl
@[simp] theorem State.setTag_head_same (k : Nat) (x : Tag) (i : Nat) : (s.setTag k x).head i = s.head i := rfl
@[simp] theorem State.setTag_xfer_same (k : Nat) (x : Tag) (i : Nat) : (s.setTag k x).xfer i = s.xfer i := rfl
@[simp] theorem State.setTag_batch_same (k : Nat) (x : Tag) (i : Nat) : (s.setTag k x).batch i = s.batch i := rfl
@[simp] theorem State.setTag_coll_same (k : Nat) (x : Tag) (i : Nat) : (s.setTag k x).coll i = s.coll i := rfl
@[simp] theorem State.setTag_waiters_same (k : Nat) (x : Tag) (i : Nat) : (s.setTag k x).waiters i = s.waiters i := rfl
@[simp] theorem State.setTag_cq_same (k : Nat) (x : Tag) (i : Nat) : (s.setTag k x).cq i = s.cq i := rfl
@[simp] theorem State.setTag_port_same (k : Nat) (x : Tag) (i : Nat) : (s.setTag k x).port i = s.port i := rfl
@[simp] theorem State.setTag_rot_same (k : Nat) (x : Tag) (i : Nat) : (s.setTag k x).rot i = s.rot i := rfl
@[simp] theorem State.setTag_loupe_same (k : Nat) (x : Tag) (i : Nat) : (s.setTag k x).loupe i = s.loupe i := rfl
@[simp] theorem State.setTag_reg_same (k : Nat) (x : Tag) (i : Nat) : (s.setTag k x).reg i = s.reg i := rfl
@[simp] theorem State.setTag_byte_same (k : Nat) (x : Tag) (i : Nat) : (s.setTag k x).byte i = s.byte i := rfl
@[simp] theorem State.setTag_fget (k : Nat) (x : Tag) (g : Fld) : (s.setTag k x).fget g = s.fget g := rfl
@[simp] theorem State.setTag_flag (k : Nat) (x : Tag) (g : Fld) : (s.setTag k x).flag g = s.flag g := rfl
@[simp] theorem State.setTag_now (k : Nat) (x : Tag) : (s.setTag k x).now = s.now := rfl

@[simp] theorem State.setTileB_eng_same (k : Nat) (v : BitVec 8) (i : Nat) : (s.setTileB k v).eng i = s.eng i := rfl
@[simp] theorem State.setTileB_ctx_same (k : Nat) (v : BitVec 8) (i : Nat) : (s.setTileB k v).ctx i = s.ctx i := rfl
@[simp] theorem State.setTileB_tag_same (k : Nat) (v : BitVec 8) (i : Nat) : (s.setTileB k v).tag i = s.tag i := rfl
@[simp] theorem State.setTileB_sideB_same (k : Nat) (v : BitVec 8) (i : Nat) : (s.setTileB k v).sideB i = s.sideB i := rfl
@[simp] theorem State.setTileB_acc_same (k : Nat) (v : BitVec 8) (i : Nat) : (s.setTileB k v).acc i = s.acc i := rfl
@[simp] theorem State.setTileB_head_same (k : Nat) (v : BitVec 8) (i : Nat) : (s.setTileB k v).head i = s.head i := rfl
@[simp] theorem State.setTileB_xfer_same (k : Nat) (v : BitVec 8) (i : Nat) : (s.setTileB k v).xfer i = s.xfer i := rfl
@[simp] theorem State.setTileB_batch_same (k : Nat) (v : BitVec 8) (i : Nat) : (s.setTileB k v).batch i = s.batch i := rfl
@[simp] theorem State.setTileB_coll_same (k : Nat) (v : BitVec 8) (i : Nat) : (s.setTileB k v).coll i = s.coll i := rfl
@[simp] theorem State.setTileB_waiters_same (k : Nat) (v : BitVec 8) (i : Nat) : (s.setTileB k v).waiters i = s.waiters i := rfl
@[simp] theorem State.setTileB_cq_same (k : Nat) (v : BitVec 8) (i : Nat) : (s.setTileB k v).cq i = s.cq i := rfl
@[simp] theorem State.setTileB_port_same (k : Nat) (v : BitVec 8) (i : Nat) : (s.setTileB k v).port i = s.port i := rfl
@[simp] theorem State.setTileB_rot_same (k : Nat) (v : BitVec 8) (i : Nat) : (s.setTileB k v).rot i = s.rot i := rfl
@[simp] theorem State.setTileB_loupe_same (k : Nat) (v : BitVec 8) (i : Nat) : (s.setTileB k v).loupe i = s.loupe i := rfl
@[simp] theorem State.setTileB_reg_same (k : Nat) (v : BitVec 8) (i : Nat) : (s.setTileB k v).reg i = s.reg i := rfl
@[simp] theorem State.setTileB_byte_same (k : Nat) (v : BitVec 8) (i : Nat) : (s.setTileB k v).byte i = s.byte i := rfl
@[simp] theorem State.setTileB_fget (k : Nat) (v : BitVec 8) (g : Fld) : (s.setTileB k v).fget g = s.fget g := rfl
@[simp] theorem State.setTileB_flag (k : Nat) (v : BitVec 8) (g : Fld) : (s.setTileB k v).flag g = s.flag g := rfl
@[simp] theorem State.setTileB_now (k : Nat) (v : BitVec 8) : (s.setTileB k v).now = s.now := rfl

@[simp] theorem State.setSideB_eng_same (k : Nat) (v : BitVec 8) (i : Nat) : (s.setSideB k v).eng i = s.eng i := rfl
@[simp] theorem State.setSideB_ctx_same (k : Nat) (v : BitVec 8) (i : Nat) : (s.setSideB k v).ctx i = s.ctx i := rfl
@[simp] theorem State.setSideB_tag_same (k : Nat) (v : BitVec 8) (i : Nat) : (s.setSideB k v).tag i = s.tag i := rfl
@[simp] theorem State.setSideB_tileB_same (k : Nat) (v : BitVec 8) (i : Nat) : (s.setSideB k v).tileB i = s.tileB i := rfl
@[simp] theorem State.setSideB_acc_same (k : Nat) (v : BitVec 8) (i : Nat) : (s.setSideB k v).acc i = s.acc i := rfl
@[simp] theorem State.setSideB_head_same (k : Nat) (v : BitVec 8) (i : Nat) : (s.setSideB k v).head i = s.head i := rfl
@[simp] theorem State.setSideB_xfer_same (k : Nat) (v : BitVec 8) (i : Nat) : (s.setSideB k v).xfer i = s.xfer i := rfl
@[simp] theorem State.setSideB_batch_same (k : Nat) (v : BitVec 8) (i : Nat) : (s.setSideB k v).batch i = s.batch i := rfl
@[simp] theorem State.setSideB_coll_same (k : Nat) (v : BitVec 8) (i : Nat) : (s.setSideB k v).coll i = s.coll i := rfl
@[simp] theorem State.setSideB_waiters_same (k : Nat) (v : BitVec 8) (i : Nat) : (s.setSideB k v).waiters i = s.waiters i := rfl
@[simp] theorem State.setSideB_cq_same (k : Nat) (v : BitVec 8) (i : Nat) : (s.setSideB k v).cq i = s.cq i := rfl
@[simp] theorem State.setSideB_port_same (k : Nat) (v : BitVec 8) (i : Nat) : (s.setSideB k v).port i = s.port i := rfl
@[simp] theorem State.setSideB_rot_same (k : Nat) (v : BitVec 8) (i : Nat) : (s.setSideB k v).rot i = s.rot i := rfl
@[simp] theorem State.setSideB_loupe_same (k : Nat) (v : BitVec 8) (i : Nat) : (s.setSideB k v).loupe i = s.loupe i := rfl
@[simp] theorem State.setSideB_reg_same (k : Nat) (v : BitVec 8) (i : Nat) : (s.setSideB k v).reg i = s.reg i := rfl
@[simp] theorem State.setSideB_byte_same (k : Nat) (v : BitVec 8) (i : Nat) : (s.setSideB k v).byte i = s.byte i := rfl
@[simp] theorem State.setSideB_fget (k : Nat) (v : BitVec 8) (g : Fld) : (s.setSideB k v).fget g = s.fget g := rfl
@[simp] theorem State.setSideB_flag (k : Nat) (v : BitVec 8) (g : Fld) : (s.setSideB k v).flag g = s.flag g := rfl
@[simp] theorem State.setSideB_now (k : Nat) (v : BitVec 8) : (s.setSideB k v).now = s.now := rfl

@[simp] theorem State.setAcc_eng_same (k : Nat) (v : BitVec 128) (i : Nat) : (s.setAcc k v).eng i = s.eng i := rfl
@[simp] theorem State.setAcc_ctx_same (k : Nat) (v : BitVec 128) (i : Nat) : (s.setAcc k v).ctx i = s.ctx i := rfl
@[simp] theorem State.setAcc_tag_same (k : Nat) (v : BitVec 128) (i : Nat) : (s.setAcc k v).tag i = s.tag i := rfl
@[simp] theorem State.setAcc_tileB_same (k : Nat) (v : BitVec 128) (i : Nat) : (s.setAcc k v).tileB i = s.tileB i := rfl
@[simp] theorem State.setAcc_sideB_same (k : Nat) (v : BitVec 128) (i : Nat) : (s.setAcc k v).sideB i = s.sideB i := rfl
@[simp] theorem State.setAcc_head_same (k : Nat) (v : BitVec 128) (i : Nat) : (s.setAcc k v).head i = s.head i := rfl
@[simp] theorem State.setAcc_xfer_same (k : Nat) (v : BitVec 128) (i : Nat) : (s.setAcc k v).xfer i = s.xfer i := rfl
@[simp] theorem State.setAcc_batch_same (k : Nat) (v : BitVec 128) (i : Nat) : (s.setAcc k v).batch i = s.batch i := rfl
@[simp] theorem State.setAcc_coll_same (k : Nat) (v : BitVec 128) (i : Nat) : (s.setAcc k v).coll i = s.coll i := rfl
@[simp] theorem State.setAcc_waiters_same (k : Nat) (v : BitVec 128) (i : Nat) : (s.setAcc k v).waiters i = s.waiters i := rfl
@[simp] theorem State.setAcc_cq_same (k : Nat) (v : BitVec 128) (i : Nat) : (s.setAcc k v).cq i = s.cq i := rfl
@[simp] theorem State.setAcc_port_same (k : Nat) (v : BitVec 128) (i : Nat) : (s.setAcc k v).port i = s.port i := rfl
@[simp] theorem State.setAcc_rot_same (k : Nat) (v : BitVec 128) (i : Nat) : (s.setAcc k v).rot i = s.rot i := rfl
@[simp] theorem State.setAcc_loupe_same (k : Nat) (v : BitVec 128) (i : Nat) : (s.setAcc k v).loupe i = s.loupe i := rfl
@[simp] theorem State.setAcc_reg_same (k : Nat) (v : BitVec 128) (i : Nat) : (s.setAcc k v).reg i = s.reg i := rfl
@[simp] theorem State.setAcc_byte_same (k : Nat) (v : BitVec 128) (i : Nat) : (s.setAcc k v).byte i = s.byte i := rfl
@[simp] theorem State.setAcc_fget (k : Nat) (v : BitVec 128) (g : Fld) : (s.setAcc k v).fget g = s.fget g := rfl
@[simp] theorem State.setAcc_flag (k : Nat) (v : BitVec 128) (g : Fld) : (s.setAcc k v).flag g = s.flag g := rfl
@[simp] theorem State.setAcc_now (k : Nat) (v : BitVec 128) : (s.setAcc k v).now = s.now := rfl

@[simp] theorem State.setHead_eng_same (k : Nat) (v : BitVec 128) (i : Nat) : (s.setHead k v).eng i = s.eng i := rfl
@[simp] theorem State.setHead_ctx_same (k : Nat) (v : BitVec 128) (i : Nat) : (s.setHead k v).ctx i = s.ctx i := rfl
@[simp] theorem State.setHead_tag_same (k : Nat) (v : BitVec 128) (i : Nat) : (s.setHead k v).tag i = s.tag i := rfl
@[simp] theorem State.setHead_tileB_same (k : Nat) (v : BitVec 128) (i : Nat) : (s.setHead k v).tileB i = s.tileB i := rfl
@[simp] theorem State.setHead_sideB_same (k : Nat) (v : BitVec 128) (i : Nat) : (s.setHead k v).sideB i = s.sideB i := rfl
@[simp] theorem State.setHead_acc_same (k : Nat) (v : BitVec 128) (i : Nat) : (s.setHead k v).acc i = s.acc i := rfl
@[simp] theorem State.setHead_xfer_same (k : Nat) (v : BitVec 128) (i : Nat) : (s.setHead k v).xfer i = s.xfer i := rfl
@[simp] theorem State.setHead_batch_same (k : Nat) (v : BitVec 128) (i : Nat) : (s.setHead k v).batch i = s.batch i := rfl
@[simp] theorem State.setHead_coll_same (k : Nat) (v : BitVec 128) (i : Nat) : (s.setHead k v).coll i = s.coll i := rfl
@[simp] theorem State.setHead_waiters_same (k : Nat) (v : BitVec 128) (i : Nat) : (s.setHead k v).waiters i = s.waiters i := rfl
@[simp] theorem State.setHead_cq_same (k : Nat) (v : BitVec 128) (i : Nat) : (s.setHead k v).cq i = s.cq i := rfl
@[simp] theorem State.setHead_port_same (k : Nat) (v : BitVec 128) (i : Nat) : (s.setHead k v).port i = s.port i := rfl
@[simp] theorem State.setHead_rot_same (k : Nat) (v : BitVec 128) (i : Nat) : (s.setHead k v).rot i = s.rot i := rfl
@[simp] theorem State.setHead_loupe_same (k : Nat) (v : BitVec 128) (i : Nat) : (s.setHead k v).loupe i = s.loupe i := rfl
@[simp] theorem State.setHead_reg_same (k : Nat) (v : BitVec 128) (i : Nat) : (s.setHead k v).reg i = s.reg i := rfl
@[simp] theorem State.setHead_byte_same (k : Nat) (v : BitVec 128) (i : Nat) : (s.setHead k v).byte i = s.byte i := rfl
@[simp] theorem State.setHead_fget (k : Nat) (v : BitVec 128) (g : Fld) : (s.setHead k v).fget g = s.fget g := rfl
@[simp] theorem State.setHead_flag (k : Nat) (v : BitVec 128) (g : Fld) : (s.setHead k v).flag g = s.flag g := rfl
@[simp] theorem State.setHead_now (k : Nat) (v : BitVec 128) : (s.setHead k v).now = s.now := rfl

@[simp] theorem State.setXfer_eng_same (k : Nat) (x : Xfer) (i : Nat) : (s.setXfer k x).eng i = s.eng i := rfl
@[simp] theorem State.setXfer_ctx_same (k : Nat) (x : Xfer) (i : Nat) : (s.setXfer k x).ctx i = s.ctx i := rfl
@[simp] theorem State.setXfer_tag_same (k : Nat) (x : Xfer) (i : Nat) : (s.setXfer k x).tag i = s.tag i := rfl
@[simp] theorem State.setXfer_tileB_same (k : Nat) (x : Xfer) (i : Nat) : (s.setXfer k x).tileB i = s.tileB i := rfl
@[simp] theorem State.setXfer_sideB_same (k : Nat) (x : Xfer) (i : Nat) : (s.setXfer k x).sideB i = s.sideB i := rfl
@[simp] theorem State.setXfer_acc_same (k : Nat) (x : Xfer) (i : Nat) : (s.setXfer k x).acc i = s.acc i := rfl
@[simp] theorem State.setXfer_head_same (k : Nat) (x : Xfer) (i : Nat) : (s.setXfer k x).head i = s.head i := rfl
@[simp] theorem State.setXfer_batch_same (k : Nat) (x : Xfer) (i : Nat) : (s.setXfer k x).batch i = s.batch i := rfl
@[simp] theorem State.setXfer_coll_same (k : Nat) (x : Xfer) (i : Nat) : (s.setXfer k x).coll i = s.coll i := rfl
@[simp] theorem State.setXfer_waiters_same (k : Nat) (x : Xfer) (i : Nat) : (s.setXfer k x).waiters i = s.waiters i := rfl
@[simp] theorem State.setXfer_cq_same (k : Nat) (x : Xfer) (i : Nat) : (s.setXfer k x).cq i = s.cq i := rfl
@[simp] theorem State.setXfer_port_same (k : Nat) (x : Xfer) (i : Nat) : (s.setXfer k x).port i = s.port i := rfl
@[simp] theorem State.setXfer_rot_same (k : Nat) (x : Xfer) (i : Nat) : (s.setXfer k x).rot i = s.rot i := rfl
@[simp] theorem State.setXfer_loupe_same (k : Nat) (x : Xfer) (i : Nat) : (s.setXfer k x).loupe i = s.loupe i := rfl
@[simp] theorem State.setXfer_reg_same (k : Nat) (x : Xfer) (i : Nat) : (s.setXfer k x).reg i = s.reg i := rfl
@[simp] theorem State.setXfer_byte_same (k : Nat) (x : Xfer) (i : Nat) : (s.setXfer k x).byte i = s.byte i := rfl
@[simp] theorem State.setXfer_fget (k : Nat) (x : Xfer) (g : Fld) : (s.setXfer k x).fget g = s.fget g := rfl
@[simp] theorem State.setXfer_flag (k : Nat) (x : Xfer) (g : Fld) : (s.setXfer k x).flag g = s.flag g := rfl
@[simp] theorem State.setXfer_now (k : Nat) (x : Xfer) : (s.setXfer k x).now = s.now := rfl

@[simp] theorem State.setBatch_eng_same (l : Nat) (x : List Batch) (i : Nat) : (s.setBatch l x).eng i = s.eng i := rfl
@[simp] theorem State.setBatch_ctx_same (l : Nat) (x : List Batch) (i : Nat) : (s.setBatch l x).ctx i = s.ctx i := rfl
@[simp] theorem State.setBatch_tag_same (l : Nat) (x : List Batch) (i : Nat) : (s.setBatch l x).tag i = s.tag i := rfl
@[simp] theorem State.setBatch_tileB_same (l : Nat) (x : List Batch) (i : Nat) : (s.setBatch l x).tileB i = s.tileB i := rfl
@[simp] theorem State.setBatch_sideB_same (l : Nat) (x : List Batch) (i : Nat) : (s.setBatch l x).sideB i = s.sideB i := rfl
@[simp] theorem State.setBatch_acc_same (l : Nat) (x : List Batch) (i : Nat) : (s.setBatch l x).acc i = s.acc i := rfl
@[simp] theorem State.setBatch_head_same (l : Nat) (x : List Batch) (i : Nat) : (s.setBatch l x).head i = s.head i := rfl
@[simp] theorem State.setBatch_xfer_same (l : Nat) (x : List Batch) (i : Nat) : (s.setBatch l x).xfer i = s.xfer i := rfl
@[simp] theorem State.setBatch_coll_same (l : Nat) (x : List Batch) (i : Nat) : (s.setBatch l x).coll i = s.coll i := rfl
@[simp] theorem State.setBatch_waiters_same (l : Nat) (x : List Batch) (i : Nat) : (s.setBatch l x).waiters i = s.waiters i := rfl
@[simp] theorem State.setBatch_cq_same (l : Nat) (x : List Batch) (i : Nat) : (s.setBatch l x).cq i = s.cq i := rfl
@[simp] theorem State.setBatch_port_same (l : Nat) (x : List Batch) (i : Nat) : (s.setBatch l x).port i = s.port i := rfl
@[simp] theorem State.setBatch_rot_same (l : Nat) (x : List Batch) (i : Nat) : (s.setBatch l x).rot i = s.rot i := rfl
@[simp] theorem State.setBatch_loupe_same (l : Nat) (x : List Batch) (i : Nat) : (s.setBatch l x).loupe i = s.loupe i := rfl
@[simp] theorem State.setBatch_reg_same (l : Nat) (x : List Batch) (i : Nat) : (s.setBatch l x).reg i = s.reg i := rfl
@[simp] theorem State.setBatch_byte_same (l : Nat) (x : List Batch) (i : Nat) : (s.setBatch l x).byte i = s.byte i := rfl
@[simp] theorem State.setBatch_fget (l : Nat) (x : List Batch) (g : Fld) : (s.setBatch l x).fget g = s.fget g := rfl
@[simp] theorem State.setBatch_flag (l : Nat) (x : List Batch) (g : Fld) : (s.setBatch l x).flag g = s.flag g := rfl
@[simp] theorem State.setBatch_now (l : Nat) (x : List Batch) : (s.setBatch l x).now = s.now := rfl

@[simp] theorem State.setColl_eng_same (k : Nat) (x : Coll) (i : Nat) : (s.setColl k x).eng i = s.eng i := rfl
@[simp] theorem State.setColl_ctx_same (k : Nat) (x : Coll) (i : Nat) : (s.setColl k x).ctx i = s.ctx i := rfl
@[simp] theorem State.setColl_tag_same (k : Nat) (x : Coll) (i : Nat) : (s.setColl k x).tag i = s.tag i := rfl
@[simp] theorem State.setColl_tileB_same (k : Nat) (x : Coll) (i : Nat) : (s.setColl k x).tileB i = s.tileB i := rfl
@[simp] theorem State.setColl_sideB_same (k : Nat) (x : Coll) (i : Nat) : (s.setColl k x).sideB i = s.sideB i := rfl
@[simp] theorem State.setColl_acc_same (k : Nat) (x : Coll) (i : Nat) : (s.setColl k x).acc i = s.acc i := rfl
@[simp] theorem State.setColl_head_same (k : Nat) (x : Coll) (i : Nat) : (s.setColl k x).head i = s.head i := rfl
@[simp] theorem State.setColl_xfer_same (k : Nat) (x : Coll) (i : Nat) : (s.setColl k x).xfer i = s.xfer i := rfl
@[simp] theorem State.setColl_batch_same (k : Nat) (x : Coll) (i : Nat) : (s.setColl k x).batch i = s.batch i := rfl
@[simp] theorem State.setColl_waiters_same (k : Nat) (x : Coll) (i : Nat) : (s.setColl k x).waiters i = s.waiters i := rfl
@[simp] theorem State.setColl_cq_same (k : Nat) (x : Coll) (i : Nat) : (s.setColl k x).cq i = s.cq i := rfl
@[simp] theorem State.setColl_port_same (k : Nat) (x : Coll) (i : Nat) : (s.setColl k x).port i = s.port i := rfl
@[simp] theorem State.setColl_rot_same (k : Nat) (x : Coll) (i : Nat) : (s.setColl k x).rot i = s.rot i := rfl
@[simp] theorem State.setColl_loupe_same (k : Nat) (x : Coll) (i : Nat) : (s.setColl k x).loupe i = s.loupe i := rfl
@[simp] theorem State.setColl_reg_same (k : Nat) (x : Coll) (i : Nat) : (s.setColl k x).reg i = s.reg i := rfl
@[simp] theorem State.setColl_byte_same (k : Nat) (x : Coll) (i : Nat) : (s.setColl k x).byte i = s.byte i := rfl
@[simp] theorem State.setColl_fget (k : Nat) (x : Coll) (g : Fld) : (s.setColl k x).fget g = s.fget g := rfl
@[simp] theorem State.setColl_flag (k : Nat) (x : Coll) (g : Fld) : (s.setColl k x).flag g = s.flag g := rfl
@[simp] theorem State.setColl_now (k : Nat) (x : Coll) : (s.setColl k x).now = s.now := rfl

@[simp] theorem State.setWaiters_eng_same (k : Nat) (x : List Waiter) (i : Nat) : (s.setWaiters k x).eng i = s.eng i := rfl
@[simp] theorem State.setWaiters_ctx_same (k : Nat) (x : List Waiter) (i : Nat) : (s.setWaiters k x).ctx i = s.ctx i := rfl
@[simp] theorem State.setWaiters_tag_same (k : Nat) (x : List Waiter) (i : Nat) : (s.setWaiters k x).tag i = s.tag i := rfl
@[simp] theorem State.setWaiters_tileB_same (k : Nat) (x : List Waiter) (i : Nat) : (s.setWaiters k x).tileB i = s.tileB i := rfl
@[simp] theorem State.setWaiters_sideB_same (k : Nat) (x : List Waiter) (i : Nat) : (s.setWaiters k x).sideB i = s.sideB i := rfl
@[simp] theorem State.setWaiters_acc_same (k : Nat) (x : List Waiter) (i : Nat) : (s.setWaiters k x).acc i = s.acc i := rfl
@[simp] theorem State.setWaiters_head_same (k : Nat) (x : List Waiter) (i : Nat) : (s.setWaiters k x).head i = s.head i := rfl
@[simp] theorem State.setWaiters_xfer_same (k : Nat) (x : List Waiter) (i : Nat) : (s.setWaiters k x).xfer i = s.xfer i := rfl
@[simp] theorem State.setWaiters_batch_same (k : Nat) (x : List Waiter) (i : Nat) : (s.setWaiters k x).batch i = s.batch i := rfl
@[simp] theorem State.setWaiters_coll_same (k : Nat) (x : List Waiter) (i : Nat) : (s.setWaiters k x).coll i = s.coll i := rfl
@[simp] theorem State.setWaiters_cq_same (k : Nat) (x : List Waiter) (i : Nat) : (s.setWaiters k x).cq i = s.cq i := rfl
@[simp] theorem State.setWaiters_port_same (k : Nat) (x : List Waiter) (i : Nat) : (s.setWaiters k x).port i = s.port i := rfl
@[simp] theorem State.setWaiters_rot_same (k : Nat) (x : List Waiter) (i : Nat) : (s.setWaiters k x).rot i = s.rot i := rfl
@[simp] theorem State.setWaiters_loupe_same (k : Nat) (x : List Waiter) (i : Nat) : (s.setWaiters k x).loupe i = s.loupe i := rfl
@[simp] theorem State.setWaiters_reg_same (k : Nat) (x : List Waiter) (i : Nat) : (s.setWaiters k x).reg i = s.reg i := rfl
@[simp] theorem State.setWaiters_byte_same (k : Nat) (x : List Waiter) (i : Nat) : (s.setWaiters k x).byte i = s.byte i := rfl
@[simp] theorem State.setWaiters_fget (k : Nat) (x : List Waiter) (g : Fld) : (s.setWaiters k x).fget g = s.fget g := rfl
@[simp] theorem State.setWaiters_flag (k : Nat) (x : List Waiter) (g : Fld) : (s.setWaiters k x).flag g = s.flag g := rfl
@[simp] theorem State.setWaiters_now (k : Nat) (x : List Waiter) : (s.setWaiters k x).now = s.now := rfl

@[simp] theorem State.setCq_eng_same (q : Nat) (x : CQ) (i : Nat) : (s.setCq q x).eng i = s.eng i := rfl
@[simp] theorem State.setCq_ctx_same (q : Nat) (x : CQ) (i : Nat) : (s.setCq q x).ctx i = s.ctx i := rfl
@[simp] theorem State.setCq_tag_same (q : Nat) (x : CQ) (i : Nat) : (s.setCq q x).tag i = s.tag i := rfl
@[simp] theorem State.setCq_tileB_same (q : Nat) (x : CQ) (i : Nat) : (s.setCq q x).tileB i = s.tileB i := rfl
@[simp] theorem State.setCq_sideB_same (q : Nat) (x : CQ) (i : Nat) : (s.setCq q x).sideB i = s.sideB i := rfl
@[simp] theorem State.setCq_acc_same (q : Nat) (x : CQ) (i : Nat) : (s.setCq q x).acc i = s.acc i := rfl
@[simp] theorem State.setCq_head_same (q : Nat) (x : CQ) (i : Nat) : (s.setCq q x).head i = s.head i := rfl
@[simp] theorem State.setCq_xfer_same (q : Nat) (x : CQ) (i : Nat) : (s.setCq q x).xfer i = s.xfer i := rfl
@[simp] theorem State.setCq_batch_same (q : Nat) (x : CQ) (i : Nat) : (s.setCq q x).batch i = s.batch i := rfl
@[simp] theorem State.setCq_coll_same (q : Nat) (x : CQ) (i : Nat) : (s.setCq q x).coll i = s.coll i := rfl
@[simp] theorem State.setCq_waiters_same (q : Nat) (x : CQ) (i : Nat) : (s.setCq q x).waiters i = s.waiters i := rfl
@[simp] theorem State.setCq_port_same (q : Nat) (x : CQ) (i : Nat) : (s.setCq q x).port i = s.port i := rfl
@[simp] theorem State.setCq_rot_same (q : Nat) (x : CQ) (i : Nat) : (s.setCq q x).rot i = s.rot i := rfl
@[simp] theorem State.setCq_loupe_same (q : Nat) (x : CQ) (i : Nat) : (s.setCq q x).loupe i = s.loupe i := rfl
@[simp] theorem State.setCq_reg_same (q : Nat) (x : CQ) (i : Nat) : (s.setCq q x).reg i = s.reg i := rfl
@[simp] theorem State.setCq_byte_same (q : Nat) (x : CQ) (i : Nat) : (s.setCq q x).byte i = s.byte i := rfl
@[simp] theorem State.setCq_fget (q : Nat) (x : CQ) (g : Fld) : (s.setCq q x).fget g = s.fget g := rfl
@[simp] theorem State.setCq_flag (q : Nat) (x : CQ) (g : Fld) : (s.setCq q x).flag g = s.flag g := rfl
@[simp] theorem State.setCq_now (q : Nat) (x : CQ) : (s.setCq q x).now = s.now := rfl

@[simp] theorem State.setPort_eng_same (p : Nat) (x : Port) (i : Nat) : (s.setPort p x).eng i = s.eng i := rfl
@[simp] theorem State.setPort_ctx_same (p : Nat) (x : Port) (i : Nat) : (s.setPort p x).ctx i = s.ctx i := rfl
@[simp] theorem State.setPort_tag_same (p : Nat) (x : Port) (i : Nat) : (s.setPort p x).tag i = s.tag i := rfl
@[simp] theorem State.setPort_tileB_same (p : Nat) (x : Port) (i : Nat) : (s.setPort p x).tileB i = s.tileB i := rfl
@[simp] theorem State.setPort_sideB_same (p : Nat) (x : Port) (i : Nat) : (s.setPort p x).sideB i = s.sideB i := rfl
@[simp] theorem State.setPort_acc_same (p : Nat) (x : Port) (i : Nat) : (s.setPort p x).acc i = s.acc i := rfl
@[simp] theorem State.setPort_head_same (p : Nat) (x : Port) (i : Nat) : (s.setPort p x).head i = s.head i := rfl
@[simp] theorem State.setPort_xfer_same (p : Nat) (x : Port) (i : Nat) : (s.setPort p x).xfer i = s.xfer i := rfl
@[simp] theorem State.setPort_batch_same (p : Nat) (x : Port) (i : Nat) : (s.setPort p x).batch i = s.batch i := rfl
@[simp] theorem State.setPort_coll_same (p : Nat) (x : Port) (i : Nat) : (s.setPort p x).coll i = s.coll i := rfl
@[simp] theorem State.setPort_waiters_same (p : Nat) (x : Port) (i : Nat) : (s.setPort p x).waiters i = s.waiters i := rfl
@[simp] theorem State.setPort_cq_same (p : Nat) (x : Port) (i : Nat) : (s.setPort p x).cq i = s.cq i := rfl
@[simp] theorem State.setPort_rot_same (p : Nat) (x : Port) (i : Nat) : (s.setPort p x).rot i = s.rot i := rfl
@[simp] theorem State.setPort_loupe_same (p : Nat) (x : Port) (i : Nat) : (s.setPort p x).loupe i = s.loupe i := rfl
@[simp] theorem State.setPort_reg_same (p : Nat) (x : Port) (i : Nat) : (s.setPort p x).reg i = s.reg i := rfl
@[simp] theorem State.setPort_byte_same (p : Nat) (x : Port) (i : Nat) : (s.setPort p x).byte i = s.byte i := rfl
@[simp] theorem State.setPort_fget (p : Nat) (x : Port) (g : Fld) : (s.setPort p x).fget g = s.fget g := rfl
@[simp] theorem State.setPort_flag (p : Nat) (x : Port) (g : Fld) : (s.setPort p x).flag g = s.flag g := rfl
@[simp] theorem State.setPort_now (p : Nat) (x : Port) : (s.setPort p x).now = s.now := rfl

@[simp] theorem State.setRot_eng_same (u : Nat) (x : Rot) (i : Nat) : (s.setRot u x).eng i = s.eng i := rfl
@[simp] theorem State.setRot_ctx_same (u : Nat) (x : Rot) (i : Nat) : (s.setRot u x).ctx i = s.ctx i := rfl
@[simp] theorem State.setRot_tag_same (u : Nat) (x : Rot) (i : Nat) : (s.setRot u x).tag i = s.tag i := rfl
@[simp] theorem State.setRot_tileB_same (u : Nat) (x : Rot) (i : Nat) : (s.setRot u x).tileB i = s.tileB i := rfl
@[simp] theorem State.setRot_sideB_same (u : Nat) (x : Rot) (i : Nat) : (s.setRot u x).sideB i = s.sideB i := rfl
@[simp] theorem State.setRot_acc_same (u : Nat) (x : Rot) (i : Nat) : (s.setRot u x).acc i = s.acc i := rfl
@[simp] theorem State.setRot_head_same (u : Nat) (x : Rot) (i : Nat) : (s.setRot u x).head i = s.head i := rfl
@[simp] theorem State.setRot_xfer_same (u : Nat) (x : Rot) (i : Nat) : (s.setRot u x).xfer i = s.xfer i := rfl
@[simp] theorem State.setRot_batch_same (u : Nat) (x : Rot) (i : Nat) : (s.setRot u x).batch i = s.batch i := rfl
@[simp] theorem State.setRot_coll_same (u : Nat) (x : Rot) (i : Nat) : (s.setRot u x).coll i = s.coll i := rfl
@[simp] theorem State.setRot_waiters_same (u : Nat) (x : Rot) (i : Nat) : (s.setRot u x).waiters i = s.waiters i := rfl
@[simp] theorem State.setRot_cq_same (u : Nat) (x : Rot) (i : Nat) : (s.setRot u x).cq i = s.cq i := rfl
@[simp] theorem State.setRot_port_same (u : Nat) (x : Rot) (i : Nat) : (s.setRot u x).port i = s.port i := rfl
@[simp] theorem State.setRot_loupe_same (u : Nat) (x : Rot) (i : Nat) : (s.setRot u x).loupe i = s.loupe i := rfl
@[simp] theorem State.setRot_reg_same (u : Nat) (x : Rot) (i : Nat) : (s.setRot u x).reg i = s.reg i := rfl
@[simp] theorem State.setRot_byte_same (u : Nat) (x : Rot) (i : Nat) : (s.setRot u x).byte i = s.byte i := rfl
@[simp] theorem State.setRot_fget (u : Nat) (x : Rot) (g : Fld) : (s.setRot u x).fget g = s.fget g := rfl
@[simp] theorem State.setRot_flag (u : Nat) (x : Rot) (g : Fld) : (s.setRot u x).flag g = s.flag g := rfl
@[simp] theorem State.setRot_now (u : Nat) (x : Rot) : (s.setRot u x).now = s.now := rfl

@[simp] theorem State.setLoupe_eng_same (u : Nat) (x : Loupe) (i : Nat) : (s.setLoupe u x).eng i = s.eng i := rfl
@[simp] theorem State.setLoupe_ctx_same (u : Nat) (x : Loupe) (i : Nat) : (s.setLoupe u x).ctx i = s.ctx i := rfl
@[simp] theorem State.setLoupe_tag_same (u : Nat) (x : Loupe) (i : Nat) : (s.setLoupe u x).tag i = s.tag i := rfl
@[simp] theorem State.setLoupe_tileB_same (u : Nat) (x : Loupe) (i : Nat) : (s.setLoupe u x).tileB i = s.tileB i := rfl
@[simp] theorem State.setLoupe_sideB_same (u : Nat) (x : Loupe) (i : Nat) : (s.setLoupe u x).sideB i = s.sideB i := rfl
@[simp] theorem State.setLoupe_acc_same (u : Nat) (x : Loupe) (i : Nat) : (s.setLoupe u x).acc i = s.acc i := rfl
@[simp] theorem State.setLoupe_head_same (u : Nat) (x : Loupe) (i : Nat) : (s.setLoupe u x).head i = s.head i := rfl
@[simp] theorem State.setLoupe_xfer_same (u : Nat) (x : Loupe) (i : Nat) : (s.setLoupe u x).xfer i = s.xfer i := rfl
@[simp] theorem State.setLoupe_batch_same (u : Nat) (x : Loupe) (i : Nat) : (s.setLoupe u x).batch i = s.batch i := rfl
@[simp] theorem State.setLoupe_coll_same (u : Nat) (x : Loupe) (i : Nat) : (s.setLoupe u x).coll i = s.coll i := rfl
@[simp] theorem State.setLoupe_waiters_same (u : Nat) (x : Loupe) (i : Nat) : (s.setLoupe u x).waiters i = s.waiters i := rfl
@[simp] theorem State.setLoupe_cq_same (u : Nat) (x : Loupe) (i : Nat) : (s.setLoupe u x).cq i = s.cq i := rfl
@[simp] theorem State.setLoupe_port_same (u : Nat) (x : Loupe) (i : Nat) : (s.setLoupe u x).port i = s.port i := rfl
@[simp] theorem State.setLoupe_rot_same (u : Nat) (x : Loupe) (i : Nat) : (s.setLoupe u x).rot i = s.rot i := rfl
@[simp] theorem State.setLoupe_reg_same (u : Nat) (x : Loupe) (i : Nat) : (s.setLoupe u x).reg i = s.reg i := rfl
@[simp] theorem State.setLoupe_byte_same (u : Nat) (x : Loupe) (i : Nat) : (s.setLoupe u x).byte i = s.byte i := rfl
@[simp] theorem State.setLoupe_fget (u : Nat) (x : Loupe) (g : Fld) : (s.setLoupe u x).fget g = s.fget g := rfl
@[simp] theorem State.setLoupe_flag (u : Nat) (x : Loupe) (g : Fld) : (s.setLoupe u x).flag g = s.flag g := rfl
@[simp] theorem State.setLoupe_now (u : Nat) (x : Loupe) : (s.setLoupe u x).now = s.now := rfl

@[simp] theorem State.setByte_eng_same (a : Nat) (v : BitVec 8) (i : Nat) : (s.setByte a v).eng i = s.eng i := rfl
@[simp] theorem State.setByte_ctx_same (a : Nat) (v : BitVec 8) (i : Nat) : (s.setByte a v).ctx i = s.ctx i := rfl
@[simp] theorem State.setByte_tag_same (a : Nat) (v : BitVec 8) (i : Nat) : (s.setByte a v).tag i = s.tag i := rfl
@[simp] theorem State.setByte_tileB_same (a : Nat) (v : BitVec 8) (i : Nat) : (s.setByte a v).tileB i = s.tileB i := rfl
@[simp] theorem State.setByte_sideB_same (a : Nat) (v : BitVec 8) (i : Nat) : (s.setByte a v).sideB i = s.sideB i := rfl
@[simp] theorem State.setByte_acc_same (a : Nat) (v : BitVec 8) (i : Nat) : (s.setByte a v).acc i = s.acc i := rfl
@[simp] theorem State.setByte_head_same (a : Nat) (v : BitVec 8) (i : Nat) : (s.setByte a v).head i = s.head i := rfl
@[simp] theorem State.setByte_xfer_same (a : Nat) (v : BitVec 8) (i : Nat) : (s.setByte a v).xfer i = s.xfer i := rfl
@[simp] theorem State.setByte_batch_same (a : Nat) (v : BitVec 8) (i : Nat) : (s.setByte a v).batch i = s.batch i := rfl
@[simp] theorem State.setByte_coll_same (a : Nat) (v : BitVec 8) (i : Nat) : (s.setByte a v).coll i = s.coll i := rfl
@[simp] theorem State.setByte_waiters_same (a : Nat) (v : BitVec 8) (i : Nat) : (s.setByte a v).waiters i = s.waiters i := rfl
@[simp] theorem State.setByte_cq_same (a : Nat) (v : BitVec 8) (i : Nat) : (s.setByte a v).cq i = s.cq i := rfl
@[simp] theorem State.setByte_port_same (a : Nat) (v : BitVec 8) (i : Nat) : (s.setByte a v).port i = s.port i := rfl
@[simp] theorem State.setByte_rot_same (a : Nat) (v : BitVec 8) (i : Nat) : (s.setByte a v).rot i = s.rot i := rfl
@[simp] theorem State.setByte_loupe_same (a : Nat) (v : BitVec 8) (i : Nat) : (s.setByte a v).loupe i = s.loupe i := rfl
@[simp] theorem State.setByte_reg_same (a : Nat) (v : BitVec 8) (i : Nat) : (s.setByte a v).reg i = s.reg i := rfl
@[simp] theorem State.setByte_fget (a : Nat) (v : BitVec 8) (g : Fld) : (s.setByte a v).fget g = s.fget g := rfl
@[simp] theorem State.setByte_flag (a : Nat) (v : BitVec 8) (g : Fld) : (s.setByte a v).flag g = s.flag g := rfl
@[simp] theorem State.setByte_now (a : Nat) (v : BitVec 8) : (s.setByte a v).now = s.now := rfl

@[simp] theorem State.modEng_ctx_same (e : Nat) (f : Engine → Engine) (i : Nat) : (s.modEng e f).ctx i = s.ctx i := rfl
@[simp] theorem State.modEng_tag_same (e : Nat) (f : Engine → Engine) (i : Nat) : (s.modEng e f).tag i = s.tag i := rfl
@[simp] theorem State.modEng_tileB_same (e : Nat) (f : Engine → Engine) (i : Nat) : (s.modEng e f).tileB i = s.tileB i := rfl
@[simp] theorem State.modEng_sideB_same (e : Nat) (f : Engine → Engine) (i : Nat) : (s.modEng e f).sideB i = s.sideB i := rfl
@[simp] theorem State.modEng_acc_same (e : Nat) (f : Engine → Engine) (i : Nat) : (s.modEng e f).acc i = s.acc i := rfl
@[simp] theorem State.modEng_head_same (e : Nat) (f : Engine → Engine) (i : Nat) : (s.modEng e f).head i = s.head i := rfl
@[simp] theorem State.modEng_xfer_same (e : Nat) (f : Engine → Engine) (i : Nat) : (s.modEng e f).xfer i = s.xfer i := rfl
@[simp] theorem State.modEng_batch_same (e : Nat) (f : Engine → Engine) (i : Nat) : (s.modEng e f).batch i = s.batch i := rfl
@[simp] theorem State.modEng_coll_same (e : Nat) (f : Engine → Engine) (i : Nat) : (s.modEng e f).coll i = s.coll i := rfl
@[simp] theorem State.modEng_waiters_same (e : Nat) (f : Engine → Engine) (i : Nat) : (s.modEng e f).waiters i = s.waiters i := rfl
@[simp] theorem State.modEng_cq_same (e : Nat) (f : Engine → Engine) (i : Nat) : (s.modEng e f).cq i = s.cq i := rfl
@[simp] theorem State.modEng_port_same (e : Nat) (f : Engine → Engine) (i : Nat) : (s.modEng e f).port i = s.port i := rfl
@[simp] theorem State.modEng_rot_same (e : Nat) (f : Engine → Engine) (i : Nat) : (s.modEng e f).rot i = s.rot i := rfl
@[simp] theorem State.modEng_loupe_same (e : Nat) (f : Engine → Engine) (i : Nat) : (s.modEng e f).loupe i = s.loupe i := rfl
@[simp] theorem State.modEng_reg_same (e : Nat) (f : Engine → Engine) (i : Nat) : (s.modEng e f).reg i = s.reg i := rfl
@[simp] theorem State.modEng_byte_same (e : Nat) (f : Engine → Engine) (i : Nat) : (s.modEng e f).byte i = s.byte i := rfl
@[simp] theorem State.modEng_fget (e : Nat) (f : Engine → Engine) (g : Fld) : (s.modEng e f).fget g = s.fget g := rfl
@[simp] theorem State.modEng_flag (e : Nat) (f : Engine → Engine) (g : Fld) : (s.modEng e f).flag g = s.flag g := rfl
@[simp] theorem State.modEng_now (e : Nat) (f : Engine → Engine) : (s.modEng e f).now = s.now := rfl

@[simp] theorem State.modCtx_eng_same (c : Nat) (f : Ctx → Ctx) (i : Nat) : (s.modCtx c f).eng i = s.eng i := rfl
@[simp] theorem State.modCtx_tag_same (c : Nat) (f : Ctx → Ctx) (i : Nat) : (s.modCtx c f).tag i = s.tag i := rfl
@[simp] theorem State.modCtx_tileB_same (c : Nat) (f : Ctx → Ctx) (i : Nat) : (s.modCtx c f).tileB i = s.tileB i := rfl
@[simp] theorem State.modCtx_sideB_same (c : Nat) (f : Ctx → Ctx) (i : Nat) : (s.modCtx c f).sideB i = s.sideB i := rfl
@[simp] theorem State.modCtx_acc_same (c : Nat) (f : Ctx → Ctx) (i : Nat) : (s.modCtx c f).acc i = s.acc i := rfl
@[simp] theorem State.modCtx_head_same (c : Nat) (f : Ctx → Ctx) (i : Nat) : (s.modCtx c f).head i = s.head i := rfl
@[simp] theorem State.modCtx_xfer_same (c : Nat) (f : Ctx → Ctx) (i : Nat) : (s.modCtx c f).xfer i = s.xfer i := rfl
@[simp] theorem State.modCtx_batch_same (c : Nat) (f : Ctx → Ctx) (i : Nat) : (s.modCtx c f).batch i = s.batch i := rfl
@[simp] theorem State.modCtx_coll_same (c : Nat) (f : Ctx → Ctx) (i : Nat) : (s.modCtx c f).coll i = s.coll i := rfl
@[simp] theorem State.modCtx_waiters_same (c : Nat) (f : Ctx → Ctx) (i : Nat) : (s.modCtx c f).waiters i = s.waiters i := rfl
@[simp] theorem State.modCtx_cq_same (c : Nat) (f : Ctx → Ctx) (i : Nat) : (s.modCtx c f).cq i = s.cq i := rfl
@[simp] theorem State.modCtx_port_same (c : Nat) (f : Ctx → Ctx) (i : Nat) : (s.modCtx c f).port i = s.port i := rfl
@[simp] theorem State.modCtx_rot_same (c : Nat) (f : Ctx → Ctx) (i : Nat) : (s.modCtx c f).rot i = s.rot i := rfl
@[simp] theorem State.modCtx_loupe_same (c : Nat) (f : Ctx → Ctx) (i : Nat) : (s.modCtx c f).loupe i = s.loupe i := rfl
@[simp] theorem State.modCtx_reg_same (c : Nat) (f : Ctx → Ctx) (i : Nat) : (s.modCtx c f).reg i = s.reg i := rfl
@[simp] theorem State.modCtx_byte_same (c : Nat) (f : Ctx → Ctx) (i : Nat) : (s.modCtx c f).byte i = s.byte i := rfl
@[simp] theorem State.modCtx_fget (c : Nat) (f : Ctx → Ctx) (g : Fld) : (s.modCtx c f).fget g = s.fget g := rfl
@[simp] theorem State.modCtx_flag (c : Nat) (f : Ctx → Ctx) (g : Fld) : (s.modCtx c f).flag g = s.flag g := rfl
@[simp] theorem State.modCtx_now (c : Nat) (f : Ctx → Ctx) : (s.modCtx c f).now = s.now := rfl

@[simp] theorem State.modPort_eng_same (p : Nat) (f : Port → Port) (i : Nat) : (s.modPort p f).eng i = s.eng i := rfl
@[simp] theorem State.modPort_ctx_same (p : Nat) (f : Port → Port) (i : Nat) : (s.modPort p f).ctx i = s.ctx i := rfl
@[simp] theorem State.modPort_tag_same (p : Nat) (f : Port → Port) (i : Nat) : (s.modPort p f).tag i = s.tag i := rfl
@[simp] theorem State.modPort_tileB_same (p : Nat) (f : Port → Port) (i : Nat) : (s.modPort p f).tileB i = s.tileB i := rfl
@[simp] theorem State.modPort_sideB_same (p : Nat) (f : Port → Port) (i : Nat) : (s.modPort p f).sideB i = s.sideB i := rfl
@[simp] theorem State.modPort_acc_same (p : Nat) (f : Port → Port) (i : Nat) : (s.modPort p f).acc i = s.acc i := rfl
@[simp] theorem State.modPort_head_same (p : Nat) (f : Port → Port) (i : Nat) : (s.modPort p f).head i = s.head i := rfl
@[simp] theorem State.modPort_xfer_same (p : Nat) (f : Port → Port) (i : Nat) : (s.modPort p f).xfer i = s.xfer i := rfl
@[simp] theorem State.modPort_batch_same (p : Nat) (f : Port → Port) (i : Nat) : (s.modPort p f).batch i = s.batch i := rfl
@[simp] theorem State.modPort_coll_same (p : Nat) (f : Port → Port) (i : Nat) : (s.modPort p f).coll i = s.coll i := rfl
@[simp] theorem State.modPort_waiters_same (p : Nat) (f : Port → Port) (i : Nat) : (s.modPort p f).waiters i = s.waiters i := rfl
@[simp] theorem State.modPort_cq_same (p : Nat) (f : Port → Port) (i : Nat) : (s.modPort p f).cq i = s.cq i := rfl
@[simp] theorem State.modPort_rot_same (p : Nat) (f : Port → Port) (i : Nat) : (s.modPort p f).rot i = s.rot i := rfl
@[simp] theorem State.modPort_loupe_same (p : Nat) (f : Port → Port) (i : Nat) : (s.modPort p f).loupe i = s.loupe i := rfl
@[simp] theorem State.modPort_reg_same (p : Nat) (f : Port → Port) (i : Nat) : (s.modPort p f).reg i = s.reg i := rfl
@[simp] theorem State.modPort_byte_same (p : Nat) (f : Port → Port) (i : Nat) : (s.modPort p f).byte i = s.byte i := rfl
@[simp] theorem State.modPort_fget (p : Nat) (f : Port → Port) (g : Fld) : (s.modPort p f).fget g = s.fget g := rfl
@[simp] theorem State.modPort_flag (p : Nat) (f : Port → Port) (g : Fld) : (s.modPort p f).flag g = s.flag g := rfl
@[simp] theorem State.modPort_now (p : Nat) (f : Port → Port) : (s.modPort p f).now = s.now := rfl

@[simp] theorem State.irq_eng_same (v : Nat) (i : Nat) : (s.irq v).eng i = s.eng i := rfl
@[simp] theorem State.irq_ctx_same (v : Nat) (i : Nat) : (s.irq v).ctx i = s.ctx i := rfl
@[simp] theorem State.irq_tag_same (v : Nat) (i : Nat) : (s.irq v).tag i = s.tag i := rfl
@[simp] theorem State.irq_tileB_same (v : Nat) (i : Nat) : (s.irq v).tileB i = s.tileB i := rfl
@[simp] theorem State.irq_sideB_same (v : Nat) (i : Nat) : (s.irq v).sideB i = s.sideB i := rfl
@[simp] theorem State.irq_acc_same (v : Nat) (i : Nat) : (s.irq v).acc i = s.acc i := rfl
@[simp] theorem State.irq_head_same (v : Nat) (i : Nat) : (s.irq v).head i = s.head i := rfl
@[simp] theorem State.irq_xfer_same (v : Nat) (i : Nat) : (s.irq v).xfer i = s.xfer i := rfl
@[simp] theorem State.irq_batch_same (v : Nat) (i : Nat) : (s.irq v).batch i = s.batch i := rfl
@[simp] theorem State.irq_coll_same (v : Nat) (i : Nat) : (s.irq v).coll i = s.coll i := rfl
@[simp] theorem State.irq_waiters_same (v : Nat) (i : Nat) : (s.irq v).waiters i = s.waiters i := rfl
@[simp] theorem State.irq_cq_same (v : Nat) (i : Nat) : (s.irq v).cq i = s.cq i := rfl
@[simp] theorem State.irq_port_same (v : Nat) (i : Nat) : (s.irq v).port i = s.port i := rfl
@[simp] theorem State.irq_rot_same (v : Nat) (i : Nat) : (s.irq v).rot i = s.rot i := rfl
@[simp] theorem State.irq_loupe_same (v : Nat) (i : Nat) : (s.irq v).loupe i = s.loupe i := rfl
@[simp] theorem State.irq_reg_same (v : Nat) (i : Nat) : (s.irq v).reg i = s.reg i := rfl
@[simp] theorem State.irq_byte_same (v : Nat) (i : Nat) : (s.irq v).byte i = s.byte i := rfl
@[simp] theorem State.irq_fget (v : Nat) (g : Fld) : (s.irq v).fget g = s.fget g := rfl
@[simp] theorem State.irq_flag (v : Nat) (g : Fld) : (s.irq v).flag g = s.flag g := rfl
@[simp] theorem State.irq_now (v : Nat) : (s.irq v).now = s.now := rfl

end Sys2Proof.Machine
end

