-- ==== Sys2Proof/Laws/Issue.lean ====
section
/-! SUPPORT. Laws of issue: what charging idle time and using a single step change, and what an instruction that may
issue does. -/
namespace Sys2Proof.Machine

/-- Charging idle time writes the engine's charge instant and the idle account, and nothing else. -/
theorem State.settle_frame (s : State) (e : Nat) : (s.settle e).butEngines = s.butEngines := by
  unfold State.settle
  by_cases h : (s.eng e).busyAt = s.now <;> simp only [h, if_true, if_false] <;> (repeat' split) <;> rfl

theorem State.settle_ctx (s : State) (e k : Nat) : (s.settle e).ctx k = s.ctx k := by
  have h : (s.settle e).ctxs = s.ctxs := (congrArg State.ctxs (s.settle_frame e) :)
  simp only [State.ctx, h]

/-- An engine after its idle time is charged: only the charge instant and the time kept for a wait for peers move. -/
theorem State.settle_eng (s : State) (e i : Nat) :
    ∃ p, (s.settle e).eng i = if i = e then { s.eng e with busyAt := s.now, peerIdle := p } else s.eng i := by
  have key : ∀ x : State, (x.engines = if (s.eng e).busyAt = s.now then s.engines
      else (s.setEng e { s.eng e with busyAt := s.now }).engines) → ∀ i,
      x.eng i = if i = e then { s.eng e with busyAt := s.now } else s.eng i := by
    intro x hx i
    have : x.eng i = Sparse.get (fun _ => {}) x.engines i := rfl
    rw [this, hx]
    by_cases hb : (s.eng e).busyAt = s.now
    · rw [if_pos hb]; split
      · rename_i hi; subst hi; change s.eng i = _; rw [← hb]
      · rfl
    · rw [if_neg hb]; exact State.setEng_eng s e _ i
  let b : State := if (s.eng e).busyAt = s.now then s else s.setEng e { s.eng e with busyAt := s.now }
  have hb : ∀ i, b.eng i = if i = e then { s.eng e with busyAt := s.now } else s.eng i :=
    key b (by by_cases h : (s.eng e).busyAt = s.now <;> simp only [b, h, if_true, if_false])
  have hsame : ∀ x : State, x.engines = b.engines →
      ∃ p, x.eng i = if i = e then { s.eng e with busyAt := s.now, peerIdle := p } else s.eng i := by
    intro x hx
    refine ⟨(s.eng e).peerIdle, ?_⟩
    have : x.eng i = b.eng i := by simp only [State.eng, hx]
    rw [this, hb]
  unfold State.settle
  dsimp only
  split
  · exact hsame _ rfl
  · split
    · exact hsame _ rfl
    · split
      · exact hsame _ rfl
      · refine ⟨(s.eng e).peerIdle + (s.now - (s.eng e).busyAt), ?_⟩
        change (b.modEng e _).eng i = _
        rw [State.modEng_eng, hb, hb]
        by_cases hi : i = e <;> simp [hi]
      · exact hsame _ rfl

theorem State.useStep_frame (s : State) (e : Nat) : (s.useStep e).butEngines = s.butEngines := by
  unfold State.useStep; split <;> rfl

/-- An engine after an attempt to issue: a halted one has used a single step. -/
theorem State.useStep_eng (s : State) (e i : Nat) :
    (s.useStep e).eng i =
      if i = e ∧ (s.eng e).halted = true then { s.eng e with steps := (s.eng e).steps - 1 } else s.eng i := by
  unfold State.useStep
  by_cases h : (s.eng e).halted = true
  · simp only [h, if_true, and_true, State.modEng_eng]
  · simp [h]

/-- The state an instruction issues in: idle time charged and a single step used. -/
def State.atEngine (s : State) (e : Nat) : State := (s.settle e).useStep e

theorem State.atEngine_frame (s : State) (e : Nat) : (s.atEngine e).butEngines = s.butEngines :=
  ((s.settle e).useStep_frame e).trans (s.settle_frame e)

theorem State.atEngine_ctx (s : State) (e k : Nat) : (s.atEngine e).ctx k = s.ctx k := by
  have h : (s.atEngine e).ctxs = s.ctxs := (congrArg State.ctxs (s.atEngine_frame e) :)
  simp only [State.ctx, h]

/-- Only the charge instant, the time kept for a wait for peers and the step count of the engine itself move. -/
theorem State.atEngine_eng (s : State) (e : Nat) :
    ∃ b n p, (s.atEngine e).eng e = { s.eng e with busyAt := b, steps := n, peerIdle := p } := by
  obtain ⟨p, hp⟩ := s.settle_eng e e
  rw [State.atEngine, State.useStep_eng, hp]
  by_cases h : (s.eng e).halted = true
  · exact ⟨s.now, (s.eng e).steps - 1, p, by simp [h]⟩
  · exact ⟨s.now, (s.eng e).steps, p, by simp [h]⟩

theorem State.atEngine_eng_other (s : State) (e i : Nat) (h : i ≠ e) : (s.atEngine e).eng i = s.eng i := by
  obtain ⟨p, hp⟩ := s.settle_eng e i
  rw [State.atEngine, State.useStep_eng, hp]; simp [h]

/-- Reading half of a program word that has no error records nothing. -/
theorem State.progRead_clean (s : State) (src : Src) (pkg : BitVec 16) (head : Bool) (a : Nat) (h1 : s.readable a = true)
    (h2 : s.syn a = 0) (h3 : s.burstBad a = false) : s.progRead src pkg head a = s := by
  unfold State.readable at h1
  unfold State.progRead State.onRead
  split at h1
  · cases h1
  · cases h1
  · have hs : synOf 0 = Syn.good := by decide
    cases hl : s.locate a <;> simp_all

/-- The fetch of program words that have no error records nothing. -/
theorem State.progFetch_clean (s : State) (e k : Nat) (w : BitVec 64)
    (h : s.progClean (s.ctx (4 * e + k)) (wordsOf w) = true) : s.progFetch e k w = s := by
  unfold State.progClean at h
  unfold State.progFetch
  dsimp only
  generalize progHalves (s.ctx (4 * e + k)) (wordsOf w) = l at h
  generalize s.engSrc e k (opc w) (s.ctx (4 * e + k)).pc = src
  generalize pkgOf (s.ctx (4 * e + k)).prog = pkg
  generalize progAddr (s.ctx (4 * e + k)) 0 = a0
  induction l with
  | nil => rfl
  | cons a l ih =>
    simp only [List.all_cons, Bool.and_eq_true, beq_iff_eq, Bool.not_eq_true'] at h
    rw [List.foldl_cons, s.progRead_clean _ _ _ _ h.1.1.1 h.1.1.2 h.1.2]
    exact ih h.2

/-- An instruction that may issue does so by its own function, at its engine. -/
theorem State.atIssue_of_issues (s : State) (c : Cx) (w : BitVec 64) (legal : Bool) (f : State → Ctx → State)
    (h : s.issues c w legal) :
    s.atIssue c.pos.key c.ctx.val w legal f = f (s.atEngine c.pos.key) (s.ctx c.key) := by
  obtain ⟨h1, h2, h3, h4, h5⟩ := h
  have h4' : s.progPoison (s.ctx (4 * c.pos.key + c.ctx.val)) (wordsOf w) = false := h4
  simp only [State.atIssue, h1, h2, h3, h4', s.progFetch_clean _ _ _ h5]
  rfl

end Sys2Proof.Machine
end

