-- ==== Sys2Proof/Laws/Memory.lean ====
section
/-! SUPPORT. Laws of memory: what leaves it as it was, that every memory operation keeps its canonical form, and what a byte
reads as after a write. -/
namespace Sys2Proof.Machine

/-- What a byte of memory is read from: the listed bytes and what an unlisted one reads as. -/
def State.memKey (s : State) : List Host.Cell × Nat × Nat × BitVec 48 := (s.mem, s.hbmEpoch, s.sramEpoch, s.sramClean)

theorem State.memWf_of_memKey {s t : State} (h : t.memKey = s.memKey) (hs : s.memWf) : t.memWf := by
  simp only [State.memKey, Prod.mk.injEq] at h
  obtain ⟨h1, h2, h3, h4⟩ := h
  simpa only [State.memWf, h1, h2, h3, h4] using hs

theorem State.byte_of_memKey {s t : State} (h : t.memKey = s.memKey) (a : Nat) : t.byte a = s.byte a := by
  simp only [State.memKey, Prod.mk.injEq] at h
  obtain ⟨h1, h2, h3, h4⟩ := h
  simp only [State.byte, h1, h2, h3, h4]

/-- Folding an operation that leaves memory as it was leaves it as it was. -/
theorem State.foldl_memKey {α : Type} (f : State → α → State) (hf : ∀ s x, (f s x).memKey = s.memKey) (l : List α)
    (s : State) : (l.foldl f s).memKey = s.memKey := by
  induction l generalizing s with
  | nil => rfl
  | cons x l ih => rw [List.foldl_cons, ih, hf]

/-- Folding an operation that keeps memory canonical keeps it canonical. -/
theorem State.foldl_memWf {α : Type} (f : State → α → State) (hf : ∀ s x, s.memWf → (f s x).memWf) (l : List α)
    (s : State) (hs : s.memWf) : (l.foldl f s).memWf := by
  induction l generalizing s with
  | nil => exact hs
  | cons x l ih => exact ih _ (hf s x hs)

/-! ## Operations that leave memory as it was -/

variable (s : State)

@[simp] theorem State.setReg_memKey (k : Nat) (v : BitVec 32) : (s.setReg k v).memKey = s.memKey := rfl
@[simp] theorem State.fset_memKey (f : Fld) (v : Nat) : (s.fset f v).memKey = s.memKey := rfl
@[simp] theorem State.fsat_memKey (f : Fld) (n : Nat) : (s.fsat f n).memKey = s.memKey := rfl
@[simp] theorem State.fwrap_memKey (f : Fld) (n : Nat) : (s.fwrap f n).memKey = s.memKey := rfl
@[simp] theorem State.setFlag_memKey (f : Fld) (b : Bool) : (s.setFlag f b).memKey = s.memKey := rfl
@[simp] theorem State.irq_memKey (v : Nat) : (s.irq v).memKey = s.memKey := rfl
@[simp] theorem State.draw_memKey : s.draw.2.memKey = s.memKey := rfl
@[simp] theorem State.loadArm_memKey : s.loadArm.memKey = s.memKey := by
  unfold State.loadArm; dsimp only; split <;> rfl
@[simp] theorem State.tick_memKey : (tick s).memKey = s.memKey := by
  unfold tick; dsimp only; (repeat' split) <;> first | rfl | exact State.loadArm_memKey _
@[simp] theorem State.setEng_memKey (e : Nat) (x : Engine) : (s.setEng e x).memKey = s.memKey := rfl
@[simp] theorem State.modEng_memKey (e : Nat) (f : Engine → Engine) : (s.modEng e f).memKey = s.memKey := rfl
@[simp] theorem State.setCtx_memKey (k : Nat) (x : Ctx) : (s.setCtx k x).memKey = s.memKey := rfl
@[simp] theorem State.modCtx_memKey (k : Nat) (f : Ctx → Ctx) : (s.modCtx k f).memKey = s.memKey := rfl

@[simp] theorem State.faultN_memKey (c : Nat) : (s.faultN c).memKey = s.memKey := by
  unfold State.faultN; split <;> rfl

@[simp] theorem State.file_memKey (r : FRec) : (s.file r).memKey = s.memKey := by
  unfold State.file; dsimp only; (repeat' split) <;> rfl

@[simp] theorem State.putHist_memKey (h : Hist) : (s.putHist h).memKey = s.memKey := by
  unfold State.putHist; dsimp only; (repeat' split) <;> rfl

@[simp] theorem State.fileNow_memKey (r : FRec) : (s.fileNow r).memKey = s.memKey := by simp [State.fileNow]

@[simp] theorem State.fileLimited_memKey (r : FRec) : (s.fileLimited r).memKey = s.memKey := by
  unfold State.fileLimited; dsimp only; split <;> simp

@[simp] theorem State.occur_memKey (r : FRec) : (s.occur r).memKey = s.memKey := by simp [State.occur]

@[simp] theorem State.judgePermanent_memKey (r : FRec) (b : Bool) : (s.judgePermanent r b).memKey = s.memKey := by
  unfold State.judgePermanent; dsimp only; (repeat' split) <;> simp <;> rfl

@[simp] theorem State.filePermanent_memKey (r : FRec) (b : Bool) : (s.filePermanent r b).memKey = s.memKey := by
  simp [State.filePermanent]

@[simp] theorem State.classify_memKey (r : FRec) : (s.classify r).memKey = s.memKey := by
  unfold State.classify; dsimp only; split <;> simp

@[simp] theorem State.corrected_memKey (w : Nat) (r : FRec) : (s.corrected w r).memKey = s.memKey := by
  unfold State.corrected; dsimp only; split <;> simp <;> rfl

@[simp] theorem State.eventR_memKey (r : FRec) : (s.eventR r).memKey = s.memKey := by simp [State.eventR]

@[simp] theorem State.event_memKey (c : Nat) (u g : BitVec 32) (x y : BitVec 64) :
    (s.event c u g x y).memKey = s.memKey := by simp [State.event]

@[simp] theorem State.permanent_memKey (c : Nat) (u g : BitVec 32) : (s.permanent c u g).memKey = s.memKey := by
  simp [State.permanent]

@[simp] theorem State.addrErr_memKey (k : Nat) (wr : Bool) (src : Src) (a : BitVec 64) :
    (s.addrErr k wr src a).memKey = s.memKey := by
  unfold State.addrErr; dsimp only; split <;> simp

@[simp] theorem State.holeHit_memKey (l : Loc) (a : Nat) : (s.holeHit l a).memKey = s.memKey := by
  unfold State.holeHit; dsimp only; (repeat' split) <;> rfl

@[simp] theorem State.onRead_memKey (head : Bool) (src : Src) (l : Loc) (a : Nat) :
    (s.onRead head src l a).memKey = s.memKey := by
  unfold State.onRead; dsimp only; (repeat' split) <;> simp <;> rfl

@[simp] theorem State.allocate_memKey (d g sec : Nat) (wr : Bool) : (s.allocate d g sec wr).memKey = s.memKey := by
  unfold State.allocate; split <;> rfl

@[simp] theorem State.cacheTouch_memKey (a : Nat) (wr : Bool) : (s.cacheTouch a wr).memKey = s.memKey := by
  unfold State.cacheTouch; dsimp only; (repeat' split) <;> first | rfl | simp

@[simp] theorem State.readAhead_memKey (a : Nat) : (s.readAhead a).memKey = s.memKey := by
  unfold State.readAhead; dsimp only; (repeat' split) <;> first | rfl | simp

@[simp] theorem State.mendBurst_memKey (a : Nat) : (s.mendBurst a).memKey = s.memKey := by
  unfold State.mendBurst; split <;> rfl

/-! ## Reads of memory leave it as it was -/

@[simp] theorem State.readAt_memKey (h l : Bool) (src : Src) (pkg : BitVec 16) (a : Nat) :
    (s.readAt h l src pkg a).2.memKey = s.memKey := by
  unfold State.readAt; (repeat' split) <;> simp

@[simp] theorem State.readW_memKey (src : Src) (pkg : BitVec 16) (a : Nat) :
    (s.readW src pkg a).2.memKey = s.memKey := by simp [State.readW]

theorem State.readGo_memKey (n : Nat) (s : State) (h : Bool) (src : Src) (pkg : BitVec 16) (a : Nat) :
    (s.readGo h src pkg a n).2.memKey = s.memKey := by
  induction n generalizing s h a with
  | zero => rfl
  | succ n ih => simp only [State.readGo, ih, State.readAt_memKey]

@[simp] theorem State.readN_memKey (src : Src) (pkg : BitVec 16) (a n : Nat) :
    (s.readN src pkg a n).2.memKey = s.memKey := s.readGo_memKey n true src pkg a

@[simp] theorem State.read64_memKey (src : Src) (pkg : BitVec 16) (a : Nat) :
    (s.read64 src pkg a).2.memKey = s.memKey := by simp [State.read64]

/-! ## Writes of memory -/

/-- A byte after a write: the value at its address, and every other as it was. -/
theorem State.setByte_read (a i : Nat) (v : BitVec 8) : (s.setByte a v).byte i = if i = a then v else s.byte i :=
  Sparse.get_set _ _ _ _ _

theorem State.setByte_memWf {s : State} (a : Nat) (v : BitVec 8) (hs : s.memWf) : (s.setByte a v).memWf :=
  Sparse.wf_set a v hs

/-- A word's bytes are those of its four byte writes: what else a store does leaves memory as it was. -/
theorem State.store_memKey (a : Nat) (w : MWord) : (s.store a w).memKey =
    (((((s.mendBurst a).setByte (4 * (a / 4)) (w.v.extractLsb' 0 8)).setByte (4 * (a / 4) + 1)
      (w.v.extractLsb' 8 8)).setByte (4 * (a / 4) + 2) (w.v.extractLsb' 16 8)).setByte (4 * (a / 4) + 3)
      (w.v.extractLsb' 24 8)).memKey := rfl

/-- A word after a store: its four bytes, lowest address first, and every other byte as it was (R158, R186). -/
theorem State.store_byte (a i : Nat) (w : MWord) :
    (s.store a w).byte i =
      if i = 4 * (a / 4) + 3 then w.v.extractLsb' 24 8 else if i = 4 * (a / 4) + 2 then w.v.extractLsb' 16 8
      else if i = 4 * (a / 4) + 1 then w.v.extractLsb' 8 8 else if i = 4 * (a / 4) then w.v.extractLsb' 0 8
      else s.byte i := by
  rw [State.byte_of_memKey (s.store_memKey a w)]
  simp only [State.setByte_read, State.byte_of_memKey (s.mendBurst_memKey a)]

theorem State.store_byte_other (a i : Nat) (w : MWord) (h : i / 4 ≠ a / 4) : (s.store a w).byte i = s.byte i := by
  rw [State.store_byte]; repeat' rw [if_neg (by omega)]

theorem State.store_memWf {s : State} (a : Nat) (w : MWord) (hs : s.memWf) : (s.store a w).memWf :=
  State.memWf_of_memKey (s.store_memKey a w)
    (State.setByte_memWf _ _ (State.setByte_memWf _ _ (State.setByte_memWf _ _ (State.setByte_memWf _ _
      (State.memWf_of_memKey (s.mendBurst_memKey a) hs)))))

theorem State.writeAt_memWf {s : State} (h : Bool) (src : Src) (pkg : BitVec 16) (a : Nat) (w : MWord) (hs : s.memWf) :
    (s.writeAt h src pkg a w).memWf := by
  unfold State.writeAt
  (repeat' split) <;>
    first
    | exact hs
    | exact State.memWf_of_memKey (by simp) hs
    | exact State.store_memWf a w (State.memWf_of_memKey (by simp) hs)

theorem State.writeW_memWf {s : State} (src : Src) (pkg : BitVec 16) (a : Nat) (w : MWord) (hs : s.memWf) :
    (s.writeW src pkg a w).memWf := State.writeAt_memWf true src pkg a w hs

theorem State.writeGo_memWf (ws : List MWord) {s : State} (h : Bool) (src : Src) (pkg : BitVec 16) (a : Nat)
    (hs : s.memWf) : (s.writeGo h src pkg a ws).memWf := by
  induction ws generalizing s h a with
  | nil => exact hs
  | cons w ws ih => exact ih _ _ (State.writeAt_memWf _ _ _ _ _ hs)

theorem State.writeN_memWf {s : State} (src : Src) (pkg : BitVec 16) (a : Nat) (ws : List MWord) (hs : s.memWf) :
    (s.writeN src pkg a ws).memWf := State.writeGo_memWf ws true src pkg a hs

/-- The memory of the state at reset is canonical. -/
theorem State.reset_memWf : State.reset.memWf := Sparse.wf_nil _

end Sys2Proof.Machine
end

