-- ==== Sys2Proof/Laws/Objects.lean ====
section
/-! SUPPORT. Laws of Burin's objects: what a read of good words of the slow tier gives, and that an object with the signature
its key's holder makes is accepted. -/
namespace Sys2Proof.Machine

/-! ## Bytes -/

/-- Bytes at consecutive addresses. -/
def cells (a : Nat) : List (BitVec 8) → List (Nat × BitVec 8)
  | [] => []
  | b :: r => (a, b) :: cells (a + 1) r

theorem get_cells (d : Nat → BitVec 8) (o : List (BitVec 8)) : ∀ (a i : Nat), i < o.length →
    Sparse.get d (cells a o) (a + i) = o.getD i 0 := by
  induction o with
  | nil => intro a i h; simp at h
  | cons b r ih =>
    intro a i h
    cases i with
    | zero => simp [cells, Sparse.get]
    | succ i =>
      have h' : i < r.length := by simpa using h
      have := ih (a + 1) i h'
      simp only [cells, Sparse.get]
      rw [if_neg (by omega), show a + (i + 1) = a + 1 + i by omega, this]
      simp

theorem wordBytes_append (a b c d : BitVec 8) : wordBytes (d ++ c ++ b ++ a) = [a, b, c, d] := by
  simp only [wordBytes, List.cons.injEq, and_true]
  refine ⟨?_, ?_, ?_, ?_⟩ <;> apply BitVec.eq_of_getLsbD_eq <;> intro i hi <;>
    simp only [BitVec.getLsbD_extractLsb', BitVec.getLsbD_append, hi, decide_true, Bool.true_and]
  · rw [if_pos (by omega), Nat.zero_add]
  · rw [if_neg (by omega), if_pos (by omega)]; congr 1; omega
  · rw [if_neg (by omega), if_neg (by omega), if_pos (by omega)]; congr 1; omega
  · rw [if_neg (by omega), if_neg (by omega), if_neg (by omega)]; congr 1; omega

theorem leNat_lt (l : List (BitVec 8)) : leNat l < 256 ^ l.length := by
  induction l with
  | nil => simp [leNat]
  | cons b r ih =>
    have := b.isLt
    simp only [leNat, List.length_cons, Nat.pow_succ]
    omega

/-- Eight bytes of a number below 2^64 give it back. -/
theorem leNat_leBytes (v : Nat) (h : v < 2 ^ 64) : leNat (leBytes 8 v) = v := by
  have : leBytes 8 v = [BitVec.ofNat 8 v, BitVec.ofNat 8 (v / 256), BitVec.ofNat 8 (v / 65536), BitVec.ofNat 8 (v / 16777216),
    BitVec.ofNat 8 (v / 4294967296), BitVec.ofNat 8 (v / 1099511627776), BitVec.ofNat 8 (v / 281474976710656),
    BitVec.ofNat 8 (v / 72057594037927936)] := by
    simp [leBytes, List.range, List.range.loop]
  rw [this]
  simp only [leNat, BitVec.toNat_ofNat]
  omega

theorem fieldOf_append (b c : List (BitVec 8)) (x y : Nat) (hx : x ≤ y) (hy : y ≤ b.length) :
    fieldOf (b ++ c) x y = fieldOf b x y := by
  unfold fieldOf
  rw [List.drop_append_of_le_length (by omega), List.take_append_of_le_length (by simp; omega)]

/-! ## Reading good words -/

/-- A word of the slow tier that is no hole. -/
def State.plain (s : State) (a : Nat) : Bool :=
  match s.locate a with
  | .slow dv ch pg => !s.hole (.slow dv ch pg)
  | _ => false

/-- A slow-tier device that is in service with every channel and page. -/
def State.devUp (s : State) (dv : Nat) : Bool :=
  s.reg (Reg.MEM_H_CHRET (16 + dv)) == 0 && s.fget (F.MEM_H_STATUS_STATE (16 + dv)) != 3 && s.rifEdgeOpen (dv / 2) &&
    !s.gone.contains (0x10000 + dv / 2)

/-- With every device up no word of the slow tier is a hole. -/
theorem State.plain_slow (s : State) (hp : s.pages = []) (hd : ∀ dv, dv < 8 → s.devUp dv = true) (a : Nat)
    (h1 : 0x10000000000 ≤ a) (h2 : a < 0x20000000000) : s.plain a = true := by
  have hl : s.locate a = .slow (slowLoc a).1 (slowLoc a).2.1 (slowLoc a).2.2 := by
    unfold State.locate
    rw [if_neg (by omega), if_neg (by omega), if_pos h2]
  have hdv : (slowLoc a).1 < 8 := by
    have := Nat.mod_lt ((a - 0x10000000000) % 0x4000000000 / 0x1000 ^^^ (a - 0x10000000000) % 0x4000000000 / 0x1000 / 2 ^ 13)
      (show 2 > 0 by omega)
    simp only [slowLoc]
    omega
  have hu := hd _ hdv
  simp only [State.devUp, Bool.and_eq_true, beq_iff_eq, bne_iff_ne, ne_eq, Bool.not_eq_true'] at hu
  simp [State.plain, hl, State.hole, State.pageRetired, hp, hu.1.1.1, hu.1.1.2, hu.1.2]
  exact by simpa using hu.2

/-- A read of a good word of the slow tier gives its bytes and leaves the state. -/
theorem State.readAt_plain (s : State) (head last : Bool) (src : Src) (pkg : BitVec 16) (a : Nat) (he : s.ecc = [])
    (hb : s.bursts = []) (h : s.plain a = true) : s.readAt head last src pkg a = (⟨s.rawWord a, false⟩, s) := by
  unfold State.plain at h
  split at h
  · rename_i dv ch pg hl
    have hh : s.hole (.slow dv ch pg) = false := by simpa using h
    have hs : s.syn a = 0 := by simp [State.syn, he, Sparse.get]
    have hbb : s.burstBad a = false := by simp [State.burstBad, hb]
    have hg : synOf 0 = .good := by decide
    have hst : s.stored a = ⟨s.rawWord a, false⟩ := by simp only [State.stored, hbb, hs, deliver, hg]; rfl
    unfold State.readAt
    simp only [hl, hh, State.onRead, hs, hbb, hg, hst]
    cases last <;> simp [State.cacheTouch, hl]
  · cases h

theorem State.readGo_plain (s : State) (src : Src) (pkg : BitVec 16) (he : s.ecc = []) (hb : s.bursts = []) :
    ∀ (n a : Nat) (head : Bool), (∀ k, k < n → s.plain (a + 4 * k) = true) →
      s.readGo head src pkg a n = ((List.range n).map fun k => ⟨s.rawWord (a + 4 * k), false⟩, s) := by
  intro n
  induction n with
  | zero => intro a head _; rfl
  | succ n ih =>
    intro a head h
    have h0 := s.readAt_plain (head || a % 64 == 0) (n == 0 || a % 64 == 60) src pkg a he hb (by simpa using h 0 (by omega))
    have h1 := ih (a + 4) false (fun k hk => by
      have := h (k + 1) (by omega)
      rwa [show a + 4 * (k + 1) = a + 4 + 4 * k by omega] at this)
    simp only [State.readGo, h0, h1, List.range_succ_eq_map, List.map_cons, List.map_map, Nat.mul_zero, Nat.add_zero]
    refine congrArg (fun l => (_ :: l, s)) (List.map_congr_left fun k _ => ?_)
    simp only [Function.comp]
    rw [show a + 4 * (k + 1) = a + 4 + 4 * k by omega]

theorem State.bytes_words (s : State) (a n : Nat) :
    ((List.range n).map fun k => (⟨s.rawWord (a + 4 * k), false⟩ : MWord)).flatMap (fun w => wordBytes w.v) =
      (List.range (4 * n)).map fun i => s.byte (a + i) := by
  induction n with
  | zero => rfl
  | succ n ih =>
    rw [List.range_succ, List.map_append, List.flatMap_append, ih, show 4 * (n + 1) = 4 * n + 1 + 1 + 1 + 1 by omega]
    simp only [List.range_succ, List.map_append, List.append_assoc]
    simp [State.rawWord, wordBytes_append, Nat.add_assoc]

/-- Burin reads an object of whole words that lies in good words of the slow tier, and the state stays. -/
theorem State.readBytes_plain (s : State) (g : BitVec 64) (o : List (BitVec 8)) (n : Nat) (hn : 4 * n ≤ o.length)
    (ho : s.own (pkgOf g) = true) (hw : s.memWaits (g.toNat % 2 ^ 48) = false) (he : s.ecc = []) (hb : s.bursts = [])
    (hm : s.mem = cells (g.toNat % 2 ^ 48) o) (hp : ∀ k, k < n → s.plain (g.toNat % 2 ^ 48 + 4 * k) = true) :
    s.readBytes g (4 * n) = (some (o.take (4 * n)), s) := by
  unfold State.readBytes
  have h4 : (4 * n + 3) / 4 = n := by omega
  simp only [ho, hw, State.readN, s.readGo_plain .arm (pkgOf g) he hb n _ true hp, h4]
  have hany : ((List.range n).map fun k => (⟨s.rawWord (g.toNat % 2 ^ 48 + 4 * k), false⟩ : MWord)).any (·.p) = false := by
    simp
  simp only [hany, s.bytes_words]
  have : ((List.range (4 * n)).map fun i => s.byte (g.toNat % 2 ^ 48 + i)) = o.take (4 * n) := by
    apply List.ext_getElem
    · simp; omega
    · intro i h1 h2
      have hi : i < o.length := by simp at h1; omega
      simp [State.byte, hm, get_cells _ o _ i hi, hi]
  simp only [this, List.take_take, Nat.min_self, Bool.false_eq_true, if_false, reduceCtorEq]

/-! ## Signed objects -/

/-- The signature the holder of a key makes of a message. -/
def sigOf (h : BitVec 384) (msg : List (BitVec 8)) : List (BitVec 8) := (List.range 96).map (Config.signature h msg)

@[simp] theorem sigOf_length (h : BitVec 384) (msg : List (BitVec 8)) : (sigOf h msg).length = 96 := by simp [sigOf]

/-- An object whose holder signed it and whose block names what its type asks for is accepted (R362, R363). -/
theorem State.checkObj_signed (s : State) (typ floor : Nat) (hd : List (BitVec 8)) (kh : BitVec 384) (hl : 64 ≤ hd.length)
    (hr : fieldOf (hd.drop (hd.length - 64)) 17 32 = 0 ∧ fieldOf (hd.drop (hd.length - 64)) 48 64 = 0)
    (ht : fieldOf (hd.drop (hd.length - 64)) 0 4 = typ)
    (hk : fieldOf (hd.drop (hd.length - 64)) 16 17 < 8 ∧ s.maySign typ (fieldOf (hd.drop (hd.length - 64)) 16 17) = true ∧
      s.sec.revoked.getLsbD (fieldOf (hd.drop (hd.length - 64)) 16 17) = false ∧
      s.keyHash (fieldOf (hd.drop (hd.length - 64)) 16 17) = some kh)
    (hn : fieldOf (hd.drop (hd.length - 64)) 32 48 = if 5 ≤ typ ∧ typ ≤ 7 then s.nonce else 0)
    (hg : fieldOf (hd.drop (hd.length - 64)) 8 16 = Config.serial.toNat ∨
      fieldOf (hd.drop (hd.length - 64)) 8 16 = 0 ∧ ¬ (5 ≤ typ ∧ typ ≤ 8))
    (hv : typ ≤ 3 → floor ≤ fieldOf (hd.drop (hd.length - 64)) 4 8) :
    s.checkObj typ (hd ++ sigOf kh hd) floor = 0 := by
  generalize hb : hd.drop (hd.length - 64) = b at *
  have hbl : b.length = 64 := by rw [← hb]; simp; omega
  have hdrop : (hd ++ sigOf kh hd).drop ((hd ++ sigOf kh hd).length - 160) = b ++ sigOf kh hd := by
    rw [← hb, List.length_append, sigOf_length, show hd.length + 96 - 160 = hd.length - 64 by omega,
      List.drop_append_of_le_length (by omega)]
  have htake : (hd ++ sigOf kh hd).take ((hd ++ sigOf kh hd).length - 96) = hd := by
    rw [List.length_append, sigOf_length, Nat.add_sub_cancel, List.take_left]
  have hsig : (b ++ sigOf kh hd).drop 64 = sigOf kh hd := by rw [← hbl, List.drop_left]
  have f (x y : Nat) (h1 : x ≤ y) (h2 : y ≤ 64) : fieldOf (b ++ sigOf kh hd) x y = fieldOf b x y :=
    fieldOf_append b _ x y h1 (by omega)
  have hok : Config.sigOk kh hd (sigOf kh hd) = true := by simp [Config.sigOk, sigOf]
  have hlen : ¬ (hd ++ sigOf kh hd).length < 160 := by simp; omega
  unfold State.checkObj
  simp only [hdrop, htake, hsig, f 16 17 (by omega) (by omega), f 8 16 (by omega) (by omega), f 32 48 (by omega) (by omega),
    f 17 32 (by omega) (by omega), f 48 64 (by omega) (by omega), f 0 4 (by omega) (by omega), f 4 8 (by omega) (by omega),
    hk.2.2.2, hok, hr.1, hr.2, ht, hn]
  rw [if_neg, if_neg, if_neg (by simp), if_neg, if_neg]
  · intro h; exact absurd (hv h.1) (by omega)
  · rintro (⟨h1, h2⟩ | ⟨h1, h2⟩)
    · rcases hg with hg | ⟨hg, hg'⟩
      · exact h1 hg
      · rcases h2 with h2 | h2
        · exact h2 hg
        · exact hg' h2
    · simp at h1
      exact h2 (by rw [if_pos h1])
  · rintro (h | h | h | h)
    · exact h rfl
    · omega
    · simp [hk.2.1] at h
    · simp [hk.2.2.1] at h
  · rintro (h | h | h | ⟨h1, h2⟩)
    · exact hlen h
    · exact h rfl
    · exact h rfl
    · by_cases h : 5 ≤ typ ∧ typ ≤ 7
      · simp [h.1, h.2] at h1
      · rw [if_neg h] at h2; exact h2 rfl

/-- Burin takes a signed object from good words of the slow tier. -/
theorem State.takeObj_signed (s : State) (typ n floor : Nat) (o : List (BitVec 8)) (hn : o.length = 4 * n)
    (ho : s.own (pkgOf s.secAddr) = true) (hw : s.memWaits (s.secAddr.toNat % 2 ^ 48) = false) (he : s.ecc = [])
    (hb : s.bursts = []) (hm : s.mem = cells (s.secAddr.toNat % 2 ^ 48) o)
    (hp : ∀ k, k < n → s.plain (s.secAddr.toNat % 2 ^ 48 + 4 * k) = true) (hc : s.checkObj typ o floor = 0) :
    s.takeObj typ (4 * n) floor = (0, o, s) := by
  have h := s.readBytes_plain s.secAddr o n (by omega) ho hw he hb hm hp
  rw [← hn, List.take_length] at h
  unfold State.takeObj
  simp only [hw, Bool.and_false, ← hn, h, hc]
  simp

end Sys2Proof.Machine
end

