-- ==== Sys2Proof/Laws/Paths.lean ====
section
/-! SUPPORT. Laws of the on-package paths: one path carries the traffic between a die and one 4 KiB granule (R15). -/
namespace Sys2Proof.Machine

/-- Two addresses of one granule agree in every quotient by a multiple of 4 KiB. -/
theorem div_of_granule {a b : Nat} (h : a / 0x1000 = b / 0x1000) (k : Nat) : a / (0x1000 * k) = b / (0x1000 * k) := by
  rw [← Nat.div_div_eq_div_mul, ← Nat.div_div_eq_div_mul, h]

theorem mod_div_of_granule {a b : Nat} (h : a / 0x1000 = b / 0x1000) (k : Nat) :
    a % (0x1000 * k) / 0x1000 = b % (0x1000 * k) / 0x1000 := by
  rw [Nat.mod_mul_right_div_self, Nat.mod_mul_right_div_self, h]

/-- A granule lies in one channel of one stack under every interleave policy (R168). -/
theorem hbmLoc_granule {a b : Nat} (h : a / 0x1000 = b / 0x1000) (policy : Nat) : hbmLoc policy a = hbmLoc policy b := by
  have h1 := div_of_granule h 0x3000000
  have h2 := mod_div_of_granule h 0x3000000
  have h3 := div_of_granule h 0xC00000
  have h4 := mod_div_of_granule h 0xC00000
  simp only [Nat.reduceMul] at h1 h2 h3 h4
  unfold hbmLoc
  simp only [h, h1, h2, h3, h4]

/-- A granule lies on one slow-tier device (R176). -/
theorem slowLoc_granule {a b : Nat} (h : a / 0x1000 = b / 0x1000) (ha : 0x10000000000 ≤ a) (hb : 0x10000000000 ≤ b) :
    (slowLoc a).1 = (slowLoc b).1 := by
  have hs : (a - 0x10000000000) / 0x1000 = (b - 0x10000000000) / 0x1000 := by omega
  have h1 := div_of_granule hs 0x4000000
  have h2 := mod_div_of_granule hs 0x4000000
  simp only [Nat.reduceMul] at h1 h2
  unfold slowLoc
  simp only [h1, h2]

/-- Where two addresses of one granule lie, they need the same path (R14, R15, R17). -/
theorem State.path_granule (s : State) (d : Nat) {a b : Nat} (h : a / 0x1000 = b / 0x1000) : s.path d a = s.path d b := by
  have hd (x y : Nat) : dieToDie x y a = dieToDie x y b := by unfold dieToDie; rw [h]
  have hl (k : Nat) : a < 0x1000 * k ↔ b < 0x1000 * k := by omega
  have c1 := hl 0xC000000; have c2 := hl 0x10000000; have c3 := hl 0x20000000
  have c4 := hl 0x21000000; have c5 := hl 0x30000000; have c6 := hl 0x30100000
  simp only [Nat.reduceMul] at c1 c2 c3 c4 c5 c6
  unfold State.path State.locate
  simp only [hbmLoc_granule h, ← c1, ← c2, ← c3, ← c4, ← c5, ← c6]
  by_cases k1 : a < 0xC000000000
  · simp only [k1, if_true]
    split <;> simp_all
  by_cases k2 : a < 0x10000000000
  · simp [k1, k2]
  by_cases k3 : a < 0x20000000000
  · simp only [k1, k2, k3, if_true, if_false]
    have := slowLoc_granule h (by omega) (by omega)
    simp only [this]
  by_cases k4 : a < 0x21000000000
  · simp only [k1, k2, k3, k4, if_true, if_false]
    have e1 : (a - 0x20000000000) / 0x400000000 = (b - 0x20000000000) / 0x400000000 := by omega
    have e2 (n : Nat) : (a - 0x20000000000) % 0x400000000 < n * 0x40000000 ↔
        (b - 0x20000000000) % 0x400000000 < n * 0x40000000 := by omega
    simp only [e1, e2]
    by_cases q1 : s.dieQ ((b - 0x20000000000) / 0x400000000) = true
    · simp [q1]
    by_cases q2 : (b - 0x20000000000) % 0x400000000 <
        s.fget (F.MEM_SRAM_STATUS_ACT ((b - 0x20000000000) / 0x400000000)) * 0x40000000
    · simp [q1, q2, hd]
    · simp [q1, q2]
  by_cases k5 : a < 0x30000000000
  · simp [k1, k2, k3, k4, k5]
  by_cases k6 : a < 0x30100000000
  · simp [k1, k2, k3, k4, k5, k6]
  · simp [k1, k2, k3, k4, k5, k6]

end Sys2Proof.Machine
end

