-- ==== Sys2Proof/Laws/Words.lean ====
section
/-! SUPPORT. Laws of checked words (R185): a read of a tile or of a table entry whose words read good leaves the state as it
is, and a word written has good check bits. -/
namespace Sys2Proof.Machine

variable (s : State)

@[simp] theorem fixWord_good (v : BitVec 32) : fixWord v 0 = (v, 0) := rfl

theorem State.checkSct_good {i : Nat} (h : s.sctBad i = []) : s.checkSct i = s := by simp [State.checkSct, h]

theorem State.checkGrp_good {g : Nat} (h : s.grpBad g = []) : s.checkGrp g = s := by simp [State.checkGrp, h]

theorem State.checkTile_good {e t : Nat} (r : FRec) (h : s.badWords e t = []) : s.checkTile e r t = s := by
  simp [State.checkTile, h]

@[simp] theorem State.checkFlt_nil (adv : Bool) : s.checkFlt adv [] = s := rfl

theorem State.checkLoupe_good (h : s.lpEcc = []) : s.checkLoupe = s := by simp [State.checkLoupe, h]

theorem poisonOf_good {z : List (Nat × BitVec 7)} {n i : Nat} (h : badOf z n i = []) : poisonOf z n i = false := by
  simp only [badOf, List.map_eq_nil_iff, List.filter_eq_nil_iff] at h
  simp only [poisonOf, List.any_eq_false, Bool.and_eq_true, not_and]
  exact fun p hp hn => absurd hn (h p hp)

end Sys2Proof.Machine
end

