-- ==== Sys2Proof/WellFormed.lean ====
section
/-! DEFINITION. Which commands are well formed: the operands whose type admits more than a rule does. Every other
operand is in range by its type. -/
namespace Sys2Proof

/-- A command whose operands lie within what the rules allow: data sizes of flits, slots and TLPs (R231 to R233,
R255, R392), the 32 bytes of a RECOVERY (R389), the 16 steps of a margin plan (R348), the four dies of an estimate
(R293), and 1 to 4 operator key hashes (R367). -/
def Instr.wf : Instr → Bool
  | .dataFlit _ f => decide (f.d.length ≤ 61)
  | .collectiveUpData d => decide (1 ≤ d.data.length) && decide (d.data.length ≤ 32768)
  | .collectiveDownData d => decide (1 ≤ d.data.length) && decide (d.data.length ≤ 32768)
  | .writeRequest _ s d => decide (s.len.toNat ≤ 63) && decide (d.length = 16 * (s.len.toNat + 1))
  | .readRequest _ s => decide (s.len.toNat ≤ 63)
  | .readResponse _ s d => decide (s.len.toNat ≤ 63) && decide (d.length = 16 * (s.len.toNat + 1))
  | .hostWrite _ o d _ => decide (1 ≤ d.length) && decide (d.length ≤ 128) && decide (o.toNat % 4 = 0)
  | .hostRead _ o n => decide (1 ≤ n) && decide (n ≤ 1024) && decide (o.toNat % 4 = 0)
  | .recovery d => decide (1 ≤ d.length) && decide (d.length ≤ 32)
  | .marginPlan _ drift => decide (drift.length = 16)
  | .diaphragmEstimate e =>
    decide (e.arrays.length = 4) && decide (e.control.length = 4) && decide (e.sram.length = 4) &&
      decide (e.rifflers.length = 4) && decide (e.memory.length = 7) && decide (e.links.length = 3)
  | .install _ n => decide (1 ≤ n) && decide (n ≤ 4)
  | .edgeTraining _ good => decide (good.toNat ≤ 34)
  | .memoryTraining failed => decide (failed.length ≤ 576)
  | _ => true

end Sys2Proof
end

