-- ==== Sys2Proof/Tests/Slice0.lean ====
section
/-! SUPPORT. The model's own tests: commands that are not well formed, and for every statement with hypotheses the states and
operands that meet them, clause by clause. -/
namespace Sys2Proof.Tests
set_option Elab.async false
open Sys2Proof Sys2Proof.Machine

/-! ## Helpers -/

def e0 : Pos := ⟨0, 0, 0⟩
def eTop : Pos := ⟨3, 23, 16⟩
def c0 : Cx := ⟨e0, 0⟩
def l0 : LPos := ⟨0, 0, 0⟩
def u0 : Clu := ⟨0, 0⟩
def uTop : Clu := ⟨3, 23⟩

def pow (s : State) (f : Power → Power) : State := { s with power := f s.power }
def tim (s : State) (f : Time → Time) : State := { s with time := f s.time }
def sec (s : State) (f : Sec → Sec) : State := { s with sec := f s.sec }

/-- A package at a step of its power-up order, its rails up. -/
def atStep (n : Nat) : State :=
  pow (State.reset.fset F.PLN_BOOT_STEP n) fun p => { p with railsUp := true, auxUp := true, judged := true }

/-- A package at READY, package 0. -/
def ready : State := (atStep 11).setReg Reg.PLN_PKG_ID 0x80000000

/-- The same, engine 0 running a task in context 0. -/
def task (x : Ctx) : State := ready.setCtx 0 { x with st := .run, task := some {} }

/-- Tiles of engine 0 that are FULL, of a format. -/
def fills (s : State) (fmt : BitVec 3) (ts : List Nat) : State :=
  ts.foldl (fun s t => s.setTag t { full := true, fmt := fmt }) s

/-- An instruction in a queue. -/
def ent (id : Nat) (w : BitVec 64) : QEnt := { id := id, w := w }

/-- A 64-bit word in memory. -/
def put64 (s : State) (a : Nat) (w : BitVec 64) : State :=
  (s.store a ⟨w.truncate 32, false⟩).store (a + 4) ⟨(w >>> 32).truncate 32, false⟩

/-- A queue that is enabled, its completion ring in the slow tier. -/
def qOn (s : State) (q : Nat) : State :=
  ((s.setFlag (F.PLN_CQ_CFG_EN q) true).setReg (Reg.PLN_CQ_CPL_LO q) 0x200000).setReg (Reg.PLN_CQ_CPL_HI q) 0x100

def P0 : Payload := ⟨0, 0, 0, 0, 0, 0, 0⟩
def cmdH (c : Nat) (low : BitVec 56) : BitVec 64 := BitVec.ofNat 8 c ++ low
def qb : State := qOn (qOn ready 0) 15

/-! ## Commands that are not well formed -/

def flitOf (n : Nat) : Flit := ⟨0, 0, List.replicate n 0, 0⟩
def slotOfLen (n : Nat) : ReqSlot := ⟨0, BitVec.ofNat 8 n, 0, 0, 0⟩
def cslot (n : Nat) : CSlot := { group := 0, inst := 0, src := 0, ofs := 0, len := 0, data := List.replicate n ⟨0, false⟩ }

theorem test_wf_dataFlit : (Instr.dataFlit 0 (flitOf 62)).wf = false ∧ (Instr.dataFlit 0 (flitOf 61)).wf = true := by
  decide +kernel
theorem test_wf_collectiveUpData : (Instr.collectiveUpData (cslot 0)).wf = false ∧
    (Instr.collectiveUpData (cslot 1)).wf = true := by decide +kernel
theorem test_wf_collectiveUpData_long : (Instr.collectiveUpData (cslot 32769)).wf = false := by decide +kernel
theorem test_wf_collectiveDownData : (Instr.collectiveDownData (cslot 0)).wf = false ∧
    (Instr.collectiveDownData (cslot 1)).wf = true := by decide +kernel
theorem test_wf_collectiveDownData_long : (Instr.collectiveDownData (cslot 32769)).wf = false := by decide +kernel
theorem test_wf_writeRequest : (Instr.writeRequest 0 (slotOfLen 0) (List.replicate 15 ⟨0, false⟩)).wf = false ∧
    (Instr.writeRequest 0 (slotOfLen 64) (List.replicate 1040 ⟨0, false⟩)).wf = false ∧
    (Instr.writeRequest 0 (slotOfLen 0) (List.replicate 16 ⟨0, false⟩)).wf = true := by decide +kernel
theorem test_wf_readRequest : (Instr.readRequest 0 (slotOfLen 64)).wf = false ∧
    (Instr.readRequest 0 (slotOfLen 63)).wf = true := by decide +kernel
theorem test_wf_readResponse : (Instr.readResponse 0 (slotOfLen 0) (List.replicate 17 ⟨0, false⟩)).wf = false ∧
    (Instr.readResponse 0 (slotOfLen 64) (List.replicate 1040 ⟨0, false⟩)).wf = false ∧
    (Instr.readResponse 0 (slotOfLen 0) (List.replicate 16 ⟨0, false⟩)).wf = true := by decide +kernel
theorem test_wf_hostWrite : (Instr.hostWrite 0 0 [] false).wf = false ∧
    (Instr.hostWrite 0 0 (List.replicate 129 0) false).wf = false ∧ (Instr.hostWrite 0 2 [0] false).wf = false ∧
    (Instr.hostWrite 0 4 [0] false).wf = true := by decide +kernel
theorem test_wf_hostRead : (Instr.hostRead 0 0 0).wf = false ∧ (Instr.hostRead 0 0 1025).wf = false ∧
    (Instr.hostRead 0 2 1).wf = false ∧ (Instr.hostRead 0 4 1024).wf = true := by decide +kernel
theorem test_wf_recovery : (Instr.recovery []).wf = false ∧ (Instr.recovery (List.replicate 33 0)).wf = false ∧
    (Instr.recovery (List.replicate 32 0)).wf = true := by decide +kernel
theorem test_wf_marginPlan : (Instr.marginPlan 0 (List.replicate 15 0)).wf = false ∧
    (Instr.marginPlan 0 (List.replicate 16 0)).wf = true := by decide +kernel
def estOf (a c s r m l : Nat) : PowerEst :=
  ⟨List.replicate a 0, List.replicate c 0, List.replicate s 0, List.replicate r 0, List.replicate m 0, List.replicate l 0, 0⟩
theorem test_wf_diaphragmEstimate :
    (Instr.diaphragmEstimate (estOf 3 4 4 4 7 3)).wf = false ∧ (Instr.diaphragmEstimate (estOf 4 1 4 4 7 3)).wf = false ∧
    (Instr.diaphragmEstimate (estOf 4 4 0 4 7 3)).wf = false ∧ (Instr.diaphragmEstimate (estOf 4 4 4 5 7 3)).wf = false ∧
    (Instr.diaphragmEstimate (estOf 4 4 4 4 6 3)).wf = false ∧ (Instr.diaphragmEstimate (estOf 4 4 4 4 7 4)).wf = false ∧
    (Instr.diaphragmEstimate (estOf 4 4 4 4 7 3)).wf = true := by decide +kernel
theorem test_wf_install : (Instr.install .armature 0).wf = false ∧ (Instr.install .armature 5).wf = false ∧
    (Instr.install .armature 4).wf = true := by decide +kernel
theorem test_wf_edgeTraining : (Instr.edgeTraining 0 35).wf = false ∧ (Instr.edgeTraining 0 34).wf = true := by
  decide +kernel
theorem test_wf_memoryTraining : (Instr.memoryTraining (List.replicate 577 (0, 0))).wf = false ∧
    (Instr.memoryTraining []).wf = true := by decide +kernel

/-! ## Witnesses: the step and the numbers -/

def loadS (n now arm : Nat) : State :=
  (tim State.reset fun t => { t with tb := BitVec.ofNat 64 now, run := true, load := some n }).setReg Reg.CLV_TB_ARM_LO
    (BitVec.ofNat 32 arm)
theorem wit_EmptyQueueTicks :
    (State.reset.pending = [] ∧ State.reset.time.load = none) ∧ ((loadS 2 7 9).pending = [] ∧ (loadS 2 7 9).time.load = some 2) ∧
    (loadS 1 7 9).time.tick.tb.toNat ≤ ((loadS 1 7 9).reg64 Reg.CLV_TB_ARM_LO Reg.CLV_TB_ARM_HI).toNat ∧
    ((loadS 1 9 9).reg64 Reg.CLV_TB_ARM_LO Reg.CLV_TB_ARM_HI).toNat < (loadS 1 9 9).time.tick.tb.toNat := by
  and_intros <;> decide +kernel

theorem wit_FormatValues :
    (255 < 2 ^ 8 ∧ 127 < 2 ^ 7 ∧ 255 = 2 ^ 8 - 1) ∧ ¬ (254 = 2 ^ 8 - 1) ∧
    (15 = 2 ^ 4 - 1 ∧ (e4m3 = e4m3 → 7 = 7)) ∧ ¬ (15 = 2 ^ 4 - 1 ∧ (e4m3 = e4m3 → 6 = 7)) ∧
    (zm8u.decode 0xFF).rat.isSome = true ∧ 254 < 255 := by decide +kernel

theorem wit_ConversionsRound :
    (Machine.Num.fin true 3 1 0).rat = some (-3) ∧ (e4m3.decode e4m3.maxMag).rat = some 448 ∧
    |(-3 : ℚ)| ≤ 448 ∧ (2 : ℚ) ^ (1 : ℤ) ≤ |(-3 : ℚ)| ∧ |(-3 : ℚ)| < 2 ^ ((1 : ℤ) + 1) ∧
    (Machine.Num.fin false 448 1 0).rat = some 448 ∧ |(448 : ℚ)| ≤ 448 ∧
    (Machine.Num.fin false 449 1 0).rat = some 449 ∧ (448 : ℚ) < |449| := by
  refine ⟨?_, ?_, ?_, ?_, ?_, ?_, ?_, ?_, ?_⟩ <;> decide +kernel

/-- A scale entry that is VALID, all its ring slots 0 but one. -/
def ven : Entry := [0x3F803F80, 0, 0, 0, 0, 0, 0, 0, 0x7F007F00, 0, 0, 0, 0, 0x8000, 0, 0]

theorem wit_StepAdvancesScales_word :
    (Machine.Num.fin false 1 1 (-200)).rat = some (2 ^ (-200 : ℤ)) ∧ (2 : ℚ) ^ (-200 : ℤ) ≤ 2 ^ (-127 : ℤ) * (511 / 256) ∧
    (Machine.Num.fin false 1 1 200).rat = some (2 ^ (200 : ℤ)) ∧ (2 : ℚ) ^ (127 : ℤ) * (511 / 256) < 2 ^ (200 : ℤ) ∧
    (Machine.Num.fin false 511 256 127).rat = some (2 ^ (127 : ℤ) * (511 / 256)) ∧
    (2 : ℚ) ^ (-127 : ℤ) * (511 / 256) < 2 ^ (127 : ℤ) * (511 / 256) := by
  refine ⟨?_, ?_, ?_, ?_, ?_, ?_⟩ <;> norm_num [Machine.Num.rat]
theorem wit_StepAdvancesScales_entry :
    ven.length = 16 ∧ enFREEZE ven = false ∧ enFORMAT ven ≤ 1 ∧ ringVal (enRING ven 0) ≠ 0 ∧ enVALID ven = true ∧
    enVALID (List.replicate 16 0) = false := by decide +kernel
def stepS : State := { qb.setEntry 32767 ven with sched := [(15, true, [(0, 0x3F800000), (10, 0x3F800000)])] }
theorem wit_StepAdvancesScales_step :
    stepS.accepts 15 (cmdH 4 9) P0 ∧ hdCMD (cmdH 4 9) = 4 ∧ enVALID (stepS.entry 32767) = true ∧
    enVALID (stepS.entry 0) = false ∧ stepS.sctBad 32767 = [] ∧ stepS.sctBad 0 = [] ∧ lookup stepS.sched 15 = some (true, [(0, 0x3F800000), (10, 0x3F800000)]) := by
  unfold State.accepts; and_intros <;> decide +kernel

/-! ## Witnesses: tiles, engines, scalars -/

def wVadd : BitVec 56 := 0x400200000000
def wTmac : BitVec 56 := 0x20000008000000
def full2 : State := fills (task {}) 0 [0, 1]

theorem wit_TileInstructionIssues :
    (Instr.tmac c0 wTmac).tileForm = some (c0, 0x10#8 ++ wTmac, 0) ∧
    full2.issues c0 (0x10#8 ++ wTmac) (legalTile (0x10#8 ++ wTmac) 0) ∧
    full2.gateMiss c0.pos.key (firstTiles (0x10#8 ++ wTmac)) = [] ∧ (full2.eng c0.pos.key).room (0x10#8 ++ wTmac) = true ∧
    (isV2 (opc (0x10#8 ++ wTmac)) = true → vSRC2 (0x10#8 ++ wTmac) = 1 →
      (full2.eng c0.pos.key).scalarBusy c0.ctx.val (vSS (0x10#8 ++ wTmac)) = false) := by
  unfold State.issues; and_intros <;> decide +kernel
theorem wit_TileInstructionIssues_vector :
    (Instr.vadd c0 wVadd 0).tileForm = some (c0, 0x40#8 ++ wVadd, 0) ∧
    full2.issues c0 (0x40#8 ++ wVadd) (legalTile (0x40#8 ++ wVadd) 0) ∧
    full2.gateMiss c0.pos.key (firstTiles (0x40#8 ++ wVadd)) = [] ∧ (full2.eng c0.pos.key).room (0x40#8 ++ wVadd) = true ∧
    (full2.eng c0.pos.key).scalarBusy c0.ctx.val (vSS (0x40#8 ++ wVadd)) = false := by
  unfold State.issues; and_intros <;> decide +kernel

def wr1 : QEnt := ent 1 (0x30#8 ++ (0x10000000000000 : BitVec 56))
def rd2 : QEnt := ent 2 (0x40#8 ++ wVadd)
def eng0 : Engine := { qV := [wr1] }
def lateS : State := (task {}).setCtx 0 { st := .late, miss := [0] }
theorem wit_IssueGate :
    ((task {}).issues c0 (0x10#8 ++ wTmac) (legalTile (0x10#8 ++ wTmac) 0) ∧
      (task {}).gateMiss c0.pos.key (firstTiles (0x10#8 ++ wTmac)) ≠ []) ∧
    ((lateS.setEng 0 eng0).ctx c0.key).st = .late ∧
    (lateS.setEng 0 eng0).gateMiss c0.pos.key ((lateS.setEng 0 eng0).ctx c0.key).miss = [] ∧
    (wr1 ∈ eng0.ents ∧ wr1.id < rd2.id ∧ 0 ∈ tilesWritten wr1.w ∧ 0 ∈ firstTiles rd2.w) := by
  unfold State.issues; and_intros <;> decide +kernel

theorem wit_IllegalInstructionStopsTask :
    (Instr.tmac c0 (wTmac + 1)).tileForm = some (c0, 0x10#8 ++ (wTmac + 1), 0) ∧
    (task {}).mayIssue c0.pos.key c0.ctx.val = true ∧
    (task {}).fenced c0.pos.key c0.ctx.val (0x10#8 ++ (wTmac + 1)) = false ∧
    (legalTile (0x10#8 ++ (wTmac + 1)) 0 = false ∨
      (task {}).progPoison ((task {}).ctx c0.key) (wordsOf (0x10#8 ++ (wTmac + 1))) = true) ∧
    (((task {}).ctx c0.key).s 30).toNat / 2 ^ 27 = 0 := by
  and_intros <;> decide +kernel

def lpS (x : Loupe) : State := (task {}).setLoupe 0 x
def sagL : State := pow (lpS {}) fun p => { p with sag := 1 }
theorem wit_LoupeSampleAtIssue :
    (lpS {}).issues c0 (0x38#8 ++ (0x10000000000000 : BitVec 56)) (legalLPSAMP (0x38#8 ++ (0x10000000000000 : BitVec 56))) ∧
    (bits64 (0x38#8 ++ (0x10000000000000 : BitVec 56)) 53 52 = 1 ∧ ((lpS {}).loupe c0.pos.clu).armed = none ∧
      (lpS {}).sampling = true) ∧
    (sagL.issues c0 (0x38#8 ++ (0x10000000000000 : BitVec 56)) (legalLPSAMP (0x38#8 ++ (0x10000000000000 : BitVec 56))) ∧
      sagL.sampling = false ∧ (sagL.loupe c0.pos.clu).queued = none) ∧
    (((lpS { armed := some (1, 2, 3) }).loupe 0).armed ≠ none ∧ ((lpS { armed := some (1, 2, 3) }).loupe 0).queued = none) ∧
    (((lpS { armed := some (1, 2, 3), queued := some (1, 1, 1) }).loupe 0).armed ≠ none ∧
      ((lpS { armed := some (1, 2, 3), queued := some (1, 1, 1) }).loupe 0).queued ≠ none) ∧
    (lpS {}).issues c0 (0x38#8 ++ (0x20000000000000 : BitVec 56)) (legalLPSAMP (0x38#8 ++ (0x20000000000000 : BitVec 56))) ∧
    bits64 (0x38#8 ++ (0x20000000000000 : BitVec 56)) 53 52 = 2 ∧
    (lpS {}).issues c0 (0x38#8 ++ (0x30000000000000 : BitVec 56)) (legalLPSAMP (0x38#8 ++ (0x30000000000000 : BitVec 56))) ∧
    bits64 (0x38#8 ++ (0x30000000000000 : BitVec 56)) 53 52 = 3 := by
  unfold State.issues; and_intros <;> decide +kernel

def tmE : QEnt := ent 1 (0x10#8 ++ wTmac)
def tmS : State := full2.setEng 0 { qA := [tmE] }
def vtE : QEnt := ent 1 (0x46#8 ++ (0x40000C000000 : BitVec 56))
def vtS : State := (fills (task {}) 2 [0, 1]).setEng 0 { qV := [vtE] }
theorem wit_InstructionStarts :
    ((tmS.eng e0.key).headOf .a = some tmE ∧ tmS.canRun e0.key = true ∧ (tmS.eng e0.key).holds tmE = false ∧
      tmS.storeHolds e0.key tmE = false ∧ (∀ t ∈ firstTiles tmE.w, tmS.full e0.key t = true) ∧
      ¬ (opc tmE.w = 0x20 ∧ alMODE tmE.w = 3) ∧ (tmS.startReads e0.key tmE).startCheck e0.key tmE = none) ∧
    ((vtS.eng e0.key).headOf .v = some vtE ∧ vtS.canRun e0.key = true ∧ (vtS.eng e0.key).holds vtE = false ∧
      vtS.storeHolds e0.key vtE = false ∧ (∀ t ∈ firstTiles vtE.w, vtS.full e0.key t = true) ∧
      ¬ (opc vtE.w = 0x20 ∧ alMODE vtE.w = 3) ∧
      ((vtS.startReads e0.key vtE).startCheck e0.key vtE).isSome = true) ∧
    ((vtS.ctx (4 * e0.key + vtE.ctx)).s 30).toNat / 2 ^ 27 = 0 := by
  and_intros <;> decide +kernel

def tm1 : QEnt := { tmE with pair := 1 }
def tm2 : QEnt := ent 1 (0x11#8 ++ (0x20000000820000 : BitVec 56))
def runS (q : QEnt) : State := full2.setEng 0 { runA := some q, runB := if opc q.w = 0x11 then some q else none }
theorem wit_TmacRuns :
    (((runS tmE).eng e0.key).inUnit .a = some tmE ∧ opc tmE.w = 0x10 ∧ tmE.pair ≤ tmREP tmE.w ∧
      (runS tmE).canRun e0.key = true ∧ (runS tmE).full e0.key (tmRegA tmE.w tmE.pair) = true ∧
      (runS tmE).full e0.key (tmRegB tmE.w tmE.pair) = true ∧ 
      ((runS tmE).checkTiles e0.key tmE [tmRegA tmE.w tmE.pair, tmRegB tmE.w tmE.pair]).pairCheck e0.key tmE.w tmE.pair = none) ∧
    (((runS tm1).eng e0.key).inUnit .a = some tm1 ∧ (runS tm1).canRun e0.key = true ∧ opc tm1.w = 0x10 ∧
      tmREP tm1.w < tm1.pair ∧ endAccs tm1 = [tmACC tm1.w]) ∧
    (((runS tm2).eng e0.key).inUnit .b = some tm2 ∧ (runS tm2).canRun e0.key = true ∧ opc tm2.w = 0x11) := by
  and_intros <;> decide +kernel
theorem wit_TmacRuns_residues :
    (∀ a ∈ endAccs tm1, (runS tm1).residueBad e0.key a = none) ∧
    ∀ a ∈ endAccs tm2, (runS tm2).residueBad e0.key a = none := by and_intros <;> decide +kernel

/-- No scalar register of engine 0 waits for a VAMAX. -/
theorem task_scalar_free (x : Ctx) (k : Nat) : ((task x).eng c0.pos.key).scalarBusy c0.ctx.val k = false := rfl

def wScal : BitVec 56 := (31 <<< 49) ||| (2 <<< 44) ||| (3 <<< 39)
def scS : State := task { sreg := [(2, 0xFFFFFFFF), (3, 34)] }
theorem wit_ScalarArithmetic :
    (∀ k, (scS.eng c0.pos.key).scalarBusy c0.ctx.val k = false) ∧
    ∀ o ∈ [0x80#8, 0x81#8, 0x82#8, 0x83#8, 0x84#8, 0x85#8, 0x86#8, 0x87#8, 0x88#8],
      scS.issues c0 (o ++ wScal) (legalScalar (o ++ wScal)) := by
  refine ⟨task_scalar_free _, ?_⟩; unfold State.issues; decide +kernel

def wBr : BitVec 56 := (6 <<< 50) ||| (1 <<< 45) ||| (2 <<< 40) ||| 0x7FFFFF
def wLoop : BitVec 56 := (2 <<< 45) ||| 0xFFFFFF
theorem wit_ControlFlow :
    (∀ k, (scS.eng c0.pos.key).scalarBusy c0.ctx.val k = false) ∧
    scS.issues c0 (0x90#8 ++ wBr) (legalBR (0x90#8 ++ wBr)) ∧
    scS.issues c0 (0x91#8 ++ wLoop) (legalLOOP (0x91#8 ++ wLoop)) ∧
    scS.issues c0 (0x92#8 ++ (0 : BitVec 56)) (legalEND (0x92#8 ++ (0 : BitVec 56))) := by
  refine ⟨task_scalar_free _, ?_⟩; unfold State.issues; and_intros <;> decide +kernel

def wLds : BitVec 56 := (1 <<< 49) ||| (1 <<< 38) ||| (1 <<< 37) ||| 0x3FFFFC
def wSts : BitVec 56 := (1 <<< 38) ||| (1 <<< 37) ||| (3 <<< 39) ||| 0x3FFFFC
def ldsS : State := (task { lds := some (0, 31), stopped := true }).writeStg 0 0 ⟨0x1234, true⟩
theorem wit_StagingLoadStore :
    (∀ k, (scS.eng c0.pos.key).scalarBusy c0.ctx.val k = false) ∧
    scS.issues c0 (0x8C#8 ++ wLds) (legalLdSt (0x8C#8 ++ wLds) false) ∧
    (scZ (0x8C#8 ++ wLds) = true ∧ (scIMM (0x8C#8 ++ wLds)).toNat % 4 = 0 ∧ (scIMM (0x8C#8 ++ wLds)).toNat = 0x3FFFFC) ∧
    ((ldsS.ctx c0.key).lds = some (0, 31) ∧ (ldsS.stgW c0.pos.clu 0).p = true) ∧
    ((task { lds := some (0, 1) }).ctx c0.key).lds = some (0, 1) ∧
    scS.issues c0 (0x8D#8 ++ wSts) (legalLdSt (0x8D#8 ++ wSts) true) ∧
    (scZ (0x8D#8 ++ wSts) = true ∧ (scIMM (0x8D#8 ++ wSts)).toNat % 4 = 0 ∧ (scIMM (0x8D#8 ++ wSts)).toNat < 0x400000) := by
  refine ⟨task_scalar_free _, ?_⟩; unfold State.issues; and_intros <;> decide +kernel

/-! ## Witnesses: semaphores, barriers, streams -/

def wWait : BitVec 56 := (255 <<< 38) ||| 0xFFFF
def semS (v : Nat) : State := (task {}).fset (F.STR_SEM_VALUE 0 255) v
theorem wit_SemaphoreWait :
    (semS 0xFFFF).issues c0 (0xA0#8 ++ wWait) (legalSWAIT (0xA0#8 ++ wWait)) ∧ (semS 0xFFFF).slotOf c0.pos.key = some 0 ∧
    (semS 0xFFFF).engineOf 0 = some c0.pos.key ∧ (semS 0xFFFF).waiters (256 * c0.pos.clu + sgSEM (0xA0#8 ++ wWait)) = [] ∧
    sgN (0xA0#8 ++ wWait) ≤ (semS 0xFFFF).fget (F.STR_SEM_VALUE 0 255) ∧
    (semS 0xFFFE).issues c0 (0xA0#8 ++ wWait) (legalSWAIT (0xA0#8 ++ wWait)) ∧
    (semS 0xFFFE).fget (F.STR_SEM_VALUE 0 255) < sgN (0xA0#8 ++ wWait) := by
  unfold State.issues; and_intros <;> decide +kernel

def wSig : BitVec 56 := (3 <<< 51) ||| (23 <<< 46) ||| (255 <<< 38) ||| 0xFFFF
def sp : SigPend := { clu := 95, sem := 255, n := 1, upto := 1 }
def sigS : State := (task { pend := [sp] }).fset (F.STR_SEM_VALUE 95 255) 0xFFFF
theorem wit_SemaphoreSignal :
    ((task {}).issues c0 (0xA1#8 ++ wSig) (legalSSIG (0xA1#8 ++ wSig)) ∧ ((task {}).ctx c0.key).pend.length < 4) ∧
    ((sigS.ctx c0.key).pend = [sp] ∧ sigS.workBelow c0.pos.key c0.ctx.val sp.upto = false ∧
      sigS.waiters (256 * sp.clu + sp.sem) = []) := by
  unfold State.issues; and_intros <;> decide +kernel

def wBar1 : BitVec 56 := (3 <<< 52) ||| (7 <<< 44) ||| (8191 <<< 31)
def wBar2 : BitVec 56 := (7 <<< 44) ||| (1 <<< 31)
def bar1 : Bar := { count := 2, arr := [(0, 1)] }
def barS : State := { (task {}).setCtx 1 { st := .wait, why := 2, wid := 7 } with bars := [(.cluster u0 7, bar1)] }
theorem wit_BarrierArrival :
    ((task {}).issues c0 (0xA2#8 ++ wBar1) (legalBAR (0xA2#8 ++ wBar1)) ∧ (task {}).slotOf c0.pos.key = some 0 ∧
      (task {}).engineOf 0 = some c0.pos.key ∧
      (task {}).bar? (openBar (barIdOf (brrSCOPE (0xA2#8 ++ wBar1)) (brrBID (0xA2#8 ++ wBar1)) c0)) = none ∧
      1 < brrCOUNT (0xA2#8 ++ wBar1)) ∧
    (barS.issues c0 (0xA2#8 ++ wBar2) (legalBAR (0xA2#8 ++ wBar2)) ∧ barS.slotOf c0.pos.key = some 0 ∧
      barS.engineOf 0 = some c0.pos.key ∧
      barS.bar? (openBar (barIdOf (brrSCOPE (0xA2#8 ++ wBar2)) (brrBID (0xA2#8 ++ wBar2)) c0)) = some bar1 ∧
      brrSCOPE (0xA2#8 ++ wBar2) = 0 ∧ bar1.count = brrCOUNT (0xA2#8 ++ wBar2) ∧ bar1.arr.length + 1 = bar1.count) := by
  unfold State.issues; and_intros <;> decide +kernel

/-- A fetch of one tile from the slow tier, and a store of one. -/
def dF : Desc := ⟨0xFFFF010000001000, 3 <<< 56, (64 <<< 40) ||| (31 <<< 27), 0⟩
def dS : Desc := { dF with d3 := 1 <<< 63 }
def inRegs (d : Desc) : List (Nat × BitVec 32) :=
  (([d.d0, d.d1, d.d2, d.d3] : List (BitVec 64)).zipIdx.flatMap fun (p : BitVec 64 × Nat) =>
    [(2 * p.2, p.1.truncate 32), (2 * p.2 + 1, (p.1 >>> 32).truncate 32)]).filter fun (p : Nat × BitVec 32) => p.2 ≠ 0
def strS (d : Desc) : State := task { sreg := inRegs d }
def xOne : BitVec 64 := 0xFFFF010000001000
theorem wit_StreamsStart :
    (∀ k, ((strS dF).eng c0.pos.key).scalarBusy c0.ctx.val k = false) ∧ (strS dF).slotOf c0.pos.key = some 0 ∧
    ((strS dF).issues c0 (0xB0#8 ++ (0 : BitVec 56)) (legalStream (0xB0#8 ++ (0 : BitVec 56))) ∧
      (regDesc ((strS dF).ctx c0.key) (stRS (0xB0#8 ++ (0 : BitVec 56)))).valid = true ∧
      (regDesc ((strS dF).ctx c0.key) (stRS (0xB0#8 ++ (0 : BitVec 56)))).store = false ∧ (strS dF).openSlot 0 = some 0) ∧
    ((strS dS).issues c0 (0xB1#8 ++ (0 : BitVec 56)) (legalStream (0xB1#8 ++ (0 : BitVec 56))) ∧
      (regDesc ((strS dS).ctx c0.key) (stRS (0xB1#8 ++ (0 : BitVec 56)))).valid = true ∧
      (regDesc ((strS dS).ctx c0.key) (stRS (0xB1#8 ++ (0 : BitVec 56)))).store = true) ∧
    ((task {}).issues c0 (0xB2#8 ++ (1 <<< 55 : BitVec 56))
        (legalSDESC (0xB2#8 ++ (1 <<< 55 : BitVec 56)) xOne && (task {}).own (pkgOf xOne)) ∧
      ((task {}).batch 0).length < 2) := by
  refine ⟨task_scalar_free _, ?_⟩; unfold State.issues; and_intros <;> decide +kernel

def bt : Batch := { id := 5, addr := 0xFFFF010000000000, count := 20 }
def bt2 : Batch := { bt with fetched := 2, ready := [(dF.d0, dF.d1, dF.d2, dF.d3), (dF.d0, dF.d1, dF.d2, dF.d3)] }
theorem wit_DescriptorsFetchAndStart :
    (((task {}).setBatch 0 [bt2, bt]).engineOf l0.key = some 0 ∧ (((task {}).setBatch 0 [bt2, bt]).batch l0.key)[1]? = some bt ∧
      bt.bad = false ∧ bt.fetched < bt.count ∧ bt.ready.length < 4 ∧
      ((task {}).setBatch 0 [bt2, bt]).memWaits (bt.addr.toNat % 2 ^ 48 + 32 * bt.fetched) = false ∧
      ((task {}).setBatch 0 [bt2, bt]).edgeWaits 0 true (bt.addr.toNat % 2 ^ 48 + 32 * bt.fetched) = false) ∧
    (((task {}).setBatch 0 [bt2]).engineOf l0.key = some 0 ∧ ((task {}).setBatch 0 [bt2]).slotOf 0 = some l0.key ∧
      ((task {}).setBatch 0 [bt2]).freeSlot l0.key = some 0 ∧
      nextReady (((task {}).setBatch 0 [bt2]).batch l0.key) 0 = some (0, bt2, dF.d0, dF.d1, dF.d2, dF.d3)) := by
  and_intros <;> decide +kernel

def xf (d : Desc) : Xfer := { st := .active, id := 9, d0 := d.d0, d1 := d.d1, d2 := d.d2, d3 := d.d3 }
def ffS : State := (task {}).setXfer 5 { xf dF with unit := 31 }
theorem wit_FetchFillsTile :
    ffS.engineOf l0.key = some 0 ∧ (ffS.xfer 5).st ≠ .free ∧ (ffS.xfer 5).st ≠ .stalled ∧ (ffS.xfer 5).acc = none ∧
    (ffS.xfer 5).desc.store = false ∧ (ffS.xfer 5).desc.lkind = 0 ∧ (ffS.xfer 5).desc.rows = 32 ∧
    (ffS.xfer 5).desc.rlog = 0 ∧ (ffS.xfer 5).desc.tr = false ∧ (ffS.xfer 5).desc.scl = false ∧
    (ffS.xfer 5).desc.shd = false ∧ (ffS.xfer 5).unit = 31 ∧ ffS.local (ffS.xfer 5) = true ∧
    ffS.unitWaits 0 l0.key (ffS.xfer 5) = false := by and_intros <;> decide +kernel

def dSig : Desc := { dF with d3 := (1 <<< 62) ||| (255 <<< 54) }
def tcS : State := ((task {}).fset (F.STR_SEM_VALUE 0 255) 0xFFFF).setXfer 5 { xf dSig with unit := 32 }
theorem wit_TransferCompletes :
    tcS.engineOf l0.key = some 0 ∧ (tcS.xfer 5).st ≠ .free ∧ (tcS.xfer 5).acc = none ∧
    (tcS.xfer 5).total ≤ (tcS.xfer 5).unit ∧ (tcS.xfer 5).batch = none ∧
    (∀ r ∈ tcS.rtx, ¬ (r.id = (tcS.xfer 5).id ∧ r.l = l0.key ∧ r.slot = 5)) ∧
    tcS.waiters (256 * (0 / 17) + (tcS.xfer 5).desc.sem) = [] ∧ (tcS.xfer 5).desc.sig = true ∧
    (tcS.xfer 5).dropping = false ∧ (xf dF).desc.sig = false := by and_intros <;> decide +kernel

def stS (st : XferSt) : State := (task {}).setXfer 5 { xf dF with unit := 3, st := st }
theorem wit_StallsAreRecorded :
    (stS .active).engineOf l0.key = some 0 ∧ ((stS .active).xfer 5).st = .active ∧ ((stS .held).xfer 5).st = .held ∧
    (((stS .stalled).xfer 5).st = .stalled ∧ ((stS .stalled).xfer 5).starved = false) := by
  and_intros <;> decide +kernel

/-! ## Witnesses: collectives and barriers -/

/-- A group table entry with its member list in memory. -/
def grpAdd (s : State) (g : Nat) (w0 : BitVec 32) (list : Nat) (ms : List (BitVec 32)) : State :=
  let s := (((s.setGrpW g 0 w0).setGrpW g 1 0x01000000).setGrpW g 2 (BitVec.ofNat 32 (list % 2 ^ 32))).setGrpW g 3
    (BitVec.ofNat 32 (list / 2 ^ 32))
  ms.zipIdx.foldl (fun s (p : BitVec 32 × Nat) => s.store (list + 4 * p.2) ⟨p.1, false⟩) s

/-- A package of two, with group 1 of its own slot 0 and group 2 over slot 0 of both. -/
def grouped (s : State) (pkg : Nat) : State :=
  (grpAdd (grpAdd s 1 0xC0000001 0x10000100000 [0xFFFF0000]) 2 0x80020002 0x10000100040
    [0x00000000, 0x00010000]).setReg Reg.PLN_PKG_ID (BitVec.ofNat 32 (2 ^ 31 + pkg))

def cD0 : BitVec 64 := 0xFFFF010000003000
def cD1 : BitVec 64 := 0xFFFF010000004000
def cD2 : BitVec 64 := (40 <<< 32) ||| (1 <<< 20)
def xDesc : BitVec 64 := 0xFFFF010000002000
def collS : State :=
  put64 (put64 (put64 (put64 (grouped (task {}) 0) 0x10000002000 cD0) 0x10000002008 cD1) 0x10000002010 cD2) 0x10000002018 0
def wColl : BitVec 56 := 1 <<< 55
theorem wit_CollectiveJoins :
    (∀ o ∈ [0xC0#8, 0xC1#8, 0xC2#8, 0xC3#8], collS.issues c0 (o ++ wColl) (legalColl (o ++ wColl) xDesc)) ∧
    collS.slotOf c0.pos.key = some 0 ∧
    (List.range 2).find? (fun i => (collS.coll (2 * 0 + i)).id == 0) = some 0 ∧ collS.fnOff 4 0 0 = false ∧
    (∀ o ∈ [0xC0#8, 0xC1#8, 0xC2#8, 0xC3#8],
      (collS.readColl (collS.engSrc c0.pos.key c0.ctx.val (opc (o ++ wColl)) (collS.ctx c0.key).pc) xDesc).1 =
        some (cD0, cD1, cD2, 0)) ∧
    collS.grpBad (cdGROUP cD2) = [] ∧ (∀ op ∈ [0, 1, 2, 3], collS.collCheck 0 op cD2 0 = some 0) ∧ collS.grpLocal (cdGROUP cD2) = true ∧ cdFMT cD2 ≤ 1 ∧
    (collS.inst (instKey (cdGROUP cD2) 0)).joined = [] ∧ (collS.inst (instKey (cdGROUP cD2) 0)).bad = false ∧
    (collS.inst (instKey (cdGROUP cD2) 0)).cancelled = false := by
  unfold State.issues; and_intros <;> decide +kernel

def sl (src : Nat) : CSlot :=
  { group := 2, inst := 0xFFFF, src := BitVec.ofNat 16 src, ofs := 0, len := 1, data := [⟨0x3F803F80, false⟩] }
def stl (src : Nat) : StatSlot :=
  { down := false, group := 2, inst := 0xFFFF, src := BitVec.ofNat 16 src, sum := 9, nonfin := false, ovf := false }
def gS (p : Nat) : State := grouped ready p
def gK : Nat := instKey 2 0xFFFF
theorem wit_CollectiveSlotsAreKept :
    ((sl 1).group.toNat < 4096 ∧ (gS 0).grpBad 2 = [] ∧ (gS 0).grpValid 2 = true ∧ ((gS 0).inst gK).joined = [] ∧
      ((gS 0).inst gK).cancelled = false ∧ ((gS 0).kids 2).contains (sl 1).src.toNat = true ∧
      ((gS 0).inst gK).rooted = false ∧ (∀ u ∈ ((gS 0).inst gK).ups, ¬ (u.src = (sl 1).src ∧ u.ofs = (sl 1).ofs))) ∧
    ((gS 1).grpBad 2 = [] ∧ (gS 1).grpValid 2 = true ∧ ((gS 1).inst gK).joined = [] ∧ (gS 1).parent 2 = some (sl 0).src.toNat ∧
      (∀ q ∈ ((gS 1).inst gK).downs, q.ofs ≠ (sl 0).ofs) ∧ ((gS 1).inst gK).left = [] ∧ (gS 1).ownMembers 2 ≠ []) ∧
    ((gS 0).kids 2).contains (sl 5).src.toNat = false ∧
    ((stl 1).down = false ∧ ∀ u ∈ ((gS 0).inst gK).stats, u.src ≠ (stl 1).src) ∧
    ((gS 0).parent 2 = none ∧ ((gS 0).inst gK).left = [] ∧ (gS 0).ownMembers 2 ≠ []) := by
  and_intros <;> decide +kernel

def mcS (fmt : Nat) : State :=
  ({ (grouped (task {}) 0).setColl 1 { id := 7, d0 := cD0, d1 := cD1, d2 := cD2 ||| (8 <<< 16), op := 0xC1 } with
    insts := [(instKey 1 0, { joined := [(0, 1)], op := 1, fmt := fmt, count := 0 })],
    time := { tb := 5000000 } } : State).fset F.CLV_CFG_TLIM 5
theorem wit_MembersComplete :
    (mcS 8).engineOf l0.key = some 0 ∧
    ((mcS 8).fget F.CLV_CFG_TLIM ≠ 0 ∧
      (mcS 8).fget F.CLV_CFG_TLIM * 1000000 ≤ ((mcS 8).now - ((mcS 8).coll 1).at_).toNat ∧ ((mcS 8).coll 1).id ≠ 0 ∧
      ((mcS 8).inst (instKey 1 0)).joined = [(((mcS 8).coll 1).member, 1)] ∧ ((mcS 8).inst (instKey 1 0)).left = []) ∧
    (((mcS 8).coll 1).inst = 0 ∧ cdGROUP ((mcS 8).coll 1).d2 = 1 ∧ (mcS 8).grpLocal 1 = true ∧ (mcS 8).grpNmem 1 = 1 ∧
      ((mcS 8).inst (instKey 1 0)).bad = false ∧ ((mcS 8).inst (instKey 1 0)).cancelled = false ∧
      ((mcS 8).inst (instKey 1 0)).hurt = false ∧ ((mcS 8).inst (instKey 1 0)).joined = [(0, 1)] ∧
      ((mcS 8).inst (instKey 1 0)).fmt = 8 ∧ ((mcS 8).inst (instKey 1 0)).op = 1 ∧
      (imageResult ((mcS 8).inst (instKey 1 0)) 1 0).isSome = true) := by
  and_intros <;> decide +kernel

def bs : BarSlot := { group := 2, bid := 7, cause := 3, step := 4, pkg := 1, time := 100 }
def jobS (p : Nat) (bars : List (BarId × Bar)) : State :=
  { tim ((grouped (task {}) p).fset F.CLV_CFG_JOBGRP 2) (fun t => { t with tb := 200 }) with bars := bars }
def xb : Bar := { count := 1, arr := [(0, 0)], kids := [(1, bs)], own := some bs }
def xr : Bar := { xb with rel := some 200 }
def xw : Bar := { xr with released := true }
theorem wit_BarrierSlotsAndWaves :
    ((jobS 0 []).bars = [] ∧ bs.group.toNat = (jobS 0 []).jobGrp ∧ ((jobS 0 []).kids (jobS 0 []).jobGrp).contains 1 = true) ∧
    ((jobS 1 [(.job 7, xb)]).bars = [(.job bs.bid, xb)] ∧ xb.rel = none ∧ xb.own.isSome = true ∧
      bs.group.toNat = (jobS 1 [(.job 7, xb)]).jobGrp) ∧
    (xb.up = false ∧ ((jobS 0 [(.job 7, xb)]).kids (jobS 0 [(.job 7, xb)]).jobGrp).contains 1 = true) ∧
    ((jobS 0 [(.package 7, xr)]).bars = [(.package 7, xr)] ∧ xr.released = false ∧ xr.rel = some 200 ∧
      200 ≤ (jobS 0 [(.package 7, xr)]).now.toNat) ∧
    (xw.released = true ∧ xw.rel = some 200 ∧
      200 + 0 * (jobS 0 [(.package 7, xw)]).fget F.CLV_WAVE_PERIOD ≤ (jobS 0 [(.package 7, xw)]).now.toNat ∧
      ∃ m ∈ xw.arr, (jobS 0 [(.package 7, xw)]).waveOf m.1 = 0) := by
  and_intros <;> decide +kernel

/-! ## Witnesses: the update -/

/-- An update list of one entry of 64 elements, and a rule set (R210, R211). -/
def ent1 : List (BitVec 64) := [0x10000, 0x20000, 64, 0, 0x40000, 0, 64, 64]
def rul1 : List (BitVec 32) :=
  [0x3F666666, 0x3F7FBE77, 0x322BCC77, 0x3C23D70A, 0x3F800000, 0, 0x00010400, 0, 0, 0, 1, 0, 0, 0, 0, 0]
def upay : Payload :=
  { P0 with w1 := 0xFFFF010000100000, w2 := (1 <<< 56) ||| (1 <<< 32), w3 := 0xFFFF010000110000,
            w4 := 0xFFFF010000120000, w5 := 0xFFFF010000130000 }
def upd1 : Upd :=
  { q := 0, seq := 9, pay := upay, ents := [ent1], rules := [(0, rul1)], sched := List.replicate 16 0x3F800000 }
def updc : Upd := { upd1 with clip := some [(0, 0x3F800000)] }
def rifs : State := [0, 1, 2, 3].foldl (fun s k => s.setRif k 1) qb
def normS : State :=
  { (rifs.store 0x10000110000 ⟨0x40800000, false⟩).store 0x10000110004 ⟨0, false⟩ with upd := some upd1 }
def k0 : ChunkId := ⟨0, 0, 0⟩
def ck : Chunk := { id := k0, buf := [(0x10000010000, ⟨5, false⟩)] }
def ck7 : Chunk := { id := ⟨0, 0, 7⟩, rif := 1 }
def updS (act owns : List Chunk) : State := { rifs with upd := some { updc with act := act }, owns := owns }
def rootS : State := { rifs with roots := [{ ent := 4095, unit := 7, fin := true }, { ent := 4095, unit := 7 }] }
theorem wit_UpdateSteps :
    (normS.upd = some upd1 ∧ upd1.clip = none ∧ upd1.halt = none ∧ upd1.skipped = false ∧ upd1.fin.length < upd1.total ∧
      (normVals upd1.step (normS.readG upd1.pay.w3 (2 * bits64 upd1.pay.w2 63 56)).1).all Option.isSome = true ∧
      r32 (((normVals upd1.step (normS.readG upd1.pay.w3 (2 * bits64 upd1.pay.w2 63 56)).1).filterMap fun v => v).foldl
        Machine.Num.add .zero) = f32 0x40800000 ∧ (f32 0x40800000).finite = true ∧ (f32 0x40800000).isNeg = false) ∧
    ((updS [] []).upd = some updc ∧ updc.clip.isSome = true ∧ updc.halt = none ∧ (updS [] []).chunkFree updc k0 = true ∧
      3 ≤ (updS [] []).rifCount ∧ (updS [] []).rifUp (homeOf k0.unit) = true ∧ (updS [] []).running = true ∧
      (updS [] []).power.l4 = false ∧ (updc.act.filter (·.rif == homeOf k0.unit)).length < (updS [] []).inflight ∧
      (updS [] []).awaitsRoot updc k0 = false ∧
      (updc.serve (updS [] []) (homeOf k0.unit) k0).1.isSome = true) ∧
    ([ck, ck7].find? (fun c => c.id == k0) = some ck ∧ ck.already = false ∧ (updS [ck, ck7] []).rifOut = []) ∧
    ((updS [ck7] [ck]).owns.find? (fun c => c.id == k0) = some ck ∧ [ck7] ≠ []) ∧
    (∀ x ∈ (updS [] []).roots, x.ent ≠ 0 ∨ x.unit ≠ 7 ∨ x.fin = true) ∧
    (rootS.roots[1]? = some { ent := 4095, unit := 7 } ∧
      ∀ x ∈ rootS.roots.take 1, x.ent ≠ (4095 : BitVec 12).toNat ∨ x.unit ≠ 7 ∨ x.fin = true) := by
  and_intros <;> decide +kernel

def rOut : State := { rifs.setRif 3 3 with rifOut := [(3, true)] }
theorem wit_RifflersLeaveAndReturn :
    (rifs.rifUp 3 = true ∧ rifs.upd = none ∧ rifs.roots = [] ∧ rifs.owns = []) ∧
    (rOut.fget (F.RIF_STATUS_STATE 3) = 3 ∧ rOut.rifEdgeOpen 3 = true ∧ rOut.gone.contains (0x10000 + 3) = false ∧
      rOut.rifDisabled 3 = false) := by
  and_intros <;> decide +kernel

/-! ## Witnesses: the command queues -/

def armQ : State := qb.setFlag (F.PLN_CQ_CFG_OWNER 15) true
theorem wit_NopAndPhaseWriteCommit :
    (∀ j, j < 8 → armQ.readable (armQ.recordAt 15 + 4 * j) = true) ∧
    (hdCMD (cmdH 0 9) = 0 ∧ armQ.accepts 15 (cmdH 0 9) P0) ∧
    (hdCMD (cmdH 0x0A 9) = 0x0A ∧ armQ.accepts 15 (cmdH 0x0A 9) { P0 with w1 := 0xFFFF030000000300, w2 := 0x80000000 } ∧
      armQ.flag (F.PLN_CQ_CFG_OWNER 15) = true ∧ (0x80000000#64).toNat % 2 ^ 30 = 0 ∧
      (0x80000000#64).toNat % 2 ^ 32 / 2 ^ 30 ≠ 3) := by
  unfold State.accepts; and_intros <;> decide +kernel

def lw2 : BitVec 64 := (1 <<< 0) ||| (1 <<< 4) ||| (1 <<< 28) ||| (3 <<< 44)
def launchP : Payload :=
  { P0 with w1 := 0xFFFF010000005000, w2 := lw2, w3 := 0x1111111122222222, w4 := 5, w5 := (1 <<< 16) ||| 3 }
def wt1 : WTask := { q := 0, seq := 3, l := 0, k := 3, prog := 77, s0 := 4 }
def wtS : State := { qb with wtasks := [wt1] }
def drS : State := (qb.setCtx 3 { st := .drain, task := some ⟨0, 5, false⟩ }).setCq 0 { infl := [{ hdr := cmdH 1 5, tasks := 1 }] }
theorem wit_TasksStartAndComplete :
    (hdCMD (cmdH 1 9) = 1 ∧ qb.accepts 0 (cmdH 1 9) launchP ∧ launchSlots launchP.w2 = [0] ∧
      bits64 launchP.w5 33 32 = 0 ∧ qb.wtasks = [] ∧ (qb.begun 0 (cmdH 1 9) launchP).targetCode 0 = none ∧
      (qb.begun 0 (cmdH 1 9) launchP).engineOf 0 = some 0 ∧ (qb.ctx (4 * 0 + bits64 launchP.w2 45 44)).st = .free ∧
      (qb.eng 0).stop = false ∧ (qb.eng 0).resetting = false) ∧
    (wtS.engineOf l0.key = some 0 ∧ wtS.wtasks.find? (fun w => w.l == l0.key && w.k == 3) = some wt1 ∧
      (wtS.ctx (4 * 0 + 3)).st = .free ∧ (wtS.eng 0).stop = false ∧ (wtS.eng 0).resetting = false) ∧
    ((drS.ctx 3).task = some ⟨0, 5, false⟩ ∧ (drS.ctx 3).st = .drain ∧ (drS.ctx 3).held = none ∧
      drS.drained e0.key 3 = true) := by
  unfold State.accepts; and_intros <;> decide +kernel

def semP : Payload := { P0 with w1 := (3 <<< 0) ||| (23 <<< 8) ||| (255 <<< 16) ||| (0xFFFF <<< 32) }
def schP : Payload := { P0 with w1 := 0xFFFF010000006000, w2 := 0x020F }
def schS : State :=
  (((qb.store 0x10000006000 ⟨0, false⟩).store 0x10000006004 ⟨0, false⟩).store 0x10000006008 ⟨10, false⟩).store
    0x1000000600C ⟨0x3F800000, false⟩
def rdSch : List MWord := ((schS.begun 0 (cmdH 5 9) schP).readG schP.w1 (2 * bits64 schP.w2 15 8)).1
theorem wit_SemaphoreAndStepCommands :
    (qb.accepts 0 (cmdH 2 9) semP ∧ hdCMD (cmdH 2 9) = 2 ∧ qb.waiters (256 * (semArgs semP).1 + (semArgs semP).2.1) = []) ∧
    (qb.accepts 0 (cmdH 3 9) semP ∧ hdCMD (cmdH 3 9) = 3 ∧
      qb.fget (F.STR_SEM_VALUE (semArgs semP).1 (semArgs semP).2.1) < (semArgs semP).2.2) ∧
    (qb.accepts 0 (cmdH 4 9) P0 ∧ hdCMD (cmdH 4 9) = 4) ∧
    (schS.accepts 0 (cmdH 5 9) schP ∧ hdCMD (cmdH 5 9) = 5 ∧ 2 ≤ bits64 schP.w2 15 8 ∧ bits64 schP.w2 15 8 ≤ 64 ∧
      (∀ w ∈ rdSch, w.p = false) ∧ bpsOk (bpsOf rdSch) = true) := by
  unfold State.accepts; and_intros <;> decide +kernel

/-- The update list, its norms and its rule set in memory. -/
def upS : State :=
  let s := ent1.zipIdx.foldl (fun s (p : BitVec 64 × Nat) => put64 s (0x10000100000 + 8 * p.2) p.1) rifs
  rul1.zipIdx.foldl (fun s (p : BitVec 32 × Nat) => s.store (0x10000130000 + 4 * p.2) ⟨p.1, false⟩) s
def upRd : List MWord × State := (upS.begun 0 (cmdH 9 9) upay).readG upay.w1 (16 * bits64 upay.w2 47 32)
def upEnts : List (List (BitVec 64)) := pieces 8 (bits64 upay.w2 47 32) (pairs64 upRd.1)
def upRules : List (Nat × List MWord) := (upRd.2.readRules upay.w5 (namedRules upEnts)).1
def P1 (w : BitVec 64) : Payload := { P0 with w1 := w }
def regP : Payload := { P0 with w1 := 0xFFFF030000000000 + BitVec.ofNat 64 Reg.SCT_SEED_LO, w2 := 5 }
def drnS : State :=
  { (qb.setCq 0 { infl := [{ hdr := cmdH 7 9, c1 := 0 }] }) with drains := [(0, 9, (0, 3, 23))] }
theorem wit_ControlCommands :
    (hdCMD (cmdH 6 9) = 6 ∧ qb.accepts 0 (cmdH 6 9) (P1 3) ∧ bits64 (P1 3).w1 31 0 ≠ (0 : Fin 16) ∧
      (qb.cq (bits64 (P1 3).w1 31 0)).read = [] ∧ (qb.cq (bits64 (P1 3).w1 31 0)).infl = []) ∧
    (hdCMD (cmdH 7 9) = 7 ∧ rifs.accepts 0 (cmdH 7 9) (P1 0x030002) ∧ rifs.rifUp 3 = true) ∧
    (hdCMD (cmdH 8 9) = 8 ∧ qb.accepts 0 (cmdH 8 9) (P1 0x170300)) ∧
    ((drnS.cmd? 0 9).isSome = true ∧ (drnS.cmd? 0 9).all (fun c => !c.done) = true ∧
      drnS.drains.find? (fun d => d.1 == 0 && d.2.1 == 9) = some (0, 9, (0, 3, 23)) ∧ drnS.fnTasks 0 3 23 = [] ∧
      drnS.wtasks = []) ∧
    (hdCMD (cmdH 0x0A 9) = 0x0A ∧ qb.accepts 0 (cmdH 0x0A 9) regP ∧
      (qb.begun 0 (cmdH 0x0A 9) regP).regOf regP = some Reg.SCT_SEED_LO ∧ Reg.SCT_SEED_LO ≠ Reg.PLN_PHASE ∧
      (qb.begun 0 (cmdH 0x0A 9) regP).regRefused ((qb.begun 0 (cmdH 0x0A 9) regP).queueReq 0) Reg.SCT_SEED_LO
        (regP.w2.truncate 32) = false) ∧
    (hdCMD (cmdH 9 9) = 9 ∧ upS.accepts 0 (cmdH 9 9) upay ∧ upS.upd = none ∧
      (upS.begun 0 (cmdH 9 9) upay).flag F.TST_STATUS_OOS = false ∧ 3 ≤ (upS.begun 0 (cmdH 9 9) upay).rifCount ∧
      updPayOk upay ((upS.begun 0 (cmdH 9 9) upay).reg Reg.SCT_STEP) = true ∧ bits64 upay.w2 63 56 ≠ 0 ∧
      (∀ w ∈ upRd.1, w.p = false) ∧ (∀ r ∈ upRules, ∀ w ∈ r.2, w.p = false) ∧ upEnts.all Ent.ok = true ∧
      ∀ r ∈ upRules.map (fun r => (r.1, r.2.map (·.v))), Rule.ok r.2 = true ∧ Rule.inRange r.2 = true) := by
  unfold State.accepts; and_intros <;> decide +kernel

def nopS : State := qb.setCq 0 { read := [(cmdH 0 9, P0), (cmdH 0 10, P0)] }
def doneS : State := qb.setCq 15 { infl := [{ hdr := cmdH 0 0xFFFFFFFF, done := true }] }
def waitC : Cmd := { hdr := cmdH 3 0x0000000200000009, pay := P1 0x000100000000 }
def waitS : State := (qb.setCq 0 { infl := [waitC] }).setWaiters 0 [.cmd 0 9 1, .cmd 1 9 1]
theorem wit_QueueTurnCommitTimeout :
    ((nopS.cq 0).read = (cmdH 0 9, P0) :: [(cmdH 0 10, P0)] ∧ hdCMD (cmdH 0 9) = 0 ∧ (nopS.cq 0).infl = [] ∧
      nopS.mayStart 0 (cmdH 0 9) = true ∧ (nopS.beginCmd 0 (cmdH 0 9) P0).malformed 0 (cmdH 0 9) P0 = false ∧
      nopS.fget (F.PLN_CQ_TAIL_TAIL 0) = nopS.fget (F.PLN_CQ_STATUS_HEAD 0)) ∧
    (doneS.drains = [] ∧ (doneS.cmd? 15 0xFFFFFFFF).isSome = true ∧ (doneS.cmd? 15 0xFFFFFFFF).all (·.done) = true ∧
      ∀ j, j < 8 → doneS.readable (doneS.recordAt 15 + 4 * j) = true) ∧
    (waitS.cmd? 0 9 = some waitC ∧ hdTLIM waitC.hdr ≠ 0 ∧ waitC.stop = none ∧ waitC.began = true ∧ waitC.done = false ∧
      hdCMD waitC.hdr = 3) := by
  and_intros <;> decide +kernel

def sysT (x : Ctx) : State := ready.setCtx 0 { x with st := .run, task := some { q := 0, seq := 0, sys := true } }
def capS : State := ready.setCtx 0 { st := .wait, why := 8, cap := some (255, 31), task := some { q := 0, seq := 0, sys := true } }
def wTc : BitVec 56 := 5 <<< 49
theorem sysT_scalar_free (x : Ctx) (k : Nat) : ((sysT x).eng c0.pos.key).scalarBusy c0.ctx.val k = false := rfl
theorem wit_SystemInstructions :
    (∀ k, ((sysT {}).eng c0.pos.key).scalarBusy c0.ctx.val k = false) ∧
    (sysT {}).issues c0 (0xE0#8 ++ wTc) (legalTRET (0xE0#8 ++ wTc) && ((sysT {}).ctx c0.key).task.any (·.sys)) ∧
    (sysT {}).issues c0 (0xE1#8 ++ wTc) (legalTCAP (0xE1#8 ++ wTc) && ((sysT {}).ctx c0.key).task.any (·.sys)) ∧
    ((capS.ctx c0.key).cap = some (255, 31) ∧ capS.othersIdle c0.pos.key c0.ctx.val = true ∧
      capS.canRun c0.pos.key = true ∧ (capS.ctx c0.key).st = .wait) := by
  refine ⟨sysT_scalar_free _, ?_⟩; unfold State.issues; and_intros <;> decide +kernel

/-! ## Witnesses: registers and windows -/

def hostLow : State := ready.setFlag F.SEC_POLICY_HOSTW false
theorem wit_RegisterFieldsTakeWrites :
    (Reg.SCT_CTRL ∈ [Reg.SCT_CTRL, Reg.FLT_CFG] ∧ (Reg.row Reg.SCT_CTRL).isSome = true ∧ ready.caps = []) ∧
    ((0xFFFFFFFF : BitVec 32) ≠ 0 ∧ hostLow.flag F.SEC_POLICY_HOSTW = false) := by
  and_intros <;> decide +kernel

/-- The window registers hold `w`, `w + 1` and so on. -/
def winS (w : BitVec 32) : State :=
  (List.range 16).foldl (fun s k => s.setReg (Reg.SCT_WIN_DATA k) (w + BitVec.ofNat 32 k)) (ready.setEntry 0x7FFF ven)
def grpS (w : BitVec 32) : State :=
  (List.range 8).foldl (fun s k => s.setReg (Reg.CLV_GRP_DATA k) (w + BitVec.ofNat 32 k)) ready
theorem wit_TableWindows :
    (winS 0).sctBad 0x7FFF = [] ∧ (winS 0).grpBad 0xFFF = [] ∧ winBad (winS 0).winImage = false ∧ winBad (winS 0xFFFFFFF0).winImage = true ∧
    ((grpS 0x7FFFFF00).reg (Reg.CLV_GRP_DATA 0)).getLsbD 31 = false := by and_intros <;> decide +kernel

/-- R185, R251: bit 0 of a group entry's word in error is corrected by the read, and its check bits are good again. -/
theorem test_group_corrected :
    let s : State := { ready with grp := [(24, 5)], grpEcc := [(24, BitVec.ofNat 7 (dataCols.getD 0 0))] }
    (s.checkGrp 3).grpW 3 0 = 4 ∧ s.grpBad 3 = [24] ∧ (s.checkGrp 3).grpBad 3 = [] := by decide +kernel

theorem wit_ActingRegisterWrites :
    ready.waiters (256 * uTop.key + (255 : BitVec 8).toNat) = [] ∧
    (ready.flag F.SCT_ADV_STATUS_BUSY = false ∧ ready.upd = none ∧ ready.recEn = false) ∧
    (ready.setFlag F.SCT_ADV_STATUS_BUSY true).flag F.SCT_ADV_STATUS_BUSY = true ∧
    ({ ready with upd := some {} } : State).upd.isSome = true ∧ (ready.setFlag F.SCT_CTRL_REC_EN true).recEn = true ∧
    (ready.flag (F.PLN_CQ_CFG_EN 15) = false ∧ (0x80D00000#32).getLsbD 31 = true ∧
      (0x80D00000#32).toNat / 2 ^ 20 % 16 ≤ 13 ∧ ready.fget (F.PLN_CQ_TAIL_TAIL 15) = ready.fget (F.PLN_CQ_STATUS_HEAD 15)) := by
  and_intros <;> decide +kernel

/-! ## Witnesses: Waipol -/

/-- Port 11 in a state, at its whole width, with its own record changed. -/
def prt (st : Nat) (f : Port → Port) : State :=
  ((ready.fset (F.WPL_STATUS_STATE 11) st).fset (F.WPL_STATUS_WIDTH 11) 2).modPort 11 f
def trn (n : Nat) : State := prt 3 fun x => { x with training := true, fails := n }
def chg (n : Nat) : State := prt 3 fun x => { x with charged := List.replicate n (0, 0) }
theorem wit_PortsTrain :
    ((prt 1 id).fget (F.WPL_STATUS_STATE 11) = 1 ∧ (prt 1 id).lret 11 = 0 ∧ ((prt 1 id).port 11).clrLanes = false ∧
      (1#2).toNat = (if 2 ≤ ((prt 1 id).port 11).peerGen ∧ 2 ≤ (prt 1 id).genMax 11 then 2 else 1)) ∧
    ((2#2).toNat = (if 2 ≤ ((prt 1 fun x => { x with peerGen := 2 }).port 11).peerGen ∧
      2 ≤ (prt 1 fun x => { x with peerGen := 2 }).genMax 11 then 2 else 1)) ∧
    (prt 2 id).linked 11 = true ∧ (prt 5 id).linked 11 = true ∧
    ((chg 1).linked 11 = true ∧ (chg 1).laneUsed 11 0 = true ∧ ((chg 1).port 11).training = false ∧
      widthOf ((chg 1).lret 11) ≠ none ∧ (((chg 1).recentCharges 11).filter fun c => c.1 == 0).length < 2) ∧
    (2 ≤ (((chg 2).recentCharges 11).filter fun c => c.1 == 0).length ∧ ((chg 2).lret 11).testBit 0 = false) ∧
    (((trn 0).port 11).training = true ∧ ((trn 0).port 11).clrLanes = false ∧ widthOf ((trn 0).lret 11) = some (2, 0)) ∧
    (((trn 1).port 11).fails < 2 ∧ 2 ≤ ((trn 2).port 11).fails) ∧
    ((prt 0 id).fget (F.WPL_STATUS_STATE 11) = 0 ∧
      ((prt 0 id).setFlag (F.WPL_CFG_EN 11) true).flag (F.WPL_CFG_EN 11) = true ∧
      6 ≤ (prt 0 id).fget F.PLN_BOOT_STEP ∧ ((prt 0 id).port 11).modFault = false ∧
      ((prt 0 fun x => { x with modFault := true }).port 11).modFault = true) ∧
    (7 ≤ (11 : Fin 12).val ∧ (prt 3 id).fget (F.WPL_STATUS_STATE 11) ≠ 6) ∧
    (((prt 3 fun x => { x with retry := [(0, 1, none)] }).port 11).retry ≠ [] ∧
      (prt 3 fun x => { x with retry := [(0, 1, none)] }).linked 11 = true ∧
      ((prt 3 fun x => { x with retry := [(0, 1, none)] }).port 11).training = false) := by
  and_intros <;> decide +kernel

def act : State := prt 3 id
def r0 : ReqSlot := ⟨0, 0, 1, 7, 0xFFFF010000005000⟩
def r63 : ReqSlot := ⟨0, 63, 1, 7, 0xFFFF010000005000⟩
/-- A data flit of 61 words and its CRC. -/
def dFlit (vc seq : Nat) : Flit :=
  let f : Flit := ⟨BitVec.ofNat 64 (2 * 2 ^ 62 + vc * 2 ^ 59 + seq * 2 ^ 48), 0, List.replicate 61 7, 0⟩
  { f with crc := crc32 (flitBytes f) }
def badFlit : Flit := { dFlit 1 1 with crc := ~~~(dFlit 1 1).crc }
theorem wit_FlitsAndRequests_crc : (∀ vc seq, flitPasses (dFlit vc seq) false = true) ∧ flitPasses badFlit false = false ∧
    bits64 badFlit.h 63 62 = 2 := by
  refine ⟨fun vc seq => by simp [flitPasses, dFlit, flitBytes], ?_, by decide +kernel⟩
  have h : ∀ x : BitVec 32, x ≠ ~~~x := fun x hx => by
    have := congrArg (fun y : BitVec 32 => y.getLsbD 0) hx
    simp at this
  simp [flitPasses, badFlit, dFlit, flitBytes, h]
def part1 : State := prt 3 fun x => { x with part := [(1, r0, List.replicate 15 ⟨0, false⟩)], rxSeq := 1023 }
def ackH : BitVec 64 := (1 <<< 37) ||| (5 <<< 38) ||| (7 <<< 33) ||| (63 <<< 27)
def retryS : State := prt 3 fun x => { x with retry := [(1, 1, none), (5, 5, none)] }
def authS : State := prt 3 fun x => { x with authAt := List.replicate 15 0 }
def rtx (wr : Bool) : RTx := { tag := 7, wr := wr, port := some 11, units := 1, id := 3, l := 4, slot := 5 }
def rspS : State := ({ act with rtx := [rtx false, rtx true] }).setXfer 29 { st := .active, id := 3 }
def rsp0 : Nat × List MWord × State := (act.takeSlot 11 (.req false r0 [])).serveRead 11 r0.addr 1
theorem wit_FlitsAndRequests :
    (bits64 (dFlit 7 1).h 63 62 = 2 ∧ act.carries 11 (bits64 (dFlit 7 1).h 61 59) = true ∧
      bits64 (dFlit 7 1).h 61 59 ≠ 0 ∧ bits64 (dFlit 7 1).h 57 48 = ((act.port 11).rxSeq + 1) % 1024 ∧
      ∀ q ∈ (act.port 11).part, q.1 ≠ 7) ∧
    (bits64 (dFlit 0 1).h 61 59 = 0 ∧ act.carries 11 0 = true ∧ act.writeWaits 11 = false) ∧
    (bits64 (dFlit 1 0).h 57 48 = ((part1.port 11).rxSeq + 1) % 1024 ∧ bits64 (dFlit 1 0).h 61 59 = 1 ∧
      part1.carries 11 1 = true ∧ (part1.port 11).part = [(1, r0, List.replicate 15 ⟨0, false⟩)] ∧
      16 * (r0.len.toNat % 64 + 1) - 15 ≤ (flitData (part1.port 11).enc (dFlit 1 0)).length) ∧
    bits64 (dFlit 1 5).h 57 48 ≠ ((act.port 11).rxSeq + 1) % 1024 ∧
    (bits64 ackH 63 62 = 0 ∧ bits64 ackH 36 36 = 0 ∧ retryS.linked 11 = true ∧ (retryS.port 11).training = false ∧
      (retryS.port 11).outq = [] ∧ bits64 ackH 37 37 = 1 ∧
      (retryS.port 11).retry.any (fun e => e.1 == bits64 ackH 47 38) = true) ∧
    (act.linked 11 = true ∧ (act.port 11).training = false ∧
      15 ≤ ((authS.port 11).authAt.filter fun t => decide (authS.now.toNat - t.toNat < 1000000000)).length) ∧
    (act.inWaits (r0.addr.toNat % 2 ^ 48) = false ∧ act.serves r0 = true ∧ (act.port 11).outq = [] ∧
      (Msg.rsp false (answer r0 rsp0.2.2.pkgId rsp0.1) rsp0.2.1).flits (act.port 11).enc ≤ (act.port 11).credits.getD 1 0 ∧
      (act.port 11).retry.length + (Msg.rsp false (answer r0 rsp0.2.2.pkgId rsp0.1) rsp0.2.1).flits (act.port 11).enc ≤
        64) ∧
    (act.serves r63 = true ∧ 16 * (r63.len.toNat % 64 + 1) ≤ (List.replicate 1024 (⟨0, false⟩ : MWord)).length ∧
      ([] : List MWord).length < 16 * (r63.len.toNat % 64 + 1)) ∧
    (rspS.carries 11 1 = true ∧ rspS.rtx.find? (fun y => y.tag == r0.tag.toNat && y.wr == false) = some (rtx false) ∧
      (rspS.xfer (6 * (rtx false).l + (rtx false).slot)).st ≠ .free ∧
      (rspS.xfer (6 * (rtx false).l + (rtx false).slot)).id = (rtx false).id ∧ rspS.engineOf (rtx false).l ≠ none ∧ (act.xfer 29).st = .free ∧
      rspS.rtx.find? (fun y => y.tag == r0.tag.toNat && y.wr == true) = some (rtx true)) := by
  and_intros <;> decide +kernel

/-- A hello of a host (kind 1) whose serial is not this package's; a neighbour entry accepts it at any port. -/
def hl (serial : BitVec 64) (rev : BitVec 8) (peer : BitVec 64) : Hello :=
  { kind := 1, id := 0, port := 6, gen := 0x21, rev := rev, flags := 0, serial := serial, peer := peer, fw := 0,
    fence := 0, hseq := 1 }
def nbS (st : Nat) (f : Port → Port) : State := (prt st f).putNbr 0 0 [0xEB000000, 0x50000000]
theorem wit_HellosAreJudged_quar :
    ((nbS 2 id).linked 11 = true ∧ ((nbS 2 id).port 11).training = false ∧ (nbS 2 id).active 11 = false ∧
      (nbS 2 id).heldQuar 11 = false ∧ ((nbS 2 id).port 11).swap = none) ∧
    (nbS 2 id).judge 11 (hl (nbS 2 id).serial 0 0) = .quar 1 := by
  refine ⟨?_, ?_⟩
  · and_intros <;> decide +kernel
  · simp [State.judge, hl]
theorem wit_HellosAreJudged_times :
    (nbS 2 id).fget (F.WPL_STATUS_STATE 11) ≠ 0 ∧ (nbS 2 id).linked 11 = true ∧ (nbS 2 id).fget (F.WPL_STATUS_STATE 11) = 2 ∧ ((nbS 2 id).port 11).heard = false ∧
    ((nbS 2 fun x => { x with heard := true, swap := some 3 }).port 11).swap.isSome = true ∧
    ((nbS 3 fun x => { x with heard := true }).linked 11 = true ∧
      ((nbS 3 fun x => { x with heard := true }).port 11).swap = none ∧
      ((nbS 3 fun x => { x with heard := true }).port 11).heard = true ∧
      (nbS 3 fun x => { x with heard := true }).fget (F.WPL_STATUS_STATE 11) ≠ 5) ∧
    ((nbS 3 fun x => { x with enc := true }).active 11 = true ∧ ((nbS 3 fun x => { x with enc := true }).port 11).enc = true ∧
      ((nbS 3 fun x => { x with enc := true }).port 11).training = false ∧ (2#8).toNat ≤ 2) ∧
    ((nbS 3 fun x => { x with keyed := true }).active 11 = true ∧
      ((nbS 3 fun x => { x with keyed := true }).port 11).keyed = true) := by
  and_intros <;> decide +kernel
theorem next_ne (x : BitVec 64) : x + 1 ≠ x := by
  intro h; have := congrArg BitVec.toNat h; simp [BitVec.toNat_add] at this; omega
/-- The parts of a hello's judgement that no opaque serial enters. -/
theorem nb_match (x : BitVec 64) : (nbS 2 id).nbrMatch 0 (hl x 0 (nbS 2 id).serial) = true := by
  have h : ∀ y z : BitVec 64, (nbS 2 id).nbrMatch 0 (hl y 0 z) = true := by
    intro y z
    have h1 : (nbS 2 id).nbrW 0 0 = 0xEB000000 := by decide +kernel
    have h2 : (nbS 2 id).nbrW 0 1 = 0x50000000 := by decide +kernel
    simp [State.nbrMatch, hl, h1, h2]
  exact h _ _
theorem wit_HellosAreJudged_go : (nbS 2 id).judge 11 (hl ((nbS 2 id).serial + 1) 0 (nbS 2 id).serial) = .go false false := by
  have hm := nb_match ((nbS 2 id).serial + 1)
  have hp : (nbS 2 id).nbrPort 0 = 11 := by decide +kernel
  have hg : (nbS 2 id).nbrGen 0 = 1 := by decide +kernel
  have hr : (nbS 2 id).fget F.WPL_REV_REV = 0 := by decide +kernel
  have ho : (nbS 2 id).fget F.WPL_STRAP_ID = 0 := by decide +kernel
  have hmem : 0 ∈ ((nbS 2 id).matches (hl ((nbS 2 id).serial + 1) 0 (nbS 2 id).serial)).filter
      (fun i => (nbS 2 id).nbrPort i == 11) := by
    simp only [State.matches, List.mem_filter, hm, hp]; decide
  have hany : (((nbS 2 id).matches (hl ((nbS 2 id).serial + 1) 0 (nbS 2 id).serial)).filter
      (fun i => (nbS 2 id).nbrPort i == 11)).any (fun i => decide ((nbS 2 id).nbrGen i ≤ 1)) = true :=
    List.any_eq_true.mpr ⟨0, hmem, by simp [hg]⟩
  have hw : (nbS 2 id).warn4 (hl ((nbS 2 id).serial + 1) 0 (nbS 2 id).serial) = false := by simp [State.warn4, hl]
  unfold State.judge
  simp only [hr, hw]
  rw [if_neg (by simp [hl]), if_neg (by simp [hl]), if_neg (by simp [hl]), if_neg (by simp),
    if_neg (by simp [State.strapBad, hl, ho])]
  rw [if_pos (by simpa [hl] using hany)]
def oneWay (h : Hello) : State := nbS 2 fun x => { x with heard := true, lastHello := some h }
theorem wit_HellosAreJudged_oneway : ∃ h, ((oneWay h).port 11).lastHello = some h ∧ ((oneWay h).port 11).heard = true ∧
    h.peer ≠ (oneWay h).serial ∧ ((oneWay h).port 11).swap = none := by
  refine ⟨hl 0 0 ((nbS 2 id).serial + 1), ?_, ?_, ?_, ?_⟩
  · rfl
  · decide +kernel
  · exact next_ne _
  · decide +kernel

def nbW (s : State) : List (BitVec 32) := (List.range 4).map fun k => s.reg (Reg.WPL_NBR_DATA k)
def nbD (w0 w1 : BitVec 32) : State := (ready.setReg (Reg.WPL_NBR_DATA 0) w0).setReg (Reg.WPL_NBR_DATA 1) w1
def noAuto : State := ready.setFlag F.WPL_DISC_CFG_AUTO false
theorem wit_NeighbourAndFaultWindows :
    nbrOk (nbW (nbD 0xE0000001 0x10000000)) = true ∧ nbrOk (nbW (nbD 0xFFFFFFFF 0xFFFFFFFF)) = false ∧
    (noAuto.flag F.WPL_DISC_CFG_AUTO = false ∧ noAuto.flag F.WPL_DISC_CFG_LOCK = false ∧
      (0x10000000#32).getLsbD 28 = true) ∧
    ready.fltBad 2 255 = [] ∧ ready.fltBad 2 256 = [] ∧
    (ready.fltRead 2 255).isSome = true ∧ ready.fltRead 2 256 = none ∧ (255#28).toNat < 256 ∧ 256 ≤ (256#28).toNat := by
  and_intros <;> decide +kernel

/-! ## Witnesses: timebase, clocks and power -/

def led : State := (ready.fset F.CLV_TB_CFG_ROLE 1).fset F.CLV_TB_PEER_ID 9
def x0 : TimeSlot := { seq := 0xFFFF, src := 9, corr := 3, time := 100, stamp := 40 }
def armed (now arm : Nat) : State :=
  ((tim ready fun t => { t with tb := BitVec.ofNat 64 now, run := true }).setReg Reg.CLV_TB_ARM_LO
    (BitVec.ofNat 32 arm)).setFlag F.CLV_TB_CFG_ARM true
def aligned : State := ready.setFlag F.CLV_TB_STATUS_ALIGNED true
def exS : State := tim led fun t => { t with ex := { seq := 0xFFFF, t1 := some 1, t2 := some 9, t3 := some 11 }, offs := [3] }
def adjS (ph : Int) (ok : Bool) : State := (tim led fun t => { t with adj := some (0, ph, 7) }).setFlag F.CLV_TB_CFG_STEP_OK ok
def dly (n : Nat) : State := (armed 77 77).fset F.CLV_TB_CFG_SYNC_DLY n
theorem wit_TimebaseKeepsTime :
    ((dly 7).flag F.CLV_TB_CFG_ARM = true ∧ (dly 7).fget F.CLV_TB_CFG_SYNC_DLY < 8 ∧
      (dly 7).flag F.CLV_TB_STATUS_ALIGNED = false ∧ (dly 8).flag F.CLV_TB_CFG_ARM = true ∧
      8 ≤ (dly 8).fget F.CLV_TB_CFG_SYNC_DLY) ∧
    ((armed 77 77).flag F.CLV_TB_CFG_ARM = true ∧
      (armed 77 77).now.toNat ≤ ((armed 77 77).reg64 Reg.CLV_TB_ARM_LO Reg.CLV_TB_ARM_HI).toNat) ∧
    ((armed 77 76).flag F.CLV_TB_CFG_ARM = true ∧
      ((armed 77 76).reg64 Reg.CLV_TB_ARM_LO Reg.CLV_TB_ARM_HI).toNat < (armed 77 76).now.toNat) ∧
    (aligned.flag F.CLV_TB_CFG_ARM = false ∧ aligned.flag F.CLV_TB_STATUS_ALIGNED = true ∧ (-2 : Int) ≤ 2 ∧ (2 : Int) < 3) ∧
    led.leader = true ∧ led.fromUpstream x0 = true ∧
    (exS.time.ex.seq = x0.seq.toNat ∧ exS.time.ex.t1 = some 1 ∧ exS.time.ex.t2 = some 9 ∧ exS.time.ex.t3 = some 11) ∧
    led.fget F.CLV_TB_CFG_ROLE ≠ 0 ∧ (exS.leader = true ∧ exS.time.offs ≠ []) ∧
    ((adjS 5 true).time.adj = some (0, 5, 7) ∧ (0 : BitVec 64).toNat ≤ (adjS 5 true).now.toNat ∧
      (adjS 5 true).flag F.CLV_TB_CFG_STEP_OK = true) ∧
    ((adjS (-5) true).time.adj = some (0, -5, 7) ∧ (adjS 5 false).flag F.CLV_TB_CFG_STEP_OK = false) := by
  and_intros <;> decide +kernel

def hel (v err : Nat) : State := (ready.fset (F.HEL_STATUS_VOUT 3) v).fset (F.HEL_STATUS_ERR 3) err
def col (st : Nat) (ws : List Int) : State := (pow ready fun p => { p with refWin := ws }).fset F.COL_STATUS_STATE st
def swS : State := (pow ready fun p => { p with target := 0 }).fset (F.HEL_STATUS_STEP 3) 15
theorem wit_HeliostatsAndReference :
    (ready.power.railsUp = true ∧ ready.dieQ 3 = false ∧ 550 ≤ (hel 550 0).fget (F.HEL_STATUS_VOUT 3)) ∧
    ((hel 850 0xFCD).fget (F.HEL_STATUS_VOUT 3) = 850 ∧ signed 12 ((hel 850 0xFCD).fget (F.HEL_STATUS_ERR 3)) < -50) ∧
    (ready.stepNow ≤ 15 ∧ (pow ready fun p => { p with target := 9 }).stepNow ≠ 9 ∧ ready.fget F.DIA_PSTATE_STATE < 2) ∧
    ready.stepNow = (pow ready fun p => { p with target := ready.stepNow }).power.target ∧
    2 ≤ (ready.fset F.DIA_PSTATE_STATE 2).fget F.DIA_PSTATE_STATE ∧ (swS.power.target < swS.fget (F.HEL_STATUS_STEP 3) ∧ swS.dieQ 3 = false) ∧
    ((col 1 (List.replicate 15 0)).refBand 0 = true ∧ (col 1 (List.replicate 15 0)).fget F.COL_STATUS_STATE = 1 ∧
      refPass (((col 1 (List.replicate 15 0)).power.refWin ++ [0]).drop
        (((col 1 (List.replicate 15 0)).power.refWin ++ [0]).length - 16)) = true) ∧
    ((col 4 []).refBand 0 = true ∧ (col 4 []).fget F.COL_STATUS_STATE = 4) ∧
    (col 2 []).fget F.COL_STATUS_STATE = 2 ∧ (col 3 []).fget F.COL_STATUS_STATE = 3 ∧
    refPass (col 4 (List.replicate 16 0)).power.refWin = true ∧
    ((ready.setFlag F.COL_FCNT_CTRL_START true).flag F.COL_FCNT_CTRL_START = true ∧ selOk 0 = true ∧ selOk 255 = false) := by
  and_intros <;> decide +kernel

def est (c : Nat) : PowerEst := ready.weigh ⟨[c], [0], [0], [0], [0], [0], 0⟩
def giveS (c : Nat) : Nat :=
  (share (1000 * ready.capW) (ready.demands [c, 0, 0]) ([0, 1, 2].map fun k => 1000 * ready.fget (F.DIA_MIN_W k))
    ready.prio).getD 0 0
theorem wit_PowerCapIsKept :
    103 * giveS 3000000 < 100 * 3000000 ∧ ready.flag F.DIA_CAP_LOCK = false ∧
    (ready.setFlag F.DIA_CAP_LOCK true).flag F.DIA_CAP_LOCK = true ∧ [0, 1, 2].all [2, 1, 0].contains = true ∧
    [0, 1, 2].all [3, 1, 0].contains = false ∧
    (([0, 1, 2].filter (· ≠ 2)).map fun k => ready.fget (F.DIA_MIN_W k)).sum + 0 ≤ min 1000 ready.capW ∧
    min 1000 ready.capW < (([0, 1, 2].filter (· ≠ 2)).map fun k => ready.fget (F.DIA_MIN_W k)).sum + 4095 := by
  and_intros <;> decide +kernel

def pacel : State := pow ready fun p => { p with paceLow := true }
def hot (t : Nat) : State := ready.fset F.DIA_THERM_TMAX t
theorem wit_PaceAndTemperature :
    (ready.power.paceLow = false ∧ ready.power.judged = true ∧ ready.power.droopL2 ≤ 15) ∧ pacel.power.paceLow = true ∧
    (499 < 500 ∧ 5000 ≤ 5000 ∧ 5000 < 5001 ∧ 60000 ≤ 60000 ∧ 60000 < 60001 ∧ 99999 < 100000) ∧
    (ready.excl.contains (1023 : BitVec 10).toNat = false ∧ ready.gone.contains (1023 : BitVec 10).toNat = false) ∧
    400 ≤ signed 16 ((hot 400).fget F.DIA_THERM_TMAX) ∧
    (signed 16 ((hot 387).fget F.DIA_THERM_TMAX) < 388 ∧ (hot 387).power.parkTherm = false) := by
  and_intros <;> decide +kernel

def trip : State := ready.setFlag F.DIA_STATUS_TRIPPED true
def estop (low : Bool) : State := (pow ready fun p => { p with paceLow := low }).setFlag F.DIA_STATUS_ESTOP true
def l4S (low : Bool) : State := pow ready fun p => { p with l4 := true, pwrfailLow := low, sag := 3 }
theorem wit_StopsAndSag :
    (ready.power.railsUp = true ∧ ready.caps = [] ∧ ready.arithPend = []) ∧ (pacel.power.paceLow = true ∧ pacel.power.railsUp = true) ∧
    (trip.stopped = true ∧ (trip.flag F.DIA_STATUS_TRIPPED && decide (380 ≤ signed 16 (trip.fget F.DIA_THERM_TMAX))) = false ∧
      (trip.flag F.DIA_STATUS_ESTOP && trip.power.paceLow) = false) ∧
    ready.stopped = false ∧ ((estop true).flag F.DIA_STATUS_ESTOP && (estop true).power.paceLow) = true ∧
    ((trip.fset F.DIA_THERM_TMAX 380).flag F.DIA_STATUS_TRIPPED &&
      decide (380 ≤ signed 16 ((trip.fset F.DIA_THERM_TMAX 380).fget F.DIA_THERM_TMAX))) = true ∧
    (ready.power.sag.getLsbD 1 = false ∧ ready.power.sag.getLsbD 2 = false ∧ ready.power.l4 = false) ∧
    ((pow ready fun p => { p with sag := 7 }).power.sag.getLsbD 1 = true ∧
      (pow ready fun p => { p with sag := 7 }).power.sag.getLsbD 2 = true) ∧
    (ready.power.judged = true ∧ ready.power.pwrfailLow = false) ∧
    ((l4S false).power.l4 = true ∧ (l4S false).power.pwrfailLow = false) := by
  and_intros <;> decide +kernel

def pst (n : Nat) : State := ready.fset F.DIA_PSTATE_STATE n
theorem wit_PowerStates :
    ((pst 0).fget F.DIA_PSTATE_STATE = 0 ∧ ∀ p ∈ (pst 0).engines, p.2.runA = none ∧ p.2.runB = none ∧ p.2.runV = none) ∧
    ((pst 1).fget F.DIA_PSTATE_STATE = 1 ∧ (pst 1).running = true) ∧
    ((pst 1).anyBegun = false ∧ (pst 1).power.l4 = false ∧ (pst 1).stopped = false) ∧
    2 ≤ (pst 2).fget F.DIA_PSTATE_STATE ∧
    ((pst 2).fget F.DIA_PSTATE_STATE = 2 ∧ (pst 2).stopped = false ∧ (pst 2).power.l4 = false ∧ (pst 2).caps = [] ∧
      (pst 2).arithPend = []) ∧
    (pst 3).fget F.DIA_PSTATE_STATE ≠ 2 ∧ ((pst 3).fget F.DIA_PSTATE_STATE = 3 ∧ (pst 3).fget F.PLN_BOOT_FAIL ≠ 3) := by
  and_intros <;> decide +kernel

/-! ## Witnesses: faults, repair and resets -/

def badAcc : State := (runS tmE).setEl 0 0 1023 { w := 3, res := 2 }
def vrun : State := full2.setEng 0 { runV := some rd2 }
def cInst : State := ready.setInst (instKey 0xFFF 0xFFFF) { joined := [(0, 0)], op := 3 }
def exclS : State := { ready with excl := [1023] }
theorem wit_FaultsAreDetected :
    ((((runS tmE).eng e0.key).inUnit .a = some tmE ∧ accOf tmE.w .a = some 0) ∧ (badAcc.eng e0.key).inUnit .a = some tmE ∧
      badAcc.residueBad e0.key 0 = some (1023, 1)) ∧
    ((1 : BitVec 6) ≠ 0 ∧ (62 : BitVec 6) ≠ 63 ∧ (vrun.eng e0.key).runV = some rd2 ∧ vecOp rd2.w = true) ∧
    ((cInst.inst (instKey 0xFFF 0xFFFF)).joined ≠ [] ∧ (cInst.inst (instKey 0xFFF 0xFFFF)).op = 3 ∧
      (cInst.inst (instKey 0xFFF 0xFFFF)).rooted = false) ∧
    (rifs.rifUp 3 = true ∧ rifs.upd = none ∧ rifs.roots = []) ∧
    ((0x8000 : BitVec 16).getLsbD 15 = true ∧ armQ.flag (F.PLN_CQ_CFG_OWNER 15) = true ∧
      armQ.flag (F.PLN_CQ_STATUS_HALT 15) = false) ∧
    (ready.gone.contains 1023 = false ∧ ready.excl.contains 1023 = false ∧ exclS.excl.contains 1023 = true ∧
      exclS.isPermanent { cls := 0x0F, unit := sensorUnit 1023, sig := BitVec.ofNat 32 1023 } = false) ∧ ready.power.auxUp = true := by
  and_intros <;> decide +kernel

theorem wit_FaultsAreDetected_good : (full2.setEng 0 { runA := some tmE }).residueBad e0.key 0 = none := by decide +kernel

def cs (b : Bool) : CapSlot := { unit := engineUnit 0, sig := 5, cls := 1, cap := { w := tmE.w }, running := b, ref := 1 }
def repS (b : Bool) : State := { ready with caps := [(15, cs b)] }.setRot 0 { phase := .testing, x := (cs b).eng, s := 16 }
def wbS : State := { ready with wback := [(0x1400, true), (0x1400, false)] }
def synS (y : BitVec 7) : State :=
  { ready.setFlag F.MEM_SCRUB_EN true with ecc := if y = 0 then [] else [(0x1400, y)] }
def lpArm (tag : Nat) (ps : List (BitVec 16 × BitVec 16)) : State :=
  (ready.setLpW 255 8 0x10005).setLoupe 0 { armed := some (0, 1, tag), queued := some (1, 2, 3), sample := some (tag, ps) }
def lpBad : State := { lpArm 9 [] with hist := [{ cls := 6, disp := 2, unit := cluUnit 0 }] }
theorem wit_ReplaysScrubAndLoupe :
    (lookup (repS false).caps 15 = some (cs false) ∧ (repS false).replayOff (cs false).eng = false ∧
      (cs false).running = false ∧ ((repS false).rot ((cs false).eng / 17)).phase = .testing ∧
      ((repS false).rot ((cs false).eng / 17)).test = false ∧
      ((repS false).rot ((cs false).eng / 17)).x = (cs false).eng ∧ (repS false).refEngine (cs false).eng = some 1) ∧
    (lookup (repS true).caps 15 = some (cs true) ∧ (cs true).running = true) ∧
    (wbS.wback.find? (fun p => p.1 == (0x5000 : BitVec 48).toNat / 4) = some (0x1400, true) ∧
      wbS.readable (4 * 0x1400) = true) ∧
    ((synS 0).flag F.MEM_SCRUB_EN = true ∧ inTier .hbm ((synS 0).locate 0x5000) = true ∧ (synS 0).memWaits 0x5000 = false ∧
      (synS 0).hole ((synS 0).locate 0x5000) = false ∧ (∀ d : Fin 4, (synS 0).flag (F.MEM_SRAM_STATUS_BUSY d) = false)) ∧
    (synOf ((synS 0).syn 0x5000) = .good ∧ synOf ((synS 1).syn 0x5000) = .check ∧ synOf ((synS 3).syn 0x5000) = .bad) ∧
    ((ready.loupe u0.key).armed = none ∧ (ready.eng e0.key).loupeHold = false ∧ ready.sampling = true) ∧
    (((lpArm 9 []).loupe u0.key).sample = some (9, []) ∧ (lpArm 9 []).sampling = true ∧
      (lpArm 9 []).checkerStands u0.key = false ∧ lpBad.checkerStands u0.key = true ∧ (lpArm 9 []).lpEcc = [] ∧
      (lpArm 9 []).lpOf 9 = none) ∧
    ((lpArm 5 [(0x3F80, 0x3F80)]).lpEcc = [] ∧ (lpArm 5 [(0x3F80, 0x3F80)]).lpOf 5 = some 255 ∧ (binOf 0x3F80 0x3F80).isSome = true ∧ binOf 0x7F80 0 = none) := by
  and_intros <;> decide +kernel

/-- Cluster 95 with its slots bound and engine 16 spare, and its rotation. -/
def rotS (r : Rot) : State :=
  let s := [(0, 0), (15, 15)].foldl (fun (s : State) (p : Nat × Nat) => s.bind (1520 + p.1) (some (1615 + p.2)))
    (ready.setSpare 95 (some 1631))
  (s.setFlag F.TST_CFG_EN true).setRot 95 r
def ph (p : RotPhase) : Rot := { phase := p, x := 1615, s := 1631, slot := 1520 }
def drain0 (s : State) : State := s.setCtx (4 * 1615) { st := .drain, task := some {} }
def bar0 (s : State) : State := s.setCtx (4 * 1615) { st := .wait, why := 2, task := some {} }
def owed (u : BitVec 32) : State := { rotS {} with retire := [u] }
def copied : State := (((rotS (ph .copied)).settle 1615).copyEngine 1615 1631)
def modS (e : Nat) (bad : BitVec 34) : State :=
  ({ ready with modBad := [(e, bad)], modWait := [e] } : State).fset (F.PLN_EDGE_STATUS_STATE e) 1
def capRotS : State := sec { rotS { ph .testing with test := true } with capsules := [(3, { size := 64, enabled := true })] } fun x => { x with life := 2 }
theorem wit_RotationAndRetirement_rotation :
    (ready.setFlag F.TST_CFG_EN false).rotSuspended uTop.key = true ∧
    ((rotS (ph .grace)).rot uTop.key).phase ≠ .idle ∧
    ((rotS {}).rotSuspended uTop.key = false ∧ ((rotS {}).rot uTop.key).phase = .idle ∧
      (rotS {}).nextTested uTop.key = some (1615, 1520) ∧ (rotS {}).spareOf uTop.key = some 1631) ∧
    ((drain0 (rotS (ph .grace))).rot uTop.key).phase = .grace ∧ (drain0 (rotS (ph .grace))).drains? 1615 = true ∧
    (rotS (ph .grace)).drains? 1615 = false ∧
    (((drain0 (rotS { ph .grace with drainOver := true })).rot uTop.key).drainOver = true ∧
      (drain0 (rotS { ph .grace with drainOver := true })).drains? 1615 = true) ∧
    ((bar0 (rotS (ph .grace))).engineOf (16 * uTop.key + 0) = some 1615 ∧
      (bar0 (rotS (ph .grace))).spareOf uTop.key = some 1631 ∧ (bar0 (rotS (ph .grace))).atBarrier 1615 = true ∧
      ((bar0 (rotS (ph .grace))).eng 1615).quiet = true) ∧
    ((owed (engineUnit 1615)).engineOf (16 * uTop.key + 0) = some 1615 ∧ (owed (engineUnit 1615)).spareOf uTop.key = some 1631 ∧
      ((owed (engineUnit 1615)).rot uTop.key).phase = .idle ∧
      (owed (engineUnit 1615)).retire.contains (engineUnit 1615) = true) ∧
    (((rotS (ph .stopped)).rot uTop.key).phase = .stopped ∧ ((rotS (ph .stopped)).eng 1615).quiet = true) ∧
    (((rotS (ph .copied)).rot uTop.key).phase = .copied ∧ (ph .copied).test = false ∧
      (rotS (ph .copied)).retire.contains (engineUnit 1615) = false ∧
      ({ rotS (ph .copied) with retire := [engineUnit 1615] } : State).retire.contains (engineUnit 1615) = true ∧
      (ph .copied).slot / 16 = uTop.key ∧
      (ph .copied).s / 17 = uTop.key ∧ (ph .copied).x / 17 = uTop.key ∧
      ∀ k, k < 4 → (copied.ctx (4 * 1631 + k)).held = none) ∧
    (((rotS { ph .testing with test := true }).rot uTop.key).phase = .testing ∧
      ((rotS { ph .testing with test := true }).rot uTop.key).test = true ∧
      (rotS { ph .testing with test := true }).capFails 1615 = none ∧
      (rotS { ph .testing with test := true }).capRuns 3 = false ∧ capRotS.capRuns 3 = true) := by
  and_intros <;> decide +kernel
theorem wit_RotationAndRetirement_units :
    ((owed 0x70000005).retire.contains 0x70000005 = true ∧ (0x70000005 : BitVec 32).toNat / 2 ^ 28 = 7 ∧
      (0, 5) ∉ (owed 0x70000005).granSpare ∧ (0, 5) ∉ (owed 0x70000005).granDead ∧
      ((owed 0x70000005).granSpare.filter fun x => x.1 == 0).length < 64) ∧
    ((owed 0xC00003FF).retire.contains 0xC00003FF = true ∧ (0xC00003FF : BitVec 32).toNat / 2 ^ 28 = 12) ∧
    ((modS 11 0).edgeUp 11 = true ∧ (8 : BitVec 6).toNat < (edgeMods 11).1 ∧
      ((modS 11 0).badMods 11).getLsbD (8 : BitVec 6).toNat = false ∧ (edgeMods 11).2 < (modS 11 0).goodMods 11) ∧
    ((modS 11 1).modWait.contains 11 = true ∧ (edgeMods 11).2 ≤ (modS 11 1).goodMods 11) ∧
    ((7 : Fin 32).val < chans 23 ∧ (23, 7) ∉ ready.chReset) ∧ ready.running = true := by
  and_intros <;> decide +kernel

def rsS (f : List (Nat × List (BitVec 32))) : State := { ready.setEng 1631 { resetting := true } with resetFail := f }
theorem wit_ResetsClearAndKeep :
    (((rsS []).eng eTop.key).resetting = true ∧
      recent (rsS []).svc 60 (Sparse.get (fun _ => []) (rsS []).resetFail (eTop.key / 17)) = []) ∧
    (prt 3 id).fget (F.WPL_STATUS_STATE 11) ≠ 6 ∧ (rifs.rifUp 3 = true ∧ rifs.upd = none ∧ rifs.roots = []) ∧
    (ready.fget F.MEM_CFG_ILV = ready.fget F.MEM_CFG_ILV_ACT ∧ ready.caps = [] ∧ ready.arithPend = []) := by and_intros <;> decide +kernel

def lifeS (n : Nat) : State := sec ready fun x => { x with life := n }
def busyS (act : Nat) : State := (ready.setFlag (F.MEM_SRAM_STATUS_BUSY 3) true).fset (F.MEM_SRAM_STATUS_ACT 3) act
theorem wit_CapsulesDumpsMarginsAndScratch :
    (lifeS 3).capLife = true ∧ (lifeS 0).capLife = false ∧
    (ready.flag (F.MEM_SRAM_STATUS_BUSY 3) = false ∧ (12 : BitVec 32).toNat % 16 ≤ 12) ∧
    (12 < (13 : BitVec 32).toNat % 16 ∧ (busyS 12).flag (F.MEM_SRAM_STATUS_BUSY 3) = true) ∧
    (busyS 12).cache.any (fun x => x.die == 3) = false := by and_intros <;> decide +kernel

/-! ## Witnesses: start-up, ports and security -/

def facet (n : Nat) (j : Bool) : State := (pow (atStep 3) fun p => { p with judged := j }).fset F.PLN_FACET_PHASE n
def noFw (n : Nat) : State := sec (atStep n) fun x => { x with isl := [{}, {}], arm := [{}, {}] }
def relS : State := sec (atStep 7) fun x => { x with relDies := 15 }
def cold (b : Bool) : State := pow (atStep 9) fun p => { p with cold := b }
def calib (b : Bool) : State := pow (atStep 10) fun p => { p with calib := b }
theorem wit_StartUpOrder :
    State.reset.power.auxUp = false ∧ (atStep 1).fget F.PLN_BOOT_STEP = 1 ∧
    (3 ≤ (facet 0 true).fget F.PLN_BOOT_STEP ∧ (facet 0 true).fget F.PLN_FACET_PHASE = 0) ∧
    ((facet 1 false).fget F.PLN_FACET_PHASE ≠ 0 ∧ (facet 1 false).power.judged = false) ∧
    ((atStep 3).sec.recovering = false ∧ (atStep 3).slotOk false ((atStep 3).fget F.SEC_BOOT_ISL_SLOT) = true) ∧
    ((noFw 3).slotOk false 0 = false ∧ (noFw 3).slotOk false 1 = false) ∧
    ((atStep 5).fget F.PLN_BOOT_STEP = 5 ∧ (atStep 5).power.pwrfailLow = false ∧ (atStep 5).dieQ 3 = false) ∧
    ((atStep 6).fget F.PLN_BOOT_STEP = 6 ∧ (atStep 6).power.railsUp = true ∧
      (atStep 6).slotOk true ((atStep 6).fget F.SEC_BOOT_ARM_SLOT) = true) ∧
    ((noFw 6).slotOk true 0 = false ∧ (noFw 6).slotOk true 1 = false) ∧
    ((atStep 7).fget F.PLN_BOOT_STEP = 7 ∧ ((atStep 7).fget F.PLN_BOOT_DIEPASS).testBit 3 = false ∧ (atStep 7).dieQ 3 = false ∧
      relS.sec.relDies.getLsbD 3 = true) ∧
    ((atStep 8).fget F.PLN_BOOT_STEP = 8 ∧ (atStep 8).fget (F.PLN_EDGE_STATUS_STATE 11) = 0 ∧
      (atStep 8).goodMods 11 = (9 : BitVec 6).toNat) ∧
    ((atStep 9).fget F.PLN_BOOT_STEP = 9 ∧ (atStep 9).fget (F.MEM_H_STATUS_STATE 15) ≠ 3 ∧ (atStep 9).dieQ 3 = false ∧
      (cold true).power.cold = true ∧ (cold false).power.cold = false) ∧
    ((calib false).fget F.PLN_BOOT_STEP = 10 ∧ (calib false).power.calib = false ∧ (calib false).stopped = false) ∧
    (calib true).power.calib = true := by and_intros <;> decide +kernel

def hostS : State :=
  ((pow ready fun p => { p with perstLow := false }).setFlag F.PLN_HOST_UP true).setFlag (F.PLN_CQ_CFG_OWNER 15) false
theorem wit_HostPort :
    (hostS.power.perstLow = false ∧ hostS.flag (F.PLN_CQ_CFG_OWNER 15) = false ∧
      hostS.flag (F.PLN_CQ_STATUS_HALT 15) = false ∧ hostS.power.railsUp = true ∧ 6 ≤ hostS.fget F.PLN_BOOT_STEP) ∧
    ((6 : BitVec 3) ≠ 0 ∧ (6 : BitVec 3) ≠ 7 ∧ (16 : BitVec 5).toNat ∈ [4, 8, 16]) ∧ hostS.flag F.PLN_HOST_UP = true ∧
    ((0x10000000000 : BitVec 48).toNat / 4 * 4 < 0x30000000000 ∧ hostS.hostWaits 0x10000000000 1 = false ∧
      hostS.readable 0x10000000000 = true) ∧
    (0xFFFF : BitVec 48).toNat / 4 * 4 < 0x10000 := by and_intros <;> decide +kernel

def bus (a : BitVec 64) : State := sec (ready.fset F.PLN_MGMT_MODE 2) fun x => { x with mgmtAddr := a }
def regA (k : Nat) : BitVec 64 := BitVec.ofNat 64 (0xFFFF030000000000 + k)
def recS : State := sec (bus 0) fun x => { x with recovering := true }
def fn (a p : Nat) : State := (ready.fset F.PLN_FAULTN_ACTIVE a).fset F.PLN_FAULTN_PENDING p
def tap : State := ((ready.fset F.DBG_LEVEL_LEVEL 2).setFlag F.DBG_LEVEL_FACET true).setEng 1631 { halted := true }
theorem wit_ManagementAndTestPorts :
    ((bus 0).busUp = true ∧ (bus 0).fget F.PLN_MGMT_MODE = 2) ∧
    (bus (regA Reg.PLN_PKG_ID)).busReg (bus (regA Reg.PLN_PKG_ID)).sec.mgmtAddr = some Reg.PLN_PKG_ID ∧
    (bus (regA Reg.SEC_ADDR_LO)).busReg (bus (regA Reg.SEC_ADDR_LO)).sec.mgmtAddr = some Reg.SEC_ADDR_LO ∧
    (recS.sec.recovering = true ∧ (List.replicate 32 (0 : BitVec 8)).length ≤ 32) ∧
    (ready.busUp = true ∧ ready.fget F.PLN_MGMT_MODE ≠ 2) ∧
    ((fn 4 3).fget F.PLN_FAULTN_ACTIVE ≠ 0 ∧ ((fn 4 3).setFlag F.TST_STATUS_OOS true).flag F.TST_STATUS_OOS = true) ∧
    ((fn 1 13).flag F.TST_STATUS_OOS = false ∧ (fn 1 13).flag F.PLN_FAULTN_HELD = false ∧ (fn 1 13).topPending = some 4 ∧
      (fn 1 0).topPending = none) ∧
    ready.tapOpen = false ∧ (tap.tapOpen = true ∧ (tap.eng eTop.key).halted = true) ∧
    (tap.memWaits (0x5003 : BitVec 48).toNat = false ∧ tap.readable 0x5000 = true) := by
  and_intros <;> decide +kernel

def fwS (sl : List FwSlot) (trial : Option Nat) : State :=
  sec ((lifeS 1).setFlag F.SEC_BOOT_TRIAL trial.isSome) fun x => { x with isl := sl, arm := sl, trialArm := trial, trialIsl := trial }
def good2 : List FwSlot := [{ valid := true }, { valid := true, svn := 3 }]
def grantS (z : Bool) (g : Nat) : State :=
  sec (pow ready fun p => { p with zeroing := z }) fun x => { x with granting := some g }
theorem wit_FirmwareAndLifecycle :
    ready.flag F.SEC_STATUS_BUSY = false ∧
    (∀ arm, (fwS good2 none).slotOk arm (1 - (fwS good2 none).bootSlot arm) = true ∧ (fwS good2 none).onTrial arm = false ∧
      (fwS [{ valid := true }, {}] none).slotOk arm (1 - (fwS [{ valid := true }, {}] none).bootSlot arm) = false ∧
      (fwS good2 (some 1)).onTrial arm = true) ∧
    ((lifeS 1).sec.life = 1 ∧ (lifeS 2).sec.life ≠ 1 ∧ (lifeS 2).sec.life = 2 ∧ (lifeS 3).sec.life = 3 ∧ (lifeS 0).sec.life = 0) ∧
    (fwS good2 (some 1)).flag F.SEC_BOOT_TRIAL = true ∧
    ((grantS false 3).sec.granting = some 3 ∧ (grantS false 3).stopped = false ∧ (grantS false 3).fget F.PLN_BOOT_STEP = 11 ∧
      (grantS false 3).power.zeroing = false ∧ (grantS true 4).power.zeroing = true) := by
  and_intros <;> decide +kernel

def atS (op : Nat) : State :=
  (sec ((ready.setReg Reg.SEC_ADDR_LO 0x4000).setReg Reg.SEC_ADDR_HI 0xFFFF0100) fun x => { x with attKey := true }).setReg
    Reg.SEC_CMD (secWord op false)
def lvl (life n : Nat) (f : Bool) : State := ((lifeS life).fset F.DBG_LEVEL_LEVEL n).setFlag F.DBG_LEVEL_FACET f
/-! Signed objects at SEC_ADDR, each with the signature its key's holder makes. -/

/-- The block of an object up to its signature, with no nonce, as the registers stand. -/
def blk (typ svn key : Nat) (tgt : List (BitVec 8)) : List (BitVec 8) :=
  leBytes 4 typ ++ leBytes 4 svn ++ tgt ++ leBytes 1 key ++ List.replicate 47 0
def any8 : List (BitVec 8) := List.replicate 8 0
def own8 : List (BitVec 8) := leBytes 8 Config.serial.toNat
theorem own8_length : own8.length = 8 := by simp [own8, leBytes]
theorem blk_target (typ svn key : Nat) : fieldOf (blk typ svn key own8) 8 16 = Config.serial.toNat := by
  have h : leNat own8 = Config.serial.toNat := leNat_leBytes _ Config.serial.isLt
  rw [← h]
  rfl

/-- A package in a lifecycle state with one operator key and SEC_ADDR in the slow tier. -/
def secS (life : Nat) : State :=
  sec ((ready.setReg Reg.SEC_ADDR_LO 0x4000).setReg Reg.SEC_ADDR_HI 0xFFFF0100) fun x => { x with life := life, opKeys := [7] }
def opS (life op : Nat) : State := (secS life).setReg Reg.SEC_CMD (secWord op false)
def objAt : Nat := 0x10000004000
/-- The same with an object in memory. -/
def withObj (s : State) (o : List (BitVec 8)) : State := { s with mem := cells objAt o }

/-- An object with its holder's signature. -/
def objOf (pre : List (BitVec 8)) (typ svn key : Nat) (tgt : List (BitVec 8)) (kh : BitVec 384) : List (BitVec 8) :=
  pre ++ blk typ svn key tgt ++ sigOf kh (pre ++ blk typ svn key tgt)

/-- A signed object that names what its type asks for is accepted. -/
theorem checked (s : State) (typ floor svn key : Nat) (pre tgt : List (BitVec 8)) (kh : BitVec 384) (ht : tgt.length = 8)
    (hr : fieldOf (blk typ svn key tgt) 17 32 = 0 ∧ fieldOf (blk typ svn key tgt) 48 64 = 0 ∧
      fieldOf (blk typ svn key tgt) 0 4 = typ ∧ fieldOf (blk typ svn key tgt) 16 17 = key ∧
      fieldOf (blk typ svn key tgt) 32 48 = 0)
    (hk : key < 8 ∧ s.maySign typ key = true ∧ s.sec.revoked.getLsbD key = false ∧ s.keyHash key = some kh)
    (hz : s.nonce = 0)
    (hg : fieldOf (blk typ svn key tgt) 8 16 = Config.serial.toNat ∨
      fieldOf (blk typ svn key tgt) 8 16 = 0 ∧ ¬ (5 ≤ typ ∧ typ ≤ 8))
    (hv : typ ≤ 3 → floor ≤ fieldOf (blk typ svn key tgt) 4 8) :
    s.checkObj typ (objOf pre typ svn key tgt kh) floor = 0 := by
  have hbl : (blk typ svn key tgt).length = 64 := by simp [blk, leBytes, ht]
  have hdl : (pre ++ blk typ svn key tgt).length = pre.length + 64 := by simp [hbl]
  have hdb : (pre ++ blk typ svn key tgt).drop ((pre ++ blk typ svn key tgt).length - 64) = blk typ svn key tgt := by
    rw [hdl, Nat.add_sub_cancel]; exact List.drop_left' rfl
  refine State.checkObj_signed _ typ floor _ kh (by omega) ?_ ?_ ?_ ?_ ?_ ?_ <;> rw [hdb]
  · exact ⟨hr.1, hr.2.1⟩
  · exact hr.2.2.1
  · rw [hr.2.2.2.1]; exact hk
  · rw [hr.2.2.2.2]; split
    · exact hz.symm
    · rfl
  · exact hg
  · exact hv
/-- What the place of an object at SEC_ADDR needs for Burin to take it. -/
def Place (s : State) : Prop :=
  s.secAddr.toNat % 2 ^ 48 = objAt ∧ s.own (pkgOf s.secAddr) = true ∧ s.memWaits objAt = false ∧ s.ecc = [] ∧ s.bursts = [] ∧
    s.pages = [] ∧ ∀ dv, dv < 8 → s.devUp dv = true
/-- It is taken by an operation of SEC_CMD. -/
def Took (s : State) (op typ n floor : Nat) (o : List (BitVec 8)) : Prop :=
  ((s.setReg Reg.SEC_CMD (secWord op false)).takeObj typ n floor).1 = 0 ∧
    ((s.setReg Reg.SEC_CMD (secWord op false)).takeObj typ n floor).2.1 = o
theorem taken (s : State) (typ floor n : Nat) (o : List (BitVec 8)) (hp : Place s) (hn : o.length = 4 * n) (hn2 : n ≤ 0x10000)
    (hc : (withObj s o).checkObj typ o floor = 0) :
    (withObj s o).takeObj typ (4 * n) floor = (0, o, withObj s o) := by
  obtain ⟨ha, ho, hw, he, hb, hpg, hdev⟩ := hp
  have hadr : (withObj s o).secAddr = s.secAddr := rfl
  refine State.takeObj_signed (withObj s o) typ n floor o hn ho ?_ he hb ?_ ?_ hc <;> rw [hadr, ha]
  · exact hw
  · rfl
  · exact fun k hk => s.plain_slow hpg hdev _ (by unfold objAt; omega) (by unfold objAt; omega)
theorem took {life op typ floor n : Nat} {o : List (BitVec 8)}
    (h : (withObj (opS life op) o).takeObj typ n floor = (0, o, withObj (opS life op) o)) :
    Took (withObj (secS life) o) op typ n floor o := by
  have e : (withObj (secS life) o).setReg Reg.SEC_CMD (secWord op false) = withObj (opS life op) o := rfl
  unfold Took
  rw [e, h]
  exact ⟨rfl, rfl⟩
def rk : BitVec 384 := Config.rilyelKey 0
theorem place (life op : Nat) (h : Place (opS life op) := by unfold Place; and_intros <;> decide +kernel) : Place (opS life op) := h
def islObj : List (BitVec 8) := objOf [] 1 0 0 any8 rk
def armObj : List (BitVec 8) := objOf [] 2 0 0 any8 rk
def grantObj (key : Nat) (kh : BitVec 384) : List (BitVec 8) := objOf [] 5 0 key own8 kh
theorem wit_FirmwareAndLifecycle_objects :
    (160 ≤ 0x200000 ∧ Took (withObj (secS 1) islObj) 1 1 160 ((secS 1).minSvn 1) islObj) ∧
    (160 ≤ 0x800000 ∧ Took (withObj (secS 1) armObj) 2 2 160 ((secS 1).minSvn 2) armObj) ∧
    ((secS 1).sec.life = 1 ∧ Took (withObj (secS 1) (grantObj 0 rk)) 6 5 160 0 (grantObj 0 rk)) ∧
    ((secS 2).sec.life = 2 ∧ Took (withObj (secS 2) (grantObj 4 7)) 6 5 160 0 (grantObj 4 7)) ∧
    ((opS 1 5).readBytes (opS 1 5).secAddr (48 * 4)).1 = some (List.replicate 192 0) := by
  refine ⟨⟨by decide, took (taken _ 1 _ 40 _ (place 1 1) (by decide +kernel) (by decide)
      (checked _ 1 _ 0 0 [] any8 rk rfl ?_ ⟨by decide, ?_, ?_, rfl⟩ ?_ (.inr ?_) ?_))⟩,
    ⟨by decide, took (taken _ 2 _ 40 _ (place 1 2) (by decide +kernel) (by decide)
      (checked _ 2 _ 0 0 [] any8 rk rfl ?_ ⟨by decide, ?_, ?_, rfl⟩ ?_ (.inr ?_) ?_))⟩,
    ⟨rfl, took (taken _ 5 _ 40 _ (place 1 6) (by decide +kernel) (by decide)
      (checked _ 5 _ 0 0 [] own8 rk own8_length ?_ ⟨by decide, ?_, ?_, rfl⟩ ?_ (.inl (blk_target 5 0 0)) (by decide)))⟩,
    ⟨rfl, took (taken _ 5 _ 40 _ (place 2 6) (by decide +kernel) (by decide)
      (checked _ 5 _ 0 4 [] own8 7 own8_length ?_ ⟨by decide, ?_, ?_, rfl⟩ ?_ (.inl (blk_target 5 0 4)) (by decide)))⟩, ?_⟩ <;>
    decide +kernel

def relObj (w : Nat) : List (BitVec 8) := objOf (leBytes 4 w ++ List.replicate 12 0) 6 0 4 own8 7
def retObj : List (BitVec 8) := objOf [] 7 0 0 own8 rk
def bootObj : List (BitVec 8) := objOf (List.replicate 3936 0) 8 0 4 own8 7
def svnObj : List (BitVec 8) := objOf (leBytes 4 3) 9 64 0 any8 rk
def revObj : List (BitVec 8) := objOf (leBytes 4 3) 10 0 0 any8 rk
theorem wit_SecurityCommands_objects :
    ((secS 2).sec.life ≠ 4 ∧ Took (withObj (secS 2) (relObj 0x10F)) 8 6 176 0 (relObj 0x10F) ∧
      (fieldOf (relObj 0x10F) 0 4).testBit 8 = true) ∧
    (Took (withObj (secS 2) (relObj 0xF)) 8 6 176 0 (relObj 0xF) ∧ (fieldOf (relObj 0xF) 0 4).testBit 8 = false) ∧
    ((secS 1).sec.life ≠ 0 ∧ (secS 1).sec.life ≠ 4 ∧ Took (withObj (secS 1) retObj) 9 7 160 0 retObj) ∧
    Took (withObj (secS 2) bootObj) 12 8 4096 0 bootObj ∧
    (Took (withObj (secS 1) svnObj) 13 9 164 0 svnObj ∧ fieldOf svnObj 0 4 = 3 ∧ objSvn svnObj = 64) ∧
    (Took (withObj (secS 1) revObj) 15 10 164 0 revObj ∧ fieldOf revObj 0 4 = 3 ∧ objKey revObj = 0) := by
  refine ⟨⟨?_, took (taken _ 6 _ 44 _ (place 2 8) (by decide +kernel) (by decide)
      (checked _ 6 _ 0 4 _ own8 7 own8_length ?_ ⟨by decide, ?_, ?_, rfl⟩ ?_ (.inl (blk_target 6 0 4)) (by decide))), ?_⟩,
    ⟨took (taken _ 6 _ 44 _ (place 2 8) (by decide +kernel) (by decide)
      (checked _ 6 _ 0 4 _ own8 7 own8_length ?_ ⟨by decide, ?_, ?_, rfl⟩ ?_ (.inl (blk_target 6 0 4)) (by decide))), ?_⟩,
    ⟨?_, ?_, took (taken _ 7 _ 40 _ (place 1 9) (by decide +kernel) (by decide)
      (checked _ 7 _ 0 0 [] own8 rk own8_length ?_ ⟨by decide, ?_, ?_, rfl⟩ ?_ (.inl (blk_target 7 0 0)) (by decide)))⟩,
    took (taken _ 8 _ 1024 _ (place 2 12) ?_ (by decide)
      (checked _ 8 _ 0 4 _ own8 7 own8_length ?_ ⟨by decide, ?_, ?_, rfl⟩ ?_ (.inl (blk_target 8 0 4)) (by decide))),
    ⟨took (taken _ 9 _ 41 _ (place 1 13) (by decide +kernel) (by decide)
      (checked _ 9 _ 64 0 _ any8 rk rfl ?_ ⟨by decide, ?_, ?_, rfl⟩ ?_ (.inr ?_) (by decide))), ?_, ?_⟩,
    ⟨took (taken _ 10 _ 41 _ (place 1 15) (by decide +kernel) (by decide)
      (checked _ 10 _ 0 0 _ any8 rk rfl ?_ ⟨by decide, ?_, ?_, rfl⟩ ?_ (.inr ?_) (by decide))), ?_, ?_⟩⟩ <;> decide +kernel

/-- An overlay of one entry without a signature. -/
def ovBytes : List (BitVec 8) := leBytes 4 1 ++ leBytes 4 1 ++ List.replicate 56 0 ++ [1, 0, 0, 0, 5, 0, 0, 0]
def ovS : State := withObj (opS 1 11) ovBytes
def ov2 : State := (ovS.readBytes ovS.secAddr 64).2
def ov3 : State := (ov2.readBytes ov2.secAddr 72).2
theorem wit_SecurityCommands_overlay :
    (ovS.readBytes ovS.secAddr 64).1 = some (ovBytes.take 64) ∧ fieldOf (ovBytes.take 64) 0 4 = 1 ∧
    fieldOf (ovBytes.take 64) 4 8 = 1 ∧ calLen (ovBytes.take 64) = 72 ∧
    (ov2.readBytes ov2.secAddr 72).1 = some ovBytes ∧
    ((ov3.readBytes ov3.secAddr 232).1.all fun b => fieldOf b 72 76 != 4) = true ∧ ovS.checkCal ovBytes = 0 := by
  and_intros <;> decide +kernel

/-! A capsule at TST_CAP_ADDR, and an island image at the recovery loader. -/

/-- A capsule of one pair: its header, and its pair and image as zeros. -/
def capHd : List (BitVec 8) :=
  [1, 0, 0, 0] ++ leBytes 4 20904 ++ leBytes 4 0 ++ leBytes 4 1 ++ List.replicate 48 0 ++ List.replicate 20680 0
def capObj : List (BitVec 8) := objOf capHd 3 0 0 any8 rk
def capL : State := sec ((ready.setReg Reg.TST_CAP_ADDR_LO 0x4000).setReg Reg.TST_CAP_ADDR_HI 0xFFFF0100) fun x => { x with life := 2 }
def capM : State := withObj (capL.setReg Reg.TST_CAP_CMD (capWord 1 false 255)) capObj
theorem capObj_length : capObj.length = 20904 := by
  simp only [capObj, objOf, capHd, blk, any8, leBytes, sigOf_length, List.length_append, List.length_replicate,
    List.length_map, List.length_range, List.length_cons, List.length_nil]
theorem capM_reads (n : Nat) (hn : n ≤ 5226) :
    capM.readBytes capM.capAddr (4 * n) = (some (capObj.take (4 * n)), capM) := by
  have ha : capM.capAddr.toNat % 2 ^ 48 = objAt := by decide +kernel
  refine State.readBytes_plain capM capM.capAddr capObj n (by rw [capObj_length]; omega) (by decide +kernel) ?_ rfl rfl ?_ ?_ <;>
    rw [ha]
  · decide +kernel
  · rfl
  · exact fun k hk => capM.plain_slow rfl (by decide +kernel) _ (by unfold objAt; omega) (by unfold objAt; omega)
theorem wit_CapsulesDumpsMarginsAndScratch_load :
    capL.capLife = true ∧ (withObj capL capObj).setReg Reg.TST_CAP_CMD (capWord 1 false 255) = capM ∧
    capM.readBytes capM.capAddr 64 = (some (capObj.take 64), capM) ∧ capHeadOk (capObj.take 64) = true ∧
    capM.readBytes capM.capAddr (fieldOf (capObj.take 64) 4 8) = (some capObj, capM) ∧
    (withObj capL capObj).checkObj 3 capObj capL.sec.svnCap = 0 ∧
    poolKib (upsert (withObj capL capObj).capsules 255 { size := capObj.length, enabled := true, bytes := capObj }) ≤ 24576 := by
  refine ⟨by decide +kernel, rfl, capM_reads 16 (by decide), by decide +kernel, ?_,
    checked _ 3 _ 0 0 capHd any8 rk rfl (by decide +kernel) ⟨by decide, by decide +kernel, by decide +kernel, rfl⟩
      (by decide +kernel) (.inr (by decide +kernel)) (by decide +kernel), ?_⟩
  · rw [show fieldOf (capObj.take 64) 4 8 = 4 * 5226 by decide +kernel, capM_reads 5226 (by decide),
      List.take_of_length_le (by rw [capObj_length])]
  · show poolKib [(255, _)] ≤ 24576
    simp [poolKib, capObj_length]

theorem wit_ManagementAndTestPorts_recovery :
    (sec recS fun x => { x with life := 1, recov := islObj }).checkObj 1 islObj (recS.minSvn 1) = 0 ∧
    recS.checkObj 1 recS.sec.recov (recS.minSvn 1) ≠ 0 := by
  refine ⟨checked _ 1 _ 0 0 [] any8 rk rfl ?_ ⟨by decide, ?_, ?_, rfl⟩ ?_ (.inr ?_) ?_, ?_⟩ <;> decide +kernel

theorem wit_SecurityCommands :
    ((lifeS 1).sec.life ≠ 0 ∧ (lifeS 1).sec.life ≠ 4) ∧ ready.sec.attKey = false ∧
    ((atS 10).sec.attKey = true ∧ ((atS 10).readBytes (atS 10).secAddr 32).1 = some (List.replicate 32 0)) ∧
    ((atS 14).readBytes (atS 14).secAddr 48).1 = some (List.replicate 48 0) ∧
    ((0x40000000 : BitVec 32).getLsbD 29 = false ∧ (0x40000000 : BitVec 32).toNat / 2 ^ 30 ≤ (lifeS 1).levelMax) ∧
    ((lifeS 2).levelMax < (0xC0000000 : BitVec 32).toNat / 2 ^ 30) ∧
    ((0xA0000000 : BitVec 32).getLsbD 29 = true ∧ (0xA0000000 : BitVec 32).toNat / 2 ^ 30 = 2 ∧ (lvl 3 2 false).levelMax = 2 ∧
      (lvl 3 2 false).flag F.DBG_LEVEL_FACET = false) := by
  and_intros <;> decide +kernel

/-! ## Witnesses: the whole block -/

theorem wit_EveryCommandCompletes : ¬ ∃ t, exec (.testAccessPortAccess .scan) tap = .next t := by
  have h : tap.tapOpen = true := by decide +kernel
  rintro ⟨t, ht⟩
  have : exec (.testAccessPortAccess .scan) tap = .fault .scanUnspecified := by
    show execTestAccessPortAccess .scan tap = _
    simp [execTestAccessPortAccess, h]
  rw [this] at ht
  cases ht

theorem wit_MemoryStaysCanonical : State.reset.memWf ∧ ∃ t, step State.reset = .next t :=
  ⟨by unfold State.memWf; decide +kernel, _, rfl⟩

end Sys2Proof.Tests
end

section
/-! SUPPORT. The element formats as rational numbers: the value of a magnitude code, its order, and what a conversion
rounds to (R29, R30, R35 to R37, R49). -/
namespace Sys2Proof.Machine

/-! ## Exact numbers as rationals -/

/-- A power of two as the fraction the model writes it as, with no negative exponent. -/
theorem two_zpow_eq_div (k : ℤ) : (2 : ℚ) ^ k = 2 ^ k.toNat / 2 ^ (-k).toNat := by
  rw [← zpow_natCast, ← zpow_natCast, ← zpow_sub₀ two_ne_zero]
  congr 1
  omega

theorem two_zpow_le_div_iff (k : ℤ) (N : ℕ) {D : ℕ} (hD : D ≠ 0) :
    (2 : ℚ) ^ k ≤ N / D ↔ D * 2 ^ k.toNat ≤ N * 2 ^ (-k).toNat := by
  rw [two_zpow_eq_div, div_le_div_iff₀ (by positivity) (by positivity), mul_comm]
  norm_cast

theorem frac_snd_ne_zero (n : ℕ) {d : ℕ} (e : ℤ) (hd : d ≠ 0) : (frac n d e).2 ≠ 0 := by simp [frac, hd]

theorem frac_fst_eq_zero_iff (n d : ℕ) (e : ℤ) : (frac n d e).1 = 0 ↔ n = 0 := by simp [frac]

theorem frac_fst_div_snd (n d : ℕ) (e : ℤ) : ((frac n d e).1 : ℚ) / (frac n d e).2 = n / d * 2 ^ e := by
  simp only [frac, two_zpow_eq_div e, Nat.cast_mul, Nat.cast_pow, Nat.cast_ofNat]
  rw [mul_div_mul_comm]

theorem abs_sign_mul (neg : Bool) (x : ℚ) : |(if neg then -1 else 1) * x| = |x| := by cases neg <;> simp

/-- `flog2` is the exponent of the binade the fraction lies in. -/
theorem flog2_spec {N D : ℕ} (hN : N ≠ 0) (hD : D ≠ 0) :
    (2 : ℚ) ^ flog2 N D ≤ N / D ∧ (N / D : ℚ) < 2 ^ (flog2 N D + 1) := by
  have hDpos : (0 : ℚ) < D := by positivity
  have hNlo : (2 : ℚ) ^ (N.log2 : ℤ) ≤ N := by exact_mod_cast Nat.log2_self_le hN
  have hNhi : (N : ℚ) < 2 ^ (N.log2 + 1 : ℤ) := by exact_mod_cast Nat.lt_log2_self (n := N)
  have hDlo : (2 : ℚ) ^ (D.log2 : ℤ) ≤ D := by exact_mod_cast Nat.log2_self_le hD
  have hDhi : (D : ℚ) < 2 ^ (D.log2 + 1 : ℤ) := by exact_mod_cast Nat.lt_log2_self (n := D)
  have hlow : (2 : ℚ) ^ ((N.log2 : ℤ) - D.log2 - 1) ≤ N / D := by
    rw [le_div_iff₀ hDpos]
    calc (2 : ℚ) ^ ((N.log2 : ℤ) - D.log2 - 1) * D
        ≤ 2 ^ ((N.log2 : ℤ) - D.log2 - 1) * 2 ^ (D.log2 + 1 : ℤ) := by gcongr
      _ = 2 ^ (N.log2 : ℤ) := by rw [← zpow_add₀ two_ne_zero]; congr 1; ring
      _ ≤ N := hNlo
  have hupp : (N / D : ℚ) < 2 ^ ((N.log2 : ℤ) - D.log2 + 1) := by
    rw [div_lt_iff₀ hDpos]
    calc (N : ℚ) < 2 ^ (N.log2 + 1 : ℤ) := hNhi
      _ = 2 ^ ((N.log2 : ℤ) - D.log2 + 1) * 2 ^ (D.log2 : ℤ) := by
        rw [← zpow_add₀ two_ne_zero]; congr 1; ring
      _ ≤ 2 ^ ((N.log2 : ℤ) - D.log2 + 1) * D := by gcongr
  simp only [flog2, ← two_zpow_le_div_iff _ N hD]
  split_ifs with h
  · exact ⟨h, hupp⟩
  · exact ⟨hlow, by simpa using h⟩

/-- A number lies in one binade only. -/
theorem flog2_eq {N D : ℕ} (hN : N ≠ 0) (hD : D ≠ 0) {E : ℤ} (hlo : (2 : ℚ) ^ E ≤ N / D)
    (hhi : (N / D : ℚ) < 2 ^ (E + 1)) : flog2 N D = E := by
  obtain ⟨hlo', hhi'⟩ := flog2_spec hN hD
  have h1 : E < flog2 N D + 1 := (zpow_lt_zpow_iff_right₀ one_lt_two).1 (hlo.trans_lt hhi')
  have h2 : flog2 N D < E + 1 := (zpow_lt_zpow_iff_right₀ one_lt_two).1 (hlo'.trans_lt hhi)
  omega

/-! ## The value of a magnitude code -/

/-- The magnitude that a code without its sign stands for (R29). -/
def EFmt.val (f : EFmt) (c : ℕ) : ℚ := (f.mag c).1 * 2 ^ (f.mag c).2

/-- The value of the exponent and mantissa fields: a subnormal, or a normal with its hidden bit. -/
theorem EFmt.val_fields (f : EFmt) (E : ℕ) {M : ℕ} (hM : M < 2 ^ f.m) :
    f.val (E * 2 ^ f.m + M) = if E = 0 then M * (2 : ℚ) ^ (f.emin - f.m)
      else (2 ^ f.m + M) * (2 : ℚ) ^ (f.emin - f.m + (E - 1 : ℕ)) := by
  have hdiv : (E * 2 ^ f.m + M) / 2 ^ f.m = E := by
    rw [mul_comm, Nat.mul_add_div (by positivity), Nat.div_eq_of_lt hM, add_zero]
  have hmod : (E * 2 ^ f.m + M) % 2 ^ f.m = M := by rw [mul_comm, Nat.mul_add_mod, Nat.mod_eq_of_lt hM]
  simp only [EFmt.val, EFmt.mag, hdiv, hmod]
  split_ifs <;> simp

/-- The grid of binade `k` above the subnormals: `q` units of its spacing, its upper end included. The codes of consecutive
magnitudes are consecutive because the last unit of a binade is the first of the next. -/
theorem EFmt.val_grid (f : EFmt) {k q : ℕ} (hlo : k = 0 ∨ 2 ^ f.m ≤ q) (hhi : q ≤ 2 ^ (f.m + 1)) :
    f.val (k * 2 ^ f.m + q) = q * 2 ^ (f.emin - f.m + k) := by
  have h2 : 2 ^ (f.m + 1) = 2 ^ f.m + 2 ^ f.m := by ring
  rcases lt_or_ge q (2 ^ f.m) with hq | hq
  · obtain rfl : k = 0 := hlo.resolve_right (by omega)
    simpa using f.val_fields 0 hq
  rcases lt_or_eq_of_le hhi with hq' | rfl
  · obtain ⟨r, rfl⟩ := Nat.exists_eq_add_of_le hq
    have := f.val_fields (k + 1) (M := r) (by omega)
    rw [show k * 2 ^ f.m + (2 ^ f.m + r) = (k + 1) * 2 ^ f.m + r by ring, this]
    simp
  · have := f.val_fields (k + 2) (M := 0) (by positivity)
    rw [show k * 2 ^ f.m + 2 ^ (f.m + 1) = (k + 2) * 2 ^ f.m + 0 by ring, this,
      show f.emin - f.m + ((k + 2 - 1 : ℕ) : ℤ) = f.emin - f.m + k + 1 by push_cast [Nat.add_sub_cancel]; omega,
      zpow_add_one₀ two_ne_zero]
    simp
    ring

/-- Every code is a number of units on the grid of its binade. -/
theorem EFmt.exists_grid (f : EFmt) (c : ℕ) :
    ∃ k q, c = k * 2 ^ f.m + q ∧ (k = 0 ∨ 2 ^ f.m ≤ q) ∧ q < 2 ^ (f.m + 1) := by
  have hmod := Nat.mod_lt c (show 0 < 2 ^ f.m by positivity)
  have hc := Nat.div_add_mod' c (2 ^ f.m)
  have h2 : 2 ^ (f.m + 1) = 2 ^ f.m + 2 ^ f.m := by ring
  cases hE : c / 2 ^ f.m with
  | zero => exact ⟨0, c, by omega, .inl rfl, by rw [hE] at hc; omega⟩
  | succ E => exact ⟨E, 2 ^ f.m + c % 2 ^ f.m, by rw [hE] at hc; linarith, .inr (by omega), by omega⟩

theorem EFmt.val_strictMono (f : EFmt) : StrictMono f.val := by
  refine strictMono_nat_of_lt_succ fun c => ?_
  obtain ⟨k, q, rfl, hlo, hhi⟩ := f.exists_grid c
  rw [add_assoc, f.val_grid hlo hhi.le, f.val_grid (hlo.imp_right (by omega)) hhi]
  gcongr
  omega

@[simp] theorem EFmt.val_zero (f : EFmt) : f.val 0 = 0 := by simp [EFmt.val, EFmt.mag]

theorem EFmt.val_eq_zero_iff (f : EFmt) (c : ℕ) : f.val c = 0 ↔ c = 0 := by
  rw [← f.val_zero, f.val_strictMono.injective.eq_iff]

theorem EFmt.val_nonneg (f : EFmt) (c : ℕ) : 0 ≤ f.val c := by
  rw [← f.val_zero]
  exact f.val_strictMono.monotone c.zero_le

/-! ## Codes with a sign -/

/-- What every element format has: a mantissa, a sign bit above its magnitudes, and normal numbers. -/
structure EFmt.Sound (f : EFmt) : Prop where
  mantissa : 1 ≤ f.m
  sign : ∀ b ∈ f.sgn, 1 ≤ b ∧ f.maxMag < 2 ^ b
  normal : 2 ^ f.m ≤ f.maxMag

theorem sound_of_mem {f : EFmt} (hf : f ∈ [bf16, binary16, e4m3, e5m2, zm8u]) : f.Sound := by
  simp only [List.mem_cons, List.not_mem_nil, or_false] at hf
  rcases hf with rfl | rfl | rfl | rfl | rfl <;> exact ⟨by decide, by decide, by decide⟩

/-- A magnitude code as `decode` reads it, once the sign is taken off. -/
def EFmt.decodeMag (f : EFmt) (neg : Bool) (c : ℕ) : Num :=
  if c ≤ f.maxMag then .fin neg (f.mag c).1 1 (f.mag c).2 else if f.infMag = some c then .inf neg else .nan

theorem EFmt.decode_of_unsigned {f : EFmt} (h : f.sgn = none) (c : ℕ) : f.decode c = f.decodeMag false c := by
  simp [EFmt.decode, EFmt.decodeMag, h]

theorem EFmt.decode_of_signed {f : EFmt} {b : ℕ} (h : f.sgn = some b) (c : ℕ) :
    f.decode c = f.decodeMag (c.testBit b) (c % 2 ^ b) := by simp [EFmt.decode, EFmt.decodeMag, h]

/-- A sign bit set above a magnitude code is read as the sign, and the magnitude is read unchanged. -/
theorem EFmt.decode_sign_add {f : EFmt} {b : ℕ} (h : f.sgn = some b) {S c : ℕ} (hS : S < 2) (hc : c < 2 ^ b) :
    f.decode (S * 2 ^ b + c) = f.decodeMag (S == 1) c := by
  have hdiv : (S * 2 ^ b + c) / 2 ^ b = S := by
    rw [mul_comm, Nat.mul_add_div (by positivity), Nat.div_eq_of_lt hc, add_zero]
  have hmod : (S * 2 ^ b + c) % 2 ^ b = c := by rw [mul_comm, Nat.mul_add_mod, Nat.mod_eq_of_lt hc]
  rw [EFmt.decode_of_signed h, hmod, Nat.testBit_eq_decide_div_mod_eq, hdiv, Nat.mod_eq_of_lt hS]
  rfl

theorem EFmt.decodeMag_of_le {f : EFmt} (neg : Bool) {c : ℕ} (hc : c ≤ f.maxMag) :
    f.decodeMag neg c = .fin neg (f.mag c).1 1 (f.mag c).2 := if_pos hc

theorem EFmt.rat_decodeMag_of_le {f : EFmt} (neg : Bool) {c : ℕ} (hc : c ≤ f.maxMag) :
    (f.decodeMag neg c).rat = some ((if neg then -1 else 1) * f.val c) := by
  simp [EFmt.decodeMag_of_le neg hc, Num.rat, EFmt.val]

theorem EFmt.le_maxMag_of_rat_decodeMag {f : EFmt} {neg : Bool} {c : ℕ} {y : ℚ}
    (h : (f.decodeMag neg c).rat = some y) : c ≤ f.maxMag := by
  unfold EFmt.decodeMag at h
  split_ifs at h with hc
  · exact hc
  all_goals simp [Num.rat] at h

/-- Every finite value of a format is a magnitude not above its largest, with a sign. -/
theorem EFmt.exists_of_rat_decode {f : EFmt} {c : ℕ} {y : ℚ} (h : (f.decode c).rat = some y) :
    ∃ neg, ∃ j ≤ f.maxMag, y = (if neg = true then -1 else 1) * f.val j := by
  obtain ⟨neg, j, hj⟩ : ∃ neg j, f.decode c = f.decodeMag neg j := by
    cases hs : f.sgn with
    | none => exact ⟨_, _, EFmt.decode_of_unsigned hs c⟩
    | some b => exact ⟨_, _, EFmt.decode_of_signed hs c⟩
  rw [hj] at h
  have hle := EFmt.le_maxMag_of_rat_decodeMag h
  rw [EFmt.rat_decodeMag_of_le neg hle, Option.some_inj] at h
  exact ⟨neg, j, hle, h.symm⟩

/-- A code made of a sign and a magnitude is read back as both. -/
theorem EFmt.decode_withSign {f : EFmt} (hf : f.Sound) {neg : Bool} (hneg : f.sgn = none → neg = false) {c : ℕ}
    (hc : c ≤ f.maxMag) : f.decode (f.withSign neg c) = .fin neg (f.mag c).1 1 (f.mag c).2 := by
  rw [← EFmt.decodeMag_of_le neg hc]
  cases hs : f.sgn with
  | none => simp [hneg hs, EFmt.decode_of_unsigned hs, EFmt.withSign, hs]
  | some b =>
    have hlt : c < 2 ^ b := hc.trans_lt (hf.sign b hs).2
    cases neg with
    | false => simpa [EFmt.withSign, hs] using EFmt.decode_sign_add hs (S := 0) (by omega) hlt
    | true => simpa [EFmt.withSign, hs, add_comm] using EFmt.decode_sign_add hs (S := 1) (by omega) hlt

theorem EFmt.rat_decode_withSign {f : EFmt} (hf : f.Sound) {neg : Bool} (hneg : f.sgn = none → neg = false) {c : ℕ}
    (hc : c ≤ f.maxMag) :
    (f.decode (f.withSign neg c)).rat = some ((if neg then -1 else 1) * f.val c) := by
  rw [EFmt.decode_withSign hf hneg hc, ← EFmt.decodeMag_of_le neg hc, EFmt.rat_decodeMag_of_le neg hc]

theorem EFmt.rat_decode_of_le {f : EFmt} (hf : f.Sound) {c : ℕ} (hc : c ≤ f.maxMag) :
    (f.decode c).rat = some (f.val c) := by
  have hw : f.withSign false c = c := by cases hs : f.sgn <;> simp [EFmt.withSign, hs]
  simpa [hw] using EFmt.rat_decode_withSign hf (neg := false) (fun _ => rfl) hc

theorem EFmt.withSign_mod_two {f : EFmt} (hf : f.Sound) (neg : Bool) (c : ℕ) : f.withSign neg c % 2 = c % 2 := by
  cases hs : f.sgn with
  | none => simp [EFmt.withSign, hs]
  | some b =>
    have : 2 ^ b % 2 = 0 := Nat.mod_eq_zero_of_dvd (dvd_pow_self 2 (by have := (hf.sign b hs).1; omega))
    cases neg <;> simp [EFmt.withSign, hs]; omega

theorem EFmt.abs_le_val_maxMag {f : EFmt} {c : ℕ} {y : ℚ} (h : (f.decode c).rat = some y) : |y| ≤ f.val f.maxMag := by
  obtain ⟨neg, j, hj, rfl⟩ := EFmt.exists_of_rat_decode h
  rw [abs_sign_mul, abs_of_nonneg (f.val_nonneg j)]
  exact f.val_strictMono.monotone hj

theorem EFmt.val_smallest_normal (f : EFmt) : f.val (2 ^ f.m) = 2 ^ f.emin := by
  have h := f.val_grid (k := 0) (q := 2 ^ f.m) (.inl rfl) (Nat.pow_le_pow_right two_pos (by omega))
  rw [zero_mul, zero_add] at h
  rw [h, Nat.cast_pow, Nat.cast_ofNat, ← zpow_natCast, ← zpow_add₀ two_ne_zero]
  congr 1
  simp

theorem EFmt.val_one (f : EFmt) : f.val 1 = 2 ^ (f.emin - f.m) := by
  simpa using f.val_grid (k := 0) (q := 1) (.inl rfl) Nat.one_le_two_pow

/-! ## The format tables -/

/-- The value of the fields in the form of R29's table, with its bias. -/
theorem EFmt.val_fields_biased (f : EFmt) {bias : ℕ} (hb : f.emin = 1 - bias) (E : ℕ) {M : ℕ} (hM : M < 2 ^ f.m) :
    f.val (E * 2 ^ f.m + M) = if E = 0 then 2 ^ (1 - bias : ℤ) * ((M : ℚ) / 2 ^ f.m)
      else 2 ^ (E - bias : ℤ) * (1 + (M : ℚ) / 2 ^ f.m) := by
  rw [f.val_fields E hM, hb]
  split_ifs with hE
  · rw [zpow_sub₀ two_ne_zero, zpow_natCast]
    ring
  · rw [show (1 - bias - f.m + (E - 1 : ℕ) : ℤ) = E - bias - f.m by omega, zpow_sub₀ two_ne_zero, zpow_natCast]
    field_simp

/-- A code of three fields is a sign and a magnitude code. -/
theorem EFmt.decode_fields {f : EFmt} {eb : ℕ} (hs : f.sgn = some (eb + f.m)) {S E M : ℕ} (hS : S < 2) (hE : E < 2 ^ eb)
    (hM : M < 2 ^ f.m) : f.decode ((S * 2 ^ eb + E) * 2 ^ f.m + M) = f.decodeMag (S == 1) (E * 2 ^ f.m + M) := by
  have hlt : E * 2 ^ f.m + M < 2 ^ (eb + f.m) := by
    rw [pow_add]
    nlinarith
  rw [← EFmt.decode_sign_add hs hS hlt]
  congr 1
  ring

/-- A row of R29 and R30 for a signed format: where its special codes stand, and the value of all others. -/
theorem EFmt.row_of_fields {f : EFmt} {eb bias : ℕ} (hs : f.sgn = some (eb + f.m)) (hb : f.emin = 1 - bias)
    {S E M : ℕ} (hS : S < 2) (hE : E < 2 ^ eb) (hM : M < 2 ^ f.m) {special : Prop}
    (hspecial : special ↔ f.maxMag < E * 2 ^ f.m + M)
    (hinf : special → (f.infMag = some (E * 2 ^ f.m + M) ↔ f ≠ e4m3 ∧ M = 0)) :
    let x := f.decode ((S * 2 ^ eb + E) * 2 ^ f.m + M)
    (special → x = if f ≠ e4m3 ∧ M = 0 then .inf (S == 1) else .nan) ∧
    (¬ special → x.rat = some ((-1) ^ S * (if E = 0 then 2 ^ (1 - bias : ℤ) * ((M : ℚ) / 2 ^ f.m)
      else 2 ^ (E - bias : ℤ) * (1 + (M : ℚ) / 2 ^ f.m)))) := by
  simp only [EFmt.decode_fields hs hS hE hM]
  refine ⟨fun h => ?_, fun h => ?_⟩
  · rw [EFmt.decodeMag, if_neg (hspecial.1 h).not_ge, if_congr (hinf h) rfl rfl]
  · have hsign : (if (S == 1) = true then -1 else 1 : ℚ) = (-1) ^ S := by interval_cases S <;> rfl
    rw [EFmt.rat_decodeMag_of_le _ (not_lt.1 (hspecial.not.1 h)), f.val_fields_biased hb E hM, hsign]

/-- A row of R30's limits: the largest finite value and the smallest normal and subnormal ones. -/
theorem EFmt.limits {f : EFmt} (hf : f.Sound) :
    (∃ L, (f.decode f.maxMag).rat = some L ∧ ∀ c q, (f.decode c).rat = some q → |q| ≤ L) ∧
    (f.decode (2 ^ f.m)).rat = some (2 ^ f.emin) ∧ (f.decode 1).rat = some (2 ^ (f.emin - f.m)) :=
  ⟨⟨_, EFmt.rat_decode_of_le hf le_rfl, fun _ _ => EFmt.abs_le_val_maxMag⟩,
    by rw [EFmt.rat_decode_of_le hf hf.normal, f.val_smallest_normal],
    by rw [EFmt.rat_decode_of_le hf (Nat.one_le_two_pow.trans hf.normal), f.val_one]⟩

theorem swVal_rat (w : BitVec 16) :
    (swVal w).rat = some (2 ^ ((w.toNat / 256 : ℕ) - 127 : ℤ) * (1 + ((w.toNat % 256 : ℕ) : ℚ) / 256)) := by
  have h : (2 : ℚ) ^ ((w.toNat / 256 : ℕ) - 127 : ℤ) = 2 ^ ((w.toNat / 256 : ℕ) - 135 : ℤ) * 256 := by
    rw [show ((w.toNat / 256 : ℕ) - 127 : ℤ) = (w.toNat / 256 : ℕ) - 135 + 8 by ring, zpow_add₀ two_ne_zero]
    norm_num
  rw [h]
  simp only [swVal, Num.rat, Option.some_inj]
  push_cast
  ring

theorem e8m0_rat {c : ℕ} (hc : c < 255) : (e8m0 c).rat = some (2 ^ (c - 127 : ℤ)) := by
  simp [e8m0, Num.rat, hc.ne]

/-! ## Rounding -/

/-- Whether rounding takes the next magnitude away from zero, for a value `q + φ` spacings from zero with `φ` below 1
(R35, R41, R49). -/
def Rnd.takesNext (r : Rnd) (q : ℕ) (φ : ℚ) : Bool :=
  match r with
  | .even => decide (1 / 2 < φ) || (decide (φ = 1 / 2) && q % 2 == 1)
  | .stoch u => decide ((u : ℤ) < ⌊φ * 2 ^ 24⌋)
  | .up => decide (0 < φ)

/-- A magnitude that the format has is kept. -/
theorem Rnd.takesNext_zero (r : Rnd) (q : ℕ) : r.takesNext q 0 = false := by
  cases r with
  | even => norm_num [Rnd.takesNext]
  | stoch u => simp [Rnd.takesNext]
  | up => simp [Rnd.takesNext]

theorem Rnd.takesNext_stoch_iff (u q : ℕ) (φ : ℚ) :
    (Rnd.stoch u).takesNext q φ = true ↔ (u : ℤ) < ⌊φ * 2 ^ 24⌋ := decide_eq_true_iff

/-- The format's spacing at a magnitude (R49). -/
def EFmt.spacing (f : EFmt) (N D : ℕ) : ℚ := 2 ^ (max (flog2 N D) f.emin - f.m)

theorem EFmt.spacing_pos (f : EFmt) (N D : ℕ) : 0 < f.spacing N D := by unfold EFmt.spacing; positivity

/-- How many spacings of its own a magnitude holds. -/
def EFmt.units (f : EFmt) (N D : ℕ) : ℕ := ⌊(N / D : ℚ) / f.spacing N D⌋₊

/-- The fraction φ of a spacing that is left over (R49). -/
def EFmt.part (f : EFmt) (N D : ℕ) : ℚ := Int.fract ((N / D : ℚ) / f.spacing N D)

theorem EFmt.units_eq_floor (f : EFmt) (N D : ℕ) : (f.units N D : ℚ) = ⌊(N / D : ℚ) / f.spacing N D⌋ :=
  natCast_floor_eq_intCast_floor (div_nonneg (by positivity) (f.spacing_pos N D).le)

theorem EFmt.part_nonneg (f : EFmt) (N D : ℕ) : 0 ≤ f.part N D := Int.fract_nonneg _

theorem EFmt.part_lt_one (f : EFmt) (N D : ℕ) : f.part N D < 1 := Int.fract_lt_one _

/-- The code of the magnitude next below N / D or equal to it. -/
def EFmt.below (f : EFmt) (N D : ℕ) : ℕ :=
  (max (flog2 N D) f.emin - f.emin).toNat * 2 ^ f.m + f.units N D

/-- The tie test of `round`, in whole numbers, is the one on the part of the spacing left over. -/
theorem Rnd.takesNext_even_div (N : ℕ) {D : ℕ} (hD : D ≠ 0) : Rnd.even.takesNext ⌊(N / D : ℚ)⌋₊ (Int.fract (N / D : ℚ)) =
    (decide (D < 2 * (N % D)) || (decide (2 * (N % D) = D) && N / D % 2 == 1)) := by
  have hDpos : (0 : ℚ) < D := by positivity
  rw [Nat.floor_div_eq_div, Int.fract_div_natCast_eq_div_natCast_mod]
  have hgt : (1 / 2 : ℚ) < (N % D : ℕ) / D ↔ D < 2 * (N % D) := by
    rw [div_lt_div_iff₀ two_pos hDpos, one_mul, mul_comm]
    norm_cast
  have heq : ((N % D : ℕ) / D : ℚ) = 1 / 2 ↔ 2 * (N % D) = D := by
    rw [div_eq_div_iff hDpos.ne' two_ne_zero, one_mul, mul_comm]
    norm_cast
  simp only [Rnd.takesNext, hgt, heq]

/-- The threshold of `round`, in whole numbers, is that of R49. -/
theorem Rnd.takesNext_stoch_div (N D u q : ℕ) : (Rnd.stoch u).takesNext q (Int.fract (N / D : ℚ)) =
    decide (u < N % D * 2 ^ 24 / D) := by
  have hfloor : ⌊((N % D : ℕ) / D : ℚ) * 2 ^ 24⌋ = ((N % D * 2 ^ 24 / D : ℕ) : ℤ) := by
    rw [div_mul_eq_mul_div]
    exact_mod_cast Rat.floor_natCast_div_natCast (N % D * 2 ^ 24) D
  simp only [Rnd.takesNext, Int.fract_div_natCast_eq_div_natCast_mod, hfloor, Nat.cast_lt]

theorem Rnd.takesNext_up_div (N : ℕ) {D : ℕ} (hD : D ≠ 0) (q : ℕ) :
    Rnd.up.takesNext q (Int.fract (N / D : ℚ)) = decide (0 < N % D) := by
  have hDpos : (0 : ℚ) < D := by positivity
  simp only [Rnd.takesNext, Int.fract_div_natCast_eq_div_natCast_mod, div_pos_iff_of_pos_right hDpos, Nat.cast_pos]

/-- Rounding takes the code below or the one after it, as the part of the spacing left over tells. -/
theorem EFmt.round_eq (f : EFmt) (r : Rnd) {N D : ℕ} (hN : N ≠ 0) (hD : D ≠ 0) :
    f.round r N D = f.below N D + if r.takesNext (f.units N D) (f.part N D) then 1 else 0 := by
  have hunits : (N / D : ℚ) / f.spacing N D =
      (N * 2 ^ (-(max (flog2 N D) f.emin - f.m)).toNat : ℕ) / (D * 2 ^ (max (flog2 N D) f.emin - f.m).toNat : ℕ) := by
    rw [EFmt.spacing, two_zpow_eq_div]
    push_cast
    field_simp
  have hD' : D * 2 ^ (max (flog2 N D) f.emin - f.m).toNat ≠ 0 := by positivity
  simp only [EFmt.below, EFmt.units, EFmt.part, hunits, EFmt.round, if_neg hN]
  cases r with
  | even => rw [Rnd.takesNext_even_div _ hD', Nat.floor_div_eq_div]
  | stoch u => rw [Rnd.takesNext_stoch_div, Nat.floor_div_eq_div]
  | up => rw [Rnd.takesNext_up_div _ hD', Nat.floor_div_eq_div]

theorem EFmt.below_mod_two (f : EFmt) (N D : ℕ) (hm : 1 ≤ f.m) : f.below N D % 2 = f.units N D % 2 := by
  obtain ⟨k, hk⟩ := Nat.exists_eq_add_of_le' hm
  rw [EFmt.below, hk, pow_succ, ← mul_assoc, Nat.mul_add_mod']

/-- What the tie rule tells of the part left over. -/
theorem Rnd.takesNext_even_cases (q : ℕ) (φ : ℚ) :
    (Rnd.even.takesNext q φ = true ∧ 1 / 2 ≤ φ ∧ (φ = 1 / 2 → q % 2 = 1)) ∨
      (Rnd.even.takesNext q φ = false ∧ φ ≤ 1 / 2 ∧ (φ = 1 / 2 → q % 2 = 0)) := by
  simp only [Rnd.takesNext]
  rcases lt_trichotomy φ (1 / 2) with h | h | h
  · exact .inr ⟨by simp only [h.ne, h.not_gt, decide_false, Bool.false_and, Bool.or_false], h.le, fun h' => absurd h' h.ne⟩
  · rcases Nat.mod_two_eq_zero_or_one q with hq | hq <;> simp [h, hq]
  · exact .inl ⟨by simp only [h, decide_true, Bool.true_or], h.le, fun h' => absurd h' h.ne'⟩

section
variable (f : EFmt) {N D : ℕ} (hN : N ≠ 0) (hD : D ≠ 0)
include hN hD

/-- The units below a magnitude fill its binade's grid at most: its exponent is the larger of its own and the least. -/
theorem EFmt.units_bounds : ((max (flog2 N D) f.emin - f.emin).toNat = 0 ∨ 2 ^ f.m ≤ f.units N D) ∧
    f.units N D < 2 ^ (f.m + 1) := by
  obtain ⟨hlo, hhi⟩ := flog2_spec hN hD
  have hs := f.spacing_pos N D
  have hscale (j : ℕ) : (2 : ℚ) ^ j * f.spacing N D = 2 ^ (max (flog2 N D) f.emin - f.m + j) := by
    rw [EFmt.spacing, zpow_add₀ two_ne_zero, zpow_natCast, mul_comm]
  constructor
  · rcases le_or_gt (flog2 N D) f.emin with hE | hE
    · exact .inl (by omega)
    · refine .inr (Nat.le_floor ?_)
      rw [le_div_iff₀ hs, Nat.cast_pow, Nat.cast_ofNat, hscale, sub_add_cancel, max_eq_left hE.le]
      exact hlo
  · rw [EFmt.units, Nat.floor_lt (by positivity), div_lt_iff₀ hs, Nat.cast_pow, Nat.cast_ofNat, hscale]
    refine hhi.trans_le (zpow_le_zpow_right₀ one_le_two ?_)
    push_cast
    omega

/-- The code below a magnitude and the code after it are whole numbers of spacings. -/
theorem EFmt.val_below_add {j : ℕ} (hj : j ≤ 1) :
    f.val (f.below N D + j) = (f.units N D + j) * f.spacing N D := by
  obtain ⟨hlo, hhi⟩ := f.units_bounds hN hD
  rw [EFmt.below, add_assoc, f.val_grid (hlo.imp_right (by omega)) (by omega), Nat.cast_add]
  congr 1
  rw [EFmt.spacing]
  congr 1
  omega

/-- A magnitude as its distance above the code below it. -/
theorem EFmt.eq_val_below_add : (N / D : ℚ) = f.val (f.below N D) + f.part N D * f.spacing N D := by
  have h := f.val_below_add hN hD zero_le_one
  rw [add_zero, Nat.cast_zero, add_zero, f.units_eq_floor] at h
  rw [h, ← add_mul, EFmt.part, Int.floor_add_fract, div_mul_cancel₀ _ (f.spacing_pos N D).ne']

/-- The magnitude rounding gives (R35, R49). -/
theorem EFmt.val_round (r : Rnd) :
    f.val (f.round r N D) = (f.units N D + if r.takesNext (f.units N D) (f.part N D) then 1 else 0) * f.spacing N D := by
  rw [f.round_eq r hN hD, f.val_below_add hN hD (by split_ifs <;> simp)]
  push_cast
  rfl

/-- A magnitude within range stays within range. -/
theorem EFmt.round_le_of_le (r : Rnd) {c : ℕ} (h : (N / D : ℚ) ≤ f.val c) : f.round r N D ≤ c := by
  have hs := f.spacing_pos N D
  have heq := f.eq_val_below_add hN hD
  have hfract := f.part_nonneg N D
  rw [f.round_eq r hN hD]
  split_ifs with hr
  · have hne : f.part N D ≠ 0 := fun h0 => by simp [h0, Rnd.takesNext_zero] at hr
    have hpos := mul_pos (hfract.lt_of_ne' hne) hs
    exact f.val_strictMono.lt_iff_lt.1 (by linarith)
  · have hnonneg := mul_nonneg hfract hs.le
    rw [add_zero]
    exact f.val_strictMono.le_iff_le.1 (by linarith)

/-- How far a magnitude not above the code below lies off. -/
theorem EFmt.dist_of_le {j : ℕ} (hj : j ≤ f.below N D) : |f.val j - N / D| =
    f.part N D * f.spacing N D + (f.val (f.below N D) - f.val j) := by
  have hx := f.eq_val_below_add hN hD
  have hnonneg := mul_nonneg (f.part_nonneg N D) (f.spacing_pos N D).le
  have hval := f.val_strictMono.monotone hj
  rw [abs_of_nonpos (by linarith)]
  linarith

/-- How far a magnitude above the code below lies off. -/
theorem EFmt.dist_of_lt {j : ℕ} (hj : f.below N D < j) : |f.val j - N / D| =
    (1 - f.part N D) * f.spacing N D + (f.val j - f.val (f.below N D + 1)) := by
  have hx := f.eq_val_below_add hN hD
  have hlo := f.val_below_add hN hD zero_le_one
  have hhi := f.val_below_add hN hD le_rfl
  have hpos := mul_pos (sub_pos.2 (f.part_lt_one N D)) (f.spacing_pos N D)
  have hval := f.val_strictMono.monotone (Nat.succ_le_of_lt hj)
  rw [Nat.cast_zero, add_zero, add_zero] at hlo
  rw [Nat.cast_one, add_one_mul, ← hlo] at hhi
  rw [Nat.succ_eq_add_one] at hval
  rw [abs_of_nonneg (by linarith)]
  linarith

/-- Rounding to nearest even takes the nearest magnitude, and of two as near the even code. -/
theorem EFmt.round_even_nearest_of_ne_zero (hm : 1 ≤ f.m) (j : ℕ) :
    |f.val (f.round .even N D) - N / D| ≤ |f.val j - N / D| ∧
      (|f.val (f.round .even N D) - N / D| = |f.val j - N / D| → j ≠ f.round .even N D →
        f.round .even N D % 2 = 0) := by
  have hs := f.spacing_pos N D
  have hpar := f.below_mod_two N D hm
  have hmono := f.val_strictMono
  rw [f.round_eq .even hN hD]
  rcases Rnd.takesNext_even_cases (f.units N D) (f.part N D) with ⟨hup, hφ, hodd⟩ | ⟨hup, hφ, heven⟩
  · rw [if_pos hup, f.dist_of_lt hN hD (Nat.lt_succ_self _)]
    rcases le_or_gt j (f.below N D) with hj | hj
    · rw [f.dist_of_le hN hD hj]
      have hval := hmono.monotone hj
      refine ⟨by nlinarith, fun heq _ => ?_⟩
      have := hodd (le_antisymm (by nlinarith) hφ)
      omega
    · rw [f.dist_of_lt hN hD hj]
      have hval := hmono.monotone (Nat.succ_le_of_lt hj)
      refine ⟨by linarith, fun heq hne => absurd (hmono.injective ?_) hne⟩
      linarith
  · rw [hup, if_neg Bool.false_ne_true, add_zero, f.dist_of_le hN hD le_rfl]
    rcases le_or_gt j (f.below N D) with hj | hj
    · rw [f.dist_of_le hN hD hj]
      have hval := hmono.monotone hj
      refine ⟨by linarith, fun heq hne => absurd (hmono.injective ?_) hne⟩
      linarith
    · rw [f.dist_of_lt hN hD hj]
      have hval := hmono.monotone (Nat.succ_le_of_lt hj)
      refine ⟨by nlinarith, fun heq _ => ?_⟩
      rw [hpar]
      exact heven (le_antisymm hφ (by nlinarith))
end

@[simp] theorem EFmt.round_zero (f : EFmt) (r : Rnd) (D : ℕ) : f.round r 0 D = 0 := if_pos rfl

/-- A magnitude within range stays within range. -/
theorem EFmt.round_le_maxMag (f : EFmt) (r : Rnd) {N D : ℕ} (hD : D ≠ 0) (h : (N / D : ℚ) ≤ f.val f.maxMag) :
    f.round r N D ≤ f.maxMag := by
  rcases eq_or_ne N 0 with rfl | hN
  · simp
  · exact f.round_le_of_le hN hD r h

/-- Rounding to nearest even takes the nearest magnitude, and of two as near the even code (R35). -/
theorem EFmt.round_even_nearest (f : EFmt) (hm : 1 ≤ f.m) (N : ℕ) {D : ℕ} (hD : D ≠ 0) (j : ℕ) :
    |f.val (f.round .even N D) - N / D| ≤ |f.val j - N / D| ∧
      (|f.val (f.round .even N D) - N / D| = |f.val j - N / D| → j ≠ f.round .even N D →
        f.round .even N D % 2 = 0) := by
  rcases eq_or_ne N 0 with rfl | hN
  · simp
  · exact f.round_even_nearest_of_ne_zero hN hD hm j

/-- The same with the signs put back: no signed value is nearer to `± N / D`, and none is as near unless the code is even. -/
theorem EFmt.round_even_nearest_signed (f : EFmt) (hm : 1 ≤ f.m) (N : ℕ) {D : ℕ} (hD : D ≠ 0) (s t : Bool) (j : ℕ) :
    let X : ℚ := (if s then -1 else 1) * (N / D)
    let q : ℚ := (if s then -1 else 1) * f.val (f.round .even N D)
    let y : ℚ := (if t then -1 else 1) * f.val j
    |q - X| ≤ |y - X| ∧ (|q - X| = |y - X| → y ≠ q → f.round .even N D % 2 = 0) := by
  intro X q y
  obtain ⟨hnear, htie⟩ := f.round_even_nearest hm N hD j
  obtain ⟨hzero, -⟩ := f.round_even_nearest hm N hD 0
  have hx : (0 : ℚ) ≤ N / D := by positivity
  have hc := f.val_nonneg (f.round .even N D)
  have hq : |q - X| = |f.val (f.round .even N D) - N / D| := by rw [← mul_sub, abs_sign_mul]
  have hy : |f.val j - N / D| ≤ |y - X| := by
    have := abs_abs_sub_abs_le y X
    rwa [abs_sign_mul, abs_sign_mul, abs_of_nonneg hx, abs_of_nonneg (f.val_nonneg j)] at this
  rw [hq]
  refine ⟨hnear.trans hy, fun heq hne => ?_⟩
  rcases ne_or_eq j (f.round .even N D) with hj | hj
  · exact htie (le_antisymm hnear (heq ▸ hy)) hj
  · have hts : t = !s := by
      rcases Bool.eq_or_eq_not t s with rfl | h
      · exact absurd (by simp only [y, q, hj]) hne
      · exact h
    have hyX : |y - X| = f.val (f.round .even N D) + N / D := by
      have : y - X = (if s then -1 else 1) * -(f.val (f.round .even N D) + N / D) := by
        have hflip : (if (!s) = true then -1 else 1 : ℚ) = -(if s = true then -1 else 1) := by cases s <;> simp
        simp only [y, X, hj, hts, hflip]
        ring
      rw [this, abs_sign_mul, abs_neg, abs_of_nonneg (by positivity)]
    rw [EFmt.val_zero, zero_sub, abs_neg, abs_of_nonneg hx] at hzero
    have : f.round .even N D = 0 := (f.val_eq_zero_iff _).1 (by linarith)
    rw [this]

/-! ## Conversions -/

theorem EFmt.above_iff (f : EFmt) (N : ℕ) {D : ℕ} (hD : D ≠ 0) : f.above N D = true ↔ f.val f.maxMag < N / D := by
  have hmax : f.val f.maxMag = (frac (f.mag f.maxMag).1 1 (f.mag f.maxMag).2).1 /
      (frac (f.mag f.maxMag).1 1 (f.mag f.maxMag).2).2 := by
    rw [frac_fst_div_snd, Nat.cast_one, div_one, EFmt.val]
  have hb := frac_snd_ne_zero (f.mag f.maxMag).1 (f.mag f.maxMag).2 one_ne_zero
  rw [hmax, div_lt_div_iff₀ (by positivity) (by positivity)]
  simp only [EFmt.above, decide_eq_true_eq]
  norm_cast

theorem EFmt.isZero_mag_iff (f : EFmt) (neg : Bool) (c : ℕ) :
    (Num.fin neg (f.mag c).1 1 (f.mag c).2).isZero = true ↔ c = 0 := by
  rw [← f.val_eq_zero_iff, EFmt.val, mul_eq_zero_iff_right (by positivity)]
  simp [Num.isZero]

/-- A finite number is its sign and the fraction that the conversions compare and round. -/
theorem Num.rat_fin (neg : Bool) (n d : ℕ) (e : ℤ) : (Num.fin neg n d e).rat =
    some ((if neg then -1 else 1) * ((frac n d e).1 / (frac n d e).2 : ℚ)) := by
  rw [frac_fst_div_snd, Num.rat, mul_assoc]

theorem EFmt.not_unsigned_and_neg {f : EFmt} {neg : Bool} (hneg : f.sgn = none → neg = false) :
    ¬ (f.sgn.isNone = true ∧ neg = true) := by
  rintro ⟨hs, hn⟩
  simp [hneg (Option.isNone_iff_eq_none.1 hs)] at hn

section
variable {f : EFmt} {neg : Bool} (hneg : f.sgn = none → neg = false) (n : ℕ) {d : ℕ} (hd : d ≠ 0) (e : ℤ) (r : Rnd)
include hneg hd

/-- A finite number within range is rounded, and counts an underflow if it is not 0 and its code is. -/
theorem EFmt.conv_of_within (h : ((frac n d e).1 / (frac n d e).2 : ℚ) ≤ f.val f.maxMag) :
    f.conv r (.fin neg n d e) = { code := f.withSign neg (f.round r (frac n d e).1 (frac n d e).2),
                                  ufl := n != 0 && f.round r (frac n d e).1 (frac n d e).2 == 0 } := by
  rcases eq_or_ne n 0 with rfl | hn
  · simp [EFmt.conv, (frac_fst_eq_zero_iff 0 d e).2 rfl]
  · have habove : ¬ f.above (frac n d e).1 (frac n d e).2 = true := by
      rw [f.above_iff _ (frac_snd_ne_zero n e hd)]
      exact h.not_gt
    simp only [EFmt.conv, if_neg hn, if_neg (EFmt.not_unsigned_and_neg hneg), if_neg habove]
    simp [hn]

/-- A finite number above range saturates. -/
theorem EFmt.conv_of_above (h : f.val f.maxMag < ((frac n d e).1 / (frac n d e).2 : ℚ)) :
    f.conv r (.fin neg n d e) = { code := f.withSign neg f.maxMag, sat := true } := by
  have hn : n ≠ 0 := fun h0 => by
    rw [(frac_fst_eq_zero_iff n d e).2 h0, Nat.cast_zero, zero_div] at h
    exact h.not_ge (f.val_nonneg _)
  have habove : f.above (frac n d e).1 (frac n d e).2 = true := (f.above_iff _ (frac_snd_ne_zero n e hd)).2 h
  simp only [EFmt.conv, if_neg hn, if_neg (EFmt.not_unsigned_and_neg hneg), if_pos habove]
end

/-- A value within range converts to the nearest of all the format's values (R35, R36). -/
theorem EFmt.conv_even_nearest {f : EFmt} (hf : f.Sound) {neg : Bool} (hneg : f.sgn = none → neg = false) (n : ℕ)
    {d : ℕ} (hd : d ≠ 0) (e : ℤ) {X : ℚ} (hX : (Num.fin neg n d e).rat = some X) (hle : |X| ≤ f.val f.maxMag) :
    let v := f.conv .even (.fin neg n d e)
    ∃ q, (f.decode v.code).rat = some q ∧
      (∀ c y, (f.decode c).rat = some y → |q - X| ≤ |y - X| ∧ (|q - X| = |y - X| → y ≠ q → v.code % 2 = 0)) ∧
      (f.sgn ≠ none → (f.decode v.code).isNeg = neg) ∧ v.sat = false ∧ v.nonfin = false ∧
      (v.ufl = true ↔ n ≠ 0 ∧ q = 0) := by
  rw [Num.rat_fin, Option.some_inj] at hX
  subst hX
  have hD := frac_snd_ne_zero n e hd
  rw [abs_sign_mul, abs_of_nonneg (by positivity)] at hle
  have hc := f.round_le_maxMag .even hD hle
  simp only [EFmt.conv_of_within hneg n hd e .even hle]
  refine ⟨_, EFmt.rat_decode_withSign hf hneg hc, ?_, ?_, trivial, trivial, ?_⟩
  · intro c y hy
    obtain ⟨t, j, -, rfl⟩ := EFmt.exists_of_rat_decode hy
    rw [EFmt.withSign_mod_two hf]
    exact f.round_even_nearest_signed hf.mantissa _ hD neg t j
  · intro _
    rw [EFmt.decode_withSign hf hneg hc]
    rfl
  · have hsign : (if neg then -1 else 1 : ℚ) ≠ 0 := by split_ifs <;> norm_num
    rw [mul_eq_zero_iff_left hsign, EFmt.val_eq_zero_iff]
    simp

/-- Under a draw a value within range converts to a magnitude next to it, as the draw tells (R49). -/
theorem EFmt.conv_stoch {f : EFmt} (hf : f.Sound) {neg : Bool} (hneg : f.sgn = none → neg = false) {n : ℕ} (hn : n ≠ 0)
    {d : ℕ} (hd : d ≠ 0) (e : ℤ) {X : ℚ} (hX : (Num.fin neg n d e).rat = some X) (hle : |X| ≤ f.val f.maxMag)
    (u : ℕ) {E : ℤ} (hlo : 2 ^ E ≤ |X|) (hhi : |X| < 2 ^ (E + 1)) :
    let v := f.conv (.stoch u) (.fin neg n d e)
    let q : ℚ := 2 ^ (max E f.emin - f.m)
    (f.decode v.code).rat = some ((if neg then -1 else 1) * (q * ((⌊|X| / q⌋ : ℚ) +
      (if (u : ℤ) < ⌊Int.fract (|X| / q) * 2 ^ 24⌋ then 1 else 0)))) ∧ v.sat = false ∧ v.nonfin = false ∧
    (v.ufl = true ↔ (f.decode v.code).isZero = true) := by
  rw [Num.rat_fin, Option.some_inj] at hX
  subst hX
  have hN : (frac n d e).1 ≠ 0 := by rwa [Ne, frac_fst_eq_zero_iff]
  have hD := frac_snd_ne_zero n e hd
  have hx : |(if neg then -1 else 1) * ((frac n d e).1 / (frac n d e).2 : ℚ)| = (frac n d e).1 / (frac n d e).2 := by
    rw [abs_sign_mul, abs_of_nonneg (by positivity)]
  rw [hx] at hle hlo hhi
  have hq : (2 : ℚ) ^ (max E f.emin - f.m) = f.spacing (frac n d e).1 (frac n d e).2 := by
    rw [EFmt.spacing, flog2_eq hN hD hlo hhi]
  have hc := f.round_le_maxMag (.stoch u) hD hle
  simp only [hx, hq, EFmt.conv_of_within hneg n hd e (.stoch u) hle]
  refine ⟨?_, trivial, trivial, ?_⟩
  · rw [EFmt.rat_decode_withSign hf hneg hc, f.val_round hN hD, f.units_eq_floor, mul_comm (f.spacing _ _)]
    simp only [Rnd.takesNext_stoch_iff, EFmt.part]
  · rw [EFmt.decode_withSign hf hneg hc, f.isZero_mag_iff]
    simp [hn]

/-! ## The statements -/

/-- Settles O3: each format's special codes are those above its largest magnitude, and its limits are magnitude codes. -/
theorem formatValues : Obligations.FormatValues := by
  unfold Obligations.FormatValues
  refine ⟨?_, ?_, ?_, rfl, rfl, rfl, rfl, ?_, fun c => e8m0_rat, rfl⟩
  · simp only [List.forall_mem_cons, List.not_mem_nil, false_imp_iff, implies_true, and_true]
    refine ⟨?_, ?_, ?_, ?_⟩ <;> intro S E M hS hE hM
    · exact bf16.row_of_fields rfl rfl hS hE hM (by simp [bf16, e4m3]; omega) (by simp [bf16, e4m3]; omega)
    · exact binary16.row_of_fields rfl rfl hS hE hM (by simp [binary16, e4m3]; omega) (by simp [binary16, e4m3]; omega)
    · exact e4m3.row_of_fields rfl rfl hS hE hM (by simp [e4m3]; omega) (by simp [e4m3])
    · exact e5m2.row_of_fields rfl rfl hS hE hM (by simp [e5m2, e4m3]; omega) (by simp [e5m2, e4m3]; omega)
  · intro E M hE hM
    have hmag : E * 16 + M ≤ zm8u.maxMag := by simp only [zm8u]; omega
    rw [EFmt.rat_decode_of_le (sound_of_mem (by simp)) hmag]
    exact congrArg some (zm8u.val_fields_biased (bias := 7) rfl E hM)
  · simp only [List.forall_mem_cons, List.not_mem_nil, false_imp_iff, implies_true, and_true]
    exact ⟨bf16.limits (sound_of_mem (by simp)), binary16.limits (sound_of_mem (by simp)),
      e4m3.limits (sound_of_mem (by simp)), e5m2.limits (sound_of_mem (by simp)), zm8u.limits (sound_of_mem (by simp))⟩
  · exact fun w => ⟨swVal_rat w, by simp [swValid]⟩

/-- Settles O4: the code below a magnitude and the code after it are a spacing apart and rounding takes one of them. -/
theorem conversionsRound : Obligations.ConversionsRound := by
  unfold Obligations.ConversionsRound
  intro f hf
  have hs := sound_of_mem hf
  refine ⟨?_, ?_, ?_, ?_⟩
  · intro neg n d e X L hd hneg hX hL
    rw [EFmt.rat_decode_of_le hs le_rfl, Option.some_inj] at hL
    subst hL
    refine ⟨EFmt.conv_even_nearest hs hneg n hd e hX,
      fun hle hn u E => EFmt.conv_stoch hs hneg hn hd e hX hle u, fun hlt r => ?_⟩
    rw [Num.rat_fin, Option.some_inj] at hX
    rw [← hX, abs_sign_mul, abs_of_nonneg (by positivity)] at hlt
    exact EFmt.conv_of_above hneg n hd e r hlt
  · simp only [List.mem_cons, List.not_mem_nil, or_false] at hf
    rintro r
    rcases hf with rfl | rfl | rfl | rfl | rfl <;> rfl
  · simp only [List.mem_cons, List.not_mem_nil, or_false] at hf
    rintro r neg
    rcases hf with rfl | rfl | rfl | rfl | rfl <;> cases neg <;> rfl
  · rintro r n d e rfl
    rfl

end Sys2Proof.Machine
end

section
/-! SUPPORT. What each operation of the model does to memory: all but the stores leave the bytes, and what an
  unlisted byte
reads as, alone. Each function has one lemma, in the order of the functions. -/
namespace Sys2Proof.Machine

/-! ## Memory through records, branches and folds -/

theorem State.memKey_with {a_pending a_regs a_ecc a_bursts a_stg a_stgEcc a_cache a_wback a_engines a_ctxs a_tiles
  a_sides a_tileEcc a_tags a_accs a_heads a_xfers a_batches a_colls a_nextId a_semq a_semBy a_bars a_cqs a_wtasks
  a_fence a_drains a_disabled a_sct a_sctEcc a_sched a_upd a_updq a_roots a_owns a_rifOut a_ports a_rtx a_nextTag
  a_nbr a_grp a_grpEcc a_insts a_issued a_folds a_time a_idle a_power a_temps a_excl a_gone a_ring a_hist a_ceHist
  a_caps a_crash a_arithPend a_lpTab a_advRing a_lpEcc a_advEcc a_loupes a_shadows a_retire a_rots a_pages
  a_granSpare a_granDead a_modBad a_modWait a_cycles a_resets a_resetFail a_chReset a_clReset a_dieReset a_dumps
  a_vhist a_capsules a_sec a_msix a_mirror a_cpl a_cplPoison a_tapOut a_bar4 a_armIrq a_sent a_noRoute a_free} {s :
  State} :  State.memKey ⟨a_pending, a_regs, s.mem, a_ecc, a_bursts, s.hbmEpoch, s.sramEpoch, s.sramClean, a_stg,
  a_stgEcc, a_cache, a_wback, a_engines, a_ctxs, a_tiles, a_sides, a_tileEcc, a_tags, a_accs, a_heads, a_xfers,
  a_batches, a_colls, a_nextId, a_semq, a_semBy, a_bars, a_cqs, a_wtasks, a_fence, a_drains, a_disabled, a_sct,
  a_sctEcc, a_sched, a_upd, a_updq, a_roots, a_owns, a_rifOut, a_ports, a_rtx, a_nextTag, a_nbr, a_grp, a_grpEcc,
  a_insts, a_issued, a_folds, a_time, a_idle, a_power, a_temps, a_excl, a_gone, a_ring, a_hist, a_ceHist, a_caps,
  a_crash, a_arithPend, a_lpTab, a_advRing, a_lpEcc, a_advEcc, a_loupes, a_shadows, a_retire, a_rots, a_pages,
  a_granSpare, a_granDead, a_modBad, a_modWait, a_cycles, a_resets, a_resetFail, a_chReset, a_clReset, a_dieReset,
  a_dumps, a_vhist, a_capsules, a_sec, a_msix, a_mirror, a_cpl, a_cplPoison, a_tapOut, a_bar4, a_armIrq, a_sent,
  a_noRoute, a_free⟩ = s.memKey := by
  unfold State.memKey; rfl

theorem State.memKey_ite (c : Prop) [Decidable c] (s t : State) :
    (if c then s else t).memKey = if c then s.memKey else t.memKey := by split <;> rfl

/-- The state of a result, where the result is known. -/
theorem State.memKey_of_eq_pair {α : Type} {p : α × State} {a : α} {s t : State} (h : p = (a, t))
    (hp : p.2.memKey = s.memKey) : t.memKey = s.memKey := by rwa [h] at hp

/-- A fold that carries a result beside the state. -/
theorem State.foldl_fst_memKey {α β : Type} (f : State × β → α → State × β)
    (hf : ∀ p x, (f p x).1.memKey = p.1.memKey) (l : List α) (p : State × β) : (l.foldl f p).1.memKey = p.1.memKey := by
  induction l generalizing p with
  | nil => rfl
  | cons x l ih => rw [List.foldl_cons, ih, hf]

theorem State.foldl_snd_memKey {α β : Type} (f : β × State → α → β × State)
    (hf : ∀ p x, (f p x).2.memKey = p.2.memKey) (l : List α) (p : β × State) : (l.foldl f p).2.memKey = p.2.memKey := by
  induction l generalizing p with
  | nil => rfl
  | cons x l ih => rw [List.foldl_cons, ih, hf]

/-! ## Results and recursions that match on a read -/

/-- A result's state lists the same memory as `s`. Behind a name, so that the kernel compares results and does not
  evaluate
the projections of them. -/
def State.keepsMem {α : Type} (s : State) (p : α × State) : Prop := p.2.memKey = s.memKey

/-- What a recursion over a number may use of its calls: they leave memory alone. -/
def State.natCalls : (n : Nat) → Nat.below (motive := fun _ => State → State) n → Prop
  | 0, _ => True
  | _ + 1, f => ∀ s, (f.1 s).memKey = s.memKey

/-- A structural recursion over a number, by its body. (Its equation would do, but the kernel evaluates the reads that
the body matches on when it checks that one.) -/
theorem State.natRec_memKey {F : (n : Nat) → Nat.below (motive := fun _ => State → State) n → State → State}
    (hF : ∀ n f s, State.natCalls n f → (F n f s).memKey = s.memKey) (n : Nat) (s : State) :
    (Nat.brecOn (motive := fun _ => State → State) n F s).memKey = s.memKey := by
  induction n generalizing s with
  | zero => exact hF 0 _ s trivial
  | succ n ih => exact hF (n + 1) _ s ih

/-- What a recursion over a list may use of its calls. -/
def State.listCalls {α β : Type} : (l : List α) → List.below (motive := fun _ => State → β × State) l → Prop
  | [], _ => True
  | _ :: _, f => ∀ s : State, s.keepsMem (f.1 s)

theorem State.listRec_keepsMem {α β : Type}
    {F : (l : List α) → List.below (motive := fun _ => State → β × State) l → State → β × State}
    (hF : ∀ l f (s : State), State.listCalls l f → s.keepsMem (F l f s)) (l : List α) (s : State) :
    s.keepsMem (List.brecOn (motive := fun _ => State → β × State) l F s) := by
  induction l generalizing s with
  | nil => exact hF [] _ s trivial
  | cons x l ih => exact hF (x :: l) _ s ih

/-! ## The basic updates

Proved by unfolding, so that a rewrite with them is a step of the proof and no comparison of two states. -/

theorem State.setReg_memKey' (s : State) (k : Nat) (v : BitVec 32) : (s.setReg k v).memKey = s.memKey := by
  unfold State.setReg; rfl
theorem State.fset_memKey' (s : State) (f : Fld) (v : Nat) : (s.fset f v).memKey = s.memKey := by
  unfold State.fset; rfl
theorem State.fsat_memKey' (s : State) (f : Fld) (n : Nat) : (s.fsat f n).memKey = s.memKey := by
  unfold State.fsat; rfl
theorem State.fwrap_memKey' (s : State) (f : Fld) (n : Nat) : (s.fwrap f n).memKey = s.memKey := by
  unfold State.fwrap; rfl
theorem State.setFlag_memKey' (s : State) (f : Fld) (b : Bool) : (s.setFlag f b).memKey = s.memKey := by
  unfold State.setFlag; rfl
theorem State.irq_memKey' (s : State) (v : Nat) : (s.irq v).memKey = s.memKey := by
  unfold State.irq; rfl
theorem State.setEng_memKey' (s : State) (e : Nat) (x : Engine) : (s.setEng e x).memKey = s.memKey := by
  unfold State.setEng; rfl
theorem State.modEng_memKey' (s : State) (e : Nat) (f : Engine → Engine) : (s.modEng e f).memKey = s.memKey := by
  unfold State.modEng; rfl
theorem State.setCtx_memKey' (s : State) (k : Nat) (x : Ctx) : (s.setCtx k x).memKey = s.memKey := by
  unfold State.setCtx; rfl
theorem State.modCtx_memKey' (s : State) (k : Nat) (f : Ctx → Ctx) : (s.modCtx k f).memKey = s.memKey := by
  unfold State.modCtx; rfl
theorem State.draw_memKey' (s : State) : s.draw.2.memKey = s.memKey := by
  unfold State.draw; rfl

/-! ## Ops -/

@[simp] theorem State.setTag_memKey (s : State) (k : Nat) (x : Tag) : (s.setTag k x).memKey = s.memKey := by
  simp only [State.setTag, ↓State.memKey_with]
@[simp] theorem State.setTileB_memKey (s : State) (k : Nat) (v : BitVec 8) : (s.setTileB k v).memKey = s.memKey := by
  simp only [State.setTileB, ↓State.memKey_with]
@[simp] theorem State.setSideB_memKey (s : State) (k : Nat) (v : BitVec 8) : (s.setSideB k v).memKey = s.memKey := by
  simp only [State.setSideB, ↓State.memKey_with]
@[simp] theorem State.setAcc_memKey (s : State) (k : Nat) (v : BitVec 128) : (s.setAcc k v).memKey = s.memKey := by
  simp only [State.setAcc, ↓State.memKey_with]
@[simp] theorem State.setHead_memKey (s : State) (k : Nat) (v : BitVec 128) : (s.setHead k v).memKey = s.memKey := by
  simp only [State.setHead, ↓State.memKey_with]
@[simp] theorem State.setXfer_memKey (s : State) (k : Nat) (x : Xfer) : (s.setXfer k x).memKey = s.memKey := by
  simp only [State.setXfer, ↓State.memKey_with]
@[simp] theorem State.setBatch_memKey (s : State) (l : Nat) (x : List Batch) : (s.setBatch l x).memKey = s.memKey := by
  simp only [State.setBatch, ↓State.memKey_with]
@[simp] theorem State.setColl_memKey (s : State) (k : Nat) (x : Coll) : (s.setColl k x).memKey = s.memKey := by
  simp only [State.setColl, ↓State.memKey_with]
@[simp] theorem State.setWaiters_memKey (s : State) (k : Nat) (x : List Waiter) : (s.setWaiters k x).memKey =
  s.memKey := by
  simp only [State.setWaiters, ↓State.memKey_with]
@[simp] theorem State.setCq_memKey (s : State) (q : Nat) (x : CQ) : (s.setCq q x).memKey = s.memKey := by
  simp only [State.setCq, ↓State.memKey_with]
@[simp] theorem State.setPort_memKey (s : State) (p : Nat) (x : Port) : (s.setPort p x).memKey = s.memKey := by
  simp only [State.setPort, ↓State.memKey_with]
@[simp] theorem State.modPort_memKey (s : State) (p : Nat) (f : Port → Port) : (s.modPort p f).memKey = s.memKey := by
  simp only [State.modPort, State.setPort_memKey]
@[simp] theorem State.setRot_memKey (s : State) (u : Nat) (x : Rot) : (s.setRot u x).memKey = s.memKey := by
  simp only [State.setRot, ↓State.memKey_with]
@[simp] theorem State.setLoupe_memKey (s : State) (u : Nat) (x : Loupe) : (s.setLoupe u x).memKey = s.memKey := by
  simp only [State.setLoupe, ↓State.memKey_with]
@[simp] theorem State.noteWord_memKey (s : State) (w : Nat) (y : BitVec 7) (r : FRec) : (s.noteWord w y r).memKey =
  s.memKey
  := by
  unfold State.noteWord
  (repeat' split) <;> simp only [State.corrected_memKey, State.classify_memKey]

/-! ## Ceilings -/

@[simp] theorem State.modPower_memKey (s : State) (f : Power → Power) : (s.modPower f).memKey = s.memKey := by
  simp only [State.modPower, ↓State.memKey_with]
@[simp] theorem State.rePace_memKey (s : State) : s.rePace.memKey = s.memKey := by
  simp only [State.rePace, State.fset_memKey']

/-! ## Judge -/

@[simp] theorem State.settleFault_memKey (s : State) (r : FRec) (perm repro : Bool) : (s.settleFault r perm
  repro).memKey =
  s.memKey := by
  simp only [State.settleFault, ↓State.memKey_ite, ite_self, State.judgePermanent_memKey, State.fileNow_memKey,
    State.fsat_memKey']
@[simp] theorem State.settleWork_memKey (s : State) (p : ArithUnit → BitVec 32 → Bool) : (s.settleWork p).memKey =
  s.memKey
  := by
  simp only [State.settleWork, ↓State.memKey_with, State.foldl_memKey, implies_true, State.foldl_memKey,
    State.settleFault_memKey]
@[simp] theorem State.settleChunk_memKey (s : State) (k : ChunkId) : (s.settleChunk k).memKey = s.memKey := by
  simp only [State.settleChunk, State.settleWork_memKey]
@[simp] theorem State.settleVector_memKey (s : State) (unit : BitVec 32) : (s.settleVector unit).memKey = s.memKey := by
  simp only [State.settleVector, State.settleWork_memKey]
@[simp] theorem State.settleColl_memKey (s : State) (g i : Nat) : (s.settleColl g i).memKey = s.memKey := by
  simp only [State.settleColl, State.settleWork_memKey]
@[simp] theorem State.unitFault_memKey (s : State) (k : ArithUnit) (r : FRec) : (s.unitFault k r).2.memKey = s.memKey
  := by
  simp only [State.unitFault, ↓State.memKey_with, ↓State.memKey_ite, ite_self, State.settleWork_memKey,
    State.occur_memKey, State.settleFault_memKey, State.filePermanent_memKey, State.fileLimited_memKey]

/-! ## Link -/

@[simp] theorem State.pumpGo_memKey (s : State) (p : Nat) (tails : List (Nat × List MWord)) (y0 : List (BitVec 16 ×
  Msg)) (y1
  : List Nat) (y2 : List (BitVec 16 × Msg)) : (s.pumpGo p tails y0 y1 y2).memKey = s.memKey := by
  induction y0 generalizing s tails y1 y2 with
  | nil => rfl
  | cons m ms ih =>
    simp only [State.pumpGo]
    split <;> simp only [ih, ↓State.memKey_with, ↓State.memKey_with, State.setPort_memKey]
@[simp] theorem State.pump_memKey (s : State) (p : Nat) : (s.pump p).memKey = s.memKey := by
  simp only [State.pump, State.pumpGo_memKey]
@[simp] theorem State.postTo_memKey (s : State) (p : Nat) (dst : BitVec 16) (m : Msg) : (s.postTo p dst m).memKey =
  s.memKey
  := by
  simp only [State.postTo, State.modPort_memKey, State.pump_memKey]
@[simp] theorem State.post_memKey (s : State) (p : Nat) (m : Msg) : (s.post p m).memKey = s.memKey := by
  simp only [State.post, State.postTo_memKey]
@[simp] theorem State.sendIdle_memKey (s : State) (p : Nat) (nak : Bool) (cvc cred : Nat) : (s.sendIdle p nak cvc
  cred).memKey = s.memKey := by
  simp only [State.sendIdle, ↓State.memKey_with]
@[simp] theorem State.takeFlits_memKey (s : State) (p vc n : Nat) : (s.takeFlits p vc n).memKey = s.memKey := by
  simp only [State.takeFlits, State.modPort_memKey, State.sendIdle_memKey]
@[simp] theorem State.took_memKey (s : State) (src : BitVec 16) (m : Msg) : (s.took src m).memKey = s.memKey := by
  unfold State.took
  (repeat' split) <;> simp only [State.takeFlits_memKey]
@[simp] theorem State.toPkg_memKey (s : State) (pkg : BitVec 16) (m : Msg) : (s.toPkg pkg m).memKey = s.memKey := by
  unfold State.toPkg
  (repeat' split) <;> simp only [↓State.memKey_with, State.postTo_memKey]
@[simp] theorem State.issueTx_memKey (s : State) (r : RTx) : (s.issueTx r).2.memKey = s.memKey := by
  unfold State.issueTx
  (repeat' split) <;> simp only [State.post_memKey]
@[simp] theorem State.ask_memKey (s : State) (r : RTx) : (s.ask r).memKey = s.memKey := by
  simp only [State.ask, ↓State.memKey_with, State.issueTx_memKey]
@[simp] theorem State.ahead_memKey (s : State) (p : Nat) (ms : List Msg) : (s.ahead p ms).memKey = s.memKey := by
  simp only [State.ahead, ↓State.memKey_ite, ite_self, State.modPort_memKey, State.pump_memKey]
@[simp] theorem State.reroute_memKey (s : State) : s.reroute.memKey = s.memKey := by
  simp only [State.reroute, ↓State.memKey_with, State.foldl_memKey, implies_true, State.foldl_memKey,
    State.ahead_memKey, State.toPkg_memKey]
@[simp] theorem State.setPortState_memKey (s : State) (p st : Nat) : (s.setPortState p st).memKey = s.memKey := by
  simp only [State.setPortState, State.fset_memKey']
@[simp] theorem State.leaveActive_memKey (s : State) (p st : Nat) : (s.leaveActive p st).memKey = s.memKey := by
  simp only [State.leaveActive, ↓State.memKey_ite, ite_self, State.foldl_memKey, implies_true,
    State.setPortState_memKey, State.modPort_memKey, State.reroute_memKey, State.foldl_memKey, State.toPkg_memKey]

/-! ## Idle -/

@[simp] theorem State.setFull_memKey (s : State) (e t : Nat) (b : Bool) : (s.setFull e t b).memKey = s.memKey := by
  simp only [State.setFull, State.setTag_memKey]
@[simp] theorem State.reHold_memKey (s : State) (e : Nat) : (s.reHold e).memKey = s.memKey := by
  unfold State.reHold
  (repeat' split) <;> simp only [State.foldl_memKey, implies_true, State.foldl_memKey, State.setXfer_memKey]
@[simp] theorem State.topUpGo_memKey (s : State) (l n : Nat) (y0 : Nat) : (s.topUpGo l n y0).memKey = s.memKey := by
  induction y0 generalizing s with
  | zero => rfl
  | succ n ih =>
    simp only [State.topUpGo]
    (repeat' split) <;> simp only [ih, State.setXfer_memKey, State.ask_memKey]
@[simp] theorem State.topUp_memKey (s : State) (l n : Nat) : (s.topUp l n).memKey = s.memKey := by
  simp only [State.topUp, ↓State.memKey_ite, ite_self, State.topUpGo_memKey]
@[simp] theorem State.addIdle_memKey (s : State) (c : Nat) (dt : BitVec 64) : (s.addIdle c dt).memKey = s.memKey := by
  simp only [State.addIdle, ↓State.memKey_with]
@[simp] theorem State.settle_memKey (s : State) (e : Nat) : (s.settle e).memKey = s.memKey := by
  unfold State.settle
  (repeat' split) <;> simp only [↓State.memKey_ite, ite_self, State.setEng_memKey', State.modEng_memKey',
    State.addIdle_memKey]
@[simp] theorem State.payPeer_memKey (s : State) (e : Nat) : (s.payPeer e).memKey = s.memKey := by
  simp only [State.payPeer, ↓State.memKey_ite, ite_self, State.setEng_memKey', State.addIdle_memKey]
@[simp] theorem State.endWait_memKey (s : State) (e k : Nat) (f : Ctx → Ctx) : (s.endWait e k f).memKey = s.memKey := by
  simp only [State.endWait, ↓State.memKey_ite, ite_self, State.settle_memKey, State.payPeer_memKey,
    State.modCtx_memKey']
@[simp] theorem State.wake_memKey (s : State) (e why : Nat) : (s.wake e why).memKey = s.memKey := by
  simp only [State.wake, ↓State.memKey_ite, ite_self, State.foldl_memKey, implies_true, State.foldl_memKey,
    State.endWait_memKey]
@[simp] theorem State.offer_memKey (s : State) (e l : Nat) : (s.offer e l).memKey = s.memKey := by
  simp only [State.offer, ↓State.memKey_ite, ite_self, State.wake_memKey]

/-! ## Tile -/

@[simp] theorem State.useStep_memKey (s : State) (e : Nat) : (s.useStep e).memKey = s.memKey := by
  simp only [State.useStep, ↓State.memKey_ite, ite_self, State.modEng_memKey']
@[simp] theorem State.illegal_memKey (s : State) (e k : Nat) : (s.illegal e k).memKey = s.memKey := by
  simp only [State.illegal, State.modCtx_memKey']
@[simp] theorem State.progRead_memKey (s : State) (src : Src) (pkg : BitVec 16) (head : Bool) (a : Nat) : (s.progRead
  src pkg
  head a).memKey = s.memKey := by
  unfold State.progRead
  (repeat' split) <;> simp only [State.addrErr_memKey, State.holeHit_memKey, State.onRead_memKey]
@[simp] theorem State.progFetch_memKey (s : State) (e k : Nat) (w : BitVec 64) : (s.progFetch e k w).memKey =
  s.memKey := by
  simp only [State.progFetch, State.foldl_memKey, implies_true, State.foldl_memKey, State.progRead_memKey]

theorem State.atIssue_memKey (s : State) (e k : Nat) (w : BitVec 64) (legal : Bool) (f : State → Ctx → State)
    (hf : ∀ s x, (f s x).memKey = s.memKey) : (s.atIssue e k w legal f).memKey = s.memKey := by
  unfold State.atIssue
  dsimp only
  (repeat' split) <;> simp only [hf, State.illegal_memKey, State.useStep_memKey, State.settle_memKey,
    State.progFetch_memKey]
@[simp] theorem State.issueTile_memKey (s : State) (c : Cx) (w ext : BitVec 64) : (s.issueTile c w ext).memKey =
  s.memKey :=
  by
  simp only [State.issueTile, ↓State.memKey_with, ↓State.memKey_ite, ite_self, implies_true, State.atIssue_memKey,
    State.setCtx_memKey', State.modEng_memKey']

@[simp] theorem State.issueLpsamp_memKey (s : State) (c : Cx) (w : BitVec 64) : (s.issueLpsamp c w).memKey = s.memKey
  := by
  refine State.atIssue_memKey _ _ _ _ _ _ fun s x => ?_
  dsimp only
  split <;> simp only [State.setLoupe_memKey, State.modEng_memKey', State.setCtx_memKey']

/-! ## Staging -/

@[simp] theorem State.clrShadow_memKey (s : State) (x : Shadow) : (s.clrShadow x).memKey = s.memKey := by
  unfold State.clrShadow
  (repeat' split) <;> simp only [State.setTag_memKey]
@[simp] theorem State.showUsed_memKey (s : State) (u : Nat) : (s.showUsed u).memKey = s.memKey := by
  simp only [State.showUsed, State.fset_memKey']
@[simp] theorem State.dropShadow_memKey (s : State) (x : Shadow) (count : Bool) : (s.dropShadow x count).memKey =
  s.memKey :=
  by
  simp only [State.dropShadow, ↓State.memKey_with, ↓State.memKey_ite, ite_self, State.clrShadow_memKey,
    State.fsat_memKey', State.showUsed_memKey]
@[simp] theorem State.touch_memKey (s : State) (u o : Nat) : (s.touch u o).memKey = s.memKey := by
  unfold State.touch
  (repeat' split) <;> simp only [State.dropShadow_memKey]
@[simp] theorem State.putStg_memKey (s : State) (u o : Nat) (w : MWord) : (s.putStg u o w).memKey = s.memKey := by
  simp only [State.putStg, ↓State.memKey_with]
@[simp] theorem State.writeStg_memKey (s : State) (u o : Nat) (w : MWord) : (s.writeStg u o w).memKey = s.memKey := by
  simp only [State.writeStg, State.touch_memKey, State.putStg_memKey]
@[simp] theorem State.readStg_memKey (s : State) (src : Src) (u o : Nat) : (s.readStg src u o).2.memKey = s.memKey := by
  unfold State.readStg
  dsimp only
  (repeat' split) <;> simp only [↓State.memKey_with, State.putStg_memKey, State.noteWord_memKey]
@[simp] theorem State.putWordsAt_memKey (s : State) (u o : Nat) (y0 : List (BitVec 32)) : (s.putWordsAt u o y0).memKey =
  s.memKey := by
  induction y0 generalizing s o with
  | nil => rfl
  | cons _ _ ih => simp only [State.putWordsAt, ih, State.putStg_memKey]
@[simp] theorem State.placeShadow_memKey (s : State) (u l tile : Nat) (half : Bool) (copy : List (BitVec 32)) :
  (s.placeShadow u l tile half copy).memKey = s.memKey := by
  unfold State.placeShadow
  dsimp only
  (repeat' split) <;> simp only [↓State.memKey_with, State.dropShadow_memKey, State.putWordsAt_memKey,
    State.showUsed_memKey]
@[simp] theorem State.freeShadow_memKey (s : State) (l tile : Nat) (half : Bool) : (s.freeShadow l tile half).memKey =
  s.memKey := by
  unfold State.freeShadow
  (repeat' split) <;> simp only [State.dropShadow_memKey]

/-! ## Scalar -/

@[simp] theorem State.scalarOp_memKey (s : State) (c : Cx) (w : BitVec 64) (f : BitVec 32 → BitVec 32 → BitVec 32) :
  (s.scalarOp c w f).memKey = s.memKey := by
  simp only [State.scalarOp, ↓State.memKey_ite, ite_self, implies_true, State.atIssue_memKey, State.setCtx_memKey']

/-! ## Sync -/

@[simp] theorem State.modCmd_memKey (s : State) (q : Nat) (seq : BitVec 32) (f : Cmd → Cmd) : (s.modCmd q seq
  f).memKey =
  s.memKey := by
  simp only [State.modCmd, State.setCq_memKey]
@[simp] theorem State.serve_memKey (s : State) (w : Waiter) : (s.serve w).memKey = s.memKey := by
  unfold State.serve
  (repeat' split) <;> simp only [State.endWait_memKey, State.modCmd_memKey]
@[simp] theorem State.serviceLoop_memKey (s : State) (u k : Nat) (y0 : List Waiter) : (s.serviceLoop u k y0).memKey =
  s.memKey := by
  induction y0 generalizing s with
  | nil => rfl
  | cons _ _ ih =>
    simp only [State.serviceLoop]
    (repeat' split) <;> simp only [ih, State.setWaiters_memKey, State.fset_memKey', State.serve_memKey]
@[simp] theorem State.service_memKey (s : State) (u k : Nat) : (s.service u k).memKey = s.memKey := by
  simp only [State.service, State.serviceLoop_memKey]
@[simp] theorem State.signal_memKey (s : State) (u k n who : Nat) : (s.signal u k n who).memKey = s.memKey := by
  simp only [State.signal, ↓State.memKey_with, ↓State.memKey_ite, ite_self, State.setFlag_memKey',
    State.fset_memKey', State.service_memKey]
@[simp] theorem State.semWrite_memKey (s : State) (u k : Nat) (v : BitVec 32) : (s.semWrite u k v).memKey = s.memKey
  := by
  simp only [State.semWrite, ↓State.memKey_ite, ite_self, State.setFlag_memKey', State.fset_memKey',
    State.service_memKey]

/-! ## Scale -/

@[simp] theorem State.setSctW_memKey (s : State) (i k : Nat) (v : BitVec 32) : (s.setSctW i k v).memKey = s.memKey := by
  simp only [State.setSctW, ↓State.memKey_with]
@[simp] theorem State.checkSct_memKey (s : State) (i : Nat) : (s.checkSct i).memKey = s.memKey := by
  simp only [State.checkSct, ↓State.memKey_with, State.foldl_memKey, implies_true, State.foldl_memKey,
    State.noteWord_memKey]
@[simp] theorem State.putWords_memKey (s : State) (i : Nat) (y0 : Nat) (y1 : List (BitVec 32)) : (s.putWords i y0
  y1).memKey
  = s.memKey := by
  induction y1 generalizing s y0 with
  | nil => rfl
  | cons _ _ ih => simp only [State.putWords, ih, State.setSctW_memKey]
@[simp] theorem State.setEntry_memKey (s : State) (i : Nat) (e : Entry) : (s.setEntry i e).memKey = s.memKey := by
  simp only [State.setEntry, State.putWords_memKey]
@[simp] theorem State.recordAmax_memKey (s : State) (i : Nat) (step : BitVec 32) (a : Nat) : (s.recordAmax i step
  a).memKey =
  s.memKey := by
  simp only [State.recordAmax, ↓State.memKey_ite, ite_self, State.checkSct_memKey, State.setEntry_memKey]
@[simp] theorem State.charge_memKey (s : State) (i sat ufl nf : Nat) : (s.charge i sat ufl nf).memKey = s.memKey := by
  simp only [State.charge, ↓State.memKey_ite, ite_self, State.checkSct_memKey, State.setEntry_memKey,
    State.fsat_memKey']

@[simp] theorem State.scaleAdvance_memKey (s : State) : s.scaleAdvance.memKey = s.memKey := by
  unfold State.scaleAdvance
  dsimp only
  rw [State.setReg_memKey', State.fset_memKey', State.foldl_fst_memKey]
  intro p i
  split <;> simp only [State.setEntry_memKey, State.checkSct_memKey]
@[simp] theorem State.evalSlot_memKey (s : State) (k : Nat) : (s.evalSlot k).memKey = s.memKey := by
  unfold State.evalSlot
  (repeat' split) <;> simp only [State.setReg_memKey']
@[simp] theorem State.evalSchedules_memKey (s : State) : s.evalSchedules.memKey = s.memKey := by
  simp only [State.evalSchedules, State.foldl_memKey, implies_true, State.foldl_memKey, State.evalSlot_memKey]
@[simp] theorem State.putWin_memKey (s : State) (y0 : Nat) (y1 : List (BitVec 32)) : (s.putWin y0 y1).memKey =
  s.memKey := by
  induction y1 generalizing s y0 with
  | nil => rfl
  | cons _ _ ih => simp only [State.putWin, ih, State.setReg_memKey']
@[simp] theorem State.winCmd_memKey (s : State) (op i : Nat) : (s.winCmd op i).memKey = s.memKey := by
  simp only [State.winCmd, State.fset_memKey', State.setFlag_memKey', State.fwrap_memKey']
@[simp] theorem State.winRead_memKey (s : State) (i : Nat) : (s.winRead i).memKey = s.memKey := by
  simp only [State.winRead, State.checkSct_memKey, State.winCmd_memKey, State.putWin_memKey]
@[simp] theorem State.winWrite_memKey (s : State) (i : Nat) : (s.winWrite i).memKey = s.memKey := by
  simp only [State.winWrite, ↓State.memKey_ite, ite_self, State.winCmd_memKey, State.setFlag_memKey',
    State.setEntry_memKey]
@[simp] theorem State.winClear_memKey (s : State) (i : Nat) : (s.winClear i).memKey = s.memKey := by
  simp only [State.winClear, State.checkSct_memKey, State.winCmd_memKey, State.setEntry_memKey]
@[simp] theorem State.writeStep_memKey (s : State) (v : BitVec 32) : (s.writeStep v).memKey = s.memKey := by
  simp only [State.writeStep, ↓State.memKey_ite, ite_self, State.setFlag_memKey', State.setReg_memKey',
    State.evalSchedules_memKey]

/-! ## TileRun -/

@[simp] theorem State.setTileSyn_memKey (s : State) (e t i : Nat) (y : BitVec 7) : (s.setTileSyn e t i y).memKey =
  s.memKey
  := by
  simp only [State.setTileSyn, ↓State.memKey_with]
@[simp] theorem State.setTb_memKey (s : State) (e t i v : Nat) : (s.setTb e t i v).memKey = s.memKey := by
  simp only [State.setTb, State.setTileB_memKey, State.setTileSyn_memKey]
@[simp] theorem State.setSb_memKey (s : State) (e t i v : Nat) : (s.setSb e t i v).memKey = s.memKey := by
  simp only [State.setSb, State.setSideB_memKey, State.setTileSyn_memKey]
@[simp] theorem State.checkWord_memKey (s : State) (e t i : Nat) (r : FRec) : (s.checkWord e t i r).memKey = s.memKey
  := by
  simp only [State.checkWord, ↓State.memKey_ite, ite_self, State.setTb_memKey, State.setSb_memKey,
    State.setTileSyn_memKey, State.setTag_memKey, State.noteWord_memKey]
@[simp] theorem State.checkTile_memKey (s : State) (e : Nat) (r : FRec) (t : Nat) : (s.checkTile e r t).memKey =
  s.memKey :=
  by
  simp only [State.checkTile, State.foldl_memKey, implies_true, State.foldl_memKey, State.checkWord_memKey]
@[simp] theorem State.checkTiles_memKey (s : State) (e : Nat) (q : QEnt) (ts : List Nat) : (s.checkTiles e q
  ts).memKey =
  s.memKey := by
  simp only [State.checkTiles, State.foldl_memKey, implies_true, State.foldl_memKey, State.checkTile_memKey]
@[simp] theorem State.finish_memKey (s : State) (e : Nat) (q : QEnt) (c : Code) (m : Num4) (cause pairs : Nat) :
  (s.finish e
  q c m cause pairs).memKey = s.memKey := by
  simp only [State.finish, State.settle_memKey, State.modEng_memKey', State.modCtx_memKey', State.reHold_memKey]
@[simp] theorem State.numFault_memKey (s : State) (e : Nat) (q : QEnt) (cause pairs : Nat) : (s.numFault e q cause
  pairs).memKey = s.memKey := by
  simp only [State.numFault, State.finish_memKey]
@[simp] theorem State.setHd_memKey (s : State) (e a : Nat) (h : Hd) : (s.setHd e a h).memKey = s.memKey := by
  simp only [State.setHd, State.setHead_memKey]
@[simp] theorem State.setEl_memKey (s : State) (e a i : Nat) (x : El) : (s.setEl e a i x).memKey = s.memKey := by
  simp only [State.setEl, State.setAcc_memKey]
@[simp] theorem State.mapAcc_memKey (s : State) (e a : Nat) (f : Nat → El → El) : (s.mapAcc e a f).memKey = s.memKey
  := by
  simp only [State.mapAcc, State.foldl_memKey, implies_true, State.foldl_memKey, State.setEl_memKey]
@[simp] theorem State.poisonAcc_memKey (s : State) (e a : Nat) : (s.poisonAcc e a).memKey = s.memKey := by
  simp only [State.poisonAcc, State.mapAcc_memKey]
@[simp] theorem State.addPair_memKey (s : State) (e : Nat) (w : BitVec 64) (i : Nat) : (s.addPair e w i).memKey =
  s.memKey :=
  by
  simp only [State.addPair, State.mapAcc_memKey, State.setHd_memKey, State.modEng_memKey']
@[simp] theorem State.loupePair_memKey (s : State) (e a : Nat) (fresh : Bool) (ta fa : Nat) (ra : Bool) (tb fb : Nat)
  (rb :
  Bool) (hs : List (Nat × Nat)) : (s.loupePair e a fresh ta fa ra tb fb rb hs).memKey = s.memKey := by
  simp only [State.loupePair, ↓State.memKey_ite, ite_self, State.setLoupe_memKey]
@[simp] theorem State.loupeBreak_memKey (s : State) (e a : Nat) : (s.loupeBreak e a).memKey = s.memKey := by
  simp only [State.loupeBreak, ↓State.memKey_ite, ite_self, State.setLoupe_memKey]
@[simp] theorem State.consume_memKey (s : State) (e t : Nat) (c : Bool) : (s.consume e t c).memKey = s.memKey := by
  simp only [State.consume, ↓State.memKey_ite, ite_self, State.setFull_memKey]
@[simp] theorem State.lateOn_memKey (s : State) (e k : Nat) (ts : List Nat) : (s.lateOn e k ts).memKey = s.memKey := by
  simp only [State.lateOn, State.settle_memKey, State.modCtx_memKey']
@[simp] theorem State.addMirror_memKey (s : State) (e : Nat) (w : BitVec 64) : (s.addMirror e w).memKey = s.memKey := by
  simp only [State.addMirror, State.mapAcc_memKey, State.loupePair_memKey, State.setHd_memKey, State.modEng_memKey']

/-! ## TileDone -/

@[simp] theorem State.putTile_memKey (s : State) (e t i : Nat) (y0 : List Nat) : (s.putTile e t i y0).memKey =
  s.memKey := by
  induction y0 generalizing s i with
  | nil => rfl
  | cons _ _ ih => simp only [State.putTile, ih, State.setTb_memKey]
@[simp] theorem State.putSide_memKey (s : State) (e t i : Nat) (y0 : List Nat) : (s.putSide e t i y0).memKey =
  s.memKey := by
  induction y0 generalizing s i with
  | nil => rfl
  | cons _ _ ih => simp only [State.putSide, ih, State.setSb_memKey]
@[simp] theorem State.store32_memKey (s : State) (e : Nat) (d : Dest) (codes : List Nat) (poison : List Bool) (scales
  : List
  Nat) (copy : List (BitVec 32)) : (s.store32 e d codes poison scales copy).memKey = s.memKey := by
  simp only [State.store32, ↓State.memKey_ite, ite_self, State.foldl_memKey, implies_true, State.foldl_memKey,
    State.putTile_memKey, State.putSide_memKey, State.freeShadow_memKey, State.setTag_memKey,
    State.placeShadow_memKey, State.setSb_memKey]
@[simp] theorem State.deliver32_memKey (s : State) (e : Nat) (d : Dest) (te : Bool) (step : BitVec 32) (r : Result) :
  (s.deliver32 e d te step r).1.memKey = s.memKey := by
  unfold State.deliver32
  (repeat' split) <;> simp only [State.store32_memKey, State.charge_memKey, State.recordAmax_memKey]
@[simp] theorem State.loadImage_memKey (s : State) (e : Nat) (q : QEnt) (hdr : BitVec 128) (el : Nat → BitVec 128)
  (pz : Nat
  → Bool) : (s.loadImage e q hdr el pz).memKey = s.memKey := by
  simp only [State.loadImage, ↓State.memKey_ite, ite_self, State.foldl_memKey, implies_true, State.foldl_memKey,
    State.setEl_memKey, State.eventR_memKey, State.loupeBreak_memKey, State.setHead_memKey]
@[simp] theorem State.startImage_memKey (s : State) (e : Nat) (q : QEnt) : (s.startImage e q).memKey = s.memKey := by
  unfold State.startImage
  (repeat' split) <;> simp only [↓State.memKey_ite, ite_self, State.setXfer_memKey, State.topUp_memKey,
    State.lateOn_memKey, State.offer_memKey, State.numFault_memKey, State.loadImage_memKey, State.settle_memKey,
    State.modEng_memKey']
@[simp] theorem State.startReads_memKey (s : State) (e : Nat) (q : QEnt) : (s.startReads e q).memKey = s.memKey := by
  simp only [State.startReads, ↓State.memKey_ite, ite_self, State.checkTiles_memKey, State.checkSct_memKey]
@[simp] theorem State.preload_memKey (s : State) (e : Nat) (w : BitVec 64) : (s.preload e w).memKey = s.memKey := by
  simp only [State.preload, State.mapAcc_memKey, State.loupeBreak_memKey, State.setHd_memKey]
@[simp] theorem State.imageToTiles_memKey (s : State) (e a t : Nat) : (s.imageToTiles e a t).memKey = s.memKey := by
  simp only [State.imageToTiles, State.foldl_memKey, implies_true, State.foldl_memKey, State.putTile_memKey,
    State.putSide_memKey, State.freeShadow_memKey, State.setTag_memKey]
@[simp] theorem State.loupeEnd_memKey (s : State) (e a : Nat) (d : Dest) : (s.loupeEnd e a d).memKey = s.memKey := by
  unfold State.loupeEnd
  dsimp only
  (repeat' split) <;> simp only [State.setLoupe_memKey]
@[simp] theorem State.accstRound_memKey (s : State) (e : Nat) (q : QEnt) : (s.accstRound e q).memKey = s.memKey := by
  simp only [State.accstRound, State.deliver32_memKey, State.loupeEnd_memKey, State.finish_memKey]
@[simp] theorem State.vamax_memKey (s : State) (e : Nat) (q : QEnt) : (s.vamax e q).memKey = s.memKey := by
  simp only [State.vamax, ↓State.memKey_ite, ite_self, State.modCtx_memKey', State.recordAmax_memKey,
    State.setSctW_memKey, State.consume_memKey, State.finish_memKey]
@[simp] theorem State.vector_memKey (s : State) (e : Nat) (q : QEnt) : (s.vector e q).memKey = s.memKey := by
  simp only [State.vector, ↓State.memKey_ite, ite_self, State.consume_memKey, State.deliver32_memKey,
    State.finish_memKey]

/-! ## Streams -/

@[simp] theorem State.startXfer_memKey (s : State) (e l n : Nat) (x : Xfer) : (s.startXfer e l n x).memKey = s.memKey
  := by
  simp only [State.startXfer, State.setXfer_memKey, State.topUp_memKey, State.reHold_memKey]

@[simp] theorem State.issueStream_memKey (s : State) (c : Cx) (w : BitVec 64) (store : Bool) : (s.issueStream c w
  store).memKey = s.memKey := by
  refine State.atIssue_memKey _ _ _ _ _ _ fun s x => ?_
  dsimp only
  (repeat' split) <;> simp only [State.illegal_memKey, State.setCtx_memKey', State.startXfer_memKey, ↓State.memKey_with]
@[simp] theorem State.sweep_memKey (s : State) (e l : Nat) : (s.sweep e l).memKey = s.memKey := by
  simp only [State.sweep, ↓State.memKey_ite, ite_self, State.setBatch_memKey, State.wake_memKey, State.offer_memKey]
@[simp] theorem State.readDesc_memKey (s : State) (e : Nat) (b : Batch) (i : Nat) : (s.readDesc e b i).2.memKey =
  s.memKey :=
  by
  simp only [State.readDesc, State.readN_memKey]

@[simp] theorem State.burst_memKey (s : State) (e : Nat) (b : Batch) (y0 : Nat) : (s.burst e b y0).2.memKey =
  s.memKey := by
  induction y0 generalizing s b with
  | zero => rfl
  | succ n ih =>
    simp only [State.burst]
    split
    · rfl
    · split
      · next h => exact State.memKey_of_eq_pair h (s.readDesc_memKey e b _)
      · next h => rw [ih, State.memKey_of_eq_pair h (s.readDesc_memKey e b _)]
@[simp] theorem State.prefetch_memKey (s : State) (b : Batch) : (s.prefetch b).memKey = s.memKey := by
  simp only [State.prefetch, ↓State.memKey_ite, ite_self, State.foldl_memKey, implies_true, State.foldl_memKey,
    State.readAhead_memKey]
@[simp] theorem State.orPoison_memKey (s : State) (e t : Nat) (m : BitVec 512) : (s.orPoison e t m).memKey = s.memKey
  := by
  simp only [State.orPoison, State.setTag_memKey]
@[simp] theorem State.fillRow_memKey (s : State) (e t r : Nat) (y0 : Nat) (y1 : List MWord) : (s.fillRow e t r y0
  y1).memKey
  = s.memKey := by
  induction y1 generalizing s y0 with
  | nil => rfl
  | cons _ _ ih =>
    simp only [State.fillRow]
    (repeat' split) <;> simp only [ih, State.putTile_memKey, State.orPoison_memKey]
@[simp] theorem State.fillTransposed_memKey (s : State) (e t : Nat) (d : Desc) (k : Nat) (ws : List MWord) :
  (s.fillTransposed e t d k ws).memKey = s.memKey := by
  simp only [State.fillTransposed, ↓State.memKey_ite, ite_self, State.foldl_memKey, implies_true, State.foldl_memKey,
    State.setTb_memKey, State.orPoison_memKey]
@[simp] theorem State.shadeHalf_memKey (s : State) (e l t : Nat) (half : Bool) (ws : List MWord) : (s.shadeHalf e l t
  half
  ws).memKey = s.memKey := by
  simp only [State.shadeHalf, ↓State.memKey_ite, ite_self, State.placeShadow_memKey, State.setTag_memKey]
@[simp] theorem State.endFill_memKey (s : State) (e l t : Nat) (d : Desc) (copy : List MWord) : (s.endFill e l t d
  copy).memKey = s.memKey := by
  simp only [State.endFill, ↓State.memKey_ite, ite_self, State.freeShadow_memKey, State.setTag_memKey,
    State.putSide_memKey, State.shadeHalf_memKey]

@[simp] theorem State.landUnit_memKey (s : State) (e l n : Nat) (x : Xfer) (ws : List MWord) : (s.landUnit e l n x
  ws).memKey
  = s.memKey := by
  unfold State.landUnit
  dsimp only
  split
  · split
    · refine (State.foldl_fst_memKey _ (fun p w => ?_) _ _)
      simp only [State.writeStg_memKey]
    · (repeat' split) <;> simp only [State.endFill_memKey, State.fillTransposed_memKey, State.fillRow_memKey,
        State.setTag_memKey]
  · (repeat' split) <;> simp only [State.endFill_memKey, State.orPoison_memKey, State.putSide_memKey]
  · split <;> simp only [State.endFill_memKey, State.setXfer_memKey]

@[simp] theorem State.liftUnit_memKey (s : State) (e : Nat) (x : Xfer) : (s.liftUnit e x).2.memKey = s.memKey := by
  unfold State.liftUnit
  dsimp only
  split
  · split
    · refine State.foldl_snd_memKey _ (fun p i => ?_) _ _
      simp only [State.readStg_memKey]
    · rfl
  · rfl
@[simp] theorem State.progress_memKey (s : State) (e l n k : Nat) : (s.progress e l n k).memKey = s.memKey := by
  simp only [State.progress, ↓State.memKey_ite, ite_self, State.setXfer_memKey, State.eventR_memKey,
    State.setFlag_memKey', State.setReg_memKey', State.reHold_memKey]
@[simp] theorem State.freeXfer_memKey (s : State) (e l n : Nat) : (s.freeXfer e l n).memKey = s.memKey := by
  simp only [State.freeXfer, State.setXfer_memKey, State.offer_memKey]
@[simp] theorem State.nextWords_memKey (s : State) (e : Nat) (x : Xfer) : (s.nextWords e x).2.memKey = s.memKey := by
  unfold State.nextWords
  dsimp only
  (repeat' split) <;> simp only [State.readN_memKey, State.addrErr_memKey]

@[simp] theorem State.fetchUnit_memKey (s : State) (e l n : Nat) : (s.fetchUnit e l n).memKey = s.memKey := by
  unfold State.fetchUnit
  dsimp only
  split
  · simp only [State.reHold_memKey]
  · split
    · next h => exact State.memKey_of_eq_pair h (s.nextWords_memKey e _)
    · next h =>
      simp only [State.topUp_memKey, State.progress_memKey, State.landUnit_memKey, State.setXfer_memKey]
      exact State.memKey_of_eq_pair h (s.nextWords_memKey e _)

@[simp] theorem State.imageUnit_memKey (s : State) (e l n : Nat) : (s.imageUnit e l n).memKey = s.memKey := by
  unfold State.imageUnit
  dsimp only
  split
  · next h => exact State.memKey_of_eq_pair h (s.nextWords_memKey e _)
  · next h =>
    simp only [State.topUp_memKey, State.progress_memKey, State.setXfer_memKey]
    exact State.memKey_of_eq_pair h (s.nextWords_memKey e _)
@[simp] theorem State.noPath_memKey (s : State) (e : Nat) (x : Xfer) : (s.noPath e x).memKey = s.memKey := by
  simp only [State.noPath, ↓State.memKey_ite, ite_self, State.modCtx_memKey']

/-! ## Rights -/

@[simp] theorem State.deny_memKey (s : State) (r : Req) (k : Nat) (v : BitVec 32) : (s.deny r k v).memKey = s.memKey
  := by
  simp only [State.deny, ↓State.memKey_ite, ite_self, State.addrErr_memKey, State.fsat_memKey']
@[simp] theorem State.plainWrite_memKey (s : State) (r : Req) (k : Nat) (v : BitVec 32) : (s.plainWrite r k v).memKey =
  s.memKey := by
  simp only [State.plainWrite, State.setReg_memKey', State.deny_memKey]

theorem State.acting_memKey (s : State) (r : Req) (k : Nat) (v : BitVec 32) (f : State → State)
    (hf : ∀ s, (f s).memKey = s.memKey) : (s.acting r k v f).memKey = s.memKey := by
  unfold State.acting
  split <;> simp only [hf, State.plainWrite_memKey]

/-! ## Tree -/

@[simp] theorem State.setGrpW_memKey (s : State) (g k : Nat) (v : BitVec 32) : (s.setGrpW g k v).memKey = s.memKey := by
  simp only [State.setGrpW, ↓State.memKey_with]
@[simp] theorem State.checkGrp_memKey (s : State) (g : Nat) : (s.checkGrp g).memKey = s.memKey := by
  simp only [State.checkGrp, ↓State.memKey_with, State.foldl_memKey, implies_true, State.foldl_memKey,
    State.noteWord_memKey]
@[simp] theorem State.putGrp_memKey (s : State) (g : Nat) (y0 : Nat) (y1 : List (BitVec 32)) : (s.putGrp g y0
  y1).memKey =
  s.memKey := by
  induction y1 generalizing s y0 with
  | nil => rfl
  | cons _ _ ih => simp only [State.putGrp, ih, State.setGrpW_memKey]
@[simp] theorem State.putGrpWin_memKey (s : State) (y0 : Nat) (y1 : List (BitVec 32)) : (s.putGrpWin y0 y1).memKey =
  s.memKey
  := by
  induction y1 generalizing s y0 with
  | nil => rfl
  | cons _ _ ih => simp only [State.putGrpWin, ih, State.setReg_memKey']
@[simp] theorem State.grpCmd_memKey (s : State) (op i : Nat) : (s.grpCmd op i).memKey = s.memKey := by
  simp only [State.grpCmd, State.fset_memKey', State.fwrap_memKey']
@[simp] theorem State.grpRead_memKey (s : State) (i : Nat) : (s.grpRead i).memKey = s.memKey := by
  simp only [State.grpRead, State.checkGrp_memKey, State.grpCmd_memKey, State.putGrpWin_memKey]
@[simp] theorem State.grpWrite_memKey (s : State) (i : Nat) : (s.grpWrite i).memKey = s.memKey := by
  simp only [State.grpWrite, ↓State.memKey_ite, ite_self, State.grpCmd_memKey, State.setFlag_memKey',
    State.putGrp_memKey, State.readN_memKey]
@[simp] theorem State.stray_memKey (s : State) : s.stray.memKey = s.memKey := by
  simp only [State.stray, State.fsat_memKey']
@[simp] theorem State.toAll_memKey (s : State) (ds : List Nat) (m : Msg) : (s.toAll ds m).memKey = s.memKey := by
  simp only [State.toAll, State.foldl_memKey, implies_true, State.foldl_memKey, State.toPkg_memKey]

/-! ## Collect -/

@[simp] theorem State.readElems_memKey (s : State) (src : Src) (g : BitVec 64) (n : Nat) : (s.readElems src g
  n).2.memKey =
  s.memKey := by
  unfold State.readElems
  (repeat' split) <;> simp only [State.readN_memKey, State.addrErr_memKey]
@[simp] theorem State.setInst_memKey (s : State) (k : Nat) (x : Inst) : (s.setInst k x).memKey = s.memKey := by
  simp only [State.setInst, ↓State.memKey_with, State.fset_memKey']
@[simp] theorem State.closeInst_memKey (s : State) (k : Nat) : (s.closeInst k).memKey = s.memKey := by
  simp only [State.closeInst, ↓State.memKey_ite, ite_self, State.setInst_memKey, State.settleColl_memKey]
@[simp] theorem State.endMember_memKey (s : State) (k m : Nat) (c : Code) (cause : Nat) : (s.endMember k m c
  cause).memKey =
  s.memKey := by
  unfold State.endMember
  dsimp only
  (repeat' split) <;> simp only [State.setInst_memKey, State.setColl_memKey, State.closeInst_memKey,
    State.settle_memKey, State.modCtx_memKey', State.wake_memKey, State.signal_memKey]
@[simp] theorem State.endAll_memKey (s : State) (k : Nat) (c : Code) (cause : Nat) : (s.endAll k c cause).memKey =
  s.memKey
  := by
  simp only [State.endAll, State.foldl_memKey, implies_true, State.foldl_memKey, State.endMember_memKey]
@[simp] theorem State.readImages_memKey (s : State) (src : Src) (g : BitVec 64) (n : Nat) : (s.readImages src g
  n).2.memKey =
  s.memKey := by
  unfold State.readImages
  (repeat' split) <;> simp only [State.readN_memKey, State.addrErr_memKey]
@[simp] theorem State.hurtOut_memKey (s : State) (k : Nat) (v : List Elem) : (s.hurtOut k v).2.memKey = s.memKey := by
  unfold State.hurtOut
  dsimp only
  (repeat' split) <;> simp only [State.setInst_memKey]
@[simp] theorem State.readColl_memKey (s : State) (src : Src) (g : BitVec 64) : (s.readColl src g).2.memKey =
  s.memKey := by
  unfold State.readColl
  dsimp only
  (repeat' split) <;> simp only [State.readN_memKey, State.addrErr_memKey]

/-! ## Barrier -/

@[simp] theorem State.modBar_memKey (s : State) (p : BarId × Bar → Bool) (f : Bar → Bar) : (s.modBar p f).memKey =
  s.memKey
  := by
  simp only [State.modBar, ↓State.memKey_with]
@[simp] theorem State.closeBars_memKey (s : State) : s.closeBars.memKey = s.memKey := by
  simp only [State.closeBars, ↓State.memKey_with]
@[simp] theorem State.resumeAll_memKey (s : State) (cs : List (Nat × Nat)) : (s.resumeAll cs).memKey = s.memKey := by
  refine State.foldl_memKey _ (fun s c => ?_) cs s
  split
  · rfl
  · simp only [State.endWait_memKey]
@[simp] theorem State.takeNotice_memKey (s : State) (b : BarSlot) : (s.takeNotice b).memKey = s.memKey := by
  simp only [State.takeNotice, ↓State.memKey_ite, ite_self, State.setReg_memKey', State.fset_memKey',
    State.setFlag_memKey', State.rePace_memKey]
@[simp] theorem State.fixRelease_memKey (s : State) (id : BarId) (t : BitVec 64) : (s.fixRelease id t).memKey =
  s.memKey :=
  by
  simp only [State.fixRelease, ↓State.memKey_ite, ite_self, State.fsat_memKey', State.modBar_memKey]
@[simp] theorem State.releaseJob_memKey (s : State) (bid : BitVec 8) (top : List BarSlot) (v : BarSlot) :
  (s.releaseJob bid
  top v).memKey = s.memKey := by
  simp only [State.releaseJob, ↓State.memKey_ite, ite_self, State.setReg_memKey', State.takeNotice_memKey,
    State.toAll_memKey, State.fixRelease_memKey, State.modBar_memKey]
@[simp] theorem State.raiseBar_memKey (s : State) (bid : BitVec 8) : (s.raiseBar bid).memKey = s.memKey := by
  unfold State.raiseBar
  dsimp only
  (repeat' split) <;> simp only [State.modBar_memKey, State.toPkg_memKey, State.releaseJob_memKey]
@[simp] theorem State.fillBar_memKey (s : State) (id : BarId) : (s.fillBar id).memKey = s.memKey := by
  unfold State.fillBar
  (repeat' split) <;> simp only [State.resumeAll_memKey, State.modBar_memKey, State.closeBars_memKey,
    State.raiseBar_memKey]
@[simp] theorem State.leaveBars_memKey (s : State) (l k : Nat) : (s.leaveBars l k).memKey = s.memKey := by
  unfold State.leaveBars
  dsimp only
  (repeat' split) <;> simp only [State.modBar_memKey, State.closeBars_memKey, State.toPkg_memKey]

/-! ## Waipol -/

@[simp] theorem State.portDown_memKey (s : State) (p st : Nat) : (s.portDown p st).memKey = s.memKey := by
  simp only [State.portDown, State.leaveActive_memKey, State.setReg_memKey', State.fset_memKey',
    State.modPort_memKey, State.setPortState_memKey]
@[simp] theorem State.beginTraining_memKey (s : State) (p : Nat) : (s.beginTraining p).memKey = s.memKey := by
  simp only [State.beginTraining, State.setPortState_memKey, State.modPort_memKey]
@[simp] theorem State.settleLanes_memKey (s : State) (p : Nat) : (s.settleLanes p).memKey = s.memKey := by
  unfold State.settleLanes
  dsimp only
  (repeat' split) <;> simp only [State.fset_memKey', State.modPort_memKey, State.portDown_memKey]
@[simp] theorem State.sendHello_memKey (s : State) (p : Nat) : (s.sendHello p).memKey = s.memKey := by
  simp only [State.sendHello, ↓State.memKey_ite, ite_self, State.modPort_memKey, State.post_memKey]
@[simp] theorem State.enterDiscovery_memKey (s : State) (p : Nat) (heard : Bool) : (s.enterDiscovery p heard).memKey =
  s.memKey := by
  simp only [State.enterDiscovery, State.leaveActive_memKey, State.fset_memKey', State.modPort_memKey,
    State.sendHello_memKey]
@[simp] theorem State.startRetrain_memKey (s : State) (p : Nat) : (s.startRetrain p).memKey = s.memKey := by
  simp only [State.startRetrain, ↓State.memKey_ite, ite_self, State.modPort_memKey, State.fsat_memKey']
@[simp] theorem State.replayed_memKey (s : State) (p : Nat) : (s.replayed p).memKey = s.memKey := by
  simp only [State.replayed, ↓State.memKey_ite, ite_self, State.modPort_memKey, State.fsat_memKey',
    State.startRetrain_memKey]
@[simp] theorem State.takeHeader_memKey (s : State) (p : Nat) (h : BitVec 64) : (s.takeHeader p h).memKey = s.memKey
  := by
  simp only [State.takeHeader, ↓State.memKey_ite, ite_self, State.setPort_memKey, State.replayed_memKey,
    State.pump_memKey]
@[simp] theorem State.dropFlit_memKey (s : State) (p : Nat) : (s.dropFlit p).memKey = s.memKey := by
  simp only [State.dropFlit, ↓State.memKey_ite, ite_self, State.modPort_memKey, State.sendIdle_memKey]
@[simp] theorem State.takeSlot_memKey (s : State) (p : Nat) (m : Msg) : (s.takeSlot p m).memKey = s.memKey := by
  simp only [State.takeSlot, State.takeFlits_memKey]
@[simp] theorem State.serveUnit_memKey (s : State) (p : Nat) (a : BitVec 64) : (s.serveUnit p a).2.memKey = s.memKey
  := by
  unfold State.serveUnit
  dsimp only
  (repeat' split) <;> simp only [State.addrErr_memKey, State.readN_memKey]
@[simp] theorem State.serveUnits_memKey (s : State) (p : Nat) (a : BitVec 64) (y0 : Nat) : (s.serveUnits p a
  y0).2.2.memKey =
  s.memKey := by
  induction y0 generalizing s a with
  | zero => rfl
  | succ n ih =>
    simp only [State.serveUnits]
    simp only [ih, State.serveUnit_memKey]
@[simp] theorem State.serveRead_memKey (s : State) (p : Nat) (a : BitVec 64) (n : Nat) : (s.serveRead p a
  n).2.2.memKey =
  s.memKey := by
  simp only [State.serveRead, State.serveUnits_memKey]
@[simp] theorem State.finishTx_memKey (s : State) (wr : Bool) (r : ReqSlot) (d : List MWord) : (s.finishTx wr r
  d).memKey =
  s.memKey := by
  unfold State.finishTx
  dsimp only
  (repeat' split) <;> simp only [↓State.memKey_with, State.progress_memKey, State.setXfer_memKey]
@[simp] theorem State.badCrc_memKey (s : State) (p : Nat) : (s.badCrc p).memKey = s.memKey := by
  simp only [State.badCrc, State.dropFlit_memKey, State.fsat_memKey']
@[simp] theorem State.showWindow_memKey (s : State) (p : Nat) : (s.showWindow p).memKey = s.memKey := by
  simp only [State.showWindow, State.modPort_memKey, State.fset_memKey']
@[simp] theorem State.showWindows_memKey (s : State) : s.showWindows.memKey = s.memKey := by
  simp only [State.showWindows, State.foldl_memKey, implies_true, State.foldl_memKey, State.showWindow_memKey]
@[simp] theorem State.chargeLane_memKey (s : State) (p lane : Nat) : (s.chargeLane p lane).memKey = s.memKey := by
  simp only [State.chargeLane, ↓State.memKey_ite, ite_self, State.modPort_memKey, State.showWindow_memKey,
    State.fset_memKey', State.classify_memKey]
@[simp] theorem State.startKey_memKey (s : State) (p : Nat) : (s.startKey p).memKey = s.memKey := by
  simp only [State.startKey, State.post_memKey]
@[simp] theorem State.ctrlRetrain_memKey (s : State) (p : Nat) : (s.ctrlRetrain p).memKey = s.memKey := by
  simp only [State.ctrlRetrain, ↓State.memKey_ite, ite_self, State.beginTraining_memKey, State.startRetrain_memKey]
@[simp] theorem State.ctrlLaneClr_memKey (s : State) (p : Nat) : (s.ctrlLaneClr p).memKey = s.memKey := by
  simp only [State.ctrlLaneClr, State.modPort_memKey]

/-! ## Pace -/

@[simp] theorem State.settleSlot_memKey (s : State) (i : Nat) : (s.settleSlot i).memKey = s.memKey := by
  refine State.foldl_memKey _ (fun s u => ?_) _ s
  split
  · simp only [State.settle_memKey]
  · rfl
@[simp] theorem State.repark_memKey (s : State) (f : Power → Power) : (s.repark f).memKey = s.memKey := by
  simp only [State.repark, State.foldl_memKey, implies_true, State.modPower_memKey, State.foldl_memKey,
    State.settleSlot_memKey, State.fset_memKey', State.rePace_memKey]
@[simp] theorem State.dieStep_memKey (s : State) (n d : Nat) : (s.dieStep n d).memKey = s.memKey := by
  simp only [State.dieStep, ↓State.memKey_ite, ite_self, State.fset_memKey']
@[simp] theorem State.writeFcnt_memKey (s : State) (v : BitVec 32) : (s.writeFcnt v).memKey = s.memKey := by
  simp only [State.writeFcnt, State.setReg_memKey', State.setFlag_memKey']
@[simp] theorem State.throttle_memKey (s : State) (busy : BitVec 12) (dem give : List Nat) : (s.throttle busy dem
  give).memKey = s.memKey := by
  unfold State.throttle
  dsimp only
  (repeat' split) <;> simp only [↓State.memKey_ite, ite_self, State.foldl_memKey, implies_true,
    State.modPower_memKey, State.fset_memKey', State.foldl_memKey]
@[simp] theorem State.writeCap_memKey (s : State) (r : Req) (v : BitVec 32) : (s.writeCap r v).memKey = s.memKey := by
  simp only [State.writeCap, ↓State.memKey_ite, ite_self, State.plainWrite_memKey, State.modPower_memKey]
@[simp] theorem State.writePrio_memKey (s : State) (r : Req) (v : BitVec 32) : (s.writePrio r v).memKey = s.memKey := by
  simp only [State.writePrio, ↓State.memKey_ite, ite_self, State.plainWrite_memKey, State.setFlag_memKey']
@[simp] theorem State.writeMin_memKey (s : State) (r : Req) (c : Nat) (v : BitVec 32) : (s.writeMin r c v).memKey =
  s.memKey
  := by
  simp only [State.writeMin, ↓State.memKey_ite, ite_self, State.plainWrite_memKey, State.setFlag_memKey']
@[simp] theorem State.paceFall_memKey (s : State) : s.paceFall.memKey = s.memKey := by
  simp only [State.paceFall, State.modPower_memKey, State.rePace_memKey]
@[simp] theorem State.boardWarn_memKey (s : State) : s.boardWarn.memKey = s.memKey := by
  simp only [State.boardWarn, State.modPower_memKey, State.fset_memKey', State.rePace_memKey]

/-! ## Capture -/

@[simp] theorem State.showCaps_memKey (s : State) : s.showCaps.memKey = s.memKey := by
  simp only [State.showCaps, State.fset_memKey']
@[simp] theorem State.dropCapture_memKey (s : State) (n : Nat) (c : CapSlot) : (s.dropCapture n c).memKey = s.memKey
  := by
  simp only [State.dropCapture, ↓State.memKey_with, ↓State.memKey_ite, ite_self, State.showCaps_memKey,
    State.settleFault_memKey]
@[simp] theorem State.dropReplays_memKey (s : State) (p : Nat → Bool) : (s.dropReplays p).memKey = s.memKey := by
  simp only [State.dropReplays, State.foldl_memKey, implies_true, State.foldl_memKey, State.dropCapture_memKey]

/-! ## Discovery -/

@[simp] theorem State.putNbr_memKey (s : State) (i : Nat) (y0 : Nat) (y1 : List (BitVec 32)) : (s.putNbr i y0
  y1).memKey =
  s.memKey := by
  induction y1 generalizing s y0 with
  | nil => rfl
  | cons _ _ ih => simp only [State.putNbr, ih, ↓State.memKey_with]
@[simp] theorem State.autoFill_memKey (s : State) : s.autoFill.memKey = s.memKey := by
  simp only [State.autoFill, State.foldl_memKey, implies_true, State.foldl_memKey, State.putNbr_memKey]
@[simp] theorem State.putNbrWin_memKey (s : State) (y0 : Nat) (y1 : List (BitVec 32)) : (s.putNbrWin y0 y1).memKey =
  s.memKey
  := by
  induction y1 generalizing s y0 with
  | nil => rfl
  | cons _ _ ih => simp only [State.putNbrWin, ih, State.setReg_memKey']
@[simp] theorem State.nbrCmd_memKey (s : State) (op i : Nat) : (s.nbrCmd op i).memKey = s.memKey := by
  simp only [State.nbrCmd, State.fset_memKey', State.fwrap_memKey']
@[simp] theorem State.nbrRead_memKey (s : State) (i : Nat) : (s.nbrRead i).memKey = s.memKey := by
  simp only [State.nbrRead, State.nbrCmd_memKey, State.putNbrWin_memKey]
@[simp] theorem State.nbrWrite_memKey (s : State) (i : Nat) : (s.nbrWrite i).memKey = s.memKey := by
  simp only [State.nbrWrite, ↓State.memKey_ite, ite_self, State.nbrCmd_memKey, State.setFlag_memKey',
    State.putNbr_memKey]
@[simp] theorem State.settleId_memKey (s : State) : s.settleId.memKey = s.memKey := by
  simp only [State.settleId, ↓State.memKey_ite, ite_self, State.setReg_memKey']
@[simp] theorem State.writeDiscCfg_memKey (s : State) (r : Req) (v : BitVec 32) : (s.writeDiscCfg r v).memKey =
  s.memKey :=
  by
  simp only [State.writeDiscCfg, ↓State.memKey_ite, ite_self, State.plainWrite_memKey, State.autoFill_memKey,
    State.settleId_memKey]
@[simp] theorem State.discovery_memKey (s : State) (p cause : Nat) : (s.discovery p cause).memKey = s.memKey := by
  simp only [State.discovery, State.event_memKey]
@[simp] theorem State.quarantine_memKey (s : State) (p cause : Nat) : (s.quarantine p cause).memKey = s.memKey := by
  simp only [State.quarantine, ↓State.memKey_ite, ite_self, State.leaveActive_memKey, State.fset_memKey',
    State.modPort_memKey, State.setFlag_memKey', State.discovery_memKey]
@[simp] theorem State.goActive_memKey (s : State) (p : Nat) (h : Hello) : (s.goActive p h).memKey = s.memKey := by
  simp only [State.goActive, ↓State.memKey_ite, ite_self, State.setPortState_memKey, State.fset_memKey',
    State.settleId_memKey, State.pump_memKey, State.modPort_memKey, State.setFlag_memKey', State.startKey_memKey,
    State.reroute_memKey]
@[simp] theorem State.goOn_memKey (s : State) (p : Nat) (h : Hello) (warn4 warn7 : Bool) : (s.goOn p h warn4
  warn7).memKey =
  s.memKey := by
  simp only [State.goOn, ↓State.memKey_ite, ite_self, State.quarantine_memKey, State.enterDiscovery_memKey,
    State.setFlag_memKey', State.discovery_memKey, State.leaveActive_memKey, State.fset_memKey',
    State.goActive_memKey]
@[simp] theorem State.unswap_memKey (s : State) (p : Nat) : (s.unswap p).memKey = s.memKey := by
  unfold State.unswap
  (repeat' split) <;> simp only [↓State.memKey_ite, ite_self, State.modPort_memKey, State.fset_memKey',
    State.enterDiscovery_memKey]
@[simp] theorem State.judged_memKey (s : State) (p : Nat) (h : Hello) : (s.judged p h).memKey = s.memKey := by
  unfold State.judged
  dsimp only
  (repeat' split) <;> simp only [State.unswap_memKey, State.quarantine_memKey, State.goOn_memKey,
    State.modPort_memKey, State.fset_memKey', State.setFlag_memKey', State.discovery_memKey,
    State.enterDiscovery_memKey]
@[simp] theorem State.ctrlRejudge_memKey (s : State) (p : Nat) : (s.ctrlRejudge p).memKey = s.memKey := by
  simp only [State.ctrlRejudge, State.modPort_memKey]
@[simp] theorem State.ctrlQuar_memKey (s : State) (p : Nat) : (s.ctrlQuar p).memKey = s.memKey := by
  simp only [State.ctrlQuar, ↓State.memKey_ite, ite_self, State.unswap_memKey, State.quarantine_memKey]
@[simp] theorem State.writeCtrl_memKey (s : State) (p : Nat) (v : BitVec 32) : (s.writeCtrl p v).memKey = s.memKey := by
  simp only [State.writeCtrl, ↓State.memKey_ite, ite_self, State.ctrlLaneClr_memKey, State.ctrlQuar_memKey,
    State.ctrlRejudge_memKey, State.ctrlRetrain_memKey]
@[simp] theorem State.writeCfg_memKey (s : State) (r : Req) (p : Nat) (v : BitVec 32) : (s.writeCfg r p v).memKey =
  s.memKey
  := by
  simp only [State.writeCfg, ↓State.memKey_ite, ite_self, State.plainWrite_memKey, State.portDown_memKey]
@[simp] theorem State.badCodeword_memKey (s : State) (p : Nat) : (s.badCodeword p).memKey = s.memKey := by
  simp only [State.badCodeword, ↓State.memKey_ite, ite_self, State.fsat_memKey', State.modPort_memKey,
    State.startRetrain_memKey]

/-! ## Dump -/

@[simp] theorem State.dump_memKey (s : State) (cause : Nat) (hang : List (Nat × Nat)) : (s.dump cause hang).memKey =
  s.memKey
  := by
  simp only [State.dump, ↓State.memKey_with, ↓State.memKey_ite, ite_self, State.fsat_memKey', State.setFlag_memKey',
    State.fset_memKey', State.irq_memKey']
@[simp] theorem State.recovery_memKey (s : State) (unit : BitVec 32) (what : Nat) : (s.recovery unit what).memKey =
  s.memKey
  := by
  simp only [State.recovery, State.event_memKey]
@[simp] theorem State.outOfService_memKey (s : State) : s.outOfService.memKey = s.memKey := by
  simp only [State.outOfService, ↓State.memKey_ite, ite_self, State.setFlag_memKey', State.recovery_memKey,
    State.dump_memKey]

/-! ## CapRun -/

@[simp] theorem State.capTile_memKey (s : State) (e t fmt : Nat) (o : List (BitVec 8)) : (s.capTile e t fmt o).memKey =
  s.memKey := by
  simp only [State.capTile, State.setTag_memKey, State.putTile_memKey, State.putSide_memKey]

/-! ## Loupe -/

@[simp] theorem State.setLpW_memKey (s : State) (i j : Nat) (v : BitVec 32) : (s.setLpW i j v).memKey = s.memKey := by
  simp only [State.setLpW, ↓State.memKey_with]
@[simp] theorem State.checkFlt_memKey (s : State) (adv : Bool) (ks : List Nat) : (s.checkFlt adv ks).memKey =
  s.memKey := by
  simp only [State.checkFlt, ↓State.memKey_with, ↓State.memKey_ite, ite_self, State.foldl_memKey, implies_true,
    State.foldl_memKey, State.noteWord_memKey]
@[simp] theorem State.checkLoupe_memKey (s : State) : s.checkLoupe.memKey = s.memKey := by
  simp only [State.checkLoupe, State.checkFlt_memKey]
@[simp] theorem State.setLpF_memKey (s : State) (i j hi lo v : Nat) : (s.setLpF i j hi lo v).memKey = s.memKey := by
  simp only [State.setLpF, State.setLpW_memKey]
@[simp] theorem State.lpFile_memKey (s : State) (i : Nat) (p : BitVec 16 × BitVec 16) : (s.lpFile i p).memKey =
  s.memKey :=
  by
  unfold State.lpFile
  (repeat' split) <;> simp only [↓State.memKey_ite, ite_self, State.setLpF_memKey]
@[simp] theorem State.advise_memKey (s : State) (i : Nat) : (s.advise i).memKey = s.memKey := by
  simp only [State.advise, ↓State.memKey_with, ↓State.memKey_ite, ite_self, State.fset_memKey', State.fsat_memKey',
    State.setLpF_memKey, State.irq_memKey']
@[simp] theorem State.lpJudge_memKey (s : State) (i : Nat) : (s.lpJudge i).memKey = s.memKey := by
  simp only [State.lpJudge, ↓State.memKey_ite, ite_self, State.advise_memKey, State.setLpW_memKey]
@[simp] theorem State.loupeJudge_memKey (s : State) : s.loupeJudge.memKey = s.memKey := by
  simp only [State.loupeJudge, State.foldl_memKey, implies_true, State.foldl_memKey, State.lpJudge_memKey,
    State.checkLoupe_memKey]
@[simp] theorem State.putFlt_memKey (s : State) (ws : List (BitVec 32)) : (s.putFlt ws).memKey = s.memKey := by
  simp only [State.putFlt, State.foldl_memKey, implies_true, State.foldl_memKey, State.setReg_memKey']
@[simp] theorem State.fltCmd_memKey (s : State) (op tgt i : Nat) : (s.fltCmd op tgt i).memKey = s.memKey := by
  unfold State.fltCmd
  dsimp only
  (repeat' split) <;> simp only [State.foldl_memKey, implies_true, State.fset_memKey', State.setFlag_memKey',
    State.fwrap_memKey', State.checkFlt_memKey, State.putFlt_memKey, State.foldl_memKey, State.setLpW_memKey,
    State.setLpF_memKey]

/-! ## Update -/

@[simp] theorem State.stampAt_memKey (s : State) (n a : Nat) : (s.stampAt n a).2.memKey = s.memKey := by
  unfold State.stampAt
  dsimp only
  (repeat' split) <;> simp only [State.readN_memKey]
@[simp] theorem State.choose_memKey (s : State) (n home alt : Nat) : (s.choose n home alt).2.memKey = s.memKey := by
  simp only [State.choose, State.stampAt_memKey]
@[simp] theorem State.readEls_memKey (s : State) (rif a i n : Nat) : (s.readEls rif a i n).2.memKey = s.memKey := by
  simp only [State.readEls, State.readN_memKey]
@[simp] theorem Upd.moments_memKey (u : Upd) (s : State) (rif : Nat) (e : Ent) (rule : Rule) (rec : List MWord) (y0 :
  List
  Run) : (Upd.moments u s rif e rule rec y0).2.memKey = s.memKey := by
  induction y0 generalizing s with
  | nil => rfl
  | cons _ _ ih =>
    simp only [Upd.moments]
    (repeat' split) <;> simp only [ih, State.readEls_memKey]
@[simp] theorem State.readRec_memKey (s : State) (rif : Nat) (e : Ent) (ch : Option (Nat × Nat)) : (s.readRec rif e
  ch).2.memKey = s.memKey := by
  unfold State.readRec
  (repeat' split) <;> simp only [State.readN_memKey]
@[simp] theorem State.touchWord_memKey (s : State) (rif a : Nat) : (s.touchWord rif a).2.memKey = s.memKey := by
  unfold State.touchWord
  dsimp only
  (repeat' split) <;> simp only [State.readW_memKey, State.draw_memKey']
@[simp] theorem State.touched_memKey (s : State) (rif aux r : Nat) (y0 : Nat) : (s.touched rif aux r y0).2.memKey =
  s.memKey
  := by
  induction y0 generalizing s r with
  | zero => rfl
  | succ n ih =>
    simp only [State.touched]
    simp only [ih, State.touchWord_memKey]
@[simp] theorem State.readArea_memKey (s : State) (rif b : Nat) (ch : Option (Nat × Nat)) : (s.readArea rif b
  ch).2.memKey =
  s.memKey := by
  unfold State.readArea
  dsimp only
  (repeat' split) <;> simp only [State.readN_memKey]

@[simp] theorem Upd.unitMoments_memKey (u : Upd) (s : State) (rif : Nat) (e : Ent) (rule : Rule) (un : Nat) (y0 :
  List Nat) :
  (Upd.unitMoments u s rif e rule un y0).2.memKey = s.memKey := by
  change s.keepsMem _
  delta Upd.unitMoments
  refine State.listRec_keepsMem (fun l f s ih => ?_) y0 s
  revert f
  delta Upd.unitMoments._f
  have hch := State.choose_memKey
  have hrec := State.readRec_memKey
  have hmo := Upd.moments_memKey
  generalize @State.choose = choose at hch ⊢
  generalize @State.readRec = readRec at hrec ⊢
  generalize @Upd.moments = moments at hmo ⊢
  revert choose readRec moments
  refine id ?_
  intro choose hch readRec hrec moments hmo
  cases l
  · exact fun _ _ => rfl
  intro f ih
  change ∀ s : State, s.keepsMem (f.1 s) at ih
  dsimp only
  refine (ih _).trans ?_
  split <;> simp only [hch, hrec, hmo]
@[simp] theorem Upd.unitGrads_memKey (u : Upd) (s : State) (rif : Nat) (e : Ent) (y0 : List Run) : (Upd.unitGrads u s
  rif e
  y0).2.memKey = s.memKey := by
  induction y0 generalizing s with
  | nil => rfl
  | cons _ _ ih =>
    simp only [Upd.unitGrads]
    simp only [ih, State.readEls_memKey]

@[simp] theorem Upd.precond_memKey (u : Upd) (s : State) (rif : Nat) (e : Ent) (ent : Nat) (rule : Rule) (un : Nat) :
  (Upd.precond u s rif e ent rule un).2.memKey = s.memKey := by
  change s.keepsMem _
  have hdef : @Upd.precond = @Upd.precond := rfl
  conv at hdef => rhs; delta Upd.precond
  rw [hdef]
  beta_reduce
  extract_lets +onlyGivenNames b ah aa
  split
  next h1 =>
  have k1 := State.memKey_of_eq_pair h1 (State.choose_memKey _ _ _ _)
  split
  next h2 =>
  have k2 := State.memKey_of_eq_pair h2 ((State.readArea_memKey _ _ _ _).trans k1)
  extract_lets +onlyGivenNames done
  split
  next h3 =>
  have k3 := State.memKey_of_eq_pair h3 ((Upd.unitGrads_memKey _ _ _ _ _).trans k2)
  extract_lets +onlyGivenNames inst area' area''
  split
  next h4 =>
  have k4 := State.memKey_of_eq_pair h4 ((Upd.unitMoments_memKey _ _ _ _ _ _ _).trans k3)
  extract_lets +onlyGivenNames d out
  split <;> exact k4
@[simp] theorem State.readWeights_memKey (s : State) (rif : Nat) (e : Ent) (y0 : List Run) : (s.readWeights rif e
  y0).2.memKey = s.memKey := by
  induction y0 generalizing s with
  | nil => rfl
  | cons _ _ ih =>
    simp only [State.readWeights]
    (repeat' split) <;> simp only [ih, State.readEls_memKey]

@[simp] theorem Upd.serve_memKey (u : Upd) (s : State) (rif : Nat) (id : ChunkId) : (Upd.serve u s rif id).2.memKey =
  s.memKey := by
  change s.keepsMem _
  have hdef : @Upd.serve = @Upd.serve := rfl
  conv at hdef => rhs; delta Upd.serve
  rw [hdef]
  beta_reduce
  extract_lets +onlyGivenNames e rule home alt n
  split
  next h1 =>
  have k1 := State.memKey_of_eq_pair (s := s) h1 (by split; exacts [State.touched_memKey _ _ _ _ _, rfl])
  split
  · exact k1
  split
  next h2 =>
  have k2 := State.memKey_of_eq_pair h2 ((State.choose_memKey _ _ _ _).trans k1)
  split
  · exact k2
  split
  next h3 =>
  have k3 := State.memKey_of_eq_pair h3 ((State.readRec_memKey _ _ _ _).trans k2)
  extract_lets +onlyGivenNames runs
  split
  next h4 =>
  have k4 := State.memKey_of_eq_pair h4 ((Upd.moments_memKey _ _ _ _ _ _ _).trans k3)
  split
  next h5 =>
  have k5 := State.memKey_of_eq_pair h5 ((State.readWeights_memKey _ _ _ _).trans k4)
  extract_lets +onlyGivenNames wp ms
  split
  next h6 =>
  exact State.memKey_of_eq_pair (s := s) h6 (by split; exacts [(Upd.precond_memKey _ _ _ _ _ _ _).trans k5, k5])

/-! ## Riffler -/

@[simp] theorem State.finishCmd_memKey (s : State) (q : Nat) (seq : BitVec 32) (c : Code) (cause : Nat) :
  (s.finishCmd q seq
  c cause).memKey = s.memKey := by
  simp only [State.finishCmd, State.modCmd_memKey]
@[simp] theorem State.readG_memKey (s : State) (g : BitVec 64) (n : Nat) : (s.readG g n).2.memKey = s.memKey := by
  unfold State.readG
  (repeat' split) <;> simp only [State.readN_memKey, State.addrErr_memKey]
@[simp] theorem State.setRif_memKey (s : State) (n st : Nat) : (s.setRif n st).memKey = s.memKey := by
  simp only [State.setRif, State.fset_memKey']
@[simp] theorem State.showHeld_memKey (s : State) : s.showHeld.memKey = s.memKey := by
  simp only [State.showHeld, State.foldl_memKey, implies_true, State.foldl_memKey, State.fset_memKey']
@[simp] theorem State.showRoot_memKey (s : State) : s.showRoot.memKey = s.memKey := by
  simp only [State.showRoot, State.setFlag_memKey']
@[simp] theorem State.readRules_memKey (s : State) (g : BitVec 64) (y0 : List Nat) : (s.readRules g y0).2.memKey =
  s.memKey
  := by
  induction y0 generalizing s with
  | nil => rfl
  | cons _ _ ih =>
    simp only [State.readRules]
    simp only [ih, State.readG_memKey]
@[simp] theorem State.beginRoot_memKey (s : State) (r : Option Root) : (s.beginRoot r).memKey = s.memKey := by
  unfold State.beginRoot
  (repeat' split) <;> simp only [↓State.memKey_with, State.showRoot_memKey]
@[simp] theorem State.rifDrain_memKey (s : State) (n : Nat) : (s.rifDrain n).memKey = s.memKey := by
  simp only [State.rifDrain, ↓State.memKey_ite, ite_self, State.setRif_memKey]

@[simp] theorem State.moveRoots_memKey (s : State) (n : Nat) (y0 : List Root) : (s.moveRoots n y0).2.memKey =
  s.memKey := by
  change s.keepsMem _
  delta State.moveRoots
  refine State.listRec_keepsMem (fun l f s ih => ?_) y0 s
  revert f
  delta State.moveRoots._f
  split
  · exact fun _ _ => rfl
  intro f ih
  change ∀ s : State, s.keepsMem (f.1 s) at ih
  split
  · exact ih s
  split
  · extract_lets +onlyGivenNames m
    split
    next h1 =>
    have k1 := State.memKey_of_eq_pair h1 (State.choose_memKey _ _ _ _)
    split
    next h2 =>
    have k2 := State.memKey_of_eq_pair h2 ((State.readArea_memKey _ _ _ _).trans k1)
    split
    next h3 => exact State.memKey_of_eq_pair h3 ((ih _).trans k2)
  · split
    next h1 => exact State.memKey_of_eq_pair h1 (ih s)
@[simp] theorem State.rifReturn_memKey (s : State) (n : Nat) : (s.rifReturn n).memKey = s.memKey := by
  simp only [State.rifReturn, ↓State.memKey_with, State.setRif_memKey]

/-! ## Stop -/

@[simp] theorem State.taskRecord_memKey (s : State) (q : Nat) (seq : BitVec 32) (c : Code) (nstat nfault unit :
  BitVec 32)
  (cut : Bool) : (s.taskRecord q seq c nstat nfault unit cut).memKey = s.memKey := by
  simp only [State.taskRecord, State.modCmd_memKey]
@[simp] theorem State.stopArrays_memKey (s : State) (e k : Nat) : (s.stopArrays e k).memKey = s.memKey := by
  simp only [State.stopArrays, ↓State.memKey_ite, ite_self, State.foldl_memKey, implies_true, State.foldl_memKey,
    State.poisonAcc_memKey, State.modEng_memKey']
@[simp] theorem State.stopXfer_memKey (s : State) (e l n : Nat) : (s.stopXfer e l n).memKey = s.memKey := by
  simp only [State.stopXfer, ↓State.memKey_ite, ite_self, State.freeXfer_memKey, State.setXfer_memKey]
@[simp] theorem State.stopStreams_memKey (s : State) (e k l : Nat) : (s.stopStreams e k l).memKey = s.memKey := by
  simp only [State.stopStreams, ↓State.memKey_ite, ite_self, State.foldl_memKey, implies_true, State.foldl_memKey,
    State.stopXfer_memKey, State.setBatch_memKey, State.wake_memKey, State.offer_memKey]
@[simp] theorem State.stopWait_memKey (s : State) (e k l : Nat) : (s.stopWait e k l).memKey = s.memKey := by
  simp only [State.stopWait, ↓State.memKey_ite, ite_self, State.setWaiters_memKey, State.service_memKey,
    State.leaveBars_memKey]
@[simp] theorem State.poisonTile_memKey (s : State) (e t : Nat) : (s.poisonTile e t).memKey = s.memKey := by
  simp only [State.poisonTile, State.setTag_memKey]
@[simp] theorem State.dropWaiting_memKey (s : State) (p : WTask → Bool) (c : Code) : (s.dropWaiting p c).memKey =
  s.memKey :=
  by
  simp only [State.dropWaiting, ↓State.memKey_with, State.foldl_memKey, implies_true, State.foldl_memKey,
    State.taskRecord_memKey]

/-! ## Queue -/

@[simp] theorem State.haltQ_memKey (s : State) (q cause : Nat) : (s.haltQ q cause).memKey = s.memKey := by
  simp only [State.haltQ, ↓State.memKey_ite, ite_self, State.setFlag_memKey', State.fset_memKey']
@[simp] theorem State.takeCmd_memKey (s : State) (q : Nat) (h : BitVec 64) (p : Payload) : (s.takeCmd q h p).memKey =
  s.memKey := by
  simp only [State.takeCmd, ↓State.memKey_ite, ite_self, State.haltQ_memKey, State.setCq_memKey, State.fwrap_memKey']

@[simp] theorem State.readSlots_memKey (s : State) (q : Nat) (y0 : Nat) : (s.readSlots q y0).memKey = s.memKey := by
  delta State.readSlots
  refine State.natRec_memKey (fun n f s ih => ?_) y0 s
  revert f
  delta State.readSlots._f
  split
  · exact fun _ _ => rfl
  intro f ih
  change ∀ s, (f.1 s).memKey = s.memKey at ih
  extract_lets +onlyGivenNames head
  split
  · rfl
  extract_lets +onlyGivenNames a
  split
  · rfl
  split
  next h1 =>
  have k1 := State.memKey_of_eq_pair h1 (State.readN_memKey _ _ _ _ _)
  split <;> simp only [ih, State.haltQ_memKey, State.takeCmd_memKey, k1]
@[simp] theorem State.fetchCmds_memKey (s : State) (q : Nat) : (s.fetchCmds q).memKey = s.memKey := by
  simp only [State.fetchCmds, State.readSlots_memKey]
@[simp] theorem State.showInfl_memKey (s : State) (q : Nat) : (s.showInfl q).memKey = s.memKey := by
  simp only [State.showInfl, State.fset_memKey']
@[simp] theorem State.beginCmd_memKey (s : State) (q : Nat) (h : BitVec 64) (p : Payload) : (s.beginCmd q h p).memKey =
  s.memKey := by
  simp only [State.beginCmd, State.setCq_memKey, State.showInfl_memKey]
@[simp] theorem State.startTask_memKey (s : State) (w : WTask) (e : Nat) : (s.startTask w e).memKey = s.memKey := by
  simp only [State.startTask, State.settle_memKey, State.setCtx_memKey']
@[simp] theorem State.startWaiting_memKey (s : State) (l k : Nat) : (s.startWaiting l k).memKey = s.memKey := by
  unfold State.startWaiting
  (repeat' split) <;> simp only [↓State.memKey_with, State.startTask_memKey]
@[simp] theorem State.launchOne_memKey (s : State) (q : Nat) (h : BitVec 64) (p : Payload) (l : Nat) : (s.launchOne q
  h p
  l).memKey = s.memKey := by
  unfold State.launchOne
  (repeat' split) <;> simp only [↓State.memKey_with, State.taskRecord_memKey, State.startWaiting_memKey]
@[simp] theorem State.launch_memKey (s : State) (q : Nat) (h : BitVec 64) (p : Payload) : (s.launch q h p).memKey =
  s.memKey
  := by
  simp only [State.launch, ↓State.memKey_ite, ite_self, State.foldl_memKey, implies_true, State.finishCmd_memKey,
    State.modCmd_memKey, State.foldl_memKey, State.launchOne_memKey]
@[simp] theorem State.disableFn_memKey (s : State) (q : Nat) (seq : BitVec 32) (kind die idx : Nat) : (s.disableFn q
  seq kind
  die idx).memKey = s.memKey := by
  simp only [State.disableFn, ↓State.memKey_with, ↓State.memKey_ite, ite_self, State.rifDrain_memKey]
@[simp] theorem State.enableFn_memKey (s : State) (kind die idx : Nat) : (s.enableFn kind die idx).memKey = s.memKey
  := by
  simp only [State.enableFn, ↓State.memKey_with, ↓State.memKey_ite, ite_self, State.rifReturn_memKey]
@[simp] theorem State.dropFence_memKey (s : State) (q : Nat) (seq : BitVec 32) : (s.dropFence q seq).memKey =
  s.memKey := by
  simp only [State.dropFence, ↓State.memKey_with, ↓State.memKey_ite, ite_self]
@[simp] theorem State.dropRead_memKey (s : State) (q : Nat) (h : BitVec 64) (p : Payload) (c : Code) : (s.dropRead q h p
  c).memKey = s.memKey := by
  simp only [State.dropRead, State.setCq_memKey, State.dropFence_memKey]
@[simp] theorem State.leaveSem_memKey (s : State) (p : Payload) (q : Nat) (seq : BitVec 32) : (s.leaveSem p q
  seq).memKey =
  s.memKey := by
  simp only [State.leaveSem, State.setWaiters_memKey, State.service_memKey]
@[simp] theorem State.irqOwner_memKey (s : State) (q : Nat) : (s.irqOwner q).memKey = s.memKey := by
  simp only [State.irqOwner, ↓State.memKey_with, ↓State.memKey_ite, ite_self, State.irq_memKey']
@[simp] theorem State.setPhase_memKey (s : State) (v : Nat) : (s.setPhase v).memKey = s.memKey := by
  simp only [State.setPhase, State.fset_memKey', State.fwrap_memKey', State.setReg_memKey']
@[simp] theorem State.joinSem_memKey (s : State) (q : Nat) (seq : BitVec 32) (p : Payload) : (s.joinSem q seq
  p).memKey =
  s.memKey := by
  simp only [State.joinSem, ↓State.memKey_ite, ite_self, State.setWaiters_memKey, State.service_memKey]
@[simp] theorem State.nextSem_memKey (s : State) (q : Nat) (x : Cmd) : (s.nextSem q x).memKey = s.memKey := by
  unfold State.nextSem
  dsimp only
  (repeat' split) <;> simp only [State.joinSem_memKey]
@[simp] theorem State.sigSem_memKey (s : State) (q : Nat) (h : BitVec 64) (p : Payload) : (s.sigSem q h p).memKey =
  s.memKey
  := by
  simp only [State.sigSem, State.signal_memKey, State.finishCmd_memKey]
@[simp] theorem State.waitSem_memKey (s : State) (q : Nat) (h : BitVec 64) (p : Payload) : (s.waitSem q h p).memKey =
  s.memKey := by
  simp only [State.waitSem, State.joinSem_memKey]
@[simp] theorem State.stepAll_memKey (s : State) (q : Nat) (h : BitVec 64) : (s.stepAll q h).memKey = s.memKey := by
  simp only [State.stepAll, State.scaleAdvance_memKey, State.evalSchedules_memKey, State.loupeJudge_memKey,
    State.finishCmd_memKey]
@[simp] theorem State.schedLoad_memKey (s : State) (q : Nat) (h : BitVec 64) (p : Payload) : (s.schedLoad q h
  p).memKey =
  s.memKey := by
  simp only [State.schedLoad, ↓State.memKey_with, ↓State.memKey_ite, ite_self, State.finishCmd_memKey,
    State.readG_memKey, State.setReg_memKey']

theorem State.startHead_memKey (s : State) (q : Nat) (act : State → BitVec 64 → Payload → State)
    (hact : ∀ s h p, (act s h p).memKey = s.memKey) : (s.startHead q act).memKey = s.memKey := by
  unfold State.startHead
  dsimp only
  (repeat' split) <;> simp only [hact, State.finishCmd_memKey, ↓State.memKey_with, State.beginCmd_memKey]

/-! ## Repair -/

@[simp] theorem State.showNoSpare_memKey (s : State) : s.showNoSpare.memKey = s.memKey := by
  simp only [State.showNoSpare, State.fset_memKey']
@[simp] theorem State.setSpare_memKey (s : State) (u : Nat) (e : Option Nat) : (s.setSpare u e).memKey = s.memKey := by
  unfold State.setSpare
  (repeat' split) <;> simp only [State.setFlag_memKey', State.fset_memKey', State.dropReplays_memKey,
    State.showNoSpare_memKey]
@[simp] theorem State.bind_memKey (s : State) (l : Nat) (e : Option Nat) : (s.bind l e).memKey = s.memKey := by
  unfold State.bind
  (repeat' split) <;> simp only [State.setFlag_memKey', State.fset_memKey']
@[simp] theorem State.rebuildMap_memKey (s : State) (u : Nat) : (s.rebuildMap u).memKey = s.memKey := by
  simp only [State.rebuildMap, State.foldl_memKey, implies_true, State.foldl_memKey, State.bind_memKey,
    State.setSpare_memKey]
@[simp] theorem State.copyEngine_memKey (s : State) (x t : Nat) : (s.copyEngine x t).memKey = s.memKey := by
  simp only [State.copyEngine, ↓State.memKey_with, State.setEng_memKey', State.setLoupe_memKey]
@[simp] theorem State.beginHandover_memKey (s : State) (u : Nat) (r : Rot) : (s.beginHandover u r).memKey = s.memKey
  := by
  simp only [State.beginHandover, State.settle_memKey, State.modEng_memKey', State.setRot_memKey]
@[simp] theorem State.markMigrated_memKey (s : State) (e : Nat) : (s.markMigrated e).memKey = s.memKey := by
  simp only [State.markMigrated, State.foldl_memKey, implies_true, State.foldl_memKey, State.modCtx_memKey']
@[simp] theorem State.markRetired_memKey (s : State) (unit : BitVec 32) : (s.markRetired unit).memKey = s.memKey := by
  simp only [State.markRetired, ↓State.memKey_with]
@[simp] theorem State.recordRetired_memKey (s : State) (e : Nat) : (s.recordRetired e).memKey = s.memKey := by
  simp only [State.recordRetired, State.fset_memKey', State.markRetired_memKey, State.recovery_memKey]
@[simp] theorem State.testPassed_memKey (s : State) (u : Nat) (r : Rot) : (s.testPassed u r).memKey = s.memKey := by
  simp only [State.testPassed, State.modEng_memKey', State.setSpare_memKey]
@[simp] theorem State.testFailed_memKey (s : State) (u : Nat) (r : Rot) : (s.testFailed u r).memKey = s.memKey := by
  simp only [State.testFailed, State.setSpare_memKey, State.recordRetired_memKey]
@[simp] theorem State.capsuleFailed_memKey (s : State) (u : Nat) (r : Rot) (i : Nat) : (s.capsuleFailed u r i).memKey =
  s.memKey := by
  simp only [State.capsuleFailed, State.fsat_memKey', State.permanent_memKey, State.testFailed_memKey]
@[simp] theorem State.testsOver_memKey (s : State) (u : Nat) (r : Rot) : (s.testsOver u r).memKey = s.memKey := by
  unfold State.testsOver
  (repeat' split) <;> simp only [State.capsuleFailed_memKey, State.testPassed_memKey]
@[simp] theorem State.clearEngine_memKey (s : State) (e : Nat) : (s.clearEngine e).memKey = s.memKey := by
  simp only [State.clearEngine, ↓State.memKey_with, State.setEng_memKey']
@[simp] theorem State.setEdge_memKey (s : State) (e : Nat) : (s.setEdge e).memKey = s.memKey := by
  simp only [State.setEdge, State.fset_memKey']
@[simp] theorem State.putPages_memKey (s : State) (u : Nat) (ws : List (BitVec 32)) : (s.putPages u ws).memKey =
  s.memKey :=
  by
  simp only [State.putPages, ↓State.memKey_with]
@[simp] theorem State.retireChannel_memKey (s : State) (u ch : Nat) : (s.retireChannel u ch).memKey = s.memKey := by
  simp only [State.retireChannel, ↓State.memKey_ite, ite_self, State.setReg_memKey', State.fset_memKey']
@[simp] theorem State.retirePage_memKey (s : State) (u : Nat) (w : BitVec 32) : (s.retirePage u w).memKey = s.memKey
  := by
  simp only [State.retirePage, ↓State.memKey_ite, ite_self, State.putPages_memKey, State.retireChannel_memKey]
@[simp] theorem State.retireLane_memKey (s : State) (p lane : Nat) : (s.retireLane p lane).memKey = s.memKey := by
  simp only [State.retireLane, ↓State.memKey_ite, ite_self, State.fset_memKey', State.portDown_memKey,
    State.startRetrain_memKey]

/-! ## Resets -/

@[simp] theorem State.countReset_memKey (s : State) (unit : BitVec 32) (n : Nat) : (s.countReset unit n).memKey =
  s.memKey :=
  by
  simp only [State.countReset, ↓State.memKey_with]
@[simp] theorem State.endTransfers_memKey (s : State) (l : Nat) (all : Bool) : (s.endTransfers l all).memKey =
  s.memKey := by
  simp only [State.endTransfers, ↓State.memKey_ite, ite_self, State.foldl_memKey, implies_true, State.foldl_memKey,
    State.setXfer_memKey]
@[simp] theorem State.clearCluster_memKey (s : State) (u : Nat) : (s.clearCluster u).memKey = s.memKey := by
  simp only [State.clearCluster, ↓State.memKey_with, State.foldl_memKey, implies_true, State.foldl_memKey,
    State.settle_memKey, State.clearEngine_memKey, State.endTransfers_memKey, State.setBatch_memKey,
    State.setLoupe_memKey, State.showUsed_memKey]
@[simp] theorem State.resetChannel_memKey (s : State) (u ch : Nat) : (s.resetChannel u ch).memKey = s.memKey := by
  simp only [State.resetChannel, ↓State.memKey_with, ↓State.memKey_ite, ite_self, State.recovery_memKey]
@[simp] theorem State.resetPort_memKey (s : State) (p : Nat) : (s.resetPort p).memKey = s.memKey := by
  simp only [State.resetPort, ↓State.memKey_ite, ite_self, State.portDown_memKey, State.recovery_memKey]
@[simp] theorem State.keepRetired_memKey (s old : State) : (State.keepRetired s old).memKey = s.memKey := by
  simp only [State.keepRetired, ↓State.memKey_ite, ite_self, State.foldl_memKey, implies_true, State.foldl_memKey,
    State.fset_memKey']
@[simp] theorem State.judgeAll_memKey (s : State) : s.judgeAll.memKey = s.memKey := by
  simp only [State.judgeAll, State.dropReplays_memKey, State.settleWork_memKey]
@[simp] theorem State.endLife_memKey (s : State) : s.endLife.memKey = s.memKey := by
  simp only [State.endLife, ↓State.memKey_with, ↓State.memKey_ite, ite_self, State.fset_memKey',
    State.setFlag_memKey']
@[simp] theorem State.endTrial_memKey (s : State) : s.endTrial.memKey = s.memKey := by
  unfold State.endTrial
  dsimp only
  (repeat' split) <;> simp only [↓State.memKey_with, State.fset_memKey', State.setFlag_memKey']
@[simp] theorem State.newNonce_memKey (s : State) : s.newNonce.memKey = s.memKey := by
  simp only [State.newNonce, ↓State.memKey_with, State.foldl_memKey, implies_true, State.foldl_memKey,
    State.setReg_memKey']

/-! ## Burin -/

@[simp] theorem State.measure_memKey (s : State) (k : Nat) (digest : BitVec 384) : (s.measure k digest).memKey =
  s.memKey :=
  by
  simp only [State.measure, ↓State.memKey_with]
@[simp] theorem State.leaveDebug_memKey (s : State) : s.leaveDebug.memKey = s.memKey := by
  simp only [State.leaveDebug, ↓State.memKey_ite, ite_self, State.setFlag_memKey', State.fset_memKey']
@[simp] theorem State.setLevel_memKey (s : State) (n : Nat) : (s.setLevel n).memKey = s.memKey := by
  simp only [State.setLevel, ↓State.memKey_with, ↓State.memKey_ite, ite_self, State.leaveDebug_memKey,
    State.fset_memKey', State.measure_memKey]
@[simp] theorem State.eraseKeys_memKey (s : State) : s.eraseKeys.memKey = s.memKey := by
  simp only [State.eraseKeys, State.foldl_memKey, implies_true, State.foldl_memKey, State.modPort_memKey,
    State.setFlag_memKey']
@[simp] theorem State.lifeChange_memKey (s : State) (new : Nat) (measured : Bool) : (s.lifeChange new measured).memKey =
  s.memKey := by
  simp only [State.lifeChange, ↓State.memKey_with, ↓State.memKey_ite, ite_self, State.setLevel_memKey,
    State.leaveDebug_memKey, State.measure_memKey, State.eraseKeys_memKey, State.fset_memKey', State.setFlag_memKey']
@[simp] theorem State.deriveKey_memKey (s : State) : s.deriveKey.memKey = s.memKey := by
  simp only [State.deriveKey, ↓State.memKey_with]
@[simp] theorem State.armRuns_memKey (s : State) (rev : BitVec 8) : (s.armRuns rev).memKey = s.memKey := by
  simp only [State.armRuns, State.measure_memKey, State.fset_memKey', State.deriveKey_memKey]
@[simp] theorem State.dbgCtrl_memKey (s : State) (v : BitVec 32) : (s.dbgCtrl v).memKey = s.memKey := by
  simp only [State.dbgCtrl, ↓State.memKey_ite, ite_self, State.setReg_memKey', State.setLevel_memKey,
    State.fsat_memKey', State.leaveDebug_memKey, State.setFlag_memKey', State.fset_memKey']
@[simp] theorem State.writeDbg_memKey (s : State) (r : Req) (v : BitVec 32) : (s.writeDbg r v).memKey = s.memKey := by
  simp only [State.writeDbg, implies_true, State.acting_memKey, State.dbgCtrl_memKey]
@[simp] theorem State.nextPulse_memKey (s : State) : s.nextPulse.memKey = s.memKey := by
  unfold State.nextPulse
  (repeat' split) <;> simp only [State.fset_memKey', State.fsat_memKey']

/-! ## Supply -/

@[simp] theorem State.dropChunks_memKey (s : State) : s.dropChunks.memKey = s.memKey := by
  unfold State.dropChunks
  (repeat' split) <;> simp only [↓State.memKey_with, State.showHeld_memKey]
@[simp] theorem State.setRails_memKey (s : State) (f : Nat → Nat) : (s.setRails f).memKey = s.memKey := by
  simp only [State.setRails, ↓State.memKey_ite, ite_self, State.foldl_memKey, implies_true, State.foldl_memKey,
    State.fset_memKey']
@[simp] theorem State.retain_memKey (s : State) : s.retain.memKey = s.memKey := by
  simp only [State.retain, State.foldl_memKey, implies_true, State.foldl_memKey, State.settleSlot_memKey,
    State.dropChunks_memKey, State.setRails_memKey, State.fset_memKey']
@[simp] theorem State.unretain_memKey (s : State) : s.unretain.memKey = s.memKey := by
  simp only [State.unretain, State.foldl_memKey, implies_true, State.fset_memKey', State.foldl_memKey,
    State.settleSlot_memKey, State.setRails_memKey, State.reroute_memKey]
@[simp] theorem State.rearm_memKey (s : State) : s.rearm.memKey = s.memKey := by
  simp only [State.rearm, ↓State.memKey_ite, ite_self, State.setFlag_memKey', State.fset_memKey',
    State.rePace_memKey, State.modPower_memKey, State.unretain_memKey]
@[simp] theorem State.writeTrip_memKey (s : State) (r : Req) (v : BitVec 32) : (s.writeTrip r v).memKey = s.memKey := by
  simp only [State.writeTrip, ↓State.memKey_ite, ite_self, implies_true, State.acting_memKey, State.rearm_memKey]
@[simp] theorem State.showSag_memKey (s : State) : s.showSag.memKey = s.memKey := by
  simp only [State.showSag, ↓State.memKey_ite, ite_self, State.fset_memKey', State.fsat_memKey']
@[simp] theorem State.toLevels_memKey (s : State) (f : Power → Power) : (s.toLevels f).memKey = s.memKey := by
  simp only [State.toLevels, ↓State.memKey_with, ↓State.memKey_ite, ite_self, State.modPower_memKey,
    State.rePace_memKey, State.repark_memKey, State.showSag_memKey]

/-! ## Security -/

@[simp] theorem State.readBytes_memKey (s : State) (g : BitVec 64) (n : Nat) : (s.readBytes g n).2.memKey = s.memKey
  := by
  unfold State.readBytes
  dsimp only
  (repeat' split) <;> simp only [State.addrErr_memKey, State.readN_memKey]

@[simp] theorem State.takeObj_memKey (s : State) (typ n floor : Nat) : (s.takeObj typ n floor).2.2.memKey = s.memKey
  := by
  unfold State.takeObj
  split
  · rfl
  · split <;> next h => exact State.memKey_of_eq_pair h (s.readBytes_memKey _ _)
@[simp] theorem State.secDone_memKey (s : State) (res : Nat) : (s.secDone res).memKey = s.memKey := by
  simp only [State.secDone, State.setFlag_memKey', State.fset_memKey', State.fwrap_memKey']
@[simp] theorem State.putSlot_memKey (s : State) (arm : Bool) (k : Nat) (f : FwSlot) : (s.putSlot arm k f).memKey =
  s.memKey
  := by
  simp only [State.putSlot, ↓State.memKey_with, ↓State.memKey_ite, ite_self]
@[simp] theorem State.stage_memKey (s : State) (arm : Bool) (n : Nat) : (s.stage arm n).2.memKey = s.memKey := by
  unfold State.stage
  dsimp only
  (repeat' split) <;> simp only [State.takeObj_memKey, State.putSlot_memKey]
@[simp] theorem State.runSlot_memKey (s : State) (arm : Bool) (k : Nat) : (s.runSlot arm k).memKey = s.memKey := by
  simp only [State.runSlot, ↓State.memKey_ite, ite_self, State.fset_memKey', State.armRuns_memKey,
    State.measure_memKey]
@[simp] theorem State.switch_memKey (s : State) (arm : Bool) : (s.switch arm).2.memKey = s.memKey := by
  unfold State.switch
  dsimp only
  (repeat' split) <;> simp only [↓State.memKey_with, State.runSlot_memKey, State.setFlag_memKey']
@[simp] theorem State.confirm_memKey (s : State) (arm : Bool) : (s.confirm arm).2.memKey = s.memKey := by
  unfold State.confirm
  (repeat' split) <;> simp only [↓State.memKey_with, State.setFlag_memKey']
@[simp] theorem State.fellBack_memKey (s : State) : s.fellBack.memKey = s.memKey := by
  simp only [State.fellBack, State.setFlag_memKey', State.recovery_memKey]

@[simp] theorem State.install_memKey (s : State) (n : Nat) : (s.install n).2.memKey = s.memKey := by
  unfold State.install
  (repeat' split) <;> try rfl
  · next h => exact State.memKey_of_eq_pair h (s.readBytes_memKey _ _)
  · next h =>
    simp only [State.lifeChange_memKey, ↓State.memKey_with]
    exact State.memKey_of_eq_pair h (s.readBytes_memKey _ _)
@[simp] theorem State.retireCmd_memKey (s : State) : s.retireCmd.2.memKey = s.memKey := by
  unfold State.retireCmd
  dsimp only
  (repeat' split) <;> simp only [State.takeObj_memKey, State.newNonce_memKey, State.lifeChange_memKey,
    State.outOfService_memKey]
@[simp] theorem State.releaseCmd_memKey (s : State) : s.releaseCmd.2.memKey = s.memKey := by
  unfold State.releaseCmd
  dsimp only
  (repeat' split) <;> simp only [↓State.memKey_with, State.takeObj_memKey, State.newNonce_memKey,
    State.setFlag_memKey', State.fset_memKey', State.nextPulse_memKey]
@[simp] theorem State.bootcfgCmd_memKey (s : State) : s.bootcfgCmd.2.memKey = s.memKey := by
  unfold State.bootcfgCmd
  dsimp only
  (repeat' split) <;> simp only [↓State.memKey_with, State.takeObj_memKey]
@[simp] theorem State.svnCmd_memKey (s : State) : s.svnCmd.2.memKey = s.memKey := by
  unfold State.svnCmd
  dsimp only
  (repeat' split) <;> simp only [↓State.memKey_with, State.takeObj_memKey, State.fset_memKey']

@[simp] theorem State.extendCmd_memKey (s : State) : s.extendCmd.2.memKey = s.memKey := by
  unfold State.extendCmd
  split
  · next h => exact State.memKey_of_eq_pair h (s.readBytes_memKey _ _)
  · next h =>
    simp only [State.measure_memKey]
    exact State.memKey_of_eq_pair h (s.readBytes_memKey _ _)
@[simp] theorem State.keyrevCmd_memKey (s : State) : s.keyrevCmd.2.memKey = s.memKey := by
  unfold State.keyrevCmd
  dsimp only
  (repeat' split) <;> simp only [↓State.memKey_with, State.takeObj_memKey]

@[simp] theorem State.overlayCmd_memKey (s : State) : s.overlayCmd.2.memKey = s.memKey := by
  unfold State.overlayCmd
  split
  · next h => exact State.memKey_of_eq_pair h (s.readBytes_memKey _ _)
  · next h =>
    have h1 := State.memKey_of_eq_pair h (s.readBytes_memKey _ _)
    split
    · exact h1
    · dsimp only
      split
      · next h' => exact State.memKey_of_eq_pair h' ((State.readBytes_memKey _ _ _).trans h1)
      · next h' =>
        have h2 := State.memKey_of_eq_pair h' ((State.readBytes_memKey _ _ _).trans h1)
        (repeat' split) <;> simp only [State.setFlag_memKey', ↓State.memKey_with, State.readBytes_memKey, h2]

/-! ## Capsules -/

@[simp] theorem State.showLib_memKey (s : State) : s.showLib.memKey = s.memKey := by
  simp only [State.showLib, State.fset_memKey']

@[simp] theorem State.capLoad_memKey (s : State) (i : Nat) : (s.capLoad i).2.memKey = s.memKey := by
  unfold State.capLoad
  split
  · next h => exact State.memKey_of_eq_pair h (s.readBytes_memKey _ _)
  · next h =>
    have h1 := State.memKey_of_eq_pair h (s.readBytes_memKey _ _)
    split
    · exact h1
    · split
      · next h' => exact State.memKey_of_eq_pair h' ((State.readBytes_memKey _ _ _).trans h1)
      · next h' =>
        have h2 := State.memKey_of_eq_pair h' ((State.readBytes_memKey _ _ _).trans h1)
        dsimp only
        (repeat' split) <;> simp only [State.measure_memKey, ↓State.memKey_with, h2]
@[simp] theorem State.capEnable_memKey (s : State) (i : Nat) (en : Bool) : (s.capEnable i en).memKey = s.memKey := by
  simp only [State.capEnable, ↓State.memKey_with]
@[simp] theorem State.capCmd_memKey (s : State) (v : BitVec 32) : (s.capCmd v).memKey = s.memKey := by
  unfold State.capCmd
  dsimp only
  (repeat' split) <;> simp only [↓State.memKey_with, State.setReg_memKey', State.capLoad_memKey,
    State.capEnable_memKey, State.fset_memKey', State.showLib_memKey]
@[simp] theorem State.writeCapCmd_memKey (s : State) (r : Req) (v : BitVec 32) : (s.writeCapCmd r v).memKey =
  s.memKey := by
  simp only [State.writeCapCmd, implies_true, State.acting_memKey, State.capCmd_memKey]

/-! ## Boot -/

@[simp] theorem State.bootTake_memKey (s : State) (rec : List (BitVec 8)) (k : Nat) (mask : BitVec 32) : (s.bootTake
  rec k
  mask).memKey = s.memKey := by
  simp only [State.bootTake, State.setReg_memKey']
@[simp] theorem State.bootConfig_memKey (s : State) : s.bootConfig.memKey = s.memKey := by
  unfold State.bootConfig
  (repeat' split) <;> simp only [↓State.memKey_ite, ite_self, State.bootTake_memKey, State.setFlag_memKey',
    State.fset_memKey', State.measure_memKey]
@[simp] theorem State.islandUp_memKey (s : State) : s.islandUp.memKey = s.memKey := by
  simp only [State.islandUp, ↓State.memKey_ite, ite_self, State.bootConfig_memKey, State.setFlag_memKey',
    State.fset_memKey']
@[simp] theorem State.recoveryGo_memKey (s : State) : s.recoveryGo.memKey = s.memKey := by
  simp only [State.recoveryGo, ↓State.memKey_with, ↓State.memKey_ite, ite_self, State.measure_memKey,
    State.islandUp_memKey]
@[simp] theorem State.startPorts_memKey (s : State) : s.startPorts.memKey = s.memKey := by
  simp only [State.startPorts, ↓State.memKey_ite, ite_self, State.foldl_memKey, implies_true, State.foldl_memKey,
    State.setPortState_memKey, State.beginTraining_memKey]
@[simp] theorem State.endDies_memKey (s : State) : s.endDies.memKey = s.memKey := by
  simp only [State.endDies, ↓State.memKey_ite, ite_self, State.outOfService_memKey, State.fset_memKey']

@[simp] theorem State.markMods_memKey (s : State) (e g : Nat) (y0 : Nat) : (s.markMods e g y0).memKey = s.memKey := by
  induction y0 generalizing s with
  | zero => rfl
  | succ m ih =>
    simp only [State.markMods]
    split
    · rfl
    · simp only [ih, ↓State.memKey_with]
@[simp] theorem State.setMems_memKey (s : State) (st : Nat) : (s.setMems st).memKey = s.memKey := by
  simp only [State.setMems, ↓State.memKey_ite, ite_self, State.foldl_memKey, implies_true, State.foldl_memKey,
    State.fset_memKey']
@[simp] theorem State.calEntry_memKey (s : State) (e : Nat × Nat × Int × Bool) : (s.calEntry e).memKey = s.memKey := by
  simp only [State.calEntry, ↓State.memKey_ite, ite_self, State.fsat_memKey', State.fset_memKey']
@[simp] theorem State.calInForce_memKey (s : State) (o : Option (List (BitVec 8))) : (s.calInForce o).memKey =
  s.memKey := by
  unfold State.calInForce
  (repeat' split) <;> simp only [State.foldl_memKey, implies_true, State.setReg_memKey', State.setFlag_memKey',
    State.fset_memKey', State.foldl_memKey, State.calEntry_memKey, State.measure_memKey]
@[simp] theorem State.applyCal_memKey (s : State) : s.applyCal.memKey = s.memKey := by
  unfold State.applyCal
  (repeat' split) <;> simp only [↓State.memKey_with, ↓State.memKey_ite, ite_self, State.calInForce_memKey]

/-! ## Faults -/

@[simp] theorem State.arithFault_memKey (s : State) (e : Nat) (q : QEnt) (a i diff : Nat) : (s.arithFault e q a i
  diff).memKey = s.memKey := by
  unfold State.arithFault
  dsimp only
  (repeat' split) <;> simp only [State.classify_memKey, State.fileLimited_memKey, State.showCaps_memKey,
      ↓State.memKey_with, State.poisonAcc_memKey, State.draw_memKey', State.occur_memKey]

@[simp] theorem State.checkAcc_memKey (s : State) (e : Nat) (q : QEnt) (a : Nat) : (s.checkAcc e q a).memKey =
  s.memKey := by
  unfold State.checkAcc
  split <;> simp only [State.arithFault_memKey]
@[simp] theorem State.dropAllRead_memKey (s : State) (c : Code) : (s.dropAllRead c).memKey = s.memKey := by
  simp only [State.dropAllRead, State.foldl_memKey, implies_true, State.foldl_memKey, State.dropRead_memKey]
@[simp] theorem State.endReplay_memKey (s : State) (e : Nat) : (s.endReplay e).memKey = s.memKey := by
  simp only [State.endReplay, ↓State.memKey_ite, ite_self, State.setRot_memKey, State.setSpare_memKey]
@[simp] theorem State.scrubProgress_memKey (s : State) (t : Tier) (a : Nat) : (s.scrubProgress t a).memKey = s.memKey
  := by
  unfold State.scrubProgress
  (repeat' split) <;> simp only [↓State.memKey_ite, ite_self, State.foldl_memKey, implies_true, State.foldl_memKey,
    State.fset_memKey', State.fwrap_memKey']

/-! ## Hang -/

@[simp] theorem State.ageStep_memKey (s : State) (d k : Nat) (drift : Int) : (s.ageStep d k drift).memKey = s.memKey
  := by
  simp only [State.ageStep, ↓State.memKey_ite, ite_self, State.fset_memKey', State.setFlag_memKey',
    State.event_memKey]
@[simp] theorem State.marginCeil_memKey (s : State) (d : Nat) : (s.marginCeil d).memKey = s.memKey := by
  simp only [State.marginCeil, ↓State.memKey_ite, ite_self, State.fset_memKey', State.rePace_memKey]

/-! ## Timebase -/

@[simp] theorem State.modTime_memKey (s : State) (f : Time → Time) : (s.modTime f).memKey = s.memKey := by
  simp only [State.modTime, ↓State.memKey_with]
@[simp] theorem State.toUpstream_memKey (s : State) (typ : Nat) (t : TimeSlot) : (s.toUpstream typ t).memKey =
  s.memKey := by
  simp only [State.toUpstream, State.post_memKey]
@[simp] theorem State.tookTime_memKey (s : State) (typ : Nat) (x : TimeSlot) : (s.tookTime typ x).memKey = s.memKey
  := by
  simp only [State.tookTime, State.took_memKey]
@[simp] theorem State.latchTime_memKey (s : State) : s.latchTime.memKey = s.memKey := by
  simp only [State.latchTime, State.setReg_memKey']
@[simp] theorem State.latchIdle_memKey (s : State) (c : Nat) : (s.latchIdle c).memKey = s.memKey := by
  simp only [State.latchIdle, State.setReg_memKey']

/-! ## Regs -/

@[simp] theorem State.writeCqCfg_memKey (s : State) (r : Req) (q : Nat) (v : BitVec 32) : (s.writeCqCfg r q v).memKey =
  s.memKey := by
  simp only [State.writeCqCfg, ↓State.memKey_ite, ite_self, State.plainWrite_memKey, State.setFlag_memKey',
    State.fset_memKey', State.fetchCmds_memKey]
@[simp] theorem State.writeTail_memKey (s : State) (r : Req) (q : Nat) (v : BitVec 32) : (s.writeTail r q v).memKey =
  s.memKey := by
  simp only [State.writeTail, ↓State.memKey_ite, ite_self, State.plainWrite_memKey, State.fetchCmds_memKey]

@[simp] theorem State.writeSctWin_memKey (s : State) (r : Req) (v : BitVec 32) : (s.writeSctWin r v).memKey =
  s.memKey := by
  refine State.acting_memKey _ _ _ _ _ fun s => ?_
  split <;> simp only [State.winRead_memKey, State.winWrite_memKey, State.winClear_memKey, State.fset_memKey']

@[simp] theorem State.writeGrpWin_memKey (s : State) (r : Req) (v : BitVec 32) : (s.writeGrpWin r v).memKey =
  s.memKey := by
  refine State.acting_memKey _ _ _ _ _ fun s => ?_
  split <;> simp only [State.grpRead_memKey, State.grpWrite_memKey, State.fset_memKey']

@[simp] theorem State.writeNbrWin_memKey (s : State) (r : Req) (v : BitVec 32) : (s.writeNbrWin r v).memKey =
  s.memKey := by
  refine State.acting_memKey _ _ _ _ _ fun s => ?_
  split <;> simp only [State.nbrRead_memKey, State.nbrWrite_memKey, State.fset_memKey']
@[simp] theorem State.writeFltWin_memKey (s : State) (r : Req) (v : BitVec 32) : (s.writeFltWin r v).memKey =
  s.memKey := by
  simp only [State.writeFltWin, ↓State.memKey_ite, ite_self, implies_true, State.acting_memKey, State.fset_memKey',
    State.fltCmd_memKey]
@[simp] theorem State.writeFltCfg_memKey (s : State) (r : Req) (v : BitVec 32) : (s.writeFltCfg r v).memKey =
  s.memKey := by
  simp only [State.writeFltCfg, ↓State.memKey_ite, ite_self, State.plainWrite_memKey, State.dropReplays_memKey]
@[simp] theorem State.writeDump_memKey (s : State) (r : Req) (v : BitVec 32) : (s.writeDump r v).memKey = s.memKey := by
  simp only [State.writeDump, ↓State.memKey_ite, ite_self, State.plainWrite_memKey, State.setFlag_memKey',
    State.dump_memKey]
@[simp] theorem State.writeSem_memKey (s : State) (r : Req) (u k : Nat) (v : BitVec 32) : (s.writeSem r u k v).memKey =
  s.memKey := by
  simp only [State.writeSem, implies_true, State.acting_memKey, State.semWrite_memKey]
@[simp] theorem State.writeSctStep_memKey (s : State) (r : Req) (v : BitVec 32) : (s.writeSctStep r v).memKey =
  s.memKey :=
  by
  simp only [State.writeSctStep, implies_true, State.acting_memKey, State.writeStep_memKey]
@[simp] theorem State.writeScrub_memKey (s : State) (r : Req) (v : BitVec 32) : (s.writeScrub r v).memKey = s.memKey
  := by
  simp only [State.writeScrub, State.plainWrite_memKey]
@[simp] theorem State.writeSecAddr_memKey (s : State) (r : Req) (k : Nat) (v : BitVec 32) : (s.writeSecAddr r k
  v).memKey =
  s.memKey := by
  simp only [State.writeSecAddr, ↓State.memKey_with, ↓State.memKey_ite, ite_self, State.plainWrite_memKey]
@[simp] theorem State.regRead_memKey (s : State) (src : Src) (r : Req) (k : Nat) : (s.regRead src r k).2.memKey =
  s.memKey :=
  by
  unfold State.regRead
  (repeat' split) <;> simp only [State.deny_memKey, State.addrErr_memKey, State.latchTime_memKey,
    State.latchIdle_memKey]

/-! ## Host -/

@[simp] theorem State.hostRegs_memKey (s : State) (k : Nat) (y0 : Nat) : (s.hostRegs k y0).2.memKey = s.memKey := by
  induction y0 generalizing s k with
  | zero => rfl
  | succ n ih =>
    simp only [State.hostRegs]
    simp only [ih, State.regRead_memKey]
@[simp] theorem State.hostMem_memKey (s : State) (head : Bool) (a : Nat) (y0 : Nat) : (s.hostMem head a y0).2.memKey =
  s.memKey := by
  induction y0 generalizing s head a with
  | zero => rfl
  | succ n ih =>
    simp only [State.hostMem]
    (repeat' split) <;> simp only [ih, State.addrErr_memKey, State.readAt_memKey]
@[simp] theorem State.readSector_memKey (s : State) (a : Nat) : (s.readSector a).memKey = s.memKey := by
  unfold State.readSector
  dsimp only
  (repeat' split) <;> simp only [State.foldl_memKey, implies_true, State.foldl_memKey, State.onRead_memKey]
@[simp] theorem State.bar4Write_memKey (s : State) (o : Nat) (y0 : List (BitVec 32)) : (s.bar4Write o y0).memKey =
  s.memKey
  := by
  induction y0 generalizing s o with
  | nil => rfl
  | cons _ _ ih =>
    simp only [State.bar4Write]
    simp only [ih, ↓State.memKey_with]
@[simp] theorem State.busMode_memKey (s : State) : s.busMode.memKey = s.memKey := by
  simp only [State.busMode, ↓State.memKey_ite, ite_self, State.fset_memKey']
@[simp] theorem State.busRef_memKey (s : State) (no : Bool) : (s.busRef no).memKey = s.memKey := by
  simp only [State.busRef, ↓State.memKey_with]

/-! ## Step -/

@[simp] theorem State.withFetchWord_memKey (s : State) (nbits w : Nat) : (s.withFetchWord nbits w).memKey = s.memKey
  := by
  unfold State.withFetchWord
  (repeat' split) <;> simp only [↓State.memKey_with]

end Sys2Proof.Machine
end

section
/-! SUPPORT. Memory's canonical form is kept by every operation that writes memory, and so by every command. -/
namespace Sys2Proof.Machine

/-! ## Canonical memory, as a property of what a byte is read from -/

/-- The bytes listed under this key are in canonical form. -/
def keyWf (k : List Host.Cell × Nat × Nat × BitVec 48) : Prop := Sparse.wf (memDef k.2.1 k.2.2.1 k.2.2.2) k.1

theorem State.memWf_iff {s : State} : s.memWf ↔ keyWf s.memKey := Iff.rfl

theorem keyWf_ite (c : Prop) [Decidable c] (a b : List Host.Cell × Nat × Nat × BitVec 48) :
    keyWf (if c then a else b) ↔ if c then keyWf a else keyWf b := by split <;> rfl

theorem State.ite_keyWf {c : Prop} [Decidable c] {s t : State} (h1 : keyWf s.memKey) (h2 : keyWf t.memKey) :
    keyWf (if c then s else t).memKey := by split <;> assumption

theorem State.foldl_keyWf {α : Type} (f : State → α → State) (hf : ∀ s x, keyWf s.memKey → keyWf (f s x).memKey)
    (l : List α) (s : State) (h : keyWf s.memKey) : keyWf (l.foldl f s).memKey := State.foldl_memWf f hf l s h

/-- The state an outcome goes on with, if any, has canonical memory. -/
def outWf (o : Host.Outcome State Fault Refusal) : Prop := ∀ t, o = .next t → keyWf t.memKey

theorem outWf_next (t : State) : outWf (.next t) ↔ keyWf t.memKey := by simp [outWf]

theorem outWf_fault (f : Fault) : outWf (.fault f) := by simp [outWf]

/-- The state of a result of three parts, where the result is known. -/
theorem State.memKey_of_eq_triple {α β : Type} {p : α × β × State} {a : α} {b : β} {s t : State} (h : p = (a, b, t))
    (hp : p.2.2.memKey = s.memKey) : t.memKey = s.memKey := by rwa [h] at hp

/-! ## The writes -/

theorem State.setByte_keyWf (s : State) (a : Nat) (v : BitVec 8) (h : keyWf s.memKey) : keyWf (s.setByte a v).memKey :=
  State.setByte_memWf a v h

theorem State.store_keyWf (s : State) (a : Nat) (w : MWord) (h : keyWf s.memKey) : keyWf (s.store a w).memKey :=
  State.store_memWf a w h

theorem State.writeAt_keyWf (s : State) (hd : Bool) (src : Src) (pkg : BitVec 16) (a : Nat) (w : MWord)
    (h : keyWf s.memKey) : keyWf (s.writeAt hd src pkg a w).memKey := State.writeAt_memWf hd src pkg a w h

theorem State.writeW_keyWf (s : State) (src : Src) (pkg : BitVec 16) (a : Nat) (w : MWord) (h : keyWf s.memKey) :
    keyWf (s.writeW src pkg a w).memKey := State.writeW_memWf src pkg a w h

theorem State.writeN_keyWf (s : State) (src : Src) (pkg : BitVec 16) (a : Nat) (ws : List MWord) (h : keyWf s.memKey) :
    keyWf (s.writeN src pkg a ws).memKey := State.writeN_memWf src pkg a ws h

/-! ## What takes an operation -/

theorem State.atIssue_keyWf (s : State) (e k : Nat) (w : BitVec 64) (legal : Bool) (f : State → Ctx → State)
    (hf : ∀ s x, keyWf s.memKey → keyWf (f s x).memKey) (h : keyWf s.memKey) : keyWf (s.atIssue e k w legal f).memKey
      := by
  unfold State.atIssue
  dsimp only
  (repeat' split) <;> simp only [hf, h, State.illegal_memKey, State.useStep_memKey, State.settle_memKey,
    State.progFetch_memKey]

theorem State.acting_keyWf (s : State) (r : Req) (k : Nat) (v : BitVec 32) (f : State → State)
    (hf : ∀ s, keyWf s.memKey → keyWf (f s).memKey) (h : keyWf s.memKey) : keyWf (s.acting r k v f).memKey := by
  unfold State.acting
  split <;> simp only [State.plainWrite_memKey, hf, h]

theorem State.startHead_keyWf (s : State) (q : Nat) (act : State → BitVec 64 → Payload → State)
    (hact : ∀ s h p, keyWf s.memKey → keyWf (act s h p).memKey) (h : keyWf s.memKey) :
    keyWf (s.startHead q act).memKey := by
  unfold State.startHead
  dsimp only
  (repeat' split) <;> simp only [h, hact, State.finishCmd_memKey, ↓State.memKey_with, State.beginCmd_memKey]

/-! ## Memory that is not kept, and what changes an unlisted byte -/

/-- The bytes still listed after those that read differently unlisted are dropped. -/
theorem keyWf_filter {m : List Host.Cell} {e e' r r' : Nat} {c c' : BitVec 48} (p : Host.Cell → Bool)
    (h : keyWf (m, e, r, c)) (hp : ∀ x : Host.Cell, p x = true → memDef e' r' c' x.1 = memDef e r c x.1) :
    keyWf (m.filter p, e', r', c') := by
  obtain ⟨h1, h2⟩ := Sparse.wf_filter p h
  refine ⟨h1, fun x hx => ?_⟩
  have := h2 x hx
  rwa [hp x (List.mem_filter.mp hx).2]

theorem keyWf_nil (e r : Nat) (c : BitVec 48) : keyWf ([], e, r, c) := Sparse.wf_nil _

/-- A byte kept through a warm reset reads unlisted as before: its tier keeps its contents. -/
theorem memDef_kept (ilv : Bool) (e r n : Nat) (c c' : BitVec 48) (x : Host.Cell) (hx : keptAddr ilv x.1 = true) :
    memDef (if ilv then n else e) n c' x.1 = memDef e r c x.1 := by
  simp only [keptAddr, Bool.and_eq_true, decide_eq_true_eq, Bool.or_eq_true, Bool.not_eq_true'] at hx
  obtain ⟨h1, h2⟩ := hx
  have h3 : ¬ 0x20000000000 ≤ x.1 := by omega
  cases ilv
  · simp only [memDef, h3, if_false, Bool.false_eq_true]
  · have h4 : ¬ x.1 < 0xC000000000 := by simpa using h2
    simp only [memDef, h3, h4, if_false]

theorem gibMask_getLsbD (d lo hi g : Nat) (hg : (gibMask d lo hi).getLsbD g = true) :
    ∃ i < 12, g = 12 * d + i ∧ lo ≤ i ∧ i < hi := by
  unfold gibMask at hg
  have key (l : List Nat) (m : BitVec 48) (h : (l.foldl (fun (m : BitVec 48) g =>
      if lo ≤ g ∧ g < hi then m ||| (1#48 <<< (12 * d + g)) else m) m).getLsbD g = true) :
      m.getLsbD g = true ∨ ∃ i ∈ l, g = 12 * d + i ∧ lo ≤ i ∧ i < hi := by
    induction l generalizing m with
    | nil => exact .inl h
    | cons x l ih =>
      rcases ih _ h with h1 | ⟨i, hi, h2⟩
      · beta_reduce at h1
        split at h1
        next hx =>
          rw [BitVec.getLsbD_or, Bool.or_eq_true] at h1
          rcases h1 with h1 | h1
          · exact .inl h1
          · refine .inr ⟨x, List.mem_cons_self, ?_, hx⟩
            simp at h1
            omega
        next => exact .inl h1
      · exact .inr ⟨i, List.mem_cons_of_mem _ hi, h2⟩
  rcases key _ _ hg with h | ⟨i, hi, h⟩
  · simp at h
  · exact ⟨i, List.mem_range.mp hi, h⟩

/-- A byte outside the scratch that a repartition adds reads unlisted as before. -/
theorem memDef_added (d lo hi : Nat) (e r : Nat) (c : BitVec 48) (x : Host.Cell)
    (hx : (!(decide (0x20000000000 ≤ x.1) && (x.1 - 0x20000000000) / 0x400000000 == d &&
      decide (lo ≤ (x.1 - 0x20000000000) % 0x400000000 / 0x40000000) &&
      decide ((x.1 - 0x20000000000) % 0x400000000 / 0x40000000 < hi))) = true) :
    memDef e r (c ||| gibMask d lo hi) x.1 = memDef e r c x.1 := by
  have hbit (hr : (x.1 - 0x20000000000) % 0x400000000 / 0x40000000 < 12) (hb : 0x20000000000 ≤ x.1) :
      (gibMask d lo hi).getLsbD (gibOf x.1) = false := by
    by_contra hg
    obtain ⟨i, hi12, hgi, hlo, hhi⟩ := gibMask_getLsbD _ _ _ _ (Bool.not_eq_false _ ▸ hg)
    unfold gibOf at hgi
    simp only [Bool.not_eq_true', Bool.and_eq_false_iff, decide_eq_false_iff_not, beq_eq_false_iff_ne, ne_eq] at hx
    generalize (x.1 - 0x20000000000) / 0x400000000 = q at *
    generalize (x.1 - 0x20000000000) % 0x400000000 / 0x40000000 = r at *
    omega
  unfold memDef
  by_cases hb : 0x20000000000 ≤ x.1
  · by_cases hr : (x.1 - 0x20000000000) % 0x400000000 / 0x40000000 < 12
    · rw [BitVec.getLsbD_or, hbit hr hb, Bool.or_false]
    · simp only [hr, false_and, or_false]
  · simp only [hb, if_false]

theorem State.storeImage_keyWf (s : State) (e : Nat) (q : QEnt) (hs : keyWf s.memKey) : keyWf (s.storeImage e
  q).memKey := by
  simp only [State.storeImage, State.modEng_memKey', State.addrErr_memKey, State.writeN_keyWf, State.ask_memKey,
    State.finish_memKey, ↓State.memKey_ite, keyWf_ite, ite_self, State.foldl_memKey, implies_true, hs]
theorem State.unitDone_keyWf (s : State) (e : Nat) (u : Unit3) (hs : keyWf s.memKey) : keyWf (s.unitDone e u).memKey
  := by
  unfold State.unitDone
  (repeat' split) <;> simp only [State.finish_memKey, State.loadImage_memKey, State.preload_memKey,
    State.imageToTiles_memKey, State.accstRound_memKey, State.vamax_memKey, State.vector_memKey,
    State.storeImage_keyWf, ↓State.memKey_ite, keyWf_ite, ite_self, hs]
theorem State.storeUnit_keyWf (s : State) (e l n : Nat) (hs : keyWf s.memKey) : keyWf (s.storeUnit e l n).memKey :=
  by
  unfold State.storeUnit
  simp only [State.modCtx_memKey', State.addrErr_memKey, State.writeN_keyWf, State.ask_memKey,
    State.setFull_memKey, State.reHold_memKey, State.checkTile_memKey, State.liftUnit_memKey, State.progress_memKey,
    State.freeXfer_memKey, ↓State.memKey_ite, keyWf_ite, ite_self, hs]
theorem State.oneUnit_keyWf (s : State) (l n : Nat) (hs : keyWf s.memKey) : keyWf (s.oneUnit l n).memKey := by
  unfold State.oneUnit
  (repeat' split) <;> simp only [State.fetchUnit_memKey, State.storeUnit_keyWf, State.imageUnit_memKey,
    State.noPath_memKey, ↓State.memKey_ite, keyWf_ite, ite_self, hs]

theorem State.fillTile_keyWf (s : State) (l n : Nat) (y0 : Nat) (hs : keyWf s.memKey) : keyWf (s.fillTile l n
  y0).memKey := by
  induction y0 generalizing s with
  | zero => exact hs
  | succ n ih =>
    simp only [State.fillTile]
    split
    · exact State.oneUnit_keyWf _ _ _ hs
    · exact ih _ (State.oneUnit_keyWf _ _ _ hs)
theorem State.writeElems_keyWf (s : State) (src : Src) (g : BitVec 64) (es : List Elem) (hs : keyWf s.memKey) : keyWf
  (s.writeElems src g es).memKey := by
  simp only [State.writeElems, State.addrErr_memKey, State.writeN_keyWf, ↓State.memKey_ite, keyWf_ite, ite_self, hs]
theorem State.writeImages_keyWf (s : State) (src : Src) (g : BitVec 64) (ws : List MWord) (hs : keyWf s.memKey) :
  keyWf (s.writeImages src g ws).memKey := by
  simp only [State.writeImages, State.addrErr_memKey, State.writeN_keyWf, ↓State.memKey_ite, keyWf_ite, ite_self, hs]
theorem State.cancelInst_keyWf (s : State) (k : Nat) (hs : keyWf s.memKey) : keyWf (s.cancelInst k).memKey := by
  simp +contextual only [State.cancelInst, State.writeElems_keyWf, State.setInst_memKey, State.endMember_memKey,
    State.writeImages_keyWf, ↓State.memKey_ite, keyWf_ite, ite_self, State.foldl_keyWf, implies_true, hs]

theorem State.foldNorm_keyWf (s : State) (src : Src) (g a fmt : Nat) (dst own : List Elem) (x : StatSlot) (hs : keyWf
  s.memKey) : keyWf (s.foldNorm src g a fmt dst own x).memKey := by
  unfold State.foldNorm
  extract_lets +onlyGivenNames st fresh old sum flags
  split
  split
  extract_lets +onlyGivenNames ovf0
  split
  split
  split
  extract_lets +onlyGivenNames nonfin poison locNan sumNan folds nf fl w4 ws s1
  exact State.writeN_keyWf _ _ _ _ _ (State.memKey_with.symm ▸ hs)

theorem State.deliverInst_keyWf (s : State) (k : Nat) (hs : keyWf s.memKey) : keyWf (s.deliverInst k).memKey := by
  unfold State.deliverInst
  refine State.foldl_keyWf _ (fun s p hs => ?_) _ _ hs
  extract_lets +onlyGivenNames x y n first
  generalize x.result first n = res
  cases res
  · exact hs
  extract_lets +onlyGivenNames src
  refine State.ite_keyWf ?_ ?_
  · split
    · exact hs
    · simp only [State.endMember_memKey, State.foldNorm_keyWf, State.writeElems_keyWf, hs]
  · simp only [State.endMember_memKey, State.writeElems_keyWf, hs]
theorem State.takeDown_keyWf (s : State) (d : CSlot) (hs : keyWf s.memKey) : keyWf (s.takeDown d).memKey := by
  simp only [State.takeDown, State.toAll_memKey, State.setInst_memKey, State.closeInst_memKey,
    State.deliverInst_keyWf, ↓State.memKey_ite, keyWf_ite, ite_self, hs]
theorem State.raiseChunk_keyWf (s : State) (k : Nat) (c : Nat × List Elem) (hs : keyWf s.memKey) : keyWf
  (s.raiseChunk k c).memKey := by
  unfold State.raiseChunk
  dsimp only
  (repeat' split) <;> simp only [State.toPkg_memKey, State.setInst_memKey, State.takeDown_keyWf,
    State.hurtOut_memKey, hs]

theorem State.raiseGather_keyWf (s : State) (k : Nat) (cs : List (Nat × List Elem)) (hs : keyWf s.memKey) : keyWf
  (s.raiseGather k cs).memKey := by
  unfold State.raiseGather
  dsimp only
  split
  · rw [State.foldl_memKey _ (fun s u => by split <;> simp only [State.toPkg_memKey, State.setInst_memKey]),
      State.foldl_memKey _ (fun s c => by split <;> simp only [State.toPkg_memKey, State.setInst_memKey])]
    exact hs
  · split
    · exact hs
    · exact State.foldl_keyWf _ (fun s u hs => State.takeDown_keyWf _ _ hs) _ _
        (State.foldl_keyWf _ (fun s c hs => State.takeDown_keyWf _ _ hs) _ _ hs)
theorem State.raiseStat_keyWf (s : State) (k : Nat) (hs : keyWf s.memKey) : keyWf (s.raiseStat k).memKey := by
  unfold State.raiseStat
  dsimp only
  (repeat' split) <;> simp only [State.toPkg_memKey, State.toAll_memKey, State.setInst_memKey,
    State.deliverInst_keyWf, hs]
theorem State.raiseScatter_keyWf (s : State) (k : Nat) (c : Nat × List Elem) (hs : keyWf s.memKey) : keyWf
  (s.raiseScatter k c).memKey := by
  simp only [State.raiseScatter, State.takeDown_keyWf, hs]

theorem State.raiseInst_keyWf (s : State) (k : Nat) (hs : keyWf s.memKey) : keyWf (s.raiseInst k).memKey := by
  have hup (cs : List (Nat × List Elem)) : keyWf (cs.foldl (fun s c => s.raiseChunk k c) s).memKey :=
    State.foldl_keyWf _ (fun s c hs => State.raiseChunk_keyWf s k c hs) _ _ hs
  have hdn (cs : List (Nat × List Elem)) : keyWf (cs.foldl (fun s c => s.raiseScatter k c) s).memKey :=
    State.foldl_keyWf _ (fun s c hs => State.raiseScatter_keyWf s k c hs) _ _ hs
  unfold State.raiseInst
  dsimp only
  (repeat' split) <;> simp only [State.closeInst_memKey, State.endAll_memKey, State.setInst_memKey,
    State.raiseGather_keyWf, State.raiseStat_keyWf, hup, hdn, hs]
theorem State.withdrawUp_keyWf (s : State) (k : Nat) (hs : keyWf s.memKey) : keyWf (s.withdrawUp k).memKey := by
  unfold State.withdrawUp
  dsimp only
  (repeat' split) <;> simp only [State.toPkg_memKey, State.toAll_memKey, State.closeInst_memKey,
    State.cancelInst_keyWf, hs]
theorem State.withdrawMember_keyWf (s : State) (key : Nat) (c : Code) (cause : Nat) (hs : keyWf s.memKey) : keyWf
  (s.withdrawMember key c cause).memKey := by
  simp only [State.withdrawMember, State.endMember_memKey, State.withdrawUp_keyWf, ↓State.memKey_ite, keyWf_ite,
    ite_self, hs]

theorem State.joinInst_keyWf (s : State) (key : Nat) (hs : keyWf s.memKey) : keyWf (s.joinInst key).memKey := by
  unfold State.joinInst
  extract_lets +onlyGivenNames y g k x fmt count differs bad n src
  split
  next h1 =>
  have k1 := State.memKey_of_eq_triple (s := s) h1 (by
    split <;> simp only [State.readImages_memKey, State.readElems_memKey])
  have hs1 := k1 ▸ hs
  extract_lets +onlyGivenNames x1 s1
  have hs2 : keyWf s1.memKey := by simp only [s1, State.setInst_memKey, hs1]
  (repeat' split) <;> simp only [State.closeInst_memKey, State.endAll_memKey, State.cancelInst_keyWf,
    State.deliverInst_keyWf, State.raiseInst_keyWf, hs2]

theorem State.issueColl_keyWf (s : State) (c : Cx) (w x : BitVec 64) (op : Nat) (hs : keyWf s.memKey) : keyWf
  (s.issueColl c w x op).memKey := by
  refine State.atIssue_keyWf _ _ _ _ _ _ (fun s y hs => ?_) hs
  dsimp only
  split
  · exact hs
  split
  · simp only [State.setCtx_memKey', hs]
  split
  · simp only [State.modCtx_memKey', ↓State.memKey_with, State.setCtx_memKey', hs]
  split
  · next h1 =>
    have k1 := State.memKey_of_eq_pair h1 (State.readColl_memKey _ _ _)
    simp only [State.modCtx_memKey', k1, ↓State.memKey_with, State.setCtx_memKey', hs]
  · next h1 =>
    have k1 := State.memKey_of_eq_pair h1 (State.readColl_memKey _ _ _)
    split <;> simp only [State.modCtx_memKey', State.joinInst_keyWf, State.setColl_memKey, State.checkGrp_memKey, k1,
      ↓State.memKey_with, State.setCtx_memKey', hs]

theorem State.serveWrite_keyWf (s : State) (p : Nat) (a : BitVec 64) (d : List MWord) (y0 : Nat) (hs : keyWf
  s.memKey) : keyWf (s.serveWrite p a d y0).2.memKey := by
  induction y0 generalizing s a d with
  | zero => exact hs
  | succ n ih =>
    simp only [State.serveWrite]
    split <;> simp only [ih, State.addrErr_memKey, State.writeN_keyWf, hs]
theorem State.doWrite_keyWf (s : State) (p : Nat) (r : ReqSlot) (d : List MWord) (hs : keyWf s.memKey) : keyWf
  (s.doWrite p r d).memKey := by
  simp only [State.doWrite, State.post_memKey, State.serveWrite_keyWf, ↓State.memKey_ite, keyWf_ite, ite_self, hs]
theorem State.withData_keyWf (s : State) (p vc : Nat) (r : ReqSlot) (d : List MWord) (hs : keyWf s.memKey) : keyWf
  (s.withData p vc r d).memKey := by
  simp only [State.withData, State.modPort_memKey, State.doWrite_keyWf, State.finishTx_memKey, ↓State.memKey_ite,
    keyWf_ite, ite_self, hs]

theorem State.feed_keyWf (s : State) (p vc : Nat) (y0 : Nat) (y1 : List MWord) (hs : keyWf s.memKey) : keyWf (s.feed
  p vc y0 y1).memKey := by
  induction y0 generalizing s y1 with
  | zero => exact hs
  | succ n ih =>
    unfold State.feed
    dsimp only
    (repeat' split) <;> simp only [ih, State.modPort_memKey, State.doWrite_keyWf, State.finishTx_memKey, hs]
theorem State.writeG_keyWf (s : State) (g : BitVec 64) (ws : List MWord) (hs : keyWf s.memKey) : keyWf (s.writeG g
  ws).memKey := by
  simp only [State.writeG, State.addrErr_memKey, State.writeN_keyWf, ↓State.memKey_ite, keyWf_ite, ite_self, hs]

theorem State.writeAll_keyWf (s : State) (n prev : Nat) (y0 : List (Nat × MWord)) (hs : keyWf s.memKey) : keyWf
  (s.writeAll n prev y0).memKey := by
  induction y0 generalizing s prev with
  | nil => exact hs
  | cons x l ih => exact ih _ _ (State.writeAt_keyWf _ _ _ _ _ _ hs)
theorem State.updClose_keyWf (s : State) (u : Upd) (hs : keyWf s.memKey) : keyWf (s.updClose u).memKey := by
  simp only [State.updClose, State.setFlag_memKey', State.finishCmd_memKey, State.writeG_keyWf,
    State.showHeld_memKey, ↓State.memKey_with, hs]

theorem State.updBegin_keyWf (s : State) (r : UpdReq) (hs : keyWf s.memKey) : keyWf (s.updBegin r).memKey := by
  unfold State.updBegin
  extract_lets +onlyGivenNames q seq
  split
  · exact hs
  extract_lets +onlyGivenNames p bad
  split
  · simp only [State.finishCmd_memKey, hs]
  split
  · simp only [bad, State.finishCmd_memKey, hs]
  extract_lets +onlyGivenNames n
  split
  next h1 =>
  have k1 := State.memKey_of_eq_pair h1 (State.readG_memKey _ _ _)
  extract_lets +onlyGivenNames ents
  split
  next h2 =>
  have k2 := State.memKey_of_eq_pair h2 ((State.readRules_memKey _ _ _).trans k1)
  extract_lets +onlyGivenNames rules
  have hs2 := k2 ▸ hs
  split
  · simp only [bad, State.finishCmd_memKey, hs2]
  split
  · simp only [State.finishCmd_memKey, hs2]
  extract_lets +onlyGivenNames short
  split
  · simp only [State.finishCmd_memKey, hs2]
  extract_lets +onlyGivenNames nn u s'
  split <;> simp only [s', State.updClose_keyWf, State.setFlag_memKey', ↓State.memKey_with, hs2]

theorem State.updRun_keyWf (s : State) (y0 : List UpdReq) (hs : keyWf s.memKey) : keyWf (s.updRun y0).memKey := by
  induction y0 generalizing s with
  | nil => simp only [State.updRun, ↓State.memKey_with, hs]
  | cons x l ih =>
    have hb := State.updBegin_keyWf s x hs
    simp only [State.updRun]
    split
    · simp only [↓State.memKey_with, hb]
    · exact ih _ hb
theorem State.updSettle_keyWf (s : State) (hs : keyWf s.memKey) : keyWf s.updSettle.memKey := by
  unfold State.updSettle
  (repeat' split) <;> simp only [State.updClose_keyWf, State.updRun_keyWf, hs]
theorem State.updStart_keyWf (s : State) (q : Nat) (seq : BitVec 32) (hs : keyWf s.memKey) : keyWf (s.updStart q
  seq).memKey := by
  simp only [State.updStart, State.updRun_keyWf, ↓State.memKey_with, ↓State.memKey_ite, keyWf_ite, ite_self, hs]
theorem State.updHalt_keyWf (s : State) (c : Code) (cause : Nat) (hs : keyWf s.memKey) : keyWf (s.updHalt c
  cause).memKey := by
  unfold State.updHalt
  (repeat' split) <;> simp only [State.showHeld_memKey, State.updSettle_keyWf, ↓State.memKey_with, hs]
theorem State.updStop_keyWf (s : State) (q : Nat) (seq : BitVec 32) (c : Code) (hs : keyWf s.memKey) : keyWf
  (s.updStop q seq c).memKey := by
  unfold State.updStop
  (repeat' split) <;> simp only [State.finishCmd_memKey, State.updHalt_keyWf, ↓State.memKey_with, hs]

theorem State.rifLeave_keyWf (s : State) (n : Nat) (fault : Bool) (hs : keyWf s.memKey) : keyWf (s.rifLeave n
  fault).memKey := by
  unfold State.rifLeave
  have hmv := State.moveRoots_memKey
  generalize @State.moveRoots = moveRoots at hmv ⊢
  revert moveRoots
  refine id ?_
  intro moveRoots hmv
  refine State.ite_keyWf hs ?_
  extract_lets +onlyGivenNames s0 s1 gone lag s2
  split
  next h1 =>
  have e1 : s1.memKey = s.memKey := State.memKey_with.trans (State.setRif_memKey _ _ _)
  have e2 : s2.memKey = s.memKey := (State.fsat_memKey' _ _ _).trans (State.memKey_with.trans e1)
  have k1 := State.memKey_of_eq_pair h1 ((hmv _ _ _).trans e2)
  extract_lets +onlyGivenNames s3
  have hs3 : keyWf s3.memKey := by simp only [s3, State.showRoot_memKey, ↓State.memKey_with, k1, hs]
  split
  · exact hs3
  dsimp only
  (repeat' split) <;> simp only [State.updSettle_keyWf, State.updHalt_keyWf, State.showHeld_memKey, ↓State.memKey_with,
    hs3]
theorem State.stopTask_keyWf (s : State) (e k : Nat) (c : Code) (hs : keyWf s.memKey) : keyWf (s.stopTask e k
  c).memKey := by
  simp +contextual only [State.stopTask, State.setCtx_memKey', State.modCtx_memKey', State.reHold_memKey,
    State.settle_memKey, State.payPeer_memKey, State.withdrawMember_keyWf, State.stopArrays_memKey,
    State.stopStreams_memKey, State.stopWait_memKey, ↓State.memKey_ite, keyWf_ite, ite_self, State.foldl_keyWf,
    implies_true, hs]
theorem State.poisonUnits_keyWf (s : State) (e k op pc id : Nat) (g : BitVec 64) (n : Nat) (hs : keyWf s.memKey) :
  keyWf (s.poisonUnits e k op pc id g n).memKey := by
  simp only [State.poisonUnits, State.writeN_keyWf, State.ask_memKey, ↓State.memKey_ite, keyWf_ite, ite_self,
    State.foldl_memKey, implies_true, hs]
theorem State.poisonOut_keyWf (s : State) (e : Nat) (q : QEnt) (hs : keyWf s.memKey) : keyWf (s.poisonOut e q).memKey
  := by
  simp only [State.poisonOut, State.poisonAcc_memKey, State.poisonTile_memKey, State.poisonUnits_keyWf,
    ↓State.memKey_ite, keyWf_ite, ite_self, State.foldl_memKey, implies_true, hs]
theorem State.poisonStore_keyWf (s : State) (e l n : Nat) (hs : keyWf s.memKey) : keyWf (s.poisonStore e l n).memKey
  := by
  simp +contextual only [State.poisonStore, State.poisonUnits_keyWf, ↓State.memKey_ite, keyWf_ite, ite_self,
    State.foldl_keyWf, implies_true, hs]

theorem State.poisonBegun_keyWf (s : State) (e l : Nat) (hs : keyWf s.memKey) : keyWf (s.poisonBegun e l).memKey :=
  by
  exact State.foldl_keyWf _ (fun s n hs => State.poisonStore_keyWf _ _ _ _ hs) _ _
    (State.foldl_keyWf _ (fun s q hs => State.poisonOut_keyWf _ _ _ hs) _ _ hs)
theorem State.stopTasks_keyWf (s : State) (ts : List (Nat × Nat)) (c : Code) (hs : keyWf s.memKey) : keyWf
  (s.stopTasks ts c).memKey := by
  simp +contextual only [State.stopTasks, State.stopTask_keyWf, State.foldl_keyWf, implies_true, hs]
theorem State.drainOver_keyWf (s : State) (d : Nat × BitVec 32 × Nat × Nat × Nat) (c : Code) (hs : keyWf s.memKey) :
  keyWf (s.drainOver d c).memKey := by
  unfold State.drainOver
  (repeat' split) <;> simp only [State.modCmd_memKey, State.finishCmd_memKey, State.rifLeave_keyWf,
    State.stopTasks_keyWf, State.dropWaiting_memKey, ↓State.memKey_with, hs]
theorem State.stopCmd_keyWf (s : State) (q : Nat) (x : Cmd) (c : Code) (hs : keyWf s.memKey) : keyWf (s.stopCmd q x
  c).memKey := by
  unfold State.stopCmd
  dsimp only
  (repeat' split) <;> simp only [State.modCmd_memKey, State.finishCmd_memKey, State.updStop_keyWf,
    State.stopTasks_keyWf, State.dropWaiting_memKey, State.drainOver_keyWf, State.leaveSem_memKey, hs]
theorem State.abort_keyWf (s : State) (q : Nat) (h : BitVec 64) (p : Payload) (hs : keyWf s.memKey) : keyWf (s.abort
  q h p).memKey := by
  simp +contextual only [State.abort, State.modCmd_memKey, State.finishCmd_memKey, State.dropRead_memKey,
    State.stopCmd_keyWf, ↓State.memKey_ite, ite_self, State.foldl_memKey, State.foldl_keyWf, implies_true, hs]
theorem State.putRecord_keyWf (s : State) (q : Nat) (ws : List MWord) (hs : keyWf s.memKey) : keyWf (s.putRecord q
  ws).memKey := by
  simp only [State.putRecord, State.setCq_memKey, State.writeN_keyWf, State.haltQ_memKey, ↓State.memKey_ite,
    ite_self, hs]
theorem State.commit_keyWf (s : State) (q : Nat) (x : Cmd) (hs : keyWf s.memKey) : keyWf (s.commit q x).memKey := by
  unfold State.commit
  (repeat' split) <;> simp only [State.fwrap_memKey', State.setCq_memKey, State.showInfl_memKey,
    State.dropFence_memKey, State.putRecord_keyWf, State.irqOwner_memKey, State.setPhase_memKey,
    State.nextSem_memKey, ↓State.memKey_with, ↓State.memKey_ite, ite_self, hs]
theorem State.runCmd_keyWf (s : State) (q : Nat) (h : BitVec 64) (p : Payload) (hs : keyWf s.memKey) : keyWf
  (s.runCmd q h p).memKey := by
  unfold State.runCmd
  (repeat' split) <;> simp only [State.finishCmd_memKey, State.updStart_keyWf, State.launch_memKey,
    State.disableFn_memKey, State.enableFn_memKey, State.abort_keyWf, State.sigSem_memKey, State.waitSem_memKey,
    State.stepAll_memKey, State.schedLoad_memKey, hs]
theorem State.place_keyWf (s : State) (q code : Nat) (h : BitVec 64) (p : Payload) (hs : keyWf s.memKey) : keyWf
  (s.place q code h p).memKey := by
  simp +contextual only [State.place, State.takeCmd_memKey, State.runCmd_keyWf, State.startHead_keyWf,
    ↓State.memKey_ite, keyWf_ite, ite_self, implies_true, hs]

theorem State.stopHeld_keyWf (s : State) (e : Nat) (hs : keyWf s.memKey) : keyWf (s.stopHeld e).memKey := by
  refine State.foldl_keyWf _ (fun s k hs => ?_) _ _ hs
  split
  · exact State.stopTask_keyWf _ _ _ _ (by rw [State.modCtx_memKey']; exact hs)
  · exact hs
theorem State.abandon_keyWf (s : State) (u : Nat) (hs : keyWf s.memKey) : keyWf (s.abandon u).memKey := by
  unfold State.abandon
  dsimp only
  (repeat' split) <;> simp only [State.fsat_memKey', State.setFlag_memKey', State.modEng_memKey',
    State.setRot_memKey, State.settle_memKey, State.setSpare_memKey, State.stopHeld_keyWf, hs]
theorem State.stopWhere_keyWf (s : State) (p : Nat → Bool) (c : Code) (hs : keyWf s.memKey) : keyWf (s.stopWhere p
  c).memKey := by
  simp only [State.stopWhere, State.stopTasks_keyWf, State.dropWaiting_memKey, hs]
theorem State.quarCluster_keyWf (s : State) (u : Nat) (hs : keyWf s.memKey) : keyWf (s.quarCluster u).memKey := by
  simp only [State.quarCluster, State.setFlag_memKey', State.faultN_memKey, State.dropReplays_memKey,
    State.recovery_memKey, State.abandon_keyWf, State.stopWhere_keyWf, ↓State.memKey_ite, keyWf_ite, ite_self, hs]

theorem State.quarDie_keyWf (s : State) (d : Nat) (hs : keyWf s.memKey) : keyWf (s.quarDie d).memKey := by
  have hab : keyWf ((List.range 24).foldl (fun s i => s.abandon (24 * d + i)) s).memKey :=
    State.foldl_keyWf _ (fun s i hs => State.abandon_keyWf _ _ hs) _ _ hs
  unfold State.quarDie
  dsimp only
  (repeat' split) <;> simp only [State.outOfService_memKey, State.faultN_memKey, State.dump_memKey,
    State.recovery_memKey,
    ↓State.memKey_with, State.setFlag_memKey', State.fset_memKey', State.dropReplays_memKey, State.stopWhere_keyWf,
      hab, hs]

theorem State.edgeEffects_keyWf (s : State) (hs : keyWf s.memKey) : keyWf s.edgeEffects.memKey := by
  refine State.foldl_keyWf _ (fun s d hs => ?_) _ _ (State.foldl_keyWf _ (fun s n hs => ?_) _ _ hs)
  · split
    · exact hs
    · exact State.quarDie_keyWf _ _ hs
  · split
    · exact hs
    · exact State.rifLeave_keyWf _ _ _ hs
theorem State.failModule_keyWf (s : State) (e m : Nat) (hs : keyWf s.memKey) : keyWf (s.failModule e m).memKey := by
  simp only [State.failModule, State.edgeEffects_keyWf, State.setEdge_memKey, ↓State.memKey_with, ↓State.memKey_ite,
    keyWf_ite, ite_self, hs]
theorem State.remapGranule_keyWf (s : State) (d g : Nat) (hs : keyWf s.memKey) : keyWf (s.remapGranule d g).memKey :=
  by
  simp +contextual only [State.remapGranule, State.store_keyWf, ↓State.memKey_ite, keyWf_ite, ite_self,
    State.foldl_keyWf, implies_true, hs]
theorem State.retireGranule_keyWf (s : State) (d g : Nat) (hs : keyWf s.memKey) : keyWf (s.retireGranule d g).memKey
  := by
  simp only [State.retireGranule, State.remapGranule_keyWf, ↓State.memKey_with, ↓State.memKey_ite, keyWf_ite,
    ite_self, hs]
theorem State.retireEngine_keyWf (s : State) (e : Nat) (hs : keyWf s.memKey) : keyWf (s.retireEngine e).memKey := by
  unfold State.retireEngine
  dsimp only
  (repeat' split) <;> simp only [State.setFlag_memKey', State.setRot_memKey, State.settle_memKey,
    State.poisonBegun_keyWf, State.stopTasks_keyWf, State.dropWaiting_memKey, State.setSpare_memKey,
    State.bind_memKey, State.beginHandover_memKey, State.markRetired_memKey, State.recordRetired_memKey,
    State.clearEngine_memKey, hs]
theorem State.retireRiffler_keyWf (s : State) (n : Nat) (hs : keyWf s.memKey) : keyWf (s.retireRiffler n).memKey :=
  by
  simp only [State.retireRiffler, State.rifLeave_keyWf, ↓State.memKey_with, hs]

theorem State.retireUnit_keyWf (s : State) (unit : BitVec 32) (hs : keyWf s.memKey) : keyWf (s.retireUnit
  unit).memKey := by
  unfold State.retireUnit
  extract_lets +onlyGivenNames v t done eng noEng
  have hdone (s : State) (hs : keyWf s.memKey) : keyWf (done s).memKey := by
    simp only [done, State.recovery_memKey, State.markRetired_memKey, hs]
  repeat' with_reducible refine State.ite_keyWf ?_ ?_
  all_goals simp only [hdone, State.markRetired_memKey, State.retireEngine_keyWf, State.quarCluster_keyWf,
    State.quarDie_keyWf, State.retirePage_memKey, State.retireChannel_memKey, State.retireGranule_keyWf,
    State.failModule_keyWf, State.retireLane_memKey, State.retireRiffler_keyWf, ↓State.memKey_with, hs]
theorem State.resetEngine_keyWf (s : State) (e : Nat) (hs : keyWf s.memKey) : keyWf (s.resetEngine e).memKey := by
  unfold State.resetEngine
  dsimp only
  (repeat' split) <;> simp only [State.modEng_memKey', State.settle_memKey, State.stopTasks_keyWf,
    State.abandon_keyWf, State.clearEngine_memKey, State.endTransfers_memKey, hs]

theorem State.endWork_keyWf (s : State) (us : List Nat) (hs : keyWf s.memKey) : keyWf (s.endWork us).memKey := by
  have hab : keyWf (us.foldl (fun s u => s.abandon u) s).memKey :=
    State.foldl_keyWf _ (fun s i hs => State.abandon_keyWf _ _ hs) _ _ hs
  simp only [State.endWork, State.stopWhere_keyWf, State.dropReplays_memKey, hab]
theorem State.resetDie_keyWf (s : State) (d : Nat) (hs : keyWf s.memKey) : keyWf (s.resetDie d).memKey := by
  simp only [State.resetDie, State.recovery_memKey, State.quarDie_keyWf, State.countReset_memKey,
    State.clearCluster_memKey, State.endWork_keyWf, ↓State.memKey_with, ↓State.memKey_ite, keyWf_ite, ite_self,
    State.foldl_memKey, implies_true, hs]

theorem State.resetCluster_keyWf (s : State) (u : Nat) (hs : keyWf s.memKey) : keyWf (s.resetCluster u).memKey := by
  have hw := State.endWork_keyWf s [u] hs
  unfold State.resetCluster
  dsimp only
  (repeat' split) <;> simp only [State.resetDie_keyWf, State.quarCluster_keyWf, State.countReset_memKey,
    State.recovery_memKey, ↓State.memKey_with, State.clearCluster_memKey, hw]
theorem State.endEngineReset_keyWf (s : State) (e : Nat) (pass : Bool) (hs : keyWf s.memKey) : keyWf
  (s.endEngineReset e pass).memKey := by
  simp only [State.endEngineReset, State.modEng_memKey', State.faultN_memKey, State.recovery_memKey,
    State.countReset_memKey, State.resetCluster_keyWf, ↓State.memKey_with, ↓State.memKey_ite, keyWf_ite, ite_self,
    hs]
theorem State.resetRiffler_keyWf (s : State) (n : Nat) (hs : keyWf s.memKey) : keyWf (s.resetRiffler n).memKey := by
  simp only [State.resetRiffler, State.recovery_memKey, State.rifLeave_keyWf, hs]
theorem State.survivors_keyWf (s : State) (hs : keyWf s.memKey) : keyWf s.survivors.memKey := by
  simp only [State.survivors, ↓State.memKey_with, hs]

theorem State.warm_keyWf (s : State) (hs : keyWf s.memKey) : keyWf s.warm.memKey := by
  unfold State.warm
  extract_lets +onlyGivenNames ilv t0 t1 t2 t3 t4 t5
  have h1 : keyWf t1.memKey := keyWf_filter _ hs fun x hx => memDef_kept ilv _ _ _ _ _ _ hx
  have h2 : keyWf t2.memKey := by simp only [t2, State.fset_memKey', State.keepRetired_memKey, h1]
  have h3 : keyWf t3.memKey := State.ite_keyWf (by rw [State.fset_memKey']; exact h2) h2
  have h4 : keyWf t4.memKey := State.foldl_keyWf _ (fun s u hs => State.ite_keyWf (by
    rw [State.setFlag_memKey']; exact hs) hs) _ _ h3
  simp only [State.rePace_memKey, State.settleId_memKey, State.showCaps_memKey, State.showWindows_memKey,
    State.fset_memKey', t5, ↓State.memKey_with, h4]
theorem State.warmReset_keyWf (s : State) (counted : Bool) (hs : keyWf s.memKey) : keyWf (s.warmReset counted).memKey
  := by
  simp only [State.warmReset, State.fset_memKey', State.faultN_memKey, State.recovery_memKey,
    State.outOfService_memKey, State.countReset_memKey, State.warm_keyWf, State.judgeAll_memKey, ↓State.memKey_ite,
    ite_self, hs]

theorem State.lost_keyWf (s : State) (hs : keyWf s.memKey) : keyWf s.lost.memKey := by
  simp only [State.lost, State.showCaps_memKey, State.showWindows_memKey, State.endTrial_memKey, State.endLife_memKey,
    State.keepRetired_memKey, ↓State.memKey_with]
  exact keyWf_nil _ _ _
theorem State.coldStart_keyWf (s : State) (hs : keyWf s.memKey) : keyWf s.coldStart.memKey := by
  simp only [State.coldStart, State.fset_memKey', State.setFlag_memKey', State.modPower_memKey,
    State.rebuildMap_memKey, State.lost_keyWf, State.newNonce_memKey, ↓State.memKey_with, ↓State.memKey_ite,
    ite_self, State.foldl_memKey, implies_true, hs]
theorem State.coldReset_keyWf (s : State) (hs : keyWf s.memKey) : keyWf s.coldReset.memKey := by
  simp only [State.coldReset, State.setReg_memKey', State.fset_memKey', State.modPower_memKey, State.judgeAll_memKey,
    State.coldStart_keyWf, ↓State.memKey_ite, ite_self, State.foldl_memKey, implies_true, hs]
theorem State.tstReset_keyWf (s : State) (v : BitVec 32) (hs : keyWf s.memKey) : keyWf (s.tstReset v).memKey := by
  unfold State.tstReset
  dsimp only
  (repeat' split) <;> simp only [State.resetEngine_keyWf, State.resetDie_keyWf, State.resetCluster_keyWf,
    State.resetChannel_memKey, State.resetPort_memKey, State.resetRiffler_keyWf, State.warmReset_keyWf,
    State.coldReset_keyWf, hs]
theorem State.writeReset_keyWf (s : State) (r : Req) (v : BitVec 32) (hs : keyWf s.memKey) : keyWf (s.writeReset r
  v).memKey := by
  simp +contextual only [State.writeReset, State.acting_keyWf, State.tstReset_keyWf, implies_true, hs]

theorem State.standby_keyWf (s : State) (hs : keyWf s.memKey) : keyWf s.standby.memKey := by
  simp only [State.standby, State.showCaps_memKey, State.showWindows_memKey, State.setFlag_memKey', State.fset_memKey',
    State.setReg_memKey', State.keepRetired_memKey]
  exact keyWf_nil _ _ _
theorem State.pstateReq_keyWf (s : State) (req : Nat) (hs : keyWf s.memKey) : keyWf (s.pstateReq req).memKey := by
  simp only [State.pstateReq, State.setFlag_memKey', State.retain_memKey, State.unretain_memKey, State.standby_keyWf,
    ↓State.memKey_ite, keyWf_ite, ite_self, hs]
theorem State.writePstate_keyWf (s : State) (r : Req) (v : BitVec 32) (hs : keyWf s.memKey) : keyWf (s.writePstate r
  v).memKey := by
  simp +contextual only [State.writePstate, State.acting_keyWf, State.pstateReq_keyWf, implies_true, hs]
theorem State.beginGrant_keyWf (s : State) (target : Nat) (hs : keyWf s.memKey) : keyWf (s.beginGrant target).memKey
  := by
  simp only [State.beginGrant, State.setFlag_memKey', State.warmReset_keyWf, State.measure_memKey,
    ↓State.memKey_with, hs]
theorem State.grantCmd_keyWf (s : State) (hs : keyWf s.memKey) : keyWf s.grantCmd.memKey := by
  simp only [State.grantCmd, State.newNonce_memKey, State.takeObj_memKey, State.secDone_memKey,
    State.beginGrant_keyWf, ↓State.memKey_with, ↓State.memKey_ite, keyWf_ite, ite_self, hs]
theorem State.endCmd_keyWf (s : State) (hs : keyWf s.memKey) : keyWf s.endCmd.memKey := by
  simp only [State.endCmd, State.secDone_memKey, State.beginGrant_keyWf, ↓State.memKey_ite, keyWf_ite, ite_self, hs]

theorem State.zeroise_keyWf (s : State) (hs : keyWf s.memKey) : keyWf s.zeroise.memKey := by
  simp only [State.zeroise, State.eraseKeys_memKey, State.setReg_memKey']
  exact keyWf_nil _ _ _

theorem State.attest_keyWf (s : State) (hs : keyWf s.memKey) : keyWf s.attest.2.memKey := by
  unfold State.attest
  split
  · exact hs
  split
  · next h1 => exact (State.memKey_of_eq_pair h1 (State.readBytes_memKey _ _ _)) ▸ hs
  · next h1 =>
    have k1 := State.memKey_of_eq_pair h1 (State.readBytes_memKey _ _ _)
    simp only [↓State.memKey_with, State.writeN_keyWf, k1, hs]

theorem State.secRun_keyWf (s : State) (op : Nat) (tgt : Bool) (n : Nat) (hs : keyWf s.memKey) : keyWf (s.secRun op
  tgt n).memKey := by
  unfold State.secRun
  split <;> simp only [secEnd, State.secDone_memKey, State.stage_memKey, State.switch_memKey, State.confirm_memKey,
    State.install_memKey, State.grantCmd_keyWf, State.endCmd_keyWf, State.releaseCmd_memKey, State.retireCmd_memKey,
    State.attest_keyWf, State.overlayCmd_memKey, State.bootcfgCmd_memKey, State.svnCmd_memKey, State.extendCmd_memKey,
    State.keyrevCmd_memKey, hs]
theorem State.writeSec_keyWf (s : State) (r : Req) (v : BitVec 32) (n : Nat) (hs : keyWf s.memKey) : keyWf
  (s.writeSec r v n).memKey := by
  simp only [State.writeSec, State.setReg_memKey', State.fset_memKey', State.deny_memKey, State.secRun_keyWf,
    ↓State.memKey_ite, keyWf_ite, ite_self, hs]

theorem State.dropScratch_keyWf (s : State) (d lo hi : Nat) (hs : keyWf s.memKey) : keyWf (s.dropScratch d lo
  hi).memKey := by
  exact keyWf_filter _ hs fun _ _ => rfl
theorem State.writeSramCfg_keyWf (s : State) (r : Req) (d : Nat) (v : BitVec 32) (hs : keyWf s.memKey) : keyWf
  (s.writeSramCfg r d v).memKey := by
  simp +contextual only [State.writeSramCfg, State.fset_memKey', State.setFlag_memKey', State.acting_keyWf,
    State.dropScratch_keyWf, ↓State.memKey_ite, keyWf_ite, ite_self, implies_true, hs]
theorem State.chunkMismatch_keyWf (s : State) (k : ChunkId) (sig : BitVec 32) (hs : keyWf s.memKey) : keyWf
  (s.chunkMismatch k sig).memKey := by
  unfold State.chunkMismatch
  (repeat' split) <;> simp only [State.unitFault_memKey, State.showHeld_memKey, State.rifLeave_keyWf,
    ↓State.memKey_with, ↓State.memKey_ite, keyWf_ite, ite_self, hs]
theorem State.stopAll_keyWf (s : State) (p : Nat → Cmd → Bool) (c : Code) (hs : keyWf s.memKey) : keyWf (s.stopAll p
  c).memKey := by
  simp +contextual only [State.stopAll, State.stopCmd_keyWf, State.foldl_keyWf, implies_true, hs]
theorem State.judgeCycle_keyWf (s : State) (c : List Nat) (n : Nat) (hs : keyWf s.memKey) : keyWf (s.judgeCycle c
  n).memKey := by
  unfold State.judgeCycle
  dsimp only
  (repeat' split) <;> simp only [State.fsat_memKey', State.faultN_memKey, State.dump_memKey, State.recovery_memKey,
    State.stopCmd_keyWf, hs]

theorem State.regWrite_keyWf (s : State) (src : Src) (r : Req) (k : Nat) (v : BitVec 32) (hs : keyWf s.memKey) :
  keyWf (s.regWrite src r k v).memKey := by
  unfold State.regWrite
  extract_lets +onlyGivenNames b o p
  repeat' with_reducible refine State.ite_keyWf ?_ ?_
  all_goals simp only [State.deny_memKey, State.addrErr_memKey, State.writeCqCfg_memKey, State.writeTail_memKey,
    State.plainWrite_memKey, State.writeSctStep_memKey, State.writeSctWin_memKey, State.writeGrpWin_memKey,
    State.writeNbrWin_memKey, State.writeFltWin_memKey, State.writeSem_memKey, State.writeScrub_memKey,
    State.writeSramCfg_keyWf, State.writeDiscCfg_memKey, State.writeCfg_memKey, State.acting_memKey,
    State.writeCtrl_memKey, State.writeFcnt_memKey, State.writeCap_memKey, State.writePrio_memKey,
      State.writeMin_memKey,
    State.rePace_memKey, State.writeFltCfg_memKey, State.writeTrip_memKey, State.writePstate_keyWf,
      State.writeReset_keyWf,
    State.writeDump_memKey, State.writeCapCmd_memKey, State.writeSecAddr_memKey, State.writeSec_keyWf,
      State.draw_memKey',
    State.writeDbg_memKey, implies_true, hs]
theorem State.regWr_keyWf (s : State) (q : Nat) (h : BitVec 64) (p : Payload) (hs : keyWf s.memKey) : keyWf (s.regWr
  q h p).memKey := by
  simp only [State.regWr, State.modCmd_memKey, State.deny_memKey, State.finishCmd_memKey, State.regWrite_keyWf,
    ↓State.memKey_ite, keyWf_ite, ite_self, hs]
theorem State.runAny_keyWf (s : State) (q : Nat) (h : BitVec 64) (p : Payload) (hs : keyWf s.memKey) : keyWf
  (s.runAny q h p).memKey := by
  simp only [State.runAny, State.runCmd_keyWf, State.regWr_keyWf, ↓State.memKey_ite, keyWf_ite, ite_self, hs]
theorem State.placeReg_keyWf (s : State) (q : Nat) (h : BitVec 64) (p : Payload) (hs : keyWf s.memKey) : keyWf
  (s.placeReg q h p).memKey := by
  simp +contextual only [State.placeReg, State.takeCmd_memKey, State.startHead_keyWf, State.runAny_keyWf,
    ↓State.memKey_ite, keyWf_ite, ite_self, implies_true, hs]

theorem State.hostRegWrites_keyWf (s : State) (k : Nat) (y0 : List (BitVec 32)) (hs : keyWf s.memKey) : keyWf
  (s.hostRegWrites k y0).memKey := by
  induction y0 generalizing s k with
  | nil => exact hs
  | cons v l ih => exact ih _ _ (State.regWrite_keyWf _ _ _ _ _ hs)

theorem State.hostMemWrite_keyWf (s : State) (head : Bool) (a : Nat) (y0 : List MWord) (hs : keyWf s.memKey) : keyWf
  (s.hostMemWrite head a y0).memKey := by
  induction y0 generalizing s head a with
  | nil => exact hs
  | cons w l ih =>
    unfold State.hostMemWrite
    dsimp only
    refine ih _ _ _ ?_
    (repeat' split) <;> simp only [State.addrErr_memKey, State.writeAt_keyWf, State.readSector_memKey, hs]
theorem execTmac_outWf (c : Cx) (w : BitVec 56) (s : State) (hs : keyWf s.memKey) : outWf (execTmac c w s) := by
  simp only [execTmac, State.issueTile_memKey, outWf_next, hs]
theorem execTmac2_outWf (c : Cx) (w : BitVec 56) (s : State) (hs : keyWf s.memKey) : outWf (execTmac2 c w s) := by
  simp only [execTmac2, State.issueTile_memKey, outWf_next, hs]
theorem execAccld_outWf (c : Cx) (w : BitVec 56) (x : BitVec 64) (s : State) (hs : keyWf s.memKey) : outWf (execAccld
  c w x s) := by
  simp only [execAccld, State.issueTile_memKey, outWf_next, hs]
theorem execAccst_outWf (c : Cx) (w : BitVec 56) (x : BitVec 64) (s : State) (hs : keyWf s.memKey) : outWf (execAccst
  c w x s) := by
  simp only [execAccst, State.issueTile_memKey, outWf_next, hs]
theorem execTqnt_outWf (c : Cx) (w : BitVec 56) (x : BitVec 64) (s : State) (hs : keyWf s.memKey) : outWf (execTqnt c
  w x s) := by
  simp only [execTqnt, State.issueTile_memKey, outWf_next, hs]
theorem execLpsamp_outWf (c : Cx) (w : BitVec 56) (s : State) (hs : keyWf s.memKey) : outWf (execLpsamp c w s) := by
  simp only [execLpsamp, State.issueLpsamp_memKey, outWf_next, hs]
theorem execVadd_outWf (c : Cx) (w : BitVec 56) (x : BitVec 64) (s : State) (hs : keyWf s.memKey) : outWf (execVadd c
  w x s) := by
  simp only [execVadd, State.issueTile_memKey, outWf_next, hs]
theorem execVsub_outWf (c : Cx) (w : BitVec 56) (x : BitVec 64) (s : State) (hs : keyWf s.memKey) : outWf (execVsub c
  w x s) := by
  simp only [execVsub, State.issueTile_memKey, outWf_next, hs]
theorem execVmul_outWf (c : Cx) (w : BitVec 56) (x : BitVec 64) (s : State) (hs : keyWf s.memKey) : outWf (execVmul c
  w x s) := by
  simp only [execVmul, State.issueTile_memKey, outWf_next, hs]
theorem execVmax_outWf (c : Cx) (w : BitVec 56) (x : BitVec 64) (s : State) (hs : keyWf s.memKey) : outWf (execVmax c
  w x s) := by
  simp only [execVmax, State.issueTile_memKey, outWf_next, hs]
theorem execVmin_outWf (c : Cx) (w : BitVec 56) (x : BitVec 64) (s : State) (hs : keyWf s.memKey) : outWf (execVmin c
  w x s) := by
  simp only [execVmin, State.issueTile_memKey, outWf_next, hs]
theorem execVcvt_outWf (c : Cx) (w : BitVec 56) (x : BitVec 64) (s : State) (hs : keyWf s.memKey) : outWf (execVcvt c
  w x s) := by
  simp only [execVcvt, State.issueTile_memKey, outWf_next, hs]
theorem execVtrn_outWf (c : Cx) (w : BitVec 56) (x : BitVec 64) (s : State) (hs : keyWf s.memKey) : outWf (execVtrn c
  w x s) := by
  simp only [execVtrn, State.issueTile_memKey, outWf_next, hs]
theorem execVexp_outWf (c : Cx) (w : BitVec 56) (x : BitVec 64) (s : State) (hs : keyWf s.memKey) : outWf (execVexp c
  w x s) := by
  simp only [execVexp, State.issueTile_memKey, outWf_next, hs]
theorem execVrelu_outWf (c : Cx) (w : BitVec 56) (x : BitVec 64) (s : State) (hs : keyWf s.memKey) : outWf (execVrelu
  c w x s) := by
  simp only [execVrelu, State.issueTile_memKey, outWf_next, hs]
theorem execVgelu_outWf (c : Cx) (w : BitVec 56) (x : BitVec 64) (s : State) (hs : keyWf s.memKey) : outWf (execVgelu
  c w x s) := by
  simp only [execVgelu, State.issueTile_memKey, outWf_next, hs]
theorem execVsilu_outWf (c : Cx) (w : BitVec 56) (x : BitVec 64) (s : State) (hs : keyWf s.memKey) : outWf (execVsilu
  c w x s) := by
  simp only [execVsilu, State.issueTile_memKey, outWf_next, hs]
theorem execVtanh_outWf (c : Cx) (w : BitVec 56) (x : BitVec 64) (s : State) (hs : keyWf s.memKey) : outWf (execVtanh
  c w x s) := by
  simp only [execVtanh, State.issueTile_memKey, outWf_next, hs]
theorem execVsigm_outWf (c : Cx) (w : BitVec 56) (x : BitVec 64) (s : State) (hs : keyWf s.memKey) : outWf (execVsigm
  c w x s) := by
  simp only [execVsigm, State.issueTile_memKey, outWf_next, hs]
theorem execVrcp_outWf (c : Cx) (w : BitVec 56) (x : BitVec 64) (s : State) (hs : keyWf s.memKey) : outWf (execVrcp c
  w x s) := by
  simp only [execVrcp, State.issueTile_memKey, outWf_next, hs]
theorem execVrsq_outWf (c : Cx) (w : BitVec 56) (x : BitVec 64) (s : State) (hs : keyWf s.memKey) : outWf (execVrsq c
  w x s) := by
  simp only [execVrsq, State.issueTile_memKey, outWf_next, hs]
theorem execVrsum_outWf (c : Cx) (w : BitVec 56) (x : BitVec 64) (s : State) (hs : keyWf s.memKey) : outWf (execVrsum
  c w x s) := by
  simp only [execVrsum, State.issueTile_memKey, outWf_next, hs]
theorem execVrmax_outWf (c : Cx) (w : BitVec 56) (x : BitVec 64) (s : State) (hs : keyWf s.memKey) : outWf (execVrmax
  c w x s) := by
  simp only [execVrmax, State.issueTile_memKey, outWf_next, hs]
theorem execVcsum_outWf (c : Cx) (w : BitVec 56) (x : BitVec 64) (s : State) (hs : keyWf s.memKey) : outWf (execVcsum
  c w x s) := by
  simp only [execVcsum, State.issueTile_memKey, outWf_next, hs]
theorem execVamax_outWf (c : Cx) (w : BitVec 56) (x : BitVec 64) (s : State) (hs : keyWf s.memKey) : outWf (execVamax
  c w x s) := by
  simp only [execVamax, State.issueTile_memKey, outWf_next, hs]
theorem execContextResume_outWf (c : Cx) (s : State) (hs : keyWf s.memKey) : outWf (execContextResume c s) := by
  simp only [execContextResume, State.setCtx_memKey', State.settle_memKey, ↓State.memKey_ite, ite_self, outWf_next,
    hs]
theorem execAdds_outWf (c : Cx) (w : BitVec 56) (s : State) (hs : keyWf s.memKey) : outWf (execAdds c w s) := by
  simp only [execAdds, State.scalarOp_memKey, outWf_next, hs]
theorem execSubs_outWf (c : Cx) (w : BitVec 56) (s : State) (hs : keyWf s.memKey) : outWf (execSubs c w s) := by
  simp only [execSubs, State.scalarOp_memKey, outWf_next, hs]
theorem execMuls_outWf (c : Cx) (w : BitVec 56) (s : State) (hs : keyWf s.memKey) : outWf (execMuls c w s) := by
  simp only [execMuls, State.scalarOp_memKey, outWf_next, hs]
theorem execAnds_outWf (c : Cx) (w : BitVec 56) (s : State) (hs : keyWf s.memKey) : outWf (execAnds c w s) := by
  simp only [execAnds, State.scalarOp_memKey, outWf_next, hs]
theorem execOrs_outWf (c : Cx) (w : BitVec 56) (s : State) (hs : keyWf s.memKey) : outWf (execOrs c w s) := by
  simp only [execOrs, State.scalarOp_memKey, outWf_next, hs]
theorem execXors_outWf (c : Cx) (w : BitVec 56) (s : State) (hs : keyWf s.memKey) : outWf (execXors c w s) := by
  simp only [execXors, State.scalarOp_memKey, outWf_next, hs]
theorem execShls_outWf (c : Cx) (w : BitVec 56) (s : State) (hs : keyWf s.memKey) : outWf (execShls c w s) := by
  simp only [execShls, State.scalarOp_memKey, outWf_next, hs]
theorem execShrs_outWf (c : Cx) (w : BitVec 56) (s : State) (hs : keyWf s.memKey) : outWf (execShrs c w s) := by
  simp only [execShrs, State.scalarOp_memKey, outWf_next, hs]
theorem execSras_outWf (c : Cx) (w : BitVec 56) (s : State) (hs : keyWf s.memKey) : outWf (execSras c w s) := by
  simp only [execSras, State.scalarOp_memKey, outWf_next, hs]
theorem execLds_outWf (c : Cx) (w : BitVec 56) (s : State) (hs : keyWf s.memKey) : outWf (execLds c w s) := by
  simp +contextual only [execLds, State.setCtx_memKey', State.illegal_memKey, State.atIssue_keyWf, ↓State.memKey_ite,
    ite_self, implies_true, outWf_next, hs]
theorem execLdsReturn_outWf (c : Cx) (s : State) (hs : keyWf s.memKey) : outWf (execLdsReturn c s) := by
  unfold execLdsReturn
  dsimp only
  (repeat' split) <;> simp only [State.setCtx_memKey', State.settle_memKey, State.readStg_memKey, outWf_next, hs]
theorem execSts_outWf (c : Cx) (w : BitVec 56) (s : State) (hs : keyWf s.memKey) : outWf (execSts c w s) := by
  simp +contextual only [execSts, State.setCtx_memKey', State.illegal_memKey, State.atIssue_keyWf,
    State.writeStg_memKey, ↓State.memKey_ite, ite_self, implies_true, outWf_next, hs]
theorem execBr_outWf (c : Cx) (w : BitVec 56) (s : State) (hs : keyWf s.memKey) : outWf (execBr c w s) := by
  simp +contextual only [execBr, State.setCtx_memKey', State.atIssue_keyWf, ↓State.memKey_ite, ite_self,
    implies_true, outWf_next, hs]
theorem execLoop_outWf (c : Cx) (w : BitVec 56) (s : State) (hs : keyWf s.memKey) : outWf (execLoop c w s) := by
  simp +contextual only [execLoop, State.setCtx_memKey', State.atIssue_keyWf, ↓State.memKey_ite, ite_self,
    implies_true, outWf_next, hs]
theorem execEndTask_outWf (c : Cx) (w : BitVec 56) (s : State) (hs : keyWf s.memKey) : outWf (execEndTask c w s) :=
  by
  simp +contextual only [execEndTask, State.setCtx_memKey', State.atIssue_keyWf, implies_true, outWf_next, hs]

theorem execSwait_outWf (c : Cx) (w : BitVec 56) (s : State) (hs : keyWf s.memKey) : outWf (execSwait c w s) := by
  refine (outWf_next _).mpr (State.atIssue_keyWf _ _ _ _ _ _ (fun s x hs => ?_) hs)
  split <;> simp only [State.service_memKey, State.setWaiters_memKey, State.setCtx_memKey', hs]
theorem execSsig_outWf (c : Cx) (w : BitVec 56) (s : State) (hs : keyWf s.memKey) : outWf (execSsig c w s) := by
  simp +contextual only [execSsig, State.setCtx_memKey', State.atIssue_keyWf, ↓State.memKey_ite, ite_self,
    implies_true, outWf_next, hs]
theorem execSsigRelease_outWf (c : Cx) (s : State) (hs : keyWf s.memKey) : outWf (execSsigRelease c s) := by
  unfold execSsigRelease
  dsimp only
  (repeat' split) <;> simp only [State.setCtx_memKey', State.signal_memKey, outWf_next, hs]
theorem execTmacPairEntry_outWf (p : Pos) (u : Unit3) (s : State) (hs : keyWf s.memKey) : outWf (execTmacPairEntry p
  u s) := by
  unfold execTmacPairEntry
  dsimp only
  (repeat' split) <;> simp only [State.modEng_memKey', State.reHold_memKey, State.checkTiles_memKey,
    State.numFault_memKey, State.addPair_memKey, State.loupePair_memKey, State.consume_memKey, State.lateOn_memKey,
    outWf_next, hs]
theorem execInstructionStart_outWf (p : Pos) (u : Unit3) (s : State) (hs : keyWf s.memKey) : outWf
  (execInstructionStart p u s) := by
  unfold execInstructionStart
  dsimp only
  (repeat' split) <;> simp only [State.modEng_memKey', State.reHold_memKey, State.settle_memKey,
    State.numFault_memKey, State.consume_memKey, State.lateOn_memKey, State.addMirror_memKey,
    State.startImage_memKey, State.startReads_memKey, outWf_next, hs]
theorem execSfetch_outWf (c : Cx) (w : BitVec 56) (s : State) (hs : keyWf s.memKey) : outWf (execSfetch c w s) := by
  simp only [execSfetch, State.issueStream_memKey, outWf_next, hs]
theorem execSstore_outWf (c : Cx) (w : BitVec 56) (s : State) (hs : keyWf s.memKey) : outWf (execSstore c w s) := by
  simp only [execSstore, State.issueStream_memKey, outWf_next, hs]

theorem execSdesc_outWf (c : Cx) (w : BitVec 56) (x : BitVec 64) (s : State) (hs : keyWf s.memKey) : outWf (execSdesc
  c w x s) := by
  refine (outWf_next _).mpr (State.atIssue_keyWf _ _ _ _ _ _ (fun s y hs => ?_) hs)
  dsimp only
  (repeat' split) <;> simp only [↓State.memKey_with, State.setBatch_memKey, State.setCtx_memKey', hs]
theorem execDescriptorBurstFetch_outWf (p : LPos) (i : Fin 2) (s : State) (hs : keyWf s.memKey) : outWf
  (execDescriptorBurstFetch p i s) := by
  unfold execDescriptorBurstFetch
  dsimp only
  (repeat' split) <;> simp only [State.modCtx_memKey', State.setBatch_memKey, State.settle_memKey,
    State.offer_memKey, State.sweep_memKey, State.burst_memKey, State.prefetch_memKey, outWf_next, hs]
theorem execDescriptorStart_outWf (p : LPos) (s : State) (hs : keyWf s.memKey) : outWf (execDescriptorStart p s) :=
  by
  unfold execDescriptorStart
  dsimp only
  (repeat' split) <;> simp only [State.setBatch_memKey, State.offer_memKey, State.startXfer_memKey, outWf_next, hs]
theorem execStreamDataArrival_outWf (p : LPos) (n : Fin 6) (s : State) (hs : keyWf s.memKey) : outWf
  (execStreamDataArrival p n s) := by
  simp only [execStreamDataArrival, State.oneUnit_keyWf, outWf_next, hs]
theorem execStreamTileFill_outWf (p : LPos) (n : Fin 6) (s : State) (hs : keyWf s.memKey) : outWf (execStreamTileFill
  p n s) := by
  simp only [execStreamTileFill, State.fillTile_keyWf, ↓State.memKey_ite, keyWf_ite, ite_self, outWf_next, hs]
theorem execTransferComplete_outWf (p : LPos) (n : Fin 6) (s : State) (hs : keyWf s.memKey) : outWf
  (execTransferComplete p n s) := by
  unfold execTransferComplete
  dsimp only
  (repeat' split) <;> simp only [State.setBatch_memKey, State.signal_memKey, State.sweep_memKey,
    State.freeXfer_memKey, outWf_next, hs]
theorem execStreamStall_outWf (p : LPos) (n : Fin 6) (s : State) (hs : keyWf s.memKey) : outWf (execStreamStall p n
  s) := by
  unfold execStreamStall
  dsimp only
  (repeat' split) <;> simp only [State.setReg_memKey', State.fsat_memKey', State.setXfer_memKey, State.eventR_memKey,
    outWf_next, hs]
theorem execStreamStarvation_outWf (p : LPos) (n : Fin 6) (s : State) (hs : keyWf s.memKey) : outWf
  (execStreamStarvation p n s) := by
  unfold execStreamStarvation
  dsimp only
  (repeat' split) <;> simp only [State.fsat_memKey', State.setFlag_memKey', State.setXfer_memKey,
    State.eventR_memKey, outWf_next, hs]
theorem execGroupRead_outWf (r : Req) (i : BitVec 12) (s : State) (hs : keyWf s.memKey) : outWf (execGroupRead r i s)
  := by
  simp +contextual only [execGroupRead, State.acting_keyWf, State.grpRead_memKey, implies_true, outWf_next, hs]
theorem execGroupWrite_outWf (r : Req) (i : BitVec 12) (s : State) (hs : keyWf s.memKey) : outWf (execGroupWrite r i
  s) := by
  simp +contextual only [execGroupWrite, State.acting_keyWf, State.grpWrite_memKey, implies_true, outWf_next, hs]
theorem execCred_outWf (c : Cx) (w : BitVec 56) (x : BitVec 64) (s : State) (hs : keyWf s.memKey) : outWf (execCred c
  w x s) := by
  simp only [execCred, State.issueColl_keyWf, outWf_next, hs]
theorem execCgath_outWf (c : Cx) (w : BitVec 56) (x : BitVec 64) (s : State) (hs : keyWf s.memKey) : outWf (execCgath
  c w x s) := by
  simp only [execCgath, State.issueColl_keyWf, outWf_next, hs]
theorem execCscat_outWf (c : Cx) (w : BitVec 56) (x : BitVec 64) (s : State) (hs : keyWf s.memKey) : outWf (execCscat
  c w x s) := by
  simp only [execCscat, State.issueColl_keyWf, outWf_next, hs]
theorem execCnorm_outWf (c : Cx) (w : BitVec 56) (x : BitVec 64) (s : State) (hs : keyWf s.memKey) : outWf (execCnorm
  c w x s) := by
  simp only [execCnorm, State.issueColl_keyWf, outWf_next, hs]
theorem execCollectiveUpData_outWf (d : CSlot) (s : State) (hs : keyWf s.memKey) : outWf (execCollectiveUpData d s)
  := by
  simp only [execCollectiveUpData, State.took_memKey, State.checkGrp_memKey, State.stray_memKey,
    State.setInst_memKey, State.raiseInst_keyWf, ↓State.memKey_ite, keyWf_ite, ite_self, outWf_next, hs]
theorem execCollectiveDownData_outWf (d : CSlot) (s : State) (hs : keyWf s.memKey) : outWf (execCollectiveDownData d
  s) := by
  simp only [execCollectiveDownData, State.took_memKey, State.checkGrp_memKey, State.stray_memKey,
    State.takeDown_keyWf, ↓State.memKey_ite, keyWf_ite, ite_self, outWf_next, hs]
theorem execCollectiveWithdraw_outWf (g : BitVec 12) (i src : BitVec 16) (s : State) (hs : keyWf s.memKey) : outWf
  (execCollectiveWithdraw g i src s) := by
  simp only [execCollectiveWithdraw, State.took_memKey, State.checkGrp_memKey, State.stray_memKey,
    State.toAll_memKey, State.closeInst_memKey, State.cancelInst_keyWf, State.withdrawUp_keyWf, ↓State.memKey_ite,
    keyWf_ite, ite_self, outWf_next, hs]
theorem execCollectiveStatistics_outWf (d : StatSlot) (s : State) (hs : keyWf s.memKey) : outWf
  (execCollectiveStatistics d s) := by
  simp only [execCollectiveStatistics, State.took_memKey, State.checkGrp_memKey, State.stray_memKey,
    State.toAll_memKey, State.setInst_memKey, State.closeInst_memKey, State.deliverInst_keyWf, State.raiseInst_keyWf,
    ↓State.memKey_ite, keyWf_ite, ite_self, outWf_next, hs]
theorem execCollectiveTimeout_outWf (p : LPos) (n : Fin 2) (s : State) (hs : keyWf s.memKey) : outWf
  (execCollectiveTimeout p n s) := by
  simp only [execCollectiveTimeout, State.withdrawMember_keyWf, ↓State.memKey_ite, keyWf_ite, ite_self, outWf_next,
    hs]
theorem execLocalCollectiveDone_outWf (g : BitVec 12) (i : BitVec 16) (s : State) (hs : keyWf s.memKey) : outWf
  (execLocalCollectiveDone g i s) := by
  simp +contextual only [execLocalCollectiveDone, State.setInst_memKey, State.closeInst_memKey,
    State.endMember_memKey, State.endAll_memKey, State.writeImages_keyWf, State.raiseInst_keyWf, ↓State.memKey_ite,
    keyWf_ite, ite_self, State.foldl_keyWf, implies_true, outWf_next, hs]

theorem execBar_outWf (c : Cx) (w : BitVec 56) (s : State) (hs : keyWf s.memKey) : outWf (execBar c w s) := by
  refine (outWf_next _).mpr (State.atIssue_keyWf _ _ _ _ _ _ (fun s x hs => ?_) hs)
  dsimp only
  (repeat' split) <;> simp only [State.fillBar_memKey, State.illegal_memKey, State.setCtx_memKey', ↓State.memKey_with,
    State.modBar_memKey, hs]
theorem execBarrierArrivalSlot_outWf (src : BitVec 16) (b : BarSlot) (s : State) (hs : keyWf s.memKey) : outWf
  (execBarrierArrivalSlot src b s) := by
  unfold execBarrierArrivalSlot
  dsimp only
  (repeat' split) <;> simp only [State.took_memKey, State.stray_memKey, State.modBar_memKey, State.raiseBar_memKey,
    ↓State.memKey_with, outWf_next, hs]
theorem execBarrierReleaseSlot_outWf (b : BarSlot) (s : State) (hs : keyWf s.memKey) : outWf (execBarrierReleaseSlot
  b s) := by
  unfold execBarrierReleaseSlot
  dsimp only
  (repeat' split) <;> simp only [State.took_memKey, State.stray_memKey, State.toAll_memKey, State.takeNotice_memKey,
    State.fixRelease_memKey, ↓State.memKey_with, outWf_next, hs]
theorem execBarrierWithdrawSlot_outWf (src : BitVec 16) (b : BarSlot) (s : State) (hs : keyWf s.memKey) : outWf
  (execBarrierWithdrawSlot src b s) := by
  unfold execBarrierWithdrawSlot
  dsimp only
  (repeat' split) <;> simp only [State.took_memKey, State.toPkg_memKey, State.stray_memKey, State.modBar_memKey,
    State.closeBars_memKey, outWf_next, hs]
theorem execReleaseInstant_outWf (id : BarId) (s : State) (hs : keyWf s.memKey) : outWf (execReleaseInstant id s) :=
  by
  simp only [execReleaseInstant, State.modBar_memKey, outWf_next, hs]
theorem execStartWave_outWf (id : BarId) (w : Fin 16) (s : State) (hs : keyWf s.memKey) : outWf (execStartWave id w
  s) := by
  unfold execStartWave
  dsimp only
  (repeat' split) <;> simp only [State.modBar_memKey, State.resumeAll_memKey, ↓State.memKey_with, outWf_next, hs]
theorem execPortTrainingDone_outWf (p : Fin 12) (gen width : BitVec 2) (pair : Bool) (s : State) (hs : keyWf
  s.memKey) : outWf (execPortTrainingDone p gen width pair s) := by
  simp only [execPortTrainingDone, State.fset_memKey', State.post_memKey, State.settleLanes_memKey,
    State.enterDiscovery_memKey, ↓State.memKey_ite, ite_self, outWf_next, hs]
theorem execLinkManagement_outWf (p : Fin 12) (peerGen : BitVec 2) (s : State) (hs : keyWf s.memKey) : outWf
  (execLinkManagement p peerGen s) := by
  simp only [execLinkManagement, State.modPort_memKey, State.takeFlits_memKey, State.leaveActive_memKey,
    State.beginTraining_memKey, ↓State.memKey_ite, ite_self, outWf_next, hs]
theorem execReadRequest_outWf (p : Fin 12) (r : ReqSlot) (s : State) (hs : keyWf s.memKey) : outWf (execReadRequest p
  r s) := by
  simp only [execReadRequest, State.post_memKey, State.takeSlot_memKey, State.serveRead_memKey, ↓State.memKey_ite,
    ite_self, outWf_next, hs]
theorem execWriteRequest_outWf (p : Fin 12) (r : ReqSlot) (d : List MWord) (s : State) (hs : keyWf s.memKey) : outWf
  (execWriteRequest p r d s) := by
  simp only [execWriteRequest, State.takeSlot_memKey, State.withData_keyWf, ↓State.memKey_ite, keyWf_ite, ite_self,
    outWf_next, hs]
theorem execReadResponse_outWf (p : Fin 12) (r : ReqSlot) (d : List MWord) (s : State) (hs : keyWf s.memKey) : outWf
  (execReadResponse p r d s) := by
  simp only [execReadResponse, State.takeSlot_memKey, State.withData_keyWf, ↓State.memKey_ite, keyWf_ite, ite_self,
    outWf_next, hs]
theorem execWriteCompletion_outWf (p : Fin 12) (r : ReqSlot) (s : State) (hs : keyWf s.memKey) : outWf
  (execWriteCompletion p r s) := by
  simp only [execWriteCompletion, State.takeSlot_memKey, State.finishTx_memKey, ↓State.memKey_ite, ite_self,
    outWf_next, hs]
theorem execDataFlit_outWf (p : Fin 12) (f : Flit) (s : State) (hs : keyWf s.memKey) : outWf (execDataFlit p f s) :=
  by
  simp only [execDataFlit, State.modPort_memKey, State.takeFlits_memKey, State.takeHeader_memKey,
    State.dropFlit_memKey, State.feed_keyWf, State.badCrc_memKey, ↓State.memKey_ite, keyWf_ite, ite_self, outWf_next,
    hs]
theorem execIdleFlit_outWf (p : Fin 12) (h : BitVec 64) (s : State) (hs : keyWf s.memKey) : outWf (execIdleFlit p h
  s) := by
  simp only [execIdleFlit, State.takeHeader_memKey, ↓State.memKey_ite, ite_self, outWf_next, hs]
theorem execReplayTimeout_outWf (p : Fin 12) (s : State) (hs : keyWf s.memKey) : outWf (execReplayTimeout p s) := by
  simp only [execReplayTimeout, State.replayed_memKey, ↓State.memKey_ite, ite_self, outWf_next, hs]
theorem execRetrainTrigger_outWf (p : Fin 12) (lane : Fin 4) (s : State) (hs : keyWf s.memKey) : outWf
  (execRetrainTrigger p lane s) := by
  simp only [execRetrainTrigger, State.portDown_memKey, State.startRetrain_memKey, State.chargeLane_memKey,
    ↓State.memKey_ite, ite_self, outWf_next, hs]
theorem execRetrainDone_outWf (p : Fin 12) (ok : Bool) (s : State) (hs : keyWf s.memKey) : outWf (execRetrainDone p
  ok s) := by
  simp only [execRetrainDone, State.setFlag_memKey', State.modPort_memKey, State.pump_memKey, State.portDown_memKey,
    State.settleLanes_memKey, State.startKey_memKey, ↓State.memKey_ite, ite_self, outWf_next, hs]
theorem execDownRetry_outWf (p : Fin 12) (s : State) (hs : keyWf s.memKey) : outWf (execDownRetry p s) := by
  simp only [execDownRetry, State.modPort_memKey, State.draw_memKey', State.beginTraining_memKey, ↓State.memKey_ite,
    ite_self, outWf_next, hs]
theorem execModuleFault_outWf (p : Fin 12) (s : State) (hs : keyWf s.memKey) : outWf (execModuleFault p s) := by
  simp only [execModuleFault, State.modPort_memKey, State.portDown_memKey, ↓State.memKey_ite, ite_self, outWf_next,
    hs]
theorem execRetrain_outWf (r : Req) (p : Fin 12) (s : State) (hs : keyWf s.memKey) : outWf (execRetrain r p s) := by
  simp +contextual only [execRetrain, State.acting_keyWf, State.ctrlRetrain_memKey, implies_true, outWf_next, hs]
theorem execLaneClr_outWf (r : Req) (p : Fin 12) (s : State) (hs : keyWf s.memKey) : outWf (execLaneClr r p s) := by
  simp +contextual only [execLaneClr, State.acting_keyWf, State.ctrlLaneClr_memKey, implies_true, outWf_next, hs]
theorem execHeliostatWindow_outWf (d : Fin 4) (err : Int) (s : State) (hs : keyWf s.memKey) : outWf
  (execHeliostatWindow d err s) := by
  simp only [execHeliostatWindow, State.fset_memKey', State.setFlag_memKey', ↓State.memKey_ite, ite_self, outWf_next,
    hs]
theorem execRailMax_outWf (d : Fin 4) (s : State) (hs : keyWf s.memKey) : outWf (execRailMax d s) := by
  simp only [execRailMax, State.fset_memKey', State.setFlag_memKey', State.event_memKey, State.rePace_memKey,
    ↓State.memKey_ite, ite_self, outWf_next, hs]
theorem execPaceStepChange_outWf (s : State) (hs : keyWf s.memKey) : outWf (execPaceStepChange s) := by
  simp only [execPaceStepChange, State.modPower_memKey, State.dieStep_memKey, ↓State.memKey_ite, ite_self,
    State.foldl_memKey, implies_true, outWf_next, hs]
theorem execMeterSwitch_outWf (d : Fin 4) (s : State) (hs : keyWf s.memKey) : outWf (execMeterSwitch d s) := by
  simp only [execMeterSwitch, State.fset_memKey', ↓State.memKey_ite, ite_self, outWf_next, hs]
theorem execReferenceWindow_outWf (ppm : Int) (s : State) (hs : keyWf s.memKey) : outWf (execReferenceWindow ppm s)
  := by
  simp only [execReferenceWindow, State.fset_memKey', State.event_memKey, State.modPower_memKey, ↓State.memKey_ite,
    ite_self, outWf_next, hs]
theorem execRootLock_outWf (s : State) (hs : keyWf s.memKey) : outWf (execRootLock s) := by
  simp only [execRootLock, State.fset_memKey', ↓State.memKey_with, ↓State.memKey_ite, ite_self, outWf_next, hs]
theorem execReferenceLoss_outWf (s : State) (hs : keyWf s.memKey) : outWf (execReferenceLoss s) := by
  simp only [execReferenceLoss, State.fset_memKey', State.fsat_memKey', State.event_memKey, State.modPower_memKey,
    ↓State.memKey_ite, ite_self, outWf_next, hs]
theorem execReferenceReturn_outWf (s : State) (hs : keyWf s.memKey) : outWf (execReferenceReturn s) := by
  simp only [execReferenceReturn, State.fset_memKey', State.modPower_memKey, ↓State.memKey_ite, ite_self, outWf_next,
    hs]
theorem execFcntStart_outWf (r : Req) (v : BitVec 32) (s : State) (hs : keyWf s.memKey) : outWf (execFcntStart r v s)
  := by
  simp +contextual only [execFcntStart, State.acting_keyWf, State.writeFcnt_memKey, implies_true, outWf_next, hs]
theorem execFcntDone_outWf (edges : Nat) (s : State) (hs : keyWf s.memKey) : outWf (execFcntDone edges s) := by
  simp only [execFcntDone, State.setReg_memKey', State.setFlag_memKey', ↓State.memKey_ite, ite_self, outWf_next, hs]
theorem execDiaphragmEstimate_outWf (e : PowerEst) (s : State) (hs : keyWf s.memKey) : outWf (execDiaphragmEstimate e
  s) := by
  simp only [execDiaphragmEstimate, State.fset_memKey', State.modPower_memKey, State.rePace_memKey,
    State.repark_memKey, State.throttle_memKey, ↓State.memKey_ite, ite_self, State.foldl_memKey, implies_true,
    outWf_next, hs]
theorem execDitherSlot_outWf (s : State) (hs : keyWf s.memKey) : outWf (execDitherSlot s) := by
  simp only [execDitherSlot, State.modPower_memKey, outWf_next, hs]
theorem execRegulatorRead_outWf (rail : Fin 18) (meas est : Nat) (heldLong : Bool) (s : State) (hs : keyWf s.memKey)
  : outWf (execRegulatorRead rail meas est heldLong s) := by
  simp only [execRegulatorRead, State.event_memKey, State.modPower_memKey, ↓State.memKey_ite, ite_self, outWf_next,
    hs]
theorem execDiaCapWrite_outWf (r : Req) (v : BitVec 32) (s : State) (hs : keyWf s.memKey) : outWf (execDiaCapWrite r
  v s) := by
  simp only [execDiaCapWrite, State.writeCap_memKey, outWf_next, hs]
theorem execDiaPrioWrite_outWf (r : Req) (v : BitVec 32) (s : State) (hs : keyWf s.memKey) : outWf (execDiaPrioWrite
  r v s) := by
  simp only [execDiaPrioWrite, State.writePrio_memKey, outWf_next, hs]
theorem execDiaMinWrite_outWf (r : Req) (c : Fin 3) (v : BitVec 32) (s : State) (hs : keyWf s.memKey) : outWf
  (execDiaMinWrite r c v s) := by
  simp only [execDiaMinWrite, State.writeMin_memKey, outWf_next, hs]
theorem execPaceNFall_outWf (s : State) (hs : keyWf s.memKey) : outWf (execPaceNFall s) := by
  simp only [execPaceNFall, State.paceFall_memKey, ↓State.memKey_ite, ite_self, outWf_next, hs]
theorem execPaceNRise_outWf (ns : Nat) (s : State) (hs : keyWf s.memKey) : outWf (execPaceNRise ns s) := by
  simp only [execPaceNRise, State.fsat_memKey', State.modPower_memKey, State.rePace_memKey, State.boardWarn_memKey,
    ↓State.memKey_ite, ite_self, outWf_next, hs]
theorem execDroopRelax_outWf (s : State) (hs : keyWf s.memKey) : outWf (execDroopRelax s) := by
  simp only [execDroopRelax, State.modPower_memKey, State.rePace_memKey, ↓State.memKey_ite, ite_self, outWf_next, hs]
theorem execBoardRelax_outWf (s : State) (hs : keyWf s.memKey) : outWf (execBoardRelax s) := by
  simp only [execBoardRelax, State.fset_memKey', State.rePace_memKey, outWf_next, hs]
theorem execThermalSample_outWf (sensor : BitVec 10) (t : Int) (s : State) (hs : keyWf s.memKey) : outWf
  (execThermalSample sensor t s) := by
  simp only [execThermalSample, State.fset_memKey', State.repark_memKey, ↓State.memKey_with, ↓State.memKey_ite,
    ite_self, outWf_next, hs]
theorem execThermalSlowdown_outWf (s : State) (hs : keyWf s.memKey) : outWf (execThermalSlowdown s) := by
  simp only [execThermalSlowdown, State.fset_memKey', State.rePace_memKey, ↓State.memKey_ite, ite_self, outWf_next,
    hs]
theorem execThermalSpeedup_outWf (s : State) (hs : keyWf s.memKey) : outWf (execThermalSpeedup s) := by
  simp only [execThermalSpeedup, State.fset_memKey', State.rePace_memKey, ↓State.memKey_ite, ite_self, outWf_next,
    hs]
theorem execHbmTemp_outWf (h : Fin 16) (t : Int) (s : State) (hs : keyWf s.memKey) : outWf (execHbmTemp h t s) := by
  simp only [execHbmTemp, State.modPower_memKey, outWf_next, hs]
theorem execNbrRead_outWf (r : Req) (i : BitVec 6) (s : State) (hs : keyWf s.memKey) : outWf (execNbrRead r i s) :=
  by
  simp +contextual only [execNbrRead, State.acting_keyWf, State.nbrRead_memKey, implies_true, outWf_next, hs]
theorem execNbrWrite_outWf (r : Req) (i : BitVec 6) (s : State) (hs : keyWf s.memKey) : outWf (execNbrWrite r i s) :=
  by
  simp +contextual only [execNbrWrite, State.acting_keyWf, State.nbrWrite_memKey, implies_true, outWf_next, hs]
theorem execAutoFill_outWf (r : Req) (v : BitVec 32) (s : State) (hs : keyWf s.memKey) : outWf (execAutoFill r v s)
  := by
  simp only [execAutoFill, State.writeDiscCfg_memKey, outWf_next, hs]
theorem execHello_outWf (p : Fin 12) (h : Hello) (s : State) (hs : keyWf s.memKey) : outWf (execHello p h s) := by
  simp only [execHello, State.setReg_memKey', State.modPort_memKey, State.takeFlits_memKey, State.sendHello_memKey,
    State.enterDiscovery_memKey, State.judged_memKey, ↓State.memKey_ite, ite_self, outWf_next, hs]
theorem execHelloTimer_outWf (p : Fin 12) (s : State) (hs : keyWf s.memKey) : outWf (execHelloTimer p s) := by
  simp only [execHelloTimer, State.sendHello_memKey, outWf_next, hs]
theorem execDiscoverySilent_outWf (p : Fin 12) (s : State) (hs : keyWf s.memKey) : outWf (execDiscoverySilent p s) :=
  by
  simp only [execDiscoverySilent, State.quarantine_memKey, ↓State.memKey_ite, ite_self, outWf_next, hs]
theorem execOnewayTimeout_outWf (p : Fin 12) (s : State) (hs : keyWf s.memKey) : outWf (execOnewayTimeout p s) := by
  unfold execOnewayTimeout
  dsimp only
  (repeat' split) <;> simp only [State.quarantine_memKey, outWf_next, hs]
theorem execSwapTimeout_outWf (p : Fin 12) (s : State) (hs : keyWf s.memKey) : outWf (execSwapTimeout p s) := by
  simp only [execSwapTimeout, State.modPort_memKey, State.quarantine_memKey, ↓State.memKey_ite, ite_self, outWf_next,
    hs]
theorem execHelloLost_outWf (p : Fin 12) (s : State) (hs : keyWf s.memKey) : outWf (execHelloLost p s) := by
  simp only [execHelloLost, State.quarantine_memKey, State.unswap_memKey, ↓State.memKey_ite, ite_self, outWf_next,
    hs]
theorem execRejudge_outWf (r : Req) (p : Fin 12) (s : State) (hs : keyWf s.memKey) : outWf (execRejudge r p s) := by
  simp +contextual only [execRejudge, State.acting_keyWf, State.ctrlRejudge_memKey, implies_true, outWf_next, hs]
theorem execQuar_outWf (r : Req) (p : Fin 12) (s : State) (hs : keyWf s.memKey) : outWf (execQuar r p s) := by
  simp +contextual only [execQuar, State.acting_keyWf, State.ctrlQuar_memKey, implies_true, outWf_next, hs]
theorem execKeyExchange_outWf (p : Fin 12) (msg : BitVec 8) (idx : BitVec 16) (body : BitVec 96) (s : State) (hs :
  keyWf s.memKey) : outWf (execKeyExchange p msg idx body s) := by
  simp only [execKeyExchange, State.setFlag_memKey', State.modPort_memKey, State.pump_memKey, State.post_memKey,
    State.takeFlits_memKey, State.quarantine_memKey, ↓State.memKey_with, ↓State.memKey_ite, ite_self, outWf_next, hs]
theorem execRekey_outWf (p : Fin 12) (s : State) (hs : keyWf s.memKey) : outWf (execRekey p s) := by
  simp only [execRekey, State.startKey_memKey, ↓State.memKey_ite, ite_self, outWf_next, hs]
theorem execFlitDropped_outWf (p : Fin 12) (c : DropCause) (s : State) (hs : keyWf s.memKey) : outWf (execFlitDropped
  p c s) := by
  unfold execFlitDropped
  (repeat' split) <;> simp only [State.fsat_memKey', State.modPort_memKey, State.dropFlit_memKey,
    State.quarantine_memKey, State.badCodeword_memKey, ↓State.memKey_ite, ite_self, outWf_next, hs]
theorem execTakeDump_outWf (r : Req) (s : State) (hs : keyWf s.memKey) : outWf (execTakeDump r s) := by
  simp +contextual only [execTakeDump, State.acting_keyWf, State.dump_memKey, implies_true, outWf_next, hs]
theorem execLoupeAutoArm_outWf (e : Pos) (acc : Fin 8) (tag : BitVec 16) (s : State) (hs : keyWf s.memKey) : outWf
  (execLoupeAutoArm e acc tag s) := by
  simp only [execLoupeAutoArm, State.setLoupe_memKey, ↓State.memKey_ite, ite_self, outWf_next, hs]
theorem execLoupeHoldExpiry_outWf (e : Pos) (s : State) (hs : keyWf s.memKey) : outWf (execLoupeHoldExpiry e s) := by
  simp only [execLoupeHoldExpiry, State.modEng_memKey', outWf_next, hs]
theorem execLoupeChainDone_outWf (u : Clu) (pairs : List (BitVec 16 × BitVec 16)) (s : State) (hs : keyWf s.memKey) :
  outWf (execLoupeChainDone u pairs s) := by
  unfold execLoupeChainDone
  dsimp only
  (repeat' split) <;> simp only [State.fsat_memKey', State.setLoupe_memKey, State.checkLoupe_memKey,
    State.lpFile_memKey, State.foldl_memKey, implies_true, outWf_next, hs]
theorem execFaultWinRead_outWf (r : Req) (tgt : Fin 4) (i : BitVec 28) (s : State) (hs : keyWf s.memKey) : outWf
  (execFaultWinRead r tgt i s) := by
  simp +contextual only [execFaultWinRead, State.acting_keyWf, State.fltCmd_memKey, implies_true, outWf_next, hs]
theorem execLoupeEntryWrite_outWf (r : Req) (i : BitVec 28) (s : State) (hs : keyWf s.memKey) : outWf
  (execLoupeEntryWrite r i s) := by
  simp +contextual only [execLoupeEntryWrite, State.acting_keyWf, State.fltCmd_memKey, implies_true, outWf_next, hs]
theorem execLoupeEntryClear_outWf (r : Req) (i : BitVec 28) (s : State) (hs : keyWf s.memKey) : outWf
  (execLoupeEntryClear r i s) := by
  simp +contextual only [execLoupeEntryClear, State.acting_keyWf, State.fltCmd_memKey, implies_true, outWf_next, hs]

theorem execUpdateNormReady_outWf (s : State) (hs : keyWf s.memKey) : outWf (execUpdateNormReady s) := by
  unfold execUpdateNormReady
  dsimp only
  (repeat' split) <;> simp only [outWf_next, State.updSettle_keyWf, State.fsat_memKey', ↓State.memKey_with,
    State.readG_memKey, hs]

theorem execChunkDispatch_outWf (k : ChunkId) (s : State) (hs : keyWf s.memKey) : outWf (execChunkDispatch k s) := by
  unfold execChunkDispatch
  split
  · exact (outWf_next _).mpr hs
  extract_lets +onlyGivenNames n
  split
  · exact (outWf_next _).mpr hs
  split
  · split <;> simp only [outWf_next, State.fsat_memKey', ↓State.memKey_with, hs]
  split <;> next h1 =>
    have k1 := State.memKey_of_eq_pair h1 (Upd.serve_memKey _ _ _ _)
    simp only [outWf_next, State.updSettle_keyWf, State.showRoot_memKey, State.showHeld_memKey, ↓State.memKey_with,
      k1, hs]
theorem execChunkRelease_outWf (k : ChunkId) (s : State) (hs : keyWf s.memKey) : outWf (execChunkRelease k s) := by
  unfold execChunkRelease
  (repeat' split) <;> simp only [State.fsat_memKey', State.fwrap_memKey', State.settleChunk_memKey,
    State.writeAll_keyWf, State.showHeld_memKey, State.updSettle_keyWf, State.beginRoot_memKey, ↓State.memKey_with,
    outWf_next, hs]

theorem execChunkOwnCopy_outWf (k : ChunkId) (s : State) (hs : keyWf s.memKey) : outWf (execChunkOwnCopy k s) := by
  unfold execChunkOwnCopy
  split <;> simp only [outWf_next, State.updSettle_keyWf, State.writeAll_keyWf, ↓State.memKey_with, hs]
theorem execRootDone_outWf (e : BitVec 12) (un : Nat) (s : State) (hs : keyWf s.memKey) : outWf (execRootDone e un s)
  := by
  simp only [execRootDone, State.showRoot_memKey, ↓State.memKey_with, outWf_next, hs]
theorem execRifflerLeave_outWf (n : Fin 4) (s : State) (hs : keyWf s.memKey) : outWf (execRifflerLeave n s) := by
  simp only [execRifflerLeave, State.rifLeave_keyWf, outWf_next, hs]
theorem execRifflerReturn_outWf (n : Fin 4) (s : State) (hs : keyWf s.memKey) : outWf (execRifflerReturn n s) := by
  unfold execRifflerReturn
  (repeat' split) <;> simp only [State.rifReturn_memKey, outWf_next, hs]
theorem execCommandCommit_outWf (q : Fin 16) (seq : BitVec 32) (s : State) (hs : keyWf s.memKey) : outWf
  (execCommandCommit q seq s) := by
  unfold execCommandCommit
  dsimp only
  (repeat' split) <;> simp only [State.drainOver_keyWf, State.commit_keyWf, outWf_next, hs]
theorem execCommandTimeout_outWf (q : Fin 16) (seq : BitVec 32) (s : State) (hs : keyWf s.memKey) : outWf
  (execCommandTimeout q seq s) := by
  unfold execCommandTimeout
  (repeat' split) <;> simp only [State.stopCmd_keyWf, outWf_next, hs]
theorem execDrainEnd_outWf (q : Fin 16) (seq : BitVec 32) (s : State) (hs : keyWf s.memKey) : outWf (execDrainEnd q
  seq s) := by
  unfold execDrainEnd
  (repeat' split) <;> simp only [State.drainOver_keyWf, outWf_next, hs]
theorem execTaskStart_outWf (l : LPos) (k : Fin 4) (s : State) (hs : keyWf s.memKey) : outWf (execTaskStart l k s) :=
  by
  simp only [execTaskStart, State.startWaiting_memKey, outWf_next, hs]
theorem execTaskComplete_outWf (c : Cx) (s : State) (hs : keyWf s.memKey) : outWf (execTaskComplete c s) := by
  unfold execTaskComplete
  dsimp only
  (repeat' split) <;> simp only [State.setCtx_memKey', State.settle_memKey, State.taskRecord_memKey, outWf_next, hs]
theorem execNop_outWf (q : Fin 16) (h : BitVec 64) (p : Payload) (s : State) (hs : keyWf s.memKey) : outWf (execNop q
  h p s) := by
  unfold execNop
  dsimp only
  (repeat' split) <;> simp only [State.commit_keyWf, State.place_keyWf, outWf_next, hs]
theorem execLaunch_outWf (q : Fin 16) (h : BitVec 64) (p : Payload) (s : State) (hs : keyWf s.memKey) : outWf
  (execLaunch q h p s) := by
  simp only [execLaunch, State.place_keyWf, outWf_next, hs]
theorem execSigsem_outWf (q : Fin 16) (h : BitVec 64) (p : Payload) (s : State) (hs : keyWf s.memKey) : outWf
  (execSigsem q h p s) := by
  simp only [execSigsem, State.place_keyWf, outWf_next, hs]
theorem execWaitsem_outWf (q : Fin 16) (h : BitVec 64) (p : Payload) (s : State) (hs : keyWf s.memKey) : outWf
  (execWaitsem q h p s) := by
  simp only [execWaitsem, State.place_keyWf, outWf_next, hs]
theorem execStepCmd_outWf (q : Fin 16) (h : BitVec 64) (p : Payload) (s : State) (hs : keyWf s.memKey) : outWf
  (execStepCmd q h p s) := by
  simp only [execStepCmd, State.place_keyWf, outWf_next, hs]
theorem execSchedld_outWf (q : Fin 16) (h : BitVec 64) (p : Payload) (s : State) (hs : keyWf s.memKey) : outWf
  (execSchedld q h p s) := by
  simp only [execSchedld, State.place_keyWf, outWf_next, hs]
theorem execAbortCmd_outWf (q : Fin 16) (h : BitVec 64) (p : Payload) (s : State) (hs : keyWf s.memKey) : outWf
  (execAbortCmd q h p s) := by
  simp only [execAbortCmd, State.place_keyWf, outWf_next, hs]
theorem execDisable_outWf (q : Fin 16) (h : BitVec 64) (p : Payload) (s : State) (hs : keyWf s.memKey) : outWf
  (execDisable q h p s) := by
  simp only [execDisable, State.place_keyWf, outWf_next, hs]
theorem execEnable_outWf (q : Fin 16) (h : BitVec 64) (p : Payload) (s : State) (hs : keyWf s.memKey) : outWf
  (execEnable q h p s) := by
  simp only [execEnable, State.place_keyWf, outWf_next, hs]
theorem execUpdate_outWf (q : Fin 16) (h : BitVec 64) (p : Payload) (s : State) (hs : keyWf s.memKey) : outWf
  (execUpdate q h p s) := by
  simp only [execUpdate, State.place_keyWf, outWf_next, hs]
theorem execTret_outWf (c : Cx) (w : BitVec 56) (s : State) (hs : keyWf s.memKey) : outWf (execTret c w s) := by
  simp +contextual only [execTret, State.setCtx_memKey', State.faultN_memKey, State.atIssue_keyWf,
    ↓State.memKey_with, ↓State.memKey_ite, ite_self, implies_true, outWf_next, hs]
theorem execTcap_outWf (c : Cx) (w : BitVec 56) (s : State) (hs : keyWf s.memKey) : outWf (execTcap c w s) := by
  simp +contextual only [execTcap, State.setCtx_memKey', State.atIssue_keyWf, ↓State.memKey_ite, ite_self,
    implies_true, outWf_next, hs]
theorem execTcapRun_outWf (c : Cx) (silicon : Bool) (s : State) (hs : keyWf s.memKey) : outWf (execTcapRun c silicon
  s) := by
  unfold execTcapRun
  dsimp only
  (repeat' split) <;> simp only [State.setCtx_memKey', State.permanent_memKey, State.settle_memKey, outWf_next, hs]
theorem execHandover_outWf (c : Clu) (i : Fin 16) (s : State) (hs : keyWf s.memKey) : outWf (execHandover c i s) :=
  by
  unfold execHandover
  dsimp only
  (repeat' split) <;> simp only [State.beginHandover_memKey, outWf_next, hs]
theorem execHandoverCopy_outWf (c : Clu) (s : State) (hs : keyWf s.memKey) : outWf (execHandoverCopy c s) := by
  simp only [execHandoverCopy, State.modEng_memKey', State.setRot_memKey, State.settle_memKey, ↓State.memKey_ite,
    ite_self, outWf_next, hs]

theorem execHandoverBind_outWf (c : Clu) (s : State) (hs : keyWf s.memKey) : outWf (execHandoverBind c s) := by
  have hfold (u sl : Nat) (r : Rot) (t : State) (ht : keyWf t.memKey) : keyWf ([0, 1, 2, 3].foldl (fun s k =>
      match (s.ctx (4 * sl + k)).held with
      | some cd => (s.setRot u { r with phase := .idle }).stopTask sl k cd
      | none => s) t).memKey := by
    refine State.foldl_keyWf _ (fun s k hs => ?_) _ _ ht
    split <;> simp only [State.stopTask_keyWf, State.setRot_memKey, hs]
  unfold execHandoverBind
  refine (outWf_next _).mpr (State.ite_keyWf hs ?_)
  have hin (c : Bool) (s1 : State) (x sl : Nat) (l : Option Nat) (b : Nat) (h1 : keyWf s1.memKey) :
      keyWf (((if c then s1.markMigrated x else s1).copyEngine x sl).bind b l).memKey := by
    rw [State.bind_memKey, State.copyEngine_memKey]
    exact State.ite_keyWf (by rw [State.markMigrated_memKey]; exact h1) h1
  dsimp only
  refine State.ite_keyWf ?_ ?_ <;>
    simp only [State.recordRetired_memKey, State.setSpare_memKey, State.setRot_memKey, State.setFlag_memKey'] <;>
    exact hfold _ _ _ _ (hin _ _ _ _ _ _ (by rw [State.settle_memKey]; exact hs))
theorem execRotationDue_outWf (c : Clu) (s : State) (hs : keyWf s.memKey) : outWf (execRotationDue c s) := by
  unfold execRotationDue
  dsimp only
  (repeat' split) <;> simp only [State.setRot_memKey, outWf_next, hs]
theorem execGraceExpiry_outWf (c : Clu) (s : State) (hs : keyWf s.memKey) : outWf (execGraceExpiry c s) := by
  simp only [execGraceExpiry, State.setRot_memKey, State.beginHandover_memKey, ↓State.memKey_ite, ite_self,
    outWf_next, hs]
theorem execRotationDeferral_outWf (c : Clu) (s : State) (hs : keyWf s.memKey) : outWf (execRotationDeferral c s) :=
  by
  simp only [execRotationDeferral, State.fsat_memKey', State.modEng_memKey', State.setRot_memKey, ↓State.memKey_ite,
    ite_self, outWf_next, hs]
theorem execRotationTestDone_outWf (c : Clu) (o : TestOutcome) (s : State) (hs : keyWf s.memKey) : outWf
  (execRotationTestDone c o s) := by
  unfold execRotationTestDone
  (repeat' split) <;> simp only [State.fsat_memKey', State.fwrap_memKey', State.setFlag_memKey', State.setRot_memKey,
    State.occur_memKey, State.filePermanent_memKey, State.classify_memKey, State.testFailed_memKey,
    State.capsuleFailed_memKey, State.testsOver_memKey, ↓State.memKey_ite, ite_self, outWf_next, hs]
theorem execEdgeModuleFail_outWf (e : Fin 12) (m : BitVec 6) (s : State) (hs : keyWf s.memKey) : outWf
  (execEdgeModuleFail e m s) := by
  simp only [execEdgeModuleFail, State.classify_memKey, State.failModule_keyWf, ↓State.memKey_ite, keyWf_ite,
    ite_self, outWf_next, hs]
theorem execModuleSpareDone_outWf (e : Fin 12) (s : State) (hs : keyWf s.memKey) : outWf (execModuleSpareDone e s) :=
  by
  simp only [execModuleSpareDone, State.edgeEffects_keyWf, State.setEdge_memKey, ↓State.memKey_with,
    ↓State.memKey_ite, keyWf_ite, ite_self, outWf_next, hs]
theorem execUnitRetirement_outWf (unit : BitVec 32) (s : State) (hs : keyWf s.memKey) : outWf (execUnitRetirement
  unit s) := by
  simp only [execUnitRetirement, State.retireUnit_keyWf, ↓State.memKey_ite, keyWf_ite, ite_self, outWf_next, hs]
theorem execResetEngine_outWf (r : Req) (e : Pos) (s : State) (hs : keyWf s.memKey) : outWf (execResetEngine r e s)
  := by
  simp only [execResetEngine, State.writeReset_keyWf, outWf_next, hs]
theorem execEngineResetDone_outWf (e : Pos) (pass : Bool) (s : State) (hs : keyWf s.memKey) : outWf
  (execEngineResetDone e pass s) := by
  simp only [execEngineResetDone, State.endEngineReset_keyWf, ↓State.memKey_ite, keyWf_ite, ite_self, outWf_next, hs]
theorem execResetCluster_outWf (r : Req) (u : Clu) (s : State) (hs : keyWf s.memKey) : outWf (execResetCluster r u s)
  := by
  simp only [execResetCluster, State.writeReset_keyWf, outWf_next, hs]
theorem execClusterResetDone_outWf (u : Clu) (s : State) (hs : keyWf s.memKey) : outWf (execClusterResetDone u s) :=
  by
  simp only [execClusterResetDone, ↓State.memKey_with, outWf_next, hs]
theorem execResetMemoryChannel_outWf (r : Req) (u : Fin 24) (ch : Fin 32) (s : State) (hs : keyWf s.memKey) : outWf
  (execResetMemoryChannel r u ch s) := by
  simp only [execResetMemoryChannel, State.writeReset_keyWf, ↓State.memKey_ite, keyWf_ite, ite_self, outWf_next, hs]
theorem execChannelTrainingLoss_outWf (u : Fin 24) (ch : Fin 32) (s : State) (hs : keyWf s.memKey) : outWf
  (execChannelTrainingLoss u ch s) := by
  simp only [execChannelTrainingLoss, State.resetChannel_memKey, outWf_next, hs]
theorem execMemoryChannelResetDone_outWf (u : Fin 24) (ch : Fin 32) (s : State) (hs : keyWf s.memKey) : outWf
  (execMemoryChannelResetDone u ch s) := by
  simp only [execMemoryChannelResetDone, ↓State.memKey_with, outWf_next, hs]
theorem execResetLinkPort_outWf (r : Req) (p : Fin 12) (s : State) (hs : keyWf s.memKey) : outWf (execResetLinkPort r
  p s) := by
  simp only [execResetLinkPort, State.writeReset_keyWf, outWf_next, hs]
theorem execResetRiffler_outWf (r : Req) (n : Fin 4) (s : State) (hs : keyWf s.memKey) : outWf (execResetRiffler r n
  s) := by
  simp only [execResetRiffler, State.writeReset_keyWf, outWf_next, hs]
theorem execResetDie_outWf (r : Req) (d : Fin 4) (s : State) (hs : keyWf s.memKey) : outWf (execResetDie r d s) := by
  simp only [execResetDie, State.writeReset_keyWf, outWf_next, hs]
theorem execDieResetDone_outWf (d : Fin 4) (s : State) (hs : keyWf s.memKey) : outWf (execDieResetDone d s) := by
  simp only [execDieResetDone, ↓State.memKey_with, outWf_next, hs]
theorem execResetPackageWarm_outWf (r : Req) (s : State) (hs : keyWf s.memKey) : outWf (execResetPackageWarm r s) :=
  by
  simp only [execResetPackageWarm, State.writeReset_keyWf, outWf_next, hs]
theorem execResetPackageCold_outWf (r : Req) (s : State) (hs : keyWf s.memKey) : outWf (execResetPackageCold r s) :=
  by
  simp only [execResetPackageCold, State.writeReset_keyWf, outWf_next, hs]
theorem execDebugLevelRequest_outWf (r : Req) (v : BitVec 32) (s : State) (hs : keyWf s.memKey) : outWf
  (execDebugLevelRequest r v s) := by
  simp only [execDebugLevelRequest, State.writeDbg_memKey, outWf_next, hs]
theorem execFacetRequest_outWf (r : Req) (v : BitVec 32) (s : State) (hs : keyWf s.memKey) : outWf (execFacetRequest
  r v s) := by
  simp only [execFacetRequest, State.writeDbg_memKey, outWf_next, hs]
theorem execFaultnPulseEnd_outWf (s : State) (hs : keyWf s.memKey) : outWf (execFaultnPulseEnd s) := by
  simp only [execFaultnPulseEnd, State.fset_memKey', State.setFlag_memKey', State.nextPulse_memKey,
    ↓State.memKey_ite, ite_self, outWf_next, hs]
theorem execTrip_outWf (sensor : BitVec 10) (s : State) (hs : keyWf s.memKey) : outWf (execTrip sensor s) := by
  simp only [execTrip, State.fsat_memKey', State.setFlag_memKey', State.faultN_memKey, State.event_memKey,
    State.dump_memKey, State.retain_memKey, ↓State.memKey_ite, ite_self, outWf_next, hs]
theorem execEmergencyStop_outWf (s : State) (hs : keyWf s.memKey) : outWf (execEmergencyStop s) := by
  simp only [execEmergencyStop, State.setFlag_memKey', State.faultN_memKey, State.dump_memKey, State.retain_memKey,
    ↓State.memKey_ite, ite_self, outWf_next, hs]
theorem execRearm_outWf (r : Req) (s : State) (hs : keyWf s.memKey) : outWf (execRearm r s) := by
  simp only [execRearm, State.writeTrip_memKey, outWf_next, hs]
theorem execSagTrigger_outWf (_rail : Fin 18) (level : Fin 3) (s : State) (hs : keyWf s.memKey) : outWf
  (execSagTrigger _rail level s) := by
  simp only [execSagTrigger, State.toLevels_memKey, ↓State.memKey_ite, ite_self, outWf_next, hs]
theorem execSagClear_outWf (level : Fin 3) (s : State) (hs : keyWf s.memKey) : outWf (execSagClear level s) := by
  simp only [execSagClear, State.toLevels_memKey, outWf_next, hs]
theorem execPwrfailAssert_outWf (s : State) (hs : keyWf s.memKey) : outWf (execPwrfailAssert s) := by
  simp only [execPwrfailAssert, State.modPower_memKey, State.dump_memKey, State.dropChunks_memKey,
    State.toLevels_memKey, ↓State.memKey_ite, ite_self, outWf_next, hs]
theorem execPwrfailRelease_outWf (s : State) (hs : keyWf s.memKey) : outWf (execPwrfailRelease s) := by
  simp only [execPwrfailRelease, State.modPower_memKey, outWf_next, hs]
theorem execL4Clear_outWf (s : State) (hs : keyWf s.memKey) : outWf (execL4Clear s) := by
  simp only [execL4Clear, State.reroute_memKey, State.toLevels_memKey, ↓State.memKey_ite, ite_self, outWf_next, hs]
theorem execMainRailsFall_outWf (s : State) (hs : keyWf s.memKey) : outWf (execMainRailsFall s) := by
  simp only [execMainRailsFall, State.fset_memKey', State.fsat_memKey', State.standby_keyWf, ↓State.memKey_ite,
    keyWf_ite, ite_self, outWf_next, hs]
theorem execAuxRailLoss_outWf (s : State) (hs : keyWf s.memKey) : outWf (execAuxRailLoss s) := by
  simp only [execAuxRailLoss, State.lost_keyWf, outWf_next, hs]
theorem execIdleEntry_outWf (s : State) (hs : keyWf s.memKey) : outWf (execIdleEntry s) := by
  simp only [execIdleEntry, State.fset_memKey', ↓State.memKey_ite, ite_self, outWf_next, hs]
theorem execIdleExit_outWf (s : State) (hs : keyWf s.memKey) : outWf (execIdleExit s) := by
  simp only [execIdleExit, State.fset_memKey', ↓State.memKey_ite, ite_self, outWf_next, hs]
theorem execPstateRetention_outWf (r : Req) (s : State) (hs : keyWf s.memKey) : outWf (execPstateRetention r s) := by
  simp only [execPstateRetention, State.writePstate_keyWf, outWf_next, hs]
theorem execPstateLeaveRetention_outWf (r : Req) (s : State) (hs : keyWf s.memKey) : outWf (execPstateLeaveRetention
  r s) := by
  simp only [execPstateLeaveRetention, State.writePstate_keyWf, outWf_next, hs]
theorem execPstateStandby_outWf (r : Req) (s : State) (hs : keyWf s.memKey) : outWf (execPstateStandby r s) := by
  simp only [execPstateStandby, State.writePstate_keyWf, outWf_next, hs]
theorem execConfirmTimeout_outWf (s : State) (hs : keyWf s.memKey) : outWf (execConfirmTimeout s) := by
  unfold execConfirmTimeout
  dsimp only
  (repeat' split) <;> simp only [State.endTrial_memKey, State.runSlot_memKey, State.fellBack_memKey, outWf_next, hs]
theorem execZeroisation_outWf (s : State) (hs : keyWf s.memKey) : outWf (execZeroisation s) := by
  unfold execZeroisation
  (repeat' split) <;> simp only [State.modPower_memKey, State.zeroise_keyWf, ↓State.memKey_with, outWf_next, hs]
theorem execZeroisationDone_outWf (s : State) (hs : keyWf s.memKey) : outWf (execZeroisationDone s) := by
  unfold execZeroisationDone
  (repeat' split) <;> simp only [State.setFlag_memKey', State.modPower_memKey, State.lifeChange_memKey,
    State.secDone_memKey, ↓State.memKey_with, outWf_next, hs]
theorem execStageIsl_outWf (r : Req) (n : Nat) (s : State) (hs : keyWf s.memKey) : outWf (execStageIsl r n s) := by
  simp only [execStageIsl, State.writeSec_keyWf, outWf_next, hs]
theorem execStageArm_outWf (r : Req) (n : Nat) (s : State) (hs : keyWf s.memKey) : outWf (execStageArm r n s) := by
  simp only [execStageArm, State.writeSec_keyWf, outWf_next, hs]
theorem execSwitchFw_outWf (r : Req) (arm : Bool) (s : State) (hs : keyWf s.memKey) : outWf (execSwitchFw r arm s) :=
  by
  simp only [execSwitchFw, State.writeSec_keyWf, outWf_next, hs]
theorem execConfirmFw_outWf (r : Req) (arm : Bool) (s : State) (hs : keyWf s.memKey) : outWf (execConfirmFw r arm s)
  := by
  simp only [execConfirmFw, State.writeSec_keyWf, outWf_next, hs]
theorem execInstall_outWf (r : Req) (n : Nat) (s : State) (hs : keyWf s.memKey) : outWf (execInstall r n s) := by
  simp only [execInstall, State.writeSec_keyWf, outWf_next, hs]
theorem execGrant_outWf (r : Req) (s : State) (hs : keyWf s.memKey) : outWf (execGrant r s) := by
  simp only [execGrant, State.writeSec_keyWf, outWf_next, hs]
theorem execEndGrant_outWf (r : Req) (s : State) (hs : keyWf s.memKey) : outWf (execEndGrant r s) := by
  simp only [execEndGrant, State.writeSec_keyWf, outWf_next, hs]
theorem execReleaseQuar_outWf (r : Req) (s : State) (hs : keyWf s.memKey) : outWf (execReleaseQuar r s) := by
  simp only [execReleaseQuar, State.writeSec_keyWf, outWf_next, hs]
theorem execRetirePkg_outWf (r : Req) (s : State) (hs : keyWf s.memKey) : outWf (execRetirePkg r s) := by
  simp only [execRetirePkg, State.writeSec_keyWf, outWf_next, hs]
theorem execAttest_outWf (r : Req) (s : State) (hs : keyWf s.memKey) : outWf (execAttest r s) := by
  simp only [execAttest, State.writeSec_keyWf, outWf_next, hs]
theorem execOverlay_outWf (r : Req) (s : State) (hs : keyWf s.memKey) : outWf (execOverlay r s) := by
  simp only [execOverlay, State.writeSec_keyWf, outWf_next, hs]
theorem execBootcfg_outWf (r : Req) (s : State) (hs : keyWf s.memKey) : outWf (execBootcfg r s) := by
  simp only [execBootcfg, State.writeSec_keyWf, outWf_next, hs]
theorem execSvn_outWf (r : Req) (s : State) (hs : keyWf s.memKey) : outWf (execSvn r s) := by
  simp only [execSvn, State.writeSec_keyWf, outWf_next, hs]
theorem execExtend_outWf (r : Req) (s : State) (hs : keyWf s.memKey) : outWf (execExtend r s) := by
  simp only [execExtend, State.writeSec_keyWf, outWf_next, hs]
theorem execKeyrev_outWf (r : Req) (s : State) (hs : keyWf s.memKey) : outWf (execKeyrev r s) := by
  simp only [execKeyrev, State.writeSec_keyWf, outWf_next, hs]
theorem execProvisioning_outWf (s : State) (hs : keyWf s.memKey) : outWf (execProvisioning s) := by
  simp only [execProvisioning, State.lifeChange_memKey, ↓State.memKey_ite, ite_self, outWf_next, hs]
theorem execSramRepartition_outWf (r : Req) (d : Fin 4) (v : BitVec 32) (s : State) (hs : keyWf s.memKey) : outWf
  (execSramRepartition r d v s) := by
  simp only [execSramRepartition, State.writeSramCfg_keyWf, outWf_next, hs]
theorem execRepartitionWritebackDone_outWf (d : Fin 4) (s : State) (hs : keyWf s.memKey) : outWf
  (execRepartitionWritebackDone d s) := by
  simp only [execRepartitionWritebackDone, ↓State.memKey_with, ↓State.memKey_ite, ite_self, outWf_next, hs]

theorem execRepartitionDone_outWf (d : Fin 4) (s : State) (hs : keyWf s.memKey) : outWf (execRepartitionDone d s) :=
  by
  refine (outWf_next _).mpr (State.ite_keyWf hs ?_)
  simp only [State.setFlag_memKey', State.fset_memKey']
  refine State.ite_keyWf ?_ hs
  exact keyWf_filter _ hs fun x hx => memDef_added d.val _ _ _ _ _ _ hx
theorem execCapsuleLoad_outWf (r : Req) (i : BitVec 8) (s : State) (hs : keyWf s.memKey) : outWf (execCapsuleLoad r i
  s) := by
  simp only [execCapsuleLoad, State.writeCapCmd_memKey, outWf_next, hs]
theorem execCapsuleErase_outWf (r : Req) (i : BitVec 8) (s : State) (hs : keyWf s.memKey) : outWf (execCapsuleErase r
  i s) := by
  simp only [execCapsuleErase, State.writeCapCmd_memKey, outWf_next, hs]
theorem execCapsuleEnable_outWf (r : Req) (i : BitVec 8) (en : Bool) (s : State) (hs : keyWf s.memKey) : outWf
  (execCapsuleEnable r i en s) := by
  simp only [execCapsuleEnable, State.writeCapCmd_memKey, outWf_next, hs]
theorem execAuxPowerGood_outWf (s : State) (hs : keyWf s.memKey) : outWf (execAuxPowerGood s) := by
  simp only [execAuxPowerGood, State.coldStart_keyWf, ↓State.memKey_ite, keyWf_ite, ite_self, outWf_next, hs]
theorem execStrapLatch_outWf (word : BitVec 24) (ambig : BitVec 12) (s : State) (hs : keyWf s.memKey) : outWf
  (execStrapLatch word ambig s) := by
  simp only [execStrapLatch, State.setReg_memKey', State.fset_memKey', State.settleId_memKey, ↓State.memKey_ite,
    ite_self, outWf_next, hs]
theorem execFacetOutputsOn_outWf (s : State) (hs : keyWf s.memKey) : outWf (execFacetOutputsOn s) := by
  simp only [execFacetOutputsOn, State.fset_memKey', ↓State.memKey_ite, ite_self, outWf_next, hs]
theorem execFacetInputsJudged_outWf (pwrfailLow paceLow : Bool) (s : State) (hs : keyWf s.memKey) : outWf
  (execFacetInputsJudged pwrfailLow paceLow s) := by
  simp only [execFacetInputsJudged, State.modPower_memKey, State.paceFall_memKey, ↓State.memKey_ite, ite_self,
    outWf_next, hs]
theorem execFirmwareVerify_outWf (s : State) (hs : keyWf s.memKey) : outWf (execFirmwareVerify s) := by
  simp only [execFirmwareVerify, State.fset_memKey', State.recovery_memKey, State.measure_memKey,
    State.runSlot_memKey, State.fellBack_memKey, State.islandUp_memKey, ↓State.memKey_with, ↓State.memKey_ite,
    ite_self, outWf_next, hs]
theorem execRailSequence_outWf (s : State) (hs : keyWf s.memKey) : outWf (execRailSequence s) := by
  simp only [execRailSequence, State.fset_memKey', State.modPower_memKey, State.showSag_memKey, ↓State.memKey_ite,
    ite_self, State.foldl_memKey, implies_true, outWf_next, hs]
theorem execRailTimeout_outWf (s : State) (hs : keyWf s.memKey) : outWf (execRailTimeout s) := by
  simp only [execRailTimeout, State.fset_memKey', State.draw_memKey', State.event_memKey, State.standby_keyWf,
    ↓State.memKey_ite, keyWf_ite, ite_self, outWf_next, hs]
theorem execArmatureStart_outWf (rev : BitVec 8) (s : State) (hs : keyWf s.memKey) : outWf (execArmatureStart rev s)
  := by
  simp only [execArmatureStart, State.fset_memKey', State.modPower_memKey, State.autoFill_memKey,
    State.recovery_memKey, State.armRuns_memKey, State.setRails_memKey, State.fellBack_memKey,
    State.startPorts_memKey, ↓State.memKey_ite, ite_self, outWf_next, hs]
theorem execDieSelfTest_outWf (d : Fin 4) (pass passRepeat : Bool) (s : State) (hs : keyWf s.memKey) : outWf
  (execDieSelfTest d pass passRepeat s) := by
  simp only [execDieSelfTest, State.fset_memKey', State.recovery_memKey, State.quarDie_keyWf, State.endDies_memKey,
    ↓State.memKey_with, ↓State.memKey_ite, keyWf_ite, ite_self, outWf_next, hs]
theorem execEdgeTraining_outWf (e : Fin 12) (good : BitVec 6) (s : State) (hs : keyWf s.memKey) : outWf
  (execEdgeTraining e good s) := by
  simp only [execEdgeTraining, State.fset_memKey', State.edgeEffects_keyWf, State.setEdge_memKey,
    State.markMods_memKey, State.setMems_memKey, ↓State.memKey_ite, keyWf_ite, ite_self, outWf_next, hs]

theorem execMemoryTraining_outWf (failed : List (Fin 24 × Fin 32)) (s : State) (hs : keyWf s.memKey) : outWf
  (execMemoryTraining failed s) := by
  have hfail : keyWf (failed.foldl (fun s f =>
      let u := f.1.val
      let ch := f.2.val
      if chans u ≤ ch ∨ (s.reg (Reg.MEM_H_CHRET u)).getLsbD ch then s
      else (s.retireChannel u ch).recovery (chanUnit u ch) 5) s).memKey :=
    State.foldl_keyWf _ (fun s f hs => State.ite_keyWf hs (by
      simp only [State.recovery_memKey, State.retireChannel_memKey, hs])) _ _ hs
  refine (outWf_next _).mpr (State.ite_keyWf hs ?_)
  simp only [State.fset_memKey', State.modPower_memKey]
  refine State.ite_keyWf (keyWf_nil _ _ _) ?_
  refine State.foldl_keyWf _ (fun s n hs => State.ite_keyWf ?_ ?_) _ _ (by rw [State.setMems_memKey]; exact hfail)
  · simp only [State.rifReturn_memKey, hs]
  · simp only [↓State.memKey_with, State.setRif_memKey, hs]
theorem execCalibrationApply_outWf (s : State) (hs : keyWf s.memKey) : outWf (execCalibrationApply s) := by
  simp only [execCalibrationApply, State.fset_memKey', State.setFlag_memKey', State.modPower_memKey,
    State.rePace_memKey, State.measure_memKey, State.applyCal_memKey, ↓State.memKey_ite, ite_self,
    State.foldl_memKey, implies_true, outWf_next, hs]
theorem execReady_outWf (ms : Nat) (s : State) (hs : keyWf s.memKey) : outWf (execReady ms s) := by
  simp only [execReady, State.fset_memKey', ↓State.memKey_ite, ite_self, outWf_next, hs]
theorem execStandbyExit_outWf (s : State) (hs : keyWf s.memKey) : outWf (execStandbyExit s) := by
  simp only [execStandbyExit, State.setReg_memKey', State.fset_memKey', State.modPower_memKey, ↓State.memKey_ite,
    ite_self, outWf_next, hs]
theorem execResidueCheck_outWf (p : Pos) (u : Unit3) (s : State) (hs : keyWf s.memKey) : outWf (execResidueCheck p u
  s) := by
  unfold execResidueCheck
  dsimp only
  (repeat' split) <;> simp only [State.checkAcc_memKey, outWf_next, hs]
theorem execUnitResidueMismatch_outWf (u : ArithUnit) (lane diff : BitVec 6) (s : State) (hs : keyWf s.memKey) :
  outWf (execUnitResidueMismatch u lane diff s) := by
  unfold execUnitResidueMismatch
  dsimp only
  (repeat' split) <;> simp only [State.modEng_memKey', State.unitFault_memKey, State.setInst_memKey,
    State.chunkMismatch_keyWf, outWf_next, hs]
theorem execInstructionComplete_outWf (p : Pos) (u : Unit3) (s : State) (hs : keyWf s.memKey) : outWf
  (execInstructionComplete p u s) := by
  unfold execInstructionComplete
  dsimp only
  (repeat' split) <;> simp only [State.settleVector_memKey, State.unitDone_keyWf, State.checkAcc_memKey,
    State.foldl_memKey, implies_true, outWf_next, hs]
theorem execLockstepMismatch_outWf (u : LockUnit) (point : BitVec 32) (s : State) (hs : keyWf s.memKey) : outWf
  (execLockstepMismatch u point s) := by
  unfold execLockstepMismatch
  (repeat' split) <;> simp only [State.classify_memKey, State.stopTasks_keyWf, State.resetEngine_keyWf,
    State.resetCluster_keyWf, State.resetRiffler_keyWf, State.stopAll_keyWf, State.dropAllRead_memKey, outWf_next,
    hs]
theorem execHeartbeatMiss_outWf (core : BitVec 8) (served : BitVec 16) (s : State) (hs : keyWf s.memKey) : outWf
  (execHeartbeatMiss core served s) := by
  simp only [execHeartbeatMiss, State.classify_memKey, State.haltQ_memKey, ↓State.memKey_ite, ite_self,
    State.foldl_memKey, implies_true, outWf_next, hs]
theorem execHandshakeWatchdog_outWf (p : Pos) (stage : BitVec 32) (s : State) (hs : keyWf s.memKey) : outWf
  (execHandshakeWatchdog p stage s) := by
  simp only [execHandshakeWatchdog, State.classify_memKey, State.resetEngine_keyWf, outWf_next, hs]
theorem execSensorCheck_outWf (sensor : BitVec 10) (off : Bool) (s : State) (hs : keyWf s.memKey) : outWf
  (execSensorCheck sensor off s) := by
  simp only [execSensorCheck, State.classify_memKey, ↓State.memKey_with, ↓State.memKey_ite, ite_self, outWf_next, hs]
theorem execReplay_outWf (n : Fin 16) (s : State) (hs : keyWf s.memKey) : outWf (execReplay n s) := by
  unfold execReplay
  (repeat' split) <;> simp only [State.dropCapture_memKey, State.endReplay_memKey, ↓State.memKey_with,
    ↓State.memKey_ite, ite_self, outWf_next, hs]
theorem execReplayDone_outWf (n : Fin 16) (suspectBad refBad : Bool) (s : State) (hs : keyWf s.memKey) : outWf
  (execReplayDone n suspectBad refBad s) := by
  unfold execReplayDone
  (repeat' split) <;> simp only [State.classify_memKey, State.settleFault_memKey, State.showCaps_memKey,
    State.dropCapture_memKey, State.endReplay_memKey, ↓State.memKey_with, ↓State.memKey_ite, ite_self, outWf_next,
    hs]
theorem execCorrectedWriteback_outWf (a : BitVec 48) (s : State) (hs : keyWf s.memKey) : outWf
  (execCorrectedWriteback a s) := by
  unfold execCorrectedWriteback
  dsimp only
  (repeat' split) <;> simp only [State.store_keyWf, ↓State.memKey_with, outWf_next, hs]
theorem execPatrolScrub_outWf (t : Tier) (a : BitVec 48) (s : State) (hs : keyWf s.memKey) : outWf (execPatrolScrub t
  a s) := by
  simp only [execPatrolScrub, State.store_keyWf, State.onRead_memKey, State.scrubProgress_memKey, ↓State.memKey_ite,
    keyWf_ite, ite_self, outWf_next, hs]
theorem execServiceTimeTick_outWf (s : State) (hs : keyWf s.memKey) : outWf (execServiceTimeTick s) := by
  simp only [execServiceTimeTick, State.setReg_memKey', State.fset_memKey', State.showWindows_memKey,
    ↓State.memKey_ite, ite_self, outWf_next, hs]
theorem execHangScan_outWf (s : State) (hs : keyWf s.memKey) : outWf (execHangScan s) := by
  simp +contextual only [execHangScan, State.judgeCycle_keyWf, ↓State.memKey_with, ↓State.memKey_ite, keyWf_ite,
    ite_self, State.foldl_keyWf, implies_true, outWf_next, hs]
theorem execMarginPlan_outWf (d : Fin 4) (drift : List Int) (s : State) (hs : keyWf s.memKey) : outWf (execMarginPlan
  d drift s) := by
  simp only [execMarginPlan, State.fset_memKey', State.event_memKey, State.ageStep_memKey, State.marginCeil_memKey,
    ↓State.memKey_with, ↓State.memKey_ite, ite_self, State.foldl_memKey, implies_true, outWf_next, hs]
theorem execSyncEdge_outWf (err : Int) (s : State) (hs : keyWf s.memKey) : outWf (execSyncEdge err s) := by
  simp only [execSyncEdge, State.fset_memKey', State.setFlag_memKey', State.loadArm_memKey, State.event_memKey,
    State.modTime_memKey, ↓State.memKey_ite, ite_self, outWf_next, hs]
theorem execSyncLost_outWf (s : State) (hs : keyWf s.memKey) : outWf (execSyncLost s) := by
  simp only [execSyncLost, State.setFlag_memKey', ↓State.memKey_ite, ite_self, outWf_next, hs]
theorem execTimeExchange_outWf (s : State) (hs : keyWf s.memKey) : outWf (execTimeExchange s) := by
  simp only [execTimeExchange, State.modTime_memKey, ↓State.memKey_ite, ite_self, outWf_next, hs]
theorem execTimeSync_outWf (x : TimeSlot) (s : State) (hs : keyWf s.memKey) : outWf (execTimeSync x s) := by
  simp only [execTimeSync, State.modTime_memKey, State.tookTime_memKey, ↓State.memKey_ite, ite_self, outWf_next, hs]
theorem execFollowUp_outWf (x : TimeSlot) (s : State) (hs : keyWf s.memKey) : outWf (execFollowUp x s) := by
  simp only [execFollowUp, State.modTime_memKey, State.toUpstream_memKey, State.tookTime_memKey, ↓State.memKey_ite,
    ite_self, outWf_next, hs]
theorem execDelayReq_outWf (x : TimeSlot) (s : State) (hs : keyWf s.memKey) : outWf (execDelayReq x s) := by
  simp only [execDelayReq, State.toPkg_memKey, State.tookTime_memKey, ↓State.memKey_ite, ite_self, outWf_next, hs]
theorem execDelayResp_outWf (x : TimeSlot) (s : State) (hs : keyWf s.memKey) : outWf (execDelayResp x s) := by
  unfold execDelayResp
  dsimp only
  (repeat' split) <;> simp only [State.modTime_memKey, State.tookTime_memKey, outWf_next, hs]
theorem execOffsetCorrection_outWf (settled : Bool) (s : State) (hs : keyWf s.memKey) : outWf (execOffsetCorrection
  settled s) := by
  simp only [execOffsetCorrection, State.setReg_memKey', State.setFlag_memKey', State.draw_memKey',
    State.toPkg_memKey, State.modTime_memKey, ↓State.memKey_ite, ite_self, State.foldl_memKey, implies_true,
    outWf_next, hs]
theorem execAdjust_outWf (a b : TimeSlot) (s : State) (hs : keyWf s.memKey) : outWf (execAdjust a b s) := by
  simp only [execAdjust, State.took_memKey, State.modTime_memKey, outWf_next, hs]
theorem execAdjustApply_outWf (s : State) (hs : keyWf s.memKey) : outWf (execAdjustApply s) := by
  unfold execAdjustApply
  (repeat' split) <;> simp only [State.modTime_memKey, outWf_next, hs]
theorem execTbLatchRead_outWf (r : Req) (s : State) (hs : keyWf s.memKey) : outWf (execTbLatchRead r s) := by
  simp only [execTbLatchRead, State.deny_memKey, State.latchTime_memKey, ↓State.memKey_ite, ite_self, outWf_next, hs]
theorem execClvIdleLatchRead_outWf (r : Req) (c : Fin 7) (s : State) (hs : keyWf s.memKey) : outWf
  (execClvIdleLatchRead r c s) := by
  simp only [execClvIdleLatchRead, State.deny_memKey, State.latchIdle_memKey, ↓State.memKey_ite, ite_self,
    outWf_next, hs]
theorem execRegisterWrite_outWf (r : Req) (a : BitVec 32) (v : BitVec 32) (s : State) (hs : keyWf s.memKey) : outWf
  (execRegisterWrite r a v s) := by
  simp only [execRegisterWrite, State.regWrite_keyWf, outWf_next, hs]
theorem execSemValueWrite_outWf (r : Req) (u : Clu) (k : BitVec 8) (v : BitVec 32) (s : State) (hs : keyWf s.memKey)
  : outWf (execSemValueWrite r u k v s) := by
  simp only [execSemValueWrite, State.writeSem_memKey, outWf_next, hs]
theorem execSctStepWrite_outWf (r : Req) (v : BitVec 32) (s : State) (hs : keyWf s.memKey) : outWf (execSctStepWrite
  r v s) := by
  simp only [execSctStepWrite, State.writeSctStep_memKey, outWf_next, hs]
theorem execSctWinRead_outWf (r : Req) (i : BitVec 15) (s : State) (hs : keyWf s.memKey) : outWf (execSctWinRead r i
  s) := by
  simp only [execSctWinRead, State.writeSctWin_memKey, outWf_next, hs]
theorem execSctWinWrite_outWf (r : Req) (i : BitVec 15) (s : State) (hs : keyWf s.memKey) : outWf (execSctWinWrite r
  i s) := by
  simp only [execSctWinWrite, State.writeSctWin_memKey, outWf_next, hs]
theorem execSctWinClear_outWf (r : Req) (i : BitVec 15) (s : State) (hs : keyWf s.memKey) : outWf (execSctWinClear r
  i s) := by
  simp only [execSctWinClear, State.writeSctWin_memKey, outWf_next, hs]
theorem execCqDoorbell_outWf (r : Req) (q : Fin 16) (v : BitVec 32) (s : State) (hs : keyWf s.memKey) : outWf
  (execCqDoorbell r q v s) := by
  simp only [execCqDoorbell, State.writeTail_memKey, outWf_next, hs]
theorem execCqEnable_outWf (r : Req) (q : Fin 16) (v : BitVec 32) (s : State) (hs : keyWf s.memKey) : outWf
  (execCqEnable r q v s) := by
  simp only [execCqEnable, State.writeCqCfg_memKey, outWf_next, hs]
theorem execCommandStart_outWf (q : Fin 16) (s : State) (hs : keyWf s.memKey) : outWf (execCommandStart q s) := by
  simp +contextual only [execCommandStart, State.fetchCmds_memKey, State.startHead_keyWf, State.runAny_keyWf,
    implies_true, outWf_next, hs]
theorem execRegwr_outWf (q : Fin 16) (h : BitVec 64) (p : Payload) (s : State) (hs : keyWf s.memKey) : outWf
  (execRegwr q h p s) := by
  simp only [execRegwr, State.placeReg_keyWf, outWf_next, hs]
theorem execPhaseWrite_outWf (q : Fin 16) (h : BitVec 64) (p : Payload) (s : State) (hs : keyWf s.memKey) : outWf
  (execPhaseWrite q h p s) := by
  unfold execPhaseWrite
  dsimp only
  (repeat' split) <;> simp only [State.commit_keyWf, State.placeReg_keyWf, outWf_next, hs]
theorem execPerstAssert_outWf (s : State) (hs : keyWf s.memKey) : outWf (execPerstAssert s) := by
  simp only [execPerstAssert, State.setReg_memKey', State.modPower_memKey, State.haltQ_memKey, ↓State.memKey_with,
    ↓State.memKey_ite, ite_self, State.foldl_memKey, implies_true, outWf_next, hs]
theorem execPerstDeassert_outWf (s : State) (hs : keyWf s.memKey) : outWf (execPerstDeassert s) := by
  simp only [execPerstDeassert, State.modPower_memKey, outWf_next, hs]
theorem execHostLinkUp_outWf (rate : BitVec 3) (width : BitVec 5) (s : State) (hs : keyWf s.memKey) : outWf
  (execHostLinkUp rate width s) := by
  simp only [execHostLinkUp, State.fset_memKey', State.fsat_memKey', State.setFlag_memKey', ↓State.memKey_ite,
    ite_self, outWf_next, hs]
theorem execHostRead_outWf (bar : Fin 3) (o : BitVec 48) (n : Nat) (s : State) (hs : keyWf s.memKey) : outWf
  (execHostRead bar o n s) := by
  simp only [execHostRead, State.hostRegs_memKey, State.hostMem_memKey, ↓State.memKey_with, ↓State.memKey_ite,
    ite_self, outWf_next, hs]
theorem execHostWrite_outWf (bar : Fin 3) (o : BitVec 48) (d : List (BitVec 32)) (poison : Bool) (s : State) (hs :
  keyWf s.memKey) : outWf (execHostWrite bar o d poison s) := by
  simp only [execHostWrite, State.hostRegWrites_keyWf, State.hostMemWrite_keyWf, State.bar4Write_memKey,
    ↓State.memKey_ite, keyWf_ite, ite_self, outWf_next, hs]
theorem execMgmtAddr_outWf (a : BitVec 64) (s : State) (hs : keyWf s.memKey) : outWf (execMgmtAddr a s) := by
  simp only [execMgmtAddr, State.busMode_memKey, ↓State.memKey_with, ↓State.memKey_ite, ite_self, outWf_next, hs]
theorem execMgmtRead_outWf (s : State) (hs : keyWf s.memKey) : outWf (execMgmtRead s) := by
  unfold execMgmtRead
  dsimp only
  (repeat' split) <;> simp only [State.readW_memKey, State.regRead_memKey, State.busMode_memKey, State.busRef_memKey,
    ↓State.memKey_with, outWf_next, hs]
theorem execMgmtWrite_outWf (v : BitVec 32) (s : State) (hs : keyWf s.memKey) : outWf (execMgmtWrite v s) := by
  unfold execMgmtWrite
  dsimp only
  (repeat' split) <;> simp only [State.writeW_keyWf, State.regWrite_keyWf, State.busMode_memKey, State.busRef_memKey,
    ↓State.memKey_with, outWf_next, hs]
theorem execMgmtStatus_outWf (s : State) (hs : keyWf s.memKey) : outWf (execMgmtStatus s) := by
  simp only [execMgmtStatus, State.busMode_memKey, ↓State.memKey_with, ↓State.memKey_ite, ite_self, outWf_next, hs]
theorem execRecovery_outWf (d : List (BitVec 8)) (s : State) (hs : keyWf s.memKey) : outWf (execRecovery d s) := by
  simp only [execRecovery, State.busMode_memKey, State.busRef_memKey, ↓State.memKey_with, ↓State.memKey_ite,
    ite_self, outWf_next, hs]
theorem execRecoveryGo_outWf (s : State) (hs : keyWf s.memKey) : outWf (execRecoveryGo s) := by
  simp only [execRecoveryGo, State.recoveryGo_memKey, State.busMode_memKey, State.busRef_memKey, ↓State.memKey_ite,
    ite_self, outWf_next, hs]
theorem execCccBroadcast_outWf (dyn : Option (BitVec 7)) (s : State) (hs : keyWf s.memKey) : outWf (execCccBroadcast
  dyn s) := by
  unfold execCccBroadcast
  (repeat' split) <;> simp only [State.fset_memKey', State.setFlag_memKey', outWf_next, hs]

theorem execTestAccessPortAccess_outWf (o : TapOp) (s : State) (hs : keyWf s.memKey) : outWf
  (execTestAccessPortAccess o s) := by
  unfold execTestAccessPortAccess
  split
  · exact (outWf_next _).mpr hs
  split
  case h_4 => exact outWf_fault _
  case h_6 a =>
    refine (outWf_next _).mpr (State.ite_keyWf hs ?_)
    split
    next h1 => simp only [↓State.memKey_with, State.memKey_of_eq_pair h1 (State.readW_memKey _ _ _ _), hs]
  case h_7 a v => exact (outWf_next _).mpr (State.ite_keyWf hs (State.writeW_keyWf _ _ _ _ _ hs))
  case h_8 a =>
    refine (outWf_next _).mpr ?_
    split
    next h1 => simp only [↓State.memKey_with, State.memKey_of_eq_pair h1 (State.regRead_memKey _ _ _ _), hs]
  all_goals
    simp only [outWf_next, State.ite_keyWf, State.modEng_memKey', State.settle_memKey, State.regWrite_keyWf, hs]

/-! ## Every command -/

/-- Whatever the command, the memory it leaves is canonical. -/
theorem exec_outWf (i : Instr) (s : State) (hs : keyWf s.memKey) : outWf (exec i s) := by
  cases i with
  | tmac c w => exact execTmac_outWf c w s hs
  | tmac2 c w => exact execTmac2_outWf c w s hs
  | accld c w x => exact execAccld_outWf c w x s hs
  | accst c w x => exact execAccst_outWf c w x s hs
  | tqnt c w x => exact execTqnt_outWf c w x s hs
  | lpsamp c w => exact execLpsamp_outWf c w s hs
  | vadd c w x => exact execVadd_outWf c w x s hs
  | vsub c w x => exact execVsub_outWf c w x s hs
  | vmul c w x => exact execVmul_outWf c w x s hs
  | vmax c w x => exact execVmax_outWf c w x s hs
  | vmin c w x => exact execVmin_outWf c w x s hs
  | vcvt c w x => exact execVcvt_outWf c w x s hs
  | vtrn c w x => exact execVtrn_outWf c w x s hs
  | vexp c w x => exact execVexp_outWf c w x s hs
  | vrelu c w x => exact execVrelu_outWf c w x s hs
  | vgelu c w x => exact execVgelu_outWf c w x s hs
  | vsilu c w x => exact execVsilu_outWf c w x s hs
  | vtanh c w x => exact execVtanh_outWf c w x s hs
  | vsigm c w x => exact execVsigm_outWf c w x s hs
  | vrcp c w x => exact execVrcp_outWf c w x s hs
  | vrsq c w x => exact execVrsq_outWf c w x s hs
  | vrsum c w x => exact execVrsum_outWf c w x s hs
  | vrmax c w x => exact execVrmax_outWf c w x s hs
  | vcsum c w x => exact execVcsum_outWf c w x s hs
  | vamax c w x => exact execVamax_outWf c w x s hs
  | adds c w => exact execAdds_outWf c w s hs
  | subs c w => exact execSubs_outWf c w s hs
  | muls c w => exact execMuls_outWf c w s hs
  | ands c w => exact execAnds_outWf c w s hs
  | ors c w => exact execOrs_outWf c w s hs
  | xors c w => exact execXors_outWf c w s hs
  | shls c w => exact execShls_outWf c w s hs
  | shrs c w => exact execShrs_outWf c w s hs
  | sras c w => exact execSras_outWf c w s hs
  | lds c w => exact execLds_outWf c w s hs
  | ldsReturn c => exact execLdsReturn_outWf c s hs
  | sts c w => exact execSts_outWf c w s hs
  | br c w => exact execBr_outWf c w s hs
  | loop c w => exact execLoop_outWf c w s hs
  | endTask c w => exact execEndTask_outWf c w s hs
  | swait c w => exact execSwait_outWf c w s hs
  | ssig c w => exact execSsig_outWf c w s hs
  | ssigRelease c => exact execSsigRelease_outWf c s hs
  | semValueWrite r u k v => exact execSemValueWrite_outWf r u k v s hs
  | bar c w => exact execBar_outWf c w s hs
  | sfetch c w => exact execSfetch_outWf c w s hs
  | sstore c w => exact execSstore_outWf c w s hs
  | sdesc c w x => exact execSdesc_outWf c w x s hs
  | descriptorBurstFetch l b => exact execDescriptorBurstFetch_outWf l b s hs
  | descriptorStart l => exact execDescriptorStart_outWf l s hs
  | streamDataArrival l n => exact execStreamDataArrival_outWf l n s hs
  | streamTileFill l n => exact execStreamTileFill_outWf l n s hs
  | transferComplete l n => exact execTransferComplete_outWf l n s hs
  | streamStall l n => exact execStreamStall_outWf l n s hs
  | streamStarvation l n => exact execStreamStarvation_outWf l n s hs
  | cred c w x => exact execCred_outWf c w x s hs
  | cgath c w x => exact execCgath_outWf c w x s hs
  | cscat c w x => exact execCscat_outWf c w x s hs
  | cnorm c w x => exact execCnorm_outWf c w x s hs
  | tret c w => exact execTret_outWf c w s hs
  | tcap c w => exact execTcap_outWf c w s hs
  | tcapRun c silicon => exact execTcapRun_outWf c silicon s hs
  | instructionStart e q => exact execInstructionStart_outWf e q s hs
  | tmacPairEntry e q => exact execTmacPairEntry_outWf e q s hs
  | instructionComplete e q => exact execInstructionComplete_outWf e q s hs
  | contextResume c => exact execContextResume_outWf c s hs
  | taskComplete c => exact execTaskComplete_outWf c s hs
  | cqDoorbell r q v => exact execCqDoorbell_outWf r q v s hs
  | cqEnable r q v => exact execCqEnable_outWf r q v s hs
  | commandStart q => exact execCommandStart_outWf q s hs
  | nop q h p => exact execNop_outWf q h p s hs
  | launch q h p => exact execLaunch_outWf q h p s hs
  | taskStart l k => exact execTaskStart_outWf l k s hs
  | sigsem q h p => exact execSigsem_outWf q h p s hs
  | waitsem q h p => exact execWaitsem_outWf q h p s hs
  | stepCmd q h p => exact execStepCmd_outWf q h p s hs
  | schedld q h p => exact execSchedld_outWf q h p s hs
  | abortCmd q h p => exact execAbortCmd_outWf q h p s hs
  | disable q h p => exact execDisable_outWf q h p s hs
  | drainEnd q seq => exact execDrainEnd_outWf q seq s hs
  | enable q h p => exact execEnable_outWf q h p s hs
  | update q h p => exact execUpdate_outWf q h p s hs
  | regwr q h p => exact execRegwr_outWf q h p s hs
  | phaseWrite q h p => exact execPhaseWrite_outWf q h p s hs
  | commandCommit q seq => exact execCommandCommit_outWf q seq s hs
  | commandTimeout q seq => exact execCommandTimeout_outWf q seq s hs
  | collectiveUpData d => exact execCollectiveUpData_outWf d s hs
  | collectiveDownData d => exact execCollectiveDownData_outWf d s hs
  | collectiveWithdraw g ix src => exact execCollectiveWithdraw_outWf g ix src s hs
  | collectiveStatistics d => exact execCollectiveStatistics_outWf d s hs
  | collectiveTimeout l n => exact execCollectiveTimeout_outWf l n s hs
  | barrierArrivalSlot src b => exact execBarrierArrivalSlot_outWf src b s hs
  | barrierReleaseSlot b => exact execBarrierReleaseSlot_outWf b s hs
  | barrierWithdrawSlot src b => exact execBarrierWithdrawSlot_outWf src b s hs
  | releaseInstant b => exact execReleaseInstant_outWf b s hs
  | startWave b w => exact execStartWave_outWf b w s hs
  | sctStepWrite r v => exact execSctStepWrite_outWf r v s hs
  | sctWinRead r ix => exact execSctWinRead_outWf r ix s hs
  | sctWinWrite r ix => exact execSctWinWrite_outWf r ix s hs
  | sctWinClear r ix => exact execSctWinClear_outWf r ix s hs
  | updateNormReady => exact execUpdateNormReady_outWf s hs
  | chunkDispatch k => exact execChunkDispatch_outWf k s hs
  | chunkRelease k => exact execChunkRelease_outWf k s hs
  | chunkOwnCopy k => exact execChunkOwnCopy_outWf k s hs
  | rootDone e u => exact execRootDone_outWf e u s hs
  | rifflerLeave n => exact execRifflerLeave_outWf n s hs
  | rifflerReturn n => exact execRifflerReturn_outWf n s hs
  | portTrainingDone p gen width pair => exact execPortTrainingDone_outWf p gen width pair s hs
  | linkManagement p peerGen => exact execLinkManagement_outWf p peerGen s hs
  | dataFlit p f => exact execDataFlit_outWf p f s hs
  | idleFlit p h => exact execIdleFlit_outWf p h s hs
  | readRequest p sl => exact execReadRequest_outWf p sl s hs
  | writeRequest p sl d => exact execWriteRequest_outWf p sl d s hs
  | readResponse p sl d => exact execReadResponse_outWf p sl d s hs
  | writeCompletion p sl => exact execWriteCompletion_outWf p sl s hs
  | replayTimeout p => exact execReplayTimeout_outWf p s hs
  | retrainTrigger p lane => exact execRetrainTrigger_outWf p lane s hs
  | retrainDone p ok => exact execRetrainDone_outWf p ok s hs
  | downRetry p => exact execDownRetry_outWf p s hs
  | moduleFault p => exact execModuleFault_outWf p s hs
  | hello p m => exact execHello_outWf p m s hs
  | helloTimer p => exact execHelloTimer_outWf p s hs
  | discoverySilent p => exact execDiscoverySilent_outWf p s hs
  | onewayTimeout p => exact execOnewayTimeout_outWf p s hs
  | swapTimeout p => exact execSwapTimeout_outWf p s hs
  | helloLost p => exact execHelloLost_outWf p s hs
  | keyExchange p msg idx body => exact execKeyExchange_outWf p msg idx body s hs
  | rekey p => exact execRekey_outWf p s hs
  | retrain r p => exact execRetrain_outWf r p s hs
  | rejudge r p => exact execRejudge_outWf r p s hs
  | quar r p => exact execQuar_outWf r p s hs
  | laneClr r p => exact execLaneClr_outWf r p s hs
  | nbrRead r ix => exact execNbrRead_outWf r ix s hs
  | nbrWrite r ix => exact execNbrWrite_outWf r ix s hs
  | autoFill r v => exact execAutoFill_outWf r v s hs
  | groupRead r ix => exact execGroupRead_outWf r ix s hs
  | groupWrite r ix => exact execGroupWrite_outWf r ix s hs
  | syncEdge err => exact execSyncEdge_outWf err s hs
  | syncLost => exact execSyncLost_outWf s hs
  | timeExchange => exact execTimeExchange_outWf s hs
  | timeSync sl => exact execTimeSync_outWf sl s hs
  | followUp sl => exact execFollowUp_outWf sl s hs
  | delayReq sl => exact execDelayReq_outWf sl s hs
  | delayResp sl => exact execDelayResp_outWf sl s hs
  | offsetCorrection settled => exact execOffsetCorrection_outWf settled s hs
  | adjust a b => exact execAdjust_outWf a b s hs
  | adjustApply => exact execAdjustApply_outWf s hs
  | tbLatchRead r => exact execTbLatchRead_outWf r s hs
  | heliostatWindow d err => exact execHeliostatWindow_outWf d err s hs
  | railMax d => exact execRailMax_outWf d s hs
  | paceStepChange => exact execPaceStepChange_outWf s hs
  | meterSwitch d => exact execMeterSwitch_outWf d s hs
  | referenceWindow ppm => exact execReferenceWindow_outWf ppm s hs
  | rootLock => exact execRootLock_outWf s hs
  | referenceLoss => exact execReferenceLoss_outWf s hs
  | referenceReturn => exact execReferenceReturn_outWf s hs
  | fcntStart r v => exact execFcntStart_outWf r v s hs
  | fcntDone edges => exact execFcntDone_outWf edges s hs
  | diaphragmEstimate e => exact execDiaphragmEstimate_outWf e s hs
  | ditherSlot => exact execDitherSlot_outWf s hs
  | regulatorRead rail meas est heldLong => exact execRegulatorRead_outWf rail meas est heldLong s hs
  | diaCapWrite r v => exact execDiaCapWrite_outWf r v s hs
  | diaPrioWrite r v => exact execDiaPrioWrite_outWf r v s hs
  | diaMinWrite r c v => exact execDiaMinWrite_outWf r c v s hs
  | paceNFall => exact execPaceNFall_outWf s hs
  | paceNRise ns => exact execPaceNRise_outWf ns s hs
  | emergencyStop => exact execEmergencyStop_outWf s hs
  | droopRelax => exact execDroopRelax_outWf s hs
  | boardRelax => exact execBoardRelax_outWf s hs
  | thermalSample sensor t => exact execThermalSample_outWf sensor t s hs
  | thermalSlowdown => exact execThermalSlowdown_outWf s hs
  | thermalSpeedup => exact execThermalSpeedup_outWf s hs
  | hbmTemp h t => exact execHbmTemp_outWf h t s hs
  | trip sensor => exact execTrip_outWf sensor s hs
  | rearm r => exact execRearm_outWf r s hs
  | sagTrigger rail level => exact execSagTrigger_outWf rail level s hs
  | sagClear level => exact execSagClear_outWf level s hs
  | pwrfailAssert => exact execPwrfailAssert_outWf s hs
  | pwrfailRelease => exact execPwrfailRelease_outWf s hs
  | l4Clear => exact execL4Clear_outWf s hs
  | mainRailsFall => exact execMainRailsFall_outWf s hs
  | auxRailLoss => exact execAuxRailLoss_outWf s hs
  | idleEntry => exact execIdleEntry_outWf s hs
  | idleExit => exact execIdleExit_outWf s hs
  | pstateRetention r => exact execPstateRetention_outWf r s hs
  | pstateLeaveRetention r => exact execPstateLeaveRetention_outWf r s hs
  | pstateStandby r => exact execPstateStandby_outWf r s hs
  | residueCheck e q => exact execResidueCheck_outWf e q s hs
  | unitResidueMismatch u lane diff => exact execUnitResidueMismatch_outWf u lane diff s hs
  | lockstepMismatch u point => exact execLockstepMismatch_outWf u point s hs
  | heartbeatMiss core served => exact execHeartbeatMiss_outWf core served s hs
  | handshakeWatchdog e stage => exact execHandshakeWatchdog_outWf e stage s hs
  | sensorCheck sensor off => exact execSensorCheck_outWf sensor off s hs
  | replay n => exact execReplay_outWf n s hs
  | replayDone n suspectBad refBad => exact execReplayDone_outWf n suspectBad refBad s hs
  | correctedWriteback a => exact execCorrectedWriteback_outWf a s hs
  | patrolScrub t a => exact execPatrolScrub_outWf t a s hs
  | serviceTimeTick => exact execServiceTimeTick_outWf s hs
  | loupeAutoArm e acc tag => exact execLoupeAutoArm_outWf e acc tag s hs
  | loupeHoldExpiry e => exact execLoupeHoldExpiry_outWf e s hs
  | loupeChainDone u pairs => exact execLoupeChainDone_outWf u pairs s hs
  | faultWinRead r tgt ix => exact execFaultWinRead_outWf r tgt ix s hs
  | loupeEntryWrite r ix => exact execLoupeEntryWrite_outWf r ix s hs
  | loupeEntryClear r ix => exact execLoupeEntryClear_outWf r ix s hs
  | rotationDue u => exact execRotationDue_outWf u s hs
  | graceExpiry u => exact execGraceExpiry_outWf u s hs
  | rotationDeferral u => exact execRotationDeferral_outWf u s hs
  | handover u sl => exact execHandover_outWf u sl s hs
  | handoverCopy u => exact execHandoverCopy_outWf u s hs
  | handoverBind u => exact execHandoverBind_outWf u s hs
  | rotationTestDone u o => exact execRotationTestDone_outWf u o s hs
  | unitRetirement unit => exact execUnitRetirement_outWf unit s hs
  | moduleSpareDone e => exact execModuleSpareDone_outWf e s hs
  | edgeModuleFail e m => exact execEdgeModuleFail_outWf e m s hs
  | channelTrainingLoss u ch => exact execChannelTrainingLoss_outWf u ch s hs
  | hangScan => exact execHangScan_outWf s hs
  | resetEngine r e => exact execResetEngine_outWf r e s hs
  | engineResetDone e pass => exact execEngineResetDone_outWf e pass s hs
  | resetCluster r u => exact execResetCluster_outWf r u s hs
  | resetMemoryChannel r u ch => exact execResetMemoryChannel_outWf r u ch s hs
  | resetLinkPort r p => exact execResetLinkPort_outWf r p s hs
  | resetRiffler r n => exact execResetRiffler_outWf r n s hs
  | resetDie r d => exact execResetDie_outWf r d s hs
  | resetPackageWarm r => exact execResetPackageWarm_outWf r s hs
  | resetPackageCold r => exact execResetPackageCold_outWf r s hs
  | capsuleLoad r ix => exact execCapsuleLoad_outWf r ix s hs
  | capsuleErase r ix => exact execCapsuleErase_outWf r ix s hs
  | capsuleEnable r ix en => exact execCapsuleEnable_outWf r ix en s hs
  | takeDump r => exact execTakeDump_outWf r s hs
  | marginPlan d drift => exact execMarginPlan_outWf d drift s hs
  | sramRepartition r d v => exact execSramRepartition_outWf r d v s hs
  | repartitionWritebackDone d => exact execRepartitionWritebackDone_outWf d s hs
  | repartitionDone d => exact execRepartitionDone_outWf d s hs
  | auxPowerGood => exact execAuxPowerGood_outWf s hs
  | strapLatch word ambig => exact execStrapLatch_outWf word ambig s hs
  | facetOutputsOn => exact execFacetOutputsOn_outWf s hs
  | facetInputsJudged pwrfailLow paceLow => exact execFacetInputsJudged_outWf pwrfailLow paceLow s hs
  | firmwareVerify => exact execFirmwareVerify_outWf s hs
  | railSequence => exact execRailSequence_outWf s hs
  | railTimeout => exact execRailTimeout_outWf s hs
  | armatureStart rev => exact execArmatureStart_outWf rev s hs
  | dieSelfTest d pass passRepeat => exact execDieSelfTest_outWf d pass passRepeat s hs
  | edgeTraining e good => exact execEdgeTraining_outWf e good s hs
  | memoryTraining failed => exact execMemoryTraining_outWf failed s hs
  | calibrationApply => exact execCalibrationApply_outWf s hs
  | ready ms => exact execReady_outWf ms s hs
  | perstAssert => exact execPerstAssert_outWf s hs
  | perstDeassert => exact execPerstDeassert_outWf s hs
  | hostRead bar o n => exact execHostRead_outWf bar o n s hs
  | hostWrite bar o d poison => exact execHostWrite_outWf bar o d poison s hs
  | stageIsl r n => exact execStageIsl_outWf r n s hs
  | stageArm r n => exact execStageArm_outWf r n s hs
  | switchFw r arm => exact execSwitchFw_outWf r arm s hs
  | confirmFw r arm => exact execConfirmFw_outWf r arm s hs
  | confirmTimeout => exact execConfirmTimeout_outWf s hs
  | install r n => exact execInstall_outWf r n s hs
  | grant r => exact execGrant_outWf r s hs
  | zeroisation => exact execZeroisation_outWf s hs
  | zeroisationDone => exact execZeroisationDone_outWf s hs
  | endGrant r => exact execEndGrant_outWf r s hs
  | releaseQuar r => exact execReleaseQuar_outWf r s hs
  | retirePkg r => exact execRetirePkg_outWf r s hs
  | attest r => exact execAttest_outWf r s hs
  | overlay r => exact execOverlay_outWf r s hs
  | bootcfg r => exact execBootcfg_outWf r s hs
  | svn r => exact execSvn_outWf r s hs
  | extend r => exact execExtend_outWf r s hs
  | keyrev r => exact execKeyrev_outWf r s hs
  | debugLevelRequest r v => exact execDebugLevelRequest_outWf r v s hs
  | facetRequest r v => exact execFacetRequest_outWf r v s hs
  | faultnPulseEnd => exact execFaultnPulseEnd_outWf s hs
  | mgmtAddr a => exact execMgmtAddr_outWf a s hs
  | mgmtRead => exact execMgmtRead_outWf s hs
  | mgmtWrite v => exact execMgmtWrite_outWf v s hs
  | mgmtStatus => exact execMgmtStatus_outWf s hs
  | recovery d => exact execRecovery_outWf d s hs
  | recoveryGo => exact execRecoveryGo_outWf s hs
  | registerWrite r a v => exact execRegisterWrite_outWf r a v s hs
  | clusterResetDone u => exact execClusterResetDone_outWf u s hs
  | dieResetDone d => exact execDieResetDone_outWf d s hs
  | memoryChannelResetDone u ch => exact execMemoryChannelResetDone_outWf u ch s hs
  | localCollectiveDone g ix => exact execLocalCollectiveDone_outWf g ix s hs
  | flitDropped p f => exact execFlitDropped_outWf p f s hs
  | hostLinkUp rate width => exact execHostLinkUp_outWf rate width s hs
  | cccBroadcast dyn => exact execCccBroadcast_outWf dyn s hs
  | testAccessPortAccess o => exact execTestAccessPortAccess_outWf o s hs
  | provisioning => exact execProvisioning_outWf s hs
  | standbyExit => exact execStandbyExit_outWf s hs
  | clvIdleLatchRead r c => exact execClvIdleLatchRead_outWf r c s hs

theorem step_memWf (s t : State) (hs : s.memWf) (h : step s = .next t) : t.memWf := by
  unfold step at h
  split at h
  · obtain rfl := Host.Outcome.next.inj h
    exact State.memWf_of_memKey (State.tick_memKey s) hs
  · exact exec_outWf _ _ (State.memKey_with.symm ▸ hs) t h

/-- Settles O59: each command keeps memory canonical, and a nanosecond passing leaves it as it was. -/
theorem memoryStaysCanonical : Obligations.MemoryStaysCanonical := step_memWf

end Sys2Proof.Machine
end

section
/-! SUPPORT. Register fields: what a field reads after a write of the same field, of another and of a register. -/
namespace Sys2Proof.Machine

/-! ## Fields -/

/-- The field lies within its register. -/
def Fld.ok (f : Fld) : Bool := f.lo ≤ f.hi && f.hi < 32

/-- The two fields share no bit. -/
def Fld.apart (f g : Fld) : Bool := f.hi < g.lo || g.hi < f.lo || f.key != g.key

theorem Fld.apart_of_key {f g : Fld} (h : f.key ≠ g.key) : f.apart g = true := by simp [Fld.apart, h]

theorem Fld.mask_getLsbD (f : Fld) (i : Nat) :
    f.mask.getLsbD i = (decide (i < 32) && decide (f.lo ≤ i) && decide (i ≤ f.hi)) := by
  simp only [Fld.mask, BitVec.getLsbD_shiftLeft, BitVec.getLsbD_ofNat, Nat.testBit_two_pow_sub_one, Fld.width]
  by_cases h1 : i < 32 <;> by_cases h2 : f.lo ≤ i <;> by_cases h3 : i ≤ f.hi <;> simp [h1, h2, h3] <;> omega

theorem State.fset_reg (s : State) (f : Fld) (v k : Nat) :
    (s.fset f v).reg k = if k = f.key then (s.reg f.key &&& ~~~f.mask) ||| ((BitVec.ofNat 32 v <<< f.lo) &&& f.mask)
      else s.reg k := State.setReg_reg _ _ _ _

theorem State.fget_testBit (s : State) (g : Fld) (i : Nat) :
    (s.fget g).testBit i = (decide (i < g.width) && (s.reg g.key).getLsbD (g.lo + i)) := by
  simp only [State.fget, Nat.testBit_mod_two_pow, BitVec.testBit_toNat, BitVec.getLsbD_ushiftRight]

theorem State.fset_fget (s : State) (f : Fld) (v : Nat) (h : f.ok = true) : (s.fset f v).fget f = v % 2 ^ f.width := by
  refine Nat.eq_of_testBit_eq fun i => ?_
  simp only [Fld.ok, Bool.and_eq_true, decide_eq_true_eq] at h
  rw [State.fget_testBit, State.fset_reg, if_pos rfl, Nat.testBit_mod_two_pow]
  by_cases hi : i < f.width
  · have h1 : f.lo + i < 32 := by unfold Fld.width at hi; omega
    have h2 : f.lo + i ≤ f.hi := by unfold Fld.width at hi; omega
    simp only [hi, Fld.mask_getLsbD, h1, h2, BitVec.getLsbD_or, BitVec.getLsbD_and, BitVec.getLsbD_not,
      BitVec.getLsbD_shiftLeft, BitVec.getLsbD_ofNat]
    have h3 : ¬ f.lo + i < f.lo := by omega
    have h4 : f.lo + i - f.lo = i := by omega
    have h5 : i < 32 := by omega
    simp [h3, h4, h5]
  · simp [hi]

theorem State.fset_fget_apart (s : State) (f g : Fld) (v : Nat) (h : f.apart g = true) :
    (s.fset f v).fget g = s.fget g := by
  refine Nat.eq_of_testBit_eq fun i => ?_
  simp only [Fld.apart, Bool.or_eq_true, bne_iff_ne, ne_eq, decide_eq_true_eq] at h
  rw [State.fget_testBit, State.fget_testBit, State.fset_reg]
  split
  next hk =>
    by_cases hi : i < g.width
    · have hm : f.mask.getLsbD (g.lo + i) = false := by
        rw [Fld.mask_getLsbD]
        unfold Fld.width at hi
        rcases h with (h | h) | h
        · simp; omega
        · simp; omega
        · exact absurd hk.symm h
      by_cases h32 : g.lo + i < 32
      · simp only [BitVec.getLsbD_or, BitVec.getLsbD_and, BitVec.getLsbD_not, hm, hk, h32]
        simp
      · rw [BitVec.getLsbD_of_ge _ _ (by omega), BitVec.getLsbD_of_ge _ _ (by omega)]
    · simp [hi]
  next => rfl
theorem State.fset_reg_ne (s : State) (f : Fld) (v k : Nat) (h : k ≠ f.key) : (s.fset f v).reg k = s.reg k := by
  rw [State.fset_reg, if_neg h]

theorem State.setReg_fget_ne (s : State) (k : Nat) (v : BitVec 32) (f : Fld) (h : f.key ≠ k) :
    (s.setReg k v).fget f = s.fget f := by simp only [State.fget, State.setReg_reg, if_neg h]

theorem State.setFlag_flag (s : State) (f : Fld) (b : Bool) (h : f.ok = true) : (s.setFlag f b).flag f = b := by
  have hw : 1 < 2 ^ f.width := Nat.one_lt_two_pow (by
    simp only [Fld.ok, Bool.and_eq_true, decide_eq_true_eq] at h; unfold Fld.width; omega)
  simp only [State.flag, State.setFlag, State.fset_fget _ _ _ h]
  cases b
  · simp
  · simp [Nat.mod_eq_of_lt hw]

theorem State.fget_lt (s : State) (f : Fld) : s.fget f < 2 ^ f.width := Nat.mod_lt _ (by positivity)

theorem State.fsat_fget (s : State) (f : Fld) (n : Nat) (h : f.ok = true) :
    (s.fsat f n).fget f = min (2 ^ f.width - 1) (s.fget f + n) := by
  rw [State.fsat, State.fset_fget _ _ _ h, Nat.mod_eq_of_lt]
  have : 0 < 2 ^ f.width := by positivity
  omega

theorem State.fwrap_fget (s : State) (f : Fld) (n : Nat) (h : f.ok = true) :
    (s.fwrap f n).fget f = (s.fget f + n) % 2 ^ f.width := by
  rw [State.fwrap, State.fset_fget _ _ _ h, Nat.mod_mod]

theorem State.fsat_fget_apart (s : State) (f g : Fld) (n : Nat) (h : f.apart g = true) :
    (s.fsat f n).fget g = s.fget g := State.fset_fget_apart _ _ _ _ h

theorem State.fwrap_fget_apart (s : State) (f g : Fld) (n : Nat) (h : f.apart g = true) :
    (s.fwrap f n).fget g = s.fget g := State.fset_fget_apart _ _ _ _ h

theorem State.setFlag_fget_apart (s : State) (f g : Fld) (b : Bool) (h : f.apart g = true) :
    (s.setFlag f b).fget g = s.fget g := State.fset_fget_apart _ _ _ _ h

theorem State.fset_flag_apart (s : State) (f g : Fld) (v : Nat) (h : f.apart g = true) :
    (s.fset f v).flag g = s.flag g := by simp only [State.flag, State.fset_fget_apart _ _ _ _ h]

theorem State.setFlag_flag_apart (s : State) (f g : Fld) (b : Bool) (h : f.apart g = true) :
    (s.setFlag f b).flag g = s.flag g := State.fset_flag_apart _ _ _ _ h

end Sys2Proof.Machine
end

section
/-! SUPPORT. The step, and the whole block. -/
namespace Sys2Proof.Machine

/-- Settles O1: the step matches on the queue. -/
theorem stepRunsFrontCommand : Obligations.StepRunsFrontCommand := fun _ _ _ => rfl

/-! ## A nanosecond on an empty queue -/

theorem State.loadArm_of_le {s : State} (h : s.now.toNat ≤ (s.reg64 Reg.CLV_TB_ARM_LO Reg.CLV_TB_ARM_HI).toNat) :
    s.loadArm = ({ (s.setFlag F.CLV_TB_CFG_ARM false) with
      time := { s.time with load := none, tb := s.reg64 Reg.CLV_TB_ARM_LO Reg.CLV_TB_ARM_HI } } : State).setFlag
        F.CLV_TB_STATUS_ALIGNED true := by
  unfold State.loadArm
  exact if_neg (by simpa [State.now] using h)

theorem State.loadArm_of_lt {s : State} (h : (s.reg64 Reg.CLV_TB_ARM_LO Reg.CLV_TB_ARM_HI).toNat < s.now.toNat) :
    s.loadArm = ({ (s.setFlag F.CLV_TB_CFG_ARM false) with time := { s.time with load := none } } : State).setFlag
        F.CLV_TB_STATUS_ARM_ERR true := by
  unfold State.loadArm
  exact if_pos (by simpa [State.now] using h)

/-- Loading the armed value, or refusing it, ends the delay and the arming, and changes only the timebase and registers. -/
theorem State.loadArm_frame (s : State) : s.loadArm.time.load = none ∧ s.loadArm.flag F.CLV_TB_CFG_ARM = false ∧
    ∀ t r, { s.loadArm with time := t, regs := r } = { s with time := t, regs := r } := by
  rcases Nat.lt_or_ge (s.reg64 Reg.CLV_TB_ARM_LO Reg.CLV_TB_ARM_HI).toNat s.now.toNat with h | h
  · rw [State.loadArm_of_lt h]
    exact ⟨rfl, (State.setFlag_flag_apart _ _ _ _ (by decide)).trans (State.setFlag_flag s _ _ (by decide)), fun _ _ => rfl⟩
  · rw [State.loadArm_of_le h]
    exact ⟨rfl, (State.setFlag_flag_apart _ _ _ _ (by decide)).trans (State.setFlag_flag s _ _ (by decide)), fun _ _ => rfl⟩

theorem Time.tick_load (t : Time) : t.tick.load = t.load := by
  unfold Time.tick; split <;> rfl

/-- Settles O2: a nanosecond passes by the timebase's own step, with or without a SYNC delay running down. -/
theorem emptyQueueTicks : Obligations.EmptyQueueTicks := by
  intro s hp
  refine ⟨tick s, by simp only [step, hp], fun hn => ?_, fun n hn h1 => ?_, fun n hn h1 => ?_⟩
  · have ht : tick s = { s with time := s.time.tick } := by simp only [tick, Time.tick_load, hn]
    rw [ht]
    exact ⟨rfl, rfl⟩
  · have ht : tick s = { s with time := { s.time.tick with load := some (n - 1) } } := by
      simp only [tick, Time.tick_load, hn, if_neg (Nat.not_le.mpr h1)]
    rw [ht]
    exact ⟨rfl, rfl⟩
  · have ht : tick s = ({ s with time := s.time.tick } : State).loadArm := by
      simp only [tick, Time.tick_load, hn, if_pos h1]
    obtain ⟨hload, harm, hframe⟩ := State.loadArm_frame { s with time := s.time.tick }
    rw [ht]
    refine ⟨hload, harm, fun hle => ?_, fun hlt => ?_, hframe s.time s.regs⟩
    · rw [State.loadArm_of_le (s := { s with time := s.time.tick }) hle]
      exact ⟨rfl, State.setFlag_flag _ _ _ (by decide)⟩
    · rw [State.loadArm_of_lt (s := { s with time := s.time.tick }) hlt]
      exact ⟨rfl, State.setFlag_flag _ _ _ (by decide)⟩

/-! ## Every command -/

theorem execUpdateNormReady_next (s : State) : ∃ t, execUpdateNormReady s = .next t := by
  unfold execUpdateNormReady
  dsimp only
  (repeat' split) <;> exact ⟨_, rfl⟩

theorem execChunkDispatch_next (k : ChunkId) (s : State) : ∃ t, execChunkDispatch k s = .next t := by
  unfold execChunkDispatch
  split
  · exact ⟨_, rfl⟩
  · extract_lets n
    (repeat' split) <;> exact ⟨_, rfl⟩

theorem execChunkRelease_next (k : ChunkId) (s : State) : ∃ t, execChunkRelease k s = .next t := by
  unfold execChunkRelease
  split
  · exact ⟨_, rfl⟩
  · split
    · exact ⟨_, rfl⟩
    · extract_lets u s1
      split <;> exact ⟨_, rfl⟩

theorem execChunkOwnCopy_next (k : ChunkId) (s : State) : ∃ t, execChunkOwnCopy k s = .next t := by
  unfold execChunkOwnCopy
  split <;> exact ⟨_, rfl⟩

theorem execRifflerReturn_next (n : Fin 4) (s : State) : ∃ t, execRifflerReturn n s = .next t := by
  unfold execRifflerReturn
  (repeat' split) <;> exact ⟨_, rfl⟩

/-- The test access port's accesses complete, but for internal scan through the open port. -/
theorem execTestAccessPortAccess_next (o : TapOp) (s : State) (h : o = .scan → s.tapOpen = false) :
    ∃ t, execTestAccessPortAccess o s = .next t := by
  unfold execTestAccessPortAccess
  split
  · exact ⟨_, rfl⟩
  next hopen =>
    cases o
    case scan => exact absurd (h rfl) hopen
    all_goals exact ⟨_, rfl⟩

/-- Settles O58: each command's definition ends in a next state, but for the test access port's internal scan. -/
theorem everyCommandCompletes : Obligations.EveryCommandCompletes := by
  intro c s h
  cases c
  case testAccessPortAccess o =>
    by_contra hc
    refine h (execTestAccessPortAccess_next o s fun ho => ?_)
    subst ho
    by_contra hopen
    exact hc ⟨rfl, by simpa [State.tapOpen] using hopen⟩
  all_goals refine absurd ?_ h
  case updateNormReady => exact execUpdateNormReady_next s
  case chunkDispatch k => exact execChunkDispatch_next k s
  case chunkRelease k => exact execChunkRelease_next k s
  case chunkOwnCopy k => exact execChunkOwnCopy_next k s
  case rifflerReturn n => exact execRifflerReturn_next n s
  all_goals exact ⟨_, rfl⟩

/-- Settles O60: the reset state's fields. -/
theorem resetLeaves : Obligations.ResetLeaves :=
  ⟨rfl, rfl, State.reset_memWf, by decide, by decide, by decide, by decide, by decide, by decide, by decide, by decide, by decide⟩

end Sys2Proof.Machine
end

section
/-! SUPPORT. What filing a fault's record, and a read of memory, leave as it was. -/
namespace Sys2Proof.Machine

/-- Everything but what filing faults and counting accesses writes: registers, records and their history, interrupts,
requests to retire, pending write-backs and the cache. -/
def State.butRecords (s : State) : State :=
  { s with
    regs := [], cache := [], wback := [], ring := [], hist := [], ceHist := [], arithPend := [], retire := [], msix := 0
    mirror := [], free := 0 }

theorem State.butRecords_with {a_regs a_cache a_wback a_ring a_hist a_ceHist a_arithPend a_retire a_msix a_mirror
  a_free} {s : State} : State.butRecords ⟨s.pending, a_regs, s.mem, s.ecc, s.bursts, s.hbmEpoch, s.sramEpoch,
  s.sramClean, s.stg, s.stgEcc, a_cache, a_wback, s.engines, s.ctxs, s.tiles, s.sides, s.tileEcc, s.tags, s.accs,
  s.heads, s.xfers, s.batches, s.colls, s.nextId, s.semq, s.semBy, s.bars, s.cqs, s.wtasks, s.fence, s.drains,
  s.disabled, s.sct, s.sctEcc, s.sched, s.upd, s.updq, s.roots, s.owns, s.rifOut, s.ports, s.rtx, s.nextTag, s.nbr,
  s.grp, s.grpEcc, s.insts, s.issued, s.folds, s.time, s.idle, s.power, s.temps, s.excl, s.gone, a_ring, a_hist,
  a_ceHist, s.caps, s.crash, a_arithPend, s.lpTab, s.advRing, s.lpEcc, s.advEcc, s.loupes, s.shadows, a_retire,
  s.rots, s.pages, s.granSpare, s.granDead, s.modBad, s.modWait, s.cycles, s.resets, s.resetFail, s.chReset,
  s.clReset, s.dieReset, s.dumps, s.vhist, s.capsules, s.sec, a_msix, a_mirror, s.cpl, s.cplPoison, s.tapOut, s.bar4,
  s.armIrq, s.sent, s.noRoute, a_free⟩ = s.butRecords := by
  unfold State.butRecords; rfl

theorem State.butRecords_ite (c : Prop) [Decidable c] (s t : State) :
    (if c then s else t).butRecords = if c then s.butRecords else t.butRecords := by split <;> rfl

/-- Folding an operation that leaves all else as it was leaves it as it was. -/
theorem State.foldl_butRecords {α : Type} (f : State → α → State) (hf : ∀ s x, (f s x).butRecords = s.butRecords) (l
  : List α)
    (s : State) : (l.foldl f s).butRecords = s.butRecords := by
  induction l generalizing s with
  | nil => rfl
  | cons x l ih => rw [List.foldl_cons, ih, hf]

theorem State.setReg_butRecords (s : State) (k : Nat) (v : BitVec 32) : (s.setReg k v).butRecords = s.butRecords := by
  unfold State.setReg; rfl
theorem State.fset_butRecords (s : State) (f : Fld) (v : Nat) : (s.fset f v).butRecords = s.butRecords := by
  unfold State.fset; rfl
theorem State.fsat_butRecords (s : State) (f : Fld) (n : Nat) : (s.fsat f n).butRecords = s.butRecords := by
  unfold State.fsat; rfl
theorem State.fwrap_butRecords (s : State) (f : Fld) (n : Nat) : (s.fwrap f n).butRecords = s.butRecords := by
  unfold State.fwrap; rfl
theorem State.setFlag_butRecords (s : State) (f : Fld) (b : Bool) : (s.setFlag f b).butRecords = s.butRecords := by
  unfold State.setFlag; rfl
theorem State.irq_butRecords (s : State) (v : Nat) : (s.irq v).butRecords = s.butRecords := by
  unfold State.irq; rfl
theorem State.draw_butRecords (s : State) : s.draw.2.butRecords = s.butRecords := by
  unfold State.draw; rfl
@[simp] theorem State.faultN_butRecords (s : State) (c : Nat) : (s.faultN c).butRecords = s.butRecords := by
  simp only [State.faultN, ↓State.butRecords_ite, ite_self, State.fset_butRecords, State.fsat_butRecords]
@[simp] theorem State.file_butRecords (s : State) (r : FRec) : (s.file r).butRecords = s.butRecords := by
  simp only [State.file, ↓State.butRecords_with, ↓State.butRecords_ite, ite_self, State.fsat_butRecords,
    State.setReg_butRecords,
    State.fwrap_butRecords, State.irq_butRecords]
@[simp] theorem State.putHist_butRecords (s : State) (h : Hist) : (s.putHist h).butRecords = s.butRecords := by
  unfold State.putHist
  dsimp only
  (repeat' split) <;> simp only [↓State.butRecords_with, State.setFlag_butRecords]
@[simp] theorem State.fileNow_butRecords (s : State) (r : FRec) : (s.fileNow r).butRecords = s.butRecords := by
  simp only [State.fileNow, State.file_butRecords, State.putHist_butRecords]
@[simp] theorem State.fileLimited_butRecords (s : State) (r : FRec) : (s.fileLimited r).butRecords = s.butRecords := by
  simp only [State.fileLimited, ↓State.butRecords_ite, ite_self, State.putHist_butRecords,
    State.fileNow_butRecords]
@[simp] theorem State.occur_butRecords (s : State) (r : FRec) : (s.occur r).butRecords = s.butRecords := by
  simp only [State.occur, State.putHist_butRecords]
@[simp] theorem State.judgePermanent_butRecords (s : State) (r : FRec) (b : Bool) : (s.judgePermanent r b).butRecords
  = s.butRecords := by
  simp only [State.judgePermanent, ↓State.butRecords_with, ↓State.butRecords_ite, ite_self, State.fsat_butRecords,
    State.faultN_butRecords, State.irq_butRecords]
@[simp] theorem State.filePermanent_butRecords (s : State) (r : FRec) (b : Bool) : (s.filePermanent r b).butRecords =
  s.butRecords := by
  simp only [State.filePermanent, State.judgePermanent_butRecords,
    State.fileLimited_butRecords]
@[simp] theorem State.classify_butRecords (s : State) (r : FRec) : (s.classify r).butRecords = s.butRecords := by
  simp only [State.classify, ↓State.butRecords_ite, ite_self, State.occur_butRecords,
    State.filePermanent_butRecords, State.fsat_butRecords, State.fileLimited_butRecords]
@[simp] theorem State.corrected_butRecords (s : State) (w : Nat) (r : FRec) : (s.corrected w r).butRecords =
  s.butRecords := by
  simp only [State.corrected, ↓State.butRecords_with, ↓State.butRecords_ite, ite_self, State.occur_butRecords,
    State.filePermanent_butRecords]
@[simp] theorem State.eventR_butRecords (s : State) (r : FRec) : (s.eventR r).butRecords = s.butRecords := by
  simp only [State.eventR, State.occur_butRecords,
    State.fileLimited_butRecords]
@[simp] theorem State.event_butRecords (s : State) (c : Nat) (u g : BitVec 32) (x y : BitVec 64) :
    (s.event c u g x y).butRecords = s.butRecords := by
  simp only [State.event, State.eventR_butRecords]
@[simp] theorem State.permanent_butRecords (s : State) (c : Nat) (u g : BitVec 32) : (s.permanent c u g).butRecords =
  s.butRecords := by
  simp only [State.permanent, State.occur_butRecords,
    State.filePermanent_butRecords]
@[simp] theorem State.addrErr_butRecords (s : State) (k : Nat) (wr : Bool) (src : Src) (a : BitVec 64) :
    (s.addrErr k wr src a).butRecords = s.butRecords := by
  simp only [State.addrErr, ↓State.butRecords_ite, ite_self, State.fsat_butRecords, State.setFlag_butRecords,
    State.fset_butRecords, State.setReg_butRecords, State.eventR_butRecords]
@[simp] theorem State.holeHit_butRecords (s : State) (l : Loc) (a : Nat) : (s.holeHit l a).butRecords = s.butRecords
  := by
  unfold State.holeHit
  dsimp only
  (repeat' split) <;> simp only [State.fsat_butRecords,
    State.setFlag_butRecords, State.fset_butRecords]
@[simp] theorem State.onRead_butRecords (s : State) (head : Bool) (src : Src) (l : Loc) (a : Nat) :
    (s.onRead head src l a).butRecords = s.butRecords := by
  unfold State.onRead
  dsimp only
  (repeat' split) <;> simp only [↓State.butRecords_with, State.fsat_butRecords,
    State.classify_butRecords, State.corrected_butRecords]
@[simp] theorem State.allocate_butRecords (s : State) (d g sec : Nat) (wr : Bool) : (s.allocate d g sec
  wr).butRecords = s.butRecords := by
  unfold State.allocate
  dsimp only
  (repeat' split) <;> simp only [↓State.butRecords_with]
@[simp] theorem State.cacheTouch_butRecords (s : State) (a : Nat) (wr : Bool) : (s.cacheTouch a wr).butRecords =
  s.butRecords := by
  unfold State.cacheTouch
  dsimp only
  (repeat' split) <;> simp only [↓State.butRecords_with, State.fwrap_butRecords,
    State.allocate_butRecords]
@[simp] theorem State.readAhead_butRecords (s : State) (a : Nat) : (s.readAhead a).butRecords = s.butRecords := by
  unfold State.readAhead
  dsimp only
  (repeat' split) <;> simp only [↓State.butRecords_with, State.allocate_butRecords]
@[simp] theorem State.readAt_butRecords (s : State) (h l : Bool) (src : Src) (pkg : BitVec 16) (a : Nat) :
    (s.readAt h l src pkg a).2.butRecords = s.butRecords := by
  unfold State.readAt
  dsimp only
  (repeat' split) <;> simp only [State.addrErr_butRecords,
    State.holeHit_butRecords, State.onRead_butRecords, State.cacheTouch_butRecords]
@[simp] theorem State.readW_butRecords (s : State) (src : Src) (pkg : BitVec 16) (a : Nat) :
    (s.readW src pkg a).2.butRecords = s.butRecords := by
  simp only [State.readW, State.readAt_butRecords]
theorem State.readGo_butRecords (n : Nat) (s : State) (h : Bool) (src : Src) (pkg : BitVec 16) (a : Nat) :
    (s.readGo h src pkg a n).2.butRecords = s.butRecords := by
  induction n generalizing s h a with
  | zero => rfl
  | succ n ih => simp only [State.readGo, ih, State.readAt_butRecords]
@[simp] theorem State.readN_butRecords (s : State) (src : Src) (pkg : BitVec 16) (a n : Nat) :
    (s.readN src pkg a n).2.butRecords = s.butRecords := s.readGo_butRecords n true src pkg a
@[simp] theorem State.read64_butRecords (s : State) (src : Src) (pkg : BitVec 16) (a : Nat) :
    (s.read64 src pkg a).2.butRecords = s.butRecords := by
  simp only [State.read64, State.readN_butRecords]
@[simp] theorem State.noteWord_butRecords (s : State) (w : Nat) (y : BitVec 7) (r : FRec) : (s.noteWord w y
  r).butRecords =
  s.butRecords
  := by
  unfold State.noteWord
  (repeat' split) <;> simp only [State.corrected_butRecords, State.classify_butRecords]
@[simp] theorem State.settleFault_butRecords (s : State) (r : FRec) (perm repro : Bool) : (s.settleFault r perm
  repro).butRecords =
  s.butRecords := by
  simp only [State.settleFault, ↓State.butRecords_ite, ite_self, State.judgePermanent_butRecords,
    State.fileNow_butRecords,
    State.fsat_butRecords]
@[simp] theorem State.settleWork_butRecords (s : State) (p : ArithUnit → BitVec 32 → Bool) : (s.settleWork
  p).butRecords =
  s.butRecords
  := by
  simp only [State.settleWork, ↓State.butRecords_with, State.foldl_butRecords, implies_true, State.foldl_butRecords,
    State.settleFault_butRecords]
@[simp] theorem State.settleChunk_butRecords (s : State) (k : ChunkId) : (s.settleChunk k).butRecords = s.butRecords
  := by
  simp only [State.settleChunk, State.settleWork_butRecords]
@[simp] theorem State.settleVector_butRecords (s : State) (unit : BitVec 32) : (s.settleVector unit).butRecords =
  s.butRecords := by
  simp only [State.settleVector, State.settleWork_butRecords]
@[simp] theorem State.settleColl_butRecords (s : State) (g i : Nat) : (s.settleColl g i).butRecords = s.butRecords := by
  simp only [State.settleColl, State.settleWork_butRecords]
@[simp] theorem State.unitFault_butRecords (s : State) (k : ArithUnit) (r : FRec) : (s.unitFault k r).2.butRecords =
  s.butRecords
  := by
  simp only [State.unitFault, ↓State.butRecords_with, ↓State.butRecords_ite, ite_self, State.settleWork_butRecords,
    State.occur_butRecords, State.settleFault_butRecords, State.filePermanent_butRecords, State.fileLimited_butRecords]
@[simp] theorem State.progRead_butRecords (s : State) (src : Src) (pkg : BitVec 16) (head : Bool) (a : Nat) :
  (s.progRead
  src pkg
  head a).butRecords = s.butRecords := by
  unfold State.progRead
  (repeat' split) <;> simp only [State.addrErr_butRecords, State.holeHit_butRecords, State.onRead_butRecords]
@[simp] theorem State.progFetch_butRecords (s : State) (e k : Nat) (w : BitVec 64) : (s.progFetch e k w).butRecords =
  s.butRecords := by
  simp only [State.progFetch, State.foldl_butRecords, implies_true, State.foldl_butRecords, State.progRead_butRecords]
end Sys2Proof.Machine
end

section
/-! SUPPORT. What an instruction leaves as it was when it issues, and the statements about issue. -/
namespace Sys2Proof.Machine

/-! ## The frame of issue -/

/-- Where everything but contexts, engines and the work number stays, every byte of memory stays. -/
theorem State.byte_of_butIssue {s t : State} (h : t.butIssue = s.butIssue) (a : Nat) : t.byte a = s.byte a :=
  State.byte_of_memKey (congrArg State.memKey h :) a

/-- The frame of issue holds of its three parts; memory follows from the first. -/
theorem State.issueFrame_of {s t : State} {c : Cx} (hb : t.butIssue = s.butIssue)
    (hc : ∀ k, k ≠ c.key → t.ctx k = s.ctx k) (he : ∀ e, e ≠ c.pos.key → t.eng e = s.eng e) : s.issueFrame t c :=
  ⟨hb, hc, he, State.byte_of_butIssue hb⟩

theorem State.atEngine_issueFrame (s : State) (c : Cx) : s.issueFrame (s.atEngine c.pos.key) c :=
  State.issueFrame_of (congrArg (fun t => { t with ctxs := [], nextId := 0 }) (s.atEngine_frame c.pos.key))
    (fun k _ => s.atEngine_ctx _ k) (fun e he => s.atEngine_eng_other _ e he)

theorem State.settle_issueFrame (s : State) (c : Cx) : s.issueFrame (s.settle c.pos.key) c :=
  State.issueFrame_of (congrArg (fun t => { t with ctxs := [], nextId := 0 }) (s.settle_frame c.pos.key))
    (fun k _ => s.settle_ctx _ k) (fun e he => by obtain ⟨p, hp⟩ := s.settle_eng c.pos.key e; rw [hp, if_neg he])

theorem State.issueFrame.setCtx {s u : State} {c : Cx} (h : s.issueFrame u c) (x : Ctx) :
    s.issueFrame (u.setCtx c.key x) c := by
  obtain ⟨hb, hc, he, -⟩ := h
  exact State.issueFrame_of hb (fun k hk => by rw [State.setCtx_ctx, if_neg hk, hc k hk]) he

theorem State.issueFrame.modEng {s u : State} {c : Cx} (h : s.issueFrame u c) (f : Engine → Engine) :
    s.issueFrame (u.modEng c.pos.key f) c := by
  obtain ⟨hb, hc, he, -⟩ := h
  exact State.issueFrame_of hb hc (fun e hk => by rw [State.modEng_eng, if_neg hk, he e hk])

theorem State.issueFrame.withNextId {s u : State} {c : Cx} (h : s.issueFrame u c) (n : Nat) :
    s.issueFrame { u with nextId := n } c := by
  obtain ⟨hb, hc, he, -⟩ := h
  exact State.issueFrame_of hb hc he

theorem State.issueFrame.withLoupes {s u : State} {c : Cx} (h : s.issueFrame u c) :
    s.issueFrame { u with loupes := s.loupes } c := by
  obtain ⟨hb, hc, he, -⟩ := h
  exact State.issueFrame_of (congrArg (fun t : State => { t with loupes := s.loupes }) hb :) hc he

theorem State.atEngine_nextTurn (s : State) (e k : Nat) : (s.atEngine e).nextTurn k = s.nextTurn k := by
  simp only [State.nextTurn, State.atEngine_ctx]

/-- An engine that an instruction issues at holds the instructions it held. -/
theorem State.atEngine_ents (s : State) (e : Nat) : ((s.atEngine e).eng e).ents = (s.eng e).ents := by
  obtain ⟨b, n, p, h⟩ := s.atEngine_eng e
  rw [h]; rfl

theorem State.settle_ents (s : State) (e : Nat) : ((s.settle e).eng e).ents = (s.eng e).ents := by
  obtain ⟨p, h⟩ := s.settle_eng e e
  rw [h, if_pos rfl]; rfl

theorem State.atEngine_scalarBusy (s : State) (e k r : Nat) :
    ((s.atEngine e).eng e).scalarBusy k r = (s.eng e).scalarBusy k r := by
  simp only [Engine.scalarBusy, State.atEngine_ents]

theorem State.atEngine_scalarHeld {s : State} {e k : Nat} (h : ∀ r, (s.eng e).scalarBusy k r = false) (rs : List Nat) :
    (s.atEngine e).scalarHeld e k rs = false := by
  simp only [State.scalarHeld, State.atEngine_scalarBusy, h, List.any_eq_false]
  simp

/-! ## A context's scalar registers -/

theorem Ctx.setS_s (x : Ctx) (r : Nat) (v : BitVec 32) (k : Nat) : (x.setS r v).s k = if k = r then v else x.s k :=
  Sparse.get_set _ _ _ _ _
@[simp] theorem Ctx.setS_s_self (x : Ctx) (r : Nat) (v : BitVec 32) : (x.setS r v).s r = v := Sparse.get_set_self _ _
  _ _
theorem Ctx.setS_s_ne (x : Ctx) {r k : Nat} (v : BitVec 32) (h : k ≠ r) : (x.setS r v).s k = x.s k := by
  rw [Ctx.setS_s, if_neg h]

/-! ## Scalar and control instructions -/

/-- What a scalar arithmetic instruction that may issue does, whichever its operation. -/
theorem State.scalarOp_issues {s : State} {c : Cx} {w : BitVec 64} (f : BitVec 32 → BitVec 32 → BitVec 32)
    (h : s.issues c w (legalScalar w)) (hb : ∀ k, (s.eng c.pos.key).scalarBusy c.ctx.val k = false) :
    s.scalarOp c w f = (s.atEngine c.pos.key).setCtx c.key
      (((s.ctx c.key).past w (s.nextTurn c.pos.key)).setS (scRD w) (f (opX (s.ctx c.key) w) (opY (s.ctx c.key) w)))
        := by
  unfold State.scalarOp
  dsimp only
  rw [State.atIssue_of_issues _ _ _ _ _ h, State.atEngine_scalarHeld hb, State.atEngine_nextTurn]
  rfl

theorem wordsOf_eq_one {w : BitVec 64} (h : extBit w = false) : wordsOf w = 1 := if_neg (by simp [h])

theorem extBit_of_legalScalar {w : BitVec 64} (h : legalScalar w = true) : extBit w = false := by
  simp only [legalScalar, Bool.and_eq_true, Bool.not_eq_true'] at h
  exact h.1.1

/-- A scalar arithmetic instruction's effect and frame, whichever its operation. -/
theorem State.scalarOp_effect {s : State} {c : Cx} {w : BitVec 64} (f : BitVec 32 → BitVec 32 → BitVec 32)
    (h : s.issues c w (legalScalar w)) (hb : ∀ k, (s.eng c.pos.key).scalarBusy c.ctx.val k = false) :
    ((s.scalarOp c w f).ctx c.key).s (scRD w) = f (opX (s.ctx c.key) w) (opY (s.ctx c.key) w) ∧
      (∀ k, k ≠ scRD w → ((s.scalarOp c w f).ctx c.key).s k = (s.ctx c.key).s k) ∧
      ((s.scalarOp c w f).ctx c.key).pc = (s.ctx c.key).pc + 1 ∧ ((s.scalarOp c w f).ctx c.key).st = .run ∧
      s.issueFrame (s.scalarOp c w f) c := by
  have h1 : wordsOf w = 1 := wordsOf_eq_one (extBit_of_legalScalar h.2.2.1)
  rw [State.scalarOp_issues f h hb]
  refine ⟨?_, fun k hk => ?_, ?_, ?_, (s.atEngine_issueFrame c).setCtx _⟩ <;> rw [State.setCtx_ctx_self]
  · rw [Ctx.setS_s_self]
  · rw [Ctx.setS_s_ne _ _ hk]; rfl
  · exact congrArg _ h1
  · rfl

/-- Settles O12: every operation goes through the one rule of scalar arithmetic. -/
theorem scalarArithmetic : Obligations.ScalarArithmetic := by
  intro c w s r hr hi hb
  have key : exec r.1 s = .next (s.scalarOp c (r.2.1 ++ w) r.2.2) := by
    simp only [List.mem_cons, List.not_mem_nil, or_false] at hr
    rcases hr with rfl | rfl | rfl | rfl | rfl | rfl | rfl | rfl | rfl <;> rfl
  exact ⟨_, key, State.scalarOp_effect _ hi hb⟩

/-! ## Branches and END -/

theorem sub_one_ne_zero_iff (v : BitVec 32) : v - 1 ≠ 0 ↔ v ≠ 1 := by
  constructor <;> intro h <;> contrapose! h <;> bv_omega

theorem State.execBr_issues {s : State} {c : Cx} {w : BitVec 56} (h : s.issues c (0x90#8 ++ w) (legalBR (0x90#8 ++ w)))
    (hb : ∀ k, (s.eng c.pos.key).scalarBusy c.ctx.val k = false) :
    exec (.br c w) s = .next ((s.atEngine c.pos.key).setCtx c.key
      (let y := (s.ctx c.key).past (0x90#8 ++ w) (s.nextTurn c.pos.key)
       if brTaken (s.ctx c.key) (0x90#8 ++ w) then { y with pc := branchTo (s.ctx c.key).pc (0x90#8 ++ w) } else y))
         := by
  refine congrArg Host.Outcome.next ((State.atIssue_of_issues _ _ _ _ _ h).trans ?_)
  dsimp only
  rw [if_neg (fun hh => by rw [State.atEngine_scalarHeld hb] at hh; exact absurd hh.2 (by simp)),
    State.atEngine_nextTurn]
  rfl

theorem State.execLoop_issues {s : State} {c : Cx} {w : BitVec 56}
    (h : s.issues c (0x91#8 ++ w) (legalLOOP (0x91#8 ++ w)))
    (hb : ∀ k, (s.eng c.pos.key).scalarBusy c.ctx.val k = false) :
    exec (.loop c w) s = .next ((s.atEngine c.pos.key).setCtx c.key
      (let v := (s.ctx c.key).s (brRA (0x91#8 ++ w)) - 1
       let y := ((s.ctx c.key).past (0x91#8 ++ w) (s.nextTurn c.pos.key)).setS (brRA (0x91#8 ++ w)) v
       if v ≠ 0 then { y with pc := branchTo (s.ctx c.key).pc (0x91#8 ++ w) } else y)) := by
  refine congrArg Host.Outcome.next ((State.atIssue_of_issues _ _ _ _ _ h).trans ?_)
  dsimp only
  rw [State.atEngine_scalarHeld hb, State.atEngine_nextTurn]
  rfl

theorem State.execEndTask_issues {s : State} {c : Cx} {w : BitVec 56}
    (h : s.issues c (0x92#8 ++ w) (legalEND (0x92#8 ++ w))) :
    exec (.endTask c w) s = .next ((s.atEngine c.pos.key).setCtx c.key
      { (s.ctx c.key).past (0x92#8 ++ w) (s.nextTurn c.pos.key) with st := .drain }) := by
  refine congrArg Host.Outcome.next ((State.atIssue_of_issues _ _ _ _ _ h).trans ?_)
  dsimp only
  rw [State.atEngine_nextTurn]
  rfl

/-- Settles O13: BR, LOOP and END each write their own context alone. -/
theorem controlFlow : Obligations.ControlFlow := by
  intro c w s hb
  refine ⟨fun h => ⟨_, State.execBr_issues h hb, ?_⟩, fun h => ⟨_, State.execLoop_issues h hb, ?_⟩,
    fun h => ⟨_, State.execEndTask_issues h, ?_⟩⟩
  · have h1 : wordsOf (0x90#8 ++ w) = 1 := wordsOf_eq_one (by have := h.2.2.1; simp_all [legalBR])
    refine ⟨?_, ?_, fun k => ?_, (s.atEngine_issueFrame c).setCtx _⟩ <;> rw [State.setCtx_ctx_self] <;> dsimp only <;>
      split
    · rfl
    · exact congrArg _ h1
    all_goals rfl
  · have h1 : wordsOf (0x91#8 ++ w) = 1 := wordsOf_eq_one (by have := h.2.2.1; simp_all [legalLOOP])
    refine ⟨?_, fun k hk => ?_, ?_, ?_, (s.atEngine_issueFrame c).setCtx _⟩ <;> rw [State.setCtx_ctx_self] <;>
      dsimp only
    · split <;> exact Ctx.setS_s_self _ _ _
    · split <;> exact Ctx.setS_s_ne _ _ hk
    · by_cases hv : (s.ctx c.key).s (brRA (0x91#8 ++ w)) = 1
      · rw [if_pos hv, if_neg (by simp [hv])]; exact congrArg _ h1
      · rw [if_neg hv, if_pos ((sub_one_ne_zero_iff _).2 hv)]; rfl
    · split <;> rfl
  · refine ⟨?_, fun k => ?_, (s.atEngine_issueFrame c).setCtx _⟩ <;> rw [State.setCtx_ctx_self]
    rfl

/-! ## Tile instructions -/

/-- Every instruction of tile form issues by the one rule of tile instructions. -/
theorem exec_of_tileForm {i : Instr} {c : Cx} {w x : BitVec 64} (h : i.tileForm = some (c, w, x)) (s : State) :
    exec i s = .next (s.issueTile c w x) := by
  unfold Instr.tileForm at h
  split at h <;> cases h <;> rfl

theorem State.atEngine_gateMiss (s : State) (e : Nat) (ts : List Nat) : (s.atEngine e).gateMiss e ts = s.gateMiss e
  ts := by
  have h : (s.atEngine e).full e = s.full e := congrFun (congrArg State.full (s.atEngine_frame e)) e
  simp only [State.gateMiss, Engine.writes, State.atEngine_ents, h]

theorem State.atEngine_room (s : State) (e : Nat) (w : BitVec 64) :
    ((s.atEngine e).eng e).room w = (s.eng e).room w := by
  obtain ⟨b, n, p, h⟩ := s.atEngine_eng e
  rw [h]; rfl

/-- The entry an instruction of context `c` enters its queues with. -/
def State.entOf (s : State) (c : Cx) (w x : BitVec 64) : QEnt :=
  { id := s.nextId, ctx := c.ctx.val, w := w, x := extOf (s.ctx c.key) w x, pc := (s.ctx c.key).pc,
    step := s.reg Reg.SCT_STEP }

/-- What a tile instruction that may issue does: the gate, then its queues' room. -/
theorem State.issueTile_issues {s : State} {c : Cx} {w x : BitVec 64} (h : s.issues c w (legalTile w x)) :
    s.issueTile c w x =
      let t := s.atEngine c.pos.key
      let y := s.ctx c.key
      let miss := s.gateMiss c.pos.key (firstTiles w)
      if miss ≠ [] then t.setCtx c.key { y with st := .late, miss := miss }
      else if !(s.eng c.pos.key).room w ||
          (isV2 (opc w) && vSRC2 w == 1 && (s.eng c.pos.key).scalarBusy c.ctx.val (vSS w)) then t
      else { ((t.modEng c.pos.key fun z => z.push (s.entOf c w x)).setCtx c.key (y.past w (s.nextTurn c.pos.key))) with
        nextId := s.nextId + 1 } := by
  have hid : (s.atEngine c.pos.key).nextId = s.nextId := (congrArg State.nextId (s.atEngine_frame c.pos.key) :)
  have hst : (s.atEngine c.pos.key).reg Reg.SCT_STEP = s.reg Reg.SCT_STEP :=
    (congrFun (congrArg State.reg (s.atEngine_frame c.pos.key)) Reg.SCT_STEP :)
  unfold State.issueTile
  dsimp only
  rw [State.atIssue_of_issues _ _ _ _ _ h, State.atEngine_gateMiss, State.atEngine_room, State.atEngine_scalarBusy,
    State.atEngine_nextTurn, hid, hst]
  rfl

/-- Settles O6: the gate passes and the queues have room, so the instruction enters them. -/
theorem tileInstructionIssues : Obligations.TileInstructionIssues := by
  intro i c w x s hf h hm hroom hbusy
  refine ⟨_, exec_of_tileForm hf s, ?_⟩
  have hheld : (!(s.eng c.pos.key).room w ||
      (isV2 (opc w) && vSRC2 w == 1 && (s.eng c.pos.key).scalarBusy c.ctx.val (vSS w))) = false := by
    cases h1 : isV2 (opc w) <;> by_cases h2 : vSRC2 w = 1 <;> simp_all
  rw [State.issueTile_issues h]
  dsimp only
  rw [if_neg (not_not.2 hm), hheld, if_neg Bool.false_ne_true]
  obtain ⟨b, n, p, he⟩ := s.atEngine_eng c.pos.key
  have hc : ∀ (u : State) y, ({ (u.setCtx c.key y) with nextId := s.nextId + 1 } : State).ctx c.key = y :=
    fun u y => u.setCtx_ctx_self c.key y
  have hq : ∀ (f : Engine → Engine) y, ({ (((s.atEngine c.pos.key).modEng c.pos.key f).setCtx c.key y) with
      nextId := s.nextId + 1 } : State).eng c.pos.key = f { s.eng c.pos.key with busyAt := b, steps := n, peerIdle :=
        p } :=
    fun f y => by rw [← he]; exact State.modEng_eng_self _ _ _
  refine ⟨hc _ _, ?_, ?_, ?_, rfl, (((s.atEngine_issueFrame c).modEng _).setCtx _).withNextId _⟩ <;> rw [hq] <;> rfl

/-! ## The gate -/

theorem State.mem_gateMiss (s : State) (e : Nat) (ts : List Nat) (t : Nat) : t ∈ s.gateMiss e ts ↔
    t ∈ ts ∧ s.full e t = false ∧ ∀ q ∈ (s.eng e).ents, t ∉ tilesWritten q.w := by
  simp [State.gateMiss, Engine.writes]

/-- What an instruction reads first is among what it reads before it has started. -/
theorem mem_tilesToRead_of_firstTiles {w : BitVec 64} {k : Nat} (h : k ∈ firstTiles w) : k ∈ tilesToRead w false 0 := by
  unfold tilesToRead
  split
  · next ho =>
    simp only [firstTiles, if_pos ho] at h
    rw [List.mem_eraseDups, List.mem_flatten]
    refine ⟨[tmRegA w 0, tmRegB w 0], List.mem_map.2 ⟨0, ?_, rfl⟩, h⟩
    simp
  · split <;> exact h

theorem Engine.mem_marked_of_ents {x : Engine} {p : QEnt} (h : p ∈ x.ents) : ∃ b, (p, b) ∈ x.marked := by
  simp only [Engine.ents, Engine.marked, List.mem_append, List.mem_map] at h ⊢
  grind

/-- An instruction behind the writer of a tile it reads first is held. -/
theorem Engine.holds_of_writer {x : Engine} {p q : QEnt} {k : Nat} (hp : p ∈ x.ents) (hid : p.id < q.id)
    (hw : k ∈ tilesWritten p.w) (hr : k ∈ firstTiles q.w) : x.holds q = true := by
  obtain ⟨b, hb⟩ := Engine.mem_marked_of_ents hp
  have hm : meets (tilesWritten p.w) (tilesToRead q.w false 0 ++ tilesWritten q.w) = true :=
    List.any_eq_true.2 ⟨k, hw, List.contains_iff_mem.2 (List.mem_append_left _ (mem_tilesToRead_of_firstTiles hr))⟩
  exact List.any_eq_true.2 ⟨(p, b), hb, by simp [hid, hm]⟩

theorem execContextResume_of_ready {c : Cx} {s : State} (h : (s.ctx c.key).st = .late)
    (hm : s.gateMiss c.pos.key (s.ctx c.key).miss = []) :
    exec (.contextResume c) s = .next ((s.settle c.pos.key).setCtx c.key (s.ctx c.key).resume) :=
  congrArg Host.Outcome.next (if_pos ⟨h, hm⟩)

/-- Settles O7: the gate's test, a failed gate, a LATE context's return, and the hold behind a writer. -/
theorem issueGate : Obligations.IssueGate := by
  refine ⟨State.mem_gateMiss, fun i c w x s hf h hm => ⟨_, exec_of_tileForm hf s, ?_⟩,
    fun c s hl hm => ⟨_, execContextResume_of_ready hl hm, ?_⟩, fun x p q k hp hid hw hr => Engine.holds_of_writer hp
      hid hw hr⟩
  · rw [State.issueTile_issues h]
    dsimp only
    rw [if_pos hm]
    exact ⟨State.setCtx_ctx_self _ _ _, s.atEngine_ents _, (congrArg State.nextId (s.atEngine_frame c.pos.key) :),
      (s.atEngine_issueFrame c).setCtx _⟩
  · dsimp only
    rw [State.setCtx_ctx_self]
    exact ⟨rfl, rfl, fun _ => rfl, (s.settle_issueFrame c).setCtx _⟩

/-! ## Completion's numeric status -/

theorem Ctx.stop_s (x : Ctx) (r : Nat) : x.stop.s r = x.s r := by unfold Ctx.stop; split <;> rfl
theorem Ctx.stop_code (x : Ctx) : x.stop.code = x.code := by unfold Ctx.stop; split <;> rfl
@[simp] theorem Ctx.stop_stopped (x : Ctx) : x.stop.stopped = true := by unfold Ctx.stop; split <;> rfl

/-- A context of which no instruction waits goes to DRAIN when its task stops. -/
theorem Ctx.stop_st {x : Ctx} (h : x.st ≠ .wait) : x.stop.st = .drain := by
  unfold Ctx.stop; rw [if_neg (fun hh => h hh.1)]

/-- The codes that stop a task (R122). -/
abbrev Code.stops (c : Code) : Prop := c = .numericFault ∨ c = .aborted

theorem Ctx.complete_code (x : Ctx) (c : Code) (m : Num4) (k i p : Nat) :
    (x.complete c m k i p).code = x.code.max c := by
  unfold Ctx.complete; dsimp only; split
  · rw [Ctx.stop_code]; rfl
  · rfl

theorem Ctx.complete_s31 (x : Ctx) (c : Code) (m : Num4) (k i p : Nat) :
    (x.complete c m k i p).s 31 = nstatAfter (x.s 31) c m := by
  unfold Ctx.complete; dsimp only; split
  · rw [Ctx.stop_s, Ctx.setS_s_ne _ _ (by decide)]; exact Ctx.setS_s_self _ _ _
  · exact Ctx.setS_s_self _ _ _

theorem Ctx.complete_s30 {x : Ctx} {c : Code} (m : Num4) (k i p : Nat) (h : c.stops) :
    (x.complete c m k i p).s 30 = nfaultAfter (x.s 30) k i p := by
  unfold Ctx.complete; dsimp only
  rw [if_pos h, Ctx.stop_s, Ctx.setS_s_self]
  exact congrArg (nfaultAfter · k i p) (Ctx.setS_s_ne x _ (by decide))

theorem Ctx.complete_stopped {x : Ctx} {c : Code} (m : Num4) (k i p : Nat) (h : c.stops) :
    (x.complete c m k i p).stopped = true := by
  unfold Ctx.complete; dsimp only; rw [if_pos h, Ctx.stop_stopped]

theorem Ctx.complete_st {x : Ctx} {c : Code} (m : Num4) (k i p : Nat) (h : c.stops) (hw : x.st ≠ .wait) :
    (x.complete c m k i p).st = .drain := by
  unfold Ctx.complete; dsimp only; rw [if_pos h]; exact Ctx.stop_st hw

/-- The status bits above the counts come from the bits that were set and the code; the counts lie below them. -/
theorem nstatAfter_getLsbD_aborted (v : BitVec 32) (m : Num4) : (nstatAfter v .aborted m).getLsbD 30 = true := by
  simp [nstatAfter, stick]

theorem nstatAfter_getLsbD_numericFault (v : BitVec 32) (m : Num4) :
    (nstatAfter v .numericFault m).getLsbD 31 = true := by
  simp [nstatAfter, stick]

theorem nfaultAfter_of_none {v : BitVec 32} (h : v.toNat / 2 ^ 27 = 0) (k i p : Nat) :
    nfaultAfter v k i p = nfaultOf k i p := if_pos h

@[simp] theorem Code.max_aborted (c : Code) : c.max .aborted = .aborted := by cases c <;> rfl

/-! ## Illegal words -/

theorem State.progFetch_ctx (s : State) (e k i : Nat) (w : BitVec 64) : (s.progFetch e k w).ctx i = s.ctx i :=
  (congrArg (fun t => State.ctx t i) (s.progFetch_butRecords e k w) :)

theorem State.progFetch_eng (s : State) (e k i : Nat) (w : BitVec 64) : (s.progFetch e k w).eng i = s.eng i :=
  (congrArg (fun t => State.eng t i) (s.progFetch_butRecords e k w) :)

/-- An illegal or poisoned word stops its task, at the state its fetch has left. -/
theorem State.atIssue_of_illegal {s : State} {c : Cx} {w : BitVec 64} {legal : Bool} (f : State → Ctx → State)
    (h1 : s.mayIssue c.pos.key c.ctx.val = true) (h2 : s.fenced c.pos.key c.ctx.val w = false)
    (h : legal = false ∨ s.progPoison (s.ctx c.key) (wordsOf w) = true) :
    s.atIssue c.pos.key c.ctx.val w legal f =
      ((s.progFetch c.pos.key c.ctx.val w).atEngine c.pos.key).setCtx c.key (s.ctx c.key).illegal := by
  have h' : (!legal || s.progPoison (s.ctx (4 * c.pos.key + c.ctx.val)) (wordsOf w)) = true := by
    rcases h with h | h
    · rw [h]; rfl
    · exact Bool.or_eq_true_iff.2 (.inr h)
  have hc := (State.atEngine_ctx (s.progFetch c.pos.key c.ctx.val w) c.pos.key c.key).trans (s.progFetch_ctx _ _ _ w)
  simp only [State.atIssue, h1, h2, h', Bool.not_true, Bool.or_self, Bool.false_eq_true, if_false, if_true]
  exact congrArg (State.setCtx _ c.key) (congrArg Ctx.illegal hc)

/-- Settles O8: the task stops at the state its fetch has left. -/
theorem illegalInstructionStopsTask : Obligations.IllegalInstructionStopsTask := by
  intro i c w x s hf h1 h2 h
  have hw : (s.ctx c.key).st ≠ .wait := fun hw => by
    simp only [State.mayIssue, Bool.and_eq_true, Bool.or_eq_true, beq_iff_eq] at h1
    have hst : (s.ctx c.key).st = .run ∨ (s.ctx c.key).st = .late := h1.1.1.1.1.1
    rw [hw] at hst
    exact hst.elim (fun h => by cases h) (fun h => by cases h)
  have hst : Code.aborted.stops := .inr rfl
  refine ⟨_, exec_of_tileForm hf s, ?_⟩
  dsimp only
  rw [State.issueTile, State.atIssue_of_illegal _ h1 h2 h, State.setCtx_ctx_self]
  refine ⟨Ctx.complete_st _ _ _ _ hst hw, Ctx.complete_stopped _ _ _ _ hst, ?_, ?_, fun h0 => ?_, ?_,
    (State.atEngine_issueFrame _ c).setCtx _⟩
  · rw [Ctx.illegal, Ctx.complete_code, Code.max_aborted]
  · rw [Ctx.illegal, Ctx.complete_s31, nstatAfter_getLsbD_aborted]
  · rw [Ctx.illegal, Ctx.complete_s30 _ _ _ _ hst, nfaultAfter_of_none h0]; rfl
  · exact (State.atEngine_ents _ _).trans (congrArg Engine.ents (s.progFetch_eng _ _ _ w))

/-! ## LPSAMP -/

theorem State.atEngine_loupe (s : State) (e u : Nat) : (s.atEngine e).loupe u = s.loupe u :=
  (congrArg (fun t => State.loupe t u) (s.atEngine_frame e) :)

theorem State.atEngine_sampling (s : State) (e : Nat) : (s.atEngine e).sampling = s.sampling :=
  (congrArg State.sampling (s.atEngine_frame e) :)

/-- What Loupe's response to a request is, whether it is idle and samples, and whether a request waits. -/
theorem Loupe.force_of_free {l : Loupe} {on : Bool} (h : l.armed = none ∧ on = true) (r : Nat × Nat × Nat) :
    l.force on r = { l with armed := some r } := if_pos h

theorem Loupe.force_of_busy {l : Loupe} {on : Bool} (h : ¬ (l.armed = none ∧ on = true)) (r : Nat × Nat × Nat) :
    l.force on r = if l.queued = none then { l with queued := some r } else { l with dropped := l.dropped + 1 } :=
      if_neg h

/-- LPSAMP past its issue, in each mode. -/
theorem State.issueLpsamp_issues {s : State} {c : Cx} {w : BitVec 64} (h : s.issues c w (legalLPSAMP w)) :
    s.issueLpsamp c w =
      let t := (s.atEngine c.pos.key).setCtx c.key ((s.ctx c.key).past w (s.nextTurn c.pos.key))
      match bits64 w 53 52 with
      | 1 => t.setLoupe c.pos.clu ((s.loupe c.pos.clu).force s.sampling (c.pos.key, bits64 w 51 49, bits64 w 47 32))
      | 2 => t.modEng c.pos.key fun y => { y with loupeHold := true }
      | 3 => t.modEng c.pos.key fun y => { y with loupeHold := false }
      | _ => t := by
  unfold State.issueLpsamp
  dsimp only
  rw [State.atIssue_of_issues _ _ _ _ _ h, State.atEngine_nextTurn, ← s.atEngine_loupe c.pos.key,
    ← s.atEngine_sampling c.pos.key]
  rfl

theorem bits64_two_lt (w : BitVec 64) : bits64 w 53 52 < 4 := Nat.mod_lt _ (by decide)

/-- Settles O9: one case for each mode. -/
theorem loupeSampleAtIssue : Obligations.LoupeSampleAtIssue := by
  intro c w s h
  refine ⟨s.issueLpsamp c (0x38#8 ++ w), rfl, ?_⟩
  rw [State.issueLpsamp_issues h]
  have hm := bits64_two_lt (0x38#8 ++ w)
  have hf := (s.atEngine_issueFrame c).setCtx ((s.ctx c.key).past (0x38#8 ++ w) (s.nextTurn c.pos.key))
  have he : (((s.atEngine c.pos.key).setCtx c.key ((s.ctx c.key).past (0x38#8 ++ w) (s.nextTurn c.pos.key))).eng
      c.pos.key).ents = (s.eng c.pos.key).ents := s.atEngine_ents c.pos.key
  have hl : ∀ v, ((s.atEngine c.pos.key).setCtx c.key ((s.ctx c.key).past (0x38#8 ++ w)
      (s.nextTurn c.pos.key))).loupe v = s.loupe v := s.atEngine_loupe c.pos.key
  have hc := (s.atEngine c.pos.key).setCtx_ctx_self c.key ((s.ctx c.key).past (0x38#8 ++ w) (s.nextTurn c.pos.key))
  dsimp only
  generalize (s.atEngine c.pos.key).setCtx c.key ((s.ctx c.key).past (0x38#8 ++ w) (s.nextTurn c.pos.key)) = u at *
  generalize (c.pos.key, bits64 (0x38#8 ++ w) 51 49, bits64 (0x38#8 ++ w) 47 32) = r at *
  generalize bits64 (0x38#8 ++ w) 53 52 = mode at *
  interval_cases mode
  · exact ⟨hc, he, nofun, nofun, nofun, nofun, nofun, fun _ => hl, hf.withLoupes⟩
  · have h1 := u.setLoupe_loupe_self c.pos.clu ((s.loupe c.pos.clu).force s.sampling r)
    refine ⟨hc, he, fun _ h => ?_, fun _ h hq => ?_, fun _ h hq => ?_, nofun, nofun, fun h => absurd rfl h,
      hf.withLoupes⟩
    · exact congrArg Loupe.armed (h1.trans (Loupe.force_of_free h r))
    · exact congrArg Loupe.queued (h1.trans ((Loupe.force_of_busy h r).trans (if_pos hq)))
    · exact congrArg Loupe.dropped (h1.trans ((Loupe.force_of_busy h r).trans (if_neg hq)))
  · exact ⟨hc, (congrArg Engine.ents (State.modEng_eng_self _ _ _)).trans he, nofun, nofun, nofun,
      fun _ => congrArg Engine.loupeHold (State.modEng_eng_self _ _ _), nofun, fun _ => hl, (hf.modEng _).withLoupes⟩
  · exact ⟨hc, (congrArg Engine.ents (State.modEng_eng_self _ _ _)).trans he, nofun, nofun, nofun, nofun,
      fun _ => congrArg Engine.loupeHold (State.modEng_eng_self _ _ _), fun _ => hl, (hf.modEng _).withLoupes⟩

end Sys2Proof.Machine
end

section
/-! SUPPORT. The staging buffer: what a word written there reads as, and the statement about LDS and STS. -/
namespace Sys2Proof.Machine

/-! ## A word of the staging buffer -/

/-- A word is its four bytes. -/
theorem word_of_bytes (v : BitVec 32) : v.extractLsb' 24 8 ++ v.extractLsb' 16 8 ++ v.extractLsb' 8 8 ++
    v.extractLsb' 0 8 = v := by
  rw [BitVec.extractLsb'_append_extractLsb'_eq_extractLsb' (by rfl),
    BitVec.extractLsb'_append_extractLsb'_eq_extractLsb' (by rfl),
    BitVec.extractLsb'_append_extractLsb'_eq_extractLsb' (by rfl)]
  exact BitVec.extractLsb'_eq_self

/-- A byte of the staging buffer after a word is written: the word's own byte, or what stood there. -/
theorem State.putStg_stgB (s : State) (u o v i : Nat) (w : MWord) : (s.putStg u o w).stgB v i =
    if sk v i = sk u (4 * (o / 4) + 3) then w.v.extractLsb' 24 8
    else if sk v i = sk u (4 * (o / 4) + 2) then w.v.extractLsb' 16 8
    else if sk v i = sk u (4 * (o / 4) + 1) then w.v.extractLsb' 8 8
    else if sk v i = sk u (4 * (o / 4)) then w.v.extractLsb' 0 8 else s.stgB v i := by
  simp only [State.putStg, State.stgB, Sparse.get_set]
  rfl

theorem sk_inj (u a b : Nat) : sk u a = sk u b ↔ a = b := by unfold sk; omega

theorem State.putStg_stgW (s : State) (u o : Nat) (v : BitVec 32) (h : o % 4 = 0) :
    (s.putStg u o ⟨v, false⟩).stgW u o = ⟨v, false⟩ := by
  have ho : 4 * (o / 4) = o := by omega
  have he : Sparse.get (fun _ => 0) (s.putStg u o ⟨v, false⟩).stgEcc (sk u o / 4) = 0#7 := by
    simp only [State.putStg, ho, Sparse.get_set_self]; rfl
  have hg : synOf 0#7 = Syn.good := by decide
  rw [State.stgW, he]
  simp [State.putStg_stgB, ho, sk_inj, deliver, hg, word_of_bytes]

theorem State.dropShadow_stg (s : State) (x : Shadow) (b : Bool) : (s.dropShadow x b).stg = s.stg := by
  have h : (s.clrShadow x).stg = s.stg := by unfold State.clrShadow; split <;> rfl
  unfold State.dropShadow State.showUsed
  cases b <;> exact h

theorem State.touch_stg (s : State) (u o : Nat) : (s.touch u o).stg = s.stg := by
  unfold State.touch
  split
  · rfl
  · split
    · exact State.dropShadow_stg _ _ _
    · rfl

/-- A word written to the staging buffer with good check bits reads as it was written. -/
theorem State.writeStg_stgW (s : State) (u o : Nat) (v : BitVec 32) (h : o % 4 = 0) :
    (s.writeStg u o ⟨v, false⟩).stgW u o = ⟨v, false⟩ := State.putStg_stgW _ _ _ _ h

theorem State.writeStg_stgB_other (s : State) (u o v i : Nat) (w : MWord) (h : o % 4 = 0)
    (hk : ¬ (v * 0x400000 + i ∈ (List.range 4).map (u * 0x400000 + o + ·))) :
    (s.writeStg u o w).stgB v i = s.stgB v i := by
  have hn : ∀ j < 4, sk v i ≠ sk u (o + j) := fun j hj he => by
    unfold sk at he
    rw [he, ← Nat.add_assoc] at hk
    exact hk (List.mem_map_of_mem (List.mem_range.2 hj))
  have ho : 4 * (o / 4) = o := by omega
  rw [State.writeStg, State.putStg_stgB, ho, if_neg (hn 3 (by decide)), if_neg (hn 2 (by decide)),
    if_neg (hn 1 (by decide)), if_neg (by simpa using hn 0 (by decide))]
  simp only [State.stgB, State.touch_stg]

/-! ## LDS and STS -/

theorem opX_eq (x : Ctx) (w : BitVec 64) : opX x w = if scZ w then 0 else x.s (scRA w) := rfl

theorem stgOk_of {o : BitVec 32} (h : o.toNat % 4 = 0 ∧ o.toNat < 0x400000) : stgOk o = true := by
  simp [stgOk, h.1, h.2]

theorem State.atEngine_now (s : State) (e : Nat) : (s.atEngine e).now = s.now :=
  (congrArg State.now (s.atEngine_frame e) :)

theorem execLds_issues {s : State} {c : Cx} {w : BitVec 56} (hb : ∀ k, (s.eng c.pos.key).scalarBusy c.ctx.val k = false)
    (h : s.issues c (0x8C#8 ++ w) (legalLdSt (0x8C#8 ++ w) false))
    (ho : stgOk (opX (s.ctx c.key) (0x8C#8 ++ w) + scIMM (0x8C#8 ++ w)) = true) :
    exec (.lds c w) s = .next ((s.atEngine c.pos.key).setCtx c.key
      { ((s.ctx c.key).past (0x8C#8 ++ w) (s.nextTurn c.pos.key)).wait 6 0 s.now with
        lds := some ((opX (s.ctx c.key) (0x8C#8 ++ w) + scIMM (0x8C#8 ++ w)).toNat, scRD (0x8C#8 ++ w)) }) := by
  refine congrArg Host.Outcome.next ((State.atIssue_of_issues _ _ _ _ _ h).trans ?_)
  dsimp only
  rw [State.atEngine_scalarHeld hb, State.atEngine_nextTurn, State.atEngine_now, if_neg Bool.false_ne_true]
  exact if_pos ho

theorem execSts_issues {s : State} {c : Cx} {w : BitVec 56} (hb : ∀ k, (s.eng c.pos.key).scalarBusy c.ctx.val k = false)
    (h : s.issues c (0x8D#8 ++ w) (legalLdSt (0x8D#8 ++ w) true))
    (ho : stgOk (opX (s.ctx c.key) (0x8D#8 ++ w) + scIMM (0x8D#8 ++ w)) = true) :
    exec (.sts c w) s = .next (((s.atEngine c.pos.key).writeStg c.pos.clu
      (opX (s.ctx c.key) (0x8D#8 ++ w) + scIMM (0x8D#8 ++ w)).toNat
      ⟨(s.ctx c.key).s (scRB (0x8D#8 ++ w)), false⟩).setCtx c.key
        ((s.ctx c.key).past (0x8D#8 ++ w) (s.nextTurn c.pos.key))) := by
  refine congrArg Host.Outcome.next ((State.atIssue_of_issues _ _ _ _ _ h).trans ?_)
  dsimp only
  rw [State.atEngine_scalarHeld hb, State.atEngine_nextTurn, if_neg Bool.false_ne_true]
  exact if_pos ho

/-- What a context is once its LDS has brought the word `v` to register `rd`. -/
def Ctx.loaded (x : Ctx) (rd : Nat) (v : MWord) : Ctx :=
  let y := { (x.setS rd v.v).resume with lds := none }
  if v.p then { y.setS 31 (y.s 31 ||| 0x20000000) with code := y.code.max .poisoned } else y

theorem execLdsReturn_of {s : State} {c : Cx} {o rd : Nat} (h : (s.ctx c.key).lds = some (o, rd)) :
    exec (.ldsReturn c) s = .next ((((s.readStg (s.engSrc c.pos.key c.ctx.val 0x8C (s.ctx c.key).at_) c.pos.clu
      o).2).settle
      c.pos.key).setCtx c.key ((s.ctx c.key).loaded rd (s.stgW c.pos.clu o))) := by
  refine congrArg Host.Outcome.next ?_
  dsimp only
  rw [h]
  rfl

theorem Ctx.loaded_s (x : Ctx) {rd k : Nat} (v : MWord) (h : k ≠ 31) :
    (x.loaded rd v).s k = if k = rd then v.v else x.s k := by
  unfold Ctx.loaded
  dsimp only
  split
  · exact (Ctx.setS_s_ne _ _ h).trans (Ctx.setS_s _ _ _ _)
  · exact Ctx.setS_s _ _ _ _

theorem Ctx.loaded_poisoned {x : Ctx} {rd : Nat} {v : MWord} (h : v.p = true) :
    ((x.loaded rd v).s 31).getLsbD 29 = true ∧ (x.loaded rd v).code = x.code.max .poisoned := by
  unfold Ctx.loaded
  dsimp only
  rw [if_pos h]
  refine ⟨?_, rfl⟩
  have : ∀ y : Ctx, ∀ c, ({ y.setS 31 (y.s 31 ||| 0x20000000) with code := c } : Ctx).s 31 = y.s 31 ||| 0x20000000 :=
    fun y c => Ctx.setS_s_self _ _ _
  rw [this]
  simp

/-- Settles O14: LDS, its return, and STS. -/
theorem stagingLoadStore : Obligations.StagingLoadStore := by
  intro c w s hb
  refine ⟨fun h ho => ⟨_, execLds_issues hb h (stgOk_of ho), ?_⟩, fun o rd h => ⟨_, execLdsReturn_of h, ?_⟩,
    fun h ho => ⟨_, execSts_issues hb h (stgOk_of ho), ?_⟩⟩ <;> dsimp only <;> rw [State.setCtx_ctx_self]
  · exact ⟨rfl, rfl, rfl, (s.atEngine_issueFrame c).setCtx _⟩
  · refine ⟨fun hr => ?_, ?_, ?_, Ctx.loaded_poisoned, fun k hk h31 => ?_, State.byte_of_memKey ?_⟩
    · rw [Ctx.loaded_s _ _ hr, if_pos rfl]
    · unfold Ctx.loaded; dsimp only; split <;> rfl
    · unfold Ctx.loaded; dsimp only; split <;> rfl
    · rw [Ctx.loaded_s _ _ h31, if_neg hk]
    · simp only [State.setCtx_memKey', State.settle_memKey, State.readStg_memKey]
  · have h1 : wordsOf (0x8D#8 ++ w) = 1 := wordsOf_eq_one (by have := h.2.2.1; simp_all [legalLdSt])
    refine ⟨State.writeStg_stgW _ _ _ _ ho.1, fun v i hi => ?_, congrArg _ h1, fun k => rfl, State.byte_of_memKey ?_⟩
    · refine (State.writeStg_stgB_other _ _ _ _ _ _ ho.1 hi).trans ?_
      exact (congrArg (fun t => State.stgB t v i) (s.atEngine_frame c.pos.key) :)
    · simp only [State.setCtx_memKey', State.writeStg_memKey, State.atEngine, State.useStep_memKey, State.settle_memKey]

end Sys2Proof.Machine
end

section
/-! SUPPORT. Semaphores: service and signals, and the statements about SWAIT and SSIG. -/
namespace Sys2Proof.Machine

/-! ## A semaphore with no waiter -/

theorem State.service_of_nil {s : State} {u k : Nat} (h : s.waiters (semKey u k) = []) :
    s.service u k = s.setWaiters (semKey u k) [] := by
  rw [State.service, h, State.serviceLoop]

theorem semValue_ok (u k : Nat) : (F.STR_SEM_VALUE u k).ok = true := rfl
theorem semOvf_ok (u k : Nat) : (F.STR_SEM_OVF u k).ok = true := rfl
theorem semValue_apart_ovf (u k : Nat) : (F.STR_SEM_VALUE u k).apart (F.STR_SEM_OVF u k) = true := by
  simp [Fld.apart, F.STR_SEM_VALUE, F.STR_SEM_OVF]
theorem semOvf_apart_value (u k : Nat) : (F.STR_SEM_OVF u k).apart (F.STR_SEM_VALUE u k) = true := by
  simp [Fld.apart, F.STR_SEM_VALUE, F.STR_SEM_OVF]

/-- A semaphore's value after a number that fits is written. -/
theorem State.fset_semValue (s : State) (u k v : Nat) (h : v < 2 ^ 16) :
    (s.fset (F.STR_SEM_VALUE u k) v).fget (F.STR_SEM_VALUE u k) = v := by
  rw [State.fset_fget _ _ _ (semValue_ok u k)]; exact Nat.mod_eq_of_lt h

theorem State.semValue_lt (s : State) (u k : Nat) : s.fget (F.STR_SEM_VALUE u k) < 2 ^ 16 := State.fget_lt s _

/-- A semaphore with no waiter after a signal: what the signal writes, and the order in which. -/
theorem State.signal_of_nil {s : State} {u k n who : Nat} (h : s.waiters (semKey u k) = []) :
    s.signal u k n who =
      let v := s.fget (F.STR_SEM_VALUE u k) + n
      let t := if 0xFFFF < v then s.setFlag (F.STR_SEM_OVF u k) true else s
      (({ t with semBy := Sparse.set (fun _ => 0) t.semBy (semKey u k) who } : State).fset (F.STR_SEM_VALUE u k)
        (min v 0xFFFF)).setWaiters (semKey u k) [] := by
  unfold State.signal
  dsimp only
  refine State.service_of_nil ?_
  split <;> exact h

theorem State.signal_value {s : State} {u k n who : Nat} (h : s.waiters (semKey u k) = []) :
    (s.signal u k n who).fget (F.STR_SEM_VALUE u k) = min (s.fget (F.STR_SEM_VALUE u k) + n) 0xFFFF := by
  rw [State.signal_of_nil h, State.setWaiters_fget]
  exact State.fset_semValue _ _ _ _ (by omega)

theorem State.signal_ovf {s : State} {u k n who : Nat} (h : s.waiters (semKey u k) = []) :
    (s.signal u k n who).flag (F.STR_SEM_OVF u k) =
      (s.flag (F.STR_SEM_OVF u k) || decide (0xFFFF < s.fget (F.STR_SEM_VALUE u k) + n)) := by
  rw [State.signal_of_nil h, State.setWaiters_flag]
  rw [State.fset_flag_apart _ _ _ _ (semValue_apart_ovf u k)]
  by_cases hv : 0xFFFF < s.fget (F.STR_SEM_VALUE u k) + n
  · simp only [hv, if_true, decide_true, Bool.or_true]
    exact State.setFlag_flag s _ _ (semOvf_ok u k)
  · simp only [hv, if_false, decide_false, Bool.or_false]
    rfl

/-- A signal to a semaphore with no waiter writes its register, who signalled it, and its empty queue. -/
theorem State.signal_frame {s : State} {u k n who : Nat} (h : s.waiters (semKey u k) = []) :
    { s.signal u k n who with regs := [], semBy := [], semq := [] } = { s with regs := [], semBy := [], semq := [] }
      := by
  rw [State.signal_of_nil h]
  dsimp only
  split <;> rfl

theorem State.signal_reg {s : State} {u k n who i : Nat} (h : s.waiters (semKey u k) = []) (hi : i ≠ Reg.STR_SEM u k) :
    (s.signal u k n who).reg i = s.reg i := by
  rw [State.signal_of_nil h, State.setWaiters_reg_same, State.fset_reg_ne _ _ _ _ hi]
  split
  · exact State.fset_reg_ne _ _ _ _ hi
  · rfl

/-! ## SSIG -/

theorem execSsig_issues {s : State} {c : Cx} {w : BitVec 56} (h : s.issues c (0xA1#8 ++ w) (legalSSIG (0xA1#8 ++ w)))
    (hp : (s.ctx c.key).pend.length < 4) :
    exec (.ssig c w) s = .next ((s.atEngine c.pos.key).setCtx c.key
      { (s.ctx c.key).past (0xA1#8 ++ w) (s.nextTurn c.pos.key) with
        pend := (s.ctx c.key).pend ++ [{
          clu := if sgLOCAL (0xA1#8 ++ w) then c.pos.clu else cluKey (sgDIE (0xA1#8 ++ w)) (sgCLU (0xA1#8 ++ w))
          sem := sgSEM (0xA1#8 ++ w), n := sgN (0xA1#8 ++ w), upto := s.nextId }] }) := by
  have hid : (s.atEngine c.pos.key).nextId = s.nextId := (congrArg State.nextId (s.atEngine_frame c.pos.key) :)
  refine congrArg Host.Outcome.next ((State.atIssue_of_issues _ _ _ _ _ h).trans ?_)
  dsimp only
  rw [if_neg (by omega), State.atEngine_nextTurn, hid]
  rfl

theorem execSsigRelease_of {s : State} {c : Cx} {p : SigPend} {ps : List SigPend} (h : (s.ctx c.key).pend = p :: ps)
    (hw : s.workBelow c.pos.key c.ctx.val p.upto = false) :
    exec (.ssigRelease c) s =
      .next ((s.setCtx c.key { s.ctx c.key with pend := ps }).signal p.clu p.sem p.n 0) := by
  refine congrArg Host.Outcome.next ?_
  dsimp only
  rw [h]
  dsimp only
  rw [hw, if_neg Bool.false_ne_true]

/-- Settles O16: a signal waits in its context, and its release is a signal. -/
theorem semaphoreSignal : Obligations.SemaphoreSignal := by
  intro c s
  refine ⟨fun w h hp => ⟨_, execSsig_issues h hp, ?_⟩, fun p ps h hw hq => ⟨_, execSsigRelease_of h hw, ?_⟩⟩
  · have h1 : wordsOf (0xA1#8 ++ w) = 1 := wordsOf_eq_one (by have := h.2.2.1; simp_all [legalSSIG])
    dsimp only
    rw [State.setCtx_ctx_self]
    refine ⟨?_, rfl, congrArg _ h1, (s.atEngine_issueFrame c).setCtx _⟩
    rw [cluKey, Nat.mul_comm]
  · generalize hs : s.setCtx c.key { s.ctx c.key with pend := ps } = u
    have hq' : u.waiters (semKey p.clu p.sem) = [] := by subst hs; exact hq
    have hv : u.fget (F.STR_SEM_VALUE p.clu p.sem) = s.fget (F.STR_SEM_VALUE p.clu p.sem) := by subst hs; rfl
    have hf := State.signal_frame (n := p.n) (who := 0) hq'
    have hc : ∀ k, (u.signal p.clu p.sem p.n 0).ctx k = u.ctx k := fun k => (congrArg (fun t => State.ctx t k) hf :)
    refine ⟨?_, ?_, ?_, fun i hi => ?_, fun k hk => ?_, fun a => ?_⟩
    · rw [hc, ← hs, State.setCtx_ctx_self]
    · rw [State.signal_value hq', hv]
    · rw [State.signal_ovf hq', hv, ← hs]; rfl
    · rw [State.signal_reg hq' hi, ← hs]; rfl
    · rw [hc, ← hs, State.setCtx_ctx, if_neg hk]
    · rw [show (u.signal p.clu p.sem p.n 0).byte a = u.byte a from (congrArg (fun t => State.byte t a) hf :), ← hs]; rfl

/-! ## SWAIT -/

theorem execSwait_issues {s : State} {c : Cx} {w : BitVec 56} {l : Nat}
    (h : s.issues c (0xA0#8 ++ w) (legalSWAIT (0xA0#8 ++ w))) (hl : s.slotOf c.pos.key = some l)
    (hq : s.waiters (256 * c.pos.clu + sgSEM (0xA0#8 ++ w)) = []) :
    exec (.swait c w) s = .next ((((s.atEngine c.pos.key).setCtx c.key
      (((s.ctx c.key).past (0xA0#8 ++ w) (s.nextTurn c.pos.key)).wait 1 (sgSEM (0xA0#8 ++ w)) s.now)).setWaiters
        (semKey c.pos.clu (sgSEM (0xA0#8 ++ w))) [.ctx l c.ctx.val (sgN (0xA0#8 ++ w))]).service c.pos.clu
          (sgSEM (0xA0#8 ++ w))) := by
  have hl' : (s.atEngine c.pos.key).slotOf c.pos.key = some l := by
    rw [← hl]; exact (congrArg (fun t => State.slotOf t c.pos.key) (s.atEngine_frame c.pos.key) :)
  have hq' : (s.atEngine c.pos.key).waiters (semKey c.pos.clu (sgSEM (0xA0#8 ++ w))) = [] := by
    refine Eq.trans ?_ hq
    exact (congrArg (fun t => State.waiters t (semKey c.pos.clu (sgSEM (0xA0#8 ++ w)))) (s.atEngine_frame c.pos.key) :)
  refine congrArg Host.Outcome.next ((State.atIssue_of_issues _ _ _ _ _ h).trans ?_)
  dsimp only
  rw [hl', State.atEngine_nextTurn, State.atEngine_now]
  dsimp only
  rw [State.setCtx_waiters_same]
  exact congrArg (fun x => (State.setWaiters _ _ (x ++ _)).service _ _) hq'

theorem State.fget_of_reg {s t : State} {f : Fld} (h : t.reg f.key = s.reg f.key) : t.fget f = s.fget f := by
  unfold State.fget; rw [h]
theorem State.flag_of_reg {s t : State} {f : Fld} (h : t.reg f.key = s.reg f.key) : t.flag f = s.flag f := by
  unfold State.flag; rw [State.fget_of_reg h]

/-- The slot map's registers are no semaphore's. -/
theorem Reg.slotmap_ne_sem {u k : Nat} (hk : k < 256) (d : Nat) {i : Nat} (hi : i < 4) :
    Reg.STR_SLOTMAP d i ≠ Reg.STR_SEM u k := by
  unfold Reg.STR_SLOTMAP Reg.STR_SEM; omega

/-- A slot's binding is read from its own register. -/
theorem State.engineOf_of_reg {s t : State} (l : Nat)
    (h : t.reg (Reg.STR_SLOTMAP (l / 16) (l % 16 / 4)) = s.reg (Reg.STR_SLOTMAP (l / 16) (l % 16 / 4))) :
    t.engineOf l = s.engineOf l := by
  have hb : t.flag (boundFld l) = s.flag (boundFld l) := State.flag_of_reg h
  have he : t.fget (engineFld l) = s.fget (engineFld l) := State.fget_of_reg h
  unfold State.engineOf
  rw [hb, he]

/-- Service of a single context that waits: below its N it stays. -/
theorem State.service_of_lt {s : State} {u k l j n : Nat} (h : s.waiters (semKey u k) = [.ctx l j n])
    (hn : s.fget (F.STR_SEM_VALUE u k) < n) : s.service u k = s.setWaiters (semKey u k) [.ctx l j n] := by
  rw [State.service, h, State.serviceLoop]
  exact if_neg (by simpa [Waiter.n] using hn)

/-- Service of a single context that waits: from its N on, N is taken and the context goes on. -/
theorem State.service_of_le {s : State} {u k l j n e : Nat} (h : s.waiters (semKey u k) = [.ctx l j n])
    (hn : n ≤ s.fget (F.STR_SEM_VALUE u k)) (he : s.engineOf l = some e) (hk : k < 256) :
    s.service u k = ((s.fset (F.STR_SEM_VALUE u k) (s.fget (F.STR_SEM_VALUE u k) - n)).endWait e j
      Ctx.resume).setWaiters
      (semKey u k) [] := by
  have he' : (s.fset (F.STR_SEM_VALUE u k) (s.fget (F.STR_SEM_VALUE u k) - n)).engineOf l = some e := by
    rw [← he]
    exact State.engineOf_of_reg l (State.fset_reg_ne _ _ _ _ (Reg.slotmap_ne_sem hk _ (by omega)))
  rw [State.service, h, State.serviceLoop]
  refine (if_pos (by simpa [Waiter.n] using hn)).trans ?_
  simp only [Waiter.n, State.serve, he', State.serviceLoop]

/-! ## The end of a wait -/

/-- Everything but the contexts, the engines and the idle account. -/
def State.butWaits (s : State) : State := { s with ctxs := [], engines := [], idle := [] }

theorem State.reg_of_butWaits {s t : State} (h : t.butWaits = s.butWaits) (i : Nat) : t.reg i = s.reg i :=
  (congrArg (fun t => State.reg t i) h :)
theorem State.byte_of_butWaits {s t : State} (h : t.butWaits = s.butWaits) (a : Nat) : t.byte a = s.byte a :=
  (congrArg (fun t => State.byte t a) h :)

theorem State.payPeer_frame (s : State) (e : Nat) : (s.payPeer e).butEngines = s.butEngines := by
  unfold State.payPeer
  dsimp only
  (repeat' split) <;> rfl

/-- A context that leaves its wait, before it takes its change. -/
theorem State.endWait_eq (s : State) (e k : Nat) (f : Ctx → Ctx) : ∃ u : State, u.butEngines = s.butEngines ∧
    s.endWait e k f = u.modCtx (4 * e + k) f := by
  unfold State.endWait
  refine ⟨if (s.settle e).peerWait e k then (s.settle e).payPeer e else s.settle e, ?_, rfl⟩
  split
  · exact (State.payPeer_frame _ _).trans (s.settle_frame e)
  · exact s.settle_frame e

theorem State.endWait_frame (s : State) (e k : Nat) (f : Ctx → Ctx) : (s.endWait e k f).butWaits = s.butWaits := by
  obtain ⟨u, hu, h⟩ := s.endWait_eq e k f
  rw [h]
  exact (congrArg (fun t : State => { t with ctxs := [] }) hu :)

theorem State.endWait_ctx (s : State) (e k i : Nat) (f : Ctx → Ctx) :
    (s.endWait e k f).ctx i = if i = 4 * e + k then f (s.ctx i) else s.ctx i := by
  obtain ⟨u, hu, h⟩ := s.endWait_eq e k f
  have hc : ∀ j, u.ctx j = s.ctx j := fun j => (congrArg (fun t => State.ctx t j) hu :)
  rw [h, State.modCtx_ctx, hc, hc]
  split <;> simp_all

/-! ## SWAIT -/

/-- Settles O15: the context waits at the tail of the semaphore, which is then served. -/
theorem semaphoreWait : Obligations.SemaphoreWait := by
  intro c w s l h hl he hq
  refine ⟨_, execSwait_issues h hl hq, ?_⟩
  have h1 : wordsOf (0xA0#8 ++ w) = 1 := wordsOf_eq_one (by have := h.2.2.1; simp_all [legalSWAIT])
  have hk : sgSEM (0xA0#8 ++ w) < 256 := Nat.mod_lt _ (by decide)
  have hst : (s.ctx c.key).stopped = false := by
    have := h.1
    simp only [State.mayIssue, Bool.and_eq_true, Bool.not_eq_true'] at this
    exact this.1.1.1.1.2
  generalize hw : 0xA0#8 ++ w = w' at *
  generalize hy : ((s.ctx c.key).past w' (s.nextTurn c.pos.key)).wait 1 (sgSEM w') s.now = y
  generalize hu : ((s.atEngine c.pos.key).setCtx c.key y).setWaiters (semKey c.pos.clu (sgSEM w'))
    [.ctx l c.ctx.val (sgN w')] = u
  have huc : u.ctx c.key = y := by rw [← hu]; exact State.setCtx_ctx_self _ _ _
  have hur : ∀ i, u.reg i = s.reg i := fun i => by
    rw [← hu]; exact (congrArg (fun t => State.reg t i) (s.atEngine_frame c.pos.key) :)
  have hub : ∀ a, u.byte a = s.byte a := fun a => by
    rw [← hu]; exact (congrArg (fun t => State.byte t a) (s.atEngine_frame c.pos.key) :)
  have huw : u.waiters (semKey c.pos.clu (sgSEM w')) = [.ctx l c.ctx.val (sgN w')] := by
    rw [← hu]; exact State.setWaiters_waiters_self _ _ _
  have hv : u.fget (F.STR_SEM_VALUE c.pos.clu (sgSEM w')) = s.fget (F.STR_SEM_VALUE c.pos.clu (sgSEM w')) :=
    State.fget_of_reg (hur _)
  have hue : u.engineOf l = some c.pos.key := by rw [← he]; exact State.engineOf_of_reg l (hur _)
  have hys : y.pc = (s.ctx c.key).pc + 1 ∧ (∀ r, y.s r = (s.ctx c.key).s r) ∧ y.stopped = false ∧ y.st = .wait ∧
      y.why = 1 ∧ y.wid = sgSEM w' := by
    subst hy
    exact ⟨congrArg _ h1, fun _ => rfl, hst, rfl, rfl, rfl⟩
  obtain ⟨hpc, hs, hstop, hwait, hwhy, hwid⟩ := hys
  dsimp only
  rcases Nat.lt_or_ge (s.fget (F.STR_SEM_VALUE c.pos.clu (sgSEM w'))) (sgN w') with hn | hn
  · rw [State.service_of_lt huw (by rw [hv]; exact hn), State.setWaiters_ctx_same, huc]
    exact ⟨hpc, hs, fun h => absurd h (by omega),
      fun _ => ⟨hwait, hwhy, hwid, hv, u.setWaiters_waiters_self _ _⟩, fun i _ => hur i, hub⟩
  · have hf := (u.fset (F.STR_SEM_VALUE c.pos.clu (sgSEM w')) (u.fget (F.STR_SEM_VALUE c.pos.clu (sgSEM w')) -
      sgN w')).endWait_frame c.pos.key c.ctx.val Ctx.resume
    have hc := (u.fset (F.STR_SEM_VALUE c.pos.clu (sgSEM w')) (u.fget (F.STR_SEM_VALUE c.pos.clu (sgSEM w')) -
      sgN w')).endWait_ctx c.pos.key c.ctx.val c.key Ctx.resume
    rw [if_pos (show c.key = 4 * c.pos.key + c.ctx.val from rfl), State.fset_ctx_same, huc] at hc
    rw [State.service_of_le huw (by rw [hv]; exact hn) hue hk, State.setWaiters_ctx_same, hc]
    refine ⟨hpc, hs, fun _ => ⟨?_, ?_, State.setWaiters_waiters_self _ _ _⟩, fun h => absurd h (by omega), fun i hi
      => ?_,
      fun a => ?_⟩
    · simp only [Ctx.resume, hstop]; rfl
    · rw [State.setWaiters_fget, ← hv]
      refine (State.fget_of_reg (State.reg_of_butWaits hf _)).trans ?_
      exact State.fset_semValue _ _ _ _ (by have := u.semValue_lt c.pos.clu (sgSEM w'); omega)
    · rw [State.setWaiters_reg_same, ← hur]
      exact (State.reg_of_butWaits hf i).trans (State.fset_reg_ne _ _ _ _ hi)
    · rw [State.setWaiters_byte_same, ← hub]
      exact State.byte_of_butWaits hf a

end Sys2Proof.Machine
end

section
/-! SUPPORT. What sending messages leaves as it was; transfer slots, and the statements about streams. -/
namespace Sys2Proof.Machine
/-- Everything but what sending a message writes: the ports, what they have sent, what waits for a route, and the
  requests open. -/
def State.butSends (s : State) : State :=
  { s with
    ports := [], rtx := [], nextTag := 0, sent := [], noRoute := [] }

theorem State.butSends_with {a_ports a_rtx a_nextTag a_sent a_noRoute} {s : State} : State.butSends ⟨s.pending,
  s.regs, s.mem, s.ecc, s.bursts, s.hbmEpoch, s.sramEpoch, s.sramClean, s.stg, s.stgEcc, s.cache, s.wback, s.engines,
  s.ctxs, s.tiles, s.sides, s.tileEcc, s.tags, s.accs, s.heads, s.xfers, s.batches, s.colls, s.nextId, s.semq,
  s.semBy, s.bars, s.cqs, s.wtasks, s.fence, s.drains, s.disabled, s.sct, s.sctEcc, s.sched, s.upd, s.updq, s.roots,
  s.owns, s.rifOut, a_ports, a_rtx, a_nextTag, s.nbr, s.grp, s.grpEcc, s.insts, s.issued, s.folds, s.time, s.idle,
  s.power, s.temps, s.excl, s.gone, s.ring, s.hist, s.ceHist, s.caps, s.crash, s.arithPend, s.lpTab, s.advRing,
  s.lpEcc, s.advEcc, s.loupes, s.shadows, s.retire, s.rots, s.pages, s.granSpare, s.granDead, s.modBad, s.modWait,
  s.cycles, s.resets, s.resetFail, s.chReset, s.clReset, s.dieReset, s.dumps, s.vhist, s.capsules, s.sec, s.msix,
  s.mirror, s.cpl, s.cplPoison, s.tapOut, s.bar4, s.armIrq, a_sent, a_noRoute, s.free⟩ = s.butSends := by
  unfold State.butSends; rfl

theorem State.butSends_ite (c : Prop) [Decidable c] (s t : State) :
    (if c then s else t).butSends = if c then s.butSends else t.butSends := by split <;> rfl

/-- Folding an operation that leaves all else as it was leaves it as it was. -/
theorem State.foldl_butSends {α : Type} (f : State → α → State) (hf : ∀ s x, (f s x).butSends = s.butSends) (l : List α)
    (s : State) : (l.foldl f s).butSends = s.butSends := by
  induction l generalizing s with
  | nil => rfl
  | cons x l ih => rw [List.foldl_cons, ih, hf]

@[simp] theorem State.setPort_butSends (s : State) (p : Nat) (x : Port) : (s.setPort p x).butSends = s.butSends := by
  simp only [State.setPort, ↓State.butSends_with]
@[simp] theorem State.modPort_butSends (s : State) (p : Nat) (f : Port → Port) : (s.modPort p f).butSends =
  s.butSends := by
  simp only [State.modPort, State.setPort_butSends]
@[simp] theorem State.pumpGo_butSends (s : State) (p : Nat) (tails : List (Nat × List MWord)) (y0 : List (BitVec 16 ×
  Msg)) (y1
  : List Nat) (y2 : List (BitVec 16 × Msg)) : (s.pumpGo p tails y0 y1 y2).butSends = s.butSends := by
  induction y0 generalizing s tails y1 y2 with
  | nil => rfl
  | cons m ms ih =>
    simp only [State.pumpGo]
    split <;> simp only [ih, ↓State.butSends_with, ↓State.butSends_with, State.setPort_butSends]
@[simp] theorem State.pump_butSends (s : State) (p : Nat) : (s.pump p).butSends = s.butSends := by
  simp only [State.pump, State.pumpGo_butSends]
@[simp] theorem State.postTo_butSends (s : State) (p : Nat) (dst : BitVec 16) (m : Msg) : (s.postTo p dst m).butSends =
  s.butSends
  := by
  simp only [State.postTo, State.modPort_butSends, State.pump_butSends]
@[simp] theorem State.post_butSends (s : State) (p : Nat) (m : Msg) : (s.post p m).butSends = s.butSends := by
  simp only [State.post, State.postTo_butSends]
@[simp] theorem State.sendIdle_butSends (s : State) (p : Nat) (nak : Bool) (cvc cred : Nat) : (s.sendIdle p nak cvc
  cred).butSends = s.butSends := by
  simp only [State.sendIdle, ↓State.butSends_with]
@[simp] theorem State.takeFlits_butSends (s : State) (p vc n : Nat) : (s.takeFlits p vc n).butSends = s.butSends := by
  simp only [State.takeFlits, State.modPort_butSends, State.sendIdle_butSends]
@[simp] theorem State.took_butSends (s : State) (src : BitVec 16) (m : Msg) : (s.took src m).butSends = s.butSends := by
  unfold State.took
  (repeat' split) <;> simp only [State.takeFlits_butSends]
@[simp] theorem State.toPkg_butSends (s : State) (pkg : BitVec 16) (m : Msg) : (s.toPkg pkg m).butSends = s.butSends
  := by
  unfold State.toPkg
  (repeat' split) <;> simp only [↓State.butSends_with, State.postTo_butSends]
@[simp] theorem State.issueTx_butSends (s : State) (r : RTx) : (s.issueTx r).2.butSends = s.butSends := by
  unfold State.issueTx
  (repeat' split) <;> simp only [State.post_butSends]
@[simp] theorem State.ask_butSends (s : State) (r : RTx) : (s.ask r).butSends = s.butSends := by
  simp only [State.ask, ↓State.butSends_with, State.issueTx_butSends]
/-! ## Requests of a slot, and HELD -/

theorem State.xfer_of_butSends {s t : State} (h : t.butSends = s.butSends) (k : Nat) : t.xfer k = s.xfer k :=
  (congrArg (fun t => State.xfer t k) h :)

/-- Everything but the transfer slots and what sending a message writes. -/
def State.butXfers (s : State) : State := { s.butSends with xfers := [] }

theorem State.setXfer_butXfers (s : State) (k : Nat) (x : Xfer) : (s.setXfer k x).butXfers = s.butXfers := rfl
theorem State.butXfers_of_butSends {s t : State} (h : t.butSends = s.butSends) : t.butXfers = s.butXfers :=
  congrArg (fun t : State => { t with xfers := [] }) h

theorem State.tag_of_butXfers {s t : State} (h : t.butXfers = s.butXfers) (k : Nat) : t.tag k = s.tag k :=
  (congrArg (fun t => State.tag t k) h :)
theorem State.nextId_of_butXfers {s t : State} (h : t.butXfers = s.butXfers) : t.nextId = s.nextId :=
  (congrArg State.nextId h :)
theorem State.ctx_of_butXfers {s t : State} (h : t.butXfers = s.butXfers) (k : Nat) : t.ctx k = s.ctx k :=
  (congrArg (fun t => State.ctx t k) h :)
theorem State.tileB_of_butXfers {s t : State} (h : t.butXfers = s.butXfers) (k : Nat) : t.tileB k = s.tileB k :=
  (congrArg (fun t => State.tileB t k) h :)
theorem State.byte_of_butXfers {s t : State} (h : t.butXfers = s.butXfers) (a : Nat) : t.byte a = s.byte a :=
  (congrArg (fun t => State.byte t a) h :)
theorem State.slotOf_of_butXfers {s t : State} (h : t.butXfers = s.butXfers) (e : Nat) : t.slotOf e = s.slotOf e :=
  (congrArg (fun t => State.slotOf t e) h :)

theorem State.topUpGo_butXfers (s : State) (l n fuel : Nat) : (s.topUpGo l n fuel).butXfers = s.butXfers := by
  induction fuel generalizing s with
  | zero => rfl
  | succ fuel ih =>
    simp only [State.topUpGo]
    split
    · rw [ih, State.butXfers_of_butSends (State.ask_butSends _ _), State.setXfer_butXfers]
    · rfl

theorem State.topUp_butXfers (s : State) (l n : Nat) : (s.topUp l n).butXfers = s.butXfers := by
  unfold State.topUp
  dsimp only
  split
  · rfl
  · exact s.topUpGo_butXfers l n 64

/-- Requests count in their own slot, in the number asked alone. -/
theorem State.topUpGo_xfer (s : State) (l n fuel : Nat) :
    (∃ a, (s.topUpGo l n fuel).xfer (xk l n) = { s.xfer (xk l n) with asked := a }) ∧
      ∀ k, k ≠ xk l n → (s.topUpGo l n fuel).xfer k = s.xfer k := by
  induction fuel generalizing s with
  | zero => exact ⟨⟨_, rfl⟩, fun _ _ => rfl⟩
  | succ fuel ih =>
    simp only [State.topUpGo]
    split
    · obtain ⟨⟨a, ha⟩, ho⟩ := ih ((s.setXfer (xk l n) { s.xfer (xk l n) with asked := (s.xfer (xk l n)).asked + 1 }).ask
        { addr := (s.xfer (xk l n)).at (s.xfer (xk l n)).asked, units := 1, id := (s.xfer (xk l n)).id, l := l, slot
          := n,
          unit := (s.xfer (xk l n)).asked })
      refine ⟨⟨a, ?_⟩, fun k hk => ?_⟩
      · rw [ha, State.xfer_of_butSends (State.ask_butSends _ _), State.setXfer_xfer_self]
      · rw [ho k hk, State.xfer_of_butSends (State.ask_butSends _ _), State.setXfer_xfer, if_neg hk]
    · exact ⟨⟨_, rfl⟩, fun _ _ => rfl⟩

theorem State.topUp_xfer (s : State) (l n : Nat) :
    (∃ a, (s.topUp l n).xfer (xk l n) = { s.xfer (xk l n) with asked := a }) ∧
      ∀ k, k ≠ xk l n → (s.topUp l n).xfer k = s.xfer k := by
  unfold State.topUp
  dsimp only
  split
  · exact ⟨⟨_, rfl⟩, fun _ _ => rfl⟩
  · exact s.topUpGo_xfer l n 64

/-- Whether a slot's tile is not ready is read from the tags and the package's own id alone. -/
theorem State.notReady_of_butXfers {s t : State} (h : t.butXfers = s.butXfers) (e : Nat) (x : Xfer) :
    t.notReady e x = s.notReady e x :=
  (congrArg (fun t => State.notReady t e x) h :)

/-- What HELD turns on stays when a slot's state or its requests alone change. -/
theorem State.notReady_with (s : State) (e : Nat) (x : Xfer) (st : XferSt) (a : Nat) :
    s.notReady e { x with st := st, asked := a } = s.notReady e x := rfl

theorem State.notReady_with' (s : State) (e : Nat) (x : Xfer) (st : XferSt) (a : Nat) (now : BitVec 64) :
    s.notReady e { x with st := st, last := now, asked := a } = s.notReady e x := rfl

/-- A slot brought to ACTIVE or HELD is so by its own tile, whatever the other slots became before it. -/
theorem State.foldl_heldNow (s : State) (e l : Nat) (ns : List Nat) (hn : ns.Nodup) :
    (ns.foldl (fun s n => s.setXfer (xk l n) (s.heldNow e (s.xfer (xk l n)))) s).butXfers = s.butXfers ∧
      ∀ k, (ns.foldl (fun s n => s.setXfer (xk l n) (s.heldNow e (s.xfer (xk l n)))) s).xfer k =
        if ∃ n ∈ ns, k = xk l n then s.heldNow e (s.xfer k) else s.xfer k := by
  induction ns generalizing s with
  | nil => exact ⟨rfl, fun k => by simp⟩
  | cons n ns ih =>
    obtain ⟨hnn, hns⟩ := List.nodup_cons.1 hn
    obtain ⟨hb, hx⟩ := ih (s.setXfer (xk l n) (s.heldNow e (s.xfer (xk l n)))) hns
    refine ⟨hb.trans rfl, fun k => ?_⟩
    rw [List.foldl_cons, hx]
    have hh : ∀ x, (s.setXfer (xk l n) (s.heldNow e (s.xfer (xk l n)))).heldNow e x = s.heldNow e x := fun x => rfl
    rw [hh, State.setXfer_xfer]
    by_cases hk : k = xk l n
    · have : ¬ ∃ m ∈ ns, k = xk l m := by
        rintro ⟨m, hm, he⟩
        have : m = n := by simp only [xk] at hk he; omega
        exact hnn (this ▸ hm)
      rw [if_neg this, if_pos hk, if_pos ⟨n, List.mem_cons_self, hk⟩, hk]
    · rw [if_neg hk]
      simp only [List.mem_cons, exists_eq_or_imp, hk, false_or]

theorem State.reHold_butXfers (s : State) (e : Nat) : (s.reHold e).butXfers = s.butXfers := by
  unfold State.reHold
  split
  · rfl
  · exact (State.foldl_heldNow s e _ _ List.nodup_range).1

theorem State.reHold_xfer {s : State} {e l : Nat} (h : s.slotOf e = some l) (k : Nat) :
    (s.reHold e).xfer k = if ∃ n ∈ List.range 6, k = xk l n then s.heldNow e (s.xfer k) else s.xfer k := by
  unfold State.reHold
  rw [h]
  exact (State.foldl_heldNow s e l _ List.nodup_range).2 k

/-- Bringing slots to ACTIVE or HELD changes nothing of a slot but its state. -/
theorem State.reHold_xfer_st (s : State) (e k : Nat) : { (s.reHold e).xfer k with st := (s.xfer k).st } = s.xfer k := by
  cases h : s.slotOf e with
  | none => simp only [State.reHold, h]
  | some l =>
    rw [State.reHold_xfer h]
    split
    · unfold State.heldNow; split <;> rfl
    · rfl

/-! ## The start of a transfer -/

theorem State.startXfer_butXfers (s : State) (e l n : Nat) (x : Xfer) : (s.startXfer e l n x).butXfers = s.butXfers
  := by
  unfold State.startXfer
  rw [State.reHold_butXfers, State.topUp_butXfers, State.setXfer_butXfers]

/-- A transfer that starts: it is ACTIVE, or HELD while its tile is not ready, and other slots keep all but their
  state. -/
theorem State.startXfer_xfer {s : State} {e l n : Nat} (h : s.slotOf e = some l) (hn : n < 6) (x : Xfer) :
    (∃ a, (s.startXfer e l n x).xfer (xk l n) =
      { x with st := if s.notReady e x then .held else .active, last := s.now, asked := a }) ∧
      ∀ k, k ≠ xk l n → { (s.startXfer e l n x).xfer k with st := (s.xfer k).st } = s.xfer k := by
  unfold State.startXfer
  generalize hu : s.setXfer (xk l n) { x with st := .active, last := s.now } = u
  have hub : (u.topUp l n).butXfers = s.butXfers := by rw [State.topUp_butXfers, ← hu]; rfl
  obtain ⟨⟨a, ha⟩, ho⟩ := u.topUp_xfer l n
  refine ⟨⟨a, ?_⟩, fun k hk => ?_⟩
  · rw [State.reHold_xfer ((State.slotOf_of_butXfers hub e).trans h), if_pos ⟨n, List.mem_range.2 hn, rfl⟩, ha, ← hu,
      State.setXfer_xfer_self, State.heldNow, if_pos (.inl rfl), hu, State.notReady_of_butXfers hub]
    rfl
  · have h1 := (u.topUp l n).reHold_xfer_st e k
    have h2 : u.xfer k = s.xfer k := by rw [← hu, State.setXfer_xfer, if_neg hk]
    rw [ho k hk, h2] at h1
    exact h1

/-! ## SFETCH, SSTORE and SDESC -/

theorem State.slotOf_of_butIssue {s t : State} (h : t.butIssue = s.butIssue) (e : Nat) : t.slotOf e = s.slotOf e :=
  (congrArg (fun t => State.slotOf t e) h :)
theorem State.notReady_of_butIssue {s t : State} (h : t.butIssue = s.butIssue) (e : Nat) (x : Xfer) :
    t.notReady e x = s.notReady e x := (congrArg (fun t => State.notReady t e x) h :)
theorem State.xfer_of_butIssue {s t : State} (h : t.butIssue = s.butIssue) (k : Nat) : t.xfer k = s.xfer k :=
  (congrArg (fun t => State.xfer t k) h :)
theorem State.tileB_of_butIssue {s t : State} (h : t.butIssue = s.butIssue) (k : Nat) : t.tileB k = s.tileB k :=
  (congrArg (fun t => State.tileB t k) h :)
theorem State.now_of_butIssue {s t : State} (h : t.butIssue = s.butIssue) : t.now = s.now :=
  (congrArg State.now h :)

theorem State.freeSlot_lt {s : State} {l n : Nat} (h : s.freeSlot l = some n) : n < 6 :=
  List.mem_range.1 (List.mem_of_find?_eq_some h)

theorem State.openSlot_lt {s : State} {l n : Nat} (h : s.openSlot l = some n) : n < 6 := by
  unfold State.openSlot at h
  split at h
  · cases h
  · exact State.freeSlot_lt h

theorem State.atEngine_slotOf (s : State) (e i : Nat) : (s.atEngine e).slotOf i = s.slotOf i :=
  (congrArg (fun t => State.slotOf t i) (s.atEngine_frame e) :)
theorem State.atEngine_openSlot (s : State) (e l : Nat) : (s.atEngine e).openSlot l = s.openSlot l :=
  (congrArg (fun t => State.openSlot t l) (s.atEngine_frame e) :)
theorem State.atEngine_batch (s : State) (e l : Nat) : (s.atEngine e).batch l = s.batch l :=
  (congrArg (fun t => State.batch t l) (s.atEngine_frame e) :)
theorem State.atEngine_nextId (s : State) (e : Nat) : (s.atEngine e).nextId = s.nextId :=
  (congrArg State.nextId (s.atEngine_frame e) :)

/-- The state a stream of context `c` takes its slot in: its context past the instruction, its work number taken. -/
def State.pastIssue (s : State) (c : Cx) (w : BitVec 64) : State :=
  { ((s.atEngine c.pos.key).setCtx c.key ((s.ctx c.key).past w (s.nextTurn c.pos.key))) with nextId := s.nextId + 1 }

theorem State.pastIssue_frame (s : State) (c : Cx) (w : BitVec 64) : s.issueFrame (s.pastIssue c w) c :=
  ((s.atEngine_issueFrame c).setCtx _).withNextId _

theorem State.pastIssue_ctx (s : State) (c : Cx) (w : BitVec 64) :
    (s.pastIssue c w).ctx c.key = (s.ctx c.key).past w (s.nextTurn c.pos.key) := by
  have h : ∀ u : State, ({ u with nextId := s.nextId + 1 } : State).ctx c.key = u.ctx c.key := fun _ => rfl
  exact (h _).trans (State.setCtx_ctx_self _ _ _)

/-- The transfer a stream of context `c` starts. -/
def State.streamXfer (s : State) (c : Cx) (w : BitVec 64) : Xfer :=
  { id := s.nextId, ctx := c.ctx.val, pc := (s.ctx c.key).pc, op := opc w,
    d0 := (regDesc (s.ctx c.key) (stRS w)).d0, d1 := (regDesc (s.ctx c.key) (stRS w)).d1,
    d2 := (regDesc (s.ctx c.key) (stRS w)).d2, d3 := (regDesc (s.ctx c.key) (stRS w)).d3 }

theorem State.issueStream_issues {s : State} {c : Cx} {w : BitVec 64} {store : Bool} {l n : Nat}
    (h : s.issues c w (legalStream w)) (hb : ∀ k, (s.eng c.pos.key).scalarBusy c.ctx.val k = false)
    (hv : (regDesc (s.ctx c.key) (stRS w)).valid = true) (hs : (regDesc (s.ctx c.key) (stRS w)).store = store)
    (hl : s.slotOf c.pos.key = some l) (hn : s.openSlot l = some n) :
    s.issueStream c w store = (s.pastIssue c w).startXfer c.pos.key l n (s.streamXfer c w) := by
  unfold State.issueStream
  dsimp only
  rw [State.atIssue_of_issues _ _ _ _ _ h, State.atEngine_scalarHeld hb, State.atEngine_slotOf, hl]
  dsimp only
  rw [State.atEngine_openSlot, hn, hv, hs, State.atEngine_nextTurn, State.atEngine_nextId, bne_self_eq_false]
  rfl

theorem extBit_of_legalStream {w : BitVec 64} (h : legalStream w = true) : extBit w = false := by
  simp_all [legalStream]

/-- What a stream's issue leaves, whichever its direction. -/
theorem State.issueStream_effect {s : State} {c : Cx} {w : BitVec 64} {store : Bool} {l n : Nat}
    (h : s.issues c w (legalStream w)) (hb : ∀ k, (s.eng c.pos.key).scalarBusy c.ctx.val k = false)
    (hv : (regDesc (s.ctx c.key) (stRS w)).valid = true) (hs : (regDesc (s.ctx c.key) (stRS w)).store = store)
    (hl : s.slotOf c.pos.key = some l) (hn : s.openSlot l = some n) :
    let t := s.issueStream c w store
    let x := t.xfer (6 * l + n)
    x.st = (if s.notReady c.pos.key x then .held else .active) ∧ x.id = s.nextId ∧ x.ctx = c.ctx.val ∧
      x.unit = 0 ∧ x.desc = regDesc (s.ctx c.key) (stRS w) ∧ x.last = s.now ∧
      t.nextId = s.nextId + 1 ∧ (t.ctx c.key).pc = (s.ctx c.key).pc + 1 ∧ (t.ctx c.key).st = .run ∧
      (∀ k, k ≠ 6 * l + n → { t.xfer k with st := (s.xfer k).st } = s.xfer k) ∧ (∀ a, t.byte a = s.byte a) ∧
      ∀ k, t.tileB k = s.tileB k := by
  dsimp only
  rw [State.issueStream_issues h hb hv hs hl hn]
  obtain ⟨hf, -, -, hbyte⟩ := s.pastIssue_frame c w
  have hl' := (State.slotOf_of_butIssue hf c.pos.key).trans hl
  have hready := State.notReady_of_butIssue hf c.pos.key
  have hxf := State.xfer_of_butIssue hf
  have htile := State.tileB_of_butIssue hf
  have hctx := s.pastIssue_ctx c w
  have hnow := State.now_of_butIssue hf
  obtain ⟨⟨a, ha⟩, ho⟩ := State.startXfer_xfer hl' (State.openSlot_lt hn) (s.streamXfer c w)
  have hbx := (s.pastIssue c w).startXfer_butXfers c.pos.key l n (s.streamXfer c w)
  rw [hready, hnow] at ha
  have hpc : (s.ctx c.key).pc + wordsOf w = (s.ctx c.key).pc + 1 :=
    congrArg _ (wordsOf_eq_one (extBit_of_legalStream h.2.2.1))
  have hid := State.nextId_of_butXfers hbx
  have hctx' := (State.ctx_of_butXfers hbx c.key).trans hctx
  have hb' := fun a => (State.byte_of_butXfers hbx a).trans (hbyte a)
  have ht' := fun k => (State.tileB_of_butXfers hbx k).trans (htile k)
  have ho' : ∀ k, k ≠ 6 * l + n → { ((s.pastIssue c w).startXfer c.pos.key l n (s.streamXfer c w)).xfer k with
      st := (s.xfer k).st } = s.xfer k := fun k hk => by rw [← hxf k]; exact ho k hk
  generalize (s.pastIssue c w).startXfer c.pos.key l n (s.streamXfer c w) = t at *
  rw [hctx', show 6 * l + n = xk l n from rfl, ha, State.notReady_with' s]
  exact ⟨rfl, rfl, rfl, rfl, rfl, rfl, hid, hpc, rfl, ho', hb', ht'⟩

/-- The batch that an SDESC of context `c` adds. -/
def State.newBatch (s : State) (c : Cx) (w x : BitVec 64) : Batch :=
  { id := s.nextId, ctx := c.ctx.val, pc := (s.ctx c.key).pc, addr := x, count := sdCOUNT w }

theorem execSdesc_issues {s : State} {c : Cx} {w : BitVec 56} {x : BitVec 64} {l : Nat}
    (h : s.issues c (0xB2#8 ++ w) (legalSDESC (0xB2#8 ++ w) x && s.own (pkgOf x))) (hl : s.slotOf c.pos.key = some l)
    (hb : (s.batch l).length < 2) :
    exec (.sdesc c w x) s =
      .next { ((s.pastIssue c (0xB2#8 ++ w)).setBatch l (s.batch l ++ [s.newBatch c (0xB2#8 ++ w) x])) with
        nextId := s.nextId + 1 } := by
  refine congrArg Host.Outcome.next ((State.atIssue_of_issues _ _ _ _ _ h).trans ?_)
  dsimp only
  rw [State.atEngine_slotOf, hl]
  dsimp only
  rw [State.atEngine_batch, if_neg (by omega), State.atEngine_nextTurn, State.atEngine_nextId]
  rfl

theorem State.issueFrame.withBatches {s u : State} {c : Cx} (h : s.issueFrame u c) :
    s.issueFrame { u with batches := s.batches } c := by
  obtain ⟨hb, hc, he, -⟩ := h
  exact State.issueFrame_of (congrArg (fun t : State => { t with batches := s.batches }) hb :) hc he

/-- Settles O18: both directions of a stream start by one rule, and SDESC adds its batch. -/
theorem streamsStart : Obligations.StreamsStart := by
  intro c w s l hl hb
  refine ⟨fun r hr h hv hs n hn => ?_, fun x h hlen => ⟨_, execSdesc_issues h hl hlen, ?_⟩⟩
  · have key : exec r.1 s = .next (s.issueStream c (r.2.1 ++ w) r.2.2) := by
      simp only [List.mem_cons, List.not_mem_nil, or_false] at hr
      rcases hr with rfl | rfl <;> rfl
    exact ⟨_, key, State.issueStream_effect h hb hv hs hl hn⟩
  · have h2 : wordsOf (0xB2#8 ++ w) = 2 := if_pos (by have := h.2.2.1; simp_all [legalSDESC])
    have hc := s.pastIssue_ctx c (0xB2#8 ++ w)
    have hf := s.pastIssue_frame c (0xB2#8 ++ w)
    generalize s.pastIssue c (0xB2#8 ++ w) = u at *
    refine ⟨State.setBatch_batch_self _ _ _, rfl, ?_, hf.withBatches.withNextId _⟩
    exact (congrArg Ctx.pc hc).trans (congrArg _ h2)

end Sys2Proof.Machine
end

section
/-! SUPPORT. Contexts that resume, batches of descriptors, and the statements about them. -/
namespace Sys2Proof.Machine

/-! ## Contexts that resume -/

/-- A context after contexts of its engine may have resumed: as it was, or resumed. -/
def Ctx.mayResume (x y : Ctx) : Prop := y = x ∨ y = x.resume

theorem Ctx.resume_resume (x : Ctx) : x.resume.resume = x.resume := rfl

theorem Ctx.mayResume.trans {x y z : Ctx} (h1 : x.mayResume y) (h2 : y.mayResume z) : x.mayResume z := by
  rcases h1 with rfl | rfl
  · exact h2
  · rcases h2 with rfl | rfl
    · exact .inr rfl
    · exact .inr (Ctx.resume_resume x)

theorem Ctx.mayResume.code {x y : Ctx} (h : x.mayResume y) : y.code = x.code := by rcases h with rfl | rfl <;> rfl
theorem Ctx.mayResume.stopped {x y : Ctx} (h : x.mayResume y) : y.stopped = x.stopped := by
  rcases h with rfl | rfl <;> rfl
theorem Ctx.mayResume.s {x y : Ctx} (h : x.mayResume y) (r : Nat) : y.s r = x.s r := by rcases h with rfl | rfl <;> rfl
theorem Ctx.mayResume.pc {x y : Ctx} (h : x.mayResume y) : y.pc = x.pc := by rcases h with rfl | rfl <;> rfl

theorem State.batch_of_butWaits {s t : State} (h : t.butWaits = s.butWaits) (l : Nat) : t.batch l = s.batch l :=
  (congrArg (fun t => State.batch t l) h :)
theorem State.xfer_of_butWaits {s t : State} (h : t.butWaits = s.butWaits) (k : Nat) : t.xfer k = s.xfer k :=
  (congrArg (fun t => State.xfer t k) h :)
theorem State.tileB_of_butWaits {s t : State} (h : t.butWaits = s.butWaits) (k : Nat) : t.tileB k = s.tileB k :=
  (congrArg (fun t => State.tileB t k) h :)

theorem State.wake_spec (s : State) (e why : Nat) :
    (s.wake e why).butWaits = s.butWaits ∧ ∀ i, (s.ctx i).mayResume ((s.wake e why).ctx i) := by
  unfold State.wake
  generalize [0, 1, 2, 3] = ks
  induction ks generalizing s with
  | nil => exact ⟨rfl, fun i => .inl rfl⟩
  | cons k ks ih =>
    rw [List.foldl_cons]
    dsimp only
    obtain ⟨hb, hc⟩ := ih (if (s.ctx (4 * e + k)).st = .wait ∧ (s.ctx (4 * e + k)).why = why then
      s.endWait e k Ctx.resume else s)
    refine ⟨hb.trans ?_, fun i => Ctx.mayResume.trans ?_ (hc i)⟩
    · split
      · exact s.endWait_frame e k _
      · rfl
    · split
      · rw [State.endWait_ctx]
        split
        · exact .inr rfl
        · exact .inl rfl
      · exact .inl rfl

theorem State.offer_spec (s : State) (e l : Nat) :
    (s.offer e l).butWaits = s.butWaits ∧ ∀ i, (s.ctx i).mayResume ((s.offer e l).ctx i) := by
  unfold State.offer
  split
  · exact s.wake_spec e 3
  · exact ⟨rfl, fun i => .inl rfl⟩

/-! ## Batches -/

/-- Sweeping drops the batches that are over, and contexts may resume. -/
theorem State.sweep_batch (s : State) (e l : Nat) : (s.sweep e l).batch l = (s.batch l).filter fun b => !b.over := by
  unfold State.sweep
  dsimp only
  split
  · next h => exact (List.filter_eq_self.2 (List.length_filter_eq_length_iff.1 h)).symm
  · rw [State.batch_of_butWaits (State.offer_spec _ _ _).1, State.batch_of_butWaits (State.wake_spec _ _ _).1,
      State.setBatch_batch_self]

theorem State.sweep_ctx (s : State) (e l i : Nat) : (s.ctx i).mayResume ((s.sweep e l).ctx i) := by
  unfold State.sweep
  dsimp only
  split
  · exact .inl rfl
  · exact ((State.wake_spec (s.setBatch l _) e 4).2 i).trans ((State.offer_spec _ _ _).2 i)

theorem State.batch_of_butRecords {s t : State} (h : t.butRecords = s.butRecords) (l : Nat) : t.batch l = s.batch l :=
  (congrArg (fun t => State.batch t l) h :)
theorem State.ctx_of_butRecords {s t : State} (h : t.butRecords = s.butRecords) (k : Nat) : t.ctx k = s.ctx k :=
  (congrArg (fun t => State.ctx t k) h :)

theorem State.readDesc_butRecords (s : State) (e : Nat) (b : Batch) (i : Nat) :
    (s.readDesc e b i).2.butRecords = s.butRecords := by
  simp only [State.readDesc, State.readN_butRecords]

theorem State.burst_butRecords (s : State) (e : Nat) (b : Batch) (n : Nat) :
    (s.burst e b n).2.butRecords = s.butRecords := by
  induction n generalizing s b with
  | zero => rfl
  | succ n ih =>
    unfold State.burst
    have hr := s.readDesc_butRecords e b b.fetched
    generalize s.readDesc e b b.fetched = r at hr
    obtain ⟨d, u⟩ := r
    split
    · rfl
    · cases d with
      | none => exact hr
      | some d => exact (ih u _).trans hr

theorem State.prefetch_butRecords (s : State) (b : Batch) : (s.prefetch b).butRecords = s.butRecords := by
  unfold State.prefetch
  split
  · refine State.foldl_butRecords _ (fun s r => ?_) _ _
    dsimp only
    split
    · rfl
    · exact State.foldl_butRecords _ (fun s i => State.readAhead_butRecords _ _) _ _
  · rfl

/-- A batch after its burst, in the state that the burst leaves: an invalid descriptor has stopped the task. -/
def State.afterBurst (s : State) (e l i : Nat) (b : Batch) : State :=
  let s1 := (s.burst e b 16).2
  let s2 := s1.setBatch l ((s1.batch l).set i (s.burst e b 16).1)
  if (s.burst e b 16).1.bad then
    (s2.settle e).modCtx (4 * e + b.ctx) (fun x => x.complete .aborted {} causeILLEGAL b.pc 0)
  else s2

theorem State.afterBurst_batch (s : State) (e l i : Nat) (b : Batch) :
    (s.afterBurst e l i b).batch l = (s.batch l).set i (s.burst e b 16).1 := by
  have h : ∀ u : State, (u.settle e).batch l = u.batch l := fun u => (congrArg (fun t => State.batch t l)
    (u.settle_frame e) :)
  unfold State.afterBurst
  dsimp only
  rw [State.batch_of_butRecords (s.burst_butRecords e b 16)]
  split
  · rw [State.modCtx_batch_same, h, State.setBatch_batch_self]
  · rw [State.setBatch_batch_self]

theorem State.afterBurst_ctx {s : State} {e l i : Nat} {b : Batch} (h : (s.burst e b 16).1.bad = true) :
    ((s.afterBurst e l i b).ctx (4 * e + b.ctx)).code = .aborted ∧
      ((s.afterBurst e l i b).ctx (4 * e + b.ctx)).stopped = true := by
  unfold State.afterBurst
  dsimp only
  rw [if_pos h, State.modCtx_ctx_self]
  exact ⟨(Ctx.complete_code _ _ _ _ _ _).trans (Code.max_aborted _), Ctx.complete_stopped _ _ _ _ (.inr rfl)⟩

theorem execDescriptorBurstFetch_of {p : LPos} {i : Fin 2} {s : State} {e : Nat} {b : Batch}
    (he : s.engineOf p.key = some e) (hb : (s.batch p.key)[i.val]? = some b) (hbad : b.bad = false)
    (hc : b.fetched < b.count) (hr : b.ready.length < 4)
    (hm : s.memWaits (b.addr.toNat % 2 ^ 48 + 32 * b.fetched) = false)
    (hw : s.edgeWaits e true (b.addr.toNat % 2 ^ 48 + 32 * b.fetched) = false) :
    exec (.descriptorBurstFetch p i) s = .next ((((s.afterBurst e p.key i.val b).prefetch (s.burst e b 16).1).sweep e
      p.key).offer e p.key) := by
  refine congrArg Host.Outcome.next ?_
  dsimp only
  rw [he, hb]
  dsimp only
  rw [hbad, hm, hw, decide_eq_false (by omega), decide_eq_false (by omega)]
  rfl

theorem State.afterBurst_memKey (s : State) (e l i : Nat) (b : Batch) : (s.afterBurst e l i b).memKey = s.memKey := by
  unfold State.afterBurst
  dsimp only
  split <;> simp only [State.modCtx_memKey', State.settle_memKey, State.setBatch_memKey, State.burst_memKey]

/-- The transfer that a batch's next descriptor starts. -/
def Batch.nextXfer (b : Batch) (d0 d1 d2 d3 : BitVec 64) : Xfer :=
  { id := b.id, ctx := b.ctx, batch := some b.id, idx := b.started, pc := b.pc, op := 0xB2, d0 := d0, d1 := d1, d2 :=
    d2,
    d3 := d3 }

theorem execDescriptorStart_of {p : LPos} {s : State} {e n i : Nat} {b : Batch} {d0 d1 d2 d3 : BitVec 64}
    (he : s.engineOf p.key = some e) (hn : s.freeSlot p.key = some n)
    (hr : nextReady (s.batch p.key) 0 = some (i, b, d0, d1, d2, d3)) :
    exec (.descriptorStart p) s = .next (((s.setBatch p.key ((s.batch p.key).set i
      { b with ready := b.ready.drop 1, started := b.started + 1 })).startXfer e p.key n
        (b.nextXfer d0 d1 d2 d3)).offer e p.key) := by
  refine congrArg Host.Outcome.next ?_
  dsimp only
  rw [he, hn, hr]
  rfl

theorem State.batch_of_butXfers {s t : State} (h : t.butXfers = s.butXfers) (l : Nat) : t.batch l = s.batch l :=
  (congrArg (fun t => State.batch t l) h :)

/-- Settles O19: a burst ends with its batch swept, and a start takes the first ready descriptor. -/
theorem descriptorsFetchAndStart : Obligations.DescriptorsFetchAndStart := by
  intro p s
  refine ⟨fun i e b he hb hbad hc hr hm hw => ⟨_, execDescriptorBurstFetch_of he hb hbad hc hr hm hw, ?_⟩,
    fun e n i b d0 d1 d2 d3 he hl hn hr => ⟨_, execDescriptorStart_of he hn hr, ?_⟩⟩
  · have hp := (s.afterBurst e p.key i.val b).prefetch_butRecords (s.burst e b 16).1
    have hs := ((s.afterBurst e p.key i.val b).prefetch (s.burst e b 16).1).sweep_batch e p.key
    have hx := fun k => ((((s.afterBurst e p.key i.val b).prefetch (s.burst e b 16).1).sweep_ctx e p.key k).trans
      ((State.offer_spec _ e p.key).2 k))
    refine ⟨?_, fun hbad => ?_, State.byte_of_memKey ?_⟩
    · rw [State.batch_of_butWaits (State.offer_spec _ _ _).1, hs, State.batch_of_butRecords hp, State.afterBurst_batch]
    · obtain ⟨h1, h2⟩ := State.afterBurst_ctx (s := s) (e := e) (l := p.key) (i := i.val) hbad
      have := hx (4 * e + b.ctx)
      rw [State.ctx_of_butRecords hp] at this
      exact ⟨this.code.trans h1, this.stopped.trans h2⟩
    · simp only [State.offer_memKey, State.sweep_memKey, State.prefetch_memKey, State.afterBurst_memKey]
  · generalize hu : s.setBatch p.key ((s.batch p.key).set i { b with ready := b.ready.drop 1, started := b.started +
    1 }) = u
    generalize hx : b.nextXfer d0 d1 d2 d3 = x
    have hb : u.batch p.key = (s.batch p.key).set i { b with ready := b.ready.drop 1, started := b.started + 1 } := by
      rw [← hu, State.setBatch_batch_self]
    have hul : u.slotOf e = some p.key := by rw [← hl, ← hu]; rfl
    have hready : u.notReady e x = s.notReady e x := by rw [← hu]; rfl
    obtain ⟨⟨a, ha⟩, -⟩ := State.startXfer_xfer hul (State.freeSlot_lt hn) x
    have hbx := u.startXfer_butXfers e p.key n x
    have ho := ((u.startXfer e p.key n x).offer_spec e p.key).1
    have hbyte : ∀ a, u.byte a = s.byte a := fun a => by rw [← hu]; rfl
    dsimp only
    rw [State.xfer_of_butWaits ho, State.batch_of_butWaits ho, State.batch_of_butXfers hbx, hb,
      show 6 * p.key + n = xk p.key n from rfl, ha, State.notReady_with', hready]
    subst hx
    exact ⟨rfl, rfl, rfl, rfl, rfl, rfl, rfl, fun a => by rw [State.byte_of_butWaits ho, State.byte_of_butXfers hbx,
      hbyte]⟩

end Sys2Proof.Machine
end

section
/-! SUPPORT. The rows of a tile that a fetch fills, and the statements about a fetch's end and a transfer's. -/
namespace Sys2Proof.Machine

/-! ## Freed shadows -/

/-- Everything but what giving up a shadow writes: the tags, the shadows and the registers that count them. -/
def State.butShadows (s : State) : State := { s with regs := [], tags := [], shadows := [] }

theorem State.dropShadow_butShadows (s : State) (x : Shadow) (b : Bool) : (s.dropShadow x b).butShadows =
  s.butShadows := by
  have h : (s.clrShadow x).butShadows = s.butShadows := by unfold State.clrShadow; split <;> rfl
  unfold State.dropShadow State.showUsed
  generalize s.clrShadow x = u at *
  rw [← h]
  cases b <;> rfl

theorem State.freeShadow_butShadows (s : State) (l t : Nat) (half : Bool) :
    (s.freeShadow l t half).butShadows = s.butShadows := by
  unfold State.freeShadow
  split
  · exact State.dropShadow_butShadows _ _ _
  · rfl

theorem State.tileB_of_butShadows {s t : State} (h : t.butShadows = s.butShadows) (k : Nat) : t.tileB k = s.tileB k :=
  (congrArg (fun t => State.tileB t k) h :)
theorem State.xfer_of_butShadows {s t : State} (h : t.butShadows = s.butShadows) (k : Nat) : t.xfer k = s.xfer k :=
  (congrArg (fun t => State.xfer t k) h :)

/-! ## Bytes of a tile and of its side-band -/

/-- Everything but what writing a tile's words writes: its bytes, their syndromes and the tags. -/
def State.butTiles (s : State) : State := { s with tiles := [], tileEcc := [], tags := [] }

theorem State.xfer_of_butTiles {s t : State} (h : t.butTiles = s.butTiles) (k : Nat) : t.xfer k = s.xfer k :=
  (congrArg (fun t => State.xfer t k) h :)

theorem State.setTb_butTiles (s : State) (e t i v : Nat) : (s.setTb e t i v).butTiles = s.butTiles := rfl

theorem State.putTile_butTiles (s : State) (e t i : Nat) (bs : List Nat) : (s.putTile e t i bs).butTiles = s.butTiles
  := by
  induction bs generalizing s i with
  | nil => rfl
  | cons b bs ih => exact (ih _ _).trans (s.setTb_butTiles e t i b)

theorem State.setTb_tileB (s : State) (e t i v k : Nat) :
    (s.setTb e t i v).tileB k = if k = tk e t * 2048 + i then BitVec.ofNat 8 v else s.tileB k :=
  Sparse.get_set _ _ _ _ _

/-- The bytes written to a tile stand there in order, and every other byte of a tile stays. -/
theorem State.putTile_tileB (s : State) (e t i : Nat) (bs : List Nat) :
    (∀ j (h : j < bs.length), (s.putTile e t i bs).tileB (tk e t * 2048 + i + j) = BitVec.ofNat 8 bs[j]) ∧
      ∀ k, ¬ (tk e t * 2048 + i ≤ k ∧ k < tk e t * 2048 + i + bs.length) → (s.putTile e t i bs).tileB k = s.tileB k
        := by
  induction bs generalizing s i with
  | nil => exact ⟨fun j h => absurd h (Nat.not_lt_zero _), fun _ _ => rfl⟩
  | cons b bs ih =>
    obtain ⟨hin, hout⟩ := ih (s.setTb e t i b) (i + 1)
    refine ⟨fun j h => ?_, fun k hk => ?_⟩
    · cases j with
      | zero =>
        refine (hout _ (by omega)).trans ?_
        rw [State.setTb_tileB, Nat.add_zero, if_pos rfl]
        rfl
      | succ j =>
        have := hin j (Nat.lt_of_succ_lt_succ h)
        rw [show tk e t * 2048 + i + (j + 1) = tk e t * 2048 + (i + 1) + j by omega]
        exact this
    · rw [List.length_cons] at hk
      refine (hout k (by omega)).trans ?_
      rw [State.setTb_tileB, if_neg (by omega)]

/-- Everything but what writing a side-band writes. -/
def State.butSides (s : State) : State := { s with sides := [], tileEcc := [] }

theorem State.putSide_butSides (s : State) (e t i : Nat) (bs : List Nat) : (s.putSide e t i bs).butSides = s.butSides
  := by
  induction bs generalizing s i with
  | nil => rfl
  | cons b bs ih => exact (ih _ _).trans rfl

theorem State.tileB_of_butSides {s t : State} (h : t.butSides = s.butSides) (k : Nat) : t.tileB k = s.tileB k :=
  (congrArg (fun t => State.tileB t k) h :)
theorem State.xfer_of_butSides {s t : State} (h : t.butSides = s.butSides) (k : Nat) : t.xfer k = s.xfer k :=
  (congrArg (fun t => State.xfer t k) h :)
theorem State.tag_of_butSides {s t : State} (h : t.butSides = s.butSides) (k : Nat) : t.tag k = s.tag k :=
  (congrArg (fun t => State.tag t k) h :)

/-! ## A row of a tile -/

theorem State.fillRow_butTiles (s : State) (e t r j : Nat) (ws : List MWord) :
    (s.fillRow e t r j ws).butTiles = s.butTiles := by
  induction ws generalizing s j with
  | nil => rfl
  | cons w ws ih =>
    unfold State.fillRow
    rw [ih]
    split
    · exact State.putTile_butTiles _ _ _ _ _
    · exact State.putTile_butTiles _ _ _ _ _

theorem wordBytes_length (w : BitVec 32) : (wordBytes w).length = 4 := rfl

theorem wordBytes_getElem (w : BitVec 32) (i : Nat) (h : i < (wordBytes w).length) :
    (wordBytes w)[i] = w.extractLsb' (8 * i) 8 := by
  rw [wordBytes_length] at h
  interval_cases i <;> rfl

/-- The words of a row stand in the tile from word `j` on, and every other byte of a tile stays. -/
theorem State.fillRow_tileB (s : State) (e t r j : Nat) (ws : List MWord) :
    (∀ b, b < 4 * ws.length → (s.fillRow e t r j ws).tileB (tk e t * 2048 + (64 * r + 4 * j) + b) =
        (ws.getD (b / 4) poisonWord).v.extractLsb' (8 * (b % 4)) 8) ∧
      ∀ k, ¬ (tk e t * 2048 + (64 * r + 4 * j) ≤ k ∧ k < tk e t * 2048 + (64 * r + 4 * j) + 4 * ws.length) →
        (s.fillRow e t r j ws).tileB k = s.tileB k := by
  induction ws generalizing s j with
  | nil => exact ⟨fun b h => absurd h (Nat.not_lt_zero _), fun _ _ => rfl⟩
  | cons w ws ih =>
    unfold State.fillRow
    dsimp only
    generalize hu : s.putTile e t (64 * r + 4 * j) ((wordBytes w.v).map (·.toNat)) = u
    have hlen : ((wordBytes w.v).map (·.toNat)).length = 4 := rfl
    obtain ⟨pin, pout⟩ := s.putTile_tileB e t (64 * r + 4 * j) ((wordBytes w.v).map (·.toNat))
    rw [hu] at pin pout
    rw [hlen] at pout
    have hv : ∀ k, (if w.p then u.orPoison e t (1#512 <<< (16 * r + j)) else u).tileB k = u.tileB k := fun k => by
      split <;> rfl
    obtain ⟨hin, hout⟩ := ih (if w.p then u.orPoison e t (1#512 <<< (16 * r + j)) else u) (j + 1)
    rw [List.length_cons]
    refine ⟨fun b hb => ?_, fun k hk => ?_⟩
    · rcases Nat.lt_or_ge b 4 with h4 | h4
      · rw [hout _ (by omega), hv, pin b (Nat.lt_of_lt_of_eq h4 hlen.symm), List.getElem_map, wordBytes_getElem,
          show b / 4 = 0 by omega, show b % 4 = b by omega]
        exact BitVec.ofNat_toNat _ _
      · have := hin (b - 4) (by omega)
        rw [show tk e t * 2048 + (64 * r + 4 * j) + b = tk e t * 2048 + (64 * r + 4 * (j + 1)) + (b - 4) by omega, this,
          show b / 4 = (b - 4) / 4 + 1 by omega, show b % 4 = (b - 4) % 4 by omega]
        rfl
    · have hk1 : ¬ (tk e t * 2048 + (64 * r + 4 * j) ≤ k ∧ k < tk e t * 2048 + (64 * r + 4 * j) + 4) :=
        fun ⟨h1, h2⟩ => hk ⟨h1, Nat.lt_of_lt_of_le h2 (Nat.add_le_add_left (by omega) _)⟩
      rw [hout k (by omega), hv]
      exact pout k hk1

/-! ## The end of a fill -/

theorem State.endFill_spec {s : State} {e l t : Nat} {d : Desc} (hscl : d.scl = false) (hshd : d.shd = false) :
    (∀ k, (s.endFill e l t d []).tileB k = s.tileB k) ∧ (∀ k, (s.endFill e l t d []).xfer k = s.xfer k) ∧
      ((s.endFill e l t d []).tag (tk e t)).full = true ∧
      ((s.endFill e l t d []).tag (tk e t)).fmt = BitVec.ofNat 3 d.fmt := by
  unfold State.endFill
  dsimp only
  rw [hscl, hshd, if_neg Bool.false_ne_true, if_neg Bool.false_ne_true]
  have h1 := s.freeShadow_butShadows l t false
  have h2 := (s.freeShadow l t false).freeShadow_butShadows l t true
  generalize (s.freeShadow l t false).freeShadow l t true = u at *
  generalize hv : u.setTag (tk e t) { fmt := BitVec.ofNat 3 d.fmt, full := true, poison := (u.tag (tk e t)).poison } = v
  have hs := v.putSide_butSides e t 0 (defaultSide d.fmt)
  refine ⟨fun k => ?_, fun k => ?_, ?_, ?_⟩
  · rw [State.tileB_of_butSides hs, ← hv, State.setTag_tileB_same, State.tileB_of_butShadows (h2.trans h1)]
  · rw [State.xfer_of_butSides hs, ← hv, State.setTag_xfer_same, State.xfer_of_butShadows (h2.trans h1)]
  · rw [State.tag_of_butSides hs, ← hv, State.setTag_tag_self]
  · rw [State.tag_of_butSides hs, ← hv, State.setTag_tag_self]

/-! ## The last row of a single-tile fetch -/

theorem State.readGo_length (n : Nat) (s : State) (h : Bool) (src : Src) (pkg : BitVec 16) (a : Nat) :
    (s.readGo h src pkg a n).1.length = n := by
  induction n generalizing s h a with
  | zero => rfl
  | succ n ih =>
    unfold State.readGo
    exact congrArg (· + 1) (ih _ _ _)

theorem State.readN_length (s : State) (src : Src) (pkg : BitVec 16) (a n : Nat) :
    (s.readN src pkg a n).1.length = n := s.readGo_length n true src pkg a

/-- A descriptor of one tile, by rows alone: what makes its thirty-second unit its last row. -/
structure Desc.oneTile (d : Desc) : Prop where
  store : d.store = false
  lkind : d.lkind = 0
  rows : d.rows = 32
  rlog : d.rlog = 0
  tr : d.tr = false
  scl : d.scl = false
  shd : d.shd = false

theorem Desc.oneTile.per {d : Desc} (h : d.oneTile) : d.per = 32 := by simp [Desc.per, h.scl, h.shd]
theorem Desc.oneTile.units {d : Desc} (h : d.oneTile) : d.units = 32 := by
  simp [Desc.units, Desc.tiles, h.lkind, h.rows, h.per]
theorem Desc.oneTile.tileReg {d : Desc} (h : d.oneTile) : d.tileReg 0 = d.tile := by simp [Desc.tileReg]
theorem Desc.oneTile.kind {d : Desc} (h : d.oneTile) : d.kind 31 = .row 31 := by
  simp [Desc.kind, h.lkind, h.per]

theorem State.landUnit_last {s : State} {e l n : Nat} {x : Xfer} (ws : List MWord) (hd : x.desc.oneTile)
    (hu : x.unit = 31) :
    s.landUnit e l n x ws = (s.fillRow e x.desc.tile 31 0 ws).endFill e l x.desc.tile x.desc [] := by
  unfold State.landUnit
  simp only [hu, hd.kind, hd.lkind, hd.per, hd.tr]
  rw [show x.desc.tileReg (31 / 32) = x.desc.tile from hd.tileReg]
  rfl

theorem State.landUnit_spec {s : State} {e l n : Nat} {x : Xfer} {ws : List MWord} (hd : x.desc.oneTile)
    (hu : x.unit = 31) (hw : ws.length = 16) :
    (∀ b, b < 64 → (s.landUnit e l n x ws).tileB (tk e x.desc.tile * 2048 + 1984 + b) =
        (ws.getD (b / 4) poisonWord).v.extractLsb' (8 * (b % 4)) 8) ∧
      (∀ k, ¬ (tk e x.desc.tile * 2048 + 1984 ≤ k ∧ k < tk e x.desc.tile * 2048 + 1984 + 64) →
        (s.landUnit e l n x ws).tileB k = s.tileB k) ∧
      (∀ k, (s.landUnit e l n x ws).xfer k = s.xfer k) ∧
      ((s.landUnit e l n x ws).tag (tk e x.desc.tile)).full = true ∧
      ((s.landUnit e l n x ws).tag (tk e x.desc.tile)).fmt = BitVec.ofNat 3 x.desc.fmt := by
  rw [State.landUnit_last ws hd hu]
  obtain ⟨h1, h2, h3, h4⟩ := State.endFill_spec (s := s.fillRow e x.desc.tile 31 0 ws) (e := e) (l := l)
    (t := x.desc.tile) hd.scl hd.shd
  obtain ⟨hin, hout⟩ := s.fillRow_tileB e x.desc.tile 31 0 ws
  rw [hw] at hin hout
  refine ⟨fun b hb => (h1 _).trans (hin b hb), fun k hk => (h1 k).trans (hout k hk), fun k => (h2 k).trans ?_, h3, h4⟩
  exact State.xfer_of_butTiles (s.fillRow_butTiles e x.desc.tile 31 0 ws) k

/-- Progress of a slot that is not stalled moves its units on and brings it to ACTIVE or HELD. -/
theorem State.progress_of {s : State} {e l n k : Nat} (h : (s.xfer (xk l n)).st ≠ .stalled) :
    s.progress e l n k = (s.setXfer (xk l n) { s.xfer (xk l n) with
      st := .active, unit := (s.xfer (xk l n)).unit + k, last := s.now, starved := false }).reHold e := by
  unfold State.progress
  dsimp only
  rw [if_neg h]

theorem State.progress_butXfers {s : State} {e l n k : Nat} (h : (s.xfer (xk l n)).st ≠ .stalled) :
    (s.progress e l n k).butXfers = s.butXfers := by
  rw [State.progress_of h, State.reHold_butXfers, State.setXfer_butXfers]

/-- A slot that has moved every unit waits for no tile. -/
theorem State.notReady_of_total {s : State} {x : Xfer} (e : Nat) (h : x.total ≤ x.unit) : s.notReady e x = false := by
  unfold State.notReady
  dsimp only
  rw [decide_eq_false (by omega), Bool.and_false, Bool.false_and]

theorem State.reHold_xfer_of_total {s : State} {e k : Nat} (h : (s.xfer k).total ≤ (s.xfer k).unit)
    (ha : (s.xfer k).st = .active) : (s.reHold e).xfer k = s.xfer k := by
  cases hl : s.slotOf e with
  | none => simp only [State.reHold, hl]
  | some l =>
    rw [State.reHold_xfer hl]
    split
    · unfold State.heldNow
      rw [if_pos (.inl ha), State.notReady_of_total e h, ← ha]
      rfl
    · rfl

theorem Xfer.at_of_none {x : Xfer} (h : x.acc = none) (i : Nat) : x.at i = x.gaddr i := by
  unfold Xfer.at; rw [h]; rfl

theorem Xfer.total_of_none {x : Xfer} (h : x.acc = none) : x.total = x.desc.units := by
  unfold Xfer.total; rw [h]; rfl

theorem State.nextWords_of_local {s : State} {x : Xfer} (e : Nat) (h : s.local x = true) (ha : x.acc = none) :
    s.nextWords e x =
      (some (s.readN (s.engSrc e x.ctx x.op x.pc) (pkgOf (x.gaddr x.unit)) ((x.gaddr x.unit).toNat % 2 ^ 48) 16).1,
       (s.readN (s.engSrc e x.ctx x.op x.pc) (pkgOf (x.gaddr x.unit)) ((x.gaddr x.unit).toNat % 2 ^ 48) 16).2) := by
  unfold State.nextWords
  dsimp only
  rw [if_pos h, Xfer.at_of_none ha]

/-- The last unit of a single-tile fetch, once its words have come. -/
theorem State.fetchUnit_last {s : State} {e l n : Nat} (hd : (s.xfer (xk l n)).desc.oneTile)
    (hu : (s.xfer (xk l n)).unit = 31) (ha : (s.xfer (xk l n)).acc = none) (hloc : s.local (s.xfer (xk l n)) = true) :
    let x := s.xfer (xk l n)
    let r := s.readN (s.engSrc e x.ctx x.op x.pc) (pkgOf (x.gaddr 31)) ((x.gaddr 31).toNat % 2 ^ 48) 16
    s.fetchUnit e l n = (((r.2.setXfer (xk l n) { x with inbox := without x.inbox 31 }).landUnit e l n
      { x with inbox := without x.inbox 31 } r.1).progress e l n 1).topUp l n := by
  unfold State.fetchUnit
  dsimp only
  rw [State.nextWords_of_local e hloc ha, hu, if_neg (by rw [hd.per]; omega)]

theorem State.tileB_of_butRecords {s t : State} (h : t.butRecords = s.butRecords) (k : Nat) : t.tileB k = s.tileB k :=
  (congrArg (fun t => State.tileB t k) h :)

/-- The slot, the tile and its tag after the last unit of a single-tile fetch. -/
theorem State.fetchUnit_spec {s : State} {e l n : Nat} (hd : (s.xfer (xk l n)).desc.oneTile)
    (hu : (s.xfer (xk l n)).unit = 31) (ha : (s.xfer (xk l n)).acc = none) (hloc : s.local (s.xfer (xk l n)) = true)
    (hst : (s.xfer (xk l n)).st ≠ .stalled) :
    let x := s.xfer (xk l n)
    let ws := (s.readN (s.engSrc e x.ctx x.op x.pc) (pkgOf (x.gaddr 31)) ((x.gaddr 31).toNat % 2 ^ 48) 16).1
    let t := s.fetchUnit e l n
    (t.xfer (xk l n)).unit = 32 ∧ (t.xfer (xk l n)).st = .active ∧
      (t.xfer (xk l n)).total ≤ (t.xfer (xk l n)).unit ∧
      (∀ b, b < 64 → t.tileB (tk e x.desc.tile * 2048 + 1984 + b) =
        (ws.getD (b / 4) poisonWord).v.extractLsb' (8 * (b % 4)) 8) ∧
      (∀ k, ¬ (tk e x.desc.tile * 2048 + 1984 ≤ k ∧ k < tk e x.desc.tile * 2048 + 1984 + 64) → t.tileB k = s.tileB k) ∧
      (t.tag (tk e x.desc.tile)).full = true ∧ (t.tag (tk e x.desc.tile)).fmt = BitVec.ofNat 3 x.desc.fmt := by
  dsimp only
  rw [State.fetchUnit_last hd hu ha hloc]
  have hr := s.readN_butRecords (s.engSrc e (s.xfer (xk l n)).ctx (s.xfer (xk l n)).op (s.xfer (xk l n)).pc)
    (pkgOf ((s.xfer (xk l n)).gaddr 31)) (((s.xfer (xk l n)).gaddr 31).toNat % 2 ^ 48) 16
  have hlen := s.readN_length (s.engSrc e (s.xfer (xk l n)).ctx (s.xfer (xk l n)).op (s.xfer (xk l n)).pc)
    (pkgOf ((s.xfer (xk l n)).gaddr 31)) (((s.xfer (xk l n)).gaddr 31).toNat % 2 ^ 48) 16
  generalize s.readN _ _ _ 16 = r at hr hlen
  generalize hx : ({ s.xfer (xk l n) with inbox := without (s.xfer (xk l n)).inbox 31 } : Xfer) = x
  have hxd : x.desc = (s.xfer (xk l n)).desc := by rw [← hx]; rfl
  have hxu : x.unit = 31 := by rw [← hx]; exact hu
  have hxt : x.total = 32 := by
    rw [← hx]; exact (Xfer.total_of_none ha).trans hd.units
  have hxs : x.st ≠ .stalled := by rw [← hx]; exact hst
  rw [← hxd] at hd ⊢
  obtain ⟨hin, hout, hxf, hfull, hfmt⟩ := State.landUnit_spec (s := r.2.setXfer (xk l n) x) (e := e) (l := l) (n := n)
    hd hxu hlen
  generalize (r.2.setXfer (xk l n) x).landUnit e l n x r.1 = u at *
  have hux : u.xfer (xk l n) = x := by rw [hxf, State.setXfer_xfer_self]
  have hpx : ((u.progress e l n 1).xfer (xk l n)) = { x with st := .active, unit := 32, last := u.now, starved :=
    false } := by
    rw [State.progress_of (by rw [hux]; exact hxs), hux, hxu, State.reHold_xfer_of_total] <;> rw
      [State.setXfer_xfer_self]
    exact hxt.le
  have hpb : (u.progress e l n 1).butXfers = u.butXfers := State.progress_butXfers (by rw [hux]; exact hxs)
  obtain ⟨⟨a, hta⟩, -⟩ := (u.progress e l n 1).topUp_xfer l n
  have htb := ((u.progress e l n 1).topUp_butXfers l n).trans hpb
  rw [hpx] at hta
  rw [hta]
  refine ⟨rfl, rfl, hxt.le, fun b hb => ?_, fun k hk => ?_, ?_, ?_⟩
  · rw [State.tileB_of_butXfers htb, hin b hb]
  · rw [State.tileB_of_butXfers htb, hout k hk, State.setXfer_tileB_same, State.tileB_of_butRecords hr]
  · rw [State.tag_of_butXfers htb, hfull]
  · rw [State.tag_of_butXfers htb, hfmt]

/-- A slot of which a unit has moved, with what no path would add. -/
theorem State.noPath_butWaits (s : State) (e : Nat) (x : Xfer) : (s.noPath e x).butWaits = s.butWaits := by
  unfold State.noPath
  split <;> rfl

theorem State.tag_of_butWaits {s t : State} (h : t.butWaits = s.butWaits) (k : Nat) : t.tag k = s.tag k :=
  (congrArg (fun t => State.tag t k) h :)

theorem State.oneUnit_of_fetch {s : State} {l n e : Nat} (he : s.engineOf l = some e)
    (hst : (s.xfer (xk l n)).st ≠ .free) (ht : (s.xfer (xk l n)).unit < (s.xfer (xk l n)).total)
    (hw : s.unitWaits e l (s.xfer (xk l n)) = false) (ha : (s.xfer (xk l n)).acc = none)
    (hd : (s.xfer (xk l n)).desc.store = false)
    (hu : ((s.fetchUnit e l n).xfer (xk l n)).unit ≠ (s.xfer (xk l n)).unit) :
    s.oneUnit l n = (s.fetchUnit e l n).noPath e (s.xfer (xk l n)) := by
  unfold State.oneUnit
  dsimp only
  rw [he]
  dsimp only
  rw [if_neg (by rintro (h | h | h); exacts [hst h, absurd h (by omega), by simp [hw] at h]), ha, hd]
  exact if_neg hu

theorem State.fillTile_of_total {s : State} {l n fuel : Nat}
    (h : ((s.oneUnit l n).xfer (xk l n)).total ≤ ((s.oneUnit l n).xfer (xk l n)).unit) :
    s.fillTile l n (fuel + 1) = s.oneUnit l n := by
  unfold State.fillTile
  exact if_pos (.inr (.inl h))

/-- Settles O20: the last unit of a single-tile fetch, by its arrival or by the fill of its tile. -/
theorem fetchFillsTile : Obligations.FetchFillsTile := by
  intro p n s e he
  dsimp only
  intro hst hns ha hstore hk hrows hrlog htr hscl hshd hu hloc hw i hi
  have hd : (s.xfer (xk p.key n.val)).desc.oneTile := ⟨hstore, hk, hrows, hrlog, htr, hscl, hshd⟩
  have htot : (s.xfer (xk p.key n.val)).total = 32 := (Xfer.total_of_none ha).trans hd.units
  obtain ⟨h1, h2, h3, h4, h5, h6, h7⟩ := State.fetchUnit_spec (e := e) hd hu ha hloc hns
  have hone := State.oneUnit_of_fetch he hst (by rw [htot]; exact hu ▸ (by decide)) hw ha hstore
    (by rw [h1]; exact hu ▸ (by decide))
  have hf := (s.fetchUnit e p.key n.val).noPath_butWaits e (s.xfer (xk p.key n.val))
  have hmem : (s.oneUnit p.key n.val).memKey = s.memKey := by
    rw [hone, State.noPath_memKey, State.fetchUnit_memKey]
  rw [← hone] at hf
  rw [← State.xfer_of_butWaits hf] at h1 h2 h3
  have hrun : exec i s = .next (s.oneUnit p.key n.val) := by
    simp only [List.mem_cons, List.not_mem_nil, or_false] at hi
    rcases hi with rfl | rfl
    · rfl
    · refine congrArg Host.Outcome.next ((if_neg ?_).trans ?_)
      · rintro (h | h | h | h)
        · exact hst h
        · rw [show (s.xfer (xk p.key n.val)).acc = none from ha] at h; cases h
        · rw [show (s.xfer (xk p.key n.val)).desc.store = false from hstore] at h; cases h
        · rw [show (s.xfer (xk p.key n.val)).desc.lkind = 0 from hk] at h; cases h
      · rw [hd.per]; exact State.fillTile_of_total h3
  refine ⟨_, hrun, h1, h2, fun b hb => ?_, fun k hk => ?_, ?_, ?_, State.byte_of_memKey hmem⟩
  · rw [State.tileB_of_butWaits hf]; exact h4 b hb
  · rw [State.tileB_of_butWaits hf]; exact h5 k (fun h => hk ⟨h.1, by have := h.2; unfold tk xk at this; omega⟩)
  · rw [State.tag_of_butWaits hf]; exact h6
  · rw [State.tag_of_butWaits hf]; exact h7

/-! ## The end of a transfer -/

theorem State.waiters_of_butWaits {s t : State} (h : t.butWaits = s.butWaits) (k : Nat) : t.waiters k = s.waiters k :=
  (congrArg (fun t => State.waiters t k) h :)

/-- A signal to a semaphore with no waiter moves no transfer slot, no tile and no byte of memory. -/
theorem State.signal_xfer {s : State} {u k n who : Nat} (h : s.waiters (semKey u k) = []) (i : Nat) :
    (s.signal u k n who).xfer i = s.xfer i := (congrArg (fun t => State.xfer t i) (State.signal_frame h) :)
theorem State.signal_tileB {s : State} {u k n who : Nat} (h : s.waiters (semKey u k) = []) (i : Nat) :
    (s.signal u k n who).tileB i = s.tileB i := (congrArg (fun t => State.tileB t i) (State.signal_frame h) :)
theorem State.signal_byte {s : State} {u k n who : Nat} (h : s.waiters (semKey u k) = []) (a : Nat) :
    (s.signal u k n who).byte a = s.byte a := (congrArg (fun t => State.byte t a) (State.signal_frame h) :)

theorem State.freeXfer_spec (s : State) (e l n : Nat) :
    (s.freeXfer e l n).butWaits = (s.setXfer (xk l n) {}).butWaits := (State.offer_spec _ _ _).1

theorem execTransferComplete_of {p : LPos} {n : Fin 6} {s : State} {e : Nat} (he : s.engineOf p.key = some e)
    (hst : (s.xfer (xk p.key n.val)).st ≠ .free) (ha : (s.xfer (xk p.key n.val)).acc = none)
    (hu : (s.xfer (xk p.key n.val)).total ≤ (s.xfer (xk p.key n.val)).unit)
    (hb : (s.xfer (xk p.key n.val)).batch = none)
    (hr : ∀ r ∈ s.rtx, ¬ (r.id = (s.xfer (xk p.key n.val)).id ∧ r.l = p.key ∧ r.slot = n.val)) :
    exec (.transferComplete p n) s = .next (
      if (s.xfer (xk p.key n.val)).desc.sig && !(s.xfer (xk p.key n.val)).dropping then
        (s.freeXfer e p.key n.val).signal (e / 17) (s.xfer (xk p.key n.val)).desc.sem 1 0
      else s.freeXfer e p.key n.val) := by
  have h0 : (decide ((s.xfer (xk p.key n.val)).st = .free) || (s.xfer (xk p.key n.val)).acc.isSome ||
      decide ((s.xfer (xk p.key n.val)).unit < (s.xfer (xk p.key n.val)).total) ||
      s.rtx.any (fun r => r.id == (s.xfer (xk p.key n.val)).id && r.l == p.key && r.slot == n.val)) = false := by
    rw [decide_eq_false hst, ha, decide_eq_false (by omega)]
    simp only [Option.isSome_none, Bool.or_self, Bool.false_or, List.any_eq_false, Bool.and_eq_true, beq_iff_eq,
      not_and]
    exact fun r hm h1 h2 => hr r hm ⟨h1.1, h1.2, h2⟩
  refine congrArg Host.Outcome.next ?_
  dsimp only
  rw [he]
  dsimp only
  rw [h0, hb, if_neg Bool.false_ne_true]

/-- Settles O21: the slot frees, and a transfer with SIG signals. -/
theorem transferCompletes : Obligations.TransferCompletes := by
  intro p n s e he
  dsimp only
  intro hst ha hu hb hr hw
  refine ⟨_, execTransferComplete_of he hst ha hu hb hr, ?_⟩
  have hf := s.freeXfer_spec e p.key n.val
  generalize s.freeXfer e p.key n.val = u at *
  rw [show 6 * p.key + n.val = xk p.key n.val from rfl] at *
  generalize s.xfer (xk p.key n.val) = x at *
  have hux := State.xfer_of_butWaits hf
  have hut := State.tileB_of_butWaits hf
  have hur := State.reg_of_butWaits hf
  have hub := State.byte_of_butWaits hf
  have huw : u.waiters (semKey (e / 17) x.desc.sem) = [] := (State.waiters_of_butWaits hf _).trans hw
  have hself : (u.xfer (xk p.key n.val)).st = .free := by rw [hux, State.setXfer_xfer_self]
  have hother : ∀ k, k ≠ xk p.key n.val → u.xfer k = s.xfer k := fun k hk => by
    rw [hux, State.setXfer_xfer, if_neg hk]
  dsimp only
  split
  · next hsig =>
    rw [Bool.and_eq_true] at hsig
    refine ⟨?_, fun k hk => ?_, fun _ _ => ?_, fun h => absurd (hsig.1.symm.trans h) (by decide), fun k => ?_, fun a
      => ?_⟩
    · rw [State.signal_xfer huw, hself]
    · rw [State.signal_xfer huw, hother k hk]
    · rw [State.signal_value huw, State.fget_of_reg (hur _)]; rfl
    · rw [State.signal_tileB huw, hut]; rfl
    · rw [State.signal_byte huw, hub]; rfl
  · next hsig =>
    exact ⟨hself, hother, fun h1 h2 => absurd (by rw [h1, h2]; rfl) hsig, fun _ k => hur k, fun k => hut k, fun a =>
      hub a⟩

end Sys2Proof.Machine
end

section
/-! SUPPORT. Pace: the ceilings shown, parking, PACE_N and the thermal loop (R284, R296, R299 to R302). -/
namespace Sys2Proof.Machine

/-! ## What registers and power alone may change -/

/-- Everything but the registers. -/
def State.butRegs (s : State) : State := { s with regs := [] }

theorem State.frame_of_butRegs {s t : State} (h : t.butRegs = s.butRegs) : { t with regs := s.regs } = s :=
  (congrArg (fun u : State => { u with regs := s.regs }) h :)

@[simp] theorem State.fset_butRegs (s : State) (f : Fld) (v : Nat) : (s.fset f v).butRegs = s.butRegs := rfl
@[simp] theorem State.setReg_butRegs (s : State) (k : Nat) (v : BitVec 32) : (s.setReg k v).butRegs = s.butRegs := rfl
@[simp] theorem State.fsat_butRegs (s : State) (f : Fld) (n : Nat) : (s.fsat f n).butRegs = s.butRegs := rfl
@[simp] theorem State.setFlag_butRegs (s : State) (f : Fld) (b : Bool) : (s.setFlag f b).butRegs = s.butRegs := rfl
@[simp] theorem State.rePace_butRegs (s : State) : s.rePace.butRegs = s.butRegs := by simp [State.rePace]

/-- Everything but the registers and the power state. -/
def State.butPower (s : State) : State := { s with regs := [], power := {} }

theorem State.frame_of_butPower {s t : State} (h : t.butPower = s.butPower) :
    { t with regs := s.regs, power := s.power } = s :=
  (congrArg (fun u : State => { u with regs := s.regs, power := s.power }) h :)

@[simp] theorem State.fset_butPower (s : State) (f : Fld) (v : Nat) : (s.fset f v).butPower = s.butPower := rfl
@[simp] theorem State.setReg_butPower (s : State) (k : Nat) (v : BitVec 32) : (s.setReg k v).butPower = s.butPower :=
  rfl
@[simp] theorem State.fsat_butPower (s : State) (f : Fld) (n : Nat) : (s.fsat f n).butPower = s.butPower := rfl
@[simp] theorem State.setFlag_butPower (s : State) (f : Fld) (b : Bool) : (s.setFlag f b).butPower = s.butPower := rfl
@[simp] theorem State.modPower_butPower (s : State) (f : Power → Power) : (s.modPower f).butPower = s.butPower := rfl
@[simp] theorem State.rePace_butPower (s : State) : s.rePace.butPower = s.butPower := by simp [State.rePace]
@[simp] theorem State.boardWarn_butPower (s : State) : s.boardWarn.butPower = s.butPower := by simp [State.boardWarn]
@[simp] theorem State.paceFall_butPower (s : State) : s.paceFall.butPower = s.butPower := by simp [State.paceFall]

/-! ## What showing the ceilings and parking change -/

/-- A field that showing the ceilings and the step in force does not write. -/
def Fld.paceFree (g : Fld) : Bool :=
  F.DIA_PACE_MCEIL.apart g && F.DIA_PACE_DROOP.apart g && F.DIA_PACE_STEP.apart g && F.DIA_STATUS_CAUSE.apart g

theorem State.rePace_fget (s : State) {g : Fld} (h : g.paceFree = true) : s.rePace.fget g = s.fget g := by
  simp only [Fld.paceFree, Bool.and_eq_true] at h
  obtain ⟨⟨⟨h1, h2⟩, h3⟩, h4⟩ := h
  simp only [State.rePace, State.fset_fget_apart _ _ _ _ h1, State.fset_fget_apart _ _ _ _ h2,
    State.fset_fget_apart _ _ _ _ h3, State.fset_fget_apart _ _ _ _ h4]

theorem State.rePace_droop (s : State) (h : s.power.droopP ≤ 15) (h2 : s.power.droopL2 ≤ 15) :
    s.rePace.fget F.DIA_PACE_DROOP = max s.power.droopP s.power.droopL2 := by
  simp only [State.rePace]
  rw [State.fset_fget_apart _ _ _ _ rfl, State.fset_fget_apart _ _ _ _ rfl, State.fset_fget _ _ _ rfl]
  exact Nat.mod_eq_of_lt (by simp only [Fld.width, F.DIA_PACE_DROOP]; omega)

@[simp] theorem State.rePace_power (s : State) : s.rePace.power = s.power := rfl

/-- Showing the ceilings writes registers alone. -/
theorem State.rePace_frame (s : State) (r : List (Nat × BitVec 32)) : { s.rePace with regs := r } = { s with regs :=
  r } := rfl

theorem State.regs_of_butEngines {s t : State} (h : t.butEngines = s.butEngines) : t.regs = s.regs :=
  (congrArg State.regs h :)
theorem State.power_of_butEngines {s t : State} (h : t.butEngines = s.butEngines) : t.power = s.power :=
  (congrArg State.power h :)

theorem State.settleSlot_frame (s : State) (i : Nat) : (s.settleSlot i).butEngines = s.butEngines := by
  unfold State.settleSlot
  refine List.foldlRecOn (motive := fun t : State => t.butEngines = s.butEngines) _ _ rfl fun t ht u _ => ?_
  split
  · exact (t.settle_frame _).trans ht
  · exact ht

theorem State.foldl_settleSlot_frame (s : State) (is : List Nat) :
    (is.foldl State.settleSlot s).butEngines = s.butEngines :=
  List.foldlRecOn (motive := fun t : State => t.butEngines = s.butEngines) _ _ rfl
    fun t ht u _ => (t.settleSlot_frame u).trans ht

theorem State.fget_of_regs {s t : State} (h : t.regs = s.regs) (g : Fld) : t.fget g = s.fget g := by
  simp only [State.fget, State.reg, h]

/-- Parking changes the number parked and what showing the ceilings changes. -/
theorem State.repark_fget (s : State) (f : Power → Power) {g : Fld} (h : g.paceFree = true)
    (hp : F.DIA_STATUS_PARKED.apart g = true) : (s.repark f).fget g = s.fget g := by
  simp only [State.repark]
  rw [State.rePace_fget _ h, State.fset_fget_apart _ _ _ _ hp]
  exact State.fget_of_regs (State.regs_of_butEngines (s.foldl_settleSlot_frame _)) g

theorem State.repark_power (s : State) (f : Power → Power) :
    ∃ a, (s.repark f).power = { f s.power with admits := a } := by
  simp only [State.repark, State.rePace_power, State.fset_power, State.modPower]
  rw [State.power_of_butEngines (s.foldl_settleSlot_frame _)]
  exact ⟨_, rfl⟩

/-! ## PACE_N -/

theorem State.paceFall_spec (s : State) (hd : s.power.droopL2 ≤ 15) :
    s.paceFall.power.paceLow = true ∧ s.paceFall.power.paceFrom = s.fget F.DIA_PACE_STEP ∧
      s.paceFall.power.droopP = min 15 (s.fget F.DIA_PACE_STEP + 2) ∧
      s.paceFall.fget F.DIA_PACE_DROOP = max (min 15 (s.fget F.DIA_PACE_STEP + 2)) s.power.droopL2 ∧
      { s.paceFall with regs := s.regs, power := s.power } = s :=
  ⟨rfl, rfl, rfl, State.rePace_droop _ (Nat.min_le_left _ _) hd, State.frame_of_butPower (by simp)⟩

theorem State.boardWarn_board (s : State) :
    s.boardWarn.fget F.DIA_PACE_BOARD = max (s.fget F.DIA_PACE_BOARD) (min 15 (s.power.paceFrom + 1)) := by
  have hlt := s.fget_lt F.DIA_PACE_BOARD
  rw [State.boardWarn, State.rePace_fget _ rfl, State.fset_fget _ _ _ rfl]
  exact Nat.mod_eq_of_lt (by simp only [Fld.width, F.DIA_PACE_BOARD] at *; omega)

theorem State.boardWarn_fget (s : State) {g : Fld} (h : g.paceFree = true) (hb : F.DIA_PACE_BOARD.apart g = true) :
    s.boardWarn.fget g = s.fget g := by
  rw [State.boardWarn, State.rePace_fget _ h, State.fset_fget_apart _ _ _ _ hb]
  rfl

/-- What the rise of PACE_N does in the class of its width. -/
theorem execPaceNRise_of {s : State} (h : s.power.paceLow = true) (ns : Nat) :
    exec (.paceNRise ns) s = .next (
      let s := s.modPower fun p => { p with paceLow := false }
      if ns < 500 then ((s.modPower fun p => { p with droopP := 0 }).fsat F.DIA_PACEN_GLITCH 1).rePace
      else if ns ≤ 5000 then s.fsat F.DIA_PACEN_DROOPS 1
      else if ns ≤ 60000 then (s.fsat F.DIA_PACEN_WARNS 1).boardWarn
      else if ns < 100000 then (s.fsat F.DIA_PACEN_INVALID 1).boardWarn
      else s) := congrArg Host.Outcome.next (if_neg (by simp [h]))

/-! ## The thermal loop -/

theorem State.fget_sub_one_lt (s : State) (g : Fld) : s.fget g - 1 < 2 ^ g.width :=
  (Nat.sub_le _ _).trans_lt (s.fget_lt g)

theorem unsigned_cast (n : Nat) (v : Int) : ((unsigned n v : Nat) : Int) = v % 2 ^ n := by
  simp only [unsigned]
  exact Int.toNat_of_nonneg (Int.emod_nonneg _ (by positivity))


/-- What a sample of a sensor that takes part does. -/
theorem execThermalSample_of {s : State} {k : BitVec 10} (he : s.excl.contains k.toNat = false)
    (hg : s.gone.contains k.toNat = false) (c : Int) : exec (.thermalSample k c) s = .next (
      let t := c + s.calUser 2 k.toNat
      let s := { s with temps := upsert s.temps k.toNat (BitVec.ofInt 16 t) }
      let s := (s.fset F.DIA_THERM_SENSOR k.toNat).fset F.DIA_THERM_TMAX (unsigned 16 t)
      if 416 ≤ t then (s.fset F.DIA_PACE_THERM 15).repark fun p => { p with parkTherm := true }
      else if t < 388 ∧ s.power.parkTherm then s.repark fun p => { p with parkTherm := false }
      else s) := by
  refine congrArg Host.Outcome.next ?_
  dsimp only
  simp only [he, hg, Bool.false_eq_true, if_false, or_self]

theorem State.sampled_spec (s : State) (k : BitVec 10) (t : Int) :
    let u := (s.fset F.DIA_THERM_SENSOR k.toNat).fset F.DIA_THERM_TMAX (unsigned 16 t)
    u.fget F.DIA_THERM_SENSOR = k.toNat ∧ (u.fget F.DIA_THERM_TMAX : Int) = t % 2 ^ 16 := by
  refine ⟨?_, ?_⟩
  · rw [State.fset_fget_apart _ _ _ _ rfl, State.fset_fget _ _ _ rfl]
    exact Nat.mod_eq_of_lt k.isLt
  · rw [State.fset_fget _ _ _ rfl, Nat.mod_eq_of_lt, unsigned_cast]
    exact (Int.toNat_lt (Int.emod_nonneg _ (by decide))).mpr (Int.emod_lt_of_pos _ (by decide))

theorem thermalSample_completes {s : State} {k : BitVec 10} (he : s.excl.contains k.toNat = false)
    (hg : s.gone.contains k.toNat = false) (c : Int) :
    Completes (.thermalSample k c) s fun t =>
      let c := c + s.calUser 2 k.toNat
      t.fget F.DIA_THERM_SENSOR = k.toNat ∧ (t.fget F.DIA_THERM_TMAX : Int) = c % 2 ^ 16 ∧
      (416 ≤ c → t.fget F.DIA_PACE_THERM = 15 ∧ t.power.parkTherm = true) ∧
      (388 ≤ c → c < 416 → t.power = s.power) ∧ (c < 388 → t.power.parkTherm = false) ∧
      ∀ a, t.byte a = s.byte a := by
  refine ⟨_, execThermalSample_of he hg c, ?_⟩
  dsimp only
  generalize c + s.calUser 2 k.toNat = t
  have hs := State.sampled_spec { s with temps := upsert s.temps k.toNat (BitVec.ofInt 16 t) } k t
  have hm : ((({ s with temps := upsert s.temps k.toNat (BitVec.ofInt 16 t) } : State).fset F.DIA_THERM_SENSOR
    k.toNat).fset
    F.DIA_THERM_TMAX (unsigned 16 t)).memKey = s.memKey := rfl
  have hp : ((({ s with temps := upsert s.temps k.toNat (BitVec.ofInt 16 t) } : State).fset F.DIA_THERM_SENSOR
    k.toNat).fset
    F.DIA_THERM_TMAX (unsigned 16 t)).power = s.power := rfl
  dsimp only at hs
  generalize ((({ s with temps := upsert s.temps k.toNat (BitVec.ofInt 16 t) } : State).fset F.DIA_THERM_SENSOR
    k.toNat).fset
    F.DIA_THERM_TMAX (unsigned 16 t)) = u at *
  by_cases h416 : 416 ≤ t
  · rw [if_pos h416]
    obtain ⟨a, ha⟩ := (u.fset F.DIA_PACE_THERM 15).repark_power fun p => { p with parkTherm := true }
    refine ⟨?_, ?_, fun _ => ⟨?_, by rw [ha]⟩, fun _ h => by omega, fun h => by omega, State.byte_of_memKey ?_⟩
    · rw [State.repark_fget _ _ rfl rfl, State.fset_fget_apart _ _ _ _ rfl, hs.1]
    · rw [State.repark_fget _ _ rfl rfl, State.fset_fget_apart _ _ _ _ rfl, hs.2]
    · rw [State.repark_fget _ _ rfl rfl, State.fset_fget _ _ _ rfl]; rfl
    · rw [State.repark_memKey]; exact hm
  · rw [if_neg h416]
    by_cases h388 : t < 388 ∧ u.power.parkTherm = true
    · rw [if_pos h388]
      obtain ⟨a, ha⟩ := u.repark_power fun p => { p with parkTherm := false }
      refine ⟨?_, ?_, fun h => absurd h h416, fun h => by omega, fun _ => by rw [ha], State.byte_of_memKey ?_⟩
      · rw [State.repark_fget _ _ rfl rfl, hs.1]
      · rw [State.repark_fget _ _ rfl rfl, hs.2]
      · rw [State.repark_memKey]; exact hm
    · rw [if_neg h388]
      exact ⟨hs.1, hs.2, fun h => absurd h h416, fun _ _ => hp, fun h => by simpa [h] using h388,
        State.byte_of_memKey hm⟩

/-- The four classes of a pulse of PACE_N. -/
theorem paceNRise_completes {s : State} (h : s.power.paceLow = true) (ns : Nat) :
    Completes (.paceNRise ns) s fun t =>
      let board := max (s.fget F.DIA_PACE_BOARD) (min 15 (s.power.paceFrom + 1))
      t.power.paceLow = false ∧
      (ns < 500 → t.power.droopP = 0 ∧ t.fget F.DIA_PACEN_GLITCH = min 0xFF (s.fget F.DIA_PACEN_GLITCH + 1)) ∧
      (500 ≤ ns → ns ≤ 5000 → t.power.droopP = s.power.droopP ∧
        t.fget F.DIA_PACEN_DROOPS = min 0xFF (s.fget F.DIA_PACEN_DROOPS + 1)) ∧
      (5000 < ns → ns ≤ 60000 → t.power.droopP = 0 ∧ t.fget F.DIA_PACE_BOARD = board ∧
        t.fget F.DIA_PACEN_WARNS = min 0xFF (s.fget F.DIA_PACEN_WARNS + 1)) ∧
      (60000 < ns → ns < 100000 → t.power.droopP = 0 ∧ t.fget F.DIA_PACE_BOARD = board ∧
        t.fget F.DIA_PACEN_INVALID = min 0xFF (s.fget F.DIA_PACEN_INVALID + 1)) ∧
      { t with regs := s.regs, power := s.power } = s := by
  refine ⟨_, execPaceNRise_of h ns, ?_⟩
  dsimp only
  by_cases h1 : ns < 500
  · rw [if_pos h1]
    refine ⟨rfl, fun _ => ⟨rfl, ?_⟩, by omega, by omega, by omega, State.frame_of_butPower (by simp)⟩
    rw [State.rePace_fget _ rfl, State.fsat_fget _ _ _ rfl]
    rfl
  · rw [if_neg h1]
    by_cases h2 : ns ≤ 5000
    · rw [if_pos h2]
      refine ⟨rfl, by omega, fun _ _ => ⟨rfl, ?_⟩, by omega, by omega, State.frame_of_butPower (by simp)⟩
      rw [State.fsat_fget _ _ _ rfl]
      rfl
    · rw [if_neg h2]
      by_cases h3 : ns ≤ 60000
      · rw [if_pos h3]
        refine ⟨rfl, by omega, by omega, fun _ _ => ⟨rfl, ?_, ?_⟩, by omega, State.frame_of_butPower (by simp)⟩
        · rw [State.boardWarn_board, State.fsat_fget_apart _ _ _ _ rfl]
          rfl
        · rw [State.boardWarn_fget _ rfl rfl, State.fsat_fget _ _ _ rfl]
          rfl
      · rw [if_neg h3]
        by_cases h4 : ns < 100000
        · rw [if_pos h4]
          refine ⟨rfl, by omega, by omega, by omega, fun _ _ => ⟨rfl, ?_, ?_⟩, State.frame_of_butPower (by simp)⟩
          · rw [State.boardWarn_board, State.fsat_fget_apart _ _ _ _ rfl]
            rfl
          · rw [State.boardWarn_fget _ rfl rfl, State.fsat_fget _ _ _ rfl]
            rfl
        · rw [if_neg h4]
          exact ⟨rfl, by omega, by omega, by omega, by omega, State.frame_of_butPower (by simp)⟩

theorem droopRelax_completes {s : State} (h : s.power.paceLow = false) :
    Completes .droopRelax s fun t =>
      t.power.droopP = s.power.droopP - 1 ∧ { t with regs := s.regs, power := s.power } = s := by
  refine ⟨(s.modPower fun p => { p with droopP := p.droopP - 1 }).rePace, ?_, ?_, State.frame_of_butPower (by simp)⟩
  · exact congrArg Host.Outcome.next (if_neg (by simp [h]))
  · rw [State.rePace_power]
    rfl

theorem paceNFall_completes {s : State} (hl : s.power.paceLow = false) (hj : s.power.judged = true)
    (hd : s.power.droopL2 ≤ 15) : Completes .paceNFall s fun t =>
      let c := s.fget F.DIA_PACE_STEP
      t.power.paceLow = true ∧ t.power.paceFrom = c ∧ t.power.droopP = min 15 (c + 2) ∧
      t.fget F.DIA_PACE_DROOP = max (min 15 (c + 2)) s.power.droopL2 ∧
      { t with regs := s.regs, power := s.power } = s := by
  refine ⟨s.paceFall, congrArg Host.Outcome.next (if_neg (by simp [hl, hj])), ?_⟩
  exact s.paceFall_spec hd

/-- Settles O45, command by command: each class of a pulse, of a sample and of a temperature is a branch of its own. -/
theorem paceAndTemperature : Obligations.PaceAndTemperature := by
  intro s
  refine ⟨fun hl hj hd => paceNFall_completes hl hj hd,
    fun ns h => paceNRise_completes h ns, fun h => droopRelax_completes h,
    ⟨_, rfl, ?_, State.frame_of_butRegs (by simp)⟩, fun k c he hg => thermalSample_completes he hg c,
    fun h => ⟨_, congrArg Host.Outcome.next (if_pos h), ?_, State.frame_of_butRegs (by simp)⟩,
    fun h hp => ⟨_, congrArg Host.Outcome.next (if_pos ⟨h, hp⟩), ?_, State.frame_of_butRegs (by simp)⟩, fun h c =>
      ⟨_, rfl, rfl, rfl⟩⟩
  · rw [State.rePace_fget _ rfl, State.fset_fget _ _ _ rfl]
    exact Nat.mod_eq_of_lt (s.fget_sub_one_lt _)
  · rw [State.rePace_fget _ rfl, State.fset_fget _ _ _ rfl]
    exact Nat.mod_eq_of_lt (by simp only [Fld.width, F.DIA_PACE_THERM]; omega)
  · rw [State.rePace_fget _ rfl, State.fset_fget _ _ _ rfl]
    exact Nat.mod_eq_of_lt (s.fget_sub_one_lt _)

end Sys2Proof.Machine
end

section
/-! SUPPORT. What filing faults and reading memory leave of the register file: every register but the counts and
  shows of
faults, address errors and memory reads. -/
namespace Sys2Proof.Machine

/-- The registers that count and show faults, address errors and reads of memory (R18, R191, R192, R316, R329). -/
def recordReg (k : Nat) : Bool :=
  [Reg.PLN_FAULTN, Reg.FLT_RING, Reg.FLT_LAST_RSEQ, Reg.FLT_STATUS, Reg.FLT_HMIR_TAIL, Reg.FLT_HMIR_LOST,
    Reg.PLN_ADDR_ERR_LO, Reg.PLN_ADDR_ERR_HI, Reg.PLN_ADDR_ERR_INFO].contains k ||
  (decide (0x40 ≤ k / 0x10000 ∧ k / 0x10000 < 0x58) && [0x108, 0x10C, 0x110, 0x114].contains (k % 0x10000)) ||
  (decide (0x58 ≤ k / 0x10000 ∧ k / 0x10000 < 0x5C) && [0x40, 0x44, 0x48, 0x4C].contains (k % 0x10000))

/-- The registers but those. -/
def State.calmRegs (s : State) : Nat → BitVec 32 := fun k => if recordReg k then 0 else s.reg k

theorem State.calmRegs_with {a_pending a_mem a_ecc a_bursts a_hbmEpoch a_sramEpoch a_sramClean a_stg a_stgEcc a_cache
  a_wback a_engines a_ctxs a_tiles a_sides a_tileEcc a_tags a_accs a_heads a_xfers a_batches a_colls a_nextId a_semq
  a_semBy a_bars a_cqs a_wtasks a_fence a_drains a_disabled a_sct a_sctEcc a_sched a_upd a_updq a_roots a_owns
  a_rifOut a_ports a_rtx a_nextTag a_nbr a_grp a_grpEcc a_insts a_issued a_folds a_time a_idle a_power a_temps a_excl
  a_gone a_ring a_hist a_ceHist a_caps a_crash a_arithPend a_lpTab a_advRing a_lpEcc a_advEcc a_loupes a_shadows
  a_retire a_rots a_pages a_granSpare a_granDead a_modBad a_modWait a_cycles a_resets a_resetFail a_chReset a_clReset
  a_dieReset a_dumps a_vhist a_capsules a_sec a_msix a_mirror a_cpl a_cplPoison a_tapOut a_bar4 a_armIrq a_sent
  a_noRoute a_free} {s : State} : State.calmRegs ⟨a_pending, s.regs, a_mem, a_ecc, a_bursts, a_hbmEpoch, a_sramEpoch,
  a_sramClean, a_stg, a_stgEcc, a_cache, a_wback, a_engines, a_ctxs, a_tiles, a_sides, a_tileEcc, a_tags, a_accs,
  a_heads, a_xfers, a_batches, a_colls, a_nextId, a_semq, a_semBy, a_bars, a_cqs, a_wtasks, a_fence, a_drains,
  a_disabled, a_sct, a_sctEcc, a_sched, a_upd, a_updq, a_roots, a_owns, a_rifOut, a_ports, a_rtx, a_nextTag, a_nbr,
  a_grp, a_grpEcc, a_insts, a_issued, a_folds, a_time, a_idle, a_power, a_temps, a_excl, a_gone, a_ring, a_hist,
  a_ceHist, a_caps, a_crash, a_arithPend, a_lpTab, a_advRing, a_lpEcc, a_advEcc, a_loupes, a_shadows, a_retire,
  a_rots, a_pages, a_granSpare, a_granDead, a_modBad, a_modWait, a_cycles, a_resets, a_resetFail, a_chReset,
  a_clReset, a_dieReset, a_dumps, a_vhist, a_capsules, a_sec, a_msix, a_mirror, a_cpl, a_cplPoison, a_tapOut, a_bar4,
  a_armIrq, a_sent, a_noRoute, a_free⟩ = s.calmRegs := by
  unfold State.calmRegs; rfl

theorem State.calmRegs_ite (c : Prop) [Decidable c] (s t : State) :
    (if c then s else t).calmRegs = if c then s.calmRegs else t.calmRegs := by split <;> rfl

/-- Folding an operation that leaves these registers leaves them. -/
theorem State.foldl_calmRegs {α : Type} (f : State → α → State) (hf : ∀ s x, (f s x).calmRegs = s.calmRegs) (l : List α)
    (s : State) : (l.foldl f s).calmRegs = s.calmRegs := by
  induction l generalizing s with
  | nil => rfl
  | cons x l ih => rw [List.foldl_cons, ih, hf]

theorem State.reg_of_calmRegs {s t : State} (h : t.calmRegs = s.calmRegs) {k : Nat} (hk : recordReg k = false) :
    t.reg k = s.reg k := by
  have h := congrFun h k
  simpa only [State.calmRegs, hk, Bool.false_eq_true, if_false] using h

theorem State.fget_of_calmRegs {s t : State} (h : t.calmRegs = s.calmRegs) {f : Fld} (hk : recordReg f.key = false) :
    t.fget f = s.fget f := State.fget_of_reg (State.reg_of_calmRegs h hk)

theorem State.flag_of_calmRegs {s t : State} (h : t.calmRegs = s.calmRegs) {f : Fld} (hk : recordReg f.key = false) :
    t.flag f = s.flag f := State.flag_of_reg (State.reg_of_calmRegs h hk)

theorem State.setReg_calmRegs (s : State) {k : Nat} (v : BitVec 32) (hk : recordReg k = true) :
    (s.setReg k v).calmRegs = s.calmRegs := by
  funext i
  simp only [State.calmRegs, State.setReg_reg]
  by_cases hi : i = k
  · subst hi
    simp only [hk, if_true]
  · simp only [if_neg hi]
theorem State.fset_calmRegs (s : State) {f : Fld} (v : Nat) (hf : recordReg f.key = true) :
    (s.fset f v).calmRegs = s.calmRegs := s.setReg_calmRegs _ hf
theorem State.fsat_calmRegs (s : State) {f : Fld} (n : Nat) (hf : recordReg f.key = true) :
    (s.fsat f n).calmRegs = s.calmRegs := s.setReg_calmRegs _ hf
theorem State.fwrap_calmRegs (s : State) {f : Fld} (n : Nat) (hf : recordReg f.key = true) :
    (s.fwrap f n).calmRegs = s.calmRegs := s.setReg_calmRegs _ hf
theorem State.setFlag_calmRegs (s : State) {f : Fld} (b : Bool) (hf : recordReg f.key = true) :
    (s.setFlag f b).calmRegs = s.calmRegs := s.setReg_calmRegs _ hf

theorem State.faultN_calmRegs (s : State) (c : Nat) : (s.faultN c).calmRegs = s.calmRegs := by
  simp (disch := decide) only [State.faultN, ↓State.calmRegs_ite, ite_self, ↓State.fset_calmRegs,
    ↓State.fsat_calmRegs]
theorem State.irq_calmRegs (s : State) (v : Nat) : (s.irq v).calmRegs = s.calmRegs := by
  simp (disch := decide) only [State.irq, ↓State.calmRegs_with]
/-- The mirror's part of filing a record (R327). -/
theorem State.mirrored_calmRegs (s : State) (r : FRec) : (if s.flag F.FLT_HMIR_CFG_EN then
      let size := 2 ^ (min 13 (s.fget F.FLT_HMIR_CFG_LOG2N) + 6)
      let used := (s.fget F.FLT_HMIR_TAIL_INDEX + 2 ^ 20 - s.fget F.FLT_HMIR_HEAD_INDEX) % 2 ^ 20
      if used < size then
        ({ s with mirror := upsert s.mirror (s.fget F.FLT_HMIR_TAIL_INDEX % size) r }).fwrap F.FLT_HMIR_TAIL_INDEX 1
      else s.fsat F.FLT_HMIR_LOST_COUNT 1
    else s).calmRegs = s.calmRegs := by
  dsimp only
  split
  · split
    · exact (State.fwrap_calmRegs _ _ (by decide)).trans State.calmRegs_with
    · exact State.fsat_calmRegs _ _ (by decide)
  · rfl
theorem State.file_calmRegs (s : State) (r : FRec) : (s.file r).calmRegs = s.calmRegs := by
  unfold State.file
  extract_lets n r' s1 s2 s3 size used s4
  have h2 : s2.calmRegs = s.calmRegs := by
    simp (disch := decide) only [s2, ↓State.calmRegs_ite, ↓State.fsat_calmRegs, s1, ↓State.calmRegs_with, ite_self]
  have h3 : s3.calmRegs = s.calmRegs := (s2.setReg_calmRegs _ (by decide)).trans h2
  have h4 : s4.calmRegs = s.calmRegs := (s3.mirrored_calmRegs r').trans h3
  split
  · exact (s4.irq_calmRegs 16).trans h4
  · exact h4
theorem State.putHist_calmRegs (s : State) (h : Hist) : (s.putHist h).calmRegs = s.calmRegs := by
  unfold State.putHist
  dsimp only
  (repeat' split) <;> simp (disch := decide) only [↓State.calmRegs_with,
    ↓State.setFlag_calmRegs]
theorem State.fileNow_calmRegs (s : State) (r : FRec) : (s.fileNow r).calmRegs = s.calmRegs := by
  simp (disch := decide) only [State.fileNow, ↓State.file_calmRegs,
    ↓State.putHist_calmRegs]
theorem State.fileLimited_calmRegs (s : State) (r : FRec) : (s.fileLimited r).calmRegs = s.calmRegs := by
  simp (disch := decide) only [State.fileLimited, ↓State.calmRegs_ite, ite_self,
    ↓State.putHist_calmRegs, ↓State.fileNow_calmRegs]
theorem State.occur_calmRegs (s : State) (r : FRec) : (s.occur r).calmRegs = s.calmRegs := by
  simp (disch := decide) only [State.occur, ↓State.putHist_calmRegs]
theorem State.judgePermanent_calmRegs (s : State) (r : FRec) (b : Bool) : (s.judgePermanent r b).calmRegs =
  s.calmRegs := by
  simp (disch := decide) only [State.judgePermanent, ↓State.calmRegs_with, ↓State.calmRegs_ite, ite_self,
    ↓State.fsat_calmRegs, ↓State.faultN_calmRegs, ↓State.irq_calmRegs]
theorem State.filePermanent_calmRegs (s : State) (r : FRec) (b : Bool) : (s.filePermanent r b).calmRegs = s.calmRegs
  := by
  simp (disch := decide) only [State.filePermanent,
    ↓State.judgePermanent_calmRegs, ↓State.fileLimited_calmRegs]
theorem State.classify_calmRegs (s : State) (r : FRec) : (s.classify r).calmRegs = s.calmRegs := by
  simp (disch := decide) only [State.classify, ↓State.calmRegs_ite, ite_self,
    ↓State.occur_calmRegs, ↓State.filePermanent_calmRegs, ↓State.fsat_calmRegs, ↓State.fileLimited_calmRegs]
theorem State.corrected_calmRegs (s : State) (w : Nat) (r : FRec) : (s.corrected w r).calmRegs = s.calmRegs := by
  simp (disch := decide) only [State.corrected, ↓State.calmRegs_with, ↓State.calmRegs_ite, ite_self,
    ↓State.occur_calmRegs, ↓State.filePermanent_calmRegs]
theorem State.eventR_calmRegs (s : State) (r : FRec) : (s.eventR r).calmRegs = s.calmRegs := by
  simp (disch := decide) only [State.eventR, ↓State.occur_calmRegs,
    ↓State.fileLimited_calmRegs]
theorem State.addrErr_calmRegs (s : State) (k : Nat) (wr : Bool) (src : Src) (a : BitVec 64) : (s.addrErr k wr src
  a).calmRegs = s.calmRegs := by
  simp (disch := decide) only [State.addrErr, ↓State.calmRegs_ite, ite_self, ↓State.fsat_calmRegs,
    ↓State.setFlag_calmRegs, ↓State.fset_calmRegs, ↓State.setReg_calmRegs, ↓State.eventR_calmRegs]
theorem State.settleFault_calmRegs (s : State) (r : FRec) (p q : Bool) : (s.settleFault r p q).calmRegs = s.calmRegs
  := by
  simp (disch := decide) only [State.settleFault, ↓State.calmRegs_ite, ite_self,
    ↓State.judgePermanent_calmRegs, ↓State.fileNow_calmRegs, ↓State.fsat_calmRegs]
theorem State.settleWork_calmRegs (s : State) (p : ArithUnit → BitVec 32 → Bool) : (s.settleWork p).calmRegs =
  s.calmRegs := by
  unfold State.settleWork
  exact (State.foldl_calmRegs _ (fun s x => State.settleFault_calmRegs _ _ _ _) _ _).trans rfl
theorem State.settleColl_calmRegs (s : State) (g i : Nat) : (s.settleColl g i).calmRegs = s.calmRegs := by
  simp (disch := decide) only [State.settleColl,
    ↓State.settleWork_calmRegs]

/-- A location as the address map gives one: its stack, device or die is one there is. -/
def Loc.real : Loc → Prop
  | .hbm st _ _ => st < 16
  | .slow dv _ _ => dv < 8
  | .scratch d _ => d < 4
  | _ => True

theorem State.locate_real (s : State) (x : Nat) : (s.locate x).real := by
  unfold State.locate
  dsimp only
  split
  next hx =>
    have hst : (hbmLoc (s.fget F.MEM_CFG_ILV_ACT) x).1 < 16 := by
      unfold hbmLoc
      dsimp only
      split
      · have := Nat.mod_lt (x / 0x1000 ^^^ x / 0x1000 / 2 ^ 9 ^^^ x / 0x1000 / 2 ^ 18 ^^^ x / 0x1000 / 2 ^ 27)
          (show 0x200 > 0 by decide)
        generalize (x / 0x1000 ^^^ x / 0x1000 / 2 ^ 9 ^^^ x / 0x1000 / 2 ^ 18 ^^^ x / 0x1000 / 2 ^ 27) % 0x200 = k at *
        omega
      · split
        · generalize x % 0x3000000000 / 0x1000 = g
          have := Nat.mod_lt (g ^^^ g / 2 ^ 7 ^^^ g / 2 ^ 14 ^^^ g / 2 ^ 21) (show 0x80 > 0 by decide)
          generalize (g ^^^ g / 2 ^ 7 ^^^ g / 2 ^ 14 ^^^ g / 2 ^ 21) % 0x80 = k at *
          omega
        · dsimp only
          omega
    split
    · trivial
    · exact hst
  next =>
    split
    · trivial
    · split
      next h1 h2 =>
        have hdv : (slowLoc x).1 < 8 := by
          unfold slowLoc
          dsimp only
          generalize ((x - 0x10000000000) % 0x4000000000 / 0x1000) = g
          have := Nat.mod_lt (g ^^^ g / 2 ^ 13) (show 2 > 0 by decide)
          generalize (g ^^^ g / 2 ^ 13) % 2 = k at *
          omega
        exact hdv
      next =>
        split
        next h =>
          split
          · trivial
          · split
            · show (x - 0x20000000000) / 0x400000000 < 4
              omega
            · trivial
        next => (repeat' split) <;> trivial

theorem State.servedBy_real (s : State) (l : Loc) (a : Nat) (h : l.real) : (s.servedBy l a).real := by
  unfold State.servedBy
  split
  next st ch pg =>
    have h : st < 16 := h
    split
    · show st / 4 < 4
      omega
    · exact h
  · exact h

theorem recordReg_memCount {b o : Nat} (hb : 0x40 ≤ b ∧ b < 0x58) (ho : o ∈ [0x108, 0x10C, 0x110, 0x114]) :
    recordReg (b * 0x10000 + o) = true := by
  have ho' : o < 0x10000 := by
    simp only [List.mem_cons, List.not_mem_nil, or_false] at ho
    omega
  have h1 : (b * 0x10000 + o) / 0x10000 = b := by omega
  have h2 : (b * 0x10000 + o) % 0x10000 = o := by omega
  simp only [recordReg, h1, h2, hb, List.contains_iff_mem.mpr ho]
  simp

theorem recordReg_sramCount {b o : Nat} (hb : 0x58 ≤ b ∧ b < 0x5C) (ho : o ∈ [0x40, 0x44, 0x48, 0x4C]) :
    recordReg (b * 0x10000 + o) = true := by
  have ho' : o < 0x10000 := by
    simp only [List.mem_cons, List.not_mem_nil, or_false] at ho
    omega
  have h1 : (b * 0x10000 + o) / 0x10000 = b := by omega
  have h2 : (b * 0x10000 + o) % 0x10000 = o := by omega
  simp only [recordReg, h1, h2, hb, List.contains_iff_mem.mpr ho]
  simp

theorem Loc.real.ceFld {l : Loc} (h : l.real) : recordReg l.ceFld.key = true := by
  cases l with
  | hbm st _ _ => exact recordReg_memCount (b := 0x40 + st) ⟨by omega, by have : st < 16 := h; omega⟩ (by decide)
  | slow dv _ _ => exact recordReg_memCount (b := 0x40 + (16 + dv)) ⟨by omega, by have : dv < 8 := h; omega⟩ (by decide)
  | scratch d _ => exact recordReg_sramCount (b := 0x58 + d) ⟨by omega, by have : d < 4 := h; omega⟩ (by decide)
  | regs _ => exact recordReg_sramCount (b := 0x58) (by decide) (by decide)
  | err _ => exact recordReg_sramCount (b := 0x58) (by decide) (by decide)

theorem Loc.real.ueFld {l : Loc} (h : l.real) : recordReg l.ueFld.key = true := by
  cases l with
  | hbm st _ _ => exact recordReg_memCount (b := 0x40 + st) ⟨by omega, by have : st < 16 := h; omega⟩ (by decide)
  | slow dv _ _ => exact recordReg_memCount (b := 0x40 + (16 + dv)) ⟨by omega, by have : dv < 8 := h; omega⟩ (by decide)
  | scratch d _ => exact recordReg_sramCount (b := 0x58 + d) ⟨by omega, by have : d < 4 := h; omega⟩ (by decide)
  | regs _ => exact recordReg_sramCount (b := 0x58) (by decide) (by decide)
  | err _ => exact recordReg_sramCount (b := 0x58) (by decide) (by decide)

/-- A hole's count, marks and address of a stack or a device (R190). -/
theorem recordReg_hole {u : Nat} (h : u < 24) :
    recordReg (F.MEM_H_HOLE_COUNT u).key = true ∧ recordReg (F.MEM_H_HOLE_OVERFLOW u).key = true ∧
      recordReg (F.MEM_H_HOLE_VALID u).key = true ∧ recordReg (F.MEM_H_HOLE_ADDR_GRANULE u).key = true :=
  have hb : 0x40 ≤ 0x40 + u ∧ 0x40 + u < 0x58 := ⟨by omega, by omega⟩
  ⟨recordReg_memCount hb (by decide), recordReg_memCount hb (by decide), recordReg_memCount hb (by decide),
    recordReg_memCount hb (by decide)⟩

theorem State.holeHit_calmRegs (s : State) {l : Loc} (a : Nat) (hl : l.real) : (s.holeHit l a).calmRegs = s.calmRegs
  := by
  have go (u g : Nat) (hu : u < 24) : (if (s.fsat (F.MEM_H_HOLE_COUNT u) 1).flag (F.MEM_H_HOLE_VALID u) then
      (s.fsat (F.MEM_H_HOLE_COUNT u) 1).setFlag (F.MEM_H_HOLE_OVERFLOW u) true
      else ((s.fsat (F.MEM_H_HOLE_COUNT u) 1).setFlag (F.MEM_H_HOLE_VALID u) true).fset (F.MEM_H_HOLE_ADDR_GRANULE u)
        g).calmRegs = s.calmRegs := by
    obtain ⟨h1, h2, h3, h4⟩ := recordReg_hole hu
    split
    · rw [State.setFlag_calmRegs _ _ h2, State.fsat_calmRegs _ _ h1]
    · rw [State.fset_calmRegs _ _ h4, State.setFlag_calmRegs _ _ h3, State.fsat_calmRegs _ _ h1]
  cases l with
  | hbm st _ _ => exact go st _ (by have : st < 16 := hl; omega)
  | slow dv _ _ => exact go (16 + dv) _ (by have : dv < 8 := hl; omega)
  | _ => rfl

theorem State.onRead_calmRegs (s : State) (head : Bool) (src : Src) {l : Loc} (a : Nat) (hl : l.real) :
    (s.onRead head src l a).calmRegs = s.calmRegs := by
  have hv := s.servedBy_real l a hl
  unfold State.onRead
  extract_lets y w v
  have hce := Loc.real.ceFld hv
  have hue := Loc.real.ueFld hv
  split
  · split
    · exact (State.classify_calmRegs _ _).trans (State.fsat_calmRegs _ _ hue)
    · rfl
  · split
    · rfl
    · rfl
    · exact (State.corrected_calmRegs _ _ _).trans (State.calmRegs_with.trans (State.fsat_calmRegs _ _ hce))
    · exact (State.corrected_calmRegs _ _ _).trans (State.calmRegs_with.trans (State.fsat_calmRegs _ _ hce))
    · refine (State.classify_calmRegs _ _).trans ?_
      show (if _ then _ else _ : State).calmRegs = _
      split
      · exact State.calmRegs_with.trans (State.fsat_calmRegs _ _ hue)
      · exact State.fsat_calmRegs _ _ hue

theorem State.allocate_calmRegs (s : State) (d g sec : Nat) (wr : Bool) :
    (s.allocate d g sec wr).calmRegs = s.calmRegs := by
  unfold State.allocate
  dsimp only
  split
  · rfl
  · exact State.calmRegs_with

theorem State.cacheTouch_calmRegs (s : State) (a : Nat) (wr : Bool) : (s.cacheTouch a wr).calmRegs = s.calmRegs := by
  have hl := s.locate_real a
  unfold State.cacheTouch
  split
  next st ch pg hloc =>
    rw [hloc] at hl
    have hst : st < 16 := hl
    have hb : 0x58 ≤ 0x58 + st / 4 ∧ 0x58 + st / 4 < 0x5C := ⟨by omega, by omega⟩
    have hh : recordReg (F.MEM_SRAM_HIT_COUNT (st / 4)).key = true := recordReg_sramCount hb (by decide)
    have hm : recordReg (F.MEM_SRAM_MISS_COUNT (st / 4)).key = true := recordReg_sramCount hb (by decide)
    dsimp only
    split
    · rfl
    · split
      · split
        · exact (State.fwrap_calmRegs _ _ hh).trans State.calmRegs_with
        · exact (State.fwrap_calmRegs _ _ hm).trans State.calmRegs_with
      · split
        · exact State.fwrap_calmRegs _ _ hm
        · exact (State.allocate_calmRegs _ _ _ _ _).trans (State.fwrap_calmRegs _ _ hm)
  next => rfl

theorem State.readAhead_calmRegs (s : State) (a : Nat) : (s.readAhead a).calmRegs = s.calmRegs := by
  unfold State.readAhead
  dsimp only
  (repeat' split) <;> simp only [↓State.calmRegs_with, State.allocate_calmRegs]

theorem State.readAt_calmRegs (s : State) (h l : Bool) (src : Src) (pkg : BitVec 16) (a : Nat) :
    (s.readAt h l src pkg a).2.calmRegs = s.calmRegs := by
  have hl := s.locate_real a
  unfold State.readAt
  split
  · dsimp only
    split
    · exact s.addrErr_calmRegs _ _ _ _
    · rfl
  · dsimp only
    split
    · exact s.addrErr_calmRegs _ _ _ _
    · rfl
  · split
    · dsimp only
      split
      · exact s.holeHit_calmRegs a hl
      · rfl
    · dsimp only
      split
      · exact (State.cacheTouch_calmRegs _ _ _).trans (s.onRead_calmRegs _ _ _ hl)
      · exact s.onRead_calmRegs _ _ _ hl

theorem State.readW_calmRegs (s : State) (src : Src) (pkg : BitVec 16) (a : Nat) :
    (s.readW src pkg a).2.calmRegs = s.calmRegs := s.readAt_calmRegs _ _ _ _ _

theorem State.readGo_calmRegs (n : Nat) (s : State) (h : Bool) (src : Src) (pkg : BitVec 16) (a : Nat) :
    (s.readGo h src pkg a n).2.calmRegs = s.calmRegs := by
  induction n generalizing s h a with
  | zero => rfl
  | succ n ih => simp only [State.readGo, ih, State.readAt_calmRegs]

theorem State.readN_calmRegs (s : State) (src : Src) (pkg : BitVec 16) (a n : Nat) :
    (s.readN src pkg a n).2.calmRegs = s.calmRegs := s.readGo_calmRegs n true src pkg a

theorem State.readG_calmRegs (s : State) (g : BitVec 64) (n : Nat) : (s.readG g n).2.calmRegs = s.calmRegs := by
  unfold State.readG
  split
  · exact s.readN_calmRegs _ _ _ _
  · exact s.addrErr_calmRegs _ _ _ _

theorem State.readBytes_calmRegs (s : State) (g : BitVec 64) (n : Nat) : (s.readBytes g n).2.calmRegs = s.calmRegs := by
  unfold State.readBytes
  dsimp only
  split
  · exact s.addrErr_calmRegs _ _ _ _
  · split
    · rfl
    · split <;> exact s.readN_calmRegs _ _ _ _

theorem State.setByte_calmRegs (s : State) (a : Nat) (v : BitVec 8) : (s.setByte a v).calmRegs = s.calmRegs := rfl

theorem State.store_calmRegs (s : State) (a : Nat) (w : MWord) : (s.store a w).calmRegs = s.calmRegs := by
  have h : (s.mendBurst a).calmRegs = s.calmRegs := by
    unfold State.mendBurst
    split
    · exact State.calmRegs_with
    · rfl
  exact State.calmRegs_with.trans h

theorem State.writeAt_calmRegs (s : State) (head : Bool) (src : Src) (pkg : BitVec 16) (a : Nat) (w : MWord) :
    (s.writeAt head src pkg a w).calmRegs = s.calmRegs := by
  have hl := s.locate_real a
  unfold State.writeAt
  split
  · split
    · exact s.addrErr_calmRegs _ _ _ _
    · rfl
  · split
    · exact s.addrErr_calmRegs _ _ _ _
    · rfl
  · split
    · split
      · exact s.holeHit_calmRegs a hl
      · rfl
    · refine (State.store_calmRegs _ _ _).trans ?_
      split
      · exact s.cacheTouch_calmRegs _ _
      · rfl

theorem State.writeGo_calmRegs (ws : List MWord) (s : State) (h : Bool) (src : Src) (pkg : BitVec 16) (a : Nat) :
    (s.writeGo h src pkg a ws).calmRegs = s.calmRegs := by
  induction ws generalizing s h a with
  | nil => rfl
  | cons w ws ih => simp only [State.writeGo, ih, State.writeAt_calmRegs]

theorem State.writeN_calmRegs (s : State) (src : Src) (pkg : BitVec 16) (a : Nat) (ws : List MWord) :
    (s.writeN src pkg a ws).calmRegs = s.calmRegs := s.writeGo_calmRegs ws true src pkg a

theorem State.event_calmRegs (s : State) (c : Nat) (u g : BitVec 32) (x y : BitVec 64) :
    (s.event c u g x y).calmRegs = s.calmRegs := s.eventR_calmRegs _

theorem State.permanent_calmRegs (s : State) (c : Nat) (u g : BitVec 32) :
    (s.permanent c u g).calmRegs = s.calmRegs := by
  rw [State.permanent, State.filePermanent_calmRegs, State.occur_calmRegs]

theorem State.noteWord_calmRegs (s : State) (w : Nat) (y : BitVec 7) (r : FRec) :
    (s.noteWord w y r).calmRegs = s.calmRegs := by
  unfold State.noteWord
  split
  · rfl
  · rfl
  · exact s.corrected_calmRegs _ _
  · exact s.corrected_calmRegs _ _
  · exact s.classify_calmRegs _

theorem State.unitFault_calmRegs (s : State) (k : ArithUnit) (r : FRec) :
    (s.unitFault k r).2.calmRegs = s.calmRegs := by
  simp only [State.unitFault, ↓State.calmRegs_with, ↓State.calmRegs_ite, ite_self, State.settleWork_calmRegs,
    State.occur_calmRegs, State.settleFault_calmRegs, State.filePermanent_calmRegs, State.fileLimited_calmRegs]

theorem State.settleChunk_calmRegs (s : State) (k : ChunkId) : (s.settleChunk k).calmRegs = s.calmRegs :=
  s.settleWork_calmRegs _

theorem State.settleVector_calmRegs (s : State) (u : BitVec 32) : (s.settleVector u).calmRegs = s.calmRegs :=
  s.settleWork_calmRegs _

end Sys2Proof.Machine
end

section
/-! SUPPORT. Heliostats, the Collimator and the frequency counter (R281 to R283, R287, R288, R291). -/
namespace Sys2Proof.Machine

/-! ## What filing an event leaves -/

theorem State.power_of_butRecords {s t : State} (h : t.butRecords = s.butRecords) : t.power = s.power :=
  (congrArg State.power h :)
theorem State.time_of_butRecords {s t : State} (h : t.butRecords = s.butRecords) : t.time = s.time :=
  (congrArg State.time h :)

theorem State.event_fget (s : State) (c : Nat) (u g : BitVec 32) (x y : BitVec 64) {f : Fld}
    (h : recordReg f.key = false) : (s.event c u g x y).fget f = s.fget f :=
  State.fget_of_calmRegs (s.event_calmRegs c u g x y) h

theorem State.event_flag (s : State) (c : Nat) (u g : BitVec 32) (x y : BitVec 64) {f : Fld}
    (h : recordReg f.key = false) : (s.event c u g x y).flag f = s.flag f :=
  State.flag_of_calmRegs (s.event_calmRegs c u g x y) h

theorem State.event_power (s : State) (c : Nat) (u g : BitVec 32) (x y : BitVec 64) :
    (s.event c u g x y).power = s.power := State.power_of_butRecords (s.event_butRecords c u g x y)

/-! ## Heliostats -/

theorem State.rePace_flag (s : State) {g : Fld} (h : g.paceFree = true) : s.rePace.flag g = s.flag g := by
  simp only [State.flag, State.rePace_fget _ h]

/-- A Heliostat's registers lie in no block that paces the package. -/
theorem Fld.paceFree_of_HEL {g : Fld} {d : Nat} (h : g.key = Reg.HEL_STATUS d) : g.paceFree = true := by
  have h1 : Reg.DIA_PACE ≠ g.key := by rw [h]; simp only [Reg.DIA_PACE, Reg.HEL_STATUS]; omega
  have h2 : Reg.DIA_STATUS ≠ g.key := by rw [h]; simp only [Reg.DIA_STATUS, Reg.HEL_STATUS]; omega
  simp [Fld.paceFree, Fld.apart_of_key, F.DIA_PACE_MCEIL, F.DIA_PACE_DROOP, F.DIA_PACE_STEP, F.DIA_STATUS_CAUSE, h1, h2]

theorem HEL_STATUS_calm (d : Fin 4) : recordReg (Reg.HEL_STATUS d) = false := by
  revert d; decide

theorem HEL_STATUS_ne {d e : Nat} (h : d ≠ e) : Reg.HEL_STATUS d ≠ Reg.HEL_STATUS e := by
  simp only [Reg.HEL_STATUS]; omega

theorem railMax_completes {s : State} {d : Fin 4} (hv : s.fget (F.HEL_STATUS_VOUT d) = 850)
    (he : signed 12 (s.fget (F.HEL_STATUS_ERR d)) < -50) : Completes (.railMax d) s fun t =>
      t.flag (F.HEL_STATUS_RAIL_MAX d) = true ∧
      t.fget (F.HEL_STATUS_MCEIL d) = max (s.fget (F.HEL_STATUS_MCEIL d)) (min 15 (s.fget F.DIA_PACE_STEP + 1)) ∧
      ∀ a, t.byte a = s.byte a := by
  refine ⟨_, congrArg Host.Outcome.next (if_pos ⟨hv, he⟩), ?_, ?_, State.byte_of_memKey (State.event_memKey _ _ _ _ _
    _)⟩
  · rw [State.event_flag _ _ _ _ _ _ (HEL_STATUS_calm d), State.rePace_flag _ (Fld.paceFree_of_HEL rfl),
      State.fset_flag_apart _ _ _ _ rfl,
      State.setFlag_flag _ _ _ rfl]
  · rw [State.event_fget _ _ _ _ _ _ (HEL_STATUS_calm d), State.rePace_fget _ (Fld.paceFree_of_HEL rfl),
      State.fset_fget _ _ _ rfl]
    have := s.fget_lt (F.HEL_STATUS_MCEIL d)
    exact Nat.mod_eq_of_lt (by simp only [Fld.width, F.HEL_STATUS_MCEIL] at *; omega)

/-! ## Operations on every die

Each acts on one Heliostat's status register at a time, so what it leaves there for a die depends on that die alone. -/

section
variable {g : State → Nat → State} (hreg : ∀ s e k, k ≠ Reg.HEL_STATUS e → (g s e).reg k = s.reg k)
  (hpow : ∀ s e, (g s e).power = s.power)
include hreg

theorem State.foldl_dies_reg {ds : List Nat} {k : Nat} (h : ∀ e ∈ ds, k ≠ Reg.HEL_STATUS e) (s : State) :
    (ds.foldl g s).reg k = s.reg k := by
  induction ds generalizing s with
  | nil => rfl
  | cons e ds ih =>
    rw [List.foldl_cons, ih (fun x hx => h x (List.mem_cons_of_mem _ hx)), hreg _ _ _ (h e List.mem_cons_self)]

include hpow

theorem State.foldl_dies_status {ds : List Nat} {d : Nat} (hn : ds.Nodup) (hd : d ∈ ds) (s : State) :
    ∃ u : State, u.power = s.power ∧ (∀ k, (∀ e ∈ ds, e ≠ d → k ≠ Reg.HEL_STATUS e) → u.reg k = s.reg k) ∧
      (ds.foldl g s).reg (Reg.HEL_STATUS d) = (g u d).reg (Reg.HEL_STATUS d) := by
  induction ds generalizing s with
  | nil => cases hd
  | cons e ds ih =>
    obtain ⟨hne, hn⟩ := List.nodup_cons.mp hn
    by_cases hed : e = d
    · subst hed
      refine ⟨s, rfl, fun _ _ => rfl, ?_⟩
      exact State.foldl_dies_reg hreg (fun x hx => HEL_STATUS_ne fun h : e = x => hne (h ▸ hx)) _
    · have hd' : d ∈ ds := (List.mem_cons.mp hd).resolve_left (Ne.symm hed)
      obtain ⟨u, hu, hk, hs⟩ := ih hn hd' (g s e)
      refine ⟨u, hu.trans (hpow s e), fun k hk' => ?_, hs⟩
      rw [hk k fun x hx => hk' x (List.mem_cons_of_mem _ hx), hreg _ _ _ (hk' e List.mem_cons_self hed)]

end

theorem State.fset_HEL_reg (s : State) {f : Fld} {e : Nat} (hf : f.key = Reg.HEL_STATUS e) (v : Nat) {k : Nat}
    (h : k ≠ Reg.HEL_STATUS e) : (s.fset f v).reg k = s.reg k := s.fset_reg_ne f v k (hf ▸ h)

theorem State.dieStep_reg (n : Nat) (s : State) (e k : Nat) (h : k ≠ Reg.HEL_STATUS e) :
    (s.dieStep n e).reg k = s.reg k := by
  unfold State.dieStep
  dsimp only
  split
  · rfl
  · rw [State.fset_HEL_reg _ rfl _ h]
    split
    · rw [State.fset_HEL_reg _ rfl _ h]
    · rfl

theorem State.dieStep_power (n : Nat) (s : State) (e : Nat) : (s.dieStep n e).power = s.power := by
  unfold State.dieStep
  dsimp only
  split
  · rfl
  · split <;> rfl

theorem State.tableVolt_lt (s : State) (d k : Nat) : s.tableVolt d k < 1024 := by
  simp only [State.tableVolt, clampInt]
  omega

theorem State.tableVolt_of_reg {s t : State} {d k : Nat} (h : t.reg (Reg.HEL_VT d k) = s.reg (Reg.HEL_VT d k)) :
    t.tableVolt d k = s.tableVolt d k := by
  simp only [State.tableVolt, State.fget_of_reg (f := F.HEL_VT_FACT d k) h, State.fget_of_reg (f := F.HEL_VT_USER d
    k) h,
    State.fget_of_reg (f := F.HEL_VT_AGE d k) h]

/-- A die that goes to a step takes its table voltage, and its meter a slower step at once. -/
theorem State.dieStep_status {s : State} {n d : Nat} (hq : s.dieQ d = false) (hr : s.power.railsUp = true) (hn : n ≤
  15) :
    (s.dieStep n d).fget (F.HEL_STATUS_VOUT d) = s.tableVolt d n ∧
      (s.dieStep n d).fget (F.HEL_STATUS_STEP d) = max (s.fget (F.HEL_STATUS_STEP d))
        (if s.fget (F.HEL_STATUS_STEP d) ≤ n then n else 0) := by
  unfold State.dieStep
  rw [if_neg (by simp [hq, hr])]
  dsimp only
  have hne : Reg.HEL_VT d n ≠ Reg.HEL_STATUS d := by simp only [Reg.HEL_VT, Reg.HEL_STATUS]; omega
  refine ⟨?_, ?_⟩
  · rw [State.fset_fget _ _ _ rfl]
    refine (Nat.mod_eq_of_lt (State.tableVolt_lt _ _ _)).trans (State.tableVolt_of_reg ?_)
    split
    · exact State.fset_HEL_reg _ rfl _ hne
    · rfl
  · rw [State.fset_fget_apart _ _ _ _ rfl]
    split
    next h =>
      rw [State.fset_fget _ _ _ rfl, Nat.max_eq_right h]
      exact Nat.mod_eq_of_lt (by simp only [Fld.width, F.HEL_STATUS_STEP]; omega)
    next => exact (Nat.max_eq_left (Nat.zero_le _)).symm

theorem execPaceStepChange_of {s : State} (h1 : s.stepNow ≠ s.power.target) (h2 : s.fget F.DIA_PSTATE_STATE < 2) :
    exec .paceStepChange s = .next ([0, 1, 2, 3].foldl (fun u d => u.dieStep s.stepNow d)
      (s.modPower fun p => { p with target := s.stepNow })) :=
  congrArg Host.Outcome.next (if_neg (by simp [h1, h2]))

@[simp] theorem State.dieStep_butPower (s : State) (n d : Nat) : (s.dieStep n d).butPower = s.butPower := by
  unfold State.dieStep
  dsimp only
  split
  · rfl
  · split <;> simp

theorem mem_dies (d : Fin 4) : d.val ∈ [0, 1, 2, 3] := by revert d; decide

theorem dieq_ne : ∀ e ∈ [0, 1, 2, 3], F.TST_ESC_DIEQ.key ≠ Reg.HEL_STATUS e := by decide

theorem paceStepChange_completes {s : State} {d : Fin 4} (hr : s.power.railsUp = true) (hq : s.dieQ d = false)
    (hn : s.stepNow ≤ 15) (h1 : s.stepNow ≠ s.power.target) (h2 : s.fget F.DIA_PSTATE_STATE < 2) :
    Completes .paceStepChange s fun t =>
      t.power.target = s.stepNow ∧ t.fget (F.HEL_STATUS_VOUT d) = s.tableVolt d s.stepNow ∧
      t.fget (F.HEL_STATUS_STEP d) = max (s.fget (F.HEL_STATUS_STEP d))
        (if s.fget (F.HEL_STATUS_STEP d) ≤ s.stepNow then s.stepNow else 0) ∧
      { t with regs := s.regs, power := s.power } = s := by
  refine ⟨_, execPaceStepChange_of h1 h2, ?_, ?_⟩
  · simp only [List.foldl_cons, List.foldl_nil, State.dieStep_power]
    rfl
  obtain ⟨u, hu, hk, hs⟩ := State.foldl_dies_status (State.dieStep_reg s.stepNow) (State.dieStep_power s.stepNow)
    (ds := [0, 1, 2, 3]) (d := d) (by decide) (mem_dies d) (s.modPower fun p => { p with target := s.stepNow })
  have hu' : u.power.railsUp = true := by rw [hu]; exact hr
  have hq' : u.dieQ d = false := by
    rw [← hq]
    exact congrArg (Nat.testBit · d) (State.fget_of_reg (f := F.TST_ESC_DIEQ) (hk _ fun e he _ => dieq_ne e he))
  have hst : u.reg (Reg.HEL_STATUS d) = s.reg (Reg.HEL_STATUS d) :=
    hk _ fun e _ he => HEL_STATUS_ne (Ne.symm he)
  obtain ⟨hv, hm⟩ := State.dieStep_status hq' hu' hn
  have htv : u.tableVolt d s.stepNow = s.tableVolt d s.stepNow := State.tableVolt_of_reg (hk _ fun e _ _ => by
    simp only [Reg.HEL_VT, Reg.HEL_STATUS]; omega)
  refine ⟨?_, ?_, State.frame_of_butPower (by simp)⟩
  · rw [State.fget_of_reg (f := F.HEL_STATUS_VOUT d) hs, hv, htv]
  · rw [State.fget_of_reg (f := F.HEL_STATUS_STEP d) hs, hm, State.fget_of_reg (f := F.HEL_STATUS_STEP d) hst]

/-- A window of a die whose rail is up. -/
theorem heliostatWindow_completes {s : State} {d : Fin 4} (err : Int) (hr : s.power.railsUp = true) (hq : s.dieQ d =
  false)
    (hv : 550 ≤ s.fget (F.HEL_STATUS_VOUT d)) : Completes (.heliostatWindow d err) s fun t =>
      t.fget (F.HEL_STATUS_ERR d) = unsigned 12 (clampInt (-2048) 2047 err) ∧
      t.flag (F.HEL_STATUS_LOCKED d) = decide (0 ≤ err) ∧
      t.fget (F.HEL_STATUS_VOUT d) = (if err < 20 then
          (if s.fget F.DIA_PACE_DROOP = 0 then min 850 (s.fget (F.HEL_STATUS_VOUT d) + 1) else s.fget
            (F.HEL_STATUS_VOUT d))
        else if 100 < err then max 550 (s.fget (F.HEL_STATUS_VOUT d) - 1) else s.fget (F.HEL_STATUS_VOUT d)) ∧
      { t with regs := s.regs } = s := by
  have hlt := s.fget_lt (F.HEL_STATUS_VOUT d)
  refine ⟨_, congrArg Host.Outcome.next (if_neg (by simp [hr, hq]; omega)), ?_, ?_, ?_, State.frame_of_butRegs (by
    simp)⟩
  · rw [State.fset_fget_apart _ _ _ _ rfl, State.setFlag_fget_apart _ _ _ _ rfl, State.fset_fget _ _ _ rfl]
    refine Nat.mod_eq_of_lt ?_
    exact (Int.toNat_lt (Int.emod_nonneg _ (by decide))).mpr (Int.emod_lt_of_pos _ (by decide))
  · rw [State.fset_flag_apart _ _ _ _ rfl, State.setFlag_flag _ _ _ rfl]
  · rw [State.fset_fget _ _ _ rfl]
    refine Nat.mod_eq_of_lt ?_
    simp only [Fld.width, F.HEL_STATUS_VOUT] at *
    (repeat' split) <;> omega

/-! ## The Collimator and the frequency counter -/

theorem referenceWindow_passes {s : State} {ppm : Int} (hb : s.refBand ppm = true) :
    let w := s.power.refWin ++ [ppm]
    let w16 := w.drop (w.length - 16)
    (s.fget F.COL_STATUS_STATE = 1 → refPass w16 = true → Completes (.referenceWindow ppm) s fun t =>
      t.fget F.COL_STATUS_STATE = 2 ∧ t.power.refWin = [] ∧ { t with regs := s.regs, power := s.power } = s) ∧
    (s.fget F.COL_STATUS_STATE = 4 → Completes (.referenceWindow ppm) s fun t =>
      t.power.refWin = w16 ∧ { t with power := s.power } = s) := by
  intro w w16
  refine ⟨fun h1 hp => ⟨((s.modPower fun p => { p with refWin := w16 }).modPower fun p =>
      { p with refWin := [] }).fset F.COL_STATUS_STATE 2, ?_, ?_, rfl, State.frame_of_butPower (by simp)⟩,
    fun h4 => ⟨s.modPower fun p => { p with refWin := w16 }, ?_, rfl, rfl⟩⟩
  · refine congrArg Host.Outcome.next ?_
    simp only [h1, hb, if_true]
    rw [if_neg (by decide), if_pos ⟨trivial, hp⟩]
  · rw [State.fset_fget _ _ _ rfl]
    rfl
  · refine congrArg Host.Outcome.next ?_
    simp only [h4, hb, if_true]
    rw [if_neg (by decide), if_neg (by omega), if_neg (by omega)]

/-- The registers of a root that locks: the reference is in use, and step 4 of the power-up order ends (R287, R352). -/
def State.rootRegs (s : State) : State :=
  let s := s.fset F.COL_STATUS_STATE 3
  if s.fget F.PLN_BOOT_STEP = 4 then
    (if s.fget F.PLN_BOOT_FAIL = 2 then s.fset F.PLN_BOOT_FAIL 0 else s).fset F.PLN_BOOT_STEP 5 else s

theorem State.rootRegs_spec (s : State) :
    s.rootRegs.fget F.COL_STATUS_STATE = 3 ∧
      (s.fget F.PLN_BOOT_STEP = 4 → s.rootRegs.fget F.PLN_BOOT_STEP = 5) ∧ s.rootRegs.butRegs = s.butRegs := by
  have hboot : (s.fset F.COL_STATUS_STATE 3).fget F.PLN_BOOT_STEP = s.fget F.PLN_BOOT_STEP :=
    State.fset_fget_apart _ _ _ _ rfl
  have hst : (s.fset F.COL_STATUS_STATE 3).fget F.COL_STATUS_STATE = 3 := State.fset_fget _ _ _ rfl
  unfold State.rootRegs
  dsimp only
  rw [hboot]
  split
  next h4 =>
    refine ⟨?_, fun _ => State.fset_fget _ _ _ rfl, ?_⟩
    · rw [State.fset_fget_apart _ _ _ _ rfl]
      split
      · rw [State.fset_fget_apart _ _ _ _ rfl, hst]
      · exact hst
    · rw [State.fset_butRegs]
      split <;> simp
  next h4 => exact ⟨hst, fun h => absurd h h4, by simp⟩

theorem State.time_of_butRegs {s t : State} (h : t.butRegs = s.butRegs) : t.time = s.time := (congrArg State.time h :)

theorem rootLock_completes {s : State} (h : s.fget F.COL_STATUS_STATE = 2) : Completes .rootLock s fun t =>
      t.fget F.COL_STATUS_STATE = 3 ∧ (s.fget F.PLN_BOOT_STEP = 4 → t.fget F.PLN_BOOT_STEP = 5) ∧
      (s.time.run = true → t.time = s.time) ∧ (s.time.run = false → t.now = 0 ∧ t.time.run = true) ∧
      { t with regs := s.regs, time := s.time } = s := by
  obtain ⟨hst, hboot, hb⟩ := s.rootRegs_spec
  have he : exec .rootLock s = .next (if s.rootRegs.time.run then s.rootRegs
      else { s.rootRegs with time := { run := true } }) := congrArg Host.Outcome.next (if_pos h)
  refine ⟨_, he, ?_⟩
  rw [State.time_of_butRegs hb]
  have hf : { s.rootRegs with regs := s.regs, time := s.time } = s :=
    (congrArg (fun u : State => { u with regs := s.regs, time := s.time }) hb :)
  split
  next hr => exact ⟨hst, hboot, fun _ => State.time_of_butRegs hb, fun h => by simp [hr] at h, hf⟩
  next hr => exact ⟨hst, hboot, fun h => absurd h hr, fun _ => ⟨rfl, rfl⟩, hf⟩

@[simp] theorem State.modPower_fget (s : State) (f : Power → Power) (g : Fld) : (s.modPower f).fget g = s.fget g := rfl

theorem referenceLoss_completes {s : State} (h : s.fget F.COL_STATUS_STATE = 3) : Completes .referenceLoss s fun t =>
      t.fget F.COL_STATUS_STATE = 4 ∧ t.fget F.COL_STATUS_LOSSES = min 0xFFFF (s.fget F.COL_STATUS_LOSSES + 1) ∧
      t.power.refWin = [] ∧ t.time = s.time ∧ ∀ a, t.byte a = s.byte a := by
  have hu : exec .referenceLoss s = .next ((((s.fset F.COL_STATUS_STATE 4).fsat F.COL_STATUS_LOSSES 1).modPower fun p =>
      { p with refWin := [] }).event 0x0D (blockUnit 1) 0 0 0) := congrArg Host.Outcome.next (if_pos h)
  refine ⟨_, hu, ?_, ?_, ?_, ?_, State.byte_of_memKey (State.event_memKey _ _ _ _ _ _)⟩
  · rw [State.event_fget _ _ _ _ _ _ (by decide), State.modPower_fget, State.fsat_fget_apart _ _ _ _ rfl,
      State.fset_fget _ _ _ rfl]
    rfl
  · rw [State.event_fget _ _ _ _ _ _ (by decide), State.modPower_fget, State.fsat_fget _ _ _ rfl,
      State.fset_fget_apart _ _ _ _ rfl]
    rfl
  · rw [State.event_power]
    rfl
  · rw [State.time_of_butRecords (State.event_butRecords _ _ _ _ _ _)]
    rfl

theorem referenceReturn_completes {s : State} (h : s.fget F.COL_STATUS_STATE = 4) (hp : refPass s.power.refWin = true) :
    Completes .referenceReturn s fun t =>
      t.fget F.COL_STATUS_STATE = 3 ∧ { t with regs := s.regs, power := s.power } = s :=
  ⟨(s.modPower fun p => { p with refWin := [] }).fset F.COL_STATUS_STATE 3, congrArg Host.Outcome.next (if_pos ⟨h, hp⟩),
    State.fset_fget _ _ _ rfl, State.frame_of_butPower (by simp)⟩

/-- A mask that holds a field whole does not change what the field reads. -/
theorem State.setReg_and_fget (s : State) {f : Fld} {k : Nat} (v m : BitVec 32) (hk : f.key = k)
    (hm : f.mask &&& m = f.mask) : (s.setReg k (v &&& m)).fget f = (s.setReg k v).fget f := by
  refine Nat.eq_of_testBit_eq fun i => ?_
  rw [State.fget_testBit, State.fget_testBit]
  by_cases hi : i < f.width
  · have hb := congrArg (BitVec.getLsbD · (f.lo + i)) hm
    simp only [BitVec.getLsbD_and, Fld.mask_getLsbD] at hb
    simp only [State.setReg_reg, hk, if_true, BitVec.getLsbD_and]
    by_cases h32 : f.lo + i < 32
    · have h2 : f.lo + i ≤ f.hi := by unfold Fld.width at hi; omega
      simp only [h32, h2, decide_true, Nat.le_add_right, Bool.true_and, Bool.and_true] at hb
      simp [hb]
    · rw [BitVec.getLsbD_of_ge v _ (by omega)]
      simp
  · simp [hi]

theorem State.setReg_fget (s : State) (f : Fld) {k : Nat} (hk : f.key = k) (v : BitVec 32) :
    (s.setReg k v).fget f = v.toNat / 2 ^ f.lo % 2 ^ f.width := by
  simp only [State.fget, State.setReg_reg, hk, if_true, BitVec.toNat_ushiftRight, Nat.shiftRight_eq_div_pow]

theorem fcntStart_completes (s : State) (w : BitVec 32) : Completes (.fcntStart .armature w) s fun t =>
      t.fget F.COL_FCNT_CTRL_SEL = w.toNat % 256 ∧ t.fget F.COL_FCNT_CTRL_GATE = w.toNat / 2 ^ 20 % 16 ∧
      t.flag F.COL_FCNT_CTRL_START = (w.getLsbD 31 || s.flag F.COL_FCNT_CTRL_START) ∧ { t with regs := s.regs } = s
        := by
  refine ⟨s.writeFcnt w, rfl, ?_, ?_, State.setFlag_flag _ _ _ rfl, State.frame_of_butRegs (by simp [State.writeFcnt])⟩
  · rw [State.writeFcnt, State.setFlag_fget_apart _ _ _ _ rfl, State.setReg_and_fget _ (f := F.COL_FCNT_CTRL_SEL)
      (k := Reg.COL_FCNT_CTRL) _ _ rfl (by decide), State.setReg_fget _ (k := Reg.COL_FCNT_CTRL) _ rfl]
    simp [F.COL_FCNT_CTRL_SEL, Fld.width]
  · rw [State.writeFcnt, State.setFlag_fget_apart _ _ _ _ rfl, State.setReg_and_fget _ (f := F.COL_FCNT_CTRL_GATE)
      (k := Reg.COL_FCNT_CTRL) _ _ rfl (by decide), State.setReg_fget _ (k := Reg.COL_FCNT_CTRL) _ rfl]
    rfl

theorem fcntDone_completes {s : State} (h : s.flag F.COL_FCNT_CTRL_START = true) (n : Nat) :
    Completes (.fcntDone n) s fun t =>
      t.flag F.COL_FCNT_CTRL_START = false ∧
      t.reg Reg.COL_FCNT_RESULT =
        (if selOk (s.fget F.COL_FCNT_CTRL_SEL) then BitVec.ofNat 32 (min 0xFFFFFFFF n) else 0) ∧
      { t with regs := s.regs } = s := by
  refine ⟨_, congrArg Host.Outcome.next (if_pos h), ?_, ?_, State.frame_of_butRegs (by simp)⟩
  · rw [State.flag, State.setReg_fget_ne _ _ _ _ (by decide)]
    exact State.setFlag_flag s F.COL_FCNT_CTRL_START false rfl
  · rw [State.setReg_reg, if_pos rfl]

/-- Settles O43, command by command. The dies go to a step one after another, each writing its own status register
  alone, so
what stands there in the end is what its own step left. -/
theorem heliostatsAndReference : Obligations.HeliostatsAndReference := by
  intro s d
  refine ⟨fun err hr hq hv => heliostatWindow_completes err hr hq hv, fun hv he => railMax_completes hv he,
    fun h => ⟨s, congrArg Host.Outcome.next (if_pos h), rfl⟩,
    fun hr hq hn h1 h2 => paceStepChange_completes hr hq hn h1 h2, fun h hq => ⟨_, congrArg Host.Outcome.next (if_pos
      ⟨h, hq⟩),
      ?_, State.frame_of_butRegs (by simp)⟩, fun ppm hb => referenceWindow_passes hb, fun h => rootLock_completes h,
    fun h => referenceLoss_completes h, fun h hp => referenceReturn_completes h hp, fun w => fcntStart_completes s w,
    fun n h => fcntDone_completes h n⟩
  rw [State.fset_fget _ _ _ rfl]
  have := s.fget_lt (F.HEL_STATUS_STEP d)
  exact Nat.mod_eq_of_lt (h.trans this)

end Sys2Proof.Machine
end

section
/-! SUPPORT. Register writes: what a field reads after a write of its register, by its access code (R7, R373, R401). -/
namespace Sys2Proof.Machine

/-! ## One field under a write -/

/-- A field's bits in a word. -/
def FieldRow.bits (f : FieldRow) (x : BitVec 32) : Nat := x.toNat / 2 ^ f.lo % 2 ^ (f.hi + 1 - f.lo)

/-- Whether a bit lies in a field. -/
def FieldRow.holds (f : FieldRow) (i : Nat) : Bool := decide (f.lo ≤ i) && decide (i ≤ f.hi)

theorem FieldRow.bits_testBit (f : FieldRow) (x : BitVec 32) (i : Nat) :
    (f.bits x).testBit i = (decide (i < f.hi + 1 - f.lo) && x.getLsbD (f.lo + i)) := by
  rw [FieldRow.bits, Nat.testBit_mod_two_pow, Nat.testBit_div_two_pow, Nat.add_comm i, BitVec.testBit_toNat]

theorem FieldRow.bits_congr {f : FieldRow} {x y : BitVec 32} (h : ∀ i, f.holds i = true → x.getLsbD i = y.getLsbD i) :
    f.bits x = f.bits y := by
  refine Nat.eq_of_testBit_eq fun i => ?_
  rw [FieldRow.bits_testBit, FieldRow.bits_testBit]
  by_cases hi : i < f.hi + 1 - f.lo
  · rw [h (f.lo + i) (by simp only [FieldRow.holds, Bool.and_eq_true, decide_eq_true_eq]; omega)]
  · simp [hi]

/-- The word a field takes its bits from when the whole register is written, by its access code (R7). -/
def Acc.after (a : Acc) (lock : Bool) (old v : BitVec 32) : BitVec 32 :=
  match a with
  | .rw => v
  | .rd | .fx => old
  | .w1c => old &&& ~~~v
  | .lk => if lock then old else v

/-- A bit outside a field keeps its value when the field is written. -/
theorem fieldWrite_outside (lock : Bool) (m v : BitVec 32) (k : Nat) (old : BitVec 32) (f : FieldRow) {i : Nat}
    (h : f.holds i = false) : (fieldWrite lock m v k old f).getLsbD i = old.getLsbD i := by
  have hm : ((⟨k, f.hi, f.lo⟩ : Fld).mask &&& m).getLsbD i = false := by
    rw [BitVec.getLsbD_and, Fld.mask_getLsbD]
    simp only [FieldRow.holds, Bool.and_eq_false_iff] at h
    rcases h with h | h <;> simp [h]
  by_cases hi : i < 32
  · have hcopy : (old &&& ~~~((⟨k, f.hi, f.lo⟩ : Fld).mask &&& m) ||| v &&& ((⟨k, f.hi, f.lo⟩ : Fld).mask &&&
    m)).getLsbD i =
        old.getLsbD i := by
      rw [BitVec.getLsbD_or, BitVec.getLsbD_and, BitVec.getLsbD_and, BitVec.getLsbD_not, hm]
      simp [hi]
    unfold fieldWrite
    dsimp only
    split
    · rfl
    · rfl
    · exact hcopy
    · split
      · rfl
      · exact hcopy
    · rw [BitVec.getLsbD_and, BitVec.getLsbD_not, BitVec.getLsbD_and, hm]
      simp [hi]
  · rw [BitVec.getLsbD_of_ge _ _ (by omega), BitVec.getLsbD_of_ge _ _ (by omega)]

/-- A bit of a field under a write of the whole register. -/
theorem fieldWrite_inside (lock : Bool) (v : BitVec 32) (k : Nat) (old : BitVec 32) (f : FieldRow) {i : Nat}
    (h : f.holds i = true) : (fieldWrite lock (BitVec.allOnes 32) v k old f).getLsbD i = (f.acc.after lock old
      v).getLsbD i := by
  simp only [FieldRow.holds, Bool.and_eq_true, decide_eq_true_eq] at h
  by_cases hi : i < 32
  · have hm : ((⟨k, f.hi, f.lo⟩ : Fld).mask &&& BitVec.allOnes 32).getLsbD i = true := by
      rw [BitVec.getLsbD_and, Fld.mask_getLsbD, BitVec.getLsbD_allOnes]
      simp [hi, h.1, h.2]
    have hcopy : (old &&& ~~~((⟨k, f.hi, f.lo⟩ : Fld).mask &&& BitVec.allOnes 32) ||| v &&& ((⟨k, f.hi, f.lo⟩ :
      Fld).mask
        &&& BitVec.allOnes 32)).getLsbD i = v.getLsbD i := by
      rw [BitVec.getLsbD_or, BitVec.getLsbD_and, BitVec.getLsbD_and, BitVec.getLsbD_not, hm]
      simp [hi]
    unfold fieldWrite
    dsimp only
    cases f.acc
    case rw => exact hcopy
    case lk => cases lock with
      | true => rfl
      | false => exact hcopy
    case w1c =>
      rw [BitVec.getLsbD_and, BitVec.getLsbD_not, BitVec.getLsbD_and, hm]
      simp [Acc.after, hi]
    all_goals rfl
  · rw [BitVec.getLsbD_of_ge _ _ (by omega), BitVec.getLsbD_of_ge _ _ (by omega)]

/-! ## A register under a write -/

/-- No two fields of a table share a bit. -/
def fieldsApart (fs : List FieldRow) : Prop := fs.Pairwise fun f g => f.hi < g.lo ∨ g.hi < f.lo

theorem FieldRow.holds_apart {f g : FieldRow} (h : f.hi < g.lo ∨ g.hi < f.lo) {i : Nat} (hi : f.holds i = true) :
    g.holds i = false := by
  simp only [FieldRow.holds, Bool.and_eq_true, decide_eq_true_eq] at hi
  simp only [FieldRow.holds, Bool.and_eq_false_iff, decide_eq_false_iff_not]
  omega

theorem foldl_fieldWrite_outside (lock : Bool) (m v : BitVec 32) (k : Nat) (fs : List FieldRow) (old : BitVec 32) {i
  : Nat}
    (h : ∀ f ∈ fs, f.holds i = false) : (fs.foldl (fieldWrite lock m v k) old).getLsbD i = old.getLsbD i := by
  induction fs generalizing old with
  | nil => rfl
  | cons f fs ih =>
    rw [List.foldl_cons, ih _ (fun g hg => h g (List.mem_cons_of_mem _ hg)),
      fieldWrite_outside _ _ _ _ _ _ (h f List.mem_cons_self)]

theorem foldl_fieldWrite_inside (lock : Bool) (v : BitVec 32) (k : Nat) {fs : List FieldRow} (ha : fieldsApart fs)
    {f : FieldRow} (hf : f ∈ fs) (old : BitVec 32) {i : Nat} (hi : f.holds i = true) :
    (fs.foldl (fieldWrite lock (BitVec.allOnes 32) v k) old).getLsbD i = (f.acc.after lock old v).getLsbD i := by
  induction fs generalizing old with
  | nil => cases hf
  | cons g fs ih =>
    obtain ⟨hg, ha⟩ := List.pairwise_cons.mp ha
    rw [List.foldl_cons]
    rcases List.mem_cons.mp hf with rfl | hfs
    · rw [foldl_fieldWrite_outside _ _ _ _ _ _ fun x hx => FieldRow.holds_apart (hg x hx) hi,
        fieldWrite_inside _ _ _ _ _ hi]
    · have hgo : (fieldWrite lock (BitVec.allOnes 32) v k old g).getLsbD i = old.getLsbD i :=
        fieldWrite_outside _ _ _ _ _ _ (FieldRow.holds_apart (Or.symm (hg f hfs)) hi)
      rw [ih ha hfs]
      cases f.acc
      case lk => cases lock with
        | true => exact hgo
        | false => rfl
      case w1c =>
        show (_ &&& _ : BitVec 32).getLsbD i = (_ &&& _ : BitVec 32).getLsbD i
        rw [BitVec.getLsbD_and, BitVec.getLsbD_and, hgo]
      case rw => rfl
      all_goals exact hgo

/-- Every field of a register after Armature has written it (R7). -/
theorem State.written_bits (s : State) {k : Nat} {row : RegRow} (hrow : Reg.row k = some row) (ha : fieldsApart
  row.fields)
    {f : FieldRow} (hf : f ∈ row.fields) (v : BitVec 32) :
    f.bits (s.written (BitVec.allOnes 32) k v) = f.bits (f.acc.after (s.locked k) (s.reg k) v) := by
  refine FieldRow.bits_congr fun i hi => ?_
  simp only [State.written, hrow]
  exact foldl_fieldWrite_inside _ _ _ ha hf _ hi

/-- A field of a register that Armature has written. -/
theorem State.written_fget (s : State) {g : Fld} {row : RegRow} (hrow : Reg.row g.key = some row)
    (ha : fieldsApart row.fields) {acc : Acc} {r : Nat} (hf : ⟨g.hi, g.lo, acc, r⟩ ∈ row.fields) (v : BitVec 32) :
    (s.setReg g.key (s.written (BitVec.allOnes 32) g.key v)).fget g =
      (acc.after (s.locked g.key) (s.reg g.key) v).toNat / 2 ^ g.lo % 2 ^ g.width := by
  rw [State.setReg_fget _ _ rfl]
  exact s.written_bits hrow ha hf v

/-- A one-bit field is the bit of its register. -/
theorem State.flag_eq_getLsbD (s : State) {f : Fld} (h : f.hi = f.lo) : s.flag f = (s.reg f.key).getLsbD f.lo := by
  have hw : f.width = 1 := by unfold Fld.width; omega
  have hb : (s.fget f).testBit 0 = (s.reg f.key).getLsbD f.lo := by
    rw [State.fget_testBit, hw]
    rfl
  have hlt : s.fget f < 2 := by simpa [hw] using s.fget_lt f
  rw [← hb]
  unfold State.flag
  interval_cases h : s.fget f <;> rfl

theorem State.written_flag (s : State) {g : Fld} {row : RegRow} (hrow : Reg.row g.key = some row)
    (ha : fieldsApart row.fields) {acc : Acc} {r : Nat} (hf : ⟨g.hi, g.lo, acc, r⟩ ∈ row.fields) (hw : g.hi = g.lo)
    (v : BitVec 32) : (s.setReg g.key (s.written (BitVec.allOnes 32) g.key v)).flag g =
      (acc.after (s.locked g.key) (s.reg g.key) v).getLsbD g.lo := by
  rw [State.flag_eq_getLsbD _ hw, State.setReg_reg, if_pos rfl]
  simp only [State.written, hrow]
  exact foldl_fieldWrite_inside _ _ _ ha hf _ (by simp [FieldRow.holds, hw])

/-! ## Who may write -/

theorem State.plainWrite_armature (s : State) (k : Nat) (v : BitVec 32) :
    s.plainWrite .armature k v = s.setReg k (s.written (BitVec.allOnes 32) k v) := rfl

theorem State.acting_armature (s : State) (k : Nat) (v : BitVec 32) (f : State → State) :
    s.acting .armature k v f = f s := rfl

/-- A locked register keeps its lockable fields; where every field is lockable, it keeps its contents. -/
theorem State.written_locked (s : State) {k : Nat} {row : RegRow} (hrow : Reg.row k = some row)
    (hl : s.locked k = true) (hf : ∀ f ∈ row.fields, f.acc = .lk) (m v : BitVec 32) : s.written m k v = s.reg k := by
  simp only [State.written, hrow, hl]
  refine List.foldlRecOn (motive := fun x => x = s.reg k) _ _ rfl fun x hx f hfm => ?_
  rw [fieldWrite, hf f hfm]
  exact hx

end Sys2Proof.Machine
end

section
/-! SUPPORT. The Diaphragm: estimates, the cap ceiling, the gains and the writes of its registers (R293 to R298). -/
namespace Sys2Proof.Machine

/-! ## What an estimate shows before the steps are chosen -/

/-- The budgets and mean estimates shown, and memory and links throttled for their budgets (R294, R297, R298). -/
def State.estShown (s : State) (e : PowerEst) (comp : Nat) (dem give : List Nat) : State :=
  let hist := ((comp, e.memory.sum, e.links.sum) :: s.power.est).take 500
  let s := s.modPower fun p => { p with est := hist }
  let means := [meanW (hist.map (·.1)), meanW (hist.map (·.2.1)), meanW (hist.map (·.2.2))]
  let s := [0, 1, 2].foldl (fun s c =>
    (s.fset (F.DIA_PWR_BUDGET c) (give.getD c 0 / 1000)).fset (F.DIA_PWR_EST c) (means.getD c 0)) s
  let s := (s.fset (F.DIA_PWR_BUDGET 3) s.capW).fset (F.DIA_PWR_EST 3) means.sum
  s.throttle e.busy dem give

/-- The registers that showing an estimate writes: the budgets, and the width of every port. -/
def estReg (k : Nat) : Prop := k ∈ [Reg.DIA_PWR 0, Reg.DIA_PWR 1, Reg.DIA_PWR 2, Reg.DIA_PWR 3] ∨ ∃ p < 12, k =
  Reg.WPL_STATUS p

theorem State.portWidth_reg (w : Nat) (s : State) {p k : Nat} (h : k ≠ Reg.WPL_STATUS p) :
    (if s.lret p = 0 ∧ s.fget (F.WPL_STATUS_WIDTH p) ≠ 0 then s.fset (F.WPL_STATUS_WIDTH p) w else s).reg k = s.reg k
      := by
  split
  · exact State.fset_reg_ne _ _ _ _ h
  · rfl

theorem State.throttle_reg (s : State) (b : BitVec 12) (dem give : List Nat) {k : Nat}
    (h : ∀ p < 12, k ≠ Reg.WPL_STATUS p) : (s.throttle b dem give).reg k = s.reg k := by
  unfold State.throttle
  dsimp only
  split
  · refine List.foldlRecOn (motive := fun t : State => t.reg k = s.reg k) _ _ rfl fun t ht p hp => ?_
    rw [State.portWidth_reg _ _ (h p (List.mem_range.mp (List.mem_of_mem_filter hp)))]
    exact ht
  · split
    next p hp =>
      have hp12 : p < 12 := by
        have := List.mem_of_find?_eq_some hp
        simp only [List.mem_cons, List.not_mem_nil, or_false] at this
        omega
      rw [State.portWidth_reg _ _ (h p hp12)]
      rfl
    next => rfl

theorem State.portWidth_power (w : Nat) (s : State) (p : Nat) :
    (if s.lret p = 0 ∧ s.fget (F.WPL_STATUS_WIDTH p) ≠ 0 then s.fset (F.WPL_STATUS_WIDTH p) w else s).power = s.power
      := by
  split <;> rfl

theorem State.throttle_power (s : State) (b : BitVec 12) (dem give : List Nat) :
    ∃ m l, (s.throttle b dem give).power = { s.power with memThr := m, linkLow := l } := by
  unfold State.throttle
  dsimp only
  split
  · refine List.foldlRecOn (motive := fun t : State => ∃ m l, t.power = { s.power with memThr := m, linkLow := l }) _ _
      ⟨_, _, rfl⟩ fun t ht p hp => ?_
    rw [State.portWidth_power]
    exact ht
  · split
    · rw [State.portWidth_power]
      exact ⟨_, _, rfl⟩
    · exact ⟨_, _, rfl⟩

theorem State.estShown_reg (s : State) (e : PowerEst) (comp : Nat) (dem give : List Nat) {k : Nat} (h : ¬ estReg k) :
    (s.estShown e comp dem give).reg k = s.reg k := by
  simp only [estReg, List.mem_cons, List.not_mem_nil, or_false, not_or, not_exists, not_and] at h
  obtain ⟨⟨h0, h1, h2, h3⟩, hp⟩ := h
  unfold State.estShown
  dsimp only
  rw [State.throttle_reg _ _ _ _ hp, State.fset_reg_ne _ _ _ _ h3, State.fset_reg_ne _ _ _ _ h3]
  simp only [List.foldl_cons, List.foldl_nil]
  rw [State.fset_reg_ne _ _ _ _ h2, State.fset_reg_ne _ _ _ _ h2, State.fset_reg_ne _ _ _ _ h1,
    State.fset_reg_ne _ _ _ _ h1, State.fset_reg_ne _ _ _ _ h0, State.fset_reg_ne _ _ _ _ h0]
  rfl

theorem State.estShown_power (s : State) (e : PowerEst) (comp : Nat) (dem give : List Nat) :
    ∃ m l, (s.estShown e comp dem give).power = { s.power with
      est := ((comp, e.memory.sum, e.links.sum) :: s.power.est).take 500, memThr := m, linkLow := l } := by
  unfold State.estShown
  dsimp only
  obtain ⟨m, l, h⟩ := State.throttle_power _ e.busy dem give
  exact ⟨m, l, h.trans rfl⟩

/-! ## The steps an estimate chooses -/

theorem State.followCeil_of_reg {s t : State} (h : t.reg Reg.CLV_PACE_CFG = s.reg Reg.CLV_PACE_CFG) :
    t.followCeil = s.followCeil := by
  simp only [State.followCeil, State.flag_of_reg (f := F.CLV_PACE_CFG_FOLLOW) h,
    State.flag_of_reg (f := F.CLV_PACE_CFG_HELD) h, State.fget_of_reg (f := F.CLV_PACE_CFG_CEIL) h]

theorem State.otherCeil_of_reg {s t : State} (h : t.reg Reg.DIA_PACE = s.reg Reg.DIA_PACE)
    (hf : t.reg Reg.CLV_PACE_CFG = s.reg Reg.CLV_PACE_CFG) : t.otherCeil = s.otherCeil := by
  simp only [State.otherCeil, State.setCeil, State.followCeil_of_reg hf, State.fget_of_reg (f := F.DIA_PACE_UCEIL) h,
    State.fget_of_reg (f := F.DIA_PACE_MCEIL) h, State.fget_of_reg (f := F.DIA_PACE_THERM) h,
    State.fget_of_reg (f := F.DIA_PACE_DROOP) h, State.fget_of_reg (f := F.DIA_PACE_BOARD) h]

/-- What the prediction of compute power and the choice of steps read: the steps in force with their ceilings, and
  the table
voltages. -/
structure State.samePace (s t : State) : Prop where
  status : ∀ d < 4, t.reg (Reg.HEL_STATUS d) = s.reg (Reg.HEL_STATUS d)
  volts : ∀ d < 4, ∀ k < 16, t.reg (Reg.HEL_VT d k) = s.reg (Reg.HEL_VT d k)
  pace : t.reg Reg.DIA_PACE = s.reg Reg.DIA_PACE
  follow : t.reg Reg.CLV_PACE_CFG = s.reg Reg.CLV_PACE_CFG

section
variable {s t : State} (h : s.samePace t)
include h

theorem State.samePace.predict (e : PowerEst) {n : Nat} (hn : n < 16) : t.predict e n = s.predict e n := by
  refine List.foldl_ext _ _ _ fun x d hd => ?_
  have hd : d < 4 := List.mem_range.mp hd
  have h1 : t.fget (F.HEL_STATUS_STEP d) = s.fget (F.HEL_STATUS_STEP d) := State.fget_of_reg (h.status d hd)
  have hc : s.fget (F.HEL_STATUS_STEP d) < 16 := s.fget_lt _
  simp only [h1, State.tableVolt_of_reg (h.volts d hd n hn), State.tableVolt_of_reg (h.volts d hd _ hc)]

theorem State.samePace.floor : t.fget F.DIA_PACE_FLOOR = s.fget F.DIA_PACE_FLOOR := State.fget_of_reg h.pace

theorem State.samePace.otherCeil : t.otherCeil = s.otherCeil := State.otherCeil_of_reg h.pace h.follow

theorem State.samePace.capChoice (e : PowerEst) (b : Nat) : t.capChoice e b = s.capChoice e b := by
  have hfl : s.fget F.DIA_PACE_FLOOR < 16 := s.fget_lt _
  have hfind : (List.range 16).find? (fun n => decide (s.otherCeil ≤ n) && decide (t.predict e n ≤ (b : ℚ))) =
      (List.range 16).find? (fun n => decide (s.otherCeil ≤ n) && decide (s.predict e n ≤ (b : ℚ))) :=
    List.find?_congr fun n hn => by rw [h.predict e (List.mem_range.mp hn)]
  simp only [State.capChoice, h.floor, h.otherCeil, h.predict e hfl, hfind]
  have hlo : ((List.range 16).find? (fun n => decide (s.otherCeil ≤ n) && decide (s.predict e n ≤ (b : ℚ)))).getD
      (s.fget F.DIA_PACE_FLOOR) < 16 := by
    cases hf : (List.range 16).find? (fun n => decide (s.otherCeil ≤ n) && decide (s.predict e n ≤ (b : ℚ))) with
    | none => exact hfl
    | some n => exact List.mem_range.mp (List.mem_of_find?_eq_some hf)
  generalize ((List.range 16).find? (fun n => decide (s.otherCeil ≤ n) && decide (s.predict e n ≤ (b : ℚ)))).getD
      (s.fget F.DIA_PACE_FLOOR) = lo at hlo
  rw [h.predict e hlo, h.predict e (show lo - 1 < 16 by omega)]

end

theorem not_estReg {k : Nat} (h : k / 0x10000 < 0x10) (h2 : k < 0x20020 ∨ 0x20030 ≤ k) : ¬ estReg k := by
  rintro (hk | ⟨p, -, hk⟩)
  · simp only [Reg.DIA_PWR, List.mem_cons, List.not_mem_nil, or_false] at hk
    omega
  · simp only [Reg.WPL_STATUS] at hk
    omega

theorem State.estShown_samePace (s : State) (e : PowerEst) (comp : Nat) (dem give : List Nat) :
    s.samePace (s.estShown e comp dem give) where
  status d hd := s.estShown_reg _ _ _ _ (not_estReg (by simp only [Reg.HEL_STATUS]; omega) (by
    simp only [Reg.HEL_STATUS]; omega))
  volts d hd k hk := s.estShown_reg _ _ _ _ (not_estReg (by simp only [Reg.HEL_VT]; omega) (by
    simp only [Reg.HEL_VT]; omega))
  pace := s.estShown_reg _ _ _ _ (not_estReg (by decide) (by decide))
  follow := s.estShown_reg _ _ _ _ (not_estReg (by decide) (by decide))

/-- The steps and the duty a choice puts in force. -/
def State.capChosen (s : State) (c : Nat × Nat × Nat) : State :=
  let binds := decide (s.otherCeil < c.1)
  ((s.modPower fun p => { p with capLo := c.1, capHi := c.2.1, capBinds := binds }).fset F.DIA_STATUS_STEP_HI
    c.2.1).fset
    F.DIA_STATUS_DUTY c.2.2

theorem dutyOf_lt (lo hi b : ℚ) : dutyOf lo hi b < 16 := by
  unfold dutyOf
  refine List.foldlRecOn (motive := fun n => n < 16) _ _ (by decide) fun n hn k hk => ?_
  have := List.mem_range.mp (List.mem_of_mem_filter hk)
  omega

theorem State.capChoice_duty_lt (s : State) (e : PowerEst) (b : Nat) : (s.capChoice e b).2.2 < 16 := by
  unfold State.capChoice
  dsimp only
  split
  · exact Nat.zero_lt_succ _
  · split
    · exact dutyOf_lt _ _ _
    · exact Nat.zero_lt_succ _

/-- What an estimate does once its steps are chosen: it parks the excess at once, admits, or neither (R295, R296). -/
def State.estEnd (s : State) (e : PowerEst) (comp budget lo : Nat) : State :=
  let atFloor := decide ((budget : ℚ) < s.predict e (s.fget F.DIA_PACE_FLOOR))
  let act := 16 - min 15 s.power.parkDia
  let full : PowerEst := { e with arrays := e.arrays.map fun a => a * 16 / act }
  if 103 * budget < 100 * comp ∨ (atFloor ∧ budget < comp) then
    s.repark fun p => { p with parkDia := min 16 (p.parkDia + s.excess comp budget) }
  else if 0 < s.power.parkDia ∧ comp ≤ budget ∧ s.predict full lo ≤ (budget : ℚ) then
    s.repark fun p => { p with parkDia := 0 }
  else s.rePace

theorem execDiaphragmEstimate_eq (est : PowerEst) (s : State) :
    exec (.diaphragmEstimate est) s = .next (
      let e := s.weigh est
      let comp := e.arrays.sum + e.control.sum + e.sram.sum + e.rifflers.sum
      let dem := s.demands [comp, e.memory.sum, e.links.sum]
      let give := share (1000 * s.capW) dem ([0, 1, 2].map fun c => 1000 * s.fget (F.DIA_MIN_W c)) s.prio
      let budget := give.getD 0 0
      let c := (s.estShown e comp dem give).capChoice e budget
      ((s.estShown e comp dem give).capChosen c).estEnd e comp budget c.1) := rfl

theorem State.estShown_memKey (s : State) (e : PowerEst) (comp : Nat) (dem give : List Nat) :
    (s.estShown e comp dem give).memKey = s.memKey := by
  unfold State.estShown
  simp only [State.throttle_memKey, State.fset_memKey', List.foldl_cons, List.foldl_nil, State.modPower_memKey]

/-- Parking keeps the estimates, the choice of steps and the duty. -/
theorem State.repark_keeps (v : State) (f : Power → Power) (hf : ∀ p, (f p).est = p.est ∧ (f p).capLo = p.capLo ∧
    (f p).capHi = p.capHi) : (v.repark f).power.est = v.power.est ∧ (v.repark f).power.capLo = v.power.capLo ∧
    (v.repark f).power.capHi = v.power.capHi ∧ (v.repark f).fget F.DIA_STATUS_DUTY = v.fget F.DIA_STATUS_DUTY := by
  obtain ⟨a, ha⟩ := v.repark_power f
  obtain ⟨h1, h2, h3⟩ := hf v.power
  rw [ha]
  exact ⟨h1, h2, h3, v.repark_fget f rfl rfl⟩

/-- The three ways an estimate ends keep what it shows; the first parks the excess. -/
theorem State.estEnd_spec (v : State) (e : PowerEst) (comp budget lo : Nat) :
    (v.estEnd e comp budget lo).power.est = v.power.est ∧ (v.estEnd e comp budget lo).power.capLo = v.power.capLo ∧
      (v.estEnd e comp budget lo).power.capHi = v.power.capHi ∧
      (v.estEnd e comp budget lo).fget F.DIA_STATUS_DUTY = v.fget F.DIA_STATUS_DUTY ∧
      (103 * budget < 100 * comp →
        (v.estEnd e comp budget lo).power.parkDia = min 16 (v.power.parkDia + v.excess comp budget)) ∧
      (v.estEnd e comp budget lo).memKey = v.memKey := by
  unfold State.estEnd
  dsimp only
  split
  next h =>
    obtain ⟨h1, h2, h3, h4⟩ := v.repark_keeps (fun p => { p with parkDia := min 16 (p.parkDia + v.excess comp budget) })
      fun _ => ⟨rfl, rfl, rfl⟩
    obtain ⟨a, ha⟩ := v.repark_power fun p => { p with parkDia := min 16 (p.parkDia + v.excess comp budget) }
    exact ⟨h1, h2, h3, h4, fun _ => by rw [ha], State.repark_memKey _ _⟩
  next h =>
    have hno : ¬ 103 * budget < 100 * comp := fun hc => h (Or.inl hc)
    split
    · obtain ⟨h1, h2, h3, h4⟩ := v.repark_keeps (fun p => { p with parkDia := 0 }) fun _ => ⟨rfl, rfl, rfl⟩
      exact ⟨h1, h2, h3, h4, fun hc => absurd hc hno, State.repark_memKey _ _⟩
    · exact ⟨rfl, rfl, rfl, State.rePace_fget _ rfl, fun hc => absurd hc hno, State.rePace_memKey _⟩

theorem State.capChosen_spec (u : State) (c : Nat × Nat × Nat) (h : c.2.2 < 16) :
    (u.capChosen c).power.est = u.power.est ∧ (u.capChosen c).power.parkDia = u.power.parkDia ∧
      (u.capChosen c).power.capLo = c.1 ∧ (u.capChosen c).power.capHi = c.2.1 ∧
      (u.capChosen c).fget F.DIA_STATUS_DUTY = c.2.2 ∧ (u.capChosen c).memKey = u.memKey :=
  ⟨rfl, rfl, rfl, rfl, (State.fset_fget _ _ _ rfl).trans (Nat.mod_eq_of_lt h), rfl⟩

theorem diaphragmEstimate_completes (s : State) (est : PowerEst) :
      let e := s.weigh est
      let comp := e.arrays.sum + e.control.sum + e.sram.sum + e.rifflers.sum
      let dem := s.demands [comp, e.memory.sum, e.links.sum]
      let give := share (1000 * s.capW) dem ([0, 1, 2].map fun c => 1000 * s.fget (F.DIA_MIN_W c)) s.prio
      let budget := give.getD 0 0
      Completes (.diaphragmEstimate est) s fun t =>
        t.power.est = ((comp, e.memory.sum, e.links.sum) :: s.power.est).take 500 ∧
        t.power.capLo = (s.capChoice e budget).1 ∧ t.power.capHi = (s.capChoice e budget).2.1 ∧
        t.fget F.DIA_STATUS_DUTY = (s.capChoice e budget).2.2 ∧
        (103 * budget < 100 * comp → t.power.parkDia = min 16 (s.power.parkDia + s.excess comp budget)) ∧
        ∀ a, t.byte a = s.byte a := by
  intro e comp dem give budget
  have hp := s.estShown_samePace e comp dem give
  have hc : (s.estShown e comp dem give).capChoice e budget = s.capChoice e budget := hp.capChoice e budget
  have hx : exec (.diaphragmEstimate est) s = .next (((s.estShown e comp dem give).capChosen
      (s.capChoice e budget)).estEnd e comp budget (s.capChoice e budget).1) := by
    rw [← hc]
    exact execDiaphragmEstimate_eq est s
  obtain ⟨m, l, hpow⟩ := s.estShown_power e comp dem give
  obtain ⟨c1, c2, c3, c4, c5, c6⟩ := (s.estShown e comp dem give).capChosen_spec (s.capChoice e budget)
    (s.capChoice_duty_lt e budget)
  have hmem := s.estShown_memKey e comp dem give
  generalize (s.estShown e comp dem give).capChosen (s.capChoice e budget) = v at *
  obtain ⟨e1, e2, e3, e4, e5, e6⟩ := v.estEnd_spec e comp budget (s.capChoice e budget).1
  refine ⟨_, hx, ?_, e2.trans c3, e3.trans c4, e4.trans c5, fun h => ?_, State.byte_of_memKey (e6.trans (c6.trans
    hmem))⟩
  · rw [e1, c1, hpow]
  · have hpark : v.power.parkDia = s.power.parkDia := by rw [c2, hpow]
    rw [e5 h, hpark]
    simp only [State.excess, hpark]

/-! ## The gains and the writes -/

theorem lookup_upsert {α β : Type} [DecidableEq α] (l : List (α × β)) (k : α) (v : β) (i : α) :
    lookup (upsert l k v) i = if i = k then some v else lookup l i := by
  induction l with
  | nil =>
    by_cases h : i = k
    · simp [upsert, lookup, h]
    · simp [upsert, lookup, h, Ne.symm h]
  | cons e l ih =>
    obtain ⟨j, w⟩ := e
    by_cases hj : j = k
    · subst hj
      by_cases h : i = j
      · simp [upsert, lookup, h]
      · simp [upsert, lookup, h, Ne.symm h]
    · by_cases h : j = i
      · subst h
        simp [upsert, lookup, hj]
      · simp [upsert, lookup, hj, h, ih]

theorem lookup_upsert_self {α β : Type} [DecidableEq α] (l : List (α × β)) (k : α) (v : β) :
    lookup (upsert l k v) k = some v := by rw [lookup_upsert, if_pos rfl]

/-- A rail's gain after a measurement. -/
def State.gainNext (s : State) (r m n : Nat) : Int :=
  clampInt 52429 78643 (s.gain r + (((65536 * m / n : Nat) : Int) - s.gain r) / 4)

theorem regulatorRead_completes (s : State) (r : Fin 18) (m : Nat) {n : Nat} (hn : n ≠ 0) :
    Completes (.regulatorRead r m n false) s fun t =>
      let g := (lookup s.power.gains r.val).getD 65536
      lookup t.power.gains r.val = some (clampInt 52429 78643 (g + (((65536 * m / n : Nat) : Int) - g) / 4)) ∧
      { t with power := s.power } = s := by
  have h : exec (.regulatorRead r m n false) s =
      .next (s.modPower fun p => { p with gains := upsert p.gains r.val (s.gainNext r m n) }) := by
    refine congrArg Host.Outcome.next ?_
    rw [if_neg (by simp), if_neg hn]
    rfl
  exact ⟨_, h, lookup_upsert_self _ _ _, rfl⟩

theorem row_DIA_CAP : Reg.row Reg.DIA_CAP = some ⟨"DIA_CAP", 0x2, 1, 0x0, 0x0, 1, 0x0, 1,
    [⟨31, 31, .lk, 0x0⟩, ⟨11, 0, .lk, 0xaf0⟩]⟩ := by decide +kernel

theorem row_DIA_PRIO : Reg.row Reg.DIA_PRIO = some ⟨"DIA_PRIO", 0x2, 1, 0x4, 0x0, 1, 0x0, 1, [⟨5, 0, .lk, 0x24⟩]⟩ := by
  decide +kernel

theorem row_DIA_MIN (c : Fin 3) : Reg.row (Reg.DIA_MIN c) = some ⟨"DIA_MINc", 0x2, 1, 0x10, 0x4, 3, 0x0, 1,
    [⟨11, 0, .lk, 0⟩]⟩ := by
  revert c
  decide +kernel

theorem lock_fields : (∀ f ∈ [(⟨31, 31, .lk, 0x0⟩ : FieldRow), ⟨11, 0, .lk, 0xaf0⟩], f.acc = .lk) ∧
    fieldsApart [⟨31, 31, .lk, 0x0⟩, ⟨11, 0, .lk, 0xaf0⟩] := by
  unfold fieldsApart
  decide

theorem State.locked_DIA_CAP (s : State) : s.locked Reg.DIA_CAP = s.flag F.DIA_CAP_LOCK :=
  (s.flag_eq_getLsbD (f := F.DIA_CAP_LOCK) rfl).symm

theorem diaCapWrite_unlocked {s : State} (v : BitVec 32) (h : s.flag F.DIA_CAP_LOCK = false) :
    Completes (.diaCapWrite .armature v) s fun t =>
        t.fget F.DIA_CAP_CAP = v.toNat % 4096 ∧ t.flag F.DIA_CAP_LOCK = v.getLsbD 31 ∧ t.power.frame = 0 ∧
        { t with regs := s.regs, power := s.power } = s := by
  have hl : s.locked Reg.DIA_CAP = false := s.locked_DIA_CAP.trans h
  have hx : exec (.diaCapWrite .armature v) s = .next ((s.setReg Reg.DIA_CAP (s.written (BitVec.allOnes 32) Reg.DIA_CAP
      v)).modPower fun p => { p with frame := 0 }) :=
    congrArg Host.Outcome.next (if_neg (by simp [hl, State.whole, State.mayWrite]))
  refine ⟨_, hx, ?_, ?_, rfl, State.frame_of_butPower (by simp)⟩
  · rw [State.modPower_fget]
    refine (s.written_fget (g := F.DIA_CAP_CAP) row_DIA_CAP lock_fields.2 (acc := .lk) (r := 0xaf0) (by decide)
      v).trans ?_
    rw [Acc.after, show s.locked F.DIA_CAP_CAP.key = false from hl]
    simp [F.DIA_CAP_CAP, Fld.width]
  · refine (s.written_flag (g := F.DIA_CAP_LOCK) row_DIA_CAP lock_fields.2 (acc := .lk) (r := 0) (by decide) rfl
    v).trans ?_
    rw [Acc.after, show s.locked F.DIA_CAP_LOCK.key = false from hl]
    rfl

theorem diaCapWrite_locked {s : State} (v : BitVec 32) (h : s.flag F.DIA_CAP_LOCK = true) :
    Completes (.diaCapWrite .armature v) s fun t => (∀ k, t.reg k = s.reg k) ∧ { t with regs := s.regs } = s := by
  have hl : s.locked Reg.DIA_CAP = true := s.locked_DIA_CAP.trans h
  have hx : exec (.diaCapWrite .armature v) s = .next (s.setReg Reg.DIA_CAP (s.written (BitVec.allOnes 32) Reg.DIA_CAP
      v)) := congrArg Host.Outcome.next (if_pos (Or.inr hl))
  refine ⟨_, hx, fun k => ?_, State.frame_of_butRegs (by simp)⟩
  rw [State.setReg_reg, s.written_locked row_DIA_CAP hl lock_fields.1]
  split
  next hk => rw [hk]
  next => rfl

theorem diaPrioWrite_completes {s : State} (v : BitVec 32) (h : s.flag F.DIA_CAP_LOCK = false) :
    let o := [v.toNat / 16 % 4, v.toNat / 4 % 4, v.toNat % 4]
    ([0, 1, 2].all o.contains = true → Completes (.diaPrioWrite .armature v) s fun t =>
      t.fget F.DIA_PRIO_ORDER = v.toNat % 64 ∧ { t with regs := s.regs } = s) ∧
    ([0, 1, 2].all o.contains = false → Completes (.diaPrioWrite .armature v) s fun t =>
      t.reg Reg.DIA_PRIO = s.reg Reg.DIA_PRIO ∧ t.flag F.DIA_STATUS_ERR = true ∧ { t with regs := s.regs } = s) := by
  intro o
  have hl : s.locked Reg.DIA_PRIO = false := s.locked_DIA_CAP.trans h
  refine ⟨fun ho => ⟨s.setReg Reg.DIA_PRIO (s.written (BitVec.allOnes 32) Reg.DIA_PRIO v),
    congrArg Host.Outcome.next (if_pos (Or.inr (Or.inr ho))), ?_, State.frame_of_butRegs (by simp)⟩,
    fun ho => ⟨s.setFlag F.DIA_STATUS_ERR true, congrArg Host.Outcome.next (if_neg ?_),
      State.fset_reg_ne _ _ _ _ (by decide), State.setFlag_flag _ _ _ rfl, State.frame_of_butRegs (by simp)⟩⟩
  · refine (s.written_fget (g := F.DIA_PRIO_ORDER) row_DIA_PRIO (List.pairwise_singleton _ _) (acc := .lk) (r := 0x24)
      (by decide) v).trans ?_
    rw [Acc.after, show s.locked F.DIA_PRIO_ORDER.key = false from hl]
    simp [F.DIA_PRIO_ORDER, Fld.width]
  · simp only [hl, State.whole, State.mayWrite]
    exact fun h => by simp [ho, o] at h

theorem diaMinWrite_completes {s : State} (c : Fin 3) (v : BitVec 32) (h : s.flag F.DIA_CAP_LOCK = false) :
    let sum := (([0, 1, 2].filter (· ≠ c.val)).map fun k => s.fget (F.DIA_MIN_W k)).sum + v.toNat % 4096
    (sum ≤ min 1000 s.capW → Completes (.diaMinWrite .armature c v) s fun t =>
      t.fget (F.DIA_MIN_W c) = v.toNat % 4096 ∧ { t with regs := s.regs } = s) ∧
    (min 1000 s.capW < sum → Completes (.diaMinWrite .armature c v) s fun t =>
      t.reg (Reg.DIA_MIN c) = s.reg (Reg.DIA_MIN c) ∧ t.flag F.DIA_STATUS_ERR = true ∧ { t with regs := s.regs } = s)
        := by
  intro sum
  have hlk : ∀ c : Fin 3, lockOf (Reg.DIA_MIN c) = Reg.DIA_CAP := by decide
  have hl : s.locked (Reg.DIA_MIN c) = false := by
    rw [State.locked, hlk c]
    exact s.locked_DIA_CAP.trans h
  have hne : ∀ c : Fin 3, Reg.DIA_MIN c ≠ F.DIA_STATUS_ERR.key := by decide
  refine ⟨fun ho => ⟨s.setReg (Reg.DIA_MIN c) (s.written (BitVec.allOnes 32) (Reg.DIA_MIN c) v),
    congrArg Host.Outcome.next (if_pos (Or.inr (Or.inr ho))), ?_, State.frame_of_butRegs (by simp)⟩,
    fun ho => ⟨s.setFlag F.DIA_STATUS_ERR true, congrArg Host.Outcome.next (if_neg ?_),
      State.fset_reg_ne _ _ _ _ (hne c), State.setFlag_flag _ _ _ rfl, State.frame_of_butRegs (by simp)⟩⟩
  · refine (s.written_fget (g := F.DIA_MIN_W c) (row_DIA_MIN c) (List.pairwise_singleton _ _) (acc := .lk) (r := 0)
      (List.mem_singleton.mpr rfl) v).trans ?_
    rw [Acc.after, show s.locked (F.DIA_MIN_W c).key = false from hl]
    simp [F.DIA_MIN_W, Fld.width]
  · rintro (hw | hw | hw)
    · simp [State.whole, State.mayWrite] at hw
    · rw [hl] at hw
      cases hw
    · exact absurd hw (Nat.not_le.mpr ho)

/-- Settles O44, command by command. The choice of an estimate is made after its budgets and throttles are shown, and
  reads
nothing of what that wrote. -/
theorem powerCapIsKept : Obligations.PowerCapIsKept := by
  intro s
  exact ⟨fun est => diaphragmEstimate_completes s est, ⟨_, rfl, rfl, rfl⟩,
    fun r m n hn => regulatorRead_completes s r m hn, fun v => ⟨fun h => diaCapWrite_unlocked v h,
      fun h => diaCapWrite_locked v h, fun h => ⟨(diaPrioWrite_completes v h).1, (diaPrioWrite_completes v h).2,
        fun c => diaMinWrite_completes c v h⟩⟩⟩

end Sys2Proof.Machine
end

section
/-! SUPPORT. Halts, sag and power states (R300, R303 to R306). -/
namespace Sys2Proof.Machine

/-! ## Halts -/

/-- The status registers that a halt writes: what each Riffler holds, and each die's rail. -/
def haltReg (k : Nat) : Bool :=
  [Reg.RIF_STATUS 0, Reg.RIF_STATUS 1, Reg.RIF_STATUS 2, Reg.RIF_STATUS 3, Reg.HEL_STATUS 0, Reg.HEL_STATUS 1,
    Reg.HEL_STATUS 2, Reg.HEL_STATUS 3].contains k

theorem RIF_STATUS_halt : ∀ n < 4, haltReg (Reg.RIF_STATUS n) = true := by decide

theorem HEL_STATUS_halt : ∀ e ∈ [0, 1, 2, 3], haltReg (Reg.HEL_STATUS e) = true := by decide

theorem State.showHeld_reg (s : State) {k : Nat} (h : ∀ n < 4, k ≠ Reg.RIF_STATUS n) : s.showHeld.reg k = s.reg k := by
  unfold State.showHeld
  dsimp only
  refine List.foldlRecOn (motive := fun t : State => t.reg k = s.reg k) _ _ rfl fun t ht n hn => ?_
  rw [State.fset_reg_ne _ _ _ _ (h n (List.mem_range.mp hn)), ht]

/-- Everything but what a halt changes: registers, engines, the idle account and the UPDATE's chunks in service. -/
def State.butHalt (s : State) : State := { s with regs := [], engines := [], idle := [], upd := none }

theorem State.showHeld_butRegs (s : State) : s.showHeld.butRegs = s.butRegs := by
  unfold State.showHeld
  exact List.foldlRecOn (motive := fun t : State => t.butRegs = s.butRegs) _ _ rfl fun t ht n _ => by
    rw [State.fset_butRegs, ht]

theorem State.butHalt_of_butRegs {s t : State} (h : t.butRegs = s.butRegs) : t.butHalt = s.butHalt :=
  (congrArg State.butHalt h :)
theorem State.butHalt_of_butEngines {s t : State} (h : t.butEngines = s.butEngines) : t.butHalt = s.butHalt :=
  (congrArg State.butHalt h :)

theorem State.upd_of_butRegs {s t : State} (h : t.butRegs = s.butRegs) : t.upd = s.upd := (congrArg State.upd h :)

theorem State.dropChunks_spec (s : State) : s.dropChunks.butHalt = s.butHalt ∧
    (∀ k, (∀ n < 4, k ≠ Reg.RIF_STATUS n) → s.dropChunks.reg k = s.reg k) ∧
    ∀ u, s.dropChunks.upd = some u → u.act = [] := by
  unfold State.dropChunks
  split
  next h => exact ⟨rfl, fun _ _ => rfl, fun u hu => by rw [h] at hu; cases hu⟩
  next u h =>
    refine ⟨(State.butHalt_of_butRegs (State.showHeld_butRegs _)).trans rfl, fun k hk => State.showHeld_reg _ hk,
      fun v hv => ?_⟩
    rw [State.upd_of_butRegs (State.showHeld_butRegs _)] at hv
    cases hv
    rfl

/-- The rail of one die. -/
def State.setRail (f : Nat → Nat) (s : State) (d : Nat) : State :=
  if s.dieQ d then s else s.fset (F.HEL_STATUS_VOUT d) (f d)

theorem State.setRails_eq (s : State) (f : Nat → Nat) : s.setRails f = [0, 1, 2, 3].foldl (State.setRail f) s := rfl

theorem State.setRail_reg (f : Nat → Nat) (s : State) (e k : Nat) (h : k ≠ Reg.HEL_STATUS e) :
    (State.setRail f s e).reg k = s.reg k := by
  unfold State.setRail
  split
  · rfl
  · exact State.fset_HEL_reg _ rfl _ h

theorem State.setRail_power (f : Nat → Nat) (s : State) (e : Nat) : (State.setRail f s e).power = s.power := by
  unfold State.setRail
  split <;> rfl

theorem State.setRails_reg (s : State) (f : Nat → Nat) {k : Nat} (h : ∀ e ∈ [0, 1, 2, 3], k ≠ Reg.HEL_STATUS e) :
    (s.setRails f).reg k = s.reg k := State.foldl_dies_reg (State.setRail_reg f) h s

theorem State.setRails_butRegs (s : State) (f : Nat → Nat) : (s.setRails f).butRegs = s.butRegs := by
  rw [State.setRails_eq]
  refine List.foldlRecOn (motive := fun t : State => t.butRegs = s.butRegs) _ _ rfl fun t ht n _ => ?_
  unfold State.setRail
  split
  · exact ht
  · rw [State.fset_butRegs, ht]

/-- The rail of a die in service takes the voltage set. -/
theorem State.setRails_vout (s : State) {f : Nat → Nat} {d : Fin 4} (hq : s.dieQ d = false) (hf : f d < 1024) :
    (s.setRails f).fget (F.HEL_STATUS_VOUT d) = f d := by
  obtain ⟨u, -, hk, hs⟩ := State.foldl_dies_status (State.setRail_reg f) (State.setRail_power f)
    (ds := [0, 1, 2, 3]) (d := d) (by decide) (mem_dies d) s
  have hq' : u.dieQ d = false := by
    rw [← hq]
    exact congrArg (Nat.testBit · d) (State.fget_of_reg (f := F.TST_ESC_DIEQ) (hk _ fun e he _ => dieq_ne e he))
  rw [State.setRails_eq, State.fget_of_reg (f := F.HEL_STATUS_VOUT d) hs, State.setRail, hq', if_neg (by simp),
    State.fset_fget _ _ _ rfl]
  exact Nat.mod_eq_of_lt hf

/-- A halt: the rails fall to 0.50 V, and nothing but the registers it writes, the charge of idle time and the chunks in
service changes. -/
theorem State.retain_spec (s : State) :
    s.retain.butHalt = s.butHalt ∧ s.retain.fget F.DIA_PSTATE_STATE = 2 ∧
      (∀ d : Fin 4, s.dieQ d = false → s.retain.fget (F.HEL_STATUS_VOUT d) = 500) ∧
      ∀ g : Fld, haltReg g.key = false → F.DIA_PSTATE_STATE.apart g = true → s.retain.fget g = s.fget g := by
  have hset : ((List.range 16).foldl State.settleSlot s).butEngines = s.butEngines := s.foldl_settleSlot_frame _
  obtain ⟨hb, hr, -⟩ := ((List.range 16).foldl State.settleSlot s).dropChunks_spec
  have hq (d : Nat) : (((List.range 16).foldl State.settleSlot s).dropChunks).dieQ d = s.dieQ d := by
    refine congrArg (Nat.testBit · d) (State.fget_of_reg (f := F.TST_ESC_DIEQ) ?_)
    rw [hr _ (by decide)]
    simp only [State.reg, State.regs_of_butEngines hset]
  refine ⟨?_, State.fset_fget _ _ _ rfl, fun d hd => ?_, fun g hg hp => ?_⟩
  · exact (State.butHalt_of_butRegs ((State.fset_butRegs _ _ _).trans (State.setRails_butRegs _ _))).trans
      (hb.trans (State.butHalt_of_butEngines hset))
  · have hne : ∀ d : Fin 4, F.DIA_PSTATE_STATE.key ≠ (F.HEL_STATUS_VOUT d).key := by decide
    rw [State.retain, State.fset_fget_apart _ _ _ _ (Fld.apart_of_key (hne d)),
      State.setRails_vout _ ((hq d).trans hd) (by decide)]
  · rw [State.retain, State.fset_fget_apart _ _ _ _ hp]
    refine State.fget_of_reg ?_
    have hne (k : Nat) (hk : haltReg k = true) : g.key ≠ k := fun h => by
      rw [h, hk] at hg
      cases hg
    rw [State.setRails_reg _ _ fun e he => hne _ (HEL_STATUS_halt e he), hr _ fun n hn => hne _ (RIF_STATUS_halt n hn)]
    simp only [State.reg, State.regs_of_butEngines hset]

/-! ## The return from RETENTION -/

theorem State.ahead_butSends (s : State) (p : Nat) (ms : List Msg) : (s.ahead p ms).butSends = s.butSends := by
  unfold State.ahead
  split
  · rfl
  · rw [State.pump_butSends, State.modPort_butSends]

theorem State.reroute_butSends (s : State) : s.reroute.butSends = s.butSends := by
  unfold State.reroute
  dsimp only
  refine (State.foldl_butSends (fun t (q : BitVec 16 × Msg) => t.toPkg q.1 q.2)
    (fun t q => State.toPkg_butSends t q.1 q.2) _ _).trans ?_
  exact State.butSends_with.trans (State.foldl_butSends _ (fun t p => State.ahead_butSends t p _) _ _)

theorem State.reg_of_butSends {s t : State} (h : t.butSends = s.butSends) (k : Nat) : t.reg k = s.reg k :=
  (congrArg (fun u : State => u.reg k) h :)
theorem State.power_of_butSends {s t : State} (h : t.butSends = s.butSends) : t.power = s.power := (congrArg
  State.power h :)

theorem State.power_of_butRegs {s t : State} (h : t.butRegs = s.butRegs) : t.power = s.power := (congrArg State.power
  h :)

/-- The return from RETENTION into IDLE: the rails return to the step in force. -/
theorem State.unretain_spec (s : State) :
    s.unretain.fget F.DIA_PSTATE_STATE = 1 ∧
      (∀ d : Fin 4, s.dieQ d = false →
        s.unretain.fget (F.HEL_STATUS_VOUT d) = s.tableVolt d (s.fget F.DIA_PACE_STEP)) ∧
      (∀ k, haltReg k = false → k ≠ Reg.DIA_PSTATE → s.unretain.reg k = s.reg k) ∧
      s.unretain.power = s.power ∧ s.unretain.memKey = s.memKey := by
  let u := s.fset F.DIA_PSTATE_STATE 1
  let v := u.setRails fun d => u.tableVolt d (u.fget F.DIA_PACE_STEP)
  have hreg (k : Nat) : s.unretain.reg k = v.reg k := by
    rw [State.unretain, State.reg_of_butSends (State.reroute_butSends _)]
    simp only [State.reg, State.regs_of_butEngines (State.foldl_settleSlot_frame _ _)]
    rfl
  have hfget (g : Fld) : s.unretain.fget g = v.fget g := State.fget_of_reg (hreg _)
  have hv (k : Nat) (hk : ∀ e ∈ [0, 1, 2, 3], k ≠ Reg.HEL_STATUS e) : v.reg k = u.reg k := State.setRails_reg _ _ hk
  refine ⟨?_, fun d hd => ?_, fun k hk hp => ?_, ?_, ?_⟩
  · rw [hfget, State.fget_of_reg (hv _ (by decide))]
    exact State.fset_fget _ _ _ rfl
  · have hq : u.dieQ d = false := by
      rw [← hd]
      exact congrArg (Nat.testBit · d) (State.fget_of_reg (f := F.TST_ESC_DIEQ) (State.fset_reg_ne _ _ _ _ (by decide)))
    have hvout : v.fget (F.HEL_STATUS_VOUT d) = u.tableVolt d (u.fget F.DIA_PACE_STEP) :=
      State.setRails_vout (f := fun d => u.tableVolt d (u.fget F.DIA_PACE_STEP)) _ hq (State.tableVolt_lt _ _ _)
    rw [hfget, hvout, State.fget_of_reg (s := s) (f := F.DIA_PACE_STEP) (State.fset_reg_ne _ _ _ _ (by decide))]
    refine State.tableVolt_of_reg (State.fset_reg_ne _ _ _ _ ?_)
    simp only [Reg.HEL_VT, F.DIA_PSTATE_STATE, Reg.DIA_PSTATE]
    omega
  · have hne (e : Nat) (he : e ∈ [0, 1, 2, 3]) : k ≠ Reg.HEL_STATUS e := fun h => by
      rw [h, HEL_STATUS_halt e he] at hk
      cases hk
    rw [hreg, hv _ hne]
    exact State.fset_reg_ne _ _ _ _ hp
  · rw [State.unretain, State.power_of_butSends (State.reroute_butSends _),
      State.power_of_butEngines (State.foldl_settleSlot_frame _ _), State.power_of_butRegs (State.setRails_butRegs _ _)]
    rfl
  · simp only [State.unretain, State.reroute_memKey, State.foldl_memKey, implies_true, State.settleSlot_memKey,
      State.setRails_memKey, State.fset_memKey']

/-! ## A crash dump -/

/-- Everything but what a dump writes. -/
def State.butDump (s : State) : State := { s with regs := [], dumps := [], msix := 0 }

/-- The mark of a dump's slot. -/
def newDump (k : Nat) : Fld := if k = 0 then F.TST_DUMP_NEW0 else F.TST_DUMP_NEW1

theorem newDump_spec (k : Nat) : (newDump k).key = Reg.TST_DUMP ∧ (newDump k).apart F.TST_DUMP_DUMPS = true := by
  unfold newDump
  split <;> exact ⟨rfl, rfl⟩

/-- The dump written to a slot (R347). -/
def State.dumpOf (s : State) (cause : Nat) (hang : List (Nat × Nat)) : Dump :=
  { n := s.fget F.TST_DUMP_DUMPS, cause := cause, time := s.now, regs := s.regs, recs := s.ring.drop (s.ring.length -
    256),
    caps := s.caps, queues := s.cqs, ctxs := s.ctxs, semq := s.semq, hang := hang }

theorem State.dump_eq (s : State) (c : Nat) (hang : List (Nat × Nat)) :
    s.dump c hang = (((State.fsat { (if s.flag (newDump s.dumpSlot) then s.fsat F.TST_DUMP_LOST 1 else s) with
      dumps := upsert (if s.flag (newDump s.dumpSlot) then s.fsat F.TST_DUMP_LOST 1 else s).dumps s.dumpSlot
        (s.dumpOf c hang) } F.TST_DUMP_DUMPS 1).setFlag (newDump s.dumpSlot) true).fset F.TST_DUMP_CAUSE c).irq 18 :=
          rfl

/-- A dump takes its slot, counts, shows its cause and tells the host (R347). -/
theorem State.dump_spec (s : State) (c : Nat) (hang : List (Nat × Nat)) (hc : c < 16) :
    (s.dump c hang).butDump = s.butDump ∧ (s.dump c hang).fget F.TST_DUMP_CAUSE = c ∧
      (s.dump c hang).fget F.TST_DUMP_DUMPS = min 0xFFFF (s.fget F.TST_DUMP_DUMPS + 1) ∧
      (s.dump c hang).msix.getLsbD 18 = true ∧
      ((lookup (s.dump c hang).dumps s.dumpSlot).map fun x => (x.time, x.regs, x.caps)) = some (s.now, s.regs, s.caps) ∧
      ∀ k, k ≠ Reg.TST_DUMP → (s.dump c hang).reg k = s.reg k := by
  obtain ⟨hkey, hap⟩ := newDump_spec s.dumpSlot
  rw [State.dump_eq]
  generalize hu : (if s.flag (newDump s.dumpSlot) then s.fsat F.TST_DUMP_LOST 1 else s) = u
  have hub : u.butRegs = s.butRegs := by
    rw [← hu]
    split <;> simp
  have hreg (k : Nat) (hk : k ≠ Reg.TST_DUMP) : u.reg k = s.reg k := by
    rw [← hu]
    split
    · exact State.fset_reg_ne _ _ _ _ hk
    · rfl
  have hdumps : u.fget F.TST_DUMP_DUMPS = s.fget F.TST_DUMP_DUMPS := by
    rw [← hu]
    split
    · exact State.fsat_fget_apart _ _ _ _ rfl
    · rfl
  refine ⟨(congrArg State.butDump hub :), ?_, ?_, ?_, ?_, fun k hk => ?_⟩
  · exact (State.fset_fget _ F.TST_DUMP_CAUSE c rfl).trans (Nat.mod_eq_of_lt hc)
  · refine (State.fset_fget_apart _ F.TST_DUMP_CAUSE F.TST_DUMP_DUMPS c rfl).trans ?_
    rw [State.setFlag_fget_apart _ _ _ _ hap, State.fsat_fget _ _ _ rfl]
    exact congrArg (fun n => min 0xFFFF (n + 1)) hdumps
  · show (_ ||| (1#32 <<< 18)).getLsbD 18 = true
    rw [BitVec.getLsbD_or]
    simp
  · show (lookup (upsert u.dumps s.dumpSlot (s.dumpOf c hang)) s.dumpSlot).map _ = _
    rw [lookup_upsert_self]
    rfl
  · refine (State.fset_reg_ne _ F.TST_DUMP_CAUSE c k hk).trans ?_
    rw [State.setFlag, State.fset_reg_ne _ _ _ _ (hkey ▸ hk)]
    exact (State.fset_reg_ne _ F.TST_DUMP_DUMPS _ k hk).trans (hreg k hk)

theorem State.memKey_of_butDump {s t : State} (h : t.butDump = s.butDump) : t.memKey = s.memKey :=
  (congrArg State.memKey h :)

/-! ## Trips and emergency stops -/

/-- What a halted package keeps: its tiles, accumulators, contexts and memory, with the rails at 0.50 V. -/
def State.haltsTo (s t : State) (d : Fin 4) : Prop :=
  t.fget F.DIA_PSTATE_STATE = 2 ∧ (s.dieQ d = false → t.fget (F.HEL_STATUS_VOUT d) = 500) ∧ t.tiles = s.tiles ∧
    t.accs = s.accs ∧ t.ctxs = s.ctxs ∧ ∀ a, t.byte a = s.byte a

/-- Everything but what a halt, the records it files and its dump change. -/
def State.butStop (s : State) : State :=
  { s.butRecords with engines := [], idle := [], upd := none, dumps := [] }

theorem State.butStop_of_butHalt {s t : State} (h : t.butHalt = s.butHalt) : t.butStop = s.butStop :=
  (congrArg State.butStop h :)
theorem State.butStop_of_butRecords {s t : State} (h : t.butRecords = s.butRecords) : t.butStop = s.butStop :=
  (congrArg State.butStop h :)
theorem State.butStop_of_butDump {s t : State} (h : t.butDump = s.butDump) : t.butStop = s.butStop :=
  (congrArg State.butStop h :)
theorem State.butStop_of_butRegs {s t : State} (h : t.butRegs = s.butRegs) : t.butStop = s.butStop :=
  (congrArg State.butStop h :)

theorem State.haltsTo_of {s t : State} {d : Fin 4} (hb : t.butStop = s.butStop)
    (hr : ∀ k ∈ [Reg.DIA_PSTATE, Reg.HEL_STATUS d], t.reg k = s.retain.reg k) : s.haltsTo t d := by
  obtain ⟨-, h2, hv, -⟩ := s.retain_spec
  refine ⟨?_, fun hq => ?_, (congrArg State.tiles hb :), (congrArg State.accs hb :), (congrArg State.ctxs hb :),
    State.byte_of_memKey (congrArg State.memKey hb :)⟩
  · rw [← h2]
    exact State.fget_of_reg (hr _ (by simp [F.DIA_PSTATE_STATE]))
  · rw [← hv d hq]
    exact State.fget_of_reg (hr _ (by simp [F.HEL_STATUS_VOUT]))

/-- The registers of a halted package that neither a stop's flag, its count, its record nor its dump writes. -/
theorem stopKept (d : Fin 4) : ∀ k ∈ [Reg.DIA_PSTATE, Reg.HEL_STATUS d],
    k ≠ Reg.TST_DUMP ∧ k ≠ Reg.DIA_STATUS ∧ k ≠ Reg.DIA_TRIP ∧ recordReg k = false := by
  revert d
  decide

/-- The external fault signal and the dump of a stop. -/
theorem State.faultDump_spec (u : State) (n c : Nat) (hc : c < 16) :
    ((u.faultN n).dump c []).butStop = u.butStop ∧ ((u.faultN n).dump c []).fget F.TST_DUMP_CAUSE = c ∧
      ∀ i, i ≠ Reg.TST_DUMP → recordReg i = false → ((u.faultN n).dump c []).reg i = u.reg i := by
  obtain ⟨hb, hcause, -, -, -, hr⟩ := (u.faultN n).dump_spec c [] hc
  exact ⟨(State.butStop_of_butDump hb).trans (State.butStop_of_butRecords (u.faultN_butRecords n)), hcause,
    fun i h1 h2 => (hr i h1).trans (State.reg_of_calmRegs (u.faultN_calmRegs n) h2)⟩

/-- The package just after a trip's halt, before its record. -/
def State.tripped (s : State) : State := (s.retain.setFlag F.DIA_STATUS_TRIPPED true).fsat F.DIA_TRIP_TRIPS 1

theorem State.tripped_spec (s : State) : s.tripped.butStop = s.butStop ∧ s.tripped.flag F.DIA_STATUS_TRIPPED = true ∧
    s.tripped.fget F.DIA_TRIP_TRIPS = min 0xFFFF (s.fget F.DIA_TRIP_TRIPS + 1) ∧
    ∀ k, k ≠ Reg.DIA_STATUS → k ≠ Reg.DIA_TRIP → s.tripped.reg k = s.retain.reg k := by
  obtain ⟨hb, -, -, hg⟩ := s.retain_spec
  refine ⟨?_, ?_, ?_, fun k h1 h2 => ?_⟩
  · exact (State.butStop_of_butRegs ((State.fsat_butRegs _ _ _).trans (State.setFlag_butRegs _ _ _))).trans
      (State.butStop_of_butHalt hb)
  · rw [State.tripped, State.fsat, State.fset_flag_apart _ _ _ _ rfl, State.setFlag_flag _ _ _ rfl]
  · rw [State.tripped, State.fsat_fget _ _ _ rfl, State.setFlag_fget_apart _ _ _ _ rfl, hg _ (by decide) rfl]
    rfl
  · rw [State.tripped, State.fsat, State.fset_reg_ne _ _ _ _ h2, State.setFlag, State.fset_reg_ne _ _ _ _ h1]

theorem execTrip_of {s : State} (k : BitVec 10) (h : s.power.railsUp = true) : exec (.trip k) s =
    .next (((s.tripped.event 0x0F (BitVec.ofNat 32 (0xC0000000 + k.toNat)) (BitVec.ofNat 32 k.toNat) 0 0).faultN 4).dump
      2 []) :=
  congrArg Host.Outcome.next (if_neg (by simp [h]))

theorem trip_completes {s : State} (d : Fin 4) (k : BitVec 10) (h : s.power.railsUp = true) :
    Completes (.trip k) s fun t => s.haltsTo t d ∧ t.flag F.DIA_STATUS_TRIPPED = true ∧ t.fget F.TST_DUMP_CAUSE = 2 ∧
      t.fget F.DIA_TRIP_TRIPS = min 0xFFFF (s.fget F.DIA_TRIP_TRIPS + 1) := by
  obtain ⟨hb, hflag, htrips, hreg⟩ := s.tripped_spec
  refine ⟨_, execTrip_of k h, ?_⟩
  generalize s.tripped = v at *
  have hvb := v.event_butRecords 0x0F (BitVec.ofNat 32 (0xC0000000 + k.toNat)) (BitVec.ofNat 32 k.toNat) 0 0
  have hv := v.event_calmRegs 0x0F (BitVec.ofNat 32 (0xC0000000 + k.toNat)) (BitVec.ofNat 32 k.toNat) 0 0
  generalize v.event 0x0F (BitVec.ofNat 32 (0xC0000000 + k.toNat)) (BitVec.ofNat 32 k.toNat) 0 0 = u at *
  obtain ⟨db, dc, dr⟩ := u.faultDump_spec 4 2 (by decide)
  have kept (i : Nat) (h1 : i ≠ Reg.TST_DUMP) (h2 : recordReg i = false) : ((u.faultN 4).dump 2 []).reg i = v.reg i :=
    (dr i h1 h2).trans (State.reg_of_calmRegs hv h2)
  refine ⟨State.haltsTo_of (db.trans ((State.butStop_of_butRecords hvb).trans hb)) fun i hi => ?_, ?_, dc, ?_⟩
  · obtain ⟨h1, h2, h3, h4⟩ := stopKept d i hi
    exact (kept i h1 h4).trans (hreg i h2 h3)
  · exact (State.flag_of_reg (f := F.DIA_STATUS_TRIPPED) (kept _ (by decide) (by decide))).trans hflag
  · exact (State.fget_of_reg (f := F.DIA_TRIP_TRIPS) (kept _ (by decide) (by decide))).trans htrips

theorem execEmergencyStop_of {s : State} (hl : s.power.paceLow = true) (h : s.power.railsUp = true) :
    exec .emergencyStop s = .next (((s.retain.setFlag F.DIA_STATUS_ESTOP true).faultN 3).dump 3 []) :=
  congrArg Host.Outcome.next (if_neg (by simp [h, hl]))

theorem emergencyStop_completes {s : State} (d : Fin 4) (hl : s.power.paceLow = true) (h : s.power.railsUp = true) :
    Completes .emergencyStop s fun t => s.haltsTo t d ∧ t.flag F.DIA_STATUS_ESTOP = true ∧ t.fget F.TST_DUMP_CAUSE =
      3 := by
  obtain ⟨hb, -, -, -⟩ := s.retain_spec
  refine ⟨_, execEmergencyStop_of hl h, ?_⟩
  obtain ⟨db, dc, dr⟩ := (s.retain.setFlag F.DIA_STATUS_ESTOP true).faultDump_spec 3 3 (by decide)
  refine ⟨State.haltsTo_of ?_ fun i hi => ?_, ?_, dc⟩
  · exact db.trans ((State.butStop_of_butRegs (State.setFlag_butRegs _ _ _)).trans (State.butStop_of_butHalt hb))
  · obtain ⟨h1, h2, -, h4⟩ := stopKept d i hi
    rw [dr i h1 h4, State.setFlag, State.fset_reg_ne _ _ _ _ h2]
  · rw [State.flag_of_reg (f := F.DIA_STATUS_ESTOP) (dr _ (by decide) (by decide)), State.setFlag_flag _ _ _ rfl]

/-- A stop that is ended: both flags clear, the thermal ceiling at FLOOR, and the step that follows (R303). -/
def State.rearmed (s : State) : State :=
  let u := (s.setFlag F.DIA_STATUS_TRIPPED false).setFlag F.DIA_STATUS_ESTOP false
  (u.fset F.DIA_PACE_THERM (u.fget F.DIA_PACE_FLOOR)).rePace

theorem State.modPower_reg (s : State) (f : Power → Power) (k : Nat) : (s.modPower f).reg k = s.reg k := rfl

/-- The slots that are not parked, each due at its wave (R296). -/
def State.readmits (s : State) : List (Nat × BitVec 64) :=
  ((List.range 16).filter fun i => !s.parkedSlot i).map fun i =>
    (i, s.now + BitVec.ofNat 64 (s.waveOf i * s.fget F.CLV_WAVE_PERIOD))

theorem State.rearmed_spec (s : State) : s.rearmed.stopped = false ∧
    s.rearmed.fget F.DIA_PACE_THERM = s.fget F.DIA_PACE_FLOOR ∧ s.rearmed.memKey = s.memKey := by
  refine ⟨?_, ?_, by simp [State.rearmed]⟩
  · rw [State.stopped, Bool.or_eq_false_iff]
    refine ⟨?_, ?_⟩
    · rw [State.rearmed, State.rePace_flag _ rfl, State.fset_flag_apart _ _ _ _ rfl, State.setFlag_flag_apart _ _ _ _
      rfl,
        State.setFlag_flag _ _ _ rfl]
    · rw [State.rearmed, State.rePace_flag _ rfl, State.fset_flag_apart _ _ _ _ rfl, State.setFlag_flag _ _ _ rfl]
  · rw [State.rearmed, State.rePace_fget _ rfl, State.fset_fget _ _ _ rfl, State.setFlag_fget_apart _ _ _ _ rfl,
      State.setFlag_fget_apart _ _ _ _ rfl]
    exact Nat.mod_eq_of_lt (State.fget_lt _ _)

theorem execRearm_eq (s : State) : exec (.rearm .armature) s = .next s.rearm :=
  congrArg Host.Outcome.next ((State.acting_armature s Reg.DIA_TRIP 0x80000000#32 _).trans (if_pos (by decide)))

theorem execRearm_of {s : State}
    (hs : s.stopped = true) (hh : (s.flag F.DIA_STATUS_TRIPPED && decide (380 ≤ signed 16 (s.fget F.DIA_THERM_TMAX)))
      = false)
    (hl : (s.flag F.DIA_STATUS_ESTOP && s.power.paceLow) = false) :
    exec (.rearm .armature) s = .next ((s.rearmed.modPower fun p => { p with admits := s.rearmed.readmits
      }).unretain) := by
  have hc : ¬(s.stopped = false ∨ (s.flag F.DIA_STATUS_TRIPPED && decide (380 ≤ signed 16 (s.fget F.DIA_THERM_TMAX)))
    = true ∨
      (s.flag F.DIA_STATUS_ESTOP && s.power.paceLow) = true) := by simp [hs, hh, hl]
  exact (execRearm_eq s).trans (congrArg Host.Outcome.next (if_neg hc))

/-- Re-arm at a time when no cause stands: it clears both flags and leaves RETENTION. -/
theorem rearm_completes {s : State}
    (hs : s.stopped = true) (hh : (s.flag F.DIA_STATUS_TRIPPED && decide (380 ≤ signed 16 (s.fget F.DIA_THERM_TMAX)))
      = false)
    (hl : (s.flag F.DIA_STATUS_ESTOP && s.power.paceLow) = false) : Completes (.rearm .armature) s fun t =>
      t.stopped = false ∧ t.fget F.DIA_PACE_THERM = s.fget F.DIA_PACE_FLOOR ∧ t.fget F.DIA_PSTATE_STATE = 1 ∧
      ∀ a, t.byte a = s.byte a := by
  obtain ⟨hstop, hth, hmem⟩ := s.rearmed_spec
  refine ⟨_, execRearm_of hs hh hl, ?_⟩
  generalize s.rearmed = v at *
  obtain ⟨h1, -, hg, -, hm⟩ := State.unretain_spec (v.modPower fun p => { p with admits := v.readmits })
  have kept (k : Nat) (hk : haltReg k = false) (hp : k ≠ Reg.DIA_PSTATE) :
      (v.modPower fun p => { p with admits := v.readmits }).unretain.reg k = v.reg k :=
    (hg k hk hp).trans (State.modPower_reg _ _ _)
  refine ⟨?_, (State.fget_of_reg (f := F.DIA_PACE_THERM) (kept _ (by decide) (by decide))).trans hth, h1, ?_⟩
  · rw [← hstop, State.stopped, State.flag_of_reg (f := F.DIA_STATUS_TRIPPED) (kept _ (by decide) (by decide)),
      State.flag_of_reg (f := F.DIA_STATUS_ESTOP) (kept _ (by decide) (by decide)), State.stopped]
  · exact State.byte_of_memKey (hm.trans ((State.modPower_memKey _ _).trans hmem))

/-! ## Sag levels (R304) -/

/-- What a change of the levels makes of the power state, but for the slots it admits. -/
def State.leveled (s : State) (f : Power → Power) : Power :=
  let p := f s.power
  let q := if s.power.l2 = p.l2 then p else { p with droopL2 := if p.l2 then min 15 (s.fget F.DIA_PACE_STEP + 4) else
    0 }
  if s.power.l3 = p.l3 then q else { q with parkSag := p.l3 }

/-- The highest level in force. -/
def Power.level (p : Power) : Nat :=
  if p.l4 then 4 else if p.sag.getLsbD 2 then 3 else if p.sag.getLsbD 1 then 2 else if p.sag.getLsbD 0 then 1 else 0

theorem Power.level_lt (p : Power) : p.level < 8 := by
  unfold Power.level
  repeat' split
  all_goals decide

theorem State.showSag_eq (s : State) : s.showSag = if s.fget F.DIA_SAG_LEVEL = 0 ∧ 0 < s.power.level then
    (s.fset F.DIA_SAG_LEVEL s.power.level).fsat F.DIA_SAG_EVENTS 1 else s.fset F.DIA_SAG_LEVEL s.power.level := rfl

theorem State.showSag_power (s : State) : s.showSag.power = s.power := by
  rw [State.showSag_eq]
  split <;> rfl

theorem State.showSag_level (s : State) : s.showSag.fget F.DIA_SAG_LEVEL = s.power.level := by
  have h : (s.fset F.DIA_SAG_LEVEL s.power.level).fget F.DIA_SAG_LEVEL = s.power.level :=
    (State.fset_fget _ _ _ rfl).trans (Nat.mod_eq_of_lt s.power.level_lt)
  rw [State.showSag_eq]
  split
  · exact (State.fsat_fget_apart _ _ _ _ rfl).trans h
  · exact h

theorem State.toLevels_power (s : State) (f : Power → Power) :
    ∃ a, (s.toLevels f).power = { s.leveled f with admits := a } := by
  unfold State.toLevels
  dsimp only
  rw [State.showSag_power]
  dsimp only
  have h2 : (if s.power.l2 = (s.modPower f).power.l2 then s.modPower f else ((s.modPower f).modPower fun p =>
      { p with droopL2 := if (s.modPower f).power.l2 then min 15 (s.fget F.DIA_PACE_STEP + 4) else 0 }).rePace).power =
      if s.power.l2 = (f s.power).l2 then f s.power
      else { f s.power with droopL2 := if (f s.power).l2 then min 15 (s.fget F.DIA_PACE_STEP + 4) else 0 } :=
    apply_ite State.power _ _ _
  generalize (if s.power.l2 = (s.modPower f).power.l2 then s.modPower f else ((s.modPower f).modPower fun p =>
      { p with droopL2 := if (s.modPower f).power.l2 then min 15 (s.fget F.DIA_PACE_STEP + 4) else 0 }).rePace) = u at *
  show ∃ a, (if s.power.l3 = (f s.power).l3 then u else _ : State).power = _
  unfold State.leveled
  dsimp only
  rw [← h2]
  split
  · exact ⟨_, rfl⟩
  · exact State.repark_power _ _

theorem State.leveled_sag (s : State) (f : Power → Power) : (s.leveled f).sag = (f s.power).sag := by
  unfold State.leveled
  simp only [apply_ite Power.sag, ite_self]

theorem State.leveled_l4 (s : State) (f : Power → Power) : (s.leveled f).l4 = (f s.power).l4 := by
  unfold State.leveled
  simp only [apply_ite Power.l4, ite_self]

theorem State.leveled_pwrfailLow (s : State) (f : Power → Power) :
    (s.leveled f).pwrfailLow = (f s.power).pwrfailLow := by
  unfold State.leveled
  simp only [apply_ite Power.pwrfailLow, ite_self]

theorem State.leveled_droopL2 (s : State) (f : Power → Power) : (s.leveled f).droopL2 =
    if s.power.l2 = (f s.power).l2 then (f s.power).droopL2
    else if (f s.power).l2 then min 15 (s.fget F.DIA_PACE_STEP + 4) else 0 := by
  unfold State.leveled
  simp only [apply_ite Power.droopL2, ite_self]

theorem State.leveled_parkSag (s : State) (f : Power → Power) : (s.leveled f).parkSag =
    if s.power.l3 = (f s.power).l3 then (f s.power).parkSag else (f s.power).l3 := by
  unfold State.leveled
  simp only [apply_ite Power.parkSag, ite_self]

theorem State.toLevels_sag (s : State) (f : Power → Power) : (s.toLevels f).power.sag =
    (f s.power).sag := by
  obtain ⟨a, h⟩ := s.toLevels_power f
  rw [h]
  exact s.leveled_sag f

theorem State.toLevels_l4 (s : State) (f : Power → Power) : (s.toLevels f).power.l4 =
    (f s.power).l4 := by
  obtain ⟨a, h⟩ := s.toLevels_power f
  rw [h]
  exact s.leveled_l4 f

theorem State.toLevels_pwrfailLow (s : State) (f : Power → Power) : (s.toLevels f).power.pwrfailLow =
    (f s.power).pwrfailLow := by
  obtain ⟨a, h⟩ := s.toLevels_power f
  rw [h]
  exact s.leveled_pwrfailLow f

theorem State.toLevels_droopL2 (s : State) (f : Power → Power) : (s.toLevels f).power.droopL2 =
    if s.power.l2 = (f s.power).l2 then (f s.power).droopL2
    else if (f s.power).l2 then min 15 (s.fget F.DIA_PACE_STEP + 4) else 0 := by
  obtain ⟨a, h⟩ := s.toLevels_power f
  rw [h]
  exact s.leveled_droopL2 f

theorem State.toLevels_parkSag (s : State) (f : Power → Power) : (s.toLevels f).power.parkSag =
    if s.power.l3 = (f s.power).l3 then (f s.power).parkSag else (f s.power).l3 := by
  obtain ⟨a, h⟩ := s.toLevels_power f
  rw [h]
  exact s.leveled_parkSag f

theorem State.toLevels_level (s : State) (f : Power → Power) :
    (s.toLevels f).fget F.DIA_SAG_LEVEL = (s.toLevels f).power.level := by
  unfold State.toLevels
  dsimp only
  rw [State.showSag_level, State.showSag_power]


/-- The bits of a level's entry and of the levels that stay in force when it clears. -/
theorem sagBits (l : Fin 3) : (if l.val = 0 then 1 else if l.val = 1 then 3 else 7 : BitVec 3) = [1#3, 3#3, 7#3].getD
  l 0 ∧
    (if l.val = 0 then 0 else if l.val = 1 then 1 else 3 : BitVec 3) = [0#3, 1#3, 3#3].getD l 0 := by
  revert l
  decide

theorem execSagTrigger_of {s : State} (r : Fin 18) (l : Fin 3) (h : s.power.railsUp = true) :
    exec (.sagTrigger r l) s = .next (s.toLevels fun p => { p with sag := p.sag ||| [1#3, 3#3, 7#3].getD l 0 }) := by
  rw [← (sagBits l).1]
  exact congrArg Host.Outcome.next (if_neg (by simp [h]))

theorem sagTrigger_completes {s : State} (r : Fin 18) (l : Fin 3) (h : s.power.railsUp = true) :
    Completes (.sagTrigger r l) s fun t =>
      t.power.sag = s.power.sag ||| [1#3, 3#3, 7#3].getD l 0 ∧
      (0 < l.val → s.power.sag.getLsbD 1 = false → s.power.l4 = false →
        t.power.droopL2 = min 15 (s.fget F.DIA_PACE_STEP + 4)) ∧
      (l.val = 2 → s.power.sag.getLsbD 2 = false → s.power.l4 = false → t.power.parkSag = true) ∧
      ∀ a, t.byte a = s.byte a := by
  refine ⟨_, execSagTrigger_of r l h, State.toLevels_sag _ _, fun h0 h1 h4 => ?_, fun h0 h2 h4 => ?_,
    State.byte_of_memKey (State.toLevels_memKey _ _)⟩
  · have hb : ∀ l : Fin 3, 0 < l.val → ([1#3, 3#3, 7#3].getD l 0).getLsbD 1 = true := by decide
    rw [State.toLevels_droopL2]
    simp only [Power.l2, BitVec.getLsbD_or, h1, h4, hb l h0, Bool.or_false, Bool.or_true, Bool.false_eq_true, if_true,
      if_false]
  · have hb : ∀ l : Fin 3, l.val = 2 → ([1#3, 3#3, 7#3].getD l 0).getLsbD 2 = true := by decide
    rw [State.toLevels_parkSag]
    simp only [Power.l3, BitVec.getLsbD_or, h2, h4, hb l h0, Bool.or_false, Bool.or_true, Bool.false_eq_true, if_false]

theorem execSagClear_of (s : State) (l : Fin 3) :
    exec (.sagClear l) s = .next (s.toLevels fun p => { p with sag := p.sag &&& [0#3, 1#3, 3#3].getD l 0 }) := by
  rw [← (sagBits l).2]
  rfl

/-- What stays in force when a level clears. -/
theorem sagClear_bits : ∀ l : Fin 3, ([0#3, 1#3, 3#3].getD l 0).getLsbD 2 = false ∧
    (l.val ≤ 1 → ([0#3, 1#3, 3#3].getD l 0).getLsbD 1 = false) ∧ (l.val = 0 → [0#3, 1#3, 3#3].getD l 0 = 0#3) := by
  decide

theorem sagClear_completes (s : State) (l : Fin 3) : Completes (.sagClear l) s fun t =>
      t.power.sag = s.power.sag &&& [0#3, 1#3, 3#3].getD l 0 ∧
      (l.val ≤ 1 → s.power.sag.getLsbD 1 = true → s.power.l4 = false → t.power.droopL2 = 0) ∧
      (s.power.sag.getLsbD 2 = true → s.power.l4 = false → t.power.parkSag = false) ∧
      (s.power.l4 = true → t.power.droopL2 = s.power.droopL2 ∧ t.power.parkSag = s.power.parkSag) ∧
      (l.val = 0 → s.power.l4 = false → t.fget F.DIA_SAG_LEVEL = 0) ∧
      ∀ a, t.byte a = s.byte a := by
  obtain ⟨b2, b1, b0⟩ := sagClear_bits l
  refine ⟨_, execSagClear_of s l, State.toLevels_sag _ _, fun h0 h1 h4 => ?_, fun h2 h4 => ?_, fun h4 => ⟨?_, ?_⟩,
    fun h0 h4 => ?_, State.byte_of_memKey (State.toLevels_memKey _ _)⟩
  · rw [State.toLevels_droopL2]
    simp only [Power.l2, BitVec.getLsbD_and, h1, h4, b1 h0, Bool.or_false, Bool.and_false, Bool.true_eq_false,
      Bool.false_eq_true, if_false]
  · rw [State.toLevels_parkSag]
    simp only [Power.l3, BitVec.getLsbD_and, h2, h4, b2, Bool.or_false, Bool.and_false, Bool.true_eq_false, if_false]
  · rw [State.toLevels_droopL2, if_pos (by simp [Power.l2, h4])]
  · rw [State.toLevels_parkSag, if_pos (by simp [Power.l3, h4])]
  · rw [State.toLevels_level, Power.level, State.toLevels_l4, State.toLevels_sag, b0 h0, h4]
    simp

/-! ## The supply lost or low (R305, R306) -/

/-- The chunks dropped and the dump of a failing supply. -/
theorem State.dropDump_spec (v : State) : (v.dropChunks.dump 1 []).power = v.power ∧
    (∀ u, (v.dropChunks.dump 1 []).upd = some u → u.act = []) ∧ (v.dropChunks.dump 1 []).memKey = v.memKey ∧
    (v.dropChunks.dump 1 []).fget F.TST_DUMP_CAUSE = 1 ∧
    (v.dropChunks.dump 1 []).fget F.DIA_SAG_LEVEL = v.fget F.DIA_SAG_LEVEL := by
  obtain ⟨cb, cr, cu⟩ := v.dropChunks_spec
  obtain ⟨db, dc, -, -, -, dr⟩ := v.dropChunks.dump_spec 1 [] (by decide)
  generalize v.dropChunks.dump 1 [] = t at *
  have hp : t.power = v.dropChunks.power := (congrArg State.power db :)
  have hu : t.upd = v.dropChunks.upd := (congrArg State.upd db :)
  refine ⟨hp.trans (congrArg State.power cb :), fun u h => cu u (hu ▸ h),
    (State.memKey_of_butDump db).trans (congrArg State.memKey cb :), dc, State.fget_of_reg ?_⟩
  rw [dr _ (by decide), cr _ (by decide)]

/-- PWRFAIL_N fallen, and L4 in force (R304). -/
def State.failing (s : State) : State :=
  (s.modPower fun p => { p with pwrfailLow := true }).toLevels fun p => { p with l4 := true }

theorem State.failing_spec (s : State) : s.failing.power.l4 = true ∧ s.failing.power.pwrfailLow = true ∧
    (s.power.l4 = false → s.power.sag.getLsbD 1 = false →
      s.failing.power.droopL2 = min 15 (s.fget F.DIA_PACE_STEP + 4)) ∧
    (s.power.l4 = false → s.power.sag.getLsbD 2 = false → s.failing.power.parkSag = true) ∧
    s.failing.fget F.DIA_SAG_LEVEL = 4 ∧ s.failing.memKey = s.memKey := by
  have hl4 : s.failing.power.l4 = true := State.toLevels_l4 _ _
  refine ⟨hl4, State.toLevels_pwrfailLow _ _, fun h4 h1 => ?_, fun h4 h2 => ?_, ?_, State.toLevels_memKey _ _⟩
  · refine (State.toLevels_droopL2 _ _).trans ?_
    have hw : (s.modPower fun p => { p with pwrfailLow := true }).power.l2 = false := by
      simp only [State.modPower, Power.l2, h1, h4, Bool.or_false]
    rw [hw]
    simp only [Power.l2, Bool.or_true, Bool.false_eq_true, if_false, if_true]
    rfl
  · refine (State.toLevels_parkSag _ _).trans ?_
    have hw : (s.modPower fun p => { p with pwrfailLow := true }).power.l3 = false := by
      simp only [State.modPower, Power.l3, h2, h4, Bool.or_false]
    rw [hw]
    simp only [Power.l3, Bool.or_true, Bool.false_eq_true, if_false]
  · rw [State.failing, State.toLevels_level, ← State.failing, Power.level, hl4]
    rfl

theorem execPwrfailAssert_of {s : State} (hj : s.power.judged = true) (hp : s.power.pwrfailLow = false)
    (h : s.power.railsUp = true) : exec .pwrfailAssert s = .next (s.failing.dropChunks.dump 1 []) :=
  congrArg Host.Outcome.next ((if_neg (by simp [hj, hp])).trans (if_neg (by simp [State.modPower, h])))

theorem pwrfailAssert_completes {s : State} (hj : s.power.judged = true) (hp : s.power.pwrfailLow = false)
    (h : s.power.railsUp = true) : Completes .pwrfailAssert s fun t =>
      t.power.l4 = true ∧ t.power.pwrfailLow = true ∧ t.sampling = false ∧
      (s.power.l4 = false → s.power.sag.getLsbD 1 = false → t.power.droopL2 = min 15 (s.fget F.DIA_PACE_STEP + 4)) ∧
      (s.power.l4 = false → s.power.sag.getLsbD 2 = false → t.power.parkSag = true) ∧ t.fget F.DIA_SAG_LEVEL = 4 ∧
      t.fget F.TST_DUMP_CAUSE = 1 ∧
      (∀ u, t.upd = some u → u.act = []) ∧ ∀ a, t.byte a = s.byte a := by
  obtain ⟨hl4, hlow, hdroop, hpark, hlevel, hmem⟩ := s.failing_spec
  obtain ⟨tp, tu, tm, tc, tl⟩ := s.failing.dropDump_spec
  refine ⟨_, execPwrfailAssert_of hj hp h, ?_⟩
  generalize s.failing.dropChunks.dump 1 [] = t at *
  rw [← tp] at hl4 hlow hdroop hpark
  exact ⟨hl4, hlow, by simp [State.sampling, hl4], hdroop, hpark, tl.trans hlevel, tc, tu,
    State.byte_of_memKey (tm.trans hmem)⟩

theorem l4Clear_completes {s : State} (h4 : s.power.l4 = true) (hp : s.power.pwrfailLow = false) :
    Completes .l4Clear s fun t => t.power.l4 = false ∧ ∀ a, t.byte a = s.byte a := by
  have hx : exec .l4Clear s = .next (s.toLevels fun p => { p with l4 := false }).reroute :=
    congrArg Host.Outcome.next (if_neg (by simp [h4, hp]))
  refine ⟨_, hx, ?_, State.byte_of_memKey ((State.reroute_memKey _).trans (State.toLevels_memKey _ _))⟩
  rw [State.power_of_butSends (State.reroute_butSends _)]
  exact State.toLevels_l4 _ _

/-! ## STANDBY and OFF (R305, R306) -/

/-- The retired pages, the dumps, the fault records and the history that Inscription holds. -/
def State.records (s : State) : List (Nat × BitVec 32) × List (Nat × Dump) × List (Nat × FRec) × List Hist :=
  (s.pages, s.dumps, s.ring, s.hist)

theorem State.fset_records (s : State) (f : Fld) (v : Nat) : (s.fset f v).records = s.records := rfl
theorem State.setReg_records (s : State) (k : Nat) (v : BitVec 32) : (s.setReg k v).records = s.records := rfl
theorem State.setFlag_records (s : State) (f : Fld) (b : Bool) : (s.setFlag f b).records = s.records := rfl
theorem State.showCaps_records (s : State) : s.showCaps.records = s.records := rfl

theorem State.fields_of_records {s t : State} (h : t.records = s.records) :
    t.pages = s.pages ∧ t.dumps = s.dumps ∧ t.ring = s.ring ∧ t.hist = s.hist := by
  simpa only [State.records, Prod.mk.injEq] using h

theorem State.showWindows_records (s : State) : s.showWindows.records = s.records :=
  List.foldlRecOn (motive := fun t : State => t.records = s.records) _ _ rfl fun _ ht _ _ => ht

theorem State.showWindows_power (s : State) : s.showWindows.power = s.power :=
  List.foldlRecOn (motive := fun t : State => t.power = s.power) _ _ rfl fun _ ht _ _ => ht

theorem State.showWindows_reg (s : State) {k : Nat} (h : ∀ p < 12, k ≠ (F.WPL_LANE_WINDOW p).key) :
    s.showWindows.reg k = s.reg k := by
  refine List.foldlRecOn (motive := fun t : State => t.reg k = s.reg k) _ _ rfl fun t ht p hp => ?_
  exact (State.fset_reg_ne _ _ _ _ (h p (List.mem_range.mp hp))).trans ht

theorem State.keepRetired_records (s o : State) : (s.keepRetired o).records = s.records :=
  List.foldlRecOn (motive := fun t : State => t.records = s.records) _ _ rfl fun t ht p _ =>
    (apply_ite State.records _ _ _).trans ((ite_congr rfl (fun _ => ht) fun _ => ht).trans (ite_self _))

theorem State.keepRetired_power (s o : State) : (s.keepRetired o).power = s.power :=
  List.foldlRecOn (motive := fun t : State => t.power = s.power) _ _ rfl fun t ht p _ =>
    (apply_ite State.power _ _ _).trans ((ite_congr rfl (fun _ => ht) fun _ => ht).trans (ite_self _))

theorem State.keepRetired_reg (s o : State) {k : Nat} (h : ∀ u < 24, k ≠ (F.MEM_H_STATUS_STATE u).key) :
    (s.keepRetired o).reg k = s.reg k := by
  refine List.foldlRecOn (motive := fun t : State => t.reg k = s.reg k) _ _ rfl fun t ht u hu => ?_
  split
  · exact (State.fset_reg_ne _ _ _ _ (h u (List.mem_range.mp hu))).trans ht
  · exact ht

theorem State.endLife_records (s : State) : s.endLife.records = s.records := by
  unfold State.endLife
  dsimp only
  split <;> rfl

theorem State.setLevel_records (s : State) (n : Nat) : (s.setLevel n).records = s.records := by
  have hl : s.leaveDebug.records = s.records := by
    unfold State.leaveDebug
    split <;> rfl
  unfold State.setLevel
  dsimp only
  split
  · rfl
  · split
    · exact hl
    · rfl

/-- Everything but the records a judgement files and the capture slots. -/
def State.butJudged (s : State) : State := { s.butRecords with caps := [] }

theorem State.butJudged_of_butRecords {s t : State} (h : t.butRecords = s.butRecords) : t.butJudged = s.butJudged :=
  (congrArg State.butJudged h :)

theorem State.dropCapture_butJudged (s : State) (n : Nat) (c : CapSlot) : (s.dropCapture n c).butJudged = s.butJudged
  := by
  unfold State.dropCapture
  dsimp only
  split
  · rfl
  · exact (State.butJudged_of_butRecords (State.settleFault_butRecords _ _ _ _)).trans rfl

theorem State.judgeAll_butJudged (s : State) : s.judgeAll.butJudged = s.butJudged := by
  refine (State.butJudged_of_butRecords (State.settleWork_butRecords _ _)).trans ?_
  exact List.foldlRecOn (motive := fun t : State => t.butJudged = s.butJudged) _ _ rfl fun t ht c _ =>
    (t.dropCapture_butJudged c.1 c.2).trans ht

/-- With nothing pending there is nothing to judge. -/
theorem State.judgeAll_records (s : State) (hc : s.caps = []) (ha : s.arithPend = []) :
    s.judgeAll.records = s.records := by
  simp only [State.judgeAll, State.dropReplays, State.settleWork, hc, ha, List.filter_nil, List.foldl_nil]
  rfl

/-- The state that STANDBY takes over: what is pending judged, the debug level CLOSED, a grant ended. -/
def State.closed (s : State) : State :=
  let s := s.judgeAll.setLevel 0
  (if s.sec.life = 3 then s.measure 6 (Config.eventDigest s.sec.former 0) else s).endLife

theorem State.closed_records (s : State) : s.closed.records = s.judgeAll.records := by
  unfold State.closed
  dsimp only
  rw [State.endLife_records, ← s.judgeAll.setLevel_records 0]
  split <;> rfl

/-- What STANDBY keeps of the state it takes over. -/
def State.standbyBase (s : State) : State :=
  { s.survivors with
    regs := keepRegs standbyKept s.regs, mem := [], ecc := [], bursts := [], hbmEpoch := 0, sramEpoch := 0
    power := { auxUp := s.power.auxUp, pwrfailLow := s.power.pwrfailLow, paceLow := s.power.paceLow,
               perstLow := s.power.perstLow, judged := s.power.judged }
    excl := s.excl, sec := { s.sec with report := false } }

theorem State.standby_eq (s : State) : s.standby = (((((((s.closed.standbyBase.keepRetired s.closed).setReg Reg.PLN_BOOT
    (s.closed.reg Reg.PLN_BOOT)).fset F.COL_STATUS_STATE 0).fset F.DIA_PSTATE_STATE 3).setFlag F.SEC_STATUS_BUSY
      false).showWindows).showCaps) := rfl

theorem State.standby_spec (s : State) : s.standby.fget F.DIA_PSTATE_STATE = 3 ∧ s.standby.power.railsUp = false ∧
    s.standby.records = s.judgeAll.records := by
  rw [State.standby_eq, ← State.closed_records]
  generalize s.closed = c
  refine ⟨?_, ?_, ?_⟩
  · rw [State.showCaps, State.fset_fget_apart _ _ _ _ rfl, State.fget_of_reg (State.showWindows_reg _ (by decide)),
      State.setFlag_fget_apart _ _ _ _ rfl, State.fset_fget _ _ _ rfl]
    rfl
  · rw [State.showCaps, State.fset_power, State.showWindows_power, State.setFlag, State.fset_power, State.fset_power,
      State.fset_power,      State.setReg_power, State.keepRetired_power]
    rfl
  · rw [State.showCaps_records, State.showWindows_records, State.setFlag_records, State.fset_records,
    State.fset_records,
      State.setReg_records, State.keepRetired_records]
    rfl

theorem State.standby_kept (s : State) : (s.caps = [] → s.arithPend = [] → s.standby.hist = s.hist ∧ s.standby.ring =
  s.ring) ∧
    s.standby.pages = s.pages ∧ s.standby.dumps = s.dumps := by
  obtain ⟨-, -, hr⟩ := s.standby_spec
  have hj := s.judgeAll_butJudged
  have hn := s.judgeAll_records
  generalize s.judgeAll = u at *
  generalize s.standby = t at *
  obtain ⟨hp, hd, -, -⟩ := State.fields_of_records hr
  refine ⟨fun hc ha => ?_, hp.trans (congrArg State.pages hj :), hd.trans (congrArg State.dumps hj :)⟩
  obtain ⟨-, -, hring, hhist⟩ := State.fields_of_records (hr.trans (hn hc ha))
  exact ⟨hhist, hring⟩

/-- An entry to L5 from no level counts (R310). -/
def State.sagCounted (s : State) : State := if s.fget F.DIA_SAG_LEVEL = 0 then s.fsat F.DIA_SAG_EVENTS 1 else s

theorem State.sagCounted_butRegs (s : State) : s.sagCounted.butRegs = s.butRegs := by
  unfold State.sagCounted
  split <;> rfl

theorem execMainRailsFall_of {s : State} (h : s.power.railsUp = true) :
    exec .mainRailsFall s = .next (s.sagCounted.standby.fset F.DIA_SAG_LEVEL 5) :=
  congrArg Host.Outcome.next (if_neg (by simp [h]))

/-- L5 shown in STANDBY. -/
theorem State.showL5_spec {v : State} (h3 : v.fget F.DIA_PSTATE_STATE = 3) :
    (v.fset F.DIA_SAG_LEVEL 5).fget F.DIA_SAG_LEVEL = 5 ∧ (v.fset F.DIA_SAG_LEVEL 5).fget F.DIA_PSTATE_STATE = 3 ∧
      (v.fset F.DIA_SAG_LEVEL 5).power = v.power ∧ (v.fset F.DIA_SAG_LEVEL 5).records = v.records :=
  ⟨State.fset_fget _ _ _ rfl, (State.fset_fget_apart _ _ _ _ rfl).trans h3, rfl, rfl⟩

theorem mainRailsFall_completes {s : State} (h : s.power.railsUp = true) : Completes .mainRailsFall s fun t =>
      t.fget F.DIA_SAG_LEVEL = 5 ∧ t.fget F.DIA_PSTATE_STATE = 3 ∧ t.power.railsUp = false ∧
      (s.caps = [] → s.arithPend = [] → t.hist = s.hist ∧ t.ring = s.ring) ∧ t.pages = s.pages ∧ t.dumps = s.dumps := by
  refine ⟨_, execMainRailsFall_of h, ?_⟩
  have hu := s.sagCounted_butRegs
  generalize s.sagCounted = u at *
  obtain ⟨h3, hr, -⟩ := u.standby_spec
  obtain ⟨hk, hp, hd⟩ := u.standby_kept
  generalize u.standby = v at *
  obtain ⟨h5, h3, hpow, hrec⟩ := State.showL5_spec h3
  generalize v.fset F.DIA_SAG_LEVEL 5 = t at *
  obtain ⟨tp, td, tr, th⟩ := State.fields_of_records hrec
  refine ⟨h5, h3, (congrArg Power.railsUp hpow).trans hr, fun hc ha => ?_, tp.trans (hp.trans (congrArg State.pages
    hu :)),
    td.trans (hd.trans (congrArg State.dumps hu :))⟩
  obtain ⟨hh, hg⟩ := hk ((congrArg State.caps hu :).trans hc) ((congrArg State.arithPend hu :).trans ha)
  exact ⟨th.trans (hh.trans (congrArg State.hist hu :)), tr.trans (hg.trans (congrArg State.ring hu :))⟩

/-- A register of which no bit is kept reads as at reset. -/
theorem keepRegs_get {m : Nat → BitVec 32} {k : Nat} (h : m k = 0#32) (rs : List (Nat × BitVec 32)) :
    Sparse.get Reg.reset (keepRegs m rs) k = Reg.reset k := by
  induction rs with
  | nil => rfl
  | cons r rs ih =>
    unfold keepRegs at ih ⊢
    rw [List.filterMap_cons]
    dsimp only
    split
    next => exact ih
    next b hb =>
      split at hb
      · cases hb
      next hne =>
        obtain rfl := Option.some.inj hb
        rw [Sparse.get, if_neg, ih]
        rintro rfl
        refine hne ?_
        rw [h, BitVec.and_zero, BitVec.zero_or, BitVec.not_zero, BitVec.and_allOnes]

/-- What OFF keeps of a state. -/
def State.lostBase (s : State) : State :=
  { s.survivors with
    regs := keepRegs inscribed s.regs, mem := [], ecc := [], bursts := [], hbmEpoch := 0, sramEpoch := 0
    sec := { s.sec with meas := List.replicate 8 0, udsBlocked := false, attKey := false, recov := [], recovering :=
      false,
                        report := false, mgmtAddr := 0, mgmtRef := false, mgmtOut := 0 } }

theorem State.lost_eq (s : State) :
    s.lost = (((s.lostBase.keepRetired s).endLife).endTrial).showWindows.showCaps := rfl

/-- A boot slot that returns to the former one, if a trial has one (R366). -/
def State.slotBack (s : State) (f : Fld) : Option Nat → State
  | some k => s.fset f k
  | none => s

theorem State.slotBack_butRegs (s : State) (f : Fld) (o : Option Nat) : (s.slotBack f o).butRegs = s.butRegs := by
  cases o <;> rfl

theorem State.slotBack_reg (s : State) (f : Fld) (o : Option Nat) {k : Nat} (h : k ≠ f.key) :
    (s.slotBack f o).reg k = s.reg k := by
  cases o
  · rfl
  · exact State.fset_reg_ne _ _ _ _ h

/-- The slots of the images that ran before a trial. -/
def State.formerSlots (s : State) : State :=
  let t := s.slotBack F.SEC_BOOT_ARM_SLOT s.sec.trialArm
  t.slotBack F.SEC_BOOT_ISL_SLOT t.sec.trialIsl

theorem State.endTrial_eq (s : State) : s.endTrial = { s.formerSlots.setFlag F.SEC_BOOT_TRIAL false with
    sec := { s.formerSlots.sec with trialArm := none, trialIsl := none } } := by
  unfold State.endTrial State.formerSlots
  cases ha : s.sec.trialArm with
  | none => cases hi : s.sec.trialIsl <;> simp only [State.slotBack, hi]
  | some k => cases hi : s.sec.trialIsl <;> simp only [State.slotBack, hi, State.fset_sec]

theorem State.formerSlots_butRegs (s : State) : s.formerSlots.butRegs = s.butRegs :=
  (State.slotBack_butRegs _ _ _).trans (State.slotBack_butRegs _ _ _)

theorem State.endTrial_records (s : State) : s.endTrial.records = s.records := by
  rw [State.endTrial_eq]
  exact (congrArg State.records s.formerSlots_butRegs :)

theorem State.endTrial_power (s : State) : s.endTrial.power = s.power := by
  rw [State.endTrial_eq]
  exact (congrArg State.power s.formerSlots_butRegs :)

theorem State.endLife_power (s : State) : s.endLife.power = s.power := by
  unfold State.endLife
  dsimp only
  split <;> rfl

theorem State.endTrial_reg (s : State) {k : Nat} (h : k ≠ Reg.SEC_BOOT) : s.endTrial.reg k = s.reg k := by
  rw [State.endTrial_eq]
  refine (State.fset_reg_ne s.formerSlots F.SEC_BOOT_TRIAL _ _ h).trans ?_
  exact (State.slotBack_reg _ _ _ h).trans (State.slotBack_reg _ _ _ h)

theorem State.endLife_reg (s : State) {k : Nat} (h : k ≠ Reg.SEC_LIFE) : s.endLife.reg k = s.reg k := by
  unfold State.endLife
  dsimp only
  split
  · rw [State.setFlag, State.fset_reg_ne _ _ _ _ h]
    exact State.fset_reg_ne _ _ _ _ h
  · rfl

theorem auxRailLoss_completes (s : State) : Completes .auxRailLoss s fun t =>
      t.fget F.PLN_BOOT_STEP = 0 ∧ t.power.auxUp = false ∧ t.hist = s.hist ∧ t.ring = s.ring ∧ t.pages = s.pages ∧
      t.dumps = s.dumps := by
  have hr : s.lost.records = s.records := by
    rw [State.lost_eq, State.showCaps_records, State.showWindows_records, State.endTrial_records, State.endLife_records,
      State.keepRetired_records]
    rfl
  obtain ⟨hp, hd, hring, hh⟩ := State.fields_of_records hr
  refine ⟨s.lost, rfl, ?_, ?_, hh, hring, hp, hd⟩
  · have hreg : s.lost.reg Reg.PLN_BOOT = Reg.reset Reg.PLN_BOOT := by
      rw [State.lost_eq, State.showCaps, State.fset_reg_ne _ _ _ _ (by decide), State.showWindows_reg _ (by decide),
        State.endTrial_reg _ (by decide), State.endLife_reg _ (by decide), State.keepRetired_reg _ _ (by decide)]
      exact keepRegs_get (by decide) _
    rw [State.fget_of_reg (s := {}) (f := F.PLN_BOOT_STEP) hreg]
    rfl
  · rw [State.lost_eq, State.showCaps, State.fset_power, State.showWindows_power, State.endTrial_power,
    State.endLife_power,
      State.keepRetired_power]
    rfl

theorem rearm_refused {s : State}
    (h : s.stopped = false ∨ (s.flag F.DIA_STATUS_TRIPPED && decide (380 ≤ signed 16 (s.fget F.DIA_THERM_TMAX))) =
      true ∨
      (s.flag F.DIA_STATUS_ESTOP && s.power.paceLow) = true) : Completes (.rearm .armature) s fun t =>
      t.flag F.DIA_STATUS_ERR = true ∧ { t with regs := s.regs } = s :=
  ⟨_, (execRearm_eq s).trans (congrArg Host.Outcome.next (if_pos h)), State.setFlag_flag _ _ _ rfl,
    State.frame_of_butRegs (State.setFlag_butRegs _ _ _)⟩

/-- Settles O46: trips, emergency stops, sag levels and the loss of the supplies. -/
theorem stopsAndSag : Obligations.StopsAndSag := by
  unfold Obligations.StopsAndSag
  intro s d
  exact ⟨fun k h => trip_completes d k h, fun hl h => emergencyStop_completes d hl h,
    ⟨fun hs hh hl => rearm_completes hs hh hl, fun h => rearm_refused h⟩, fun r l h => sagTrigger_completes r l h,
    fun l => sagClear_completes s l, fun hj hp h => pwrfailAssert_completes hj hp h, ⟨_, rfl, rfl, rfl⟩,
    fun h4 hp => l4Clear_completes h4 hp, fun h => mainRailsFall_completes h, auxRailLoss_completes s⟩

/-! ## Power states (R306) -/

theorem idleEntry_completes {s : State} (h0 : s.fget F.DIA_PSTATE_STATE = 0)
    (hq : ∀ p ∈ s.engines, p.2.runA = none ∧ p.2.runB = none ∧ p.2.runV = none) : Completes .idleEntry s fun t =>
      t.fget F.DIA_PSTATE_STATE = 1 ∧ { t with regs := s.regs } = s := by
  have hall : s.engines.all (fun p => p.2.quiet) = true := List.all_eq_true.mpr fun p hp => by
    obtain ⟨ha, hb, hv⟩ := hq p hp
    simp [Engine.quiet, ha, hb, hv]
  exact ⟨_, congrArg Host.Outcome.next (if_pos ⟨h0, hall⟩), State.fset_fget _ _ _ rfl,
    State.frame_of_butRegs (State.fset_butRegs _ _ _)⟩

theorem idleExit_completes {s : State} (h1 : s.fget F.DIA_PSTATE_STATE = 1) (hr : s.running = true) :
    Completes .idleExit s fun t => t.fget F.DIA_PSTATE_STATE = 0 ∧ { t with regs := s.regs } = s :=
  ⟨_, congrArg Host.Outcome.next (if_pos ⟨h1, hr⟩), State.fset_fget _ _ _ rfl,
    State.frame_of_butRegs (State.fset_butRegs _ _ _)⟩

/-- A request the power state does not permit sets ERR alone. -/
def State.pstateErr (s t : State) : Prop := t.flag F.DIA_STATUS_ERR = true ∧ { t with regs := s.regs } = s

theorem State.pstateErr_set (s : State) : s.pstateErr (s.setFlag F.DIA_STATUS_ERR true) :=
  ⟨State.setFlag_flag _ _ _ rfl, State.frame_of_butRegs (State.setFlag_butRegs _ _ _)⟩

theorem execPstateRetention_eq (s : State) : exec (.pstateRetention .armature) s = .next (s.pstateReq 1) :=
  congrArg Host.Outcome.next (State.acting_armature s Reg.DIA_PSTATE 0x08000000#32 _)

theorem execPstateLeaveRetention_eq (s : State) : exec (.pstateLeaveRetention .armature) s = .next (s.pstateReq 2) :=
  congrArg Host.Outcome.next (State.acting_armature s Reg.DIA_PSTATE 0x10000000#32 _)

theorem execPstateStandby_eq (s : State) : exec (.pstateStandby .armature) s = .next (s.pstateReq 3) :=
  congrArg Host.Outcome.next (State.acting_armature s Reg.DIA_PSTATE 0x18000000#32 _)

theorem State.pstateReq_one (s : State) : s.pstateReq 1 =
    if 2 ≤ s.fget F.DIA_PSTATE_STATE ∨ s.anyBegun = true ∨ s.power.l4 = true ∨ s.stopped = true then
      s.setFlag F.DIA_STATUS_ERR true else s.retain := by
  unfold State.pstateReq
  dsimp only
  rw [if_neg (by decide), if_pos rfl]

theorem State.pstateReq_two (s : State) : s.pstateReq 2 =
    if s.fget F.DIA_PSTATE_STATE ≠ 2 ∨ s.stopped = true then s.setFlag F.DIA_STATUS_ERR true else s.unretain := by
  unfold State.pstateReq
  dsimp only
  rw [if_neg (by decide), if_neg (by decide), if_pos rfl]

theorem State.pstateReq_three (s : State) : s.pstateReq 3 =
    if s.fget F.DIA_PSTATE_STATE ≠ 2 ∨ s.power.l4 = true ∨ s.stopped = true then s.setFlag F.DIA_STATUS_ERR true
    else s.standby := by
  unfold State.pstateReq
  dsimp only
  rw [if_neg (by decide), if_neg (by decide), if_neg (by decide)]

theorem retention_completes {s : State} (d : Fin 4) (hst : s.fget F.DIA_PSTATE_STATE < 2) (hb : s.anyBegun = false)
    (h4 : s.power.l4 = false) (hs : s.stopped = false) : Completes (.pstateRetention .armature) s fun t =>
      t.fget F.DIA_PSTATE_STATE = 2 ∧ t.tiles = s.tiles ∧ t.accs = s.accs ∧ t.ctxs = s.ctxs ∧
      (s.dieQ d = false → t.fget (F.HEL_STATUS_VOUT d) = 500) ∧ ∀ a, t.byte a = s.byte a := by
  have hx : s.pstateReq 1 = s.retain := (s.pstateReq_one).trans (if_neg (by simp [hb, h4, hs, hst]))
  obtain ⟨hk, h2, hv, -⟩ := s.retain_spec
  obtain ⟨g2, gv, gt, ga, gc, gm⟩ := State.haltsTo_of (d := d) (State.butStop_of_butHalt hk) fun _ _ => rfl
  exact ⟨_, (execPstateRetention_eq s).trans (congrArg Host.Outcome.next hx), g2, gt, ga, gc, gv, gm⟩

theorem retention_refused {s : State}
    (h : 2 ≤ s.fget F.DIA_PSTATE_STATE ∨ s.anyBegun = true ∨ s.power.l4 = true ∨ s.stopped = true) :
    Completes (.pstateRetention .armature) s s.pstateErr :=
  ⟨_, (execPstateRetention_eq s).trans (congrArg Host.Outcome.next ((s.pstateReq_one).trans (if_pos h))),
    s.pstateErr_set⟩

theorem leaveRetention_completes {s : State} (d : Fin 4) (hst : s.fget F.DIA_PSTATE_STATE = 2) (hs : s.stopped =
  false) :
    Completes (.pstateLeaveRetention .armature) s fun t => t.fget F.DIA_PSTATE_STATE = 1 ∧
      (s.dieQ d = false → t.fget (F.HEL_STATUS_VOUT d) = s.tableVolt d (s.fget F.DIA_PACE_STEP)) ∧
      ∀ a, t.byte a = s.byte a := by
  have hx : s.pstateReq 2 = s.unretain := (s.pstateReq_two).trans (if_neg (by simp [hs, hst]))
  obtain ⟨h1, hv, -, -, hm⟩ := s.unretain_spec
  exact ⟨_, (execPstateLeaveRetention_eq s).trans (congrArg Host.Outcome.next hx), h1, hv d, State.byte_of_memKey hm⟩

theorem leaveRetention_refused {s : State} (h : s.fget F.DIA_PSTATE_STATE ≠ 2 ∨ s.stopped = true) :
    Completes (.pstateLeaveRetention .armature) s s.pstateErr :=
  ⟨_, (execPstateLeaveRetention_eq s).trans (congrArg Host.Outcome.next ((s.pstateReq_two).trans (if_pos h))),
    s.pstateErr_set⟩

theorem standby_completes {s : State} (hst : s.fget F.DIA_PSTATE_STATE = 2) (h4 : s.power.l4 = false)
    (hs : s.stopped = false) : Completes (.pstateStandby .armature) s fun t =>
      t.fget F.DIA_PSTATE_STATE = 3 ∧ t.power.railsUp = false ∧
      (s.caps = [] → s.arithPend = [] → t.hist = s.hist ∧ t.ring = s.ring) ∧ t.pages = s.pages := by
  have hx : s.pstateReq 3 = s.standby := (s.pstateReq_three).trans (if_neg (by simp [h4, hs, hst]))
  obtain ⟨h3, hr, -⟩ := s.standby_spec
  obtain ⟨hk, hp, -⟩ := s.standby_kept
  exact ⟨_, (execPstateStandby_eq s).trans (congrArg Host.Outcome.next hx), h3, hr, hk, hp⟩

theorem standby_refused {s : State}
    (h : s.fget F.DIA_PSTATE_STATE ≠ 2 ∨ s.power.l4 = true ∨ s.stopped = true) :
    Completes (.pstateStandby .armature) s s.pstateErr :=
  ⟨_, (execPstateStandby_eq s).trans (congrArg Host.Outcome.next ((s.pstateReq_three).trans (if_pos h))),
    s.pstateErr_set⟩

/-- The power-up order at its step 4. -/
def State.fourthStep (s : State) : State := (s.setReg Reg.PLN_BOOT 0).fset F.PLN_BOOT_STEP 4

theorem State.fourthStep_stopped (s : State) : s.fourthStep.stopped = s.stopped := by
  have h (f : Fld) (hf : f.key ≠ Reg.PLN_BOOT) : s.fourthStep.flag f = s.flag f := State.flag_of_reg
    ((State.fset_reg_ne _ _ _ _ hf).trans ((State.setReg_reg _ _ _ _).trans (if_neg hf)))
  simp only [State.stopped, h F.DIA_STATUS_TRIPPED (by decide), h F.DIA_STATUS_ESTOP (by decide)]

theorem standbyExit_completes {s : State} (hst : s.fget F.DIA_PSTATE_STATE = 3) (hf : s.fget F.PLN_BOOT_FAIL ≠ 3) :
    Completes .standbyExit s fun t =>
      t.fget F.PLN_BOOT_STEP = 4 ∧ t.fget F.COL_STATUS_STATE = 1 ∧
      t.fget F.DIA_PSTATE_STATE = (if s.stopped then 2 else 1) ∧ t.power.cold = true ∧
      { t with regs := s.regs, power := s.power } = s := by
  have hx : exec .standbyExit s = .next (((s.fourthStep.fset F.COL_STATUS_STATE 1).fset F.DIA_PSTATE_STATE
      (if s.fourthStep.stopped then 2 else 1)).modPower fun p => { p with cold := true }) :=
    congrArg Host.Outcome.next (if_neg (by simp [hst, hf]))
  rw [State.fourthStep_stopped] at hx
  refine ⟨_, hx, ?_, ?_, ?_, rfl, State.frame_of_butPower (by simp [State.fourthStep])⟩
  · rw [State.modPower_fget, State.fset_fget_apart _ _ _ _ rfl, State.fset_fget_apart _ _ _ _ rfl, State.fourthStep,
      State.fset_fget _ _ _ rfl]
    rfl
  · rw [State.modPower_fget, State.fset_fget_apart _ _ _ _ rfl, State.fset_fget _ _ _ rfl]
    rfl
  · rw [State.modPower_fget, State.fset_fget _ _ _ rfl]
    exact Nat.mod_eq_of_lt (by split <;> decide)

/-- Settles O47: power states and what each keeps. -/
theorem powerStates : Obligations.PowerStates := by
  unfold Obligations.PowerStates
  intro s d
  exact ⟨fun h0 hq => idleEntry_completes h0 hq, fun h1 hr => idleExit_completes h1 hr,
    fun hst hb h4 hs => retention_completes d hst hb h4 hs, fun h => retention_refused h,
    fun hst hs => leaveRetention_completes d hst hs, fun h => leaveRetention_refused h,
    fun hst h4 hs => standby_completes hst h4 hs, fun h => standby_refused h,
    fun hst hf => standbyExit_completes hst hf⟩

end Sys2Proof.Machine
end

section
/-! SUPPORT. Register writes without an action of their own, by Armature and by the host (R7, R373, R401). -/
namespace Sys2Proof.Machine

/-! ## Plain register writes -/

/-- Registers whose write has no action of its own, as O35 names them. -/
def plainRegs : List Nat := [Reg.PLN_PKG_ID, Reg.PLN_ADDR_ERR_INFO, Reg.SCT_CTRL, Reg.SCT_SEED_LO, Reg.MEM_PF,
  Reg.RIF_CFG, Reg.CLV_CFG, Reg.CLV_BAR_CFG]

theorem State.regWrite_plain (s : State) {src : Src} {r : Req} (hr : r ≠ .engine) (v : BitVec 32) :
    ∀ k ∈ plainRegs, s.regWrite src r k v = s.plainWrite r k v := by
  intro k hk
  unfold State.regWrite
  rw [if_neg hr]
  simp only [plainRegs, List.mem_cons, List.not_mem_nil, or_false] at hk
  rcases hk with rfl | rfl | rfl | rfl | rfl | rfl | rfl | rfl <;> rfl

theorem State.regWrite_FLT_CFG (s : State) {src : Src} {r : Req} (hr : r ≠ .engine) (v : BitVec 32) :
    s.regWrite src r Reg.FLT_CFG v = s.writeFltCfg r v := by
  unfold State.regWrite
  rw [if_neg hr]
  rfl

/-- What the registers of O35 have in common: their fields share no bit, and bit 31 is their own lock. -/
theorem plainRegs_rows : ∀ k ∈ Reg.FLT_CFG :: plainRegs, (BitVec.ofNat 32 k).toNat / 4 * 4 = k ∧ lockOf k = k ∧
    ((Reg.row k).all fun row => decide (row.fields.Pairwise fun f g => f.hi < g.lo ∨ g.hi < f.lo)) = true := by
  decide +kernel

/-- The bits of one field after Armature's write of its register (R7). -/
def FieldRow.takes (f : FieldRow) (old v new : BitVec 32) : Prop :=
  f.bits new = match f.acc with
    | .rw => f.bits v
    | .rd | .fx => f.bits old
    | .w1c => f.bits (old &&& ~~~v)
    | .lk => if old.getLsbD 31 then f.bits old else f.bits v

theorem State.written_takes (s : State) (v : BitVec 32) {k : Nat} (hk : k ∈ Reg.FLT_CFG :: plainRegs) {row : RegRow}
    (hrow : Reg.row k = some row) {f : FieldRow} (hf : f ∈ row.fields) :
    f.takes (s.reg k) v (s.written (BitVec.allOnes 32) k v) := by
  obtain ⟨-, hlock, hapart⟩ := plainRegs_rows k hk
  rw [hrow] at hapart
  have h := s.written_bits hrow (by simpa [fieldsApart] using hapart) hf v
  rw [State.locked, hlock] at h
  rw [FieldRow.takes, h]
  cases f.acc
  case lk => exact apply_ite f.bits _ _ _
  all_goals rfl

/-- A write of a register alone. -/
theorem State.setReg_alone (s : State) (k : Nat) (v : BitVec 32) :
    (∀ i, i ≠ k → (s.setReg k v).reg i = s.reg i) ∧ { s.setReg k v with regs := s.regs } = s :=
  ⟨fun _ h => (State.setReg_reg _ _ _ _).trans (if_neg h), State.frame_of_butRegs (State.setReg_butRegs _ _ _)⟩

theorem State.regWrite_armature (s : State) (v : BitVec 32) {k : Nat} (hk : k ∈ Reg.FLT_CFG :: plainRegs)
    (hc : k = Reg.FLT_CFG → s.caps = []) :
    s.regWrite .arm .armature k v = s.setReg k (s.written (BitVec.allOnes 32) k v) := by
  rcases List.mem_cons.mp hk with rfl | hk
  · rw [State.regWrite_FLT_CFG _ (by decide), State.writeFltCfg, State.plainWrite_armature]
    generalize hu : s.setReg Reg.FLT_CFG (s.written (BitVec.allOnes 32) Reg.FLT_CFG v) = u
    have hcaps : u.caps = [] := by
      rw [← hu]
      exact hc rfl
    split
    · rw [State.dropReplays, hcaps]
      rfl
    · rfl
  · rw [State.regWrite_plain _ (by decide) _ k hk, State.plainWrite_armature]

theorem registerWrite_armature {s : State} (v : BitVec 32) {k : Nat} (hk : k ∈ Reg.FLT_CFG :: plainRegs)
    (hc : k = Reg.FLT_CFG → s.caps = []) :
    Completes (.registerWrite .armature (BitVec.ofNat 32 k) v) s fun t =>
      (∀ row, Reg.row k = some row → ∀ f ∈ row.fields, f.takes (s.reg k) v (t.reg k)) ∧
      (∀ i, i ≠ k → t.reg i = s.reg i) ∧ { t with regs := s.regs } = s := by
  have ha := (plainRegs_rows k hk).1
  have hx : exec (.registerWrite .armature (BitVec.ofNat 32 k) v) s =
      .next (s.regWrite .arm .armature ((BitVec.ofNat 32 k).toNat / 4 * 4) v) := rfl
  rw [ha, s.regWrite_armature v hk hc] at hx
  refine ⟨_, hx, fun row hrow f hf => ?_, s.setReg_alone k _⟩
  rw [State.setReg_reg_self]
  exact s.written_takes v hk hrow hf

/-! ## The host's writes -/

theorem fieldWrite_none (lock : Bool) (v : BitVec 32) (k : Nat) (old : BitVec 32) (f : FieldRow) :
    fieldWrite lock 0 v k old f = old := by
  have h0 : (⟨k, f.hi, f.lo⟩ : Fld).mask &&& 0 = 0#32 := BitVec.and_zero
  have hcopy : old &&& ~~~((⟨k, f.hi, f.lo⟩ : Fld).mask &&& 0) ||| v &&& ((⟨k, f.hi, f.lo⟩ : Fld).mask &&& 0) = old
    := by
    rw [h0, BitVec.and_zero, BitVec.or_zero, BitVec.not_zero, BitVec.and_allOnes]
  unfold fieldWrite
  dsimp only
  cases f.acc
  case rw => exact hcopy
  case lk => exact ite_eq_left_iff.mpr fun _ => hcopy
  case w1c =>
    show old &&& ~~~(v &&& _) = old
    rw [h0, BitVec.and_zero, BitVec.not_zero, BitVec.and_allOnes]
  all_goals rfl

theorem State.written_none (s : State) (k : Nat) (v : BitVec 32) : s.written 0 k v = s.reg k := by
  unfold State.written
  split
  · rfl
  · exact List.foldlRecOn (motive := fun x => x = s.reg k) _ _ rfl fun x hx f _ =>
      (fieldWrite_none _ _ _ _ _).trans hx

/-- The registers of O35 that the host may not write at all. -/
theorem hostRegs_closed : ∀ k ∈ [Reg.SCT_CTRL, Reg.SCT_SEED_LO, Reg.MEM_PF, Reg.RIF_CFG, Reg.CLV_CFG, Reg.CLV_BAR_CFG,
    Reg.FLT_CFG], w1cMask k = 0 ∧ ¬(k = Reg.SEC_ADDR_LO ∨ k = Reg.SEC_ADDR_HI) ∧ ¬(0x1000 ≤ k ∧ k < 0x1200) ∧
    ¬(Reg.FLT_HMIR_LO ≤ k ∧ k ≤ Reg.FLT_HMIR_LOST) ∧ (BitVec.ofNat 32 k).toNat / 4 * 4 = k ∧ k ≠ Reg.SEC_STATUS ∧
    k ∈ Reg.FLT_CFG :: plainRegs := by
  decide +kernel

theorem State.mayWrite_host (s : State) (h : s.flag F.SEC_POLICY_HOSTW = false) {k : Nat} (hm : w1cMask k = 0)
    (ha : ¬(k = Reg.SEC_ADDR_LO ∨ k = Reg.SEC_ADDR_HI)) (hq : ¬(0x1000 ≤ k ∧ k < 0x1200))
    (hf : ¬(Reg.FLT_HMIR_LO ≤ k ∧ k ≤ Reg.FLT_HMIR_LOST)) : s.mayWrite .host k = some 0 := by
  have hhq : s.hostQueue k = false := by
    by_cases h1 : 0x1000 ≤ k
    · simp [State.hostQueue, show ¬ k < 0x1200 from fun h2 => hq ⟨h1, h2⟩]
    · simp [State.hostQueue, h1]
  unfold State.mayWrite
  dsimp only
  rw [if_neg ha, h, if_neg (by decide), if_neg (by rw [hhq]; simpa using hf), hm]

theorem registerWrite_host {s : State} {v : BitVec 32} (hv : v ≠ 0) (h : s.flag F.SEC_POLICY_HOSTW = false) {k : Nat}
    (hk : k ∈ [Reg.SCT_CTRL, Reg.SCT_SEED_LO, Reg.MEM_PF, Reg.RIF_CFG, Reg.CLV_CFG, Reg.CLV_BAR_CFG, Reg.FLT_CFG]) :
    Completes (.registerWrite .host (BitVec.ofNat 32 k) v) s fun t =>
      t.reg k = s.reg k ∧ t.fget F.SEC_STATUS_DENIED =
        min (2 ^ F.SEC_STATUS_DENIED.width - 1) (s.fget F.SEC_STATUS_DENIED + 1) ∧ { t with regs := s.regs } = s := by
  obtain ⟨hm, ha, hq, hf, hadr, hne, hmem⟩ := hostRegs_closed k hk
  have hmay := s.mayWrite_host h hm ha hq hf
  have hpw : s.plainWrite .host k v = (s.setReg k (s.reg k)).fsat F.SEC_STATUS_DENIED 1 := by
    have hpol : (s.setReg k (s.reg k)).flag F.SEC_POLICY_HOSTW = false := by
      refine (State.flag_of_reg (f := F.SEC_POLICY_HOSTW) ?_).trans h
      rw [State.setReg_reg]
      split
      next hkey => rw [hkey]
      next => rfl
    have href : (s.setReg k (s.reg k)).refused .host k v = true := by
      rw [State.refused, State.mayWrite_host _ hpol hm ha hq hf]
      show (v &&& ~~~(0#32) != 0) = true
      rw [BitVec.not_zero, BitVec.and_allOnes]
      simpa using hv
    rw [State.plainWrite, hmay, Option.getD_some, State.written_none, State.deny, if_neg (by decide), if_pos href]
  have hw : s.regWrite .host .host k v = s.plainWrite .host k v := by
    rcases List.mem_cons.mp hmem with rfl | hmem
    · rw [State.regWrite_FLT_CFG _ (by decide), State.writeFltCfg, hpw]
      have hflag : ((s.setReg Reg.FLT_CFG (s.reg Reg.FLT_CFG)).fsat F.SEC_STATUS_DENIED 1).flag F.FLT_CFG_REPLAY =
          s.flag F.FLT_CFG_REPLAY := State.flag_of_reg (f := F.FLT_CFG_REPLAY) (by
        rw [State.fsat, State.fset_reg_ne _ _ _ _ (by decide)]
        exact State.setReg_reg_self _ _ _)
      rw [hflag, Bool.and_not_self, if_neg Bool.false_ne_true]
    · exact State.regWrite_plain _ (by decide) _ k hmem
  have hx : exec (.registerWrite .host (BitVec.ofNat 32 k) v) s =
      .next (s.regWrite .host .host ((BitVec.ofNat 32 k).toNat / 4 * 4) v) := rfl
  rw [hadr, hw, hpw] at hx
  refine ⟨_, hx, ?_, ?_, State.frame_of_butRegs ?_⟩
  · rw [State.fsat, State.fset_reg_ne _ _ _ _ hne, State.setReg_reg_self]
  · rw [State.fsat_fget _ _ _ rfl, State.setReg_fget_ne]
    exact Ne.symm hne
  · rw [State.fsat_butRegs, State.setReg_butRegs]

/-- Settles O35: a register write follows each field's access code and lock, and the host's refused one counts. -/
theorem registerFieldsTakeWrites : Obligations.RegisterFieldsTakeWrites := by
  unfold Obligations.RegisterFieldsTakeWrites
  intro s v
  refine ⟨fun k hk hc => registerWrite_armature v ?_ hc, fun hv h k hk => registerWrite_host hv h hk⟩
  revert hk
  simp only [plainRegs, List.mem_cons]
  tauto

end Sys2Proof.Machine
end

section
/-! SUPPORT. The windows onto the scale table, the group table, the neighbour table and the fault tables (R48, R51,
  R241,
R248, R251, R329). -/
namespace Sys2Proof.Machine

/-! ## Words written one after another -/

/-- Values written under consecutive keys. -/
def Sparse.putFrom {α : Type} [DecidableEq α] (d : Nat → α) (m : List (Nat × α)) (a : Nat) : List α → List (Nat × α)
  | [] => m
  | v :: vs => Sparse.putFrom d (Sparse.set d m a v) (a + 1) vs

theorem Sparse.get_putFrom {α : Type} [DecidableEq α] (d : Nat → α) (m : List (Nat × α)) (a : Nat) (vs : List α) (x : α)
    (i : Nat) : Sparse.get d (Sparse.putFrom d m a vs) i =
      if a ≤ i ∧ i < a + vs.length then vs.getD (i - a) x else Sparse.get d m i := by
  induction vs generalizing m a with
  | nil => rw [Sparse.putFrom, if_neg (by simp)]
  | cons v vs ih =>
    rw [Sparse.putFrom, ih, List.length_cons, Sparse.get_set]
    rcases lt_trichotomy i a with h | h | h
    · rw [if_neg (by omega), if_neg (by omega), if_neg (by omega)]
    · subst h
      rw [if_neg (by omega), if_pos rfl, if_pos (by omega)]
      simp
    · obtain ⟨j, rfl⟩ : ∃ j, i = a + 1 + j := ⟨i - a - 1, by omega⟩
      rw [if_neg (show ¬ a + 1 + j = a by omega)]
      by_cases hj : j < vs.length
      · rw [if_pos (by omega), if_pos (by omega), show a + 1 + j - a = j + 1 by omega, List.getD_cons_succ]
        congr 1
        omega
      · rw [if_neg (by omega), if_neg (by omega)]

theorem Sparse.get_putFrom_in {α : Type} [DecidableEq α] (d : Nat → α) (m : List (Nat × α)) (a : Nat) (vs : List α)
  (x : α)
    {k : Nat} (h : k < vs.length) : Sparse.get d (Sparse.putFrom d m a vs) (a + k) = vs.getD k x := by
  rw [Sparse.get_putFrom _ _ _ _ x, if_pos (by omega)]
  congr 1
  omega

theorem Sparse.get_putFrom_out {α : Type} [DecidableEq α] (d : Nat → α) (m : List (Nat × α)) (a : Nat) (vs : List α)
    {i : Nat} (h : ¬(a ≤ i ∧ i < a + vs.length)) : Sparse.get d (Sparse.putFrom d m a vs) i = Sparse.get d m i := by
  cases vs with
  | nil => rfl
  | cons v vs => rw [Sparse.get_putFrom _ _ _ _ v, if_neg h]

/-- An image of consecutive words, read at one of them. -/
theorem getD_map_range {α : Type} (f : Nat → α) (x : α) {n k : Nat} (h : k < n) : ((List.range n).map f).getD k x = f
  k := by
  simp [List.getD_eq_getElem?_getD, h]

/-! ## Window registers written one after another -/

/-- Values written to consecutive registers of a window. -/
def State.putRegs (s : State) (f : Nat → Nat) (k : Nat) : List (BitVec 32) → State
  | [] => s
  | v :: vs => (s.setReg (f k) v).putRegs f (k + 1) vs

theorem State.putRegs_butRegs (s : State) (f : Nat → Nat) (k : Nat) (vs : List (BitVec 32)) :
    (s.putRegs f k vs).butRegs = s.butRegs := by
  induction vs generalizing s k with
  | nil => rfl
  | cons v vs ih => exact (ih _ _).trans (State.setReg_butRegs _ _ _)

theorem State.putRegs_reg_ne (s : State) (f : Nat → Nat) (k : Nat) (vs : List (BitVec 32)) {i : Nat}
    (h : ∀ j, k ≤ j → j < k + vs.length → i ≠ f j) : (s.putRegs f k vs).reg i = s.reg i := by
  induction vs generalizing s k with
  | nil => rfl
  | cons v vs ih =>
    rw [List.length_cons] at h
    rw [State.putRegs, ih _ _ fun j h1 h2 => h j (by omega) (by omega), State.setReg_reg, if_neg (h k (by omega) (by
      omega))]

theorem State.putRegs_reg (s : State) {f : Nat → Nat} (hf : ∀ i j, f i = f j → i = j) (k : Nat) (vs : List (BitVec 32))
    {j : Nat} (h : j < vs.length) : (s.putRegs f k vs).reg (f (k + j)) = vs.getD j 0 := by
  induction vs generalizing s k j with
  | nil => simp at h
  | cons v vs ih =>
    cases j with
    | zero =>
      rw [State.putRegs, State.putRegs_reg_ne _ _ _ _ fun j h1 _ he => by have := hf _ _ he; omega]
      exact State.setReg_reg_self _ _ _
    | succ j =>
      rw [show k + (j + 1) = k + 1 + j by omega]
      exact ih _ _ (by simpa using h)

theorem State.putWin_eq (s : State) (k : Nat) (vs : List (BitVec 32)) : s.putWin k vs = s.putRegs Reg.SCT_WIN_DATA k
  vs := by
  induction vs generalizing s k with
  | nil => rfl
  | cons v vs ih => exact ih _ _

theorem State.putGrpWin_eq (s : State) (k : Nat) (vs : List (BitVec 32)) :
    s.putGrpWin k vs = s.putRegs Reg.CLV_GRP_DATA k vs := by
  induction vs generalizing s k with
  | nil => rfl
  | cons v vs ih => exact ih _ _

theorem State.putNbrWin_eq (s : State) (k : Nat) (vs : List (BitVec 32)) :
    s.putNbrWin k vs = s.putRegs Reg.WPL_NBR_DATA k vs := by
  induction vs generalizing s k with
  | nil => rfl
  | cons v vs ih => exact ih _ _

/-- Registers of a window written in a range are written one after another. -/
theorem foldl_range_setReg (s : State) (f : Nat → Nat) (g : Nat → BitVec 32) (n : Nat) :
    (List.range n).foldl (fun s k => s.setReg (f k) (g k)) s = s.putRegs f 0 ((List.range n).map g) := by
  suffices ∀ (n k : Nat) (s : State),
      (List.range' k n).foldl (fun s k => s.setReg (f k) (g k)) s = s.putRegs f k ((List.range' k n).map g) by
    simpa [List.range_eq_range'] using this n 0 s
  intro n
  induction n with
  | zero => exact fun _ _ => rfl
  | succ n ih => exact fun k s => ih (k + 1) _

theorem State.putFlt_eq (s : State) (ws : List (BitVec 32)) :
    s.putFlt ws = s.putRegs Reg.FLT_WIN_DATA 0 ((List.range 16).map fun k => ws.getD k 0) :=
  foldl_range_setReg _ _ _ _

/-! ## Table words written one after another -/

theorem State.putWords_eq (s : State) (i k : Nat) (vs : List (BitVec 32)) : s.putWords i k vs =
    { s with sct := Sparse.putFrom (fun _ => 0) s.sct (16 * i + k) vs
             sctEcc := Sparse.putFrom (fun _ => 0) s.sctEcc (16 * i + k) (vs.map fun _ => 0) } := by
  induction vs generalizing s k with
  | nil => rfl
  | cons v vs ih => exact ih _ _

theorem State.putGrp_eq (s : State) (i k : Nat) (vs : List (BitVec 32)) : s.putGrp i k vs =
    { s with grp := Sparse.putFrom (fun _ => 0) s.grp (8 * i + k) vs
             grpEcc := Sparse.putFrom (fun _ => 0) s.grpEcc (8 * i + k) (vs.map fun _ => 0) } := by
  induction vs generalizing s k with
  | nil => rfl
  | cons v vs ih => exact ih _ _

theorem State.putNbr_eq (s : State) (i k : Nat) (vs : List (BitVec 32)) : s.putNbr i k vs =
    { s with nbr := Sparse.putFrom (fun _ => 0) s.nbr (4 * i + k) vs } := by
  induction vs generalizing s k with
  | nil => rfl
  | cons v vs ih => exact ih _ _

/-! ## Command words -/

theorem cmdWord_toNat {n : Nat} (hn : n ≤ 28) (i : BitVec n) {op : Nat} (ho : op < 4) :
    (BitVec.ofNat 32 (2 ^ 30 * op) ||| i.zeroExtend 32).toNat = 2 ^ 30 * op + i.toNat := by
  have hi : i.toNat < 2 ^ 28 := lt_of_lt_of_le i.isLt (Nat.pow_le_pow_right (by decide) hn)
  rw [BitVec.toNat_or, BitVec.toNat_ofNat, BitVec.toNat_setWidth, Nat.mod_eq_of_lt (by omega),
    Nat.mod_eq_of_lt (show i.toNat < 2 ^ 32 by omega), ← Nat.two_pow_add_eq_or_of_lt (show i.toNat < 2 ^ 30 by omega)]

theorem cmdWord_op {n : Nat} (hn : n ≤ 28) (i : BitVec n) {op : Nat} (ho : op < 4) :
    (BitVec.ofNat 32 (2 ^ 30 * op) ||| i.zeroExtend 32).toNat / 2 ^ 30 = op := by
  have hi : i.toNat < 2 ^ 28 := lt_of_lt_of_le i.isLt (Nat.pow_le_pow_right (by decide) hn)
  rw [cmdWord_toNat hn i ho]
  omega

theorem cmdWord_index {n : Nat} (hn : n ≤ 28) (i : BitVec n) {op : Nat} (ho : op < 4) :
    (BitVec.ofNat 32 (2 ^ 30 * op) ||| i.zeroExtend 32).toNat % 2 ^ n = i.toNat := by
  rw [cmdWord_toNat hn i ho, show 30 = n + (30 - n) by omega, Nat.pow_add, Nat.mul_assoc, Nat.mul_add_mod]
  exact Nat.mod_eq_of_lt i.isLt

/-! ## The window of the scale table (R48, R51) -/

theorem SCT_WIN_DATA_inj (i j : Nat) (h : Reg.SCT_WIN_DATA i = Reg.SCT_WIN_DATA j) : i = j := by
  simp only [Reg.SCT_WIN_DATA] at h
  omega

theorem SCT_WIN_DATA_ne (k : Nat) : Reg.SCT_WIN_DATA k ≠ Reg.SCT_WIN_CMD ∧ Reg.SCT_WIN_DATA k ≠ Reg.SCT_WIN_STATUS := by
  simp only [Reg.SCT_WIN_DATA, Reg.SCT_WIN_CMD, Reg.SCT_WIN_STATUS]
  omega

theorem State.winCmd_butRegs (s : State) (op i : Nat) : (s.winCmd op i).butRegs = s.butRegs := rfl

theorem execSctWinRead_eq (s : State) (i : BitVec 15) :
    exec (.sctWinRead .armature i) s = .next (s.winRead i.toNat) := by
  show Host.Outcome.next (s.writeSctWin .armature (BitVec.ofNat 32 (2 ^ 30 * 1) ||| i.zeroExtend 32)) = _
  rw [State.writeSctWin, State.acting_armature, cmdWord_op (by decide) i (by decide), cmdWord_index (by decide) i (by
    decide)]
  rfl

theorem execSctWinWrite_eq (s : State) (i : BitVec 15) :
    exec (.sctWinWrite .armature i) s = .next (s.winWrite i.toNat) := by
  show Host.Outcome.next (s.writeSctWin .armature (BitVec.ofNat 32 (2 ^ 30 * 2) ||| i.zeroExtend 32)) = _
  rw [State.writeSctWin, State.acting_armature, cmdWord_op (by decide) i (by decide), cmdWord_index (by decide) i (by
    decide)]
  rfl

theorem execSctWinClear_eq (s : State) (i : BitVec 15) :
    exec (.sctWinClear .armature i) s = .next (s.winClear i.toNat) := by
  show Host.Outcome.next (s.writeSctWin .armature (BitVec.ofNat 32 (2 ^ 30 * 3) ||| i.zeroExtend 32)) = _
  rw [State.writeSctWin, State.acting_armature, cmdWord_op (by decide) i (by decide), cmdWord_index (by decide) i (by
    decide)]
  rfl

theorem State.sct_of_butRegs {s t : State} (h : t.butRegs = s.butRegs) : t.sct = s.sct := (congrArg State.sct h :)
theorem State.memKey_of_butRegs {s t : State} (h : t.butRegs = s.butRegs) : t.memKey = s.memKey :=
  (congrArg State.memKey h :)

theorem State.entry_length (s : State) (i : Nat) : (s.entry i).length = 16 := by simp [State.entry]

theorem State.enW_entry (s : State) (i : Nat) {k : Nat} (h : k < 16) : enW (s.entry i) k = s.sctW i k :=
  getD_map_range _ _ h

theorem State.winRead_good {s : State} {i : Nat} (h : s.sctBad i = []) :
    s.winRead i = (s.winCmd 1 i).putRegs Reg.SCT_WIN_DATA 0 (s.entry i) := by
  rw [State.winRead, State.checkSct_good s h, State.putWin_eq]

theorem sctWinRead_completes {s : State} {i : BitVec 15} (h : s.sctBad i.toNat = []) :
    Completes (.sctWinRead .armature i) s fun t =>
      (∀ k, k < 16 → t.reg (Reg.SCT_WIN_DATA k) = s.sctW i.toNat k) ∧ t.sct = s.sct ∧ ∀ a, t.byte a = s.byte a := by
  have hb := ((s.winCmd 1 i.toNat).putRegs_butRegs Reg.SCT_WIN_DATA 0 (s.entry i.toNat)).trans (s.winCmd_butRegs 1 _)
  rw [← State.winRead_good h] at hb
  refine ⟨s.winRead i.toNat, execSctWinRead_eq s i, fun k hk => ?_, State.sct_of_butRegs hb,
    State.byte_of_memKey (State.memKey_of_butRegs hb)⟩
  have hr := (s.winCmd 1 i.toNat).putRegs_reg SCT_WIN_DATA_inj 0 (s.entry i.toNat) (j := k) (by
    rw [State.entry_length]
    exact hk)
  rw [Nat.zero_add] at hr
  rw [State.winRead_good h, hr]
  exact s.enW_entry _ hk

/-! ### An entry written -/

theorem State.sctW_setEntry_in (s : State) (i : Nat) {e : Entry} (he : e.length = 16) {k : Nat} (hk : k < 16) :
    (s.setEntry i e).sctW i k = enW e k := by
  rw [State.setEntry, List.take_of_length_le (by omega), State.putWords_eq]
  exact Sparse.get_putFrom_in _ _ _ _ _ (by omega)

theorem State.sctW_setEntry_out (s : State) (i : Nat) {e : Entry} (he : e.length = 16) {j k : Nat}
    (h : ¬(16 * i ≤ 16 * j + k ∧ 16 * j + k < 16 * i + 16)) : (s.setEntry i e).sctW j k = s.sctW j k := by
  rw [State.setEntry, List.take_of_length_le (by omega), State.putWords_eq]
  exact Sparse.get_putFrom_out _ _ _ _ (by rw [he]; exact h)

theorem State.setEntry_regs (s : State) (i : Nat) (e : Entry) : (s.setEntry i e).regs = s.regs := by
  rw [State.setEntry, State.putWords_eq]

theorem State.setEntry_flag (s : State) (i : Nat) (e : Entry) (f : Fld) : (s.setEntry i e).flag f = s.flag f := by
  simp only [State.flag, State.fget_of_regs (s.setEntry_regs i e)]

theorem State.winImage_length (s : State) : s.winImage.length = 16 := by simp [State.winImage]

theorem State.enW_winImage (s : State) {k : Nat} (h : k < 16) : enW s.winImage k = s.reg (Reg.SCT_WIN_DATA k) :=
  getD_map_range _ _ h

theorem sctWinWrite_completes {s : State} {i : BitVec 15} (h : winBad s.winImage = false) :
    Completes (.sctWinWrite .armature i) s fun t =>
      (∀ k, k < 16 → t.sctW i.toNat k = s.reg (Reg.SCT_WIN_DATA k)) ∧
      (∀ j k, ¬ (16 * i.toNat ≤ 16 * j + k ∧ 16 * j + k < 16 * i.toNat + 16) → t.sctW j k = s.sctW j k) ∧
      t.flag F.SCT_WIN_STATUS_ERR = false := by
  have hx : s.winWrite i.toNat = ((s.winCmd 2 i.toNat).setFlag F.SCT_WIN_STATUS_ERR false).setEntry i.toNat
    s.winImage := by
    rw [State.winWrite]
    exact if_neg (by simp [h])
  refine ⟨s.winWrite i.toNat, execSctWinWrite_eq s i, fun k hk => ?_, fun j k hk => ?_, ?_⟩ <;> rw [hx]
  · rw [State.sctW_setEntry_in _ _ s.winImage_length hk, s.enW_winImage hk]
  · rw [State.sctW_setEntry_out _ _ s.winImage_length hk]
    rfl
  · rw [State.setEntry_flag, State.setFlag_flag _ _ _ rfl]

theorem sctWinWrite_refused {s : State} {i : BitVec 15} (h : winBad s.winImage = true) :
    Completes (.sctWinWrite .armature i) s fun t => t.sct = s.sct ∧ t.flag F.SCT_WIN_STATUS_ERR = true := by
  have hx : s.winWrite i.toNat = (s.winCmd 2 i.toNat).setFlag F.SCT_WIN_STATUS_ERR true := by
    rw [State.winWrite]
    exact if_pos h
  exact ⟨_, (execSctWinWrite_eq s i).trans (congrArg Host.Outcome.next hx), rfl, State.setFlag_flag _ _ _ rfl⟩

/-- The entry a window clear writes back. -/
def enCleared (e : Entry) : Entry :=
  let e := enSet (enSet e 9 0) 10 0
  enSet e 13 (wput (enW e 13) 31 24 0 &&& ~~~(0x2000 : BitVec 32))

theorem enW_enSet (e : Entry) (j k : Nat) (v : BitVec 32) (h : j < e.length) :
    enW (enSet e j v) k = if j = k then v else enW e k := by
  rw [enW, enSet, List.getD_eq_getElem?_getD, List.getElem?_set]
  split
  · simp [h]
  · rw [enW, List.getD_eq_getElem?_getD]

theorem enSet_length (e : Entry) (j : Nat) (v : BitVec 32) : (enSet e j v).length = e.length := List.length_set

theorem enW_enCleared {e : Entry} (he : e.length = 16) (k : Nat) : enW (enCleared e) k =
    if 13 = k then wput (enW e 13) 31 24 0 &&& ~~~(0x2000 : BitVec 32) else if 10 = k ∨ 9 = k then 0 else enW e k := by
  have h13 : enW (enSet (enSet e 9 0) 10 0) 13 = enW e 13 := by
    rw [enW_enSet _ _ _ _ (by rw [enSet_length]; omega), if_neg (by decide), enW_enSet _ _ _ _ (by omega),
      if_neg (by decide)]
  rw [enCleared, enW_enSet _ _ _ _ (by rw [enSet_length, enSet_length]; omega), h13,
    enW_enSet _ _ _ _ (by rw [enSet_length]; omega), enW_enSet _ _ _ _ (by omega)]
  split
  · rfl
  · rw [← ite_or]

/-- The word that carries the count and the flag which a clear drops. -/
theorem wput_clear (w : BitVec 32) : (wput w 31 24 0 &&& ~~~(0x2000 : BitVec 32)).toNat / 2 ^ 24 = 0 ∧
    (wput w 31 24 0 &&& ~~~(0x2000 : BitVec 32)).getLsbD 13 = false := by
  have h : wput w 31 24 0 &&& ~~~(0x2000 : BitVec 32) = w &&& 0x00FFDFFF#32 := by
    show (w &&& 0x00FFFFFF#32 ||| 0x0#32) &&& 0xFFFFDFFF#32 = _
    rw [BitVec.or_zero, BitVec.and_assoc]
    rfl
  rw [h, BitVec.toNat_and]
  refine ⟨Nat.div_eq_of_lt (lt_of_le_of_lt Nat.and_le_right (by decide)), ?_⟩
  rw [BitVec.getLsbD_and]
  simp

theorem sctWinClear_completes {s : State} {i : BitVec 15} (h : s.sctBad i.toNat = []) :
    Completes (.sctWinClear .armature i) s fun t =>
      t.sctW i.toNat 9 = 0 ∧ t.sctW i.toNat 10 = 0 ∧ (t.sctW i.toNat 13).toNat / 2 ^ 24 = 0 ∧
      (t.sctW i.toNat 13).getLsbD 13 = false ∧
      ∀ k, k < 16 → k ≠ 9 → k ≠ 10 → k ≠ 13 → t.sctW i.toNat k = s.sctW i.toNat k := by
  have hx : s.winClear i.toNat = (s.winCmd 3 i.toNat).setEntry i.toNat (enCleared (s.entry i.toNat)) := by
    rw [State.winClear, State.checkSct_good s h]
    rfl
  have hl : (enCleared (s.entry i.toNat)).length = 16 := by
    simp only [enCleared, enSet_length, State.entry_length]
  have hw (k : Nat) (hk : k < 16) : (s.winClear i.toNat).sctW i.toNat k = enW (enCleared (s.entry i.toNat)) k := by
    rw [hx, State.sctW_setEntry_in _ _ hl hk]
  simp only [enW_enCleared (s.entry_length _)] at hw
  refine ⟨s.winClear i.toNat, execSctWinClear_eq s i, hw 9 (by decide), hw 10 (by decide), ?_, ?_, fun k hk h9 h10
    h13 => ?_⟩
  · rw [hw 13 (by decide)]
    exact (wput_clear _).1
  · rw [hw 13 (by decide)]
    exact (wput_clear _).2
  · rw [hw k hk, if_neg (Ne.symm h13), if_neg (by omega), s.enW_entry _ hk]

/-! ## The window of the group table (R251, R252) -/

theorem CLV_GRP_DATA_inj (i j : Nat) (h : Reg.CLV_GRP_DATA i = Reg.CLV_GRP_DATA j) : i = j := by
  simp only [Reg.CLV_GRP_DATA] at h
  omega

theorem State.grpCmd_butRegs (s : State) (op i : Nat) : (s.grpCmd op i).butRegs = s.butRegs := rfl

theorem State.grp_of_butRegs {s t : State} (h : t.butRegs = s.butRegs) : t.grp = s.grp := (congrArg State.grp h :)

theorem execGroupRead_eq (s : State) (g : BitVec 12) : exec (.groupRead .armature g) s = .next (s.grpRead g.toNat) :=
  congrArg Host.Outcome.next (s.acting_armature _ _ _)

theorem execGroupWrite_eq (s : State) (g : BitVec 12) : exec (.groupWrite .armature g) s = .next (s.grpWrite g.toNat) :=
  congrArg Host.Outcome.next (s.acting_armature _ _ _)

theorem groupRead_completes {s : State} {g : BitVec 12} (h : s.grpBad g.toNat = []) :
    Completes (.groupRead .armature g) s fun t =>
      (∀ k, k < 8 → t.reg (Reg.CLV_GRP_DATA k) = s.grpW g.toNat k) ∧ t.grp = s.grp := by
  have hx : s.grpRead g.toNat =
      (s.grpCmd 1 g.toNat).putRegs Reg.CLV_GRP_DATA 0 ((List.range 8).map (s.grpW g.toNat)) := by
    rw [State.grpRead, State.checkGrp_good s h, State.putGrpWin_eq]
  have hb := ((s.grpCmd 1 g.toNat).putRegs_butRegs Reg.CLV_GRP_DATA 0 ((List.range 8).map (s.grpW g.toNat))).trans
    (s.grpCmd_butRegs 1 _)
  rw [← hx] at hb
  refine ⟨s.grpRead g.toNat, execGroupRead_eq s g, fun k hk => ?_, State.grp_of_butRegs hb⟩
  have hr := (s.grpCmd 1 g.toNat).putRegs_reg CLV_GRP_DATA_inj 0 ((List.range 8).map (s.grpW g.toNat)) (j := k)
    (by simpa using hk)
  rw [Nat.zero_add] at hr
  rw [hx, hr, getD_map_range _ _ hk]

theorem State.grpW_putGrp (s : State) (g : Nat) (vs : List (BitVec 32)) {k : Nat} (h : k < vs.length) :
    (s.putGrp g 0 vs).grpW g k = vs.getD k 0 := by
  rw [State.putGrp_eq]
  exact Sparse.get_putFrom_in _ _ _ _ _ h

theorem State.putGrp_flag (s : State) (g : Nat) (vs : List (BitVec 32)) (f : Fld) :
    (s.putGrp g 0 vs).flag f = s.flag f := by
  rw [State.putGrp_eq]
  rfl

/-- A group entry with VALID 0 is committed without a check (R252). -/
theorem groupWrite_completes {s : State} {g : BitVec 12} (h : (s.reg (Reg.CLV_GRP_DATA 0)).getLsbD 31 = false) :
    Completes (.groupWrite .armature g) s fun t =>
      (∀ k, k < 8 → t.grpW g.toNat k = s.reg (Reg.CLV_GRP_DATA k)) ∧ t.flag F.CLV_GRP_STATUS_ERR = false ∧
      t.grpValid g.toNat = false := by
  have hx : s.grpWrite g.toNat =
      ((s.grpCmd 2 g.toNat).setFlag F.CLV_GRP_STATUS_ERR false).putGrp g.toNat 0 s.grpImage := by
    rw [State.grpWrite]
    exact if_pos h
  have hw (k : Nat) (hk : k < 8) : (s.grpWrite g.toNat).grpW g.toNat k = s.reg (Reg.CLV_GRP_DATA k) := by
    rw [hx, State.grpW_putGrp _ _ _ (by simpa [State.grpImage] using hk)]
    exact getD_map_range _ _ hk
  refine ⟨s.grpWrite g.toNat, execGroupWrite_eq s g, hw, ?_, ?_⟩
  · rw [hx, State.putGrp_flag, State.setFlag_flag _ _ _ rfl]
  · rw [State.grpValid, hw 0 (by decide), h, Bool.false_and]

/-- Settles O36: the windows of the scale table and of the group table. -/
theorem tableWindows : Obligations.TableWindows := by
  unfold Obligations.TableWindows
  intro s i g
  exact ⟨fun h => sctWinRead_completes h, fun h => sctWinWrite_completes h, fun h => sctWinWrite_refused h,
    fun h => sctWinClear_completes h, fun h => groupRead_completes h, fun h => groupWrite_completes h⟩

/-! ## The window of the neighbour table (R241, R248) -/

theorem WPL_NBR_DATA_inj (i j : Nat) (h : Reg.WPL_NBR_DATA i = Reg.WPL_NBR_DATA j) : i = j := by
  simp only [Reg.WPL_NBR_DATA] at h
  omega

theorem execNbrRead_eq (s : State) (i : BitVec 6) : exec (.nbrRead .armature i) s = .next (s.nbrRead i.toNat) :=
  congrArg Host.Outcome.next (s.acting_armature _ _ _)

theorem execNbrWrite_eq (s : State) (i : BitVec 6) : exec (.nbrWrite .armature i) s = .next (s.nbrWrite i.toNat) :=
  congrArg Host.Outcome.next (s.acting_armature _ _ _)

theorem nbrRead_completes (s : State) (i : BitVec 6) : Completes (.nbrRead .armature i) s fun t =>
    (∀ k, k < 4 → t.reg (Reg.WPL_NBR_DATA k) = s.nbrW i.toNat k) ∧ { t with regs := s.regs } = s := by
  have hx : s.nbrRead i.toNat =
      (s.nbrCmd 1 i.toNat).putRegs Reg.WPL_NBR_DATA 0 ((List.range 4).map (s.nbrW i.toNat)) := by
    rw [State.nbrRead, State.putNbrWin_eq]
  have hb := (s.nbrCmd 1 i.toNat).putRegs_butRegs Reg.WPL_NBR_DATA 0 ((List.range 4).map (s.nbrW i.toNat))
  rw [← hx] at hb
  refine ⟨s.nbrRead i.toNat, execNbrRead_eq s i, fun k hk => ?_, State.frame_of_butRegs (hb.trans rfl)⟩
  have hr := (s.nbrCmd 1 i.toNat).putRegs_reg WPL_NBR_DATA_inj 0 ((List.range 4).map (s.nbrW i.toNat)) (j := k)
    (by simpa using hk)
  rw [Nat.zero_add] at hr
  rw [hx, hr, getD_map_range _ _ hk]

/-- Everything but the registers and the neighbour table. -/
def State.butNbr (s : State) : State := { s with regs := [], nbr := [] }

theorem State.frame_of_butNbr {s t : State} (h : t.butNbr = s.butNbr) : { t with regs := s.regs, nbr := s.nbr } = s :=
  (congrArg (fun u : State => { u with regs := s.regs, nbr := s.nbr }) h :)

theorem State.butNbr_of_butRegs {s t : State} (h : t.butRegs = s.butRegs) : t.butNbr = s.butNbr :=
  (congrArg State.butNbr h :)

theorem State.nbr_of_butRegs {s t : State} (h : t.butRegs = s.butRegs) : t.nbr = s.nbr := (congrArg State.nbr h :)

theorem State.putNbr_butNbr (s : State) (i : Nat) (vs : List (BitVec 32)) : (s.putNbr i 0 vs).butNbr = s.butNbr := by
  rw [State.putNbr_eq]
  rfl

theorem State.putNbr_regs (s : State) (i : Nat) (vs : List (BitVec 32)) : (s.putNbr i 0 vs).regs = s.regs := by
  rw [State.putNbr_eq]

theorem State.nbrW_putNbr (s : State) (i : Nat) {vs : List (BitVec 32)} (hl : vs.length = 4) {j k : Nat} (h : k < 4) :
    (s.putNbr i 0 vs).nbrW j k = if j = i then vs.getD k 0 else s.nbrW j k := by
  rw [State.putNbr_eq]
  split
  next hj =>
    subst hj
    exact Sparse.get_putFrom_in _ _ _ _ _ (by omega)
  next hj => exact Sparse.get_putFrom_out _ _ _ _ (by rw [hl]; omega)

/-- The image in the neighbour window. -/
def State.nbrImage (s : State) : List (BitVec 32) := (List.range 4).map fun k => s.reg (Reg.WPL_NBR_DATA k)

theorem nbrWrite_completes {s : State} {i : BitVec 6} (h : nbrOk s.nbrImage = true) :
    Completes (.nbrWrite .armature i) s fun t =>
      (∀ k, k < 4 → t.nbrW i.toNat k = s.reg (Reg.WPL_NBR_DATA k)) ∧
      (∀ j k, j ≠ i.toNat → k < 4 → t.nbrW j k = s.nbrW j k) ∧ t.flag F.WPL_NBR_STATUS_ERR = false ∧
      { t with regs := s.regs, nbr := s.nbr } = s := by
  have hx : s.nbrWrite i.toNat =
      ((s.nbrCmd 2 i.toNat).setFlag F.WPL_NBR_STATUS_ERR false).putNbr i.toNat 0 s.nbrImage := by
    rw [State.nbrWrite]
    exact if_pos h
  have hl : s.nbrImage.length = 4 := by simp [State.nbrImage]
  refine ⟨_, (execNbrWrite_eq s i).trans (congrArg Host.Outcome.next hx), fun k hk => ?_, fun j k hj hk => ?_, ?_,
    State.frame_of_butNbr ?_⟩
  · rw [State.nbrW_putNbr _ _ hl hk, if_pos rfl]
    exact getD_map_range _ _ hk
  · rw [State.nbrW_putNbr _ _ hl hk, if_neg hj]
    rfl
  · rw [State.flag, State.fget_of_regs (State.putNbr_regs _ _ _)]
    exact State.setFlag_flag _ _ _ rfl
  · rw [State.putNbr_butNbr]
    rfl

theorem nbrWrite_refused {s : State} {i : BitVec 6} (h : nbrOk s.nbrImage = false) :
    Completes (.nbrWrite .armature i) s fun t =>
      t.flag F.WPL_NBR_STATUS_ERR = true ∧ { t with regs := s.regs } = s := by
  have hx : s.nbrWrite i.toNat = (s.nbrCmd 2 i.toNat).setFlag F.WPL_NBR_STATUS_ERR true := by
    rw [State.nbrWrite]
    refine if_neg ?_
    rw [← State.nbrImage, h]
    decide
  exact ⟨_, (execNbrWrite_eq s i).trans (congrArg Host.Outcome.next hx), State.setFlag_flag _ _ _ rfl,
    State.frame_of_butRegs rfl⟩

/-! ### The automatic fill -/

theorem autoEntry_length (id i : Nat) : (autoEntry id i).length = 4 := by
  unfold autoEntry
  dsimp only
  split
  · rfl
  · split
    · rfl
    · split <;> rfl

/-- One entry of the automatic fill. -/
def State.fillNbr (s : State) (i : Nat) : State := s.putNbr i 0 (autoEntry (s.fget F.WPL_STRAP_ID) i)

theorem State.foldl_fillNbr_regs (s : State) (is : List Nat) : (is.foldl State.fillNbr s).regs = s.regs :=
  List.foldlRecOn (motive := fun t : State => t.regs = s.regs) _ _ rfl fun _ ht _ _ => (State.putNbr_regs _ _
    _).trans ht

theorem State.autoFill_butNbr (s : State) : s.autoFill.butNbr = s.butNbr :=
  List.foldlRecOn (motive := fun t : State => t.butNbr = s.butNbr) _ _ rfl fun _ ht _ _ =>
    (State.putNbr_butNbr _ _ _).trans ht

theorem State.foldl_fillNbr_nbrW (s : State) (n : Nat) {i k : Nat} (hk : k < 4) :
    ((List.range n).foldl State.fillNbr s).nbrW i k =
      if i < n then (autoEntry (s.fget F.WPL_STRAP_ID) i).getD k 0 else s.nbrW i k := by
  induction n with
  | zero => rfl
  | succ n ih =>
    rw [List.range_succ, List.foldl_append, List.foldl_cons, List.foldl_nil, State.fillNbr,
      State.nbrW_putNbr _ _ (autoEntry_length _ _) hk, ih, State.fget_of_regs (s.foldl_fillNbr_regs _)]
    rcases lt_trichotomy i n with h | h | h
    · rw [if_neg (by omega), if_pos h, if_pos (by omega)]
    · rw [if_pos h, if_pos (by omega), h]
    · rw [if_neg (by omega), if_neg (by omega), if_neg (by omega)]

theorem State.autoFill_nbrW (s : State) {i k : Nat} (hi : i < 64) (hk : k < 4) :
    s.autoFill.nbrW i k = (autoEntry (s.fget F.WPL_STRAP_ID) i).getD k 0 :=
  (s.foldl_fillNbr_nbrW 64 hk).trans (if_pos hi)

theorem State.settleId_butRegs (s : State) : s.settleId.butRegs = s.butRegs := by
  unfold State.settleId
  dsimp only
  split
  · rfl
  · split <;> rfl

theorem row_WPL_DISC_CFG : Reg.row Reg.WPL_DISC_CFG = some ⟨"WPL_DISC_CFG", 0x10, 1, 0x4, 0x0, 1, 0x0, 1,
    [⟨31, 31, .lk, 0x0⟩, ⟨30, 30, .lk, 0x0⟩, ⟨29, 29, .lk, 0x0⟩, ⟨28, 28, .lk, 0x1⟩, ⟨27, 27, .lk, 0x0⟩]⟩ := by
  decide +kernel

theorem autoFill_completes {s : State} {v : BitVec 32} (ha : s.flag F.WPL_DISC_CFG_AUTO = false)
    (hl : s.flag F.WPL_DISC_CFG_LOCK = false) (hv : v.getLsbD 28 = true) : Completes (.autoFill .armature v) s fun t =>
      (∀ i k, i < 64 → k < 4 → t.nbrW i k = (autoEntry (s.fget F.WPL_STRAP_ID) i).getD k 0) ∧
      { t with regs := s.regs, nbr := s.nbr } = s := by
  let u := s.plainWrite .armature Reg.WPL_DISC_CFG v
  have hlock : s.locked Reg.WPL_DISC_CFG = false := (State.flag_eq_getLsbD s (f := F.WPL_DISC_CFG_LOCK)
    rfl).symm.trans hl
  have hauto : u.flag F.WPL_DISC_CFG_AUTO = true := by
    refine (s.written_flag (g := F.WPL_DISC_CFG_AUTO) row_WPL_DISC_CFG (by simp [fieldsApart]) (acc := .lk) (r := 1)
      (by decide) rfl v).trans ?_
    rw [Acc.after, show s.locked F.WPL_DISC_CFG_AUTO.key = false from hlock]
    exact hv
  have hid : u.fget F.WPL_STRAP_ID = s.fget F.WPL_STRAP_ID := State.setReg_fget_ne _ _ _ _ (by decide)
  have hx : exec (.autoFill .armature v) s = .next u.autoFill.settleId := by
    show Host.Outcome.next (s.writeDiscCfg .armature v) = _
    rw [State.writeDiscCfg, if_pos ⟨ha, hauto⟩]
  have hs := u.autoFill.settleId_butRegs
  refine ⟨_, hx, fun i k hi hk => ?_, State.frame_of_butNbr ?_⟩
  · rw [← hid, ← u.autoFill_nbrW hi hk]
    rw [State.nbrW, State.nbr_of_butRegs hs, State.nbrW]
  · exact (State.butNbr_of_butRegs hs).trans (u.autoFill_butNbr.trans rfl)

/-! ## The window onto the fault tables (R326, R329) -/

theorem FLT_WIN_DATA_inj (i j : Nat) (h : Reg.FLT_WIN_DATA i = Reg.FLT_WIN_DATA j) : i = j := by
  simp only [Reg.FLT_WIN_DATA] at h
  omega

theorem FLT_WIN_DATA_ne (k : Nat) : Reg.FLT_WIN_DATA k ≠ Reg.FLT_WIN_CMD ∧ Reg.FLT_WIN_DATA k ≠ Reg.FLT_WIN_STATUS := by
  simp only [Reg.FLT_WIN_DATA, Reg.FLT_WIN_CMD, Reg.FLT_WIN_STATUS]
  omega

/-- FLT_WIN_CMD as a command leaves it. -/
def State.fltNamed (s : State) (op tgt i : Nat) : State :=
  ((s.fset F.FLT_WIN_CMD_OP op).fset F.FLT_WIN_CMD_TGT tgt).fset F.FLT_WIN_CMD_INDEX i

/-- A window command's end: ERR and the count. -/
def State.fltEnd (s : State) (err : Bool) : State := (s.setFlag F.FLT_WIN_STATUS_ERR err).fwrap F.FLT_WIN_STATUS_SEQ 1

theorem State.fltNamed_butRegs (s : State) (op tgt i : Nat) : (s.fltNamed op tgt i).butRegs = s.butRegs := rfl

theorem State.fltEnd_butRegs (s : State) (err : Bool) : (s.fltEnd err).butRegs = s.butRegs := rfl

theorem State.fltNamed_reg (s : State) (op tgt i : Nat) {k : Nat} (h : k ≠ Reg.FLT_WIN_CMD) :
    (s.fltNamed op tgt i).reg k = s.reg k := by
  rw [State.fltNamed, State.fset_reg_ne _ _ _ _ h, State.fset_reg_ne _ _ _ _ h, State.fset_reg_ne _ _ _ _ h]

theorem State.fltEnd_reg (s : State) (err : Bool) {k : Nat} (h : k ≠ Reg.FLT_WIN_STATUS) :
    (s.fltEnd err).reg k = s.reg k := by
  rw [State.fltEnd, State.fwrap, State.fset_reg_ne _ _ _ _ h, State.setFlag, State.fset_reg_ne _ _ _ _ h]

theorem State.fltEnd_err (s : State) (err : Bool) : (s.fltEnd err).flag F.FLT_WIN_STATUS_ERR = err := by
  rw [State.fltEnd, State.fwrap, State.fset_flag_apart _ _ _ _ rfl, State.setFlag_flag _ _ _ rfl]

theorem State.fltRead_of {s t : State} (hb : t.butRegs = s.butRegs) (hr : t.reg Reg.FLT_LAST_RSEQ = s.reg
  Reg.FLT_LAST_RSEQ)
    (g i : Nat) : t.fltRead g i = s.fltRead g i := by
  have hring : t.ring = s.ring := (congrArg State.ring hb :)
  have hhist : t.hist = s.hist := (congrArg State.hist hb :)
  have hlp : t.lpTab = s.lpTab := (congrArg State.lpTab hb :)
  have hadv : t.advRing = s.advRing := (congrArg State.advRing hb :)
  have hlpW : t.lpW i = s.lpW i := funext fun k => by rw [State.lpW, State.lpW, hlp]
  rw [State.fltRead, State.fltRead, hr, hring, hhist, hlpW, hadv]

/-- What a read of an entry whose words read good finds and shows. -/
def State.fltShown (s : State) : Option (List (BitVec 32)) → State
  | some ws => (s.putFlt ws).fltEnd false
  | none => s.fltEnd true

theorem State.fltCmd_read {s : State} {g i : Nat} (h : s.fltBad g i = []) :
    s.fltCmd 1 g i = (s.fltNamed 1 g i).fltShown (s.fltRead g i) := by
  have hbad : (s.fltNamed 1 g i).fltBad g i = [] := h
  rw [← State.fltRead_of (s.fltNamed_butRegs 1 g i) (s.fltNamed_reg 1 g i (by decide)) g i]
  show (match ((s.fltNamed 1 g i).checkFlt (g == 3) ((s.fltNamed 1 g i).fltBad g i)).fltRead g i with
    | some ws => (((s.fltNamed 1 g i).checkFlt (g == 3) ((s.fltNamed 1 g i).fltBad g i)).putFlt ws).fltEnd false
    | none => ((s.fltNamed 1 g i).checkFlt (g == 3) ((s.fltNamed 1 g i).fltBad g i)).fltEnd true) = _
  rw [hbad, State.checkFlt_nil]
  cases (s.fltNamed 1 g i).fltRead g i <;> rfl

theorem State.fltCmd_refused (s : State) {op i : Nat} (ho : op ≠ 1) (h : 256 ≤ i) :
    s.fltCmd op 2 i = (s.fltNamed op 2 i).fltEnd true := by
  unfold State.fltCmd
  dsimp only
  rw [if_neg ho, if_pos (Or.inr h)]
  rfl

/-- The first twelve words of a Loupe entry taken from the window. -/
def State.lpTaken (s : State) (i : Nat) : State :=
  (List.range 12).foldl (fun t k => t.setLpW i k (t.reg (Reg.FLT_WIN_DATA k))) s

theorem State.fltCmd_write (s : State) {i : Nat} (h : i < 256) :
    s.fltCmd 2 2 i = ((s.fltNamed 2 2 i).lpTaken i).fltEnd false := by
  unfold State.fltCmd
  dsimp only
  rw [if_neg (by decide), if_neg (by omega), if_pos rfl]
  rfl

/-- A Loupe entry with its bins, its count of elements without a bin and its mark of an advisory cleared. -/
def State.lpCleared (s : State) (i : Nat) : State :=
  (((List.range 8).foldl (fun t k => t.setLpW i k 0) s).setLpF i 9 31 16 0).setLpF i 8 17 17 0

theorem State.fltCmd_clear {s : State} {i : Nat} (h : i < 256) (hb : s.fltBad 2 i = []) :
    s.fltCmd 3 2 i = ((s.fltNamed 3 2 i).lpCleared i).fltEnd false := by
  have hbad : (s.fltNamed 3 2 i).fltBad 2 i = [] := hb
  unfold State.fltCmd
  dsimp only
  rw [if_neg (by decide), if_neg (by omega), if_neg (by decide), ← State.fltNamed, hbad, State.checkFlt_nil]
  rfl

theorem execFaultWinRead_eq (s : State) (g : Fin 4) (i : BitVec 28) :
    exec (.faultWinRead .armature g i) s = .next (s.fltCmd 1 g i.toNat) :=
  congrArg Host.Outcome.next (s.acting_armature _ _ _)

theorem execLoupeEntryWrite_eq (s : State) (i : BitVec 28) :
    exec (.loupeEntryWrite .armature i) s = .next (s.fltCmd 2 2 i.toNat) :=
  congrArg Host.Outcome.next (s.acting_armature _ _ _)

theorem execLoupeEntryClear_eq (s : State) (i : BitVec 28) :
    exec (.loupeEntryClear .armature i) s = .next (s.fltCmd 3 2 i.toNat) :=
  congrArg Host.Outcome.next (s.acting_armature _ _ _)

theorem faultWinRead_found {s : State} {g : Fin 4} {i : BitVec 28} (h : s.fltBad g i.toNat = []) {ws : List (BitVec 32)}
    (hw : s.fltRead g i.toNat = some ws) : Completes (.faultWinRead .armature g i) s fun t =>
      (∀ k, k < 16 → t.reg (Reg.FLT_WIN_DATA k) = ws.getD k 0) ∧ t.flag F.FLT_WIN_STATUS_ERR = false ∧
      { t with regs := s.regs } = s := by
  have hx : s.fltCmd 1 g i.toNat = ((s.fltNamed 1 g i.toNat).putFlt ws).fltEnd false := by
    rw [State.fltCmd_read h, hw, State.fltShown]
  rw [State.putFlt_eq] at hx
  refine ⟨_, (execFaultWinRead_eq s g i).trans (congrArg Host.Outcome.next hx), fun k hk => ?_, State.fltEnd_err _ _,
    State.frame_of_butRegs ?_⟩
  · have hr := (s.fltNamed 1 g i.toNat).putRegs_reg FLT_WIN_DATA_inj 0 ((List.range 16).map fun k => ws.getD k 0) (j
    := k)
      (by simpa using hk)
    rw [Nat.zero_add, getD_map_range _ _ hk] at hr
    rw [State.fltEnd_reg _ _ (FLT_WIN_DATA_ne k).2, hr]
  · rw [State.fltEnd_butRegs, State.putRegs_butRegs, State.fltNamed_butRegs]

theorem faultWinRead_missing {s : State} {g : Fin 4} {i : BitVec 28} (h : s.fltBad g i.toNat = [])
    (hw : s.fltRead g i.toNat = none) : Completes (.faultWinRead .armature g i) s fun t =>
      t.flag F.FLT_WIN_STATUS_ERR = true ∧ { t with regs := s.regs } = s := by
  have hx : s.fltCmd 1 g i.toNat = (s.fltNamed 1 g i.toNat).fltEnd true := by
    rw [State.fltCmd_read h, hw, State.fltShown]
  exact ⟨_, (execFaultWinRead_eq s g i).trans (congrArg Host.Outcome.next hx), State.fltEnd_err _ _,
    State.frame_of_butRegs rfl⟩

theorem loupeEntryWrite_refused {s : State} {i : BitVec 28} (h : 256 ≤ i.toNat) :
    Completes (.loupeEntryWrite .armature i) s fun t =>
      t.flag F.FLT_WIN_STATUS_ERR = true ∧ { t with regs := s.regs } = s := by
  exact ⟨_, (execLoupeEntryWrite_eq s i).trans (congrArg Host.Outcome.next (s.fltCmd_refused (by decide) h)),
    State.fltEnd_err _ _,
    State.frame_of_butRegs rfl⟩

/-! ### The Loupe table -/

/-- Everything but the registers and the Loupe table. -/
def State.butLp (s : State) : State := { s with regs := [], lpTab := [], lpEcc := [] }

theorem State.frame_of_butLp {s t : State} (h : t.butLp = s.butLp) :
    { t with regs := s.regs, lpTab := s.lpTab, lpEcc := s.lpEcc } = s :=
  (congrArg (fun u : State => { u with regs := s.regs, lpTab := s.lpTab, lpEcc := s.lpEcc }) h :)

theorem State.butLp_of_butRegs {s t : State} (h : t.butRegs = s.butRegs) : t.butLp = s.butLp :=
  (congrArg State.butLp h :)

theorem State.lpW_of_butRegs {s t : State} (h : t.butRegs = s.butRegs) (j k : Nat) : t.lpW j k = s.lpW j k := by
  rw [State.lpW, State.lpW, show t.lpTab = s.lpTab from (congrArg State.lpTab h :)]

theorem State.setLpW_butLp (s : State) (i k : Nat) (v : BitVec 32) : (s.setLpW i k v).butLp = s.butLp := rfl

theorem State.setLpW_regs (s : State) (i k : Nat) (v : BitVec 32) : (s.setLpW i k v).regs = s.regs := rfl

theorem State.setLpW_lpW (s : State) (i k : Nat) (v : BitVec 32) (j l : Nat) :
    (s.setLpW i k v).lpW j l = if 16 * j + l = 16 * i + k then v else s.lpW j l := Sparse.get_set _ _ _ _ _

/-- The first words of an entry written, each with a value that the table does not enter. -/
theorem State.foldl_setLpW (s : State) (i n : Nat) (g : State → Nat → BitVec 32)
    (hg : ∀ t k, t.regs = s.regs → g t k = g s k) :
    let t := (List.range n).foldl (fun t k => t.setLpW i k (g t k)) s
    t.regs = s.regs ∧ t.butLp = s.butLp ∧ ∀ j k, t.lpW j k =
      if 16 * i ≤ 16 * j + k ∧ 16 * j + k < 16 * i + n then g s (16 * j + k - 16 * i) else s.lpW j k := by
  induction n with
  | zero => exact ⟨rfl, rfl, fun j k => (if_neg (by omega)).symm⟩
  | succ n ih =>
    dsimp only at ih ⊢
    rw [List.range_succ, List.foldl_append, List.foldl_cons, List.foldl_nil]
    generalize (List.range n).foldl (fun t k => t.setLpW i k (g t k)) s = u at *
    obtain ⟨hr, hb, hw⟩ := ih
    refine ⟨hr, (State.setLpW_butLp _ _ _ _).trans hb, fun j k => ?_⟩
    rw [State.setLpW_lpW, hw, hg u n hr]
    rcases lt_trichotomy (16 * j + k) (16 * i + n) with h | h | h
    · rw [if_neg (by omega)]
      exact ite_congr (propext (by omega)) (fun _ => rfl) fun _ => rfl
    · rw [if_pos h, if_pos (by omega), show 16 * j + k - 16 * i = n by omega]
    · rw [if_neg (by omega), if_neg (by omega), if_neg (by omega)]

theorem State.setLpF_butLp (s : State) (i j hi lo v : Nat) : (s.setLpF i j hi lo v).butLp = s.butLp := rfl

theorem State.setLpF_lpW_ne (s : State) {i j hi lo v k l : Nat} (h : 16 * k + l ≠ 16 * i + j) :
    (s.setLpF i j hi lo v).lpW k l = s.lpW k l := (State.setLpW_lpW _ _ _ _ _ _).trans (if_neg h)

theorem loupeEntryWrite_completes {s : State} {i : BitVec 28} (h : i.toNat < 256) :
    Completes (.loupeEntryWrite .armature i) s fun t =>
      (∀ k, k < 12 → t.lpW i.toNat k = s.reg (Reg.FLT_WIN_DATA k)) ∧
      (∀ j k, ¬ (16 * i.toNat ≤ 16 * j + k ∧ 16 * j + k < 16 * i.toNat + 12) → t.lpW j k = s.lpW j k) ∧
      t.flag F.FLT_WIN_STATUS_ERR = false ∧ { t with regs := s.regs, lpTab := s.lpTab, lpEcc := s.lpEcc } = s := by
  obtain ⟨-, hb, hw⟩ := (s.fltNamed 2 2 i.toNat).foldl_setLpW i.toNat 12 (fun t k => t.reg (Reg.FLT_WIN_DATA k))
    fun t k ht => by simp only [State.reg, ht]
  have hx := s.fltCmd_write h
  rw [State.lpTaken] at hx
  generalize (List.range 12).foldl (fun t k => t.setLpW i.toNat k (t.reg (Reg.FLT_WIN_DATA k))) (s.fltNamed 2 2
    i.toNat) =
    v at *
  have hv (j k : Nat) : (v.fltEnd false).lpW j k = v.lpW j k := State.lpW_of_butRegs (State.fltEnd_butRegs _ _) j k
  refine ⟨v.fltEnd false, (execLoupeEntryWrite_eq s i).trans (congrArg Host.Outcome.next hx), fun k hk => ?_,
    fun j k hk => ?_, State.fltEnd_err _ _, State.frame_of_butLp ?_⟩
  · rw [hv, hw, if_pos (by omega), show 16 * i.toNat + k - 16 * i.toNat = k by omega]
    exact State.fltNamed_reg _ _ _ _ (FLT_WIN_DATA_ne k).1
  · rw [hv, hw, if_neg hk]
    exact State.lpW_of_butRegs (State.fltNamed_butRegs _ _ _ _) j k
  · exact (State.butLp_of_butRegs (State.fltEnd_butRegs _ _)).trans (hb.trans rfl)

theorem State.setLpF_lpF_zero (s : State) {i j hi lo : Nat} (h : hi < 32) (hlo : lo ≤ hi) :
    (s.setLpF i j hi lo 0).lpF i j hi lo = 0 := by
  rw [State.lpF, State.setLpF, State.setLpW_lpW, if_pos rfl, Nat.min_zero]
  refine Nat.eq_of_testBit_eq fun k => ?_
  rw [Nat.testBit_mod_two_pow, Nat.testBit_div_two_pow, BitVec.testBit_toNat, Nat.zero_testBit]
  by_cases hk : k < hi + 1 - lo
  · rw [BitVec.getLsbD_or, BitVec.getLsbD_and, BitVec.getLsbD_not, BitVec.getLsbD_shiftLeft, BitVec.getLsbD_shiftLeft,
      Nat.add_sub_cancel, BitVec.getLsbD_ofNat, BitVec.getLsbD_ofNat, Nat.testBit_two_pow_sub_one]
    simp [hk, show k < 32 by omega, show k + lo < 32 by omega]
  · simp [hk]

/-- A field of another word of the entry. -/
theorem State.setLpF_lpF_ne (s : State) {i j hi lo v k hi' lo' : Nat} (h : k ≠ j) :
    (s.setLpF i j hi lo v).lpF i k hi' lo' = s.lpF i k hi' lo' := by
  rw [State.lpF, State.setLpF_lpW_ne _ (by omega), State.lpF]

theorem loupeEntryClear_completes {s : State} {i : BitVec 28} (h : i.toNat < 256) (hb : s.fltBad 2 i.toNat = []) :
    Completes (.loupeEntryClear .armature i) s fun t =>
      (∀ k, k < 8 → t.lpW i.toNat k = 0) ∧ t.lpF i.toNat 9 31 16 = 0 ∧ t.lpF i.toNat 8 17 17 = 0 ∧
      (∀ k, 10 ≤ k → k < 16 → t.lpW i.toNat k = s.lpW i.toNat k) ∧ t.flag F.FLT_WIN_STATUS_ERR = false ∧
      { t with regs := s.regs, lpTab := s.lpTab, lpEcc := s.lpEcc } = s := by
  obtain ⟨-, hbut, hw⟩ := (s.fltNamed 3 2 i.toNat).foldl_setLpW i.toNat 8 (fun _ _ => 0) fun _ _ _ => rfl
  have hx := s.fltCmd_clear h hb
  rw [State.lpCleared] at hx
  generalize (List.range 8).foldl (fun t k => t.setLpW i.toNat k 0) (s.fltNamed 3 2 i.toNat) = v at *
  have he (j k : Nat) : (((v.setLpF i.toNat 9 31 16 0).setLpF i.toNat 8 17 17 0).fltEnd false).lpW j k =
      ((v.setLpF i.toNat 9 31 16 0).setLpF i.toNat 8 17 17 0).lpW j k := State.lpW_of_butRegs (State.fltEnd_butRegs _
        _) j k
  have hne (k : Nat) (h8 : k ≠ 8) (h9 : k ≠ 9) :
      ((v.setLpF i.toNat 9 31 16 0).setLpF i.toNat 8 17 17 0).lpW i.toNat k = v.lpW i.toNat k := by
    rw [State.setLpF_lpW_ne _ (by omega), State.setLpF_lpW_ne _ (by omega)]
  refine ⟨_, (execLoupeEntryClear_eq s i).trans (congrArg Host.Outcome.next hx), fun k hk => ?_, ?_, ?_,
    fun k h10 h16 => ?_, State.fltEnd_err _ _, State.frame_of_butLp ?_⟩
  · rw [he, hne k (by omega) (by omega), hw, if_pos (by omega)]
  · rw [State.lpF, he, ← State.lpF, State.setLpF_lpF_ne _ (by decide), State.setLpF_lpF_zero _ (by decide) (by decide)]
  · rw [State.lpF, he, ← State.lpF, State.setLpF_lpF_zero _ (by decide) (by decide)]
  · rw [he, hne k (by omega) (by omega), hw, if_neg (by omega)]
    exact State.lpW_of_butRegs (State.fltNamed_butRegs _ _ _ _) _ _
  · rw [State.butLp_of_butRegs (State.fltEnd_butRegs _ _), State.setLpF_butLp, State.setLpF_butLp, hbut,
      State.butLp_of_butRegs (State.fltNamed_butRegs _ _ _ _)]

/-- Settles O41: the neighbour window, the automatic fill, and the window onto the fault tables. -/
theorem neighbourAndFaultWindows : Obligations.NeighbourAndFaultWindows := by
  unfold Obligations.NeighbourAndFaultWindows
  intro s
  exact ⟨fun i => ⟨nbrRead_completes s i, fun h => nbrWrite_completes h, fun h => nbrWrite_refused h⟩,
    fun v ha hl hv => autoFill_completes ha hl hv,
    fun i => ⟨fun g h => ⟨fun ws hw => faultWinRead_found h hw, fun hw => faultWinRead_missing h hw⟩,
      fun h => ⟨loupeEntryWrite_completes h, fun hb => loupeEntryClear_completes h hb⟩, fun h =>
        loupeEntryWrite_refused h⟩⟩

end Sys2Proof.Machine
end

section
/-! SUPPORT. Register writes that act at once: semaphores, SCT_STEP, doorbells and the enable of a queue (R44, R140,
  R154,
R160, R164). -/
namespace Sys2Proof.Machine

/-! ## Semaphores and the step -/

theorem execSemValueWrite_eq (s : State) (u : Clu) (k : BitVec 8) (v : BitVec 32) :
    exec (.semValueWrite .armature u k v) s = .next (s.semWrite u.key k.toNat v) :=
  congrArg Host.Outcome.next (s.acting_armature _ _ _)

/-- OVF as a write of the semaphore leaves it. -/
def State.ovfWritten (s : State) (u k : Nat) (v : BitVec 32) : State :=
  if v.getLsbD 31 then s.setFlag (F.STR_SEM_OVF u k) false else s

theorem State.semWrite_of_nil {s : State} {u k : Nat} {v : BitVec 32} (h : s.waiters (semKey u k) = []) :
    s.semWrite u k v =
      ((s.ovfWritten u k v).fset (F.STR_SEM_VALUE u k) (v.toNat % 2 ^ 16)).setWaiters (semKey u k) [] := by
  refine State.service_of_nil ?_
  split <;> exact h

theorem State.ovfWritten_flag (s : State) (u k : Nat) (v : BitVec 32) :
    (s.ovfWritten u k v).flag (F.STR_SEM_OVF u k) = (s.flag (F.STR_SEM_OVF u k) && !v.getLsbD 31) := by
  unfold State.ovfWritten
  split
  next h => rw [State.setFlag_flag _ _ _ (semOvf_ok u k), h, Bool.not_true, Bool.and_false]
  next h => rw [Bool.eq_false_of_not_eq_true h, Bool.not_false, Bool.and_true]

theorem State.ovfWritten_reg (s : State) {u k : Nat} (v : BitVec 32) {i : Nat} (h : i ≠ Reg.STR_SEM u k) :
    (s.ovfWritten u k v).reg i = s.reg i := by
  unfold State.ovfWritten
  split
  · exact State.fset_reg_ne _ _ _ _ h
  · rfl

theorem semValueWrite_completes {s : State} {u : Clu} {k : BitVec 8} (v : BitVec 32)
    (h : s.waiters (256 * u.key + k.toNat) = []) : Completes (.semValueWrite .armature u k v) s fun t =>
      t.fget (F.STR_SEM_VALUE u.key k.toNat) = v.toNat % 2 ^ 16 ∧
      t.flag (F.STR_SEM_OVF u.key k.toNat) = (s.flag (F.STR_SEM_OVF u.key k.toNat) && !v.getLsbD 31) ∧
      ∀ i, i ≠ Reg.STR_SEM u.key k.toNat → t.reg i = s.reg i := by
  have hx := (execSemValueWrite_eq s u k v).trans (congrArg Host.Outcome.next (State.semWrite_of_nil (v := v) h))
  refine ⟨_, hx, ?_, ?_, fun i hi => ?_⟩
  · rw [State.setWaiters_fget]
    exact State.fset_semValue _ _ _ _ (Nat.mod_lt _ (by decide))
  · rw [State.setWaiters_flag, State.fset_flag_apart _ _ _ _ (semValue_apart_ovf _ _), State.ovfWritten_flag]
  · rw [State.setWaiters_reg_same, State.fset_reg_ne _ _ _ _ hi, State.ovfWritten_reg _ _ hi]

theorem execSctStepWrite_eq (s : State) (v : BitVec 32) : exec (.sctStepWrite .armature v) s = .next (s.writeStep v) :=
  congrArg Host.Outcome.next (s.acting_armature _ _ _)

theorem State.evalSlot_reg (s : State) (k : Nat) {i : Nat} (h : i ≠ Reg.PLN_SCHED_V k) : (s.evalSlot k).reg i = s.reg
  i := by
  unfold State.evalSlot
  split
  · rw [State.setReg_reg, if_neg h]
  · rfl

theorem State.evalSchedules_reg (s : State) {i : Nat} (h : ∀ k < 16, i ≠ Reg.PLN_SCHED_V k) :
    s.evalSchedules.reg i = s.reg i :=
  List.foldlRecOn (motive := fun t : State => t.reg i = s.reg i) _ _ rfl fun t ht k hk =>
    (t.evalSlot_reg k (h k (List.mem_range.mp hk))).trans ht

theorem sctStepWrite_completes {s : State} (v : BitVec 32) (hb : s.flag F.SCT_ADV_STATUS_BUSY = false) (hu : s.upd =
  none)
    (hr : s.recEn = false) : Completes (.sctStepWrite .armature v) s fun t =>
      t.reg Reg.SCT_STEP = v ∧ ∀ a, t.byte a = s.byte a := by
  have hx : s.writeStep v = (s.setReg Reg.SCT_STEP v).evalSchedules := if_neg (by simp [hb, hu, hr])
  refine ⟨_, (execSctStepWrite_eq s v).trans (congrArg Host.Outcome.next hx), ?_, State.byte_of_memKey (by simp)⟩
  rw [State.evalSchedules_reg _ (by decide), State.setReg_reg_self]

theorem sctStepWrite_refused {s : State} (v : BitVec 32)
    (h : s.flag F.SCT_ADV_STATUS_BUSY = true ∨ s.upd.isSome = true ∨ s.recEn = true) :
    Completes (.sctStepWrite .armature v) s fun t =>
      t.reg Reg.SCT_STEP = s.reg Reg.SCT_STEP ∧ t.flag F.SCT_ADV_STATUS_STEP_ERR = true ∧ ∀ a, t.byte a = s.byte a := by
  have hx : s.writeStep v = s.setFlag F.SCT_ADV_STATUS_STEP_ERR true :=
    if_pos (by simpa [Bool.or_assoc] using h)
  exact ⟨_, (execSctStepWrite_eq s v).trans (congrArg Host.Outcome.next hx), State.fset_reg_ne _ _ _ _ (by decide),
    State.setFlag_flag _ _ _ rfl, State.byte_of_memKey (by simp)⟩

/-! ## Queues -/

theorem row_PLN_CQ_TAIL (q : Fin 16) : Reg.row (Reg.PLN_CQ_TAIL q) = some ⟨"PLN_CQn_TAIL", 0x0, 1, 0x1014, 0x20, 16,
  0x0,
    1, [⟨19, 0, .rw, 0x0⟩]⟩ := by
  revert q
  decide +kernel

theorem row_PLN_CQ_CFG (q : Fin 16) : Reg.row (Reg.PLN_CQ_CFG q) = some ⟨"PLN_CQn_CFG", 0x0, 1, 0x1010, 0x20, 16, 0x0,
    1, [⟨31, 31, .rw, 0x0⟩, ⟨30, 30, .rw, 0x1⟩, ⟨23, 20, .rw, 0x0⟩]⟩ := by
  revert q
  decide +kernel

/-- What a recursion over a number may use of its calls: they keep what `P` shows. -/
def State.natCallsKeep {β : Type} (P : State → β) : (n : Nat) → Nat.below (motive := fun _ => State → State) n → Prop
  | 0, _ => True
  | _ + 1, f => ∀ s, P (f.1 s) = P s

/-- A structural recursion over a number, by its body (see `State.natRec_memKey`). -/
theorem State.natRec_keep {β : Type} {P : State → β}
    {F : (n : Nat) → Nat.below (motive := fun _ => State → State) n → State → State}
    (hF : ∀ n f s, State.natCallsKeep P n f → P (F n f s) = P s) (n : Nat) (s : State) :
    P (Nat.brecOn (motive := fun _ => State → State) n F s) = P s := by
  induction n generalizing s with
  | zero => exact hF 0 _ s trivial
  | succ n ih => exact hF (n + 1) _ s ih

theorem State.haltQ_reg (s : State) (q c : Nat) {k : Nat} (h : k ≠ Reg.PLN_CQ_STATUS q) :
    (s.haltQ q c).reg k = s.reg k := by
  unfold State.haltQ
  split
  · rfl
  · rw [State.fset_reg_ne _ _ _ _ h, State.setFlag, State.fset_reg_ne _ _ _ _ h]

theorem State.takeCmd_reg (s : State) (q : Nat) (w : BitVec 64) (p : Payload) {k : Nat} (h : k ≠ Reg.PLN_CQ_STATUS q) :
    (s.takeCmd q w p).reg k = s.reg k := by
  unfold State.takeCmd
  dsimp only
  split
  all_goals
    split
    · exact s.haltQ_reg _ _ h
    · exact State.fset_reg_ne _ _ _ _ h

/-- Reading a ring writes the queue's status and what a read of memory records. -/
theorem State.readSlots_reg (s : State) (q n : Nat) {k : Nat} (hk : recordReg k = false) (h : k ≠ Reg.PLN_CQ_STATUS q) :
    (s.readSlots q n).reg k = s.reg k := by
  delta State.readSlots
  refine State.natRec_keep (P := fun t => t.reg k) (fun n f s ih => ?_) n s
  revert f
  delta State.readSlots._f
  split
  · exact fun _ _ => rfl
  intro f ih
  change ∀ s : State, (f.1 s).reg k = s.reg k at ih
  extract_lets +onlyGivenNames head
  split
  · rfl
  extract_lets +onlyGivenNames a
  split
  · rfl
  split
  next ws t hread =>
    have hr : t.reg k = s.reg k := by
      have hc := s.readN_calmRegs .cmd s.pkgId a 16
      rw [hread] at hc
      exact State.reg_of_calmRegs hc hk
    split
    · rw [State.haltQ_reg _ _ _ h, hr]
    · rw [ih, State.takeCmd_reg _ _ _ _ h, hr]

theorem CQ_TAIL_kept : ∀ q : Fin 16, recordReg (Reg.PLN_CQ_TAIL q) = false ∧ Reg.PLN_CQ_TAIL q ≠ Reg.PLN_CQ_STATUS q
  := by
  decide

theorem execCqDoorbell_eq (s : State) (q : Fin 16) (v : BitVec 32) : exec (.cqDoorbell .armature q v) s =
    .next ((s.setReg (Reg.PLN_CQ_TAIL q) (s.written (BitVec.allOnes 32) (Reg.PLN_CQ_TAIL q) v)).fetchCmds q) := by
  have hw : s.whole .armature (Reg.PLN_CQ_TAIL q) = true := rfl
  show Host.Outcome.next (s.writeTail .armature q v) = _
  rw [State.writeTail, if_pos hw, State.plainWrite_armature]

theorem cqDoorbell_completes (s : State) (q : Fin 16) (v : BitVec 32) : Completes (.cqDoorbell .armature q v) s fun t =>
    t.fget (F.PLN_CQ_TAIL_TAIL q) = v.toNat % 2 ^ 20 ∧ ∀ a, t.byte a = s.byte a := by
  obtain ⟨hr, hs⟩ := CQ_TAIL_kept q
  refine ⟨_, execCqDoorbell_eq s q v, ?_, State.byte_of_memKey (by simp)⟩
  rw [State.fetchCmds, State.fget_of_reg (f := F.PLN_CQ_TAIL_TAIL q) (State.readSlots_reg _ _ _ hr hs)]
  refine (s.written_fget (g := F.PLN_CQ_TAIL_TAIL q) (row_PLN_CQ_TAIL q) (by simp [fieldsApart]) (acc := .rw) (r := 0)
    (by simp [F.PLN_CQ_TAIL_TAIL]) v).trans ?_
  simp [Acc.after, F.PLN_CQ_TAIL_TAIL, Fld.width]

/-- A queue enabled: its halt and cause cleared. -/
def State.cqRestarted (s : State) (q : Nat) (v : BitVec 32) : State :=
  ((s.setReg (Reg.PLN_CQ_CFG q) (s.written (BitVec.allOnes 32) (Reg.PLN_CQ_CFG q) v)).setFlag
    (F.PLN_CQ_STATUS_HALT q) false).fset (F.PLN_CQ_STATUS_HCAUSE q) 0

theorem State.fetchCmds_empty {s : State} {q : Nat} (h : s.fget (F.PLN_CQ_TAIL_TAIL q) = s.fget (F.PLN_CQ_STATUS_HEAD
  q)) :
    s.fetchCmds q = s := by
  rw [State.fetchCmds, h, Nat.add_sub_cancel_left]
  rfl

theorem State.cqEnabled (s : State) (q : Fin 16) {v : BitVec 32} (hv : v.getLsbD 31 = true) :
    (s.setReg (Reg.PLN_CQ_CFG q) (s.written (BitVec.allOnes 32) (Reg.PLN_CQ_CFG q) v)).flag (F.PLN_CQ_CFG_EN q) =
      true :=
  (s.written_flag (g := F.PLN_CQ_CFG_EN q) (row_PLN_CQ_CFG q) (by simp [fieldsApart]) (acc := .rw) (r := 0)
    (by simp [F.PLN_CQ_CFG_EN]) rfl v).trans hv

theorem CQ_CFG_ne : ∀ q : Fin 16, Reg.PLN_CQ_CFG q ≠ Reg.PLN_CQ_STATUS q ∧ Reg.PLN_CQ_TAIL q ≠ Reg.PLN_CQ_CFG q ∧
    Reg.PLN_CQ_TAIL q ≠ Reg.PLN_CQ_STATUS q := by
  decide

theorem State.cqRestarted_empty {s : State} {q : Fin 16} (v : BitVec 32)
    (he : s.fget (F.PLN_CQ_TAIL_TAIL q) = s.fget (F.PLN_CQ_STATUS_HEAD q)) :
    (s.cqRestarted q v).fget (F.PLN_CQ_TAIL_TAIL q) = (s.cqRestarted q v).fget (F.PLN_CQ_STATUS_HEAD q) := by
  obtain ⟨h1, h2, h3⟩ := CQ_CFG_ne q
  rw [State.cqRestarted, State.fset_fget_apart _ _ _ _ (Fld.apart_of_key h3.symm), State.setFlag_fget_apart _ _ _ _
    (Fld.apart_of_key h3.symm), State.setReg_fget_ne _ _ _ _ h2, State.fset_fget_apart _ _ _ _ (by simp [Fld.apart,
    F.PLN_CQ_STATUS_HCAUSE, F.PLN_CQ_STATUS_HEAD]), State.setFlag_fget_apart _ _ _ _ (by simp [Fld.apart,
    F.PLN_CQ_STATUS_HALT, F.PLN_CQ_STATUS_HEAD]), State.setReg_fget_ne _ _ _ _ h1.symm, he]

theorem execCqEnable_of {s : State} {q : Fin 16} {v : BitVec 32} (hen : s.flag (F.PLN_CQ_CFG_EN q) = false)
    (hv : v.getLsbD 31 = true) (hlog : v.toNat / 2 ^ 20 % 16 ≤ 13)
    (he : s.fget (F.PLN_CQ_TAIL_TAIL q) = s.fget (F.PLN_CQ_STATUS_HEAD q)) :
    exec (.cqEnable .armature q v) s = .next (s.cqRestarted q v) := by
  have hold : (s.reg (Reg.PLN_CQ_CFG q)).getLsbD 31 = false :=
    (State.flag_eq_getLsbD s (f := F.PLN_CQ_CFG_EN q) rfl).symm.trans hen
  have hk : keepBits (decide (13 < v.toNat / 2 ^ 20 % 16)) 0x80000000 (s.reg (Reg.PLN_CQ_CFG q)) v = v :=
    if_neg (by simpa using hlog)
  show Host.Outcome.next (s.writeCqCfg .armature q v) = _
  refine congrArg Host.Outcome.next ?_
  unfold State.writeCqCfg
  dsimp only
  rw [show keepBits (Req.armature == .host) 0x40000000 (s.reg (Reg.PLN_CQ_CFG q)) v = v from rfl, hk]
  refine (if_pos ⟨hold, s.cqEnabled q hv⟩).trans ?_
  exact State.fetchCmds_empty (State.cqRestarted_empty v he)

theorem cqEnable_completes {s : State} {q : Fin 16} {v : BitVec 32} (hen : s.flag (F.PLN_CQ_CFG_EN q) = false)
    (hv : v.getLsbD 31 = true) (hlog : v.toNat / 2 ^ 20 % 16 ≤ 13)
    (he : s.fget (F.PLN_CQ_TAIL_TAIL q) = s.fget (F.PLN_CQ_STATUS_HEAD q)) : Completes (.cqEnable .armature q v) s
      fun t =>
      t.flag (F.PLN_CQ_CFG_EN q) = true ∧ t.flag (F.PLN_CQ_STATUS_HALT q) = false ∧
      t.fget (F.PLN_CQ_STATUS_HCAUSE q) = 0 ∧ ∀ a, t.byte a = s.byte a := by
  obtain ⟨h1, -, -⟩ := CQ_CFG_ne q
  refine ⟨_, execCqEnable_of hen hv hlog he, ?_, ?_, State.fset_fget _ _ _ rfl,
    State.byte_of_memKey (by simp [State.cqRestarted])⟩
  · rw [State.cqRestarted, State.fset_flag_apart _ _ _ _ (Fld.apart_of_key h1.symm),
      State.setFlag_flag_apart _ _ _ _ (Fld.apart_of_key h1.symm), State.cqEnabled s q hv]
  · rw [State.cqRestarted, State.fset_flag_apart _ _ _ _ (by simp [Fld.apart, F.PLN_CQ_STATUS_HCAUSE,
      F.PLN_CQ_STATUS_HALT]), State.setFlag_flag _ _ _ rfl]

/-- Settles O37: a semaphore's value, SCT_STEP, a doorbell and the enable of a queue act at once. -/
theorem actingRegisterWrites : Obligations.ActingRegisterWrites := by
  unfold Obligations.ActingRegisterWrites
  intro s v
  exact ⟨fun u k h => semValueWrite_completes v h, fun hb hu hr => sctStepWrite_completes v hb hu hr,
    fun h => sctStepWrite_refused v h, fun q => ⟨cqDoorbell_completes s q v,
      fun hen hv hlog he => cqEnable_completes hen hv hlog he⟩⟩

end Sys2Proof.Machine
end

section
/-! SUPPORT. Objects read from memory, capsules, crash dumps, the margin plan and the repartition of stacked SRAM (R175,
R337, R338, R347 to R350). -/
namespace Sys2Proof.Machine

/-! ## Objects read from memory -/

theorem State.readBytes_butRecords (s : State) (g : BitVec 64) (n : Nat) : (s.readBytes g n).2.butRecords =
  s.butRecords := by
  unfold State.readBytes
  dsimp only
  split
  · exact State.addrErr_butRecords _ _ _ _ _
  · split
    · rfl
    · split <;> exact State.readN_butRecords _ _ _ _ _

theorem State.sec_of_butRecords {s t : State} (h : t.butRecords = s.butRecords) : t.sec = s.sec := (congrArg
  State.sec h :)

theorem State.capsules_of_butRecords {s t : State} (h : t.butRecords = s.butRecords) : t.capsules = s.capsules :=
  (congrArg State.capsules h :)

theorem State.keyHash_of_sec {s t : State} (h : t.sec = s.sec) (k : Nat) : t.keyHash k = s.keyHash k := by
  simp only [State.keyHash, h]

theorem State.maySign_of_sec {s t : State} (h : t.sec = s.sec) (typ k : Nat) : t.maySign typ k = s.maySign typ k := by
  simp only [State.maySign, h]

/-- Judging an object reads Burin's state and the nonce in force. -/
theorem State.checkObj_of {s t : State} (h : t.sec = s.sec) (hn : t.nonce = s.nonce) (typ : Nat) (o : List (BitVec 8))
    (floor : Nat) : t.checkObj typ o floor = s.checkObj typ o floor := by
  simp only [State.checkObj, State.maySign_of_sec h, State.keyHash_of_sec h, h, hn]

theorem State.nonce_of_calmRegs {s t : State} (h : t.calmRegs = s.calmRegs) : t.nonce = s.nonce := by
  have hr : ∀ k ∈ [0, 1, 2, 3], t.reg (Reg.SEC_NONCE k) = s.reg (Reg.SEC_NONCE k) := fun k hk =>
    State.reg_of_calmRegs h ((show ∀ k ∈ [0, 1, 2, 3], recordReg (Reg.SEC_NONCE k) = false by decide) k hk)
  simp only [State.nonce, List.flatMap_cons, List.flatMap_nil, hr 0 (by decide), hr 1 (by decide), hr 2 (by decide),
    hr 3 (by decide)]

theorem State.measure_butRegs_regs (s : State) (k : Nat) (d : BitVec 384) : (s.measure k d).regs = s.regs := rfl

/-! ## The capsule library (R337, R338, R350) -/

theorem without_cons {α β : Type} [DecidableEq α] (j : α) (v : β) (l : List (α × β)) (k : α) :
    without ((j, v) :: l) k = if j = k then without l k else (j, v) :: without l k := by
  by_cases h : j = k <;> simp [without, h]

theorem lookup_without {α β : Type} [DecidableEq α] (l : List (α × β)) (k i : α) :
    lookup (without l k) i = if i = k then none else lookup l i := by
  induction l with
  | nil => simp [without, lookup]
  | cons p l ih =>
    rw [without_cons, apply_ite (lookup · i), lookup, lookup, ih]
    by_cases hj : p.1 = k <;> by_cases hi : i = k
    · rw [if_pos hj, if_pos hi, if_pos hi]
    · rw [if_pos hj, if_neg hi, if_neg (show ¬p.1 = i from fun h => hi (h.symm.trans hj)), if_neg hi]
    · rw [if_neg hj, if_neg (show ¬p.1 = i from fun h => hj (h.trans hi)), if_pos hi, if_pos hi]
    · rw [if_neg hj, if_neg hi, if_neg hi]

/-- The word of a capsule command names its operation, its capsule and ENABLE, and no other bit. -/
theorem capWord_fin : ∀ (op : Fin 4) (en : Bool) (i : Fin 256),
    let v := capWord op en (BitVec.ofFin i)
    v.toNat / 2 ^ 30 = op ∧ v.toNat % 256 = i ∧ v.getLsbD 29 = en ∧ v &&& 0xE00000FF = v := by
  decide +kernel

theorem capWord_spec {op : Nat} (ho : op < 4) (en : Bool) (i : BitVec 8) :
    (capWord op en i).toNat / 2 ^ 30 = op ∧ (capWord op en i).toNat % 256 = i.toNat ∧
      (capWord op en i).getLsbD 29 = en ∧ capWord op en i &&& 0xE00000FF = capWord op en i :=
  capWord_fin ⟨op, ho⟩ en i.toFin

/-- What a capsule command does to the library, and its RESULT. -/
def State.capOp (s : State) (op i : Nat) (en : Bool) : Nat × State :=
  if s.capLife = false then (4, s)
  else if op = 1 then s.capLoad i
  else if op = 2 then (0, { s with capsules := without s.capsules i })
  else (0, s.capEnable i en)

/-- TST_CAP_STATUS after a command. -/
def State.capShown (p : Nat × State) : State := (p.2.fset F.TST_CAP_STATUS_RESULT p.1).showLib

/-- A capsule command, its word taken by TST_CAP_CMD. -/
def State.capNamed (s : State) (op : Nat) (en : Bool) (i : BitVec 8) : State :=
  s.setReg Reg.TST_CAP_CMD (capWord op en i)

theorem State.capCmd_eq (s : State) {op : Nat} (h0 : op ≠ 0) (ho : op < 4) (en : Bool) (i : BitVec 8) :
    s.writeCapCmd .armature (capWord op en i) = State.capShown ((s.capNamed op en i).capOp op i.toNat en) := by
  obtain ⟨h1, h2, h3, h4⟩ := capWord_spec ho en i
  rw [State.writeCapCmd, State.acting_armature, State.capCmd]
  dsimp only
  rw [h1, h2, h3, h4, if_neg h0]
  rfl

theorem State.capShown_result (p : Nat × State) (h : p.1 < 8) : (State.capShown p).fget F.TST_CAP_STATUS_RESULT = p.1
  := by
  rw [State.capShown, State.showLib, State.fset_fget_apart _ _ _ _ rfl, State.fset_fget_apart _ _ _ _ rfl,
    State.fset_fget _ _ _ rfl]
  exact Nat.mod_eq_of_lt h

theorem State.capShown_pool (p : Nat × State) (h : poolKib p.2.capsules ≤ 24576) :
    (State.capShown p).fget F.TST_CAP_STATUS_POOL = poolKib p.2.capsules := by
  refine (State.fset_fget _ _ _ rfl).trans ?_
  exact Nat.mod_eq_of_lt (lt_of_le_of_lt h (by decide))

theorem State.capShown_butRegs (p : Nat × State) : (State.capShown p).butRegs = p.2.butRegs := rfl

theorem State.capsules_of_butRegs {s t : State} (h : t.butRegs = s.butRegs) : t.capsules = s.capsules :=
  (congrArg State.capsules h :)

theorem State.capNamed_butRegs (s : State) (op : Nat) (en : Bool) (i : BitVec 8) :
    (s.capNamed op en i).butRegs = s.butRegs := State.setReg_butRegs _ _ _

theorem execCapsuleLoad_eq (s : State) (i : BitVec 8) : exec (.capsuleLoad .armature i) s =
    .next (State.capShown ((s.capNamed 1 false i).capOp 1 i.toNat false)) :=
  congrArg Host.Outcome.next (s.capCmd_eq (by decide) (by decide) false i)

theorem execCapsuleErase_eq (s : State) (i : BitVec 8) : exec (.capsuleErase .armature i) s =
    .next (State.capShown ((s.capNamed 2 false i).capOp 2 i.toNat false)) :=
  congrArg Host.Outcome.next (s.capCmd_eq (by decide) (by decide) false i)

theorem execCapsuleEnable_eq (s : State) (i : BitVec 8) (en : Bool) : exec (.capsuleEnable .armature i en) s =
    .next (State.capShown ((s.capNamed 3 en i).capOp 3 i.toNat en)) :=
  congrArg Host.Outcome.next (s.capCmd_eq (by decide) (by decide) en i)

theorem execCapsule_memKey (s : State) (v : BitVec 32) : (s.writeCapCmd .armature v).memKey = s.memKey := by simp

/-- The library after a load that stores capsule `c`. -/
def State.capStored (s : State) (i : Nat) (c : Capsule) : State :=
  ({ s with capsules := upsert s.capsules i c } : State).measure 5 (Config.sha384 c.bytes)

/-- A load stores an enabled capsule that fits, or nothing. -/
theorem State.capLoad_cases (s : State) (i : Nat) :
    ((s.capLoad i).1 ≠ 0 ∧ (s.capLoad i).1 < 8 ∧ (s.capLoad i).2.capsules = s.capsules) ∨
    ((s.capLoad i).1 = 0 ∧ ∃ c : Capsule, c.enabled = true ∧ (s.capLoad i).2.capsules = upsert s.capsules i c ∧
      poolKib (upsert s.capsules i c) ≤ 24576) := by
  unfold State.capLoad
  have h1 := State.capsules_of_butRecords (s.readBytes_butRecords s.capAddr 64)
  split
  next u hu =>
    rw [hu] at h1
    exact Or.inl ⟨by simp, by simp, h1⟩
  next h u hu =>
    rw [hu] at h1
    split
    · exact Or.inl ⟨by simp, by simp, h1⟩
    · have h2 := State.capsules_of_butRecords (u.readBytes_butRecords u.capAddr (fieldOf h 4 8))
      split
      next w hw =>
        rw [hw] at h2
        exact Or.inl ⟨by simp, by simp, h2.trans h1⟩
      next o w hw =>
        rw [hw] at h2
        have hc : w.capsules = s.capsules := h2.trans h1
        split
        · exact Or.inl ⟨by simp, by simp, hc⟩
        · dsimp only
          rw [hc]
          split
          · exact Or.inl ⟨by simp, by simp, hc⟩
          next hp => exact Or.inr ⟨rfl, _, rfl, rfl, Nat.le_of_not_lt hp⟩

theorem State.capOp_load {s : State} (h : s.capLife = true) (i : Nat) : s.capOp 1 i false = s.capLoad i :=
  (if_neg (by rw [h]; decide)).trans (if_pos rfl)

theorem capsuleLoad_any {s : State} {i : BitVec 8} (h : s.capLife = true) : Completes (.capsuleLoad .armature i) s
  fun t =>
    (t.fget F.TST_CAP_STATUS_RESULT ≠ 0 → t.capsules = s.capsules) ∧
    (t.fget F.TST_CAP_STATUS_RESULT = 0 → ∃ c, lookup t.capsules i.toNat = some c ∧ c.enabled = true ∧
      poolKib t.capsules ≤ 24576) ∧ ∀ a, t.byte a = s.byte a := by
  have hx := execCapsuleLoad_eq s i
  have hm := execCapsule_memKey s (capWord 1 false i)
  rw [s.capCmd_eq (by decide) (by decide)] at hm
  rw [State.capOp_load (s := s.capNamed 1 false i) h] at hx hm
  have hr := State.capShown_result ((s.capNamed 1 false i).capLoad i.toNat)
  have hb := State.capsules_of_butRegs (State.capShown_butRegs ((s.capNamed 1 false i).capLoad i.toNat))
  refine ⟨_, hx, ?_, ?_, State.byte_of_memKey hm⟩
  all_goals rw [hb]
  all_goals rcases (s.capNamed 1 false i).capLoad_cases i.toNat with ⟨h0, h8, hc⟩ | ⟨h0, c, hen, hc, hp⟩
  · exact fun _ => hc
  · exact fun hn => absurd ((hr (by rw [h0]; decide)).trans h0) hn
  · exact fun hz => absurd ((hr h8).symm.trans hz) h0
  · rw [hc]
    exact fun _ => ⟨c, lookup_upsert_self _ _ _, hen, hp⟩

theorem State.readBytes_checkObj (s : State) (g : BitVec 64) (n typ : Nat) (o : List (BitVec 8)) (floor : Nat) :
    (s.readBytes g n).2.checkObj typ o floor = s.checkObj typ o floor :=
  State.checkObj_of (State.sec_of_butRecords (s.readBytes_butRecords g n))
    (State.nonce_of_calmRegs (s.readBytes_calmRegs g n)) typ o floor

theorem State.readBytes_of_some {s : State} {g : BitVec 64} {n : Nat} {o : List (BitVec 8)}
    (h : (s.readBytes g n).1 = some o) : s.readBytes g n = (some o, (s.readBytes g n).2) := by
  rw [← h]

/-- A load of a signed object of the right form that fits (R337, R338). -/
theorem State.capLoad_of {s : State} {i : Nat} {h o : List (BitVec 8)} (hh : (s.readBytes s.capAddr 64).1 = some h)
    (hok : capHeadOk h = true)
    (ho : ((s.readBytes s.capAddr 64).2.readBytes (s.readBytes s.capAddr 64).2.capAddr (fieldOf h 4 8)).1 = some o)
    (hc : s.checkObj 3 o s.sec.svnCap = 0)
    (hp : poolKib (upsert s.capsules i { size := o.length, enabled := true, bytes := o }) ≤ 24576) :
    (s.capLoad i).1 = 0 ∧
      (s.capLoad i).2.capsules = upsert s.capsules i { size := o.length, enabled := true, bytes := o } := by
  have b1 := s.readBytes_butRecords s.capAddr 64
  have c1 := s.readBytes_checkObj s.capAddr 64 3 o s.sec.svnCap
  have e1 := State.readBytes_of_some hh
  generalize (s.readBytes s.capAddr 64).2 = u at *
  have b2 := u.readBytes_butRecords u.capAddr (fieldOf h 4 8)
  have c2 := u.readBytes_checkObj u.capAddr (fieldOf h 4 8) 3 o s.sec.svnCap
  have e2 := State.readBytes_of_some ho
  generalize (u.readBytes u.capAddr (fieldOf h 4 8)).2 = w at *
  have hcaps : w.capsules = s.capsules := (State.capsules_of_butRecords b2).trans (State.capsules_of_butRecords b1)
  have hsec : w.sec = s.sec := (State.sec_of_butRecords b2).trans (State.sec_of_butRecords b1)
  have hchk : w.checkObj 3 o w.sec.svnCap = 0 := by rw [hsec, c2, c1, hc]
  unfold State.capLoad
  rw [e1]
  dsimp only
  rw [hok, if_neg (by decide), e2]
  dsimp only
  rw [hchk, hcaps, if_neg (by decide), if_neg (by omega)]
  exact ⟨rfl, rfl⟩

theorem State.sec_of_butRegs {s t : State} (h : t.butRegs = s.butRegs) : t.sec = s.sec := (congrArg State.sec h :)

theorem State.capNamed_checkObj (s : State) (op : Nat) (en : Bool) (i : BitVec 8) (typ : Nat) (o : List (BitVec 8))
    (floor : Nat) : (s.capNamed op en i).checkObj typ o floor = s.checkObj typ o floor := by
  refine State.checkObj_of (State.sec_of_butRegs (s.capNamed_butRegs op en i)) ?_ typ o floor
  have hr : ∀ k ∈ [0, 1, 2, 3], (s.capNamed op en i).reg (Reg.SEC_NONCE k) = s.reg (Reg.SEC_NONCE k) := fun k hk =>
    (State.setReg_reg _ _ _ _).trans
      (if_neg ((show ∀ k ∈ [0, 1, 2, 3], Reg.SEC_NONCE k ≠ Reg.TST_CAP_CMD by decide) k hk))
  simp only [State.nonce, List.flatMap_cons, List.flatMap_nil, hr 0 (by decide), hr 1 (by decide), hr 2 (by decide),
    hr 3 (by decide)]

theorem capsuleLoad_completes {s : State} {i : BitVec 8} (hlife : s.capLife = true) {h o : List (BitVec 8)}
    (hh : ((s.capNamed 1 false i).readBytes (s.capNamed 1 false i).capAddr 64).1 = some h) (hok : capHeadOk h = true)
    (ho : (((s.capNamed 1 false i).readBytes (s.capNamed 1 false i).capAddr 64).2.readBytes
      ((s.capNamed 1 false i).readBytes (s.capNamed 1 false i).capAddr 64).2.capAddr (fieldOf h 4 8)).1 = some o)
    (hc : s.checkObj 3 o s.sec.svnCap = 0)
    (hp : poolKib (upsert s.capsules i.toNat { size := o.length, enabled := true, bytes := o }) ≤ 24576) :
    Completes (.capsuleLoad .armature i) s fun t =>
      t.fget F.TST_CAP_STATUS_RESULT = 0 ∧
      lookup t.capsules i.toNat = some { size := o.length, enabled := true, bytes := o } ∧
      (∀ j, j ≠ i.toNat → lookup t.capsules j = lookup s.capsules j) ∧
      t.fget F.TST_CAP_STATUS_POOL = poolKib t.capsules ∧ ∀ a, t.byte a = s.byte a := by
  have hx := execCapsuleLoad_eq s i
  have hm := execCapsule_memKey s (capWord 1 false i)
  rw [s.capCmd_eq (by decide) (by decide)] at hm
  rw [State.capOp_load (s := s.capNamed 1 false i) hlife] at hx hm
  obtain ⟨h0, hcaps⟩ := State.capLoad_of (s := s.capNamed 1 false i) (i := i.toNat) hh hok ho
    ((s.capNamed_checkObj 1 false i 3 o _).trans hc) hp
  have hb := State.capsules_of_butRegs (State.capShown_butRegs ((s.capNamed 1 false i).capLoad i.toNat))
  refine ⟨_, hx, ?_, ?_, fun j hj => ?_, ?_, State.byte_of_memKey hm⟩
  · rw [State.capShown_result _ (by rw [h0]; decide), h0]
  · rw [hb, hcaps, lookup_upsert_self]
  · rw [hb, hcaps, lookup_upsert, if_neg hj]
    rfl
  · rw [hb, State.capShown_pool _ (by rw [hcaps]; exact hp)]

/-- Everything but the registers and the capsule library. -/
def State.butCaps (s : State) : State := { s with regs := [], capsules := [] }

theorem State.frame_of_butCaps {s t : State} (h : t.butCaps = s.butCaps) :
    { t with regs := s.regs, capsules := s.capsules } = s :=
  (congrArg (fun u : State => { u with regs := s.regs, capsules := s.capsules }) h :)

theorem State.butCaps_of_butRegs {s t : State} (h : t.butRegs = s.butRegs) : t.butCaps = s.butCaps :=
  (congrArg State.butCaps h :)

theorem capsuleErase_completes {s : State} {i : BitVec 8} (h : s.capLife = true) :
    Completes (.capsuleErase .armature i) s fun t =>
      lookup t.capsules i.toNat = none ∧ (∀ j, j ≠ i.toNat → lookup t.capsules j = lookup s.capsules j) ∧
      t.fget F.TST_CAP_STATUS_RESULT = 0 ∧ { t with regs := s.regs, capsules := s.capsules } = s := by
  have hop (u : State) (hu : u.capLife = true) :
      u.capOp 2 i.toNat false = (0, { u with capsules := without u.capsules i.toNat }) :=
    (if_neg (by rw [hu]; decide)).trans ((if_neg (by decide)).trans (if_pos rfl))
  have hx := execCapsuleErase_eq s i
  rw [hop _ (show (s.capNamed 2 false i).capLife = true from h)] at hx
  have hb := s.capNamed_butRegs 2 false i
  generalize s.capNamed 2 false i = u at *
  have hc := State.capsules_of_butRegs hb
  refine ⟨_, hx, ?_, fun j hj => ?_, State.capShown_result _ (by simp), State.frame_of_butCaps ?_⟩
  · show lookup (without u.capsules i.toNat) i.toNat = none
    rw [lookup_without, if_pos rfl]
  · show lookup (without u.capsules i.toNat) j = _
    rw [lookup_without, if_neg hj, hc]
  · exact (State.butCaps_of_butRegs hb).symm ▸ rfl

theorem capsuleErase_refused {s : State} {i : BitVec 8} (h : s.capLife = false) :
    Completes (.capsuleErase .armature i) s fun t =>
      t.capsules = s.capsules ∧ t.fget F.TST_CAP_STATUS_RESULT = 4 := by
  have hop (u : State) (hu : u.capLife = false) : u.capOp 2 i.toNat false = (4, u) := if_pos hu
  have hx := execCapsuleErase_eq s i
  rw [hop _ (show (s.capNamed 2 false i).capLife = false from h)] at hx
  have hb := s.capNamed_butRegs 2 false i
  generalize s.capNamed 2 false i = u at *
  exact ⟨_, hx, State.capsules_of_butRegs hb, State.capShown_result _ (by simp)⟩

theorem lookup_map_enabled (l : List (Nat × Capsule)) (i : Nat) (en : Bool) (j : Nat) :
    lookup (l.map fun (c : Nat × Capsule) => if c.1 = i then (i, { c.2 with enabled := en }) else c) j =
      if j = i then (lookup l i).map (fun c => { c with enabled := en }) else lookup l j := by
  induction l with
  | nil => simp [lookup]
  | cons p l ih =>
    obtain ⟨k, c⟩ := p
    rw [List.map_cons]
    dsimp only
    by_cases hk : k = i
    · subst hk
      by_cases hj : j = k
      · subst hj
        simp [lookup]
      · simp only [if_true, lookup, if_neg (Ne.symm hj), if_neg hj] at ih ⊢
        exact ih
    · by_cases hj : j = i
      · subst hj
        simp only [if_neg hk, lookup, if_true] at ih ⊢
        exact ih
      · simp only [if_neg hk, lookup, if_neg hj] at ih ⊢
        rw [ih]

theorem capsuleEnable_completes {s : State} {i : BitVec 8} (h : s.capLife = true) (en : Bool) :
    Completes (.capsuleEnable .armature i en) s fun t =>
      lookup t.capsules i.toNat = (lookup s.capsules i.toNat).map (fun c => { c with enabled := en }) ∧
      (∀ j, j ≠ i.toNat → lookup t.capsules j = lookup s.capsules j) ∧
      { t with regs := s.regs, capsules := s.capsules } = s := by
  have hop (u : State) (hu : u.capLife = true) : u.capOp 3 i.toNat en = (0, u.capEnable i.toNat en) :=
    (if_neg (by rw [hu]; decide)).trans ((if_neg (by decide)).trans (if_neg (by decide)))
  have hx := execCapsuleEnable_eq s i en
  rw [hop _ (show (s.capNamed 3 en i).capLife = true from h)] at hx
  have hb := s.capNamed_butRegs 3 en i
  generalize s.capNamed 3 en i = u at *
  have hc := State.capsules_of_butRegs hb
  refine ⟨_, hx, ?_, fun j hj => ?_, State.frame_of_butCaps ?_⟩
  · refine (lookup_map_enabled u.capsules i.toNat en i.toNat).trans ?_
    rw [if_pos rfl, hc]
  · refine (lookup_map_enabled u.capsules i.toNat en j).trans ?_
    rw [if_neg hj, hc]
  · exact (State.butCaps_of_butRegs hb).symm ▸ rfl

/-! ## A dump taken on command (R347, R350) -/

theorem State.frame_of_butDump {s t : State} (h : t.butDump = s.butDump) :
    { t with regs := s.regs, dumps := s.dumps, msix := s.msix } = s :=
  (congrArg (fun u : State => { u with regs := s.regs, dumps := s.dumps, msix := s.msix }) h :)

theorem takeDump_completes (s : State) : Completes (.takeDump .armature) s fun t =>
    t.fget F.TST_DUMP_CAUSE = 7 ∧ t.fget F.TST_DUMP_DUMPS = min 0xFFFF (s.fget F.TST_DUMP_DUMPS + 1) ∧
    t.msix.getLsbD 18 = true ∧
    ((lookup t.dumps s.dumpSlot).map fun x => (x.time, x.regs, x.caps)) = some (s.now, s.regs, s.caps) ∧
    { t with regs := s.regs, dumps := s.dumps, msix := s.msix } = s := by
  have hx : exec (.takeDump .armature) s = .next (s.dump 7 []) := congrArg Host.Outcome.next (s.acting_armature _ _ _)
  obtain ⟨hb, hc, hn, hi, hd, -⟩ := s.dump_spec 7 [] (by decide)
  exact ⟨_, hx, hc, hn, hi, hd, State.frame_of_butDump hb⟩

/-! ## The margin plan (R348, R349) -/

/-- The day's step of one entry of a die's voltage table. -/
def State.ageOne (d : Nat) (drift : List Int) (s : State) (k : Nat) : State := s.ageStep d k (drift.getD k 0)

/-- The offset an entry takes. -/
def ageNext (a drift : Int) : Int := clampInt (-128) 127 (a + clampInt (-2) 4 drift)

theorem signed_unsigned {v : Int} (h1 : -128 ≤ v) (h2 : v ≤ 127) : signed 8 (unsigned 8 v) = v := by
  have h := unsigned_cast 8 v
  unfold signed
  split <;> omega

theorem ageNext_bounds (a drift : Int) : -128 ≤ ageNext a drift ∧ ageNext a drift ≤ 127 := by
  unfold ageNext clampInt
  omega

theorem HEL_VT_ne : ∀ (d : Fin 4), ∀ k < 16, recordReg (Reg.HEL_VT d k) = false ∧ Reg.HEL_VT d k ≠ Reg.TST_AGE d ∧
    Reg.HEL_VT d k ≠ Reg.HEL_STATUS d ∧ Reg.HEL_VT d k ≠ Reg.DIA_PACE ∧ Reg.HEL_VT d k ≠ Reg.DIA_STATUS := by
  decide

theorem HEL_VT_inj (d i j : Nat) (h : Reg.HEL_VT d i = Reg.HEL_VT d j) : i = j := by
  simp only [Reg.HEL_VT] at h
  omega

theorem State.ageOne_reg (s : State) (d : Nat) (drift : List Int) (k : Nat) {i : Nat} (h1 : i ≠ Reg.HEL_VT d k)
    (h2 : i ≠ Reg.TST_AGE d) (h3 : recordReg i = false) : (State.ageOne d drift s k).reg i = s.reg i := by
  unfold State.ageOne State.ageStep
  dsimp only
  split
  · rw [State.reg_of_calmRegs (State.event_calmRegs _ _ _ _ _ _) h3, State.setFlag, State.fset_reg_ne _ _ _ _ h2,
      State.fset_reg_ne _ _ _ _ h1]
  · exact State.fset_reg_ne _ _ _ _ h1

theorem State.ageOne_age (s : State) (d : Fin 4) (drift : List Int) {k : Nat} (hk : k < 16) :
    signed 8 ((State.ageOne d drift s k).fget (F.HEL_VT_AGE d k)) =
      ageNext (signed 8 (s.fget (F.HEL_VT_AGE d k))) (drift.getD k 0) := by
  obtain ⟨h1, h2, -⟩ := HEL_VT_ne d k hk
  obtain ⟨b1, b2⟩ := ageNext_bounds (signed 8 (s.fget (F.HEL_VT_AGE d k))) (drift.getD k 0)
  have hlt : unsigned 8 (ageNext (signed 8 (s.fget (F.HEL_VT_AGE d k))) (drift.getD k 0)) < 2 ^ 8 := by
    have := unsigned_cast 8 (ageNext (signed 8 (s.fget (F.HEL_VT_AGE d k))) (drift.getD k 0))
    omega
  have hset : (s.fset (F.HEL_VT_AGE d k) (unsigned 8 (ageNext (signed 8 (s.fget (F.HEL_VT_AGE d k)))
      (drift.getD k 0)))).fget (F.HEL_VT_AGE d k) = unsigned 8 (ageNext (signed 8 (s.fget (F.HEL_VT_AGE d k)))
      (drift.getD k 0)) := (State.fset_fget _ _ _ rfl).trans (Nat.mod_eq_of_lt hlt)
  have hkeep : (State.ageOne d drift s k).fget (F.HEL_VT_AGE d k) = (s.fset (F.HEL_VT_AGE d k)
      (unsigned 8 (ageNext (signed 8 (s.fget (F.HEL_VT_AGE d k))) (drift.getD k 0)))).fget (F.HEL_VT_AGE d k) := by
    refine State.fget_of_reg (f := F.HEL_VT_AGE d k) ?_
    unfold State.ageOne State.ageStep
    dsimp only
    split
    · refine (State.reg_of_calmRegs (State.event_calmRegs _ _ _ _ _ _) h1).trans ?_
      exact State.fset_reg_ne _ _ _ _ h2
    · rfl
  rw [hkeep, hset, signed_unsigned b1 b2]

theorem State.foldl_ageOne (s : State) (d : Fin 4) (drift : List Int) {n : Nat} (hn : n ≤ 16) {k : Nat} (hk : k < 16) :
    signed 8 (((List.range n).foldl (State.ageOne d drift) s).fget (F.HEL_VT_AGE d k)) =
      if k < n then ageNext (signed 8 (s.fget (F.HEL_VT_AGE d k))) (drift.getD k 0)
      else signed 8 (s.fget (F.HEL_VT_AGE d k)) := by
  induction n with
  | zero => rfl
  | succ n ih =>
    rw [List.range_succ, List.foldl_append, List.foldl_cons, List.foldl_nil]
    specialize ih (by omega)
    generalize (List.range n).foldl (State.ageOne d drift) s = u at *
    by_cases h : k = n
    · subst h
      rw [State.ageOne_age _ _ _ hk, ih, if_neg (lt_irrefl _), if_pos (Nat.lt_succ_self _)]
    · obtain ⟨h1, h2, -⟩ := HEL_VT_ne d k hk
      rw [State.fget_of_reg (f := F.HEL_VT_AGE d k) (State.ageOne_reg u d drift n (fun he => h (HEL_VT_inj _ _ _ he)) h2
        h1), ih]
      exact ite_congr (propext (by omega)) (fun _ => rfl) fun _ => rfl

theorem State.rePace_reg (s : State) {k : Nat} (h1 : k ≠ Reg.DIA_PACE) (h2 : k ≠ Reg.DIA_STATUS) :
    s.rePace.reg k = s.reg k := by
  unfold State.rePace
  dsimp only
  rw [State.fset_reg_ne _ _ _ _ h2, State.fset_reg_ne _ _ _ _ h1, State.fset_reg_ne _ _ _ _ h1,
    State.fset_reg_ne _ _ _ _ h1]

theorem State.marginCeil_reg (s : State) (d : Nat) {k : Nat} (h : k ≠ Reg.HEL_STATUS d) (h1 : k ≠ Reg.DIA_PACE)
    (h2 : k ≠ Reg.DIA_STATUS) : (s.marginCeil d).reg k = s.reg k := by
  unfold State.marginCeil
  split
  · rw [State.rePace_reg _ h1 h2, State.fset_reg_ne _ _ _ _ h]
  · rfl

/-- The day's table of a die, before its value is shown. -/
def State.aged (s : State) (d : Nat) (drift : List Int) : State :=
  ((List.range 16).foldl (State.ageOne d drift) s).marginCeil d

/-- The daily values of a die, latest first. -/
def State.dailyVolts (s : State) (d : Nat) : List Nat := (s.tableVolt d 4 :: (lookup s.vhist d).getD []).take 90

/-- The plan's value and days shown. -/
def State.agedShown (s : State) (d : Nat) : State :=
  (({ s with vhist := upsert s.vhist d (s.dailyVolts d) } : State).fset (F.TST_AGE_VP4 d)
    ((s.dailyVolts d).headD 0)).fset (F.TST_AGE_DAYS d) (daysOf (s.dailyVolts d))

/-- A plan with less than a year left files an event. -/
def State.agedFiled (s : State) (d n : Nat) : State :=
  if n < 365 then s.event 0x0E (BitVec.ofNat 32 (0x20000000 + d)) (BitVec.ofNat 32 d) 0 0 else s

theorem execMarginPlan_eq (s : State) (d : Fin 4) (drift : List Int) : exec (.marginPlan d drift) s =
    .next (((s.aged d drift).agedShown d).agedFiled d (daysOf ((s.aged d drift).dailyVolts d))) := rfl

theorem State.agedFiled_reg (s : State) (d n : Nat) {k : Nat} (h : recordReg k = false) :
    (s.agedFiled d n).reg k = s.reg k := by
  unfold State.agedFiled
  split
  · exact State.reg_of_calmRegs (State.event_calmRegs _ _ _ _ _ _) h
  · rfl

theorem State.agedShown_reg (s : State) (d : Nat) {k : Nat} (h : k ≠ Reg.TST_AGE d) :
    (s.agedShown d).reg k = s.reg k := by
  rw [State.agedShown, State.fset_reg_ne _ _ _ _ h, State.fset_reg_ne _ _ _ _ h]
  rfl

theorem State.agedShown_vp4 (s : State) (d : Nat) : (s.agedShown d).fget (F.TST_AGE_VP4 d) = s.tableVolt d 4 := by
  rw [State.agedShown, State.fset_fget_apart _ _ _ _ rfl, State.fset_fget _ _ _ rfl]
  exact Nat.mod_eq_of_lt (State.tableVolt_lt _ _ _)

theorem State.aged_memKey (s : State) (d : Nat) (drift : List Int) : (s.aged d drift).memKey = s.memKey := by
  simp only [State.aged, State.ageOne, State.marginCeil_memKey, State.foldl_memKey, implies_true, State.ageStep_memKey]

theorem State.agedFiled_memKey (s : State) (d n : Nat) : (s.agedFiled d n).memKey = s.memKey := by
  unfold State.agedFiled
  split
  · exact State.event_memKey _ _ _ _ _ _
  · rfl

theorem State.agedShown_memKey (s : State) (d : Nat) : (s.agedShown d).memKey = s.memKey := by
  rw [State.agedShown, State.fset_memKey', State.fset_memKey']
  rfl

theorem marginPlan_completes (s : State) (d : Fin 4) (drift : List Int) : Completes (.marginPlan d drift) s fun t =>
    (∀ k, k < 16 → signed 8 (t.fget (F.HEL_VT_AGE d k)) =
      clampInt (-128) 127 (signed 8 (s.fget (F.HEL_VT_AGE d k)) + clampInt (-2) 4 (drift.getD k 0))) ∧
    t.fget (F.TST_AGE_VP4 d) = t.tableVolt d 4 ∧ ∀ a, t.byte a = s.byte a := by
  have hx := execMarginPlan_eq s d drift
  have hm := s.aged_memKey d drift
  have hage (k : Nat) (hk : k < 16) := (s.foldl_ageOne d drift le_rfl hk).trans (if_pos hk)
  have hTA : ∀ d : Fin 4, recordReg (Reg.TST_AGE d) = false := by decide
  have hceil (k : Nat) (hk : k < 16) := by
    obtain ⟨-, -, h3, h4, h5⟩ := HEL_VT_ne d k hk
    exact ((List.range 16).foldl (State.ageOne d drift) s).marginCeil_reg d h3 h4 h5
  rw [← State.aged] at hceil
  generalize s.aged d drift = u at *
  have hreg (k : Nat) (hk : k < 16) : ((u.agedShown d).agedFiled d (daysOf (u.dailyVolts d))).reg (Reg.HEL_VT d k) =
      u.reg (Reg.HEL_VT d k) := by
    obtain ⟨h1, h2, -⟩ := HEL_VT_ne d k hk
    rw [State.agedFiled_reg _ _ _ h1, State.agedShown_reg _ _ h2]
  have hvp := (State.fget_of_reg (f := F.TST_AGE_VP4 d) (State.agedFiled_reg (u.agedShown d) d
    (daysOf (u.dailyVolts d)) (hTA d))).trans (u.agedShown_vp4 d)
  rw [← u.agedShown_memKey d, ← (u.agedShown d).agedFiled_memKey d (daysOf (u.dailyVolts d))] at hm
  generalize (u.agedShown d).agedFiled d (daysOf (u.dailyVolts d)) = t at *
  refine ⟨t, hx, fun k hk => ?_, ?_, State.byte_of_memKey hm⟩
  · rw [State.fget_of_reg (s := u) (f := F.HEL_VT_AGE d k) (hreg k hk),
      State.fget_of_reg (f := F.HEL_VT_AGE d k) (hceil k hk), hage k hk]
    rfl
  · rw [hvp]
    exact (State.tableVolt_of_reg (hreg 4 (by decide))).symm

/-! ## The repartition of stacked SRAM (R175) -/

theorem State.get_filter {d : Nat → BitVec 8} {p : Nat → Bool} (m : List (Nat × BitVec 8)) {a : Nat} (h : p a = true) :
    Sparse.get d (m.filter fun c => p c.1) a = Sparse.get d m a := by
  induction m with
  | nil => rfl
  | cons c m ih =>
    rw [List.filter_cons]
    split
    · rw [Sparse.get, Sparse.get, ih]
    next hc => rw [ih, Sparse.get, if_neg fun (he : c.1 = a) => hc (he ▸ h)]

theorem Sparse.get_congr {α : Type} {d d' : Nat → α} {a : Nat} (h : d a = d' a) (m : List (Nat × α)) :
    Sparse.get d m a = Sparse.get d' m a := by
  induction m with
  | nil => exact h
  | cons c m ih => rw [Sparse.get, Sparse.get, ih]

theorem memDef_low (hbm sram : Nat) (c c' : BitVec 48) {a : Nat} (h : a < 0x20000000000) :
    memDef hbm sram c a = memDef hbm sram c' a := by
  unfold memDef
  split
  · rfl
  · rw [if_neg (by omega), if_neg (by omega)]

/-- A new boundary in force: the contents beyond it go. -/
def State.scratchCut (s : State) (d n : Nat) : State :=
  if n < s.fget (F.MEM_SRAM_STATUS_ACT d) then (s.dropScratch d n 12).fset (F.MEM_SRAM_STATUS_ACT d) n else s

/-- The new boundary named, and BUSY. -/
def State.scratchNamed (s : State) (d n : Nat) : State :=
  (s.fset (F.MEM_SRAM_CFG_SCRATCH d) n).setFlag (F.MEM_SRAM_STATUS_BUSY d) true

theorem execSramRepartition_of {s : State} {d : Fin 4} {v : BitVec 32} (hb : s.flag (F.MEM_SRAM_STATUS_BUSY d) = false)
    (hn : v.toNat % 16 ≤ 12) : exec (.sramRepartition .armature d v) s =
      .next ((s.scratchNamed d (v.toNat % 16)).scratchCut d (v.toNat % 16)) :=
  congrArg Host.Outcome.next ((s.acting_armature _ _ _).trans (if_neg (by rw [hb]; simp; omega)))

theorem execSramRepartition_refused {s : State} {d : Fin 4} {v : BitVec 32}
    (h : s.flag (F.MEM_SRAM_STATUS_BUSY d) = true ∨ 12 < v.toNat % 16) : exec (.sramRepartition .armature d v) s =
      .next (s.setFlag (F.MEM_SRAM_STATUS_ERR d) true) :=
  congrArg Host.Outcome.next ((s.acting_armature _ _ _).trans (if_pos h))

/-- Whether an address lies in GiB `lo` up to GiB `hi` of a die's stacked SRAM. -/
def inScratch (d lo hi a : Nat) : Bool :=
  decide (0x20000000000 ≤ a) && (a - 0x20000000000) / 0x400000000 == d &&
    decide (lo ≤ (a - 0x20000000000) % 0x400000000 / 0x40000000) &&
    decide ((a - 0x20000000000) % 0x400000000 / 0x40000000 < hi)

theorem State.dropScratch_mem (s : State) (d lo hi : Nat) :
    (s.dropScratch d lo hi).mem = s.mem.filter fun c => !inScratch d lo hi c.1 := rfl

theorem inScratch_low (d lo hi : Nat) {a : Nat} (h : a < 0x20000000000) : inScratch d lo hi a = false := by
  rw [inScratch, decide_eq_false (by omega)]
  rfl

/-- Dropping scratch leaves every byte below stacked SRAM, and every register. -/
theorem State.dropScratch_byte (s : State) (d lo hi : Nat) {a : Nat} (h : a < 0x20000000000) :
    (s.dropScratch d lo hi).byte a = s.byte a := by
  rw [State.byte, State.dropScratch_mem]
  exact State.get_filter (p := fun a => !inScratch d lo hi a) s.mem (by rw [inScratch_low d lo hi h]; rfl)

theorem State.dropScratch_regs (s : State) (d lo hi : Nat) : (s.dropScratch d lo hi).regs = s.regs := rfl

theorem SRAM_ne : ∀ d : Fin 4, Reg.MEM_SRAM_CFG d ≠ Reg.MEM_SRAM_STATUS d := by decide

theorem State.scratchNamed_spec (s : State) (d : Fin 4) {n : Nat} (hn : n ≤ 12) :
    (s.scratchNamed d n).fget (F.MEM_SRAM_CFG_SCRATCH d) = n ∧ (s.scratchNamed d n).flag (F.MEM_SRAM_STATUS_BUSY d) =
      true ∧
    (s.scratchNamed d n).fget (F.MEM_SRAM_STATUS_ACT d) = s.fget (F.MEM_SRAM_STATUS_ACT d) := by
  refine ⟨?_, State.setFlag_flag _ _ _ rfl, ?_⟩
  · rw [State.scratchNamed, State.setFlag_fget_apart _ _ _ _ (Fld.apart_of_key (SRAM_ne d).symm),
      State.fset_fget _ _ _ rfl]
    exact Nat.mod_eq_of_lt (lt_of_le_of_lt hn (show 12 < 2 ^ 4 by decide))
  · rw [State.scratchNamed, State.setFlag_fget_apart _ _ _ _ (by simp [Fld.apart, F.MEM_SRAM_STATUS_BUSY,
      F.MEM_SRAM_STATUS_ACT]), State.fset_fget_apart _ _ _ _ (Fld.apart_of_key (SRAM_ne d))]

theorem State.scratchCut_spec (s : State) (d : Fin 4) {n : Nat} (hn : n ≤ 12) :
    (s.scratchCut d n).fget (F.MEM_SRAM_CFG_SCRATCH d) = s.fget (F.MEM_SRAM_CFG_SCRATCH d) ∧
    (s.scratchCut d n).flag (F.MEM_SRAM_STATUS_BUSY d) = s.flag (F.MEM_SRAM_STATUS_BUSY d) ∧
    (s.scratchCut d n).fget (F.MEM_SRAM_STATUS_ACT d) = min n (s.fget (F.MEM_SRAM_STATUS_ACT d)) ∧
    ∀ a, a < 0x20000000000 → (s.scratchCut d n).byte a = s.byte a := by
  unfold State.scratchCut
  split
  next h =>
    refine ⟨?_, ?_, ?_, fun a ha => s.dropScratch_byte d n 12 ha⟩
    · rw [State.fset_fget_apart _ _ _ _ (Fld.apart_of_key (SRAM_ne d).symm)]
      exact State.fget_of_regs (State.dropScratch_regs _ _ _ _) _
    · rw [State.fset_flag_apart _ _ _ _ (by simp [Fld.apart, F.MEM_SRAM_STATUS_BUSY, F.MEM_SRAM_STATUS_ACT]),
        State.flag, State.fget_of_regs (State.dropScratch_regs _ _ _ _), State.flag]
    · rw [State.fset_fget _ _ _ rfl, Nat.min_eq_left (Nat.le_of_lt h)]
      exact Nat.mod_eq_of_lt (lt_of_le_of_lt hn (show 12 < 2 ^ 4 by decide))
  next h => exact ⟨rfl, rfl, (Nat.min_eq_right (Nat.le_of_not_lt h)).symm, fun _ _ => rfl⟩

theorem sramRepartition_completes {s : State} {d : Fin 4} {v : BitVec 32}
    (hb : s.flag (F.MEM_SRAM_STATUS_BUSY d) = false) (hn : v.toNat % 16 ≤ 12) :
    Completes (.sramRepartition .armature d v) s fun t =>
      t.fget (F.MEM_SRAM_CFG_SCRATCH d) = v.toNat % 16 ∧ t.flag (F.MEM_SRAM_STATUS_BUSY d) = true ∧
      t.fget (F.MEM_SRAM_STATUS_ACT d) = min (v.toNat % 16) (s.fget (F.MEM_SRAM_STATUS_ACT d)) ∧
      ∀ a, a < 0x20000000000 → t.byte a = s.byte a := by
  obtain ⟨n1, n2, n3⟩ := s.scratchNamed_spec d hn
  obtain ⟨c1, c2, c3, c4⟩ := (s.scratchNamed d (v.toNat % 16)).scratchCut_spec d hn
  refine ⟨_, execSramRepartition_of hb hn, c1.trans n1, c2.trans n2, ?_, fun a ha => ?_⟩
  · rw [c3, n3]
  · rw [c4 a ha]
    rfl

theorem sramRepartition_refused {s : State} {d : Fin 4} {v : BitVec 32}
    (h : s.flag (F.MEM_SRAM_STATUS_BUSY d) = true ∨ 12 < v.toNat % 16) :
    Completes (.sramRepartition .armature d v) s fun t =>
      t.flag (F.MEM_SRAM_STATUS_ERR d) = true ∧ { t with regs := s.regs } = s :=
  ⟨_, execSramRepartition_refused h, State.setFlag_flag _ _ _ rfl, State.frame_of_butRegs (State.setFlag_butRegs _ _ _)⟩

theorem repartitionWriteback_completes {s : State} {d : Fin 4} (hb : s.flag (F.MEM_SRAM_STATUS_BUSY d) = true) :
    Completes (.repartitionWritebackDone d) s fun t =>
      t.cache = s.cache.filter (fun x => x.die != d.val) ∧ { t with cache := s.cache } = s :=
  ⟨_, congrArg Host.Outcome.next (if_neg (by rw [hb]; decide)), rfl, rfl⟩

/-- The scratch that a new boundary adds: what lay there goes, and it reads as zeros. -/
def State.scratchAdded (s : State) (d : Nat) : State :=
  if s.fget (F.MEM_SRAM_STATUS_ACT d) < s.fget (F.MEM_SRAM_CFG_SCRATCH d) then
    { s.dropScratch d (s.fget (F.MEM_SRAM_STATUS_ACT d)) (s.fget (F.MEM_SRAM_CFG_SCRATCH d)) with
      sramClean := s.sramClean ||| gibMask d (s.fget (F.MEM_SRAM_STATUS_ACT d)) (s.fget (F.MEM_SRAM_CFG_SCRATCH d)) }
  else s

theorem State.scratchAdded_byte (s : State) (d : Nat) {a : Nat} (h : a < 0x20000000000) :
    (s.scratchAdded d).byte a = s.byte a := by
  unfold State.scratchAdded
  split
  · refine Eq.trans ?_ (s.dropScratch_byte d (s.fget (F.MEM_SRAM_STATUS_ACT d)) (s.fget (F.MEM_SRAM_CFG_SCRATCH d)) h)
    exact Sparse.get_congr (memDef_low _ _ _ _ h) _
  · rfl

theorem execRepartitionDone_of {s : State} {d : Fin 4} (hb : s.flag (F.MEM_SRAM_STATUS_BUSY d) = true)
    (hc : s.cache.any (fun x => x.die == d.val) = false) : exec (.repartitionDone d) s =
      .next (((s.scratchAdded d).fset (F.MEM_SRAM_STATUS_ACT d) (s.fget (F.MEM_SRAM_CFG_SCRATCH d))).setFlag
        (F.MEM_SRAM_STATUS_BUSY d) false) :=
  congrArg Host.Outcome.next (if_neg (by rw [hb, hc]; decide))

theorem repartitionDone_completes {s : State} {d : Fin 4} (hb : s.flag (F.MEM_SRAM_STATUS_BUSY d) = true)
    (hc : s.cache.any (fun x => x.die == d.val) = false) : Completes (.repartitionDone d) s fun t =>
      t.fget (F.MEM_SRAM_STATUS_ACT d) = s.fget (F.MEM_SRAM_CFG_SCRATCH d) ∧
      t.flag (F.MEM_SRAM_STATUS_BUSY d) = false ∧ ∀ a, a < 0x20000000000 → t.byte a = s.byte a := by
  have hx := execRepartitionDone_of hb hc
  have hbyte (a : Nat) (ha : a < 0x20000000000) := s.scratchAdded_byte d ha
  generalize s.scratchAdded d = u at *
  refine ⟨_, hx, ?_, State.setFlag_flag _ _ _ rfl, fun a ha => ?_⟩
  · rw [State.setFlag_fget_apart _ _ _ _ (by simp [Fld.apart, F.MEM_SRAM_STATUS_BUSY, F.MEM_SRAM_STATUS_ACT]),
      State.fset_fget _ _ _ rfl]
    have hlt : s.fget (F.MEM_SRAM_CFG_SCRATCH d) < 2 ^ 4 := State.fget_lt s _
    exact Nat.mod_eq_of_lt hlt
  · exact hbyte a ha

/-- Settles O52: capsules, dumps, the margin plan and the repartition of stacked SRAM. -/
theorem capsulesDumpsMarginsAndScratch : Obligations.CapsulesDumpsMarginsAndScratch := by
  unfold Obligations.CapsulesDumpsMarginsAndScratch
  intro s i d
  exact ⟨fun hl => ⟨fun h o hh hok ho hc hp => capsuleLoad_completes hl hh hok ho hc hp, capsuleLoad_any hl,
      capsuleErase_completes hl, fun en => capsuleEnable_completes hl en⟩, fun hl => capsuleErase_refused hl,
    takeDump_completes s, fun drift => marginPlan_completes s d drift,
    fun v => ⟨fun hb hn => sramRepartition_completes hb hn, fun h => sramRepartition_refused h⟩,
    fun hb => ⟨repartitionWriteback_completes hb, fun hc => repartitionDone_completes hb hc⟩⟩

end Sys2Proof.Machine
end

section
/-! SUPPORT. The host port: its reset, its link and its accesses (R160, R355, R392 to R394). -/
namespace Sys2Proof.Machine

/-! ## Halting a queue -/

theorem State.haltQ_halted (s : State) (q c : Nat) : (s.haltQ q c).flag (F.PLN_CQ_STATUS_HALT q) = true := by
  unfold State.haltQ
  split
  · assumption
  · rw [State.fset_flag_apart _ _ _ _ (by simp [Fld.apart, F.PLN_CQ_STATUS_HALT, F.PLN_CQ_STATUS_HCAUSE])]
    exact State.setFlag_flag _ _ _ rfl

theorem State.haltQ_cause {s : State} {q c : Nat} (h : s.flag (F.PLN_CQ_STATUS_HALT q) = false) (hc : c < 2 ^ 3) :
    (s.haltQ q c).fget (F.PLN_CQ_STATUS_HCAUSE q) = c := by
  unfold State.haltQ
  rw [if_neg (by simp [h]), State.fset_fget _ _ _ rfl]
  exact Nat.mod_eq_of_lt hc

theorem State.haltQ_of_halted {s : State} {q c : Nat} (h : s.flag (F.PLN_CQ_STATUS_HALT q) = true) : s.haltQ q c = s :=
  if_pos h

/-- The reset of the host port halts queue `q` if the host owns it (R393). -/
def State.haltHostQ (s : State) (q : Nat) : State := if s.flag (F.PLN_CQ_CFG_OWNER q) then s else s.haltQ q 5

theorem State.haltHostQ_reg (s : State) (q : Nat) {k : Nat} (h : k ≠ Reg.PLN_CQ_STATUS q) :
    (s.haltHostQ q).reg k = s.reg k := by
  unfold State.haltHostQ
  split
  · rfl
  · exact s.haltQ_reg q 5 h

theorem statusReg_inj {p q : Nat} (h : p ≠ q) : Reg.PLN_CQ_STATUS p ≠ Reg.PLN_CQ_STATUS q := by
  unfold Reg.PLN_CQ_STATUS
  omega

theorem cfgReg_ne_statusReg (p q : Nat) : Reg.PLN_CQ_CFG p ≠ Reg.PLN_CQ_STATUS q := by
  unfold Reg.PLN_CQ_CFG Reg.PLN_CQ_STATUS
  omega

theorem State.haltHostQs_reg (l : List Nat) (s : State) {k : Nat} (h : ∀ q ∈ l, k ≠ Reg.PLN_CQ_STATUS q) :
    (l.foldl State.haltHostQ s).reg k = s.reg k :=
  List.foldlRecOn (motive := fun t : State => t.reg k = s.reg k) _ _ rfl fun t ht q hq =>
    (t.haltHostQ_reg q (h q hq)).trans ht

/-- What halting makes of a queue's status follows from its own registers. -/
theorem State.haltHostQ_congr {s t : State} {q : Nat}
    (hs : s.reg (Reg.PLN_CQ_STATUS q) = t.reg (Reg.PLN_CQ_STATUS q))
    (hc : s.reg (Reg.PLN_CQ_CFG q) = t.reg (Reg.PLN_CQ_CFG q)) :
    (s.haltHostQ q).reg (Reg.PLN_CQ_STATUS q) = (t.haltHostQ q).reg (Reg.PLN_CQ_STATUS q) := by
  have ho : s.flag (F.PLN_CQ_CFG_OWNER q) = t.flag (F.PLN_CQ_CFG_OWNER q) := State.flag_of_reg hc
  have hh : s.flag (F.PLN_CQ_STATUS_HALT q) = t.flag (F.PLN_CQ_STATUS_HALT q) := State.flag_of_reg hs
  unfold State.haltHostQ State.haltQ
  rw [ho, hh]
  split
  · exact hs
  · split
    · exact hs
    · simp only [State.setFlag, State.fset_reg, F.PLN_CQ_STATUS_HCAUSE, F.PLN_CQ_STATUS_HALT, if_true, hs]

/-- In a list without repetition each queue is halted as if it were alone. -/
theorem State.haltHostQs_status (l : List Nat) (hl : l.Nodup) (s : State) {q : Nat} (hq : q ∈ l) :
    (l.foldl State.haltHostQ s).reg (Reg.PLN_CQ_STATUS q) = (s.haltHostQ q).reg (Reg.PLN_CQ_STATUS q) := by
  induction l generalizing s with
  | nil => simp at hq
  | cons p l ih =>
    obtain ⟨hp, hl⟩ := List.nodup_cons.1 hl
    rw [List.foldl_cons]
    by_cases h : q = p
    · subst h
      exact State.haltHostQs_reg l _ fun r hr => statusReg_inj fun e => hp (e ▸ hr)
    · rw [ih hl _ ((List.mem_cons.1 hq).resolve_left h)]
      exact State.haltHostQ_congr (s.haltHostQ_reg p (statusReg_inj h)) (s.haltHostQ_reg p (cfgReg_ne_statusReg q p))

/-- The host port as its reset leaves it, before the host's queues halt (R393). -/
def State.hostDown (s : State) : State :=
  { (s.modPower fun p => { p with perstLow := true }).setReg Reg.PLN_HOST (s.reg Reg.PLN_HOST &&& 0x6000FFFF) with
    bar4 := [] }

theorem State.hostDown_reg (s : State) {k : Nat} (h : k ≠ Reg.PLN_HOST) : s.hostDown.reg k = s.reg k := by
  show (State.setReg _ _ _).reg k = _
  rw [State.setReg_reg, if_neg h]
  rfl

theorem State.hostDown_up (s : State) : s.hostDown.flag F.PLN_HOST_UP = false := by
  rw [State.flag_eq_getLsbD _ rfl]
  have h : s.hostDown.reg Reg.PLN_HOST = s.reg Reg.PLN_HOST &&& 0x6000FFFF := State.setReg_reg_self _ _ _
  show (s.hostDown.reg Reg.PLN_HOST).getLsbD 31 = false
  rw [h, BitVec.getLsbD_and]
  simp

theorem State.haltQ_power (s : State) (q c : Nat) : (s.haltQ q c).power = s.power := by
  unfold State.haltQ
  split <;> rfl

theorem State.haltHostQs_power (l : List Nat) (s : State) : (l.foldl State.haltHostQ s).power = s.power :=
  List.foldlRecOn (motive := fun t : State => t.power = s.power) _ _ rfl fun t ht q _ => by
    unfold State.haltHostQ
    split
    · exact ht
    · exact (t.haltQ_power q 5).trans ht

theorem State.haltHostQ_memKey (s : State) (q : Nat) : (s.haltHostQ q).memKey = s.memKey := by
  unfold State.haltHostQ
  split
  · rfl
  · exact s.haltQ_memKey q 5

theorem execPerstAssert_of {s : State} (h : s.power.perstLow = false) :
    exec .perstAssert s = .next ((List.range 16).foldl State.haltHostQ s.hostDown) :=
  congrArg Host.Outcome.next (if_neg (by simp [h]))

theorem perstAssert_completes {s : State} (h : s.power.perstLow = false) : Completes .perstAssert s fun t =>
    t.power.perstLow = true ∧ t.flag F.PLN_HOST_UP = false ∧
    (∀ q : Fin 16, s.flag (F.PLN_CQ_CFG_OWNER q) = false → t.flag (F.PLN_CQ_STATUS_HALT q) = true ∧
      (s.flag (F.PLN_CQ_STATUS_HALT q) = false → t.fget (F.PLN_CQ_STATUS_HCAUSE q) = 5)) ∧
    ∀ a, t.byte a = s.byte a := by
  refine ⟨_, execPerstAssert_of h, congrArg Power.perstLow (State.haltHostQs_power _ _), ?_, fun q ho => ?_,
    State.byte_of_memKey (State.foldl_memKey _ State.haltHostQ_memKey _ _)⟩
  · refine (State.flag_of_reg (State.haltHostQs_reg _ _ fun q _ => ?_)).trans s.hostDown_up
    simp only [F.PLN_HOST_UP, Reg.PLN_HOST, Reg.PLN_CQ_STATUS]
    omega
  · have hne (k : Nat) (hk : 0x1000 ≤ k) : s.hostDown.reg k = s.reg k :=
      s.hostDown_reg (by unfold Reg.PLN_HOST; omega)
    have ho' : s.hostDown.flag (F.PLN_CQ_CFG_OWNER q) = false :=
      (State.flag_of_reg (hne _ (by simp only [F.PLN_CQ_CFG_OWNER, Reg.PLN_CQ_CFG]; omega))).trans ho
    have hh : s.hostDown.flag (F.PLN_CQ_STATUS_HALT q) = s.flag (F.PLN_CQ_STATUS_HALT q) :=
      State.flag_of_reg (hne _ (by simp only [F.PLN_CQ_STATUS_HALT, Reg.PLN_CQ_STATUS]; omega))
    have ht := State.haltHostQs_status (List.range 16) List.nodup_range s.hostDown (List.mem_range.2 q.isLt)
    rw [State.haltHostQ, if_neg (by simp [ho'])] at ht
    exact ⟨(State.flag_of_reg ht).trans (State.haltQ_halted _ _ _), fun hs =>
      (State.fget_of_reg ht).trans (State.haltQ_cause (hh.trans hs) (by decide))⟩

/-! ## The link -/

theorem hostLinkUp_completes {s : State} {rate : BitVec 3} {w : BitVec 5} (hp : s.power.perstLow = false)
    (hr : s.power.railsUp = true) (hb : 6 ≤ s.fget F.PLN_BOOT_STEP) (h0 : rate ≠ 0) (h7 : rate ≠ 7)
    (hw : w.toNat ∈ [4, 8, 16]) : Completes (.hostLinkUp rate w) s fun t =>
      t.flag F.PLN_HOST_UP = true ∧ t.fget F.PLN_HOST_RATE = rate.toNat ∧ t.fget F.PLN_HOST_WIDTH = w.toNat ∧
      (s.flag F.PLN_HOST_UP = true →
        t.fget F.PLN_HOST_RETRAINS = min 0xFFFF (s.fget F.PLN_HOST_RETRAINS + 1)) ∧ { t with regs := s.regs } = s := by
  have hg : ¬(s.power.perstLow = true ∨ s.power.railsUp = false ∨ s.fget F.PLN_BOOT_STEP < 6 ∨ rate = 0 ∨ rate = 7 ∨
      [4, 8, 16].contains w.toNat = false) := by
    have hw' : [4, 8, 16].contains w.toNat = true := List.contains_iff_mem.2 hw
    simp only [hp, hr, h0, h7, hw']
    simp
    omega
  refine ⟨_, congrArg Host.Outcome.next (if_neg hg), ?_, ?_, ?_, ?_, ?_⟩
  · rw [State.fset_flag_apart _ _ _ _ rfl, State.fset_flag_apart _ _ _ _ rfl, State.setFlag_flag _ _ _ rfl]
  · rw [State.fset_fget_apart _ _ _ _ rfl, State.fset_fget _ _ _ rfl]
    exact Nat.mod_eq_of_lt rate.isLt
  · rw [State.fset_fget _ _ _ rfl]
    exact Nat.mod_eq_of_lt w.isLt
  · intro hu
    rw [State.fset_fget_apart _ _ _ _ rfl, State.fset_fget_apart _ _ _ _ rfl, State.setFlag_fget_apart _ _ _ _ rfl,
      if_pos hu, State.fsat_fget _ _ _ rfl]
    rfl
  · cases s.flag F.PLN_HOST_UP <;> rfl

/-! ## Registers and memory through the BARs -/

theorem State.syn_store_self (s : State) (a : Nat) (w : MWord) : (s.store a w).syn a = if w.p then 0x7F else 0 :=
  Sparse.get_set_self _ _ _ _

theorem State.store_bursts (s : State) (a : Nat) (w : MWord) : (a / 64) ∉ (s.store a w).bursts := by
  show a / 64 ∉ (s.mendBurst a).bursts
  unfold State.mendBurst
  split
  · simp
  next h => simpa using h

theorem State.rawWord_store (s : State) {a : Nat} (w : MWord) (ha : a % 4 = 0) : (s.store a w).rawWord a = w.v := by
  have h0 : 4 * (a / 4) = a := by omega
  simp only [State.rawWord, State.store_byte, h0]
  simp
  exact word_of_bytes w.v

/-- A word stored reads as it was stored, poison and all. -/
theorem State.stored_store (s : State) {a : Nat} (w : MWord) (ha : a % 4 = 0) : (s.store a w).stored a = w := by
  have hb : (s.store a w).burstBad a = false := by simp [State.burstBad, s.store_bursts a w]
  rw [State.stored, hb, if_neg Bool.false_ne_true, State.rawWord_store _ _ ha, State.syn_store_self]
  obtain ⟨v, p⟩ := w
  cases p <;> rfl

theorem recordReg_memBlock : ∀ st : Fin 24, recordReg (Reg.MEM_H_CHRET st) = false ∧
    recordReg (F.MEM_H_STATUS_STATE st).key = false := by decide +kernel

theorem recordReg_edge : ∀ n : Fin 4, recordReg (F.PLN_EDGE_STATUS_STATE (8 + n)).key = false := by decide +kernel

theorem recordReg_sram : ∀ d : Fin 64, recordReg (F.MEM_SRAM_STATUS_ACT d).key = false := by decide +kernel

theorem State.dieQ_of_calmRegs {s t : State} (h : t.calmRegs = s.calmRegs) (d : Nat) : t.dieQ d = s.dieQ d := by
  rw [State.dieQ, State.dieQ, State.fget_of_calmRegs h rfl]

/-- What the registers of records and counts take moves no location. -/
theorem State.locate_of_calmRegs {s t : State} (h : t.calmRegs = s.calmRegs) (x : Nat) : t.locate x = s.locate x := by
  have ha (d : Nat) (hd : d < 4) : t.fget (F.MEM_SRAM_STATUS_ACT d) = s.fget (F.MEM_SRAM_STATUS_ACT d) :=
    State.fget_of_calmRegs h (recordReg_sram ⟨d, by omega⟩)
  unfold State.locate
  simp only [State.dieQ_of_calmRegs h, State.fget_of_calmRegs h (f := F.MEM_CFG_ILV_ACT) rfl]
  by_cases hx : 0x20000000000 ≤ x ∧ x < 0x21000000000
  · rw [ha _ (by omega)]
  · split
    · rfl
    · split
      · rfl
      · split
        · rfl
        next h2 =>
          have hc : ¬x < 0x21000000000 := by omega
          rw [if_neg hc, if_neg hc]

/-- A hole is made by what no record and no count tells. -/
theorem State.hole_of {s t : State} (h : t.calmRegs = s.calmRegs) (hb : t.butRecords = s.butRecords) {l : Loc}
    (hl : l.real) : t.hole l = s.hole l := by
  have hpg : t.pages = s.pages := (congrArg State.pages hb :)
  have hg : t.gone = s.gone := (congrArg State.gone hb :)
  have hd : t.granDead = s.granDead := (congrArg State.granDead hb :)
  have hp (u ch p : Nat) : t.pageRetired u ch p = s.pageRetired u ch p := by
    simp only [State.pageRetired, hpg]
  cases l with
  | hbm st ch pg =>
    obtain ⟨h1, h2⟩ := recordReg_memBlock ⟨st, lt_trans (show st < 16 from hl) (by decide)⟩
    simp only [State.hole, State.reg_of_calmRegs h h1, State.fget_of_calmRegs h h2, hp]
  | slow dv ch pg =>
    have hd : dv < 8 := hl
    obtain ⟨h1, h2⟩ := recordReg_memBlock ⟨16 + dv, by omega⟩
    have he := State.fget_of_calmRegs h (recordReg_edge ⟨dv / 2, by omega⟩)
    simp only at he
    simp only [State.hole, State.reg_of_calmRegs h h1, State.fget_of_calmRegs h h2, hp, State.rifEdgeOpen, he,
      hg]
  | scratch d o => simp only [State.hole, hd]
  | err k => rfl
  | regs o => rfl

theorem State.readSector_butRecords (s : State) (a : Nat) : (s.readSector a).butRecords = s.butRecords := by
  unfold State.readSector
  dsimp only
  split
  · split
    · rfl
    · exact State.foldl_butRecords _ (fun _ _ => State.onRead_butRecords _ _ _ _ _) _ _
  · rfl

theorem State.readSector_calmRegs (s : State) (a : Nat) : (s.readSector a).calmRegs = s.calmRegs := by
  have hl := s.locate_real (a / 64 * 64)
  unfold State.readSector
  dsimp only
  split
  next heq =>
    rw [heq] at hl
    split
    · rfl
    · exact State.foldl_calmRegs _ (fun _ _ => State.onRead_calmRegs _ _ _ _ hl) _ _
  next => rfl

theorem State.readable_of {s t : State} (h : t.calmRegs = s.calmRegs) (hb : t.butRecords = s.butRecords) (a : Nat) :
    t.readable a = s.readable a := by
  have hl := s.locate_real a
  unfold State.readable
  rw [State.locate_of_calmRegs h]
  split
  · rfl
  · rfl
  · rw [State.hole_of h hb hl]

theorem State.readAt_of_readable {s : State} {a : Nat} (h : s.readable a = true) (hd lt : Bool) (src : Src)
    (pkg : BitVec 16) : (s.readAt hd lt src pkg a).1 = s.stored a := by
  unfold State.readable at h
  unfold State.readAt
  cases hl : s.locate a with
  | err k => simp [hl] at h
  | regs o => simp [hl] at h
  | _ => exact congrArg Prod.fst (if_neg (by simpa [hl] using h))

theorem State.writeAt_of_readable {s : State} {a : Nat} (h : s.readable a = true) (hd : Bool) (src : Src)
    (pkg : BitVec 16) (w : MWord) :
    s.writeAt hd src pkg a w = (if hd then s.cacheTouch a true else s).store a w := by
  unfold State.readable at h
  unfold State.writeAt
  cases hl : s.locate a with
  | err k => simp [hl] at h
  | regs o => simp [hl] at h
  | _ => exact if_neg (by simpa [hl] using h)

theorem exec_hostRead_mem {s : State} {o : BitVec 48} (hu : s.flag F.PLN_HOST_UP = true)
    (hw : s.hostWaits (o.toNat / 4 * 4) 1 = false) : exec (.hostRead 1 o 1) s =
      .next { (s.hostMem true (o.toNat / 4 * 4 % 2 ^ 42) 1).2 with
        cpl := (s.hostMem true (o.toNat / 4 * 4 % 2 ^ 42) 1).1,
        cplPoison := (s.hostMem true (o.toNat / 4 * 4 % 2 ^ 42) 1).1.any (·.p) } :=
  congrArg Host.Outcome.next <| (if_neg (by simp [hu])).trans <| (if_neg (by decide)).trans <|
    (if_pos rfl).trans <| if_neg (by simp [hw])

theorem hostRead_mem {s : State} {o : BitVec 48} (hu : s.flag F.PLN_HOST_UP = true)
    (ha : o.toNat / 4 * 4 < 0x30000000000) (hw : s.hostWaits (o.toNat / 4 * 4) 1 = false)
    (hr : s.readable (o.toNat / 4 * 4) = true) : Completes (.hostRead 1 o 1) s fun t =>
      t.cpl = [s.stored (o.toNat / 4 * 4)] ∧ t.cplPoison = (s.stored (o.toNat / 4 * 4)).p ∧
      ∀ b, t.byte b = s.byte b := by
  refine ⟨_, exec_hostRead_mem hu hw, ?_⟩
  generalize o.toNat / 4 * 4 = a at ha hw hr ⊢
  have hm : s.hostMem true (a % 2 ^ 42) 1 = ([s.stored a], (s.readAt true true .host 0xFFFF a).2) := by
    rw [Nat.mod_eq_of_lt (by omega), ← State.readAt_of_readable hr true true .host 0xFFFF]
    simp only [State.hostMem, Bool.true_or]
    rw [if_neg (by omega)]
    rfl
  rw [hm]
  exact ⟨rfl, by simp, State.byte_of_memKey (State.readAt_memKey _ _ _ _ _ _)⟩

theorem exec_hostWrite_mem {s : State} {o : BitVec 48} (v : BitVec 32) (p : Bool) (hu : s.flag F.PLN_HOST_UP = true)
    (hw : s.hostWaits (o.toNat / 4 * 4) 1 = false) : exec (.hostWrite 1 o [v] p) s =
      .next (s.hostMemWrite true (o.toNat / 4 * 4 % 2 ^ 42) [⟨v, p⟩]) :=
  congrArg Host.Outcome.next <| (if_neg (by simp [hu])).trans <| (if_pos rfl).trans <| if_neg (by simp [hw])

/-- A write of one word by the host, its sector read before it (R392). -/
theorem State.hostMemWrite_one {s : State} {a : Nat} (ha : a < 0x30000000000) (hr : s.readable a = true) (w : MWord) :
    s.hostMemWrite true a [w] = ((s.readSector a).cacheTouch a true).store a w := by
  have h : (s.readSector a).readable a = true :=
    (State.readable_of (s.readSector_calmRegs a) (s.readSector_butRecords a) a).trans hr
  simp only [State.hostMemWrite, Bool.true_or, List.length_nil, Bool.true_and]
  rw [if_neg (by omega), if_pos (by simp), State.writeAt_of_readable h]
  rfl

theorem State.hostMemWrite_one_byte {s : State} {a : Nat} (w : MWord) {b : Nat} (hb : b / 4 ≠ a / 4) :
    (((s.readSector a).cacheTouch a true).store a w).byte b = s.byte b :=
  (State.store_byte_other _ _ _ _ hb).trans
    (State.byte_of_memKey ((State.cacheTouch_memKey _ _ _).trans (State.readSector_memKey _ _)) b)

theorem hostWrite_mem {s : State} {o : BitVec 48} (v : BitVec 32) (p : Bool) (hu : s.flag F.PLN_HOST_UP = true)
    (ha : o.toNat / 4 * 4 < 0x30000000000) (hw : s.hostWaits (o.toNat / 4 * 4) 1 = false)
    (hr : s.readable (o.toNat / 4 * 4) = true) : Completes (.hostWrite 1 o [v] p) s fun t =>
      t.stored (o.toNat / 4 * 4) = ⟨v, p⟩ ∧ ∀ b, b / 4 ≠ o.toNat / 4 * 4 / 4 → t.byte b = s.byte b := by
  refine ⟨_, exec_hostWrite_mem v p hu hw, ?_⟩
  rw [Nat.mod_eq_of_lt (by omega), State.hostMemWrite_one ha hr]
  exact ⟨State.stored_store _ _ (by omega), fun b hb => State.hostMemWrite_one_byte _ hb⟩

/-- The host port's bytes as one word written reads. -/
theorem State.bar4Word_write (s : State) (o : Nat) (v : BitVec 32) : (s.bar4Write o [v]).bar4Word o = ⟨v, false⟩ := by
  have hm : (s.bar4Write o [v]).bar4 = Sparse.set (fun _ => 0) (Sparse.set (fun _ => 0) (Sparse.set (fun _ => 0)
      (Sparse.set (fun _ => 0) s.bar4 (o + 0) (v.extractLsb' 0 8)) (o + 1) (v.extractLsb' 8 8)) (o + 2)
      (v.extractLsb' 16 8)) (o + 3) (v.extractLsb' 24 8) := rfl
  have h : (s.bar4Write o [v]).bar4Word o = ⟨v.extractLsb' 24 8 ++ v.extractLsb' 16 8 ++ v.extractLsb' 8 8 ++
      v.extractLsb' 0 8, false⟩ := by
    simp only [State.bar4Word, hm, Sparse.get_set]
    simp
  rw [h, word_of_bytes]

/-- Settles O54. -/
theorem hostPort : Obligations.HostPort := by
  unfold Obligations.HostPort
  intro s
  refine ⟨perstAssert_completes, ⟨_, rfl, rfl, rfl⟩, fun rate w => hostLinkUp_completes, fun hu o v => ?_⟩
  have hup : ¬s.flag F.PLN_HOST_UP = false := by simp [hu]
  refine ⟨⟨_, congrArg Host.Outcome.next ((if_neg hup).trans (if_pos rfl)), rfl, rfl⟩,
    ⟨_, congrArg Host.Outcome.next ((if_neg hup).trans <| (if_neg (by decide)).trans <| (if_neg (by decide)).trans <|
      if_pos rfl), rfl⟩,
    ⟨_, congrArg Host.Outcome.next ((if_neg hup).trans <| (if_neg (by decide)).trans <| if_pos rfl), rfl⟩,
    fun ha hw hr => ⟨hostRead_mem hu ha hw hr, fun p => hostWrite_mem v p hu ha hw hr⟩, fun ha => ⟨?_, ?_⟩⟩
  · refine ⟨_, congrArg Host.Outcome.next ((if_neg hup).trans <| (if_neg (by decide)).trans <| if_neg (by decide)), ?_,
      rfl⟩
    show [s.bar4Word ((o.toNat / 4 * 4 + 4 * 0) % 0x10000)] = _
    rw [Nat.mul_zero, Nat.add_zero, Nat.mod_eq_of_lt ha]
  · refine ⟨_, congrArg Host.Outcome.next ((if_neg hup).trans <| (if_neg (by decide)).trans <|
      (if_neg (by decide)).trans <| if_neg (by decide)), ?_, rfl⟩
    rw [Nat.mod_eq_of_lt ha]
    exact s.bar4Word_write _ v

end Sys2Proof.Machine
end

section
/-! SUPPORT. The management bus and its recovery loader, FAULT_N and the test access port (R316, R354, R370, R373, R388,
R389). -/
namespace Sys2Proof.Machine

/-! ## The island's start -/

/-- Burin's state beside its measurements. -/
def Sec.butMeas (x : Sec) : Sec := { x with meas := [] }

theorem State.bootTake_butRegs (s : State) (rec : List (BitVec 8)) (k : Nat) (m : BitVec 32) :
    (s.bootTake rec k m).butRegs = s.butRegs := State.setReg_butRegs _ _ _

/-- What the boot configuration record sets before its own measurement. -/
def State.bootRegs (s : State) (rec : List (BitVec 8)) : State :=
  let s := (s.bootTake rec Reg.COL_CFG (lkMask Reg.COL_CFG)).setFlag F.COL_CFG_LOCK true
  let s := s.bootTake rec Reg.SEC_POLICY (lkMask Reg.SEC_POLICY)
  let ilv := s.fget F.MEM_CFG_ILV
  let s := s.bootTake rec Reg.MEM_CFG F.MEM_CFG_ILV.mask
  let s := if s.fget F.MEM_CFG_ILV = 3 then s.fset F.MEM_CFG_ILV ilv else s
  let s := s.bootTake rec Reg.WPL_DISC_CFG F.WPL_DISC_CFG_AUTO.mask
  s.bootTake rec Reg.PLN_HOST F.PLN_HOST_MODE.mask

theorem State.bootRegs_butRegs (s : State) (rec : List (BitVec 8)) : (s.bootRegs rec).butRegs = s.butRegs := by
  unfold State.bootRegs
  dsimp only
  split <;> simp only [State.bootTake_butRegs, State.fset_butRegs, State.setFlag_butRegs]

/-- Everything but the registers and what Burin has measured. -/
def State.butMeas (s : State) : State := { s with regs := [], sec := { s.sec with meas := [] } }

theorem State.butMeas_of_butRegs {s t : State} (h : t.butRegs = s.butRegs) : t.butMeas = s.butMeas :=
  (congrArg State.butMeas h :)

theorem State.measure_butMeas (s : State) (k : Nat) (d : BitVec 384) : (s.measure k d).butMeas = s.butMeas := rfl

theorem State.sec_of_butMeas {s t : State} (h : t.butMeas = s.butMeas) : t.sec.butMeas = s.sec.butMeas :=
  (congrArg State.sec h :)

/-- The boot configuration record, as the island's start applies it. -/
def State.bootRecord (s : State) : State :=
  match s.sec.bootcfg with
  | none => s
  | some rec => (s.bootRegs rec).measure 3 (Config.sha384 rec)

theorem State.bootRecord_butMeas (s : State) : s.bootRecord.butMeas = s.butMeas := by
  unfold State.bootRecord
  split
  · rfl
  · exact (State.measure_butMeas _ _ _).trans (State.butMeas_of_butRegs (s.bootRegs_butRegs _))

/-- The island's start before it shows its state. -/
def State.islandReady (s : State) : State :=
  let s := (s.bootRecord.setFlag F.SEC_POLICY_LOCK true).fset F.MEM_CFG_ILV_ACT (s.bootRecord.fget F.MEM_CFG_ILV)
  if s.flag F.TST_STATUS_OOS then s.setFlag F.PLN_FAULTN_HELD true else s

theorem State.islandUp_eq (s : State) :
    s.islandUp = (s.islandReady.fset F.COL_STATUS_STATE 1).fset F.PLN_BOOT_STEP 4 := by
  unfold State.islandUp State.islandReady State.bootConfig State.bootRecord
  cases s.sec.bootcfg <;> rfl

theorem State.islandReady_locked (s : State) : s.islandReady.flag F.SEC_POLICY_LOCK = true := by
  have h : ((s.bootRecord.setFlag F.SEC_POLICY_LOCK true).fset F.MEM_CFG_ILV_ACT
      (s.bootRecord.fget F.MEM_CFG_ILV)).flag F.SEC_POLICY_LOCK = true := by
    rw [State.fset_flag_apart _ _ _ _ rfl, State.setFlag_flag _ _ _ rfl]
  unfold State.islandReady
  dsimp only
  split
  · rwa [State.setFlag_flag_apart _ _ _ _ rfl]
  · exact h

theorem State.islandReady_butMeas (s : State) : s.islandReady.butMeas = s.butMeas := by
  refine Eq.trans ?_ s.bootRecord_butMeas
  unfold State.islandReady
  dsimp only
  split <;> rfl

theorem State.islandUp_shows (s : State) : s.islandUp.fget F.PLN_BOOT_STEP = 4 ∧ s.islandUp.fget F.COL_STATUS_STATE =
  1 ∧
    s.islandUp.flag F.SEC_POLICY_LOCK = true := by
  rw [State.islandUp_eq]
  refine ⟨State.fset_fget _ _ _ rfl, ?_, ?_⟩
  · rw [State.fset_fget_apart _ _ _ _ rfl, State.fset_fget _ _ _ rfl]
    rfl
  · rw [State.fset_flag_apart _ _ _ _ rfl, State.fset_flag_apart _ _ _ _ rfl, State.islandReady_locked]

theorem State.islandUp_butMeas (s : State) : s.islandUp.butMeas = s.butMeas := by
  rw [State.islandUp_eq]
  exact s.islandReady_butMeas

/-! ## The management bus (R389) -/

theorem State.busMode_of {s : State} (h : s.fget F.PLN_MGMT_MODE = 2) : s.busMode = s := if_neg (by simp [h])

theorem State.mgmt_of {s : State} {f : State → State} (hu : s.busUp = true) (hm : s.fget F.PLN_MGMT_MODE = 2) :
    (if s.busUp = false then s else f s.busMode) = f s := by
  rw [if_neg (by simp [hu]), State.busMode_of hm]

theorem mgmtAddr_completes {s : State} (hu : s.busUp = true) (hm : s.fget F.PLN_MGMT_MODE = 2) (a : BitVec 64) :
    Completes (.mgmtAddr a) s fun t =>
      t.sec.mgmtAddr = a ∧ t.sec.mgmtRef = false ∧ { t with sec := s.sec } = s :=
  ⟨_, congrArg Host.Outcome.next (State.mgmt_of (f := fun s => { s with sec := { s.sec with
    mgmtAddr := a, mgmtRef := false } }) hu hm), rfl, rfl, rfl⟩

/-- What a management read delivers (R389). -/
def State.mgmtGive (s : State) (g : BitVec 64) (v : BitVec 32) : State :=
  { s with sec := { s.sec with mgmtOut := v, mgmtAddr := g + 4, mgmtRef := false } }

theorem execMgmtRead_reg {s : State} {k : Nat} (hu : s.busUp = true) (hm : s.fget F.PLN_MGMT_MODE = 2)
    (hk : s.busReg s.sec.mgmtAddr = some k) : exec .mgmtRead s =
      .next ((s.regRead .arm .mgmt k).2.mgmtGive s.sec.mgmtAddr (s.regRead .arm .mgmt k).1) := by
  show execMgmtRead s = _
  unfold execMgmtRead
  dsimp only
  rw [if_neg (by simp [hu]), State.busMode_of hm, hk]
  rfl

theorem execMgmtWrite_reg {s : State} {k : Nat} (v : BitVec 32) (hu : s.busUp = true)
    (hm : s.fget F.PLN_MGMT_MODE = 2) (hk : s.busReg s.sec.mgmtAddr = some k) (hc : k ≠ Reg.SEC_CMD) :
    exec (.mgmtWrite v) s = .next ((s.regWrite .arm .mgmt k v).busRef (s.mayWrite .mgmt k).isSome) := by
  show execMgmtWrite v s = _
  unfold execMgmtWrite
  dsimp only
  rw [if_neg (by simp [hu]), State.busMode_of hm, hk]
  dsimp only
  rw [if_neg hc]

theorem row_SEC_ADDR_LO : Reg.row Reg.SEC_ADDR_LO = some ⟨"SEC_ADDR_LO", 0xD, 1, 0x20, 0x0, 1, 0x0, 1,
    [⟨31, 0, .rw, 0x0⟩]⟩ := by
  decide +kernel

theorem fieldWrite_whole (lock : Bool) (v : BitVec 32) (k r : Nat) (old : BitVec 32) :
    fieldWrite lock (BitVec.allOnes 32) v k old ⟨31, 0, .rw, r⟩ = v := by
  refine BitVec.eq_of_getLsbD_eq fun i hi => ?_
  exact fieldWrite_inside lock v k old ⟨31, 0, .rw, r⟩ (by simp [FieldRow.holds]; omega)

theorem State.plainWrite_SEC_ADDR_LO (s : State) (v : BitVec 32) :
    s.plainWrite .mgmt Reg.SEC_ADDR_LO v = s.setReg Reg.SEC_ADDR_LO v := by
  have hw : s.written (BitVec.allOnes 32) Reg.SEC_ADDR_LO v = v := by
    rw [State.written, row_SEC_ADDR_LO]
    exact fieldWrite_whole (s.locked Reg.SEC_ADDR_LO) v _ _ _
  unfold State.plainWrite
  show ((s.setReg _ (s.written (BitVec.allOnes 32) _ v)).deny _ _ _) = _
  rw [hw]
  rfl

theorem State.regWrite_SEC_ADDR_LO (s : State) (v : BitVec 32) :
    s.regWrite .arm .mgmt Reg.SEC_ADDR_LO v = s.writeSecAddr .mgmt Reg.SEC_ADDR_LO v := rfl

theorem mgmtWrite_addr {s : State} (hu : s.busUp = true) (hm : s.fget F.PLN_MGMT_MODE = 2) (v : BitVec 32)
    (hk : s.busReg s.sec.mgmtAddr = some Reg.SEC_ADDR_LO) : Completes (.mgmtWrite v) s fun t =>
      t.reg Reg.SEC_ADDR_LO = v ∧ t.sec.mgmtRef = false ∧ (∀ k, k ≠ Reg.SEC_ADDR_LO → t.reg k = s.reg k) ∧
      { t with regs := s.regs, sec := s.sec } = s := by
  refine ⟨_, execMgmtWrite_reg v hu hm hk (by decide), ?_⟩
  rw [State.regWrite_SEC_ADDR_LO]
  unfold State.writeSecAddr
  rw [State.plainWrite_SEC_ADDR_LO]
  dsimp only
  split
  · exact ⟨State.setReg_reg_self _ _ _, rfl, fun k hk => (State.setReg_alone s _ v).1 k hk, rfl⟩
  · exact ⟨State.setReg_reg_self _ _ _, rfl, fun k hk => (State.setReg_alone s _ v).1 k hk, rfl⟩

theorem mgmtStatus_completes {s : State} (hu : s.busUp = true) (hm : s.fget F.PLN_MGMT_MODE = 2) :
    Completes .mgmtStatus s fun t =>
      t.sec.mgmtOut = (if s.sec.mgmtRef then 1 else 0) ∧ { t with sec := s.sec } = s :=
  ⟨_, congrArg Host.Outcome.next (State.mgmt_of (f := fun s => { s with sec := { s.sec with
    mgmtOut := if s.sec.mgmtRef then 1 else 0 } }) hu hm), rfl, rfl⟩

theorem recovery_completes {s : State} (hu : s.busUp = true) (hm : s.fget F.PLN_MGMT_MODE = 2)
    (hr : s.sec.recovering = true) {d : List (BitVec 8)} (hd : d.length ≤ 32) : Completes (.recovery d) s fun t =>
      t.sec.recov = s.sec.recov ++ d ∧ t.sec.mgmtRef = false ∧ { t with sec := s.sec } = s :=
  ⟨_, congrArg Host.Outcome.next ((State.mgmt_of (f := fun s => if s.sec.recovering = false ∨ 32 < d.length then
    s.busRef true else { s with sec := { s.sec with recov := s.sec.recov ++ d, mgmtRef := false } }) hu hm).trans
      (if_neg (by simp [hr, hd]))), rfl, rfl, rfl⟩

/-! ## The recovery loader (R354, R389) -/

/-- The state in which a recovered image starts the island. -/
def State.recovered (s : State) : State :=
  ({ s with sec := { s.sec with recov := [], mgmtRef := false, recovering := false } } : State).measure 1
    (Config.sha384 s.sec.recov)

theorem execRecoveryGo_of {s : State} (hu : s.busUp = true) (hm : s.fget F.PLN_MGMT_MODE = 2)
    (hr : s.sec.recovering = true) : exec .recoveryGo s = .next s.recoveryGo :=
  congrArg Host.Outcome.next ((State.mgmt_of (f := fun s => if s.sec.recovering then s.recoveryGo else s.busRef true)
    hu hm).trans (if_pos hr))

theorem State.recoveryGo_good {s : State} (h : s.checkObj 1 s.sec.recov (s.minSvn 1) = 0) :
    s.recoveryGo = s.recovered.islandUp := by
  unfold State.recoveryGo
  simp only [h]
  rfl

theorem State.recoveryGo_bad {s : State} (h : s.checkObj 1 s.sec.recov (s.minSvn 1) ≠ 0) :
    s.recoveryGo = { s with sec := { s.sec with recov := [], mgmtRef := true } } := by
  have hb : (s.checkObj 1 s.sec.recov (s.minSvn 1) == 0) = false := by simpa using h
  unfold State.recoveryGo
  dsimp only
  rw [hb]
  rfl

theorem State.recovered_memKey (s : State) : s.recovered.memKey = s.memKey := rfl

theorem recoveryGo_good {s : State} (hu : s.busUp = true) (hm : s.fget F.PLN_MGMT_MODE = 2)
    (hr : s.sec.recovering = true) (h : s.checkObj 1 s.sec.recov (s.minSvn 1) = 0) : Completes .recoveryGo s fun t =>
      t.sec.recov = [] ∧ t.sec.recovering = false ∧ t.sec.mgmtRef = false ∧ t.fget F.PLN_BOOT_STEP = 4 ∧
      t.fget F.COL_STATUS_STATE = 1 ∧ t.flag F.SEC_POLICY_LOCK = true ∧ ∀ a, t.byte a = s.byte a := by
  refine ⟨_, (execRecoveryGo_of hu hm hr).trans (congrArg Host.Outcome.next (State.recoveryGo_good h)), ?_⟩
  have hsec := State.sec_of_butMeas s.recovered.islandUp_butMeas
  obtain ⟨hstep, hstate, hlock⟩ := s.recovered.islandUp_shows
  exact ⟨(congrArg Sec.recov hsec :), (congrArg Sec.recovering hsec :), (congrArg Sec.mgmtRef hsec :), hstep, hstate,
    hlock, State.byte_of_memKey ((State.islandUp_memKey _).trans s.recovered_memKey)⟩

theorem recoveryGo_bad {s : State} (hu : s.busUp = true) (hm : s.fget F.PLN_MGMT_MODE = 2)
    (hr : s.sec.recovering = true) (h : s.checkObj 1 s.sec.recov (s.minSvn 1) ≠ 0) : Completes .recoveryGo s fun t =>
      t.sec = { s.sec with recov := [], mgmtRef := true } ∧ { t with sec := s.sec } = s :=
  ⟨_, (execRecoveryGo_of hu hm hr).trans (congrArg Host.Outcome.next (State.recoveryGo_bad h)), rfl, rfl⟩

theorem recoveryGo_either {s : State} (hu : s.busUp = true) (hm : s.fget F.PLN_MGMT_MODE = 2)
    (hr : s.sec.recovering = true) : Completes .recoveryGo s fun t => t.sec.recov = [] ∧
      ((t.sec.mgmtRef = true ∧ t.sec.recovering = true) ∨
        (t.sec.mgmtRef = false ∧ t.sec.recovering = false ∧ t.fget F.PLN_BOOT_STEP = 4)) ∧
      ∀ a, t.byte a = s.byte a := by
  by_cases h : s.checkObj 1 s.sec.recov (s.minSvn 1) = 0
  · obtain ⟨t, ht, hrec, hing, href, hstep, -, -, hb⟩ := recoveryGo_good hu hm hr h
    exact ⟨t, ht, hrec, .inr ⟨href, hing, hstep⟩, hb⟩
  · exact ⟨_, (execRecoveryGo_of hu hm hr).trans (congrArg Host.Outcome.next (State.recoveryGo_bad h)), rfl,
      .inl ⟨rfl, hr⟩, fun _ => rfl⟩

theorem cccBroadcast_completes {s : State} (hu : s.busUp = true) (hm : s.fget F.PLN_MGMT_MODE ≠ 2) (a : BitVec 7) :
    Completes (.cccBroadcast (some a)) s fun t =>
      t.fget F.PLN_MGMT_MODE = 1 ∧ t.flag F.PLN_MGMT_DAA = true ∧ t.fget F.PLN_MGMT_DYNADDR = a.toNat ∧
      { t with regs := s.regs } = s := by
  refine ⟨_, congrArg Host.Outcome.next (if_neg (by simp [hu, hm])), ?_, ?_, ?_, rfl⟩
  · rw [State.fset_fget_apart _ _ _ _ rfl, State.setFlag_fget_apart _ _ _ _ rfl, State.fset_fget _ _ _ rfl]
    rfl
  · rw [State.fset_flag_apart _ _ _ _ rfl, State.setFlag_flag _ _ _ rfl]
  · rw [State.fset_fget _ _ _ rfl]
    exact Nat.mod_eq_of_lt a.isLt

/-! ## FAULT_N (R316) -/

theorem State.topPending_mem {s : State} {c : Nat} (h : s.topPending = some c) : c ∈ [4, 3, 2, 1] :=
  List.mem_of_find?_eq_some h

theorem State.topPending_of {s t : State} (h : t.fget F.PLN_FAULTN_PENDING = s.fget F.PLN_FAULTN_PENDING) :
    t.topPending = s.topPending := by simp only [State.topPending, h]

/-- Sending the highest pending code (R316). -/
theorem State.nextPulse_shows {s : State} (ha : s.fget F.PLN_FAULTN_ACTIVE = 0)
    (hh : s.flag F.PLN_FAULTN_HELD = false) : s.nextPulse.fget F.PLN_FAULTN_ACTIVE = s.topPending.getD 0 ∧
      (∀ c, s.topPending = some c →
        s.nextPulse.fget F.PLN_FAULTN_PENDING = s.fget F.PLN_FAULTN_PENDING - 2 ^ (c - 1)) ∧
      s.nextPulse.butRegs = s.butRegs := by
  unfold State.nextPulse
  rw [if_neg (by simp [ha, hh])]
  cases hp : s.topPending with
  | none => exact ⟨ha, fun c hc => absurd hc (by simp), rfl⟩
  | some c =>
    have hc : c < 8 := by
      have := State.topPending_mem hp
      simp only [List.mem_cons, List.not_mem_nil, or_false] at this
      omega
    refine ⟨?_, fun d hd => ?_, rfl⟩
    · rw [State.fsat_fget_apart _ _ _ _ rfl, State.fset_fget _ _ _ rfl]
      exact Nat.mod_eq_of_lt hc
    · obtain rfl : c = d := Option.some.inj hd
      rw [State.fsat_fget_apart _ _ _ _ rfl, State.fset_fget_apart _ _ _ _ rfl, State.fset_fget _ _ _ rfl]
      exact Nat.mod_eq_of_lt ((Nat.sub_le _ _).trans_lt (s.fget_lt F.PLN_FAULTN_PENDING))

theorem execFaultnPulseEnd_of {s : State} (h : s.fget F.PLN_FAULTN_ACTIVE ≠ 0) : exec .faultnPulseEnd s =
    .next (if (s.fset F.PLN_FAULTN_ACTIVE 0).flag F.TST_STATUS_OOS then
      (s.fset F.PLN_FAULTN_ACTIVE 0).setFlag F.PLN_FAULTN_HELD true else (s.fset F.PLN_FAULTN_ACTIVE 0).nextPulse) :=
  congrArg Host.Outcome.next (if_neg h)

theorem faultnPulseEnd_held {s : State} (h : s.fget F.PLN_FAULTN_ACTIVE ≠ 0) (ho : s.flag F.TST_STATUS_OOS = true) :
    Completes .faultnPulseEnd s fun t =>
      t.flag F.PLN_FAULTN_HELD = true ∧ t.fget F.PLN_FAULTN_ACTIVE = 0 ∧ { t with regs := s.regs } = s := by
  refine ⟨_, (execFaultnPulseEnd_of h).trans (congrArg Host.Outcome.next (if_pos ?_)), State.setFlag_flag _ _ _ rfl, ?_,
    rfl⟩
  · rwa [State.fset_flag_apart _ _ _ _ rfl]
  · rw [State.setFlag_fget_apart _ _ _ _ rfl, State.fset_fget _ _ _ rfl]
    rfl

theorem faultnPulseEnd_next {s : State} (h : s.fget F.PLN_FAULTN_ACTIVE ≠ 0) (ho : s.flag F.TST_STATUS_OOS = false)
    (hh : s.flag F.PLN_FAULTN_HELD = false) : Completes .faultnPulseEnd s fun t =>
      t.fget F.PLN_FAULTN_ACTIVE = s.topPending.getD 0 ∧
      (∀ c, s.topPending = some c →
        t.fget F.PLN_FAULTN_PENDING = s.fget F.PLN_FAULTN_PENDING - 2 ^ (c - 1)) ∧ { t with regs := s.regs } = s := by
  have hp : (s.fset F.PLN_FAULTN_ACTIVE 0).fget F.PLN_FAULTN_PENDING = s.fget F.PLN_FAULTN_PENDING :=
    State.fset_fget_apart _ _ _ _ rfl
  obtain ⟨h1, h2, h3⟩ := State.nextPulse_shows (s := s.fset F.PLN_FAULTN_ACTIVE 0) (State.fset_fget _ _ _ rfl)
    ((State.fset_flag_apart _ _ _ _ rfl).trans hh)
  rw [State.topPending_of hp] at h1 h2
  rw [hp] at h2
  refine ⟨_, (execFaultnPulseEnd_of h).trans (congrArg Host.Outcome.next (if_neg ?_)), h1, h2,
    State.frame_of_butRegs (h3.trans (State.fset_butRegs _ _ _))⟩
  rw [State.fset_flag_apart _ _ _ _ rfl, ho]
  decide

/-! ## The test access port (R370) -/

theorem execTap_of {s : State} (h : s.tapOpen = true) {P : State → Prop} {o : TapOp} {t : State}
    (he : exec (.testAccessPortAccess o) s = (if s.tapOpen = false then Host.Outcome.next s else .next t)) (hp : P t) :
    Completes (.testAccessPortAccess o) s P :=
  ⟨t, he.trans (if_neg (by simp [h])), hp⟩

theorem State.setTap_eng (s : State) (e : Nat) (b : Bool) :
    let t := (s.settle e).modEng e fun x => { x with halted := b, steps := 0 }
    (t.eng e).halted = b ∧ (t.eng e).steps = 0 ∧ (∀ k, t.ctx k = s.ctx k) ∧ ∀ a, t.byte a = s.byte a := by
  dsimp only
  rw [State.modEng_eng_self]
  exact ⟨rfl, rfl, fun k => s.settle_ctx e k,
    State.byte_of_memKey ((State.modEng_memKey _ _ _).trans (s.settle_memKey e))⟩

theorem tap_memRead {s : State} (h : s.tapOpen = true) {x : BitVec 48} (hw : s.memWaits x.toNat = false)
    (hr : s.readable (x.toNat / 4 * 4) = true) : Completes (.testAccessPortAccess (.memRead x)) s fun t =>
      t.tapOut = s.stored (x.toNat / 4 * 4) ∧ ∀ b, t.byte b = s.byte b := by
  refine execTap_of h rfl ?_
  rw [if_neg (by simp [hw])]
  exact ⟨State.readAt_of_readable hr true true .arm 0xFFFF, State.byte_of_memKey (State.readW_memKey _ _ _ _)⟩

theorem tap_memWrite {s : State} (h : s.tapOpen = true) {x : BitVec 48} (v : BitVec 32)
    (hw : s.memWaits x.toNat = false) (hr : s.readable (x.toNat / 4 * 4) = true) :
    Completes (.testAccessPortAccess (.memWrite x v)) s fun t =>
      t.stored (x.toNat / 4 * 4) = ⟨v, false⟩ ∧ ∀ b, b / 4 ≠ x.toNat / 4 * 4 / 4 → t.byte b = s.byte b := by
  refine execTap_of h rfl ?_
  rw [if_neg (by simp [hw]), State.writeW, State.writeAt_of_readable hr]
  exact ⟨State.stored_store _ _ (by omega), fun b hb => (State.store_byte_other _ _ _ _ hb).trans
    (State.byte_of_memKey (State.cacheTouch_memKey _ _ _) b)⟩

/-- Settles O55. -/
theorem managementAndTestPorts : Obligations.ManagementAndTestPorts := by
  unfold Obligations.ManagementAndTestPorts
  intro s
  refine ⟨fun hu hm => ⟨mgmtAddr_completes hu hm, fun k hk => ⟨_, execMgmtRead_reg hu hm hk, rfl, rfl, rfl⟩,
      mgmtWrite_addr hu hm, mgmtStatus_completes hu hm, fun hr => ⟨fun d => recovery_completes hu hm hr,
        recoveryGo_good hu hm hr, recoveryGo_bad hu hm hr, recoveryGo_either hu hm hr⟩⟩,
    cccBroadcast_completes, fun ha => ⟨faultnPulseEnd_held ha, faultnPulseEnd_next ha⟩,
    fun o hc => ⟨s, if_pos hc, rfl⟩, fun ho => ⟨if_neg (by simp [ho]), execTap_of ho rfl rfl, fun e => ⟨?_, fun hh =>
      ?_, ?_⟩,
      fun x v hw hr => ⟨tap_memRead ho hw hr, tap_memWrite ho v hw hr⟩,
      fun a v => ⟨execTap_of ho rfl rfl, execTap_of ho rfl rfl⟩⟩⟩
  · exact execTap_of ho rfl (s.setTap_eng e.key true)
  · refine execTap_of ho rfl ?_
    rw [State.modEng_eng_self, if_pos hh]
    exact ⟨rfl, rfl⟩
  · obtain ⟨h1, -, -, h2⟩ := s.setTap_eng e.key false
    exact execTap_of ho rfl ⟨h1, h2⟩

end Sys2Proof.Machine
end

section
/-! SUPPORT. Burin's commands: starting one, reading its object and ending it (R362, R363, R373, R375). -/
namespace Sys2Proof.Machine

/-! ## Reads on Burin's behalf -/

/-- `t` is `s` after reads of memory that Burin makes for a command: only what reads record, and SEC_CMD, may differ. -/
def State.quiet (s t : State) : Prop :=
  t.butRecords = s.butRecords ∧ ∀ k, recordReg k = false → k ≠ Reg.SEC_CMD → t.reg k = s.reg k

theorem State.quiet.trans {s t u : State} (h : s.quiet t) (g : t.quiet u) : s.quiet u :=
  ⟨g.1.trans h.1, fun k h1 h2 => (g.2 k h1 h2).trans (h.2 k h1 h2)⟩

theorem State.quiet_refl (s : State) : s.quiet s := ⟨rfl, fun _ _ _ => rfl⟩

theorem State.readBytes_quiet (s : State) (g : BitVec 64) (n : Nat) : s.quiet (s.readBytes g n).2 :=
  ⟨s.readBytes_butRecords g n, fun _ hk _ => State.reg_of_calmRegs (s.readBytes_calmRegs g n) hk⟩

/-- The state in which the operation `op` runs. -/
def State.commanded (s : State) (op : Nat) (tgt : Bool) : State := s.setReg Reg.SEC_CMD (secWord op tgt)

theorem State.commanded_quiet (s : State) (op : Nat) (tgt : Bool) : s.quiet (s.commanded op tgt) :=
  ⟨State.setReg_butRecords _ _ _, fun _ _ h => (State.setReg_reg _ _ _ _).trans (if_neg h)⟩

theorem State.takeObj_quiet (s : State) (typ n floor : Nat) : s.quiet (s.takeObj typ n floor).2.2 := by
  have h := s.readBytes_quiet s.secAddr n
  unfold State.takeObj
  split
  · exact s.quiet_refl
  · split
    next heq => rwa [heq] at h
    next heq => rwa [heq] at h

theorem State.checkObj_lt (s : State) (typ : Nat) (o : List (BitVec 8)) (floor : Nat) : s.checkObj typ o floor < 16
  := by
  unfold State.checkObj
  dsimp only
  (repeat' split) <;> decide

theorem State.takeObj_lt (s : State) (typ n floor : Nat) : (s.takeObj typ n floor).1 < 16 := by
  unfold State.takeObj
  split
  · exact (by decide : 8 < 16)
  · split
    · exact (by decide : 6 < 16)
    next o t _ => exact (t.checkObj_lt typ o floor :)

namespace State.quiet
variable {s t : State} (h : s.quiet t)
include h

theorem reg {k : Nat} (hk : recordReg k = false) (hc : k ≠ Reg.SEC_CMD) : t.reg k = s.reg k := h.2 k hk hc

theorem fget {f : Fld} (hk : recordReg f.key = false) (hc : f.key ≠ Reg.SEC_CMD) : t.fget f = s.fget f :=
  State.fget_of_reg (h.reg hk hc)

theorem flag {f : Fld} (hk : recordReg f.key = false) (hc : f.key ≠ Reg.SEC_CMD) : t.flag f = s.flag f :=
  State.flag_of_reg (h.reg hk hc)

theorem sec : t.sec = s.sec := State.sec_of_butRecords h.1

theorem memKey : t.memKey = s.memKey := (congrArg State.memKey h.1 :)

theorem nonce : t.nonce = s.nonce := by
  have hr : ∀ k ∈ [0, 1, 2, 3], t.reg (Reg.SEC_NONCE k) = s.reg (Reg.SEC_NONCE k) := fun k hk =>
    h.reg ((show ∀ k ∈ [0, 1, 2, 3], recordReg (Reg.SEC_NONCE k) = false by decide) k hk)
      ((show ∀ k ∈ [0, 1, 2, 3], Reg.SEC_NONCE k ≠ Reg.SEC_CMD by decide) k hk)
  simp only [State.nonce, List.flatMap_cons, List.flatMap_nil, hr 0 (by decide), hr 1 (by decide), hr 2 (by decide),
    hr 3 (by decide)]

theorem checkObj (typ : Nat) (o : List (BitVec 8)) (floor : Nat) : t.checkObj typ o floor = s.checkObj typ o floor :=
  State.checkObj_of h.sec h.nonce typ o floor

theorem checkCal (o : List (BitVec 8)) : t.checkCal o = s.checkCal o := by
  simp only [State.checkCal, h.checkObj, h.flag (f := F.SEC_POLICY_CALSIG) (by decide) (by decide)]

theorem minSvn (k : Nat) : t.minSvn k = s.minSvn k := by
  simp only [State.minSvn, h.sec, h.fget (f := F.SEC_BOOT_ISL_SVN) (by decide) (by decide),
    h.fget (f := F.SEC_BOOT_ARM_SVN) (by decide) (by decide)]

theorem bootSlot (arm : Bool) : t.bootSlot arm = s.bootSlot arm := by
  simp only [State.bootSlot, h.fget (f := F.SEC_BOOT_ISL_SLOT) (by decide) (by decide),
    h.fget (f := F.SEC_BOOT_ARM_SLOT) (by decide) (by decide)]

end State.quiet

/-! ## A command's end -/

/-- The command that `s` runs has completed in `t` with RESULT `res`. -/
def State.secEnded (s : State) (res : Nat) (t : State) : Prop :=
  t.flag F.SEC_STATUS_BUSY = false ∧ t.fget F.SEC_STATUS_RESULT = res ∧
    t.fget F.SEC_STATUS_SEQ = (s.fget F.SEC_STATUS_SEQ + 1) % 2 ^ 16

theorem State.secDone_butRegs (s : State) (res : Nat) : (s.secDone res).butRegs = s.butRegs := rfl

theorem State.secDone_reg (s : State) (res : Nat) {k : Nat} (h : k ≠ Reg.SEC_STATUS) : (s.secDone res).reg k = s.reg
  k :=
  (State.fset_reg_ne _ _ _ _ h).trans ((State.fset_reg_ne _ _ _ _ h).trans (State.fset_reg_ne _ _ _ _ h))

/-- Completing a command shows its RESULT and counts it; the body keeps SEC_STATUS. -/
theorem State.secDone_ended {s t : State} {res : Nat} (h : res < 16)
    (hs : t.reg Reg.SEC_STATUS = s.reg Reg.SEC_STATUS) : s.secEnded res (t.secDone res) := by
  refine ⟨?_, ?_, ?_⟩
  · rw [State.secDone, State.fwrap, State.fset_flag_apart _ _ _ _ rfl, State.fset_flag_apart _ _ _ _ rfl,
      State.setFlag_flag _ _ _ rfl]
  · rw [State.secDone, State.fwrap_fget_apart _ _ _ _ rfl, State.fset_fget _ _ _ rfl]
    exact Nat.mod_eq_of_lt h
  · rw [State.secDone, State.fwrap_fget _ _ _ rfl, State.fset_fget_apart _ _ _ _ rfl,
      State.setFlag_fget_apart _ _ _ _ rfl, State.fget_of_reg (f := F.SEC_STATUS_SEQ) hs]
    rfl

theorem secWord_op : ∀ (op : Fin 16) (tgt : Bool), (secWord op tgt).toNat / 2 ^ 28 = op ∧
    secWord op tgt &&& 0xF8000000 = secWord op tgt ∧ (secWord op tgt).getLsbD 27 = tgt := by decide

/-- A command Armature starts while Burin is not busy (R373, R375). -/
theorem State.writeSec_of {s : State} (hb : s.flag F.SEC_STATUS_BUSY = false) (op : Fin 16) (tgt : Bool) (n : Nat) :
    s.writeSec .armature (secWord op tgt) n = (s.commanded op tgt).secRun op tgt n := by
  obtain ⟨h1, h2, h3⟩ := secWord_op op tgt
  unfold State.writeSec
  rw [if_neg (by simp [State.mayCmd]), if_neg (by simp [hb]), h1, h2, h3]
  rfl

/-! ## The nonce -/

theorem State.newNonce_eq (s : State) : ∃ n : BitVec 128, s.newNonce =
    ((((({ s with sec := { s.sec with draws := s.sec.draws + 1 } } : State).setReg (Reg.SEC_NONCE 0)
      (n.extractLsb' 0 32)).setReg (Reg.SEC_NONCE 1) (n.extractLsb' 32 32)).setReg (Reg.SEC_NONCE 2)
      (n.extractLsb' 64 32)).setReg (Reg.SEC_NONCE 3) (n.extractLsb' 96 32)) := ⟨_, rfl⟩

theorem State.newNonce_sec (s : State) : s.newNonce.sec = { s.sec with draws := s.sec.draws + 1 } := rfl

theorem State.newNonce_reg (s : State) {k : Nat} (h : ∀ i < 4, k ≠ Reg.SEC_NONCE i) : s.newNonce.reg k = s.reg k :=
  List.foldlRecOn (motive := fun t : State => t.reg k = s.reg k) _ _ rfl fun t ht i hi =>
    ((State.setReg_reg _ _ _ _).trans (if_neg (h i (by
      simp only [List.mem_cons, List.not_mem_nil, or_false] at hi
      omega)))).trans ht

/-! ## Debug levels and the lifecycle (R361, R367, R371, R387) -/

theorem State.leaveDebug_butRegs (s : State) : s.leaveDebug.butRegs = s.butRegs := by
  unfold State.leaveDebug
  split <;> rfl

theorem State.leaveDebug_reg (s : State) {k : Nat} (h1 : k ≠ Reg.DBG_LEVEL) (h2 : k ≠ Reg.PLN_FACET) :
    s.leaveDebug.reg k = s.reg k := by
  unfold State.leaveDebug
  split
  · exact (State.fset_reg_ne _ _ _ _ h2).trans (State.fset_reg_ne _ _ _ _ h1)
  · rfl

theorem State.leaveDebug_facet (s : State) : s.leaveDebug.flag F.DBG_LEVEL_FACET = false := by
  unfold State.leaveDebug
  split
  · rw [State.fset_flag_apart _ _ _ _ rfl, State.setFlag_flag _ _ _ rfl]
  next h => simpa using h

theorem State.leaveDebug_fget (s : State) {f : Fld} (h1 : F.DBG_LEVEL_FACET.apart f = true)
    (h2 : F.PLN_FACET_PHASE.apart f = true) : s.leaveDebug.fget f = s.fget f := by
  unfold State.leaveDebug
  split
  · rw [State.fset_fget_apart _ _ _ _ h2, State.setFlag_fget_apart _ _ _ _ h1]
  · rfl

/-- The engines the debugger halted, released as the level changes. -/
def State.freed (s : State) (old : Nat) : State :=
  let s := if old = 2 then { s.leaveDebug with
      engines := s.engines.map fun (p : Nat × Engine) => (p.1, { p.2 with halted := false, steps := 0 }) } else s
  { s with engines := s.engines.filter fun (p : Nat × Engine) => p.2 ≠ ({} : Engine) }

theorem State.setLevel_eq (s : State) (n : Nat) : s.setLevel n = if n = s.fget F.DBG_LEVEL_LEVEL then s else
    ((s.freed (s.fget F.DBG_LEVEL_LEVEL)).fset F.DBG_LEVEL_LEVEL n).measure 6
      (Config.eventDigest (s.freed (s.fget F.DBG_LEVEL_LEVEL)).sec.life n) := rfl

/-- Everything but the registers, the engines and what Burin has measured. -/
def State.butLevel (s : State) : State := { s with regs := [], engines := [], sec := { s.sec with meas := [] } }

theorem State.butLevel_of_butMeas {s t : State} (h : t.butMeas = s.butMeas) : t.butLevel = s.butLevel :=
  (congrArg State.butLevel h :)

theorem State.sec_of_butLevel {s t : State} (h : t.butLevel = s.butLevel) : t.sec.butMeas = s.sec.butMeas :=
  (congrArg State.sec h :)

theorem State.freed_butLevel (s : State) (n : Nat) : (s.freed n).butLevel = s.butLevel := by
  unfold State.freed
  dsimp only
  split
  · exact (congrArg State.butLevel s.leaveDebug_butRegs :)
  · rfl

theorem State.freed_regs (s : State) (n : Nat) : (s.freed n).regs = (if n = 2 then s.leaveDebug else s).regs := by
  unfold State.freed
  dsimp only
  split <;> rfl

theorem State.reg_of_regs {s t : State} (h : t.regs = s.regs) (k : Nat) : t.reg k = s.reg k := by
  simp only [State.reg, h]

theorem State.setLevel_butLevel (s : State) (n : Nat) : (s.setLevel n).butLevel = s.butLevel := by
  rw [State.setLevel_eq]
  split
  · rfl
  · exact s.freed_butLevel (s.fget F.DBG_LEVEL_LEVEL)

theorem State.setLevel_reg (s : State) (n : Nat) {k : Nat} (h1 : k ≠ Reg.DBG_LEVEL) (h2 : k ≠ Reg.PLN_FACET) :
    (s.setLevel n).reg k = s.reg k := by
  rw [State.setLevel_eq]
  split
  · rfl
  · refine (State.fset_reg_ne _ _ _ _ h1).trans ((State.reg_of_regs (s.freed_regs _) k).trans ?_)
    split
    · exact s.leaveDebug_reg h1 h2
    · rfl

theorem State.setLevel_level (s : State) {n : Nat} (h : n < 4) : (s.setLevel n).fget F.DBG_LEVEL_LEVEL = n := by
  rw [State.setLevel_eq]
  split
  next hn => exact hn.symm
  next =>
    exact (State.fset_fget (s.freed (s.fget F.DBG_LEVEL_LEVEL)) F.DBG_LEVEL_LEVEL n rfl).trans (Nat.mod_eq_of_lt h)

/-- Entering FULL from a lower level keeps the facet balls as they were. -/
theorem State.setLevel_facet {s : State} {n : Nat} (h : s.flag F.DBG_LEVEL_FACET = false) :
    (s.setLevel n).flag F.DBG_LEVEL_FACET = false := by
  rw [State.setLevel_eq]
  split
  · exact h
  · refine (State.fset_flag_apart (s.freed (s.fget F.DBG_LEVEL_LEVEL)) F.DBG_LEVEL_LEVEL F.DBG_LEVEL_FACET n
    rfl).trans ?_
    refine (State.flag_of_reg (State.reg_of_regs (s.freed_regs _) _)).trans ?_
    split
    · exact s.leaveDebug_facet
    · exact h

theorem State.setLevel_fget (s : State) (n : Nat) {f : Fld} (h1 : F.DBG_LEVEL_FACET.apart f = true)
    (h2 : F.PLN_FACET_PHASE.apart f = true) (h3 : F.DBG_LEVEL_LEVEL.apart f = true) :
    (s.setLevel n).fget f = s.fget f := by
  rw [State.setLevel_eq]
  split
  · rfl
  · refine (State.fset_fget_apart (s.freed (s.fget F.DBG_LEVEL_LEVEL)) F.DBG_LEVEL_LEVEL f n h3).trans ?_
    refine (State.fget_of_reg (State.reg_of_regs (s.freed_regs _) _)).trans ?_
    split
    · exact s.leaveDebug_fget h1 h2
    · rfl

theorem State.eraseKeys_reg (s : State) {k : Nat} (h : ∀ p < 12, k ≠ (F.WPL_STATUS_ENC p).key) :
    s.eraseKeys.reg k = s.reg k :=
  List.foldlRecOn (motive := fun t : State => t.reg k = s.reg k) _ _ rfl fun _ ht p hp =>
    (State.fset_reg_ne _ _ _ _ (h p (List.mem_range.mp hp))).trans ht

/-- Everything but the registers and the ports. -/
def State.butPorts (s : State) : State := { s with regs := [], ports := [] }

theorem State.modPort_butPorts (s : State) (p : Nat) (f : Port → Port) : (s.modPort p f).butPorts = s.butPorts := rfl

theorem State.setFlag_butPorts (s : State) (f : Fld) (b : Bool) : (s.setFlag f b).butPorts = s.butPorts := rfl

theorem State.eraseKeys_butPorts (s : State) : s.eraseKeys.butPorts = s.butPorts :=
  List.foldlRecOn (motive := fun t : State => t.butPorts = s.butPorts) _ _ rfl fun t ht p _ =>
    (State.setFlag_butPorts _ _ _).trans ((t.modPort_butPorts p _).trans ht)

theorem State.sec_of_butPorts {s t : State} (h : t.butPorts = s.butPorts) : t.sec = s.sec := (congrArg State.sec h :)

/-- Burin's state beside its measurements and what a change of lifecycle state sets. -/
def Sec.butLife (x : Sec) : Sec := { x with meas := [], life := 0, attKey := false, udsBlocked := false, udsGone :=
  false }

/-- The package just before the new lifecycle state is written (R361, R367). -/
def State.leavingLife (s : State) (new : Nat) (measured : Bool) : State :=
  let s := (s.setLevel (min (s.fget F.DBG_LEVEL_LEVEL) (s.lifeMax new))).leaveDebug
  let s := if measured then s else s.measure 6 (Config.eventDigest new (s.fget F.DBG_LEVEL_LEVEL))
  if 3 ≤ new then s.eraseKeys else s

/-- Burin's state after a change of lifecycle state. -/
def Sec.changed (x : Sec) (new : Nat) : Sec :=
  { x with life := new, attKey := x.attKey && decide (new < 3), udsBlocked := x.udsBlocked || new == 3,
           udsGone := x.udsGone || new == 4 }

theorem State.lifeChange_eq (s : State) (new : Nat) (m : Bool) : s.lifeChange new m =
    (({ s.leavingLife new m with sec := (s.leavingLife new m).sec.changed new } : State).fset F.SEC_LIFE_STATE
      new).setFlag
      F.SEC_LIFE_ZEROED false := rfl

theorem State.leavingLife_sec (s : State) (new : Nat) (m : Bool) : (s.leavingLife new m).sec.butMeas = s.sec.butMeas
  := by
  have h : ((s.setLevel (min (s.fget F.DBG_LEVEL_LEVEL) (s.lifeMax new))).leaveDebug).sec.butMeas = s.sec.butMeas :=
    (congrArg Sec.butMeas (State.sec_of_butRegs (State.leaveDebug_butRegs _))).trans
      (State.sec_of_butLevel (s.setLevel_butLevel _))
  unfold State.leavingLife
  dsimp only
  generalize (s.setLevel (min (s.fget F.DBG_LEVEL_LEVEL) (s.lifeMax new))).leaveDebug = t at *
  have hk (u : State) : (if 3 ≤ new then u.eraseKeys else u).sec = u.sec := by
    split
    · exact State.sec_of_butPorts u.eraseKeys_butPorts
    · rfl
  rw [hk]
  cases m <;> exact h

theorem State.leavingLife_reg (s : State) (new : Nat) (m : Bool) {k : Nat} (h1 : k ≠ Reg.DBG_LEVEL)
    (h2 : k ≠ Reg.PLN_FACET) (h3 : ∀ p < 12, k ≠ (F.WPL_STATUS_ENC p).key) : (s.leavingLife new m).reg k = s.reg k := by
  have h : ((s.setLevel (min (s.fget F.DBG_LEVEL_LEVEL) (s.lifeMax new))).leaveDebug).reg k = s.reg k :=
    (State.leaveDebug_reg _ h1 h2).trans (s.setLevel_reg _ h1 h2)
  unfold State.leavingLife
  dsimp only
  generalize (s.setLevel (min (s.fget F.DBG_LEVEL_LEVEL) (s.lifeMax new))).leaveDebug = t at *
  have hk (u : State) : (if 3 ≤ new then u.eraseKeys else u).reg k = u.reg k := by
    split
    · exact u.eraseKeys_reg h3
    · rfl
  rw [hk]
  cases m <;> exact h

theorem State.lifeChange_sec (s : State) (new : Nat) (m : Bool) :
    (s.lifeChange new m).sec = (s.leavingLife new m).sec.changed new := by
  rw [State.lifeChange_eq]
  rfl

/-- A change of lifecycle state (R361, R367, R372): the new state and what goes with it; the rest of Burin's state
  beside
the measurements stays. -/
theorem State.lifeChange_life (s : State) (new : Nat) (m : Bool) : (s.lifeChange new m).sec.life = new ∧
    (s.lifeChange new m).sec.attKey = (s.sec.attKey && decide (new < 3)) ∧
    (s.lifeChange new m).sec.udsGone = (s.sec.udsGone || new == 4) ∧
    (s.lifeChange new m).sec.butLife = s.sec.butLife := by
  have h := s.leavingLife_sec new m
  rw [State.lifeChange_sec]
  exact ⟨rfl, congrArg (· && decide (new < 3)) (congrArg Sec.attKey h :), congrArg (· || new == 4)
    (congrArg Sec.udsGone h :), (congrArg Sec.butLife h :)⟩

theorem State.lifeChange_shows (s : State) {new : Nat} (m : Bool) (h : new < 8) :
    (s.lifeChange new m).fget F.SEC_LIFE_STATE = new := by
  rw [State.lifeChange_eq, State.setFlag_fget_apart _ _ _ _ rfl, State.fset_fget _ _ _ rfl]
  exact Nat.mod_eq_of_lt h

theorem State.lifeChange_reg (s : State) (new : Nat) (m : Bool) {k : Nat} (h1 : k ≠ Reg.DBG_LEVEL)
    (h2 : k ≠ Reg.PLN_FACET) (h3 : ∀ p < 12, k ≠ (F.WPL_STATUS_ENC p).key) (h4 : k ≠ Reg.SEC_LIFE) :
    (s.lifeChange new m).reg k = s.reg k := by
  rw [State.lifeChange_eq]
  exact (State.fset_reg_ne _ _ _ _ h4).trans ((State.fset_reg_ne _ _ _ _ h4).trans (s.leavingLife_reg new m h1 h2 h3))

end Sys2Proof.Machine
end

section
/-! SUPPORT. Burin's commands on releases, retirement, attestation, records and fuses, and the debug levels (R361 to
  R364,
R371, R375, R387). -/
namespace Sys2Proof.Machine

/-! ## Release and retirement (R367, R375) -/

/-- What a release object sets, its nonce used up, before it readmits the package. -/
def State.namesReleased (s : State) (o : List (BitVec 8)) : State :=
  { s.newNonce with sec := { s.newNonce.sec with
      relDies := s.newNonce.sec.relDies ||| BitVec.ofNat 4 (fieldOf o 0 4),
      relClu := (List.range 4).map fun d =>
        s.newNonce.sec.relClu.getD d 0 ||| BitVec.ofNat 24 (fieldOf o (4 + 3 * d) (7 + 3 * d)) } }

/-- The package back in service (R375, R388), before FAULT_N rises. -/
def State.readmitted (s : State) : State :=
  let s := (s.setFlag F.TST_STATUS_OOS false).fset F.TST_ESC_WARM7D 0
  ({ s with resets := Sparse.set (fun _ => []) s.resets 0xE0000000 [] } : State).setFlag F.PLN_FAULTN_HELD false

/-- What a release object does. -/
def State.released (s : State) (o : List (BitVec 8)) : State :=
  if (BitVec.ofNat 32 (fieldOf o 0 4)).getLsbD 8 then (s.namesReleased o).readmitted.nextPulse else s.namesReleased o

theorem State.releaseCmd_eq {s : State} (h : s.sec.life ≠ 4) : s.releaseCmd =
    if (s.takeObj 6 176 0).1 ≠ 0 then ((s.takeObj 6 176 0).1, (s.takeObj 6 176 0).2.2)
    else (0, (s.takeObj 6 176 0).2.2.released (s.takeObj 6 176 0).2.1) := by
  unfold State.releaseCmd State.released
  rw [if_neg h]
  generalize s.takeObj 6 176 0 = x
  obtain ⟨r, o, t⟩ := x
  dsimp only
  split
  · rfl
  · split <;> rfl

theorem State.nextPulse_reg (s : State) {k : Nat} (h : k ≠ Reg.PLN_FAULTN) : s.nextPulse.reg k = s.reg k := by
  unfold State.nextPulse
  split
  · rfl
  · split
    · rfl
    · exact (State.fset_reg_ne _ _ _ _ h).trans ((State.fset_reg_ne _ _ _ _ h).trans (State.fset_reg_ne _ _ _ _ h))

theorem State.nextPulse_butRegs (s : State) : s.nextPulse.butRegs = s.butRegs := by
  unfold State.nextPulse
  split
  · rfl
  · split <;> rfl

theorem State.readmitted_reg (s : State) {k : Nat} (h1 : k ≠ Reg.TST_STATUS) (h2 : k ≠ Reg.TST_ESC)
    (h3 : k ≠ Reg.PLN_FAULTN) : s.readmitted.reg k = s.reg k :=
  (State.fset_reg_ne _ _ _ _ h3).trans ((State.fset_reg_ne _ _ _ _ h2).trans (State.fset_reg_ne _ _ _ _ h1))

theorem State.readmitted_sec (s : State) : s.readmitted.sec = s.sec := rfl

theorem State.readmitted_memKey (s : State) : s.readmitted.memKey = s.memKey := rfl

theorem nonceRegs_ne {k : Nat} (h : k ∉ [Reg.SEC_NONCE 0, Reg.SEC_NONCE 1, Reg.SEC_NONCE 2, Reg.SEC_NONCE 3]) :
    ∀ i < 4, k ≠ Reg.SEC_NONCE i := fun i hi e => h (by
  rw [e]
  exact (show ∀ i : Fin 4, Reg.SEC_NONCE i ∈ [Reg.SEC_NONCE 0, Reg.SEC_NONCE 1, Reg.SEC_NONCE 2, Reg.SEC_NONCE 3] by
    decide) ⟨i, hi⟩)

theorem State.namesReleased_memKey (s : State) (o : List (BitVec 8)) : (s.namesReleased o).memKey = s.memKey := rfl

theorem State.namesReleased_reg (s : State) (o : List (BitVec 8)) {k : Nat} (h : ∀ i < 4, k ≠ Reg.SEC_NONCE i) :
    (s.namesReleased o).reg k = s.reg k :=
  s.newNonce_reg h

theorem State.readmitted_in (s : State) : s.readmitted.nextPulse.flag F.TST_STATUS_OOS = false ∧
    s.readmitted.nextPulse.fget F.TST_ESC_WARM7D = 0 := by
  constructor
  · rw [State.flag_of_reg (s.readmitted.nextPulse_reg (by decide)), State.readmitted,
      State.setFlag_flag_apart _ _ _ _ rfl]
    refine (State.fset_flag_apart (s.setFlag F.TST_STATUS_OOS false) _ _ _ rfl).trans ?_
    exact State.setFlag_flag _ _ _ rfl
  · rw [State.fget_of_reg (s.readmitted.nextPulse_reg (by decide)), State.readmitted,
      State.setFlag_fget_apart _ _ _ _ rfl]
    exact State.fset_fget (s.setFlag F.TST_STATUS_OOS false) _ _ rfl

theorem State.released_sec (s : State) (o : List (BitVec 8)) : (s.released o).sec = (s.namesReleased o).sec := by
  unfold State.released
  split
  · exact (State.sec_of_butRegs (State.nextPulse_butRegs _)).trans (State.readmitted_sec _)
  · rfl

theorem State.released_memKey (s : State) (o : List (BitVec 8)) : (s.released o).memKey = s.memKey := by
  unfold State.released
  split
  · exact (State.nextPulse_memKey _).trans ((State.readmitted_memKey _).trans (s.namesReleased_memKey o))
  · exact s.namesReleased_memKey o

theorem State.released_reg (s : State) (o : List (BitVec 8)) {k : Nat} (h : ∀ i < 4, k ≠ Reg.SEC_NONCE i)
    (h1 : k ≠ Reg.TST_STATUS) (h2 : k ≠ Reg.TST_ESC) (h3 : k ≠ Reg.PLN_FAULTN) : (s.released o).reg k = s.reg k := by
  unfold State.released
  split
  · exact (State.nextPulse_reg _ h3).trans ((State.readmitted_reg _ h1 h2 h3).trans (s.namesReleased_reg o h))
  · exact s.namesReleased_reg o h

theorem State.released_service (s : State) (o : List (BitVec 8)) :
    ((fieldOf o 0 4).testBit 8 = true → (s.released o).flag F.TST_STATUS_OOS = false ∧
      (s.released o).fget F.TST_ESC_WARM7D = 0) ∧
    ((fieldOf o 0 4).testBit 8 = false → (s.released o).flag F.TST_STATUS_OOS = s.flag F.TST_STATUS_OOS) := by
  have hb : (BitVec.ofNat 32 (fieldOf o 0 4)).getLsbD 8 = (fieldOf o 0 4).testBit 8 := by
    rw [BitVec.getLsbD_ofNat]
    simp
  unfold State.released
  rw [hb]
  constructor
  · intro h
    rw [if_pos h]
    exact State.readmitted_in _
  · intro h
    rw [if_neg (by simp [h])]
    exact State.flag_of_reg (s.namesReleased_reg o (nonceRegs_ne (by decide)))

/-- A command's completion: its RESULT, and all but SEC_STATUS as its body left it. -/
theorem completes_secEnd {i : Instr} {s : State} {x : Nat × State} {P : State → Prop} (he : exec i s = .next (secEnd x))
    (hr : x.1 < 16) (hs : x.2.reg Reg.SEC_STATUS = s.reg Reg.SEC_STATUS)
    (hp : ∀ t : State, s.secEnded x.1 t → t.butRegs = x.2.butRegs → (∀ k, k ≠ Reg.SEC_STATUS → t.reg k = x.2.reg k) →
      P t) : Completes i s P :=
  ⟨_, he, hp _ (State.secDone_ended hr hs) (State.secDone_butRegs _ _) fun _ h => State.secDone_reg _ _ h⟩

theorem exec_secCmd {s : State} (hb : s.flag F.SEC_STATUS_BUSY = false) {i : Instr} {op : Fin 16} {tgt : Bool} {n : Nat}
    (h : exec i s = .next (s.writeSec .armature (secWord op tgt) n)) :
    exec i s = .next ((s.commanded op tgt).secRun op tgt n) :=
  h.trans (congrArg Host.Outcome.next (State.writeSec_of hb op tgt n))

theorem State.byte_of_butRegs {s t : State} (h : t.butRegs = s.butRegs) (a : Nat) : t.byte a = s.byte a :=
  State.byte_of_memKey (State.memKey_of_butRegs h) a

/-- An object that Burin reads and checks for the operation `op`. -/
def State.objTaken (s : State) (op : Fin 16) (typ n floor : Nat) : Nat × List (BitVec 8) × State :=
  (s.commanded op false).takeObj typ n floor

theorem State.objTaken_quiet (s : State) (op : Fin 16) (typ n floor : Nat) : s.quiet (s.objTaken op typ n floor).2.2 :=
  (s.commanded_quiet op false).trans (State.takeObj_quiet _ _ _ _)

theorem State.objTaken_lt (s : State) (op : Fin 16) (typ n floor : Nat) : (s.objTaken op typ n floor).1 < 16 :=
  State.takeObj_lt _ _ _ _

theorem exec_releaseQuar {s : State} (hb : s.flag F.SEC_STATUS_BUSY = false) (hl : s.sec.life ≠ 4) :
    exec (.releaseQuar .armature) s = .next (secEnd (if (s.objTaken 8 6 176 0).1 ≠ 0 then
      ((s.objTaken 8 6 176 0).1, (s.objTaken 8 6 176 0).2.2)
      else (0, (s.objTaken 8 6 176 0).2.2.released (s.objTaken 8 6 176 0).2.1))) :=
  (exec_secCmd hb (op := 8) rfl).trans (congrArg (fun x => Host.Outcome.next (secEnd x))
    (State.releaseCmd_eq (s := s.commanded 8 false) hl))

/-- What a release object that checks does to Burin's state. -/
theorem State.namesReleased_sec {s u : State} (h : s.quiet u) (o : List (BitVec 8)) :
    (u.namesReleased o).sec.relDies = s.sec.relDies ||| BitVec.ofNat 4 (fieldOf o 0 4) ∧
    ∀ d, d < 4 → (u.namesReleased o).sec.relClu.getD d 0 =
      s.sec.relClu.getD d 0 ||| BitVec.ofNat 24 (fieldOf o (4 + 3 * d) (7 + 3 * d)) := by
  rw [← h.sec]
  refine ⟨rfl, fun d hd => ?_⟩
  have hl : (u.namesReleased o).sec.relClu = (List.range 4).map fun d =>
      u.sec.relClu.getD d 0 ||| BitVec.ofNat 24 (fieldOf o (4 + 3 * d) (7 + 3 * d)) := rfl
  rw [hl, List.getD_eq_getElem?_getD, List.getElem?_map, List.getElem?_range hd]
  rfl

theorem releaseQuar_taken {s : State} (hb : s.flag F.SEC_STATUS_BUSY = false) {o : List (BitVec 8)}
    (hl : s.sec.life ≠ 4) (h0 : (s.objTaken 8 6 176 0).1 = 0) (ho : (s.objTaken 8 6 176 0).2.1 = o) :
    Completes (.releaseQuar .armature) s fun t => s.secEnded 0 t ∧
      t.sec.relDies = s.sec.relDies ||| BitVec.ofNat 4 (fieldOf o 0 4) ∧
      (∀ d, d < 4 → t.sec.relClu.getD d 0 = s.sec.relClu.getD d 0 ||| BitVec.ofNat 24 (fieldOf o (4 + 3 * d) (7 + 3 *
        d))) ∧
      ((fieldOf o 0 4).testBit 8 = true → t.flag F.TST_STATUS_OOS = false ∧ t.fget F.TST_ESC_WARM7D = 0) ∧
      ((fieldOf o 0 4).testBit 8 = false → t.flag F.TST_STATUS_OOS = s.flag F.TST_STATUS_OOS) ∧
      ∀ a, t.byte a = s.byte a := by
  have he := exec_releaseQuar hb hl
  have hq := s.objTaken_quiet 8 6 176 0
  rw [h0, if_neg (by decide), ho] at he
  generalize (s.objTaken 8 6 176 0).2.2 = u at *
  refine completes_secEnd he (by decide : 0 < 16)
    ((u.released_reg o (nonceRegs_ne (by decide)) (by decide) (by decide) (by decide)).trans
      (hq.reg (by decide) (by decide))) fun t hd hbr hr => ?_
  have hsec : t.sec = (u.namesReleased o).sec := (State.sec_of_butRegs hbr).trans (u.released_sec o)
  obtain ⟨hdies, hclu⟩ := State.namesReleased_sec hq o
  obtain ⟨hin, hout⟩ := u.released_service o
  have hoos : t.flag F.TST_STATUS_OOS = (u.released o).flag F.TST_STATUS_OOS := State.flag_of_reg (hr _ (by decide))
  refine ⟨hd, hsec ▸ hdies, hsec ▸ hclu, fun h => ⟨hoos.trans (hin h).1, ?_⟩, fun h => ?_, fun a => ?_⟩
  · exact (State.fget_of_reg (hr _ (by decide))).trans (hin h).2
  · exact hoos.trans ((hout h).trans (hq.flag (by decide) (by decide)))
  · exact (State.byte_of_butRegs hbr a).trans (State.byte_of_memKey ((u.released_memKey o).trans hq.memKey) a)

theorem releaseQuar_either {s : State} (hb : s.flag F.SEC_STATUS_BUSY = false) (hl : s.sec.life ≠ 4) :
    Completes (.releaseQuar .armature) s fun t => ∃ res, s.secEnded res t ∧
      (res ≠ 0 → t.sec.relDies = s.sec.relDies ∧ t.sec.relClu = s.sec.relClu ∧
        t.flag F.TST_STATUS_OOS = s.flag F.TST_STATUS_OOS) ∧
      ∀ d, s.sec.relDies.getLsbD d = true → t.sec.relDies.getLsbD d = true := by
  by_cases h0 : (s.objTaken 8 6 176 0).1 = 0
  · obtain ⟨t, ht, hd, hdies, -⟩ := releaseQuar_taken hb hl h0 rfl
    refine ⟨t, ht, 0, hd, fun h => absurd rfl h, fun d hs => ?_⟩
    rw [hdies, BitVec.getLsbD_or, hs, Bool.true_or]
  · have hq := s.objTaken_quiet 8 6 176 0
    have he := exec_releaseQuar hb hl
    rw [if_pos h0] at he
    refine completes_secEnd he (s.objTaken_lt _ _ _ _) (hq.reg (by decide) (by decide)) fun t hd hbr hr =>
      ⟨_, hd, fun _ => ?_, ?_⟩
    · have hsec : t.sec = s.sec := (State.sec_of_butRegs hbr).trans hq.sec
      exact ⟨congrArg Sec.relDies hsec, congrArg Sec.relClu hsec, (State.flag_of_reg (hr _ (by decide))).trans
        (hq.flag (by decide) (by decide))⟩
    · rw [((State.sec_of_butRegs hbr).trans hq.sec : t.sec = s.sec)]
      exact fun _ h => h

/-- Leaving service (R367, R388) keeps Burin's state and every register but its own. -/
theorem State.outOfService_spec (s : State) : s.outOfService.sec = s.sec ∧ s.outOfService.flag F.TST_STATUS_OOS = true ∧
    ∀ k, recordReg k = false → k ≠ Reg.TST_STATUS → k ≠ Reg.TST_DUMP → s.outOfService.reg k = s.reg k := by
  unfold State.outOfService
  split
  next h => exact ⟨rfl, h, fun _ _ _ _ => rfl⟩
  next =>
    have hev := (s.setFlag F.TST_STATUS_OOS true).event_calmRegs 0x12 0xE0000000 (BitVec.ofNat 32 4) 0 0
    have hsec := State.sec_of_butRecords (((s.setFlag F.TST_STATUS_OOS true).event_butRecords 0x12 0xE0000000
      (BitVec.ofNat 32 4) 0 0).trans (State.setFlag_butRecords _ _ _))
    unfold State.recovery
    generalize (s.setFlag F.TST_STATUS_OOS true).event 0x12 0xE0000000 (BitVec.ofNat 32 4) 0 0 = u at *
    obtain ⟨db, -, -, -, -, dr⟩ := u.dump_spec 6 [] (by decide)
    generalize u.dump 6 [] = v at *
    have hvu : v.sec = u.sec := (congrArg State.sec db :)
    have hv : v.sec = s.sec := hvu.trans hsec
    have hreg (k : Nat) (hk : recordReg k = false) (hd : k ≠ Reg.TST_DUMP) :
        v.reg k = (s.setFlag F.TST_STATUS_OOS true).reg k := (dr k hd).trans (State.reg_of_calmRegs hev hk)
    have hoos : v.flag F.TST_STATUS_OOS = true :=
      (State.flag_of_reg (hreg _ (by decide) (by decide))).trans (State.setFlag_flag _ _ _ rfl)
    have hkeep (k : Nat) (hk : recordReg k = false) (h1 : k ≠ Reg.TST_STATUS) (h2 : k ≠ Reg.TST_DUMP) :
        v.reg k = s.reg k := (hreg k hk h2).trans (State.fset_reg_ne _ _ _ _ h1)
    dsimp only
    split
    · refine ⟨hv, ?_, fun k hk h1 h2 => ?_⟩
      · rw [State.setFlag_flag_apart _ _ _ _ rfl, hoos]
      · refine (State.fset_reg_ne _ _ _ _ ?_).trans (hkeep k hk h1 h2)
        exact fun e => absurd (e ▸ hk) (by decide)
    · exact ⟨hv, hoos, hkeep⟩

/-- The package as a retirement object leaves it. -/
def State.ended (s : State) : State := (s.newNonce.lifeChange 4 false).outOfService

theorem State.retireCmd_eq {s : State} (h0 : s.sec.life ≠ 0) (h4 : s.sec.life ≠ 4) : s.retireCmd =
    if (s.takeObj 7 160 0).1 ≠ 0 then ((s.takeObj 7 160 0).1, (s.takeObj 7 160 0).2.2)
    else (0, (s.takeObj 7 160 0).2.2.ended) := by
  unfold State.retireCmd State.ended
  rw [if_neg (by simp [h0, h4])]

theorem wplStatus_ne {k : Nat} (h : k < 0x100000) : ∀ p < 12, k ≠ (F.WPL_STATUS_ENC p).key := by
  intro p _
  simp only [F.WPL_STATUS_ENC, Reg.WPL_STATUS]
  omega

theorem State.ended_spec (s : State) : s.ended.sec.life = 4 ∧ s.ended.fget F.SEC_LIFE_STATE = 4 ∧
    s.ended.sec.udsGone = true ∧ s.ended.sec.attKey = false ∧ s.ended.flag F.TST_STATUS_OOS = true ∧
    s.ended.reg Reg.SEC_STATUS = s.reg Reg.SEC_STATUS := by
  obtain ⟨hlife, hkey, hgone, -⟩ := s.newNonce.lifeChange_life 4 false
  have hstate := s.newNonce.lifeChange_shows (new := 4) false (by decide)
  have hreg := s.newNonce.lifeChange_reg 4 false (k := Reg.SEC_STATUS) (by decide) (by decide)
    (wplStatus_ne (by decide)) (by decide)
  unfold State.ended
  generalize s.newNonce.lifeChange 4 false = t at *
  obtain ⟨hsec, hoos, hr⟩ := t.outOfService_spec
  rw [hsec]
  refine ⟨hlife, (State.fget_of_reg (hr _ (by decide) (by decide) (by decide))).trans hstate, ?_, ?_, hoos, ?_⟩
  · rw [hgone, beq_self_eq_true, Bool.or_true]
  · rw [hkey, show decide (4 < 3) = false from rfl, Bool.and_false]
  · exact (hr _ (by decide) (by decide) (by decide)).trans (hreg.trans (s.newNonce_reg (nonceRegs_ne (by decide))))

theorem exec_retirePkg {s : State} (hb : s.flag F.SEC_STATUS_BUSY = false) (h0 : s.sec.life ≠ 0) (h4 : s.sec.life ≠ 4) :
    exec (.retirePkg .armature) s = .next (secEnd (if (s.objTaken 9 7 160 0).1 ≠ 0 then
      ((s.objTaken 9 7 160 0).1, (s.objTaken 9 7 160 0).2.2) else (0, (s.objTaken 9 7 160 0).2.2.ended))) :=
  (exec_secCmd hb (op := 9) rfl).trans (congrArg (fun x => Host.Outcome.next (secEnd x))
    (State.retireCmd_eq (s := s.commanded 9 false) h0 h4))

theorem retirePkg_taken {s : State} (hb : s.flag F.SEC_STATUS_BUSY = false) (h0 : s.sec.life ≠ 0)
    (h4 : s.sec.life ≠ 4) (hx : (s.objTaken 9 7 160 0).1 = 0) : Completes (.retirePkg .armature) s fun t =>
      s.secEnded 0 t ∧ t.sec.life = 4 ∧ t.fget F.SEC_LIFE_STATE = 4 ∧ t.sec.udsGone = true ∧ t.sec.attKey = false ∧
      t.flag F.TST_STATUS_OOS = true := by
  have he := exec_retirePkg hb h0 h4
  have hq := s.objTaken_quiet 9 7 160 0
  rw [hx, if_neg (by decide)] at he
  generalize (s.objTaken 9 7 160 0).2.2 = u at *
  obtain ⟨hlife, hstate, hgone, hkey, hoos, hst⟩ := u.ended_spec
  refine completes_secEnd he (by decide : 0 < 16) (hst.trans (hq.reg (by decide) (by decide))) fun t hd hbr hr => ?_
  have hsec : t.sec = u.ended.sec := State.sec_of_butRegs hbr
  rw [hsec]
  exact ⟨hd, hlife, (State.fget_of_reg (hr _ (by decide))).trans hstate, hgone, hkey,
    (State.flag_of_reg (hr _ (by decide))).trans hoos⟩

theorem retirePkg_either {s : State} (hb : s.flag F.SEC_STATUS_BUSY = false) (h0 : s.sec.life ≠ 0)
    (h4 : s.sec.life ≠ 4) : Completes (.retirePkg .armature) s fun t => ∃ res, s.secEnded res t ∧
      (res ≠ 0 → t.sec.life = s.sec.life ∧ t.flag F.TST_STATUS_OOS = s.flag F.TST_STATUS_OOS) ∧
      (res = 0 → t.sec.life = 4 ∧ t.sec.udsGone = true ∧ t.sec.attKey = false ∧ t.flag F.TST_STATUS_OOS = true) := by
  by_cases hx : (s.objTaken 9 7 160 0).1 = 0
  · obtain ⟨t, ht, hd, hlife, -, hgone, hkey, hoos⟩ := retirePkg_taken hb h0 h4 hx
    exact ⟨t, ht, 0, hd, fun h => absurd rfl h, fun _ => ⟨hlife, hgone, hkey, hoos⟩⟩
  · have hq := s.objTaken_quiet 9 7 160 0
    have he := exec_retirePkg hb h0 h4
    rw [if_pos hx] at he
    refine completes_secEnd he (s.objTaken_lt _ _ _ _) (hq.reg (by decide) (by decide)) fun t hd hbr hr =>
      ⟨_, hd, fun _ => ⟨?_, ?_⟩, fun h => absurd h hx⟩
    · rw [State.sec_of_butRegs hbr, hq.sec]
    · exact (State.flag_of_reg (hr _ (by decide))).trans (hq.flag (by decide) (by decide))

end Sys2Proof.Machine
end

section
/-! SUPPORT. Burin's records, fuses, report and measurement, and the debug levels (R361 to R364, R371, R375, R387). -/
namespace Sys2Proof.Machine

/-! ## A body that keeps everything but Burin's state -/

/-- A command whose body leaves memory and SEC_STATUS as reads left them. -/
theorem completes_quietBody {i : Instr} {s : State} {x : Nat × State} {P : State → Prop}
    (he : exec i s = .next (secEnd x)) (hr : x.1 < 16) (hs : x.2.reg Reg.SEC_STATUS = s.reg Reg.SEC_STATUS)
    (hm : x.2.memKey = s.memKey)
    (hp : ∀ t : State, s.secEnded x.1 t → t.sec = x.2.sec → (∀ k, k ≠ Reg.SEC_STATUS → t.reg k = x.2.reg k) →
      (∀ a, t.byte a = s.byte a) → P t) : Completes i s P :=
  completes_secEnd he hr hs fun t hd hb hk => hp t hd (State.sec_of_butRegs hb) hk fun a =>
    (State.byte_of_butRegs hb a).trans (State.byte_of_memKey hm a)

/-- A command refused after its reads: nothing but what reads record changes. -/
theorem completes_refused {i : Instr} {s u : State} {r : Nat} {P : State → Prop} (he : exec i s = .next (u.secDone r))
    (hr : r < 16) (hq : s.quiet u)
    (hp : ∀ t : State, s.secEnded r t → t.sec = s.sec → (∀ k, recordReg k = false → k ≠ Reg.SEC_CMD →
      k ≠ Reg.SEC_STATUS → t.reg k = s.reg k) → (∀ a, t.byte a = s.byte a) → P t) : Completes i s P :=
  completes_quietBody (x := (r, u)) he hr (hq.reg (by decide) (by decide)) hq.memKey fun t hd hsec hk hb =>
    hp t hd (hsec.trans hq.sec) (fun k h1 h2 h3 => (hk k h3).trans (hq.reg h1 h2)) hb

/-! ## The boot configuration record -/

theorem exec_bootcfg {s : State} (hb : s.flag F.SEC_STATUS_BUSY = false) : exec (.bootcfg .armature) s = .next (secEnd
    (if (s.objTaken 12 8 4096 0).1 ≠ 0 then ((s.objTaken 12 8 4096 0).1, (s.objTaken 12 8 4096 0).2.2)
      else (0, { (s.objTaken 12 8 4096 0).2.2 with sec := { (s.objTaken 12 8 4096 0).2.2.sec with
        bootcfg := some (s.objTaken 12 8 4096 0).2.1 } }))) :=
  exec_secCmd hb (op := 12) rfl

theorem bootcfg_taken {s : State} (hb : s.flag F.SEC_STATUS_BUSY = false) {o : List (BitVec 8)}
    (h0 : (s.objTaken 12 8 4096 0).1 = 0) (ho : (s.objTaken 12 8 4096 0).2.1 = o) :
    Completes (.bootcfg .armature) s fun t =>
      s.secEnded 0 t ∧ t.sec.bootcfg = some o ∧ ∀ a, t.byte a = s.byte a := by
  have he := exec_bootcfg hb
  have hq := s.objTaken_quiet 12 8 4096 0
  rw [h0, if_neg (by decide), ho] at he
  generalize (s.objTaken 12 8 4096 0).2.2 = u at *
  exact completes_quietBody he (by decide : 0 < 16) (hq.reg (by decide) (by decide)) hq.memKey
    fun t hd hsec _ hm => ⟨hd, hsec ▸ rfl, hm⟩

theorem bootcfg_either {s : State} (hb : s.flag F.SEC_STATUS_BUSY = false) : Completes (.bootcfg .armature) s fun t =>
    ∃ res, s.secEnded res t ∧ (res ≠ 0 → t.sec.bootcfg = s.sec.bootcfg) ∧ (res = 0 → t.sec.bootcfg.isSome = true) ∧
      ∀ a, t.byte a = s.byte a := by
  by_cases h0 : (s.objTaken 12 8 4096 0).1 = 0
  · obtain ⟨t, ht, hd, hc, hm⟩ := bootcfg_taken hb h0 rfl
    exact ⟨t, ht, 0, hd, fun h => absurd rfl h, fun _ => by rw [hc]; rfl, hm⟩
  · have he := exec_bootcfg hb
    rw [if_pos h0] at he
    exact completes_refused he (s.objTaken_lt _ _ _ _) (s.objTaken_quiet _ _ _ _) fun t hd hsec _ hm =>
      ⟨_, hd, fun _ => congrArg Sec.bootcfg hsec, fun h => absurd h h0, hm⟩

/-! ## Fused minima (R363) -/

/-- Raises the fused minimum of a type. -/
def State.raiseSvn (s : State) (k v : Nat) : State :=
  if k = 1 then s.fset F.SEC_BOOT_ISL_SVN v else if k = 2 then s.fset F.SEC_BOOT_ARM_SVN v
  else { s with sec := { s.sec with svnCap := v } }

theorem State.raiseSvn_memKey (s : State) (k v : Nat) : (s.raiseSvn k v).memKey = s.memKey := by
  unfold State.raiseSvn
  split
  · rfl
  · split <;> rfl

theorem State.raiseSvn_reg (s : State) (k v : Nat) {i : Nat} (h : i ≠ Reg.SEC_BOOT) :
    (s.raiseSvn k v).reg i = s.reg i := by
  unfold State.raiseSvn
  split
  · exact State.fset_reg_ne _ _ _ _ h
  · split
    · exact State.fset_reg_ne _ _ _ _ h
    · rfl

theorem State.minSvn_lt (s : State) : s.minSvn 1 < 2 ^ 7 ∧ s.minSvn 2 < 2 ^ 7 :=
  ⟨s.fget_lt F.SEC_BOOT_ISL_SVN, s.fget_lt F.SEC_BOOT_ARM_SVN⟩

/-- Of the three minima the one named takes the value and the others stay. -/
theorem State.raiseSvn_minSvn (s : State) {k v : Nat} (h1 : 1 ≤ k) (h3 : k ≤ 3) (hv : k ≠ 3 → v < 2 ^ 7) (j : Nat) :
    (s.raiseSvn k v).minSvn j = if (j = 1 ∨ j = 2 → j = k) ∧ (¬(j = 1 ∨ j = 2) → k = 3) then v else s.minSvn j := by
  obtain rfl | rfl | rfl : k = 1 ∨ k = 2 ∨ k = 3 := by omega
  · by_cases e1 : j = 1
    · subst e1
      rw [if_pos (by omega)]
      exact (State.fset_fget s F.SEC_BOOT_ISL_SVN v rfl).trans (Nat.mod_eq_of_lt (hv (by decide)))
    · rw [if_neg (by omega)]
      by_cases e2 : j = 2
      · subst e2
        exact State.fset_fget_apart s F.SEC_BOOT_ISL_SVN F.SEC_BOOT_ARM_SVN v rfl
      · simp only [State.minSvn, e1, e2, if_false]
        rfl
  · by_cases e2 : j = 2
    · subst e2
      rw [if_pos (by omega)]
      exact (State.fset_fget s F.SEC_BOOT_ARM_SVN v rfl).trans (Nat.mod_eq_of_lt (hv (by decide)))
    · rw [if_neg (by omega)]
      by_cases e1 : j = 1
      · subst e1
        exact State.fset_fget_apart s F.SEC_BOOT_ARM_SVN F.SEC_BOOT_ISL_SVN v rfl
      · simp only [State.minSvn, e1, e2, if_false]
        rfl
  · by_cases e1 : j = 1
    · subst e1
      rw [if_neg (by omega)]
      rfl
    · by_cases e2 : j = 2
      · subst e2
        rw [if_neg (by omega)]
        rfl
      · rw [if_pos (by omega)]
        simp only [State.minSvn, e1, e2, if_false]
        rfl

theorem State.minSvn_of {s t : State} (hr : t.reg Reg.SEC_BOOT = s.reg Reg.SEC_BOOT) (hs : t.sec = s.sec) (k : Nat) :
    t.minSvn k = s.minSvn k := by
  simp only [State.minSvn, hs, State.fget_of_reg (f := F.SEC_BOOT_ISL_SVN) hr,
    State.fget_of_reg (f := F.SEC_BOOT_ARM_SVN) hr]

theorem exec_svn {s : State} (hb : s.flag F.SEC_STATUS_BUSY = false) : exec (.svn .armature) s = .next (secEnd
    (if (s.objTaken 13 9 164 0).1 ≠ 0 then ((s.objTaken 13 9 164 0).1, (s.objTaken 13 9 164 0).2.2)
      else if fieldOf (s.objTaken 13 9 164 0).2.1 0 4 = 0 ∨ 3 < fieldOf (s.objTaken 13 9 164 0).2.1 0 4 then
        (6, (s.objTaken 13 9 164 0).2.2)
      else if 64 < objSvn (s.objTaken 13 9 164 0).2.1 then (4, (s.objTaken 13 9 164 0).2.2)
      else (0, (s.objTaken 13 9 164 0).2.2.raiseSvn (fieldOf (s.objTaken 13 9 164 0).2.1 0 4)
        (max (objSvn (s.objTaken 13 9 164 0).2.1)
          ((s.objTaken 13 9 164 0).2.2.minSvn (fieldOf (s.objTaken 13 9 164 0).2.1 0 4)))))) :=
  exec_secCmd hb (op := 13) rfl

theorem svn_taken {s : State} (hb : s.flag F.SEC_STATUS_BUSY = false) {o : List (BitVec 8)}
    (h0 : (s.objTaken 13 9 164 0).1 = 0) (ho : (s.objTaken 13 9 164 0).2.1 = o) (h1 : 1 ≤ fieldOf o 0 4)
    (h3 : fieldOf o 0 4 ≤ 3) (hv : objSvn o ≤ 64) : Completes (.svn .armature) s fun t => s.secEnded 0 t ∧
      t.minSvn (fieldOf o 0 4) = max (objSvn o) (s.minSvn (fieldOf o 0 4)) ∧
      (∀ j, (1 ≤ j → j ≤ 3 → j ≠ fieldOf o 0 4 → t.minSvn j = s.minSvn j) ∧ s.minSvn j ≤ t.minSvn j) ∧
      ∀ a, t.byte a = s.byte a := by
  have he := exec_svn hb
  have hq := s.objTaken_quiet 13 9 164 0
  rw [h0, ho, if_neg (by decide), if_neg (by omega), if_neg (by omega), hq.minSvn] at he
  generalize (s.objTaken 13 9 164 0).2.2 = u at *
  refine completes_quietBody he (by decide : 0 < 16) ((u.raiseSvn_reg _ _ (by decide)).trans
    (hq.reg (by decide) (by decide))) ((u.raiseSvn_memKey _ _).trans hq.memKey) fun t hd hsec hk hm => ?_
  obtain ⟨l1, l2⟩ := s.minSvn_lt
  have hj (j : Nat) := (State.minSvn_of (hk _ (by decide)) hsec j).trans (u.raiseSvn_minSvn (v := max (objSvn o)
    (s.minSvn (fieldOf o 0 4))) h1 h3 (fun h => by
      obtain e | e : fieldOf o 0 4 = 1 ∨ fieldOf o 0 4 = 2 := by omega
      · rw [e]; omega
      · rw [e]; omega) j)
  simp only [hq.minSvn] at hj
  refine ⟨hd, ?_, fun j => ⟨fun j1 j3 hne => ?_, ?_⟩, hm⟩
  · rw [hj, if_pos (by omega)]
  · rw [hj, if_neg (by omega)]
  · rw [hj]
    split
    next hc =>
      have : s.minSvn j = s.minSvn (fieldOf o 0 4) := by
        by_cases e : j = 1 ∨ j = 2
        · rw [hc.1 e]
        · rw [hc.2 e]
          simp only [State.minSvn, not_or] at e ⊢
          rw [if_neg e.1, if_neg e.2]
          rfl
      omega
    · exact le_refl _

theorem svn_either {s : State} (hb : s.flag F.SEC_STATUS_BUSY = false) : Completes (.svn .armature) s fun t =>
    ∃ res, s.secEnded res t ∧ (∀ k, s.minSvn k ≤ t.minSvn k) ∧ (res ≠ 0 → ∀ k, t.minSvn k = s.minSvn k) ∧
      ∀ a, t.byte a = s.byte a := by
  have hq := s.objTaken_quiet 13 9 164 0
  have refused (r : Nat) (hr : r < 16)
      (he : exec (.svn .armature) s = .next ((s.objTaken 13 9 164 0).2.2.secDone r)) : Completes (.svn .armature) s
        fun t =>
        ∃ res, s.secEnded res t ∧ (∀ k, s.minSvn k ≤ t.minSvn k) ∧ (res ≠ 0 → ∀ k, t.minSvn k = s.minSvn k) ∧
          ∀ a, t.byte a = s.byte a :=
    completes_refused he hr hq fun t hd hsec hk hm => by
      have h := State.minSvn_of (hk Reg.SEC_BOOT (by decide) (by decide) (by decide)) hsec
      exact ⟨r, hd, fun k => (h k).ge, fun _ => h, hm⟩
  have he := exec_svn hb
  by_cases h0 : (s.objTaken 13 9 164 0).1 = 0
  · rw [if_neg (not_not.2 h0)] at he
    by_cases h1 : fieldOf (s.objTaken 13 9 164 0).2.1 0 4 = 0 ∨ 3 < fieldOf (s.objTaken 13 9 164 0).2.1 0 4
    · rw [if_pos h1] at he
      exact refused 6 (by decide) he
    · rw [if_neg h1] at he
      by_cases h2 : 64 < objSvn (s.objTaken 13 9 164 0).2.1
      · rw [if_pos h2] at he
        exact refused 4 (by decide) he
      · obtain ⟨t, ht, hd, -, hj, hm⟩ := svn_taken hb h0 rfl (by omega) (by omega) (by omega)
        exact ⟨t, ht, 0, hd, fun k => (hj k).2, fun h => absurd rfl h, hm⟩
  · rw [if_pos h0] at he
    exact refused _ (s.objTaken_lt _ _ _ _) he

/-! ## Revocation (R362) -/

theorem exec_keyrev {s : State} (hb : s.flag F.SEC_STATUS_BUSY = false) : exec (.keyrev .armature) s = .next (secEnd
    (if (s.objTaken 15 10 164 0).1 ≠ 0 then ((s.objTaken 15 10 164 0).1, (s.objTaken 15 10 164 0).2.2)
      else if 8 ≤ fieldOf (s.objTaken 15 10 164 0).2.1 0 4 then (6, (s.objTaken 15 10 164 0).2.2)
      else if fieldOf (s.objTaken 15 10 164 0).2.1 0 4 = objKey (s.objTaken 15 10 164 0).2.1 then
        (2, (s.objTaken 15 10 164 0).2.2)
      else (0, { (s.objTaken 15 10 164 0).2.2 with sec := { (s.objTaken 15 10 164 0).2.2.sec with
        revoked := (s.objTaken 15 10 164 0).2.2.sec.revoked ||| (1#8 <<< fieldOf (s.objTaken 15 10 164 0).2.1 0 4) }
          }))) :=
  exec_secCmd hb (op := 15) rfl

theorem keyrev_taken {s : State} (hb : s.flag F.SEC_STATUS_BUSY = false) {o : List (BitVec 8)}
    (h0 : (s.objTaken 15 10 164 0).1 = 0) (ho : (s.objTaken 15 10 164 0).2.1 = o) (h8 : fieldOf o 0 4 < 8)
    (hk : fieldOf o 0 4 ≠ objKey o) : Completes (.keyrev .armature) s fun t => s.secEnded 0 t ∧
      t.sec.revoked = s.sec.revoked ||| (1#8 <<< fieldOf o 0 4) ∧ ∀ a, t.byte a = s.byte a := by
  have he := exec_keyrev hb
  have hq := s.objTaken_quiet 15 10 164 0
  rw [h0, ho, if_neg (by decide), if_neg (by omega), if_neg hk] at he
  generalize (s.objTaken 15 10 164 0).2.2 = u at *
  refine completes_quietBody he (by decide : 0 < 16) (hq.reg (by decide) (by decide)) hq.memKey
    fun t hd hsec _ hm => ⟨hd, ?_, hm⟩
  rw [hsec, ← hq.sec]

theorem keyrev_either {s : State} (hb : s.flag F.SEC_STATUS_BUSY = false) : Completes (.keyrev .armature) s fun t =>
    ∃ res, s.secEnded res t ∧ (res ≠ 0 → t.sec.revoked = s.sec.revoked) ∧
      (∀ k, s.sec.revoked.getLsbD k = true → t.sec.revoked.getLsbD k = true) ∧ ∀ a, t.byte a = s.byte a := by
  have hq := s.objTaken_quiet 15 10 164 0
  have refused (r : Nat) (hr : r < 16)
      (he : exec (.keyrev .armature) s = .next ((s.objTaken 15 10 164 0).2.2.secDone r)) :
      Completes (.keyrev .armature) s fun t =>
        ∃ res, s.secEnded res t ∧ (res ≠ 0 → t.sec.revoked = s.sec.revoked) ∧
          (∀ k, s.sec.revoked.getLsbD k = true → t.sec.revoked.getLsbD k = true) ∧ ∀ a, t.byte a = s.byte a :=
    completes_refused he hr hq fun t hd hsec _ hm => ⟨r, hd, fun _ => congrArg Sec.revoked hsec, fun k h => by rwa
      [hsec],
      hm⟩
  have he := exec_keyrev hb
  by_cases h0 : (s.objTaken 15 10 164 0).1 = 0
  · rw [if_neg (not_not.2 h0)] at he
    by_cases h1 : 8 ≤ fieldOf (s.objTaken 15 10 164 0).2.1 0 4
    · rw [if_pos h1] at he
      exact refused 6 (by decide) he
    · rw [if_neg h1] at he
      by_cases h2 : fieldOf (s.objTaken 15 10 164 0).2.1 0 4 = objKey (s.objTaken 15 10 164 0).2.1
      · rw [if_pos h2] at he
        exact refused 2 (by decide) he
      · obtain ⟨t, ht, hd, hr, hm⟩ := keyrev_taken hb h0 rfl (by omega) h2
        refine ⟨t, ht, 0, hd, fun h => absurd rfl h, fun k hs => ?_, hm⟩
        rw [hr, BitVec.getLsbD_or, hs, Bool.true_or]
  · rw [if_pos h0] at he
    exact refused _ (s.objTaken_lt _ _ _ _) he

/-! ## Calibration overlays (R359) -/

/-- The overlay that Burin checks: with its signature block when one follows the entries (log entry 52). -/
def overlayOf (n : Nat) (o : List (BitVec 8)) (b : Option (List (BitVec 8))) : List (BitVec 8) :=
  match b with
  | some b => if fieldOf b n (n + 4) = 4 then b else o
  | none => o

/-- The end of OVERLAY, with the overlay that was read. -/
def State.stageCal (s : State) (x : List (BitVec 8)) : Nat × State :=
  if s.checkCal x ≠ 0 then (s.checkCal x, s)
  else (0, ({ s with sec := { s.sec with staged := some x } } : State).setFlag F.INS_CAL_STAGED true)

theorem exec_overlay {s : State} (hb : s.flag F.SEC_STATUS_BUSY = false) : exec (.overlay .armature) s =
    .next (secEnd (s.commanded 11 false).overlayCmd) := exec_secCmd hb (op := 11) rfl

theorem State.overlayCmd_of {s s2 s3 : State} {h o : List (BitVec 8)} (e1 : s.readBytes s.secAddr 64 = (some h, s2))
    (hh : ¬(fieldOf h 0 4 ≠ 1 ∨ fieldOf h 4 8 = 0 ∨ 4096 < fieldOf h 4 8))
    (e2 : s2.readBytes s2.secAddr (calLen h) = (some o, s3)) : s.overlayCmd =
      (s3.readBytes s3.secAddr (calLen h + 160)).2.stageCal
        (overlayOf (calLen h) o (s3.readBytes s3.secAddr (calLen h + 160)).1) := by
  unfold State.overlayCmd
  rw [e1]
  dsimp only
  rw [if_neg hh, e2]
  rfl

theorem State.checkCal_lt (s : State) (o : List (BitVec 8)) : s.checkCal o < 16 := by
  unfold State.checkCal
  dsimp only
  split
  · decide
  · split
    · exact s.checkObj_lt _ _ _
    · split <;> decide

theorem State.stageCal_reg (s : State) (x : List (BitVec 8)) : (s.stageCal x).2.reg Reg.SEC_STATUS =
    s.reg Reg.SEC_STATUS := by
  unfold State.stageCal
  split
  · rfl
  · exact State.fset_reg_ne _ _ _ _ (by decide)

theorem State.stageCal_memKey (s : State) (x : List (BitVec 8)) : (s.stageCal x).2.memKey = s.memKey := by
  unfold State.stageCal
  split <;> rfl

theorem overlay_taken {s s2 s3 : State} (hb : s.flag F.SEC_STATUS_BUSY = false) {h o : List (BitVec 8)}
    (e1 : (s.commanded 11 false).readBytes (s.commanded 11 false).secAddr 64 = (some h, s2))
    (hh : ¬(fieldOf h 0 4 ≠ 1 ∨ fieldOf h 4 8 = 0 ∨ 4096 < fieldOf h 4 8))
    (e2 : s2.readBytes s2.secAddr (calLen h) = (some o, s3)) :
    let x := overlayOf (calLen h) o (s3.readBytes s3.secAddr (calLen h + 160)).1
    Completes (.overlay .armature) s fun t => s.secEnded (s.checkCal x) t ∧
      (s.checkCal x = 0 → t.sec.staged = some x ∧ t.flag F.INS_CAL_STAGED = true) ∧
      (s.checkCal x ≠ 0 → t.sec.staged = s.sec.staged) ∧ ∀ a, t.byte a = s.byte a := by
  intro x
  have q1 := (s.commanded 11 false).readBytes_quiet (s.commanded 11 false).secAddr 64
  have q2 := s2.readBytes_quiet s2.secAddr (calLen h)
  rw [e1] at q1
  rw [e2] at q2
  have hq := (((s.commanded_quiet 11 false).trans q1).trans q2).trans
    (s3.readBytes_quiet s3.secAddr (calLen h + 160))
  have he := (exec_overlay hb).trans (congrArg (fun x => Host.Outcome.next (secEnd x)) (State.overlayCmd_of e1 hh e2))
  change _ = Host.Outcome.next (secEnd (State.stageCal _ x)) at he
  generalize (s3.readBytes s3.secAddr (calLen h + 160)).2 = u at *
  have hres : (u.stageCal x).1 = s.checkCal x := by
    unfold State.stageCal
    rw [← hq.checkCal]
    split
    · rfl
    next h => exact (not_not.1 h).symm
  refine completes_quietBody he (by rw [hres]; exact s.checkCal_lt x)
    ((u.stageCal_reg x).trans (hq.reg (by decide) (by decide))) ((u.stageCal_memKey x).trans hq.memKey)
    fun t hd hsec hk hm => ⟨hres ▸ hd, fun h0 => ?_, fun h0 => ?_, hm⟩
  · have hx : u.stageCal x = (0, ({ u with sec := { u.sec with staged := some x } } : State).setFlag F.INS_CAL_STAGED
        true) := if_neg (not_not.2 ((hq.checkCal x).trans h0))
    rw [hx] at hsec hk
    exact ⟨by rw [hsec]; rfl, (State.flag_of_reg (hk _ (by decide))).trans (State.setFlag_flag _ _ _ rfl)⟩
  · have hx : u.stageCal x = (u.checkCal x, u) := if_pos (by rwa [hq.checkCal x])
    rw [hsec, hx, hq.sec]

/-- An overlay of which a read fails, or whose head is wrong, is refused. -/
theorem overlay_unread {s u : State} (hx : (s.commanded 11 false).overlayCmd = (6, u))
    (hb : s.flag F.SEC_STATUS_BUSY = false) (hq : s.quiet u) : Completes (.overlay .armature) s fun t =>
      ∃ res, s.secEnded res t ∧ (res ≠ 0 → t.sec.staged = s.sec.staged) ∧
        (res = 0 → t.sec.staged.isSome = true ∧ t.flag F.INS_CAL_STAGED = true) ∧ ∀ a, t.byte a = s.byte a :=
  completes_refused ((exec_overlay hb).trans (congrArg (fun x => Host.Outcome.next (secEnd x)) hx)) (by decide : 6 < 16)
    hq fun _ hd hsec _ hm => ⟨6, hd, fun _ => congrArg Sec.staged hsec, fun h => absurd h (by decide), hm⟩

theorem overlay_either {s : State} (hb : s.flag F.SEC_STATUS_BUSY = false) : Completes (.overlay .armature) s fun t =>
    ∃ res, s.secEnded res t ∧ (res ≠ 0 → t.sec.staged = s.sec.staged) ∧
      (res = 0 → t.sec.staged.isSome = true ∧ t.flag F.INS_CAL_STAGED = true) ∧ ∀ a, t.byte a = s.byte a := by
  have q0 := s.commanded_quiet 11 false
  have q1 := q0.trans ((s.commanded 11 false).readBytes_quiet (s.commanded 11 false).secAddr 64)
  rcases e1 : (s.commanded 11 false).readBytes (s.commanded 11 false).secAddr 64 with ⟨_ | h, s2⟩
  · rw [e1] at q1
    exact overlay_unread (by unfold State.overlayCmd; rw [e1]) hb q1
  · rw [e1] at q1
    by_cases hh : fieldOf h 0 4 ≠ 1 ∨ fieldOf h 4 8 = 0 ∨ 4096 < fieldOf h 4 8
    · exact overlay_unread (by unfold State.overlayCmd; rw [e1]; exact if_pos hh) hb q1
    · have q2 := q1.trans (s2.readBytes_quiet s2.secAddr (calLen h))
      rcases e2 : s2.readBytes s2.secAddr (calLen h) with ⟨_ | o, s3⟩
      · rw [e2] at q2
        exact overlay_unread (by unfold State.overlayCmd; rw [e1]; dsimp only; rw [if_neg hh, e2]) hb q2
      · obtain ⟨t, ht, hd, h0, h1, hm⟩ := overlay_taken hb e1 hh e2
        refine ⟨t, ht, _, hd, h1, fun hr => ?_, hm⟩
        obtain ⟨hs, hf⟩ := h0 hr
        exact ⟨by rw [hs]; rfl, hf⟩

/-! ## The report and measurement 7 (R361, R364) -/

theorem exec_attest {s : State} (hb : s.flag F.SEC_STATUS_BUSY = false) : exec (.attest .armature) s =
    .next (secEnd (s.commanded 10 false).attest) := exec_secCmd hb (op := 10) rfl

theorem attest_none {s : State} (hb : s.flag F.SEC_STATUS_BUSY = false) (hk : s.sec.attKey = false) :
    Completes (.attest .armature) s fun t => s.secEnded 8 t ∧ { t with regs := s.regs } = s := by
  have hx : (s.commanded 10 false).attest = (8, s.commanded 10 false) := if_pos hk
  have he := (exec_attest hb).trans (congrArg (fun x => Host.Outcome.next (secEnd x)) hx)
  exact completes_secEnd he (by decide : 8 < 16) ((s.commanded_quiet 10 false).reg (by decide) (by decide))
    fun t hd hbr _ => ⟨hd, State.frame_of_butRegs (hbr.trans (State.setReg_butRegs _ _ _))⟩

/-- The report's state: the report written where its nonce lay. -/
def State.reported (s : State) (n : List (BitVec 8)) : State :=
  s.writeN .arm (pkgOf s.secAddr) (s.secAddr.toNat % 2 ^ 48)
    (byteWords (s.report456 n ++ (List.range 96).map (Config.attSig (s.report456 n))))

theorem State.attest_of {s s' : State} {n : List (BitVec 8)} (hk : s.sec.attKey = true)
    (e : s.readBytes s.secAddr 32 = (some n, s')) :
    s.attest = (0, { s'.reported n with sec := { (s'.reported n).sec with report := true } }) := by
  unfold State.attest State.reported
  rw [if_neg (by simp [hk]), e]

theorem attest_done {s s' : State} {n : List (BitVec 8)} (hb : s.flag F.SEC_STATUS_BUSY = false)
    (hk : s.sec.attKey = true)
    (e : (s.commanded 10 false).readBytes (s.commanded 10 false).secAddr 32 = (some n, s')) :
    Completes (.attest .armature) s fun t => s.secEnded 0 t ∧ t.sec.report = true ∧
      ∀ a, t.byte a = (s'.reported n).byte a := by
  have hq := (s.commanded_quiet 10 false).trans
    ((s.commanded 10 false).readBytes_quiet (s.commanded 10 false).secAddr 32)
  rw [e] at hq
  have hx := State.attest_of (s := s.commanded 10 false) hk e
  have he := (exec_attest hb).trans (congrArg (fun x => Host.Outcome.next (secEnd x)) hx)
  have hreg : (s'.reported n).reg Reg.SEC_STATUS = s'.reg Reg.SEC_STATUS :=
    State.reg_of_calmRegs (State.writeN_calmRegs _ _ _ _ _) (by decide)
  generalize s'.reported n = u at *
  refine completes_secEnd he (by decide : 0 < 16) (hreg.trans (hq.reg (by decide) (by decide))) fun t hd hbr _ =>
    ⟨hd, ?_, fun a => (State.byte_of_butRegs hbr a :)⟩
  rw [State.sec_of_butRegs hbr]

theorem extend_done {s s' : State} {d : List (BitVec 8)} (hb : s.flag F.SEC_STATUS_BUSY = false)
    (e : (s.commanded 14 false).readBytes (s.commanded 14 false).secAddr 48 = (some d, s')) :
    Completes (.extend .armature) s fun t => s.secEnded 0 t ∧
      t.sec.meas = s.sec.meas.set 7 (Config.sha384 (bytes48 (s.sec.meas.getD 7 0) ++
        bytes48 (BitVec.ofNat 384 (leNat d)))) ∧ ∀ a, t.byte a = s.byte a := by
  have hq := (s.commanded_quiet 14 false).trans
    ((s.commanded 14 false).readBytes_quiet (s.commanded 14 false).secAddr 48)
  rw [e] at hq
  have hx : (s.commanded 14 false).extendCmd = (0, s'.measure 7 (BitVec.ofNat 384 (leNat d))) := by
    unfold State.extendCmd
    rw [e]
  have he := (exec_secCmd hb (op := 14) rfl : exec (.extend .armature) s = _).trans
    (congrArg (fun x => Host.Outcome.next (secEnd x)) hx)
  refine completes_quietBody he (by decide : 0 < 16) (hq.reg (by decide) (by decide)) hq.memKey
    fun t hd hsec _ hm => ⟨hd, ?_, hm⟩
  rw [hsec, ← hq.sec]
  rfl

/-! ## Debug levels and the DEBUG phase (R371, R376, R387) -/

theorem debugLevel_nat (v : BitVec 32) : v.toNat / 2 ^ 30 < 4 := by
  have := v.isLt
  omega

/-- A level request with its word in DBG_CTRL. -/
def State.requested (s : State) (v : BitVec 32) : State := s.setReg Reg.DBG_CTRL (v &&& 0xE0000000)

theorem State.requested_levelMax (s : State) (v : BitVec 32) : (s.requested v).levelMax = s.levelMax := by
  have h (k : Nat) (hk : k ≠ Reg.DBG_CTRL) : (s.requested v).reg k = s.reg k := (State.setReg_alone s _ _).1 k hk
  have hm (l : Nat) : (s.requested v).lifeMax l = s.lifeMax l := by
    unfold State.lifeMax
    simp only [State.flag_of_reg (f := F.SEC_POLICY_DBGMAX) (h Reg.SEC_POLICY (by decide))]
  unfold State.levelMax
  rw [State.fget_of_reg (f := F.DIA_PSTATE_STATE) (h _ (by decide)), hm]
  rfl

/-- The level a request sets, or its refusal counted. -/
def State.levelled (s : State) (n : Nat) : State :=
  if n ≤ s.levelMax then s.setLevel n else s.fsat F.DBG_LEVEL_DENIED 1

theorem State.dbgCtrl_leave {s : State} {v : BitVec 32} (h : v.getLsbD 29 = false) :
    s.dbgCtrl v = ((s.requested v).levelled (v.toNat / 2 ^ 30)).leaveDebug := if_pos h

theorem exec_debugLevel (s : State) (v : BitVec 32) : exec (.debugLevelRequest .armature v) s = .next (s.dbgCtrl v) :=
  congrArg Host.Outcome.next (State.acting_armature _ _ _ _)

theorem exec_facet (s : State) (v : BitVec 32) : exec (.facetRequest .armature v) s = .next (s.dbgCtrl v) :=
  congrArg Host.Outcome.next (State.acting_armature _ _ _ _)

theorem debugLevel_taken {s : State} {v : BitVec 32} (h : v.getLsbD 29 = false) (hn : v.toNat / 2 ^ 30 ≤ s.levelMax) :
    Completes (.debugLevelRequest .armature v) s fun t => t.fget F.DBG_LEVEL_LEVEL = v.toNat / 2 ^ 30 ∧
      t.flag F.DBG_LEVEL_FACET = false ∧ ∀ a, t.byte a = s.byte a := by
  refine ⟨_, exec_debugLevel s v, ?_, ?_, State.byte_of_memKey (State.dbgCtrl_memKey _ _)⟩
  · rw [State.dbgCtrl_leave h, State.leaveDebug_fget _ rfl rfl, State.levelled, State.requested_levelMax, if_pos hn]
    exact State.setLevel_level _ (debugLevel_nat v)
  · rw [State.dbgCtrl_leave h]
    exact State.leaveDebug_facet _

theorem debugLevel_refused {s : State} {v : BitVec 32} (h : v.getLsbD 29 = false) (hn : s.levelMax < v.toNat / 2 ^ 30) :
    Completes (.debugLevelRequest .armature v) s fun t => t.fget F.DBG_LEVEL_LEVEL = s.fget F.DBG_LEVEL_LEVEL ∧
      t.fget F.DBG_LEVEL_DENIED = min 0xFFFF (s.fget F.DBG_LEVEL_DENIED + 1) ∧ { t with regs := s.regs } = s := by
  have hr (f : Fld) (hf : f.key ≠ Reg.DBG_CTRL) : (s.requested v).fget f = s.fget f :=
    State.fget_of_reg ((State.setReg_alone s _ _).1 _ hf)
  have hl : (s.requested v).levelled (v.toNat / 2 ^ 30) = (s.requested v).fsat F.DBG_LEVEL_DENIED 1 :=
    if_neg (by rw [State.requested_levelMax]; omega)
  refine ⟨_, exec_debugLevel s v, ?_, ?_, State.frame_of_butRegs ?_⟩
  · rw [State.dbgCtrl_leave h, State.leaveDebug_fget _ rfl rfl, hl, State.fsat_fget_apart _ _ _ _ rfl]
    exact hr _ (by decide)
  · rw [State.dbgCtrl_leave h, State.leaveDebug_fget _ rfl rfl, hl, State.fsat_fget _ _ _ rfl, hr _ (by decide)]
    rfl
  · rw [State.dbgCtrl_leave h, State.leaveDebug_butRegs, hl]
    rfl

/-- The end of a write of DBG_CTRL that asks for the DEBUG phase. -/
def State.facetOn (s : State) : State :=
  if s.fget F.DBG_LEVEL_LEVEL ≠ 2 then s.fsat F.DBG_LEVEL_DENIED 1
  else if s.flag F.DBG_LEVEL_FACET then s
  else (s.setFlag F.DBG_LEVEL_FACET true).fset F.PLN_FACET_PHASE (if s.flag F.PLN_FACET_TWOPIN then 3 else 2)

theorem State.dbgCtrl_enter {s : State} {v : BitVec 32} (h : v.getLsbD 29 = true) :
    s.dbgCtrl v = ((s.requested v).levelled (v.toNat / 2 ^ 30)).facetOn := if_neg (by simp [h])

theorem State.facetOn_shows {s : State} (hl : s.fget F.DBG_LEVEL_LEVEL = 2) (hf : s.flag F.DBG_LEVEL_FACET = false) :
    s.facetOn.fget F.DBG_LEVEL_LEVEL = 2 ∧ s.facetOn.flag F.DBG_LEVEL_FACET = true ∧
    s.facetOn.fget F.PLN_FACET_PHASE = if s.flag F.PLN_FACET_TWOPIN then 3 else 2 := by
  unfold State.facetOn
  rw [if_neg (not_not.2 hl), if_neg (by simp [hf])]
  refine ⟨?_, ?_, ?_⟩
  · rw [State.fset_fget_apart _ _ _ _ rfl, State.setFlag_fget_apart _ _ _ _ rfl, hl]
  · rw [State.fset_flag_apart _ _ _ _ rfl, State.setFlag_flag _ _ _ rfl]
  · rw [State.fset_fget _ _ _ rfl]
    split <;> rfl

/-- DBG_CTRL enters the DEBUG phase at FULL (R387). -/
theorem facet_entered {s : State} {v : BitVec 32} (h : v.getLsbD 29 = true) (hn : v.toNat / 2 ^ 30 = 2)
    (hm : s.levelMax = 2) (hf : s.flag F.DBG_LEVEL_FACET = false) : Completes (.facetRequest .armature v) s fun t =>
      t.fget F.DBG_LEVEL_LEVEL = 2 ∧ t.flag F.DBG_LEVEL_FACET = true ∧
      t.fget F.PLN_FACET_PHASE = (if s.flag F.PLN_FACET_TWOPIN then 3 else 2) ∧ ∀ a, t.byte a = s.byte a := by
  have hr (k : Nat) (hk : k ≠ Reg.DBG_CTRL) : (s.requested v).reg k = s.reg k := (State.setReg_alone s _ _).1 k hk
  have hl : (s.requested v).levelled 2 = (s.requested v).setLevel 2 :=
    if_pos (by rw [State.requested_levelMax, hm])
  have hx : s.dbgCtrl v = ((s.requested v).setLevel 2).facetOn := by rw [State.dbgCtrl_enter h, hn, hl]
  have hlev := (s.requested v).setLevel_level (n := 2) (by decide)
  have hfac := State.setLevel_facet (n := 2) ((State.flag_of_reg (hr _ (by decide))).trans hf)
  have htwo : ((s.requested v).setLevel 2).fget F.PLN_FACET_TWOPIN = s.fget F.PLN_FACET_TWOPIN :=
    (State.setLevel_fget _ _ rfl rfl rfl).trans (State.fget_of_reg (hr _ (by decide)))
  have hm := State.dbgCtrl_memKey s v
  rw [hx] at hm
  generalize (s.requested v).setLevel 2 = u at *
  obtain ⟨h1, h2, h3⟩ := State.facetOn_shows hlev hfac
  refine ⟨_, (exec_facet s v).trans (congrArg Host.Outcome.next hx), h1, h2, ?_, State.byte_of_memKey hm⟩
  rw [h3, State.flag, State.flag, htwo]

/-- Settles O57. -/
theorem securityCommands : Obligations.SecurityCommands := by
  unfold Obligations.SecurityCommands
  intro s
  refine ⟨fun hb => ⟨fun o hl ⟨h0, ho⟩ => releaseQuar_taken hb hl h0 ho, fun o h0 h4 ⟨hx, _⟩ => retirePkg_taken hb h0
    h4 hx,
    fun h o e1 h1 h2 h3 e2 => ?_, fun o ⟨h0, ho⟩ => bootcfg_taken hb h0 ho, fun o ⟨h0, ho⟩ h1 h3 hv => ?_,
    fun o ⟨h0, ho⟩ h8 hk => keyrev_taken hb h0 ho h8 hk, releaseQuar_either hb, retirePkg_either hb, attest_none hb,
    fun n s' hk e => attest_done hb hk e, overlay_either hb, bootcfg_either hb, svn_either hb,
    fun d s' e => extend_done hb e, keyrev_either hb⟩,
    fun v => ⟨fun h => ⟨debugLevel_taken h, debugLevel_refused h⟩, facet_entered⟩⟩
  · intro s3 b x hc
    obtain ⟨t, ht, hd, h0, -, hm⟩ := overlay_taken hb (Prod.ext e1 rfl) (by omega) (Prod.ext e2 rfl)
    exact ⟨t, ht, hc ▸ hd, (h0 hc).1, (h0 hc).2, hm⟩
  · obtain ⟨t, ht, hd, hmax, hj, hm⟩ := svn_taken hb h0 ho h1 h3 hv
    exact ⟨t, ht, hd, hmax, fun j j1 j3 hne => (hj j).1 j1 j3 hne, hm⟩

end Sys2Proof.Machine
end

section
/-! SUPPORT. What a package warm reset keeps and clears (R343, R344, R353, R368, R369). -/
namespace Sys2Proof.Machine

/-! ## Registers a reset keeps -/

/-- A register kept whole that does not read as at reset keeps its contents. -/
theorem keepRegs_get_kept {m : Nat → BitVec 32} {k : Nat} (h : m k = BitVec.allOnes 32) {rs : List (Nat × BitVec 32)}
    (hk : Sparse.get Reg.reset rs k ≠ Reg.reset k) :
    Sparse.get Reg.reset (keepRegs m rs) k = Sparse.get Reg.reset rs k := by
  induction rs with
  | nil => rfl
  | cons r rs ih =>
    obtain ⟨j, v⟩ := r
    unfold keepRegs at ih ⊢
    rw [List.filterMap_cons]
    by_cases hj : j = k
    · subst hj
      rw [Sparse.get, if_pos rfl] at hk ⊢
      have hv : v &&& m j ||| Reg.reset j &&& ~~~m j = v := by
        rw [h, BitVec.and_allOnes, BitVec.not_allOnes, BitVec.and_zero, BitVec.or_zero]
      simp only [hv, if_neg hk]
      rw [Sparse.get, if_pos rfl]
    · rw [Sparse.get, if_neg hj] at hk ⊢
      dsimp only
      split
      next => exact ih hk
      next b hb =>
        split at hb
        · cases hb
        · obtain rfl := Option.some.inj hb
          rw [Sparse.get, if_neg hj]
          exact ih hk

/-! ## Judging what is pending -/

theorem State.dropCapture_calmRegs (s : State) (n : Nat) (c : CapSlot) : (s.dropCapture n c).calmRegs = s.calmRegs := by
  have h : ({ s with caps := without s.caps n } : State).showCaps.calmRegs = s.calmRegs :=
    (State.fset_calmRegs _ _ (by decide)).trans rfl
  unfold State.dropCapture
  dsimp only
  split
  · exact h
  · exact (State.settleFault_calmRegs _ _ _ _).trans h

theorem State.judgeAll_calmRegs (s : State) : s.judgeAll.calmRegs = s.calmRegs := by
  refine (State.settleWork_calmRegs _ _).trans ?_
  exact State.foldl_calmRegs (fun (t : State) (c : Nat × CapSlot) => t.dropCapture c.1 c.2)
    (fun t c => t.dropCapture_calmRegs c.1 c.2) _ s

/-! ## The warm reset -/

/-- The memory epoch changes with the interleave policy. -/
def State.relaid (s : State) : Bool := s.fget F.MEM_CFG_ILV != s.fget F.MEM_CFG_ILV_ACT

/-- What a warm reset takes over of a state. -/
def State.warmBase (s : State) : State :=
  { s.survivors with regs := keepRegs warmKept s.regs, time := s.time, idle := s.idle, power := s.power.kept,
                     hbmEpoch := if s.relaid then s.free + 1 else s.hbmEpoch, sramEpoch := s.free + 1, sramClean := 0,
                     free := s.free + 1,
                     mem := s.mem.filter (fun c => keptAddr s.relaid c.1),
                     ecc := s.ecc.filter (fun c => keptAddr s.relaid (4 * c.1)),
                     bursts := if s.relaid then [] else s.bursts, excl := s.excl, temps := s.temps,
                     engines := keepEach {} (fun (e : Engine) =>
                       { lastTest := e.lastTest, deferred := e.deferred, busyAt := s.now }) s.engines,
                     rots := keepEach {} (fun (r : Rot) => { owed := r.owed, tests := r.tests }) s.rots }

/-- The registers a warm reset sets itself, but for the boot step. -/
def State.warmSet (s : State) : State :=
  let t := (s.warmBase.keepRetired s).fset F.MEM_CFG_ILV_ACT (s.fget F.MEM_CFG_ILV)
  let t := if s.flag F.DIA_STATUS_TRIPPED ∨ s.flag F.DIA_STATUS_ESTOP then t.fset F.DIA_PSTATE_STATE 2 else t
  (List.range 96).foldl (fun t u =>
    if (s.sec.relClu.getD (u / 24) 0).getLsbD (u % 24) then t.setFlag (F.STR_SPARE_QUAR u) false else t) t

/-- Burin's state at step 5. -/
def State.warmSec (s : State) : State :=
  { s.warmSet with sec := { s.warmSet.sec with relClu := [0, 0, 0, 0], mgmtRef := s.sec.mgmtRef } }

theorem State.warm_eq (s : State) :
    s.warm = ((((s.warmSec.fset F.PLN_BOOT_STEP 5).showWindows).showCaps).settleId).rePace := rfl

theorem State.keepRetired_butRegs (s o : State) : (s.keepRetired o).butRegs = s.butRegs :=
  List.foldlRecOn (motive := fun t : State => t.butRegs = s.butRegs) _ _ rfl fun t ht _ _ =>
    (apply_ite State.butRegs _ _ _).trans ((ite_congr rfl (fun _ => (State.fset_butRegs t _ _).trans ht) fun _ =>
      ht).trans
      (ite_self _))

theorem State.butPorts_of_butRegs {s t : State} (h : t.butRegs = s.butRegs) : t.butPorts = s.butPorts :=
  (congrArg State.butPorts h :)

theorem State.showWindow_butPorts (s : State) (p : Nat) : (s.showWindow p).butPorts = s.butPorts := by
  unfold State.showWindow
  exact (State.butPorts_of_butRegs (State.fset_butRegs _ _ _)).trans (s.modPort_butPorts p _)

theorem State.showWindows_butPorts (s : State) : s.showWindows.butPorts = s.butPorts :=
  List.foldlRecOn (motive := fun t : State => t.butPorts = s.butPorts) _ _ rfl fun t ht p _ =>
    (t.showWindow_butPorts p).trans ht

theorem State.warmSet_butRegs (s : State) : s.warmSet.butRegs = s.warmBase.butRegs := by
  have h0 : ((s.warmBase.keepRetired s).fset F.MEM_CFG_ILV_ACT (s.fget F.MEM_CFG_ILV)).butRegs = s.warmBase.butRegs :=
    (State.fset_butRegs _ _ _).trans (State.keepRetired_butRegs _ _)
  unfold State.warmSet
  dsimp only
  generalize (s.warmBase.keepRetired s).fset F.MEM_CFG_ILV_ACT (s.fget F.MEM_CFG_ILV) = u at *
  refine List.foldlRecOn (motive := fun t : State => t.butRegs = s.warmBase.butRegs) _ _ ?_ fun t ht p _ => ?_
  · split
    · exact (State.fset_butRegs u _ _).trans h0
    · exact h0
  · split
    · exact (State.setFlag_butRegs t _ _).trans ht
    · exact ht

theorem State.warmSet_reg (s : State) {k : Nat} (h1 : ∀ u < 24, k ≠ (F.MEM_H_STATUS_STATE u).key) (h2 : k ≠ Reg.MEM_CFG)
    (h3 : k ≠ Reg.DIA_PSTATE) (h4 : ∀ u < 96, k ≠ (F.STR_SPARE_QUAR u).key) : s.warmSet.reg k = s.warmBase.reg k := by
  have h0 : ((s.warmBase.keepRetired s).fset F.MEM_CFG_ILV_ACT (s.fget F.MEM_CFG_ILV)).reg k = s.warmBase.reg k :=
    (State.fset_reg_ne _ _ _ _ h2).trans (State.keepRetired_reg _ _ h1)
  unfold State.warmSet
  dsimp only
  generalize (s.warmBase.keepRetired s).fset F.MEM_CFG_ILV_ACT (s.fget F.MEM_CFG_ILV) = u at *
  refine List.foldlRecOn (motive := fun t : State => t.reg k = s.warmBase.reg k) _ _ ?_ fun t ht p hp => ?_
  · split
    · exact (State.fset_reg_ne u _ _ _ h3).trans h0
    · exact h0
  · split
    · exact (State.fset_reg_ne t _ _ _ (h4 p (List.mem_range.mp hp))).trans ht
    · exact ht

/-- What a warm reset takes over, beside registers and Burin's state. -/
def State.butSec (s : State) : State := { s with regs := [], sec := {} }

theorem State.butSec_of_butRegs {s t : State} (h : t.butRegs = s.butRegs) : t.butSec = s.butSec :=
  (congrArg State.butSec h :)

theorem State.withSec_butSec (s : State) (x : Sec) : ({ s with sec := x } : State).butSec = s.butSec := rfl

theorem State.warmSec_butSec (s : State) : s.warmSec.butSec = s.warmBase.butSec :=
  (State.withSec_butSec _ _).trans (State.butSec_of_butRegs s.warmSet_butRegs)

theorem State.warmBase_sec (s : State) : s.warmBase.sec = s.sec := rfl

/-- Burin's state after a warm reset: its releases have been taken up. -/
def Sec.rewarmed (x : Sec) : Sec := { x with relClu := [0, 0, 0, 0] }

theorem State.warmSec_sec (s : State) : s.warmSec.sec = s.sec.rewarmed := by
  have h : s.warmSet.sec = s.sec := (State.sec_of_butRegs s.warmSet_butRegs).trans s.warmBase_sec
  unfold State.warmSec
  rw [h]
  rfl

/-- The end of a warm reset moves registers and what ports show of their lanes alone. -/
theorem State.warm_butPorts (s : State) : s.warm.butPorts = s.warmSec.butPorts := by
  rw [State.warm_eq]
  generalize s.warmSec = u
  have h1 := State.butPorts_of_butRegs (State.fset_butRegs u F.PLN_BOOT_STEP 5)
  generalize u.fset F.PLN_BOOT_STEP 5 = v at *
  have h2 := v.showWindows_butPorts.trans h1
  generalize v.showWindows = w at *
  have h3 : w.showCaps.butPorts = u.butPorts := (State.butPorts_of_butRegs (State.fset_butRegs w _ _)).trans h2
  exact (State.butPorts_of_butRegs ((State.rePace_butRegs _).trans (State.settleId_butRegs _))).trans h3

theorem State.settleId_reg (s : State) {k : Nat} (h : k ≠ Reg.PLN_PKG_ID) : s.settleId.reg k = s.reg k := by
  unfold State.settleId
  dsimp only
  split
  · rfl
  · split
    · exact (State.setReg_reg _ _ _ _).trans (if_neg h)
    · rfl

theorem State.warm_reg (s : State) {k : Nat} (h1 : k ≠ Reg.DIA_PACE) (h2 : k ≠ Reg.DIA_STATUS) (h3 : k ≠ Reg.PLN_PKG_ID)
    (h4 : k ≠ Reg.FLT_RING) (h5 : ∀ p < 12, k ≠ (F.WPL_LANE_WINDOW p).key) :
    s.warm.reg k = (s.warmSec.fset F.PLN_BOOT_STEP 5).reg k := by
  rw [State.warm_eq, State.rePace_reg _ h1 h2, State.settleId_reg _ h3, State.showCaps, State.fset_reg_ne _ _ _ _ h4,
    State.showWindows_reg _ h5]

theorem State.warm_step (s : State) : s.warm.fget F.PLN_BOOT_STEP = 5 :=
  (State.fget_of_reg (s.warm_reg (by decide) (by decide) (by decide) (by decide) (by decide))).trans
    (State.fset_fget s.warmSec F.PLN_BOOT_STEP 5 rfl)

theorem State.warm_sec (s : State) : s.warm.sec = s.sec.rewarmed :=
  (State.sec_of_butPorts s.warm_butPorts).trans s.warmSec_sec

/-- A warm reset keeps SEC_STATUS while it does not read as at reset. -/
theorem State.warm_secStatus {s : State} (h : s.reg Reg.SEC_STATUS ≠ Reg.reset Reg.SEC_STATUS) :
    s.warm.reg Reg.SEC_STATUS = s.reg Reg.SEC_STATUS := by
  rw [s.warm_reg (by decide) (by decide) (by decide) (by decide) (by decide), State.fset_reg_ne _ _ _ _ (by decide)]
  exact (s.warmSet_reg (by decide) (by decide) (by decide) (by decide)).trans (keepRegs_get_kept (by decide) h)

/-- What a warm reset keeps of memory: the slow tier, and HBM under an unchanged policy (R344). -/
theorem State.warm_byte (s : State) {a : Nat} (ha : a < 0x20000000000) (hh : a < 0xC000000000 → s.relaid = false) :
    s.warm.byte a = s.byte a := by
  have hb : s.warm.byte a = s.warmBase.byte a :=
    (State.byte_of_memKey (congrArg State.memKey s.warm_butPorts :) a).trans (State.byte_of_memKey (congrArg
      State.memKey s.warmSec_butSec :) a)
  have hk : keptAddr s.relaid a = true := by
    unfold keptAddr
    by_cases h : a < 0xC000000000
    · rw [hh h]
      simp [ha]
    · simp [ha]
      omega
  have hd : memDef s.warmBase.hbmEpoch s.warmBase.sramEpoch s.warmBase.sramClean a =
      memDef s.hbmEpoch s.sramEpoch s.sramClean a := by
    unfold memDef
    by_cases h : a < 0xC000000000
    · have he : s.warmBase.hbmEpoch = s.hbmEpoch := if_neg (by rw [hh h]; decide)
      rw [if_pos h, if_pos h, he]
    · rw [if_neg h, if_neg h, if_neg (by omega), if_neg (by omega)]
  rw [hb]
  exact (State.get_filter s.mem (p := keptAddr s.relaid) hk).trans (Sparse.get_congr hd s.mem)

theorem State.warm_kept (s : State) : s.warm.pages = s.pages ∧ s.warm.capsules = s.capsules := by
  have h1 : s.warm.pages = s.warmSec.pages := (congrArg State.pages s.warm_butPorts :)
  have h2 : s.warm.capsules = s.warmSec.capsules := (congrArg State.capsules s.warm_butPorts :)
  exact ⟨h1.trans (congrArg State.pages s.warmSec_butSec :), h2.trans (congrArg State.capsules s.warmSec_butSec :)⟩

/-! ## Its record (R343, R388) -/

/-- A warm reset, recorded. -/
def State.warmed (s : State) : State := (s.judgeAll.warm.recovery 0xE0000000 2).faultN 2

theorem State.warmed_calmRegs (s : State) : s.warmed.calmRegs = s.judgeAll.warm.calmRegs :=
  (State.faultN_calmRegs _ _).trans (State.event_calmRegs _ _ _ _ _ _)

theorem State.warmed_butRecords (s : State) : s.warmed.butRecords = s.judgeAll.warm.butRecords :=
  (State.faultN_butRecords _ _).trans (State.event_butRecords _ _ _ _ _ _)

theorem State.warmed_step (s : State) : s.warmed.fget F.PLN_BOOT_STEP = 5 :=
  (State.fget_of_calmRegs s.warmed_calmRegs (by decide)).trans (State.warm_step _)

theorem State.judgeAll_sec (s : State) : s.judgeAll.sec = s.sec := (congrArg State.sec s.judgeAll_butJudged :)

theorem State.warmed_sec (s : State) : s.warmed.sec = s.sec.rewarmed := by
  rw [State.sec_of_butRecords s.warmed_butRecords, State.warm_sec, State.judgeAll_sec]

theorem State.warmed_secStatus {s : State} (h : s.reg Reg.SEC_STATUS ≠ Reg.reset Reg.SEC_STATUS) :
    s.warmed.reg Reg.SEC_STATUS = s.reg Reg.SEC_STATUS := by
  have hj : s.judgeAll.reg Reg.SEC_STATUS = s.reg Reg.SEC_STATUS :=
    State.reg_of_calmRegs s.judgeAll_calmRegs (by decide)
  rw [State.reg_of_calmRegs s.warmed_calmRegs (by decide), State.warm_secStatus (by rwa [hj]), hj]

end Sys2Proof.Machine
end

section
/-! SUPPORT. Firmware images, installed keys, grants and changes of lifecycle state (R354, R360, R361, R366 to R369). -/
namespace Sys2Proof.Machine

/-! ## Staging an image (R356, R366) -/

/-- The slot an image fills. -/
def imageOf (o : List (BitVec 8)) : FwSlot :=
  { valid := true, svn := objSvn o, digest := Config.sha384 o, key := objKey o }

theorem State.putSlot_butSec (s : State) (arm : Bool) (k : Nat) (f : FwSlot) : (s.putSlot arm k f).butSec = s.butSec
  := by
  unfold State.putSlot
  split <;> rfl

theorem State.putSlot_reg (s : State) (arm : Bool) (k : Nat) (f : FwSlot) (i : Nat) :
    (s.putSlot arm k f).reg i = s.reg i := by
  unfold State.putSlot
  split <;> rfl

theorem State.putSlot_slots (s : State) (arm : Bool) (k : Nat) (f : FwSlot) :
    (s.putSlot arm k f).slots arm = (s.slots arm).set k f ∧ (s.putSlot arm k f).slots (!arm) = s.slots (!arm) := by
  cases arm <;> exact ⟨rfl, rfl⟩

theorem State.memKey_of_butSec {s t : State} (h : t.butSec = s.butSec) : t.memKey = s.memKey :=
  (congrArg State.memKey h :)

theorem State.slots_of_sec {s t : State} (h : t.sec = s.sec) (arm : Bool) : t.slots arm = s.slots arm := by
  simp only [State.slots, h]

/-- The operation that stages an image of a kind, its type and the room in its slot. -/
def stageOp (arm : Bool) : Fin 16 := if arm then 2 else 1
def stageTyp (arm : Bool) : Nat := if arm then 2 else 1
def stageRoom (arm : Bool) : Nat := if arm then 0x800000 else 0x200000

/-- The image that a STAGE reads. -/
def State.image (s : State) (arm : Bool) (n : Nat) : Nat × List (BitVec 8) × State :=
  s.objTaken (stageOp arm) (stageTyp arm) n (s.minSvn (stageTyp arm))

theorem State.stage_of (s : State) (arm : Bool) (n : Nat) : s.stage arm n =
    if stageRoom arm < n then (6, s)
    else if (s.takeObj (stageTyp arm) n (s.minSvn (stageTyp arm))).1 = 0 then
      (0, (s.takeObj (stageTyp arm) n (s.minSvn (stageTyp arm))).2.2.putSlot arm
        (1 - (s.takeObj (stageTyp arm) n (s.minSvn (stageTyp arm))).2.2.bootSlot arm)
        (imageOf (s.takeObj (stageTyp arm) n (s.minSvn (stageTyp arm))).2.1))
    else ((s.takeObj (stageTyp arm) n (s.minSvn (stageTyp arm))).1,
      (s.takeObj (stageTyp arm) n (s.minSvn (stageTyp arm))).2.2) := by
  unfold State.stage stageTyp stageRoom
  dsimp only
  generalize s.takeObj (if arm then 2 else 1) n (s.minSvn (if arm then 2 else 1)) = x
  obtain ⟨r, o, t⟩ := x
  rfl

theorem State.stage_eq (s : State) (arm : Bool) (n : Nat) : (s.commanded (stageOp arm) false).stage arm n =
    if stageRoom arm < n then (6, s.commanded (stageOp arm) false)
    else if (s.image arm n).1 = 0 then (0, (s.image arm n).2.2.putSlot arm (1 - (s.image arm n).2.2.bootSlot arm)
      (imageOf (s.image arm n).2.1))
    else ((s.image arm n).1, (s.image arm n).2.2) := by
  unfold State.image State.objTaken
  rw [← (s.commanded_quiet (stageOp arm) false).minSvn]
  exact State.stage_of _ arm n

theorem stage_taken {s : State} (hb : s.flag F.SEC_STATUS_BUSY = false) {arm : Bool} {n : Nat} {i : Instr}
    (he : exec i s = .next (s.writeSec .armature (secWord (stageOp arm) false) n))
    (hrun : ∀ t : State, t.secRun (stageOp arm) false n = secEnd (t.stage arm n)) {o : List (BitVec 8)}
    (hn : n ≤ stageRoom arm) (h0 : (s.image arm n).1 = 0) (ho : (s.image arm n).2.1 = o) :
    Completes i s fun t => s.secEnded 0 t ∧ t.slots arm = (s.slots arm).set (1 - s.bootSlot arm) (imageOf o) ∧
      t.slots (!arm) = s.slots (!arm) ∧ ∀ a, t.byte a = s.byte a := by
  have hx := s.stage_eq arm n
  have hq : s.quiet (s.image arm n).2.2 := s.objTaken_quiet _ _ _ _
  rw [h0, ho, if_neg (by omega), if_pos rfl, hq.bootSlot] at hx
  have he := (exec_secCmd hb he).trans (congrArg Host.Outcome.next ((hrun _).trans (congrArg secEnd hx)))
  generalize (s.image arm n).2.2 = u at *
  obtain ⟨h1, h2⟩ := u.putSlot_slots arm (1 - s.bootSlot arm) (imageOf o)
  refine completes_quietBody he (by decide : 0 < 16) ((u.putSlot_reg _ _ _ _).trans (hq.reg (by decide) (by decide)))
    ((State.memKey_of_butSec (u.putSlot_butSec _ _ _)).trans hq.memKey) fun t hd hsec _ hm => ⟨hd, ?_, ?_, hm⟩
  · rw [State.slots_of_sec hsec, h1, State.slots_of_sec hq.sec]
  · rw [State.slots_of_sec hsec, h2, State.slots_of_sec hq.sec]

theorem stage_either {s : State} (hb : s.flag F.SEC_STATUS_BUSY = false) {arm : Bool} {n : Nat} {i : Instr}
    (he : exec i s = .next (s.writeSec .armature (secWord (stageOp arm) false) n))
    (hrun : ∀ t : State, t.secRun (stageOp arm) false n = secEnd (t.stage arm n)) :
    Completes i s fun t => ∃ res, s.secEnded res t ∧ (res ≠ 0 → t.slots arm = s.slots arm) ∧
      (res = 0 → ∃ f : FwSlot, f.valid = true ∧ t.slots arm = (s.slots arm).set (1 - s.bootSlot arm) f) ∧
      t.slots (!arm) = s.slots (!arm) ∧ ∀ a, t.byte a = s.byte a := by
  have hx := s.stage_eq arm n
  have refused (r : Nat) (u : State) (hr : r < 16) (h0 : r ≠ 0) (hq : s.quiet u)
      (hx : (s.commanded (stageOp arm) false).stage arm n = (r, u)) :
      Completes i s fun t => ∃ res, s.secEnded res t ∧ (res ≠ 0 → t.slots arm = s.slots arm) ∧
        (res = 0 → ∃ f : FwSlot, f.valid = true ∧ t.slots arm = (s.slots arm).set (1 - s.bootSlot arm) f) ∧
        t.slots (!arm) = s.slots (!arm) ∧ ∀ a, t.byte a = s.byte a :=
    completes_refused ((exec_secCmd hb he).trans (congrArg Host.Outcome.next ((hrun _).trans (congrArg secEnd hx)))) hr
      hq fun t hd hsec _ hm => ⟨r, hd, fun _ => State.slots_of_sec hsec _, fun h => absurd h h0,
        State.slots_of_sec hsec _, hm⟩
  by_cases hn : stageRoom arm < n
  · exact refused 6 _ (by decide) (by decide) (s.commanded_quiet _ _) (hx.trans (if_pos hn))
  · by_cases h0 : (s.image arm n).1 = 0
    · obtain ⟨t, ht, hd, hs, ho, hm⟩ := stage_taken hb he hrun (by omega) h0 rfl
      exact ⟨t, ht, 0, hd, fun h => absurd rfl h, fun _ => ⟨_, rfl, hs⟩, ho, hm⟩
    · exact refused _ _ (s.objTaken_lt _ _ _ _) h0 (s.objTaken_quiet _ _ _ _)
        (hx.trans ((if_neg hn).trans (if_neg h0)))

/-! ## Switching and confirming (R366) -/

/-- The trial slot of a kind. -/
def State.setTrial (s : State) (arm : Bool) (x : Option Nat) : State :=
  if arm then { s with sec := { s.sec with trialArm := x } } else { s with sec := { s.sec with trialIsl := x } }

/-- The trial of a kind. -/
def State.trial (s : State) (arm : Bool) : Option Nat := if arm then s.sec.trialArm else s.sec.trialIsl

theorem State.setTrial_trial (s : State) (arm : Bool) (x : Option Nat) :
    (s.setTrial arm x).trial arm = x ∧ (s.setTrial arm x).trial (!arm) = s.trial (!arm) := by
  cases arm <;> exact ⟨rfl, rfl⟩

theorem State.setTrial_reg (s : State) (arm : Bool) (x : Option Nat) (k : Nat) : (s.setTrial arm x).reg k = s.reg k
  := by
  cases arm <;> rfl

theorem State.setTrial_butSec (s : State) (arm : Bool) (x : Option Nat) : (s.setTrial arm x).butSec = s.butSec := by
  cases arm <;> rfl

theorem State.switch_eq (s : State) (arm : Bool) : s.switch arm =
    if s.slotOk arm (1 - s.bootSlot arm) = false ∨ s.onTrial arm = true then (8, s)
    else (0, ((s.setTrial arm (some (s.bootSlot arm))).runSlot arm (1 - s.bootSlot arm)).setFlag F.SEC_BOOT_TRIAL
      true) :=
  rfl

theorem State.confirm_eq (s : State) (arm : Bool) : s.confirm arm =
    if s.onTrial arm = false then (8, s)
    else (0, (s.setTrial arm none).setFlag F.SEC_BOOT_TRIAL ((s.setTrial arm none).onTrial (!arm))) := rfl

/-- Burin's state beside its measurements and its attestation key. -/
def Sec.butKey (x : Sec) : Sec := { x with meas := [], attKey := false }

theorem State.armRuns_sec (s : State) (rev : BitVec 8) : (s.armRuns rev).sec.butKey = s.sec.butKey := rfl

theorem State.armRuns_reg (s : State) (rev : BitVec 8) {k : Nat} (h : k ≠ Reg.WPL_REV) :
    (s.armRuns rev).reg k = s.reg k :=
  State.fset_reg_ne (s.measure 2 s.armDigest) F.WPL_REV_REV _ _ h

/-- The field that names the slot of a kind that runs. -/
def slotFld (arm : Bool) : Fld := if arm then F.SEC_BOOT_ARM_SLOT else F.SEC_BOOT_ISL_SLOT

theorem State.bootSlot_eq (s : State) (arm : Bool) : s.bootSlot arm = s.fget (slotFld arm) := by cases arm <;> rfl

theorem State.runSlot_sec (s : State) (arm : Bool) (k : Nat) : (s.runSlot arm k).sec.butKey = s.sec.butKey := by
  cases arm
  · rfl
  · exact State.armRuns_sec (s.fset F.SEC_BOOT_ARM_SLOT k) _

theorem State.runSlot_reg (s : State) (arm : Bool) (k : Nat) {i : Nat} (h : i ≠ Reg.WPL_REV) :
    (s.runSlot arm k).reg i = (s.fset (slotFld arm) k).reg i := by
  cases arm
  · rfl
  · exact State.armRuns_reg (s.fset F.SEC_BOOT_ARM_SLOT k) _ h

theorem State.runSlot_bootSlot (s : State) (arm : Bool) {k : Nat} (h : k ≤ 1) : (s.runSlot arm k).bootSlot arm = k := by
  rw [State.bootSlot_eq, State.fget_of_reg (s.runSlot_reg arm k (by cases arm <;> decide)),
    State.fset_fget _ _ _ (by cases arm <;> rfl)]
  exact Nat.mod_eq_of_lt (by cases arm <;> exact Nat.lt_of_le_of_lt h (by decide))

theorem State.runSlot_flag (s : State) (arm : Bool) (k : Nat) {f : Fld} (h : f.key ≠ Reg.WPL_REV)
    (ha : (slotFld arm).apart f = true) : (s.runSlot arm k).flag f = s.flag f :=
  (State.flag_of_reg (s.runSlot_reg arm k h)).trans (State.fset_flag_apart _ _ _ _ ha)

theorem State.trial_of_butKey {s t : State} (h : t.sec.butKey = s.sec.butKey) (arm : Bool) : t.trial arm = s.trial
  arm := by
  cases arm
  · exact (congrArg Sec.trialIsl h :)
  · exact (congrArg Sec.trialArm h :)

theorem State.slotOk_of {s t : State} (h : s.quiet t) (arm : Bool) (k : Nat) : t.slotOk arm k = s.slotOk arm k := by
  simp only [State.slotOk, State.slots_of_sec h.sec, h.minSvn, h.sec]

theorem State.onTrial_eq (s : State) (arm : Bool) : s.onTrial arm = (s.trial arm).isSome := rfl

theorem State.trial_of_sec {s t : State} (h : t.sec = s.sec) (arm : Bool) : t.trial arm = s.trial arm := by
  simp only [State.trial, h]

theorem exec_switch {s : State} (hb : s.flag F.SEC_STATUS_BUSY = false) (arm : Bool) :
    exec (.switchFw .armature arm) s = .next (secEnd ((s.commanded 3 arm).switch arm)) := exec_secCmd hb (op := 3) rfl

theorem State.bootSlot_le (s : State) (arm : Bool) : s.bootSlot arm ≤ 1 := by
  rw [State.bootSlot_eq]
  have := s.fget_lt (slotFld arm)
  cases arm <;> exact Nat.le_of_lt_succ this

/-- The package with the other slot of a kind on trial. -/
def State.switched (s : State) (arm : Bool) : State :=
  ((s.setTrial arm (some (s.bootSlot arm))).runSlot arm (1 - s.bootSlot arm)).setFlag F.SEC_BOOT_TRIAL true

theorem State.switched_spec (s : State) (arm : Bool) : (s.switched arm).bootSlot arm = 1 - s.bootSlot arm ∧
    (s.switched arm).trial arm = some (s.bootSlot arm) ∧ (s.switched arm).flag F.SEC_BOOT_TRIAL = true ∧
    (s.switched arm).memKey = s.memKey ∧ (s.switched arm).reg Reg.SEC_STATUS = s.reg Reg.SEC_STATUS := by
  have h1 := (s.setTrial arm (some (s.bootSlot arm))).runSlot_bootSlot arm (k := 1 - s.bootSlot arm) (by omega)
  have h2 := State.trial_of_butKey ((s.setTrial arm (some (s.bootSlot arm))).runSlot_sec arm (1 - s.bootSlot arm)) arm
  have h3 := (s.setTrial arm (some (s.bootSlot arm))).runSlot_memKey arm (1 - s.bootSlot arm)
  have h4 := (s.setTrial arm (some (s.bootSlot arm))).runSlot_reg arm (1 - s.bootSlot arm)
    (i := Reg.SEC_STATUS) (by decide)
  unfold State.switched
  generalize (s.setTrial arm (some (s.bootSlot arm))).runSlot arm (1 - s.bootSlot arm) = u at *
  refine ⟨?_, ?_, State.setFlag_flag _ _ _ rfl, ?_, ?_⟩
  · rw [State.bootSlot_eq, State.setFlag_fget_apart _ _ _ _ (by cases arm <;> rfl), ← State.bootSlot_eq, h1]
  · exact h2.trans (s.setTrial_trial arm _).1
  · exact h3.trans (State.memKey_of_butSec (s.setTrial_butSec arm _))
  · refine (State.fset_reg_ne _ _ _ _ (by decide)).trans (h4.trans ?_)
    refine (State.fset_reg_ne _ _ _ _ (by cases arm <;> decide)).trans (s.setTrial_reg arm _ _)

theorem switch_completes {s : State} (hb : s.flag F.SEC_STATUS_BUSY = false) {arm : Bool}
    (hs : s.slotOk arm (1 - s.bootSlot arm) = true) (ht : s.onTrial arm = false) :
    Completes (.switchFw .armature arm) s fun t => s.secEnded 0 t ∧ t.bootSlot arm = 1 - s.bootSlot arm ∧
      t.trial arm = some (s.bootSlot arm) ∧ t.flag F.SEC_BOOT_TRIAL = true ∧ ∀ a, t.byte a = s.byte a := by
  have hq := s.commanded_quiet 3 arm
  have he := exec_switch hb arm
  generalize s.commanded 3 arm = u at *
  have hx : u.switch arm = (0, u.switched arm) := by
    rw [State.switch_eq]
    refine if_neg ?_
    rw [hq.bootSlot, State.slotOk_of hq, State.onTrial_eq, State.trial_of_sec hq.sec, ← State.onTrial_eq, hs, ht]
    decide
  obtain ⟨h1, h2, h3, h4, h5⟩ := u.switched_spec arm
  rw [hx] at he
  generalize u.switched arm = v at *
  refine completes_quietBody he (by decide : 0 < 16) (h5.trans (hq.reg (by decide) (by decide))) (h4.trans hq.memKey)
    fun t hd hsec hk hm => ⟨hd, ?_, ?_, ?_, hm⟩
  · rw [State.bootSlot_eq, State.fget_of_reg (hk _ (by cases arm <;> decide)), ← State.bootSlot_eq, h1, hq.bootSlot]
  · rw [State.trial_of_sec hsec, h2, hq.bootSlot]
  · exact (State.flag_of_reg (hk _ (by decide))).trans h3

theorem switch_refused {s : State} (hb : s.flag F.SEC_STATUS_BUSY = false) {arm : Bool}
    (h : s.slotOk arm (1 - s.bootSlot arm) = false ∨ s.onTrial arm = true) :
    Completes (.switchFw .armature arm) s fun t => s.secEnded 8 t ∧ { t with regs := s.regs } = s := by
  have hq := s.commanded_quiet 3 arm
  have hr : (s.commanded 3 arm).butRegs = s.butRegs := State.setReg_butRegs _ _ _
  have he := exec_switch hb arm
  generalize s.commanded 3 arm = u at *
  have hx : u.switch arm = (8, u) := by
    rw [State.switch_eq]
    refine if_pos ?_
    rwa [hq.bootSlot, State.slotOk_of hq, State.onTrial_eq, State.trial_of_sec hq.sec, ← State.onTrial_eq]
  rw [hx] at he
  exact completes_secEnd he (by decide : 8 < 16) (hq.reg (by decide) (by decide)) fun t hd hbr _ =>
    ⟨hd, State.frame_of_butRegs (hbr.trans hr)⟩

theorem exec_confirm {s : State} (hb : s.flag F.SEC_STATUS_BUSY = false) (arm : Bool) :
    exec (.confirmFw .armature arm) s = .next (secEnd ((s.commanded 4 arm).confirm arm)) := exec_secCmd hb (op := 4) rfl

theorem State.frame_of_butSec {s t : State} (h : t.butSec = s.butSec) : { t with regs := s.regs, sec := s.sec } = s :=
  (congrArg (fun u : State => { u with regs := s.regs, sec := s.sec }) h :)

theorem confirm_completes {s : State} (hb : s.flag F.SEC_STATUS_BUSY = false) {arm : Bool}
    (ht : s.onTrial arm = true) : Completes (.confirmFw .armature arm) s fun t => s.secEnded 0 t ∧
      t.onTrial arm = false ∧ t.flag F.SEC_BOOT_TRIAL = s.onTrial (!arm) ∧
      { t with regs := s.regs, sec := s.sec } = s := by
  have hq := s.commanded_quiet 4 arm
  have hr : (s.commanded 4 arm).butRegs = s.butRegs := State.setReg_butRegs _ _ _
  have he := exec_confirm hb arm
  generalize s.commanded 4 arm = u at *
  have hon (a : Bool) : u.onTrial a = s.onTrial a := by
    rw [State.onTrial_eq, State.trial_of_sec hq.sec, ← State.onTrial_eq]
  obtain ⟨h1, h2⟩ := u.setTrial_trial arm none
  have hx := u.confirm_eq arm
  rw [if_neg (by rw [hon, ht]; decide), State.onTrial_eq, h2, ← State.onTrial_eq, hon] at hx
  have hs := u.setTrial_butSec arm none
  have hg := u.setTrial_reg arm none Reg.SEC_STATUS
  rw [hx] at he
  generalize u.setTrial arm none = v at *
  refine completes_secEnd he (by decide : 0 < 16) ?_ fun t hd hbr hk => ⟨hd, ?_, ?_, ?_⟩
  · exact (State.fset_reg_ne _ _ _ _ (by decide)).trans (hg.trans (hq.reg (by decide) (by decide)))
  · have hv : (v.setFlag F.SEC_BOOT_TRIAL (s.onTrial !arm)).sec = v.sec := rfl
    rw [State.onTrial_eq, State.trial_of_sec ((State.sec_of_butRegs hbr).trans hv), h1]
    rfl
  · exact (State.flag_of_reg (hk _ (by decide))).trans (State.setFlag_flag _ _ _ rfl)
  · exact State.frame_of_butSec ((State.butSec_of_butRegs hbr).trans
      ((State.butSec_of_butRegs (State.setFlag_butRegs v _ _)).trans (hs.trans (State.butSec_of_butRegs hr))))

theorem confirm_refused {s : State} (hb : s.flag F.SEC_STATUS_BUSY = false) {arm : Bool} (ht : s.onTrial arm = false) :
    Completes (.confirmFw .armature arm) s fun t => s.secEnded 8 t ∧ { t with regs := s.regs } = s := by
  have hq := s.commanded_quiet 4 arm
  have hr : (s.commanded 4 arm).butRegs = s.butRegs := State.setReg_butRegs _ _ _
  have he := exec_confirm hb arm
  generalize s.commanded 4 arm = u at *
  have hx : u.confirm arm = (8, u) := if_pos (by
    rw [State.onTrial_eq, State.trial_of_sec hq.sec, ← State.onTrial_eq, ht])
  rw [hx] at he
  exact completes_secEnd he (by decide : 8 < 16) (hq.reg (by decide) (by decide)) fun t hd hbr _ =>
    ⟨hd, State.frame_of_butRegs (hbr.trans hr)⟩

/-! ## The trial's time limit (R366) -/

/-- The slot of a kind that ran before its trial runs again. -/
def State.runFormer (s : State) (arm : Bool) : Option Nat → State
  | some k => s.runSlot arm k
  | none => s

theorem State.runFormer_sec (s : State) (arm : Bool) (o : Option Nat) :
    (s.runFormer arm o).sec.butKey = s.sec.butKey := by
  cases o
  · rfl
  · exact s.runSlot_sec arm _

theorem State.runFormer_flag (s : State) (arm : Bool) (o : Option Nat) {f : Fld} (h : f.key ≠ Reg.WPL_REV)
    (ha : (slotFld arm).apart f = true) : (s.runFormer arm o).flag f = s.flag f := by
  cases o
  · rfl
  · exact s.runSlot_flag arm _ h ha

theorem State.runFormer_memKey (s : State) (arm : Bool) (o : Option Nat) : (s.runFormer arm o).memKey = s.memKey := by
  cases o
  · rfl
  · exact s.runSlot_memKey arm _

/-- The former images, running again. -/
def State.formerRun (s : State) : State := (s.endTrial.runFormer false s.sec.trialIsl).runFormer true s.sec.trialArm

theorem execConfirmTimeout_of {s : State} (h : s.flag F.SEC_BOOT_TRIAL = true) :
    exec .confirmTimeout s = .next s.formerRun.fellBack := by
  show execConfirmTimeout s = _
  unfold execConfirmTimeout State.formerRun
  rw [if_neg (by simp [h])]
  dsimp only
  cases s.sec.trialIsl <;> cases s.sec.trialArm <;> rfl

theorem State.endTrial_shows (s : State) : s.endTrial.sec.trialArm = none ∧ s.endTrial.sec.trialIsl = none ∧
    s.endTrial.flag F.SEC_BOOT_TRIAL = false := by
  rw [State.endTrial_eq]
  exact ⟨rfl, rfl, State.setFlag_flag s.formerSlots _ _ rfl⟩

theorem State.formerRun_spec (s : State) : s.formerRun.sec.trialArm = none ∧ s.formerRun.sec.trialIsl = none ∧
    s.formerRun.flag F.SEC_BOOT_TRIAL = false ∧ s.formerRun.memKey = s.memKey := by
  obtain ⟨h1, h2, h3⟩ := s.endTrial_shows
  have h4 : s.endTrial.memKey = s.memKey := s.endTrial_memKey
  unfold State.formerRun
  generalize s.endTrial = u at *
  have hk := ((u.runFormer false s.sec.trialIsl).runFormer_sec true s.sec.trialArm).trans
    (u.runFormer_sec false s.sec.trialIsl)
  refine ⟨(congrArg Sec.trialArm hk :).trans h1, (congrArg Sec.trialIsl hk :).trans h2, ?_, ?_⟩
  · rw [State.runFormer_flag _ _ _ (by decide) rfl, State.runFormer_flag _ _ _ (by decide) rfl, h3]
  · rw [State.runFormer_memKey, State.runFormer_memKey, h4]

theorem confirmTimeout_completes {s : State} (h : s.flag F.SEC_BOOT_TRIAL = true) : Completes .confirmTimeout s fun t =>
    t.flag F.SEC_BOOT_TRIAL = false ∧ t.flag F.SEC_BOOT_FALLBACK = true ∧ t.sec.trialArm = none ∧
    t.sec.trialIsl = none ∧ ∀ a, t.byte a = s.byte a := by
  have he := execConfirmTimeout_of h
  obtain ⟨h1, h2, h3, h4⟩ := s.formerRun_spec
  generalize s.formerRun = u at *
  have hc : u.fellBack.calmRegs = (u.setFlag F.SEC_BOOT_FALLBACK true).calmRegs := State.event_calmRegs _ _ _ _ _ _
  have hs : u.fellBack.sec = u.sec := State.sec_of_butRecords ((State.event_butRecords _ _ _ _ _ _).trans
    (State.setFlag_butRecords _ _ _))
  refine ⟨_, he, ?_, ?_, ?_, ?_, State.byte_of_memKey ((State.fellBack_memKey u).trans h4)⟩
  · rw [State.flag_of_calmRegs hc (by decide), State.setFlag_flag_apart _ _ _ _ rfl, h3]
  · rw [State.flag_of_calmRegs hc (by decide), State.setFlag_flag _ _ _ rfl]
  · rw [hs, h1]
  · rw [hs, h2]

/-! ## Installed keys (R367) -/

/-- The operator key hashes among the bytes read. -/
def keysOf (n : Nat) (o : List (BitVec 8)) : List (BitVec 384) :=
  (List.range n).map fun i => BitVec.ofNat 384 (fieldOf o (48 * i) (48 * i + 48))

/-- Burin with the operator's keys. -/
def State.withKeys (s : State) (ks : List (BitVec 384)) : State := { s with sec := { s.sec with opKeys := ks } }

theorem State.install_of {s u : State} {n : Nat} {o : List (BitVec 8)} (hl : s.sec.life = 1) (h1 : 1 ≤ n) (h4 : n ≤ 4)
    (e : s.readBytes s.secAddr (48 * n) = (some o, u)) :
    s.install n = (0, (u.withKeys (keysOf n o)).lifeChange 2 false) := by
  unfold State.install
  rw [if_neg (not_not.2 hl), if_neg (by omega), e]
  rfl

theorem State.install_unread {s u : State} {n : Nat} (hl : s.sec.life = 1) (h1 : 1 ≤ n) (h4 : n ≤ 4)
    (e : s.readBytes s.secAddr (48 * n) = (none, u)) : s.install n = (6, u) := by
  unfold State.install
  rw [if_neg (not_not.2 hl), if_neg (by omega), e]

theorem exec_install {s : State} (hb : s.flag F.SEC_STATUS_BUSY = false) (n : Nat) :
    exec (.install .armature n) s = .next (secEnd ((s.commanded 5 false).install n)) := exec_secCmd hb (op := 5) rfl

theorem install_done {s u : State} (hb : s.flag F.SEC_STATUS_BUSY = false) {n : Nat} {o : List (BitVec 8)} (h1 : 1 ≤ n)
    (h4 : n ≤ 4) (hl : s.sec.life = 1)
    (e : (s.commanded 5 false).readBytes (s.commanded 5 false).secAddr (48 * n) = (some o, u)) :
    Completes (.install .armature n) s fun t => s.secEnded 0 t ∧ t.sec.life = 2 ∧ t.fget F.SEC_LIFE_STATE = 2 ∧
      t.sec.opKeys = keysOf n o ∧ ∀ a, t.byte a = s.byte a := by
  have hq := (s.commanded_quiet 5 false).trans
    ((s.commanded 5 false).readBytes_quiet (s.commanded 5 false).secAddr (48 * n))
  rw [e] at hq
  have he := (exec_install hb n).trans (congrArg (fun x => Host.Outcome.next (secEnd x))
    (State.install_of (s := s.commanded 5 false) hl h1 h4 e))
  obtain ⟨hlife, -, -, hrest⟩ := (u.withKeys (keysOf n o)).lifeChange_life 2 false
  have hstate := (u.withKeys (keysOf n o)).lifeChange_shows (new := 2) false (by decide)
  have hreg := (u.withKeys (keysOf n o)).lifeChange_reg 2 false (k := Reg.SEC_STATUS) (by decide) (by decide)
    (wplStatus_ne (by decide)) (by decide)
  have hkeys : ((u.withKeys (keysOf n o)).lifeChange 2 false).sec.opKeys = keysOf n o := (congrArg Sec.opKeys hrest :)
  have hmem := (u.withKeys (keysOf n o)).lifeChange_memKey 2 false
  generalize (u.withKeys (keysOf n o)).lifeChange 2 false = v at *
  refine completes_quietBody he (by decide : 0 < 16) (hreg.trans (hq.reg (by decide) (by decide)))
    (hmem.trans hq.memKey) fun t hd hsec hk hm => ⟨hd, ?_, ?_, ?_, hm⟩
  · rw [hsec, hlife]
  · exact (State.fget_of_reg (hk _ (by decide))).trans hstate
  · rw [hsec, hkeys]

theorem install_either {s : State} (hb : s.flag F.SEC_STATUS_BUSY = false) {n : Nat} (h1 : 1 ≤ n) (h4 : n ≤ 4)
    (hl : s.sec.life = 1) : Completes (.install .armature n) s fun t =>
      (s.secEnded 0 t ∧ t.sec.life = 2 ∧ t.sec.opKeys.length = n ∧ t.fget F.SEC_LIFE_STATE = 2) ∨
      (s.secEnded 6 t ∧ t.sec.life = 1 ∧ t.sec.opKeys = s.sec.opKeys) := by
  rcases e : (s.commanded 5 false).readBytes (s.commanded 5 false).secAddr (48 * n) with ⟨_ | o, u⟩
  · have hq := (s.commanded_quiet 5 false).trans
      ((s.commanded 5 false).readBytes_quiet (s.commanded 5 false).secAddr (48 * n))
    rw [e] at hq
    have hx := State.install_unread (s := s.commanded 5 false) hl h1 h4 e
    exact completes_refused ((exec_install hb n).trans (congrArg (fun x => Host.Outcome.next (secEnd x)) hx))
      (by decide : 6 < 16) hq fun t hd hsec _ _ => .inr ⟨hd, hsec ▸ hl, congrArg Sec.opKeys hsec⟩
  · obtain ⟨t, ht, hd, h2, h3, h5, -⟩ := install_done hb h1 h4 hl e
    exact ⟨t, ht, .inl ⟨hd, h2, by rw [h5, keysOf, List.length_map, List.length_range], h3⟩⟩

theorem install_refused {s : State} (hb : s.flag F.SEC_STATUS_BUSY = false) (n : Nat) (hl : s.sec.life ≠ 1) :
    Completes (.install .armature n) s fun t => s.secEnded 5 t ∧ t.sec = s.sec :=
  completes_refused ((exec_install hb n).trans (congrArg (fun x => Host.Outcome.next (secEnd x))
    (if_pos (show (s.commanded 5 false).sec.life ≠ 1 from hl) : _ = (5, s.commanded 5 false)))) (by decide : 5 < 16)
    (s.commanded_quiet 5 false) fun _ hd hsec _ _ => ⟨hd, hsec⟩

/-! ## Into and out of GRANTED (R369) -/

/-- The package as a change into or out of GRANTED begins, before its warm reset. -/
def State.granted (s : State) (target : Nat) : State :=
  ({ s.measure 6 (Config.eventDigest target (s.fget F.DBG_LEVEL_LEVEL)) with
    sec := { (s.measure 6 (Config.eventDigest target (s.fget F.DBG_LEVEL_LEVEL))).sec with granting := some target } } :
      State).setFlag F.SEC_STATUS_BUSY true

theorem State.beginGrant_eq (s : State) (target : Nat) : s.beginGrant target = (s.granted target).warmed := rfl

theorem State.granted_sec (s : State) (target : Nat) : (s.granted target).sec.granting = some target ∧
    (s.granted target).sec.former = s.sec.former ∧ (s.granted target).sec.life = s.sec.life := ⟨rfl, rfl, rfl⟩

theorem State.granted_busy (s : State) (target : Nat) : (s.granted target).flag F.SEC_STATUS_BUSY = true :=
  State.setFlag_flag _ _ _ rfl

theorem State.reg_ne_of_busy {s : State} (h : s.flag F.SEC_STATUS_BUSY = true) :
    s.reg Reg.SEC_STATUS ≠ Reg.reset Reg.SEC_STATUS := fun e => by
  rw [State.flag_eq_getLsbD _ rfl] at h
  exact absurd ((congrArg (fun v : BitVec 32 => v.getLsbD 31) e).symm.trans h) (by decide)

theorem State.beginGrant_spec (s : State) (target : Nat) : (s.beginGrant target).flag F.SEC_STATUS_BUSY = true ∧
    (s.beginGrant target).sec.granting = some target ∧ (s.beginGrant target).sec.former = s.sec.former ∧
    (s.beginGrant target).sec.life = s.sec.life ∧ (s.beginGrant target).fget F.PLN_BOOT_STEP = 5 := by
  rw [State.beginGrant_eq]
  obtain ⟨h1, h2, h3⟩ := s.granted_sec target
  have hb := s.granted_busy target
  generalize s.granted target = u at *
  have hs := u.warmed_sec
  exact ⟨(State.flag_of_reg (State.warmed_secStatus (State.reg_ne_of_busy hb))).trans hb,
    (congrArg Sec.granting hs :).trans h1, (congrArg Sec.former hs :).trans h2, (congrArg Sec.life hs :).trans h3,
    u.warmed_step⟩

/-- A grant whose object checks. -/
def State.granting (s : State) : State :=
  ({ s.newNonce with sec := { s.newNonce.sec with former := s.sec.life } } : State).beginGrant 3

theorem State.granting_spec (s : State) : s.granting.flag F.SEC_STATUS_BUSY = true ∧
    s.granting.sec.granting = some 3 ∧ s.granting.sec.former = s.sec.life ∧ s.granting.sec.life = s.sec.life ∧
    s.granting.fget F.PLN_BOOT_STEP = 5 := State.beginGrant_spec _ 3

theorem exec_grant {s : State} (hb : s.flag F.SEC_STATUS_BUSY = false) (hl : s.sec.life = 1 ∨ s.sec.life = 2) :
    exec (.grant .armature) s = .next (if (s.objTaken 6 5 160 0).1 ≠ 0 then
      (s.objTaken 6 5 160 0).2.2.secDone (s.objTaken 6 5 160 0).1 else (s.objTaken 6 5 160 0).2.2.granting) :=
  (exec_secCmd hb (op := 6) rfl).trans (congrArg Host.Outcome.next
    (if_neg (show ¬((s.commanded 6 false).sec.life ≠ 1 ∧ (s.commanded 6 false).sec.life ≠ 2) from
      fun h => hl.elim h.1 h.2)))

theorem grant_taken {s : State} (hb : s.flag F.SEC_STATUS_BUSY = false) (hl : s.sec.life = 1 ∨ s.sec.life = 2)
    (h0 : (s.objTaken 6 5 160 0).1 = 0) : Completes (.grant .armature) s fun t =>
      t.flag F.SEC_STATUS_BUSY = true ∧ t.sec.granting = some 3 ∧ t.sec.former = s.sec.life ∧
      t.sec.life = s.sec.life ∧ t.fget F.PLN_BOOT_STEP = 5 := by
  have he := exec_grant hb hl
  have hq := s.objTaken_quiet 6 5 160 0
  rw [if_neg (not_not.2 h0)] at he
  generalize (s.objTaken 6 5 160 0).2.2 = u at *
  obtain ⟨h1, h2, h3, h4, h5⟩ := u.granting_spec
  rw [hq.sec] at h3 h4
  exact ⟨_, he, h1, h2, h3, h4, h5⟩

theorem grant_either {s : State} (hb : s.flag F.SEC_STATUS_BUSY = false) (hl : s.sec.life = 1 ∨ s.sec.life = 2) :
    Completes (.grant .armature) s fun t =>
      (t.flag F.SEC_STATUS_BUSY = true ∧ t.sec.granting = some 3 ∧ t.sec.former = s.sec.life ∧
        t.fget F.PLN_BOOT_STEP = 5) ∨
      ((∃ res, res ≠ 0 ∧ s.secEnded res t) ∧ t.sec.life = s.sec.life ∧ t.sec.granting = s.sec.granting) := by
  by_cases h0 : (s.objTaken 6 5 160 0).1 = 0
  · obtain ⟨t, ht, h1, h2, h3, -, h5⟩ := grant_taken hb hl h0
    exact ⟨t, ht, .inl ⟨h1, h2, h3, h5⟩⟩
  · exact completes_refused ((exec_grant hb hl).trans (congrArg Host.Outcome.next (if_pos h0))) (s.objTaken_lt _ _ _ _)
      (s.objTaken_quiet _ _ _ _) fun t hd hsec _ _ =>
        .inr ⟨⟨_, h0, hd⟩, congrArg Sec.life hsec, congrArg Sec.granting hsec⟩

theorem exec_endGrant {s : State} (hb : s.flag F.SEC_STATUS_BUSY = false) (hl : s.sec.life = 3) :
    exec (.endGrant .armature) s = .next ((s.commanded 7 false).beginGrant s.sec.former) :=
  (exec_secCmd hb (op := 7) rfl).trans (congrArg Host.Outcome.next
    (if_neg (not_not.2 (show (s.commanded 7 false).sec.life = 3 from hl))))

/-! ## Zeroisation (R368, R369) -/

/-- The contents of memory, tiles, accumulators and scales, written with zeros. -/
def State.cleared (s : State) : State :=
  (({ s with mem := [], ecc := [], hbmEpoch := 0, sramEpoch := 0, wback := [], cache := [], stg := [], stgEcc := [],
             bursts := [], tiles := [], sides := [], tileEcc := [], tags := [], accs := [], heads := [], sct := [],
             sctEcc := [], grp := [], grpEcc := [], lpTab := [], lpEcc := [], shadows := [] } : State).setReg
    Reg.SCT_SEED_LO 0).setReg Reg.SCT_SEED_HI 0

/-- The package while zeroisation runs towards state `g`. -/
def State.zeroing (s : State) (g : Nat) : State :=
  let s := s.cleared.eraseKeys.modPower fun p => { p with zeroing := true }
  if g = 3 then { s with sec := { s.sec with udsBlocked := true, attKey := false } } else s

theorem execZeroisation_of {s : State} {g : Nat} (hg : s.sec.granting = some g) (hs : s.stopped = false)
    (hb : s.fget F.PLN_BOOT_STEP = 11) (hz : s.power.zeroing = false) : exec .zeroisation s = .next (s.zeroing g) := by
  show execZeroisation s = _
  unfold execZeroisation
  rw [hg]
  dsimp only
  rw [if_neg (by simp [hs, hb, hz])]
  rfl

theorem State.eraseKeys_keyed (s : State) {p : Nat} (hp : p < 12) : (s.eraseKeys.port p).keyed = false := by
  have key : ∀ (l : List Nat) (t : State), p ∈ l ∨ (t.port p).keyed = false →
      ((l.foldl (fun s p => (s.modPort p fun x => { x with keyed := false, keyId := 0, oldKey := none }).setFlag
        (F.WPL_STATUS_ENC p) false) t).port p).keyed = false := by
    intro l
    induction l with
    | nil => exact fun t h => h.resolve_left (by simp)
    | cons q l ih =>
      intro t h
      rw [List.foldl_cons]
      refine ih _ ?_
      by_cases e : p = q
      · subst e
        exact .inr (by rw [State.setFlag, State.fset_port_same, State.modPort_port_self])
      · refine h.imp (fun h => (List.mem_cons.1 h).resolve_left e) fun h => ?_
        rw [State.setFlag, State.fset_port_same, State.modPort_port, if_neg e]
        exact h
  exact key _ s (.inl (List.mem_range.2 hp))

/-- Everything but the registers, Burin's state and the power state. -/
def State.butZeroing (s : State) : State := { s with regs := [], ports := [], sec := {}, power := {} }

theorem State.butZeroing_of_butPorts {s t : State} (h : t.butPorts = s.butPorts) : t.butZeroing = s.butZeroing :=
  (congrArg State.butZeroing h :)

/-- The end of the step that starts zeroisation. -/
def State.blockUds (s : State) (g : Nat) : State :=
  if g = 3 then { s with sec := { s.sec with udsBlocked := true, attKey := false } } else s

theorem State.zeroing_eq (s : State) (g : Nat) :
    s.zeroing g = (s.cleared.eraseKeys.modPower fun p => { p with zeroing := true }).blockUds g := rfl

theorem State.blockUds_butSec (s : State) (g : Nat) : (s.blockUds g).butSec = s.butSec := by
  unfold State.blockUds
  split <;> rfl

theorem State.modPower_butZeroing (s : State) (f : Power → Power) : (s.modPower f).butZeroing = s.butZeroing := rfl

theorem State.butZeroing_of_butSec {s t : State} (h : t.butSec = s.butSec) : t.butZeroing = s.butZeroing :=
  (congrArg State.butZeroing h :)

theorem State.power_of_butSec {s t : State} (h : t.butSec = s.butSec) : t.power = s.power := (congrArg State.power h :)

theorem State.ports_of_butSec {s t : State} (h : t.butSec = s.butSec) : t.ports = s.ports := (congrArg State.ports h :)

theorem State.modPower_power (s : State) (f : Power → Power) : (s.modPower f).power = f s.power := rfl

theorem State.modPower_ports (s : State) (f : Power → Power) : (s.modPower f).ports = s.ports := rfl

theorem State.zeroing_spec (s : State) (g : Nat) : (s.zeroing g).power.zeroing = true ∧
    (∀ p, (s.zeroing g).port p = s.cleared.eraseKeys.port p) ∧ (s.zeroing g).butZeroing = s.cleared.butZeroing := by
  rw [State.zeroing_eq]
  have hz := State.butZeroing_of_butPorts s.cleared.eraseKeys_butPorts
  generalize s.cleared.eraseKeys = u at *
  have hb := (u.modPower fun p => { p with zeroing := true }).blockUds_butSec g
  have hw := u.modPower_butZeroing fun p => { p with zeroing := true }
  have hwp := u.modPower_power fun p => { p with zeroing := true }
  have hwq := u.modPower_ports fun p => { p with zeroing := true }
  generalize (u.modPower fun p => { p with zeroing := true }) = w at *
  generalize w.blockUds g = v at *
  refine ⟨?_, fun p => ?_, (State.butZeroing_of_butSec hb).trans (hw.trans hz)⟩
  · rw [State.power_of_butSec hb, hwp]
  · rw [State.port, State.port, State.ports_of_butSec hb, hwq]

theorem State.contents_of_butZeroing {s t : State} (h : t.butZeroing = s.butZeroing) : t.memKey = s.memKey ∧
    t.tiles = s.tiles ∧ t.accs = s.accs ∧ t.sct = s.sct :=
  ⟨(congrArg State.memKey h :), (congrArg State.tiles h :), (congrArg State.accs h :), (congrArg State.sct h :)⟩

theorem State.cleared_memory (s : State) : (∀ a, s.cleared.byte a = 0) ∧ (∀ k, s.cleared.tileB k = 0) ∧
    (∀ k, s.cleared.acc k = 0) ∧ ∀ k, Sparse.get (fun _ => 0) s.cleared.sct k = 0 := by
  refine ⟨fun a => ?_, fun _ => rfl, fun _ => rfl, fun _ => rfl⟩
  show memDef 0 0 _ a = 0
  unfold memDef
  simp

theorem zeroisation_completes {s : State} {g : Nat} (hg : s.sec.granting = some g) (hs : s.stopped = false)
    (hb : s.fget F.PLN_BOOT_STEP = 11) (hz : s.power.zeroing = false) : Completes .zeroisation s fun t =>
      t.power.zeroing = true ∧ (∀ a, t.byte a = 0) ∧ (∀ k, t.tileB k = 0) ∧ (∀ k, t.acc k = 0) ∧
      (∀ k, Sparse.get (fun _ => 0) t.sct k = 0) ∧ ∀ p, p < 12 → (t.port p).keyed = false := by
  obtain ⟨h1, h2, h3⟩ := s.zeroing_spec g
  obtain ⟨m1, m2, m3, m4⟩ := s.cleared_memory
  obtain ⟨c1, c2, c3, c4⟩ := State.contents_of_butZeroing h3
  refine ⟨_, execZeroisation_of hg hs hb hz, h1, fun a => ?_, fun k => ?_, fun k => ?_, fun k => ?_, fun p hp => ?_⟩
  · exact (State.byte_of_memKey c1 a).trans (m1 a)
  · rw [State.tileB, c2]
    exact m2 k
  · rw [State.acc, c3]
    exact m3 k
  · rw [c4]
    exact m4 k
  · rw [h2]
    exact State.eraseKeys_keyed _ hp

theorem State.power_of_butLevel {s t : State} (h : t.butLevel = s.butLevel) : t.power = s.power :=
  (congrArg State.power h :)

theorem State.power_of_butPorts {s t : State} (h : t.butPorts = s.butPorts) : t.power = s.power :=
  (congrArg State.power h :)

theorem State.lifeChange_power (s : State) (new : Nat) (m : Bool) : (s.lifeChange new m).power = s.power := by
  have h : ((s.setLevel (min (s.fget F.DBG_LEVEL_LEVEL) (s.lifeMax new))).leaveDebug).power = s.power :=
    (State.power_of_butRegs (State.leaveDebug_butRegs _)).trans (State.power_of_butLevel (s.setLevel_butLevel _))
  rw [State.lifeChange_eq, State.setFlag, State.fset_power, State.fset_power]
  show (s.leavingLife new m).power = _
  unfold State.leavingLife
  dsimp only
  generalize (s.setLevel (min (s.fget F.DBG_LEVEL_LEVEL) (s.lifeMax new))).leaveDebug = t at *
  have hk (u : State) : (if 3 ≤ new then u.eraseKeys else u).power = u.power := by
    split
    · exact State.power_of_butPorts u.eraseKeys_butPorts
    · rfl
  rw [hk]
  cases m <;> exact h

/-- The end of a change into or out of GRANTED, the new state in force. -/
def State.grantEnded (s : State) : State :=
  { s.setFlag F.SEC_LIFE_ZEROED true with sec := { s.sec with granting := none } }

theorem execZeroisationDone_of {s : State} {g : Nat} (hg : s.sec.granting = some g) (hs : s.stopped = false)
    (hz : s.power.zeroing = true) : exec .zeroisationDone s =
      .next ((((s.modPower fun p => { p with zeroing := false }).lifeChange g true).grantEnded).secDone 0) := by
  show execZeroisationDone s = _
  unfold execZeroisationDone
  rw [hg]
  dsimp only
  rw [if_neg (by simp [hs, hz])]
  rfl

theorem zeroisationDone_completes {s : State} {g : Nat} (hg : s.sec.granting = some g) (hs : s.stopped = false)
    (hz : s.power.zeroing = true) (h4 : g ≤ 4) : Completes .zeroisationDone s fun t =>
      t.power.zeroing = false ∧ t.sec.life = g ∧ t.fget F.SEC_LIFE_STATE = g ∧ t.flag F.SEC_LIFE_ZEROED = true ∧
      t.sec.granting = none ∧ t.flag F.SEC_STATUS_BUSY = false ∧ t.fget F.SEC_STATUS_RESULT = 0 := by
  have he := execZeroisationDone_of hg hs hz
  obtain ⟨hlife, -, -, -⟩ := (s.modPower fun p => { p with zeroing := false }).lifeChange_life g true
  have hst := (s.modPower fun p => { p with zeroing := false }).lifeChange_shows (new := g) true (by omega)
  have hpow := (s.modPower fun p => { p with zeroing := false }).lifeChange_power g true
  generalize (s.modPower fun p => { p with zeroing := false }).lifeChange g true = u at *
  have hsec : u.grantEnded.sec = { u.sec with granting := none } := rfl
  have hp : u.grantEnded.power = u.power := rfl
  have hstate : u.grantEnded.fget F.SEC_LIFE_STATE = g :=
    (State.fset_fget_apart u F.SEC_LIFE_ZEROED F.SEC_LIFE_STATE _ rfl).trans hst
  have hzd : u.grantEnded.flag F.SEC_LIFE_ZEROED = true := State.setFlag_flag u F.SEC_LIFE_ZEROED _ rfl
  generalize u.grantEnded = v at *
  obtain ⟨d1, d2, -⟩ := State.secDone_ended (s := v) (t := v) (res := 0) (by decide) rfl
  have hbr := v.secDone_butRegs 0
  have hk (k : Nat) (h : k ≠ Reg.SEC_STATUS) := v.secDone_reg 0 h
  generalize v.secDone 0 = t at *
  have hts := State.sec_of_butRegs hbr
  refine ⟨t, he, ?_, ?_, ?_, ?_, ?_, d1, d2⟩
  · rw [State.power_of_butRegs hbr, hp, hpow]
    rfl
  · rw [hts, hsec, hlife]
  · exact (State.fget_of_reg (hk _ (by decide))).trans hstate
  · exact (State.flag_of_reg (hk _ (by decide))).trans hzd
  · rw [hts, hsec]

/-- Settles O56. -/
theorem firmwareAndLifecycle : Obligations.FirmwareAndLifecycle := by
  unfold Obligations.FirmwareAndLifecycle
  intro s
  refine ⟨fun hb => ⟨fun n o => ⟨fun hn ⟨h0, ho⟩ => stage_taken (arm := false) hb rfl (fun _ => rfl) hn h0 ho,
        fun hn ⟨h0, ho⟩ => stage_taken (arm := true) hb rfl (fun _ => rfl) hn h0 ho⟩,
      fun n o hl h1 h4 e => install_done hb h1 h4 hl (Prod.ext e rfl), fun o hl ⟨h0, _⟩ => grant_taken hb hl h0,
      fun n => ⟨stage_either (arm := false) hb rfl fun _ => rfl, stage_either (arm := true) hb rfl fun _ => rfl⟩,
      fun arm => ⟨switch_completes hb, switch_refused hb, confirm_completes hb, confirm_refused hb⟩,
      fun n h1 h4 => ⟨install_either hb h1 h4, install_refused hb n⟩, grant_either hb, fun hl => ?_⟩,
    confirmTimeout_completes, fun g hg hs => ⟨zeroisation_completes hg hs, fun hz h4 => zeroisationDone_completes hg
      hs hz h4⟩,
    fun hl => ?_⟩
  · obtain ⟨h1, h2, -, -, h5⟩ := (s.commanded 7 false).beginGrant_spec s.sec.former
    exact ⟨_, exec_endGrant hb hl, h1, h2, h5⟩
  · exact ⟨_, congrArg Host.Outcome.next (if_pos hl), (s.lifeChange_life 1 false).1,
      s.lifeChange_shows false (by decide)⟩

end Sys2Proof.Machine
end

section
/-! SUPPORT. What stopping and clearing work leaves alone (R160, R163, R343, R345): resets in progress, the boundary,
pages, capsules, security, time and power stand outside of it. -/
namespace Sys2Proof.Machine

/-- The state without what issued work, its faults and its records hold. -/
def State.butWork (s : State) : State :=
  { s with regs := [], mem := [], ecc := [], bursts := [], stg := [], stgEcc := [], cache := [], wback := [],
           engines := [], ctxs := [], tiles := [], sides := [], tileEcc := [], tags := [], accs := [], heads := [],
           xfers := [], batches := [], colls := [], semq := [], semBy := [], bars := [], cqs := [], wtasks := [],
           ports := [], rtx := [], nextTag := 0, insts := [], issued := [], idle := [], ring := [], hist := [],
           ceHist := [], caps := [], crash := [], arithPend := [], loupes := [], shadows := [], retire := [],
           rots := [], resets := [], dumps := [], msix := 0, mirror := [], sent := [], noRoute := [], free := 0 }

theorem State.butWork_with {a_regs a_mem a_ecc a_bursts a_stg a_stgEcc a_cache a_wback a_engines a_ctxs a_tiles
  a_sides a_tileEcc a_tags a_accs a_heads a_xfers a_batches a_colls a_semq a_semBy a_bars a_cqs a_wtasks a_ports a_rtx
  a_nextTag a_insts a_issued a_idle a_ring a_hist a_ceHist a_caps a_crash a_arithPend a_loupes a_shadows a_retire
  a_rots a_resets a_dumps a_msix a_mirror a_sent a_noRoute a_free} {s : State} : State.butWork ⟨s.pending, a_regs,
  a_mem, a_ecc, a_bursts, s.hbmEpoch, s.sramEpoch, s.sramClean, a_stg, a_stgEcc, a_cache, a_wback, a_engines, a_ctxs,
  a_tiles, a_sides, a_tileEcc, a_tags, a_accs, a_heads, a_xfers, a_batches, a_colls, s.nextId, a_semq, a_semBy,
  a_bars, a_cqs, a_wtasks, s.fence, s.drains, s.disabled, s.sct, s.sctEcc, s.sched, s.upd, s.updq, s.roots, s.owns,
  s.rifOut, a_ports, a_rtx, a_nextTag, s.nbr, s.grp, s.grpEcc, a_insts, a_issued, s.folds, s.time, a_idle, s.power,
  s.temps, s.excl, s.gone, a_ring, a_hist, a_ceHist, a_caps, a_crash, a_arithPend, s.lpTab, s.advRing, s.lpEcc,
  s.advEcc, a_loupes, a_shadows, a_retire, a_rots, s.pages, s.granSpare, s.granDead, s.modBad, s.modWait, s.cycles,
  a_resets, s.resetFail, s.chReset, s.clReset, s.dieReset, a_dumps, s.vhist, s.capsules, s.sec, a_msix, a_mirror,
  s.cpl, s.cplPoison, s.tapOut, s.bar4, s.armIrq, a_sent, a_noRoute, a_free⟩ = s.butWork := by
  unfold State.butWork; rfl

/-! ## Through records, branches and folds -/

theorem State.butWork_ite (c : Prop) [Decidable c] (s t : State) :
    (if c then s else t).butWork = if c then s.butWork else t.butWork := by split <;> rfl

/-- What leaves all but records alone leaves all but work alone. -/
theorem State.butWork_of_butRecords {s t : State} (h : t.butRecords = s.butRecords) : t.butWork = s.butWork :=
  (congrArg State.butWork h :)
theorem State.foldl_butWork {α : Type} (f : State → α → State) (hf : ∀ s x, (f s x).butWork = s.butWork) (l : List α)
    (s : State) : (l.foldl f s).butWork = s.butWork := by
  induction l generalizing s with
  | nil => rfl
  | cons x l ih => rw [List.foldl_cons, ih, hf]

theorem State.faultN_butWork (s : State) (c : Nat) : (s.faultN c).butWork = s.butWork :=
  State.butWork_of_butRecords (s.faultN_butRecords c)
theorem State.event_butWork (s : State) (c : Nat) (u g : BitVec 32) (x y : BitVec 64) :
    (s.event c u g x y).butWork = s.butWork := State.butWork_of_butRecords (s.event_butRecords c u g x y)
theorem State.addrErr_butWork (s : State) (k : Nat) (wr : Bool) (src : Src) (a : BitVec 64) :
    (s.addrErr k wr src a).butWork = s.butWork := State.butWork_of_butRecords (s.addrErr_butRecords k wr src a)
theorem State.holeHit_butWork (s : State) (l : Loc) (a : Nat) : (s.holeHit l a).butWork = s.butWork :=
  State.butWork_of_butRecords (s.holeHit_butRecords l a)
theorem State.cacheTouch_butWork (s : State) (a : Nat) (w : Bool) : (s.cacheTouch a w).butWork = s.butWork :=
  State.butWork_of_butRecords (s.cacheTouch_butRecords a w)
theorem State.settleFault_butWork (s : State) (r : FRec) (p q : Bool) : (s.settleFault r p q).butWork = s.butWork :=
  State.butWork_of_butRecords (s.settleFault_butRecords r p q)
theorem State.settleColl_butWork (s : State) (g i : Nat) : (s.settleColl g i).butWork = s.butWork :=
  State.butWork_of_butRecords (s.settleColl_butRecords g i)

/-! ## The updates and the steps of stopping -/

theorem State.setReg_butWork' (s : State) (k : Nat) (v : BitVec 32) : (s.setReg k v).butWork = s.butWork := by
  unfold State.setReg; rfl
theorem State.fset_butWork' (s : State) (f : Fld) (v : Nat) : (s.fset f v).butWork = s.butWork := by
  unfold State.fset; rfl
theorem State.fsat_butWork' (s : State) (f : Fld) (n : Nat) : (s.fsat f n).butWork = s.butWork := by
  unfold State.fsat; rfl
theorem State.fwrap_butWork' (s : State) (f : Fld) (n : Nat) : (s.fwrap f n).butWork = s.butWork := by
  unfold State.fwrap; rfl
theorem State.setFlag_butWork' (s : State) (f : Fld) (b : Bool) : (s.setFlag f b).butWork = s.butWork := by
  unfold State.setFlag; rfl
theorem State.irq_butWork' (s : State) (v : Nat) : (s.irq v).butWork = s.butWork := by
  unfold State.irq; rfl
theorem State.setEng_butWork' (s : State) (e : Nat) (x : Engine) : (s.setEng e x).butWork = s.butWork := by
  unfold State.setEng; rfl
theorem State.modEng_butWork' (s : State) (e : Nat) (f : Engine → Engine) : (s.modEng e f).butWork = s.butWork := by
  unfold State.modEng; rfl
theorem State.setCtx_butWork' (s : State) (k : Nat) (x : Ctx) : (s.setCtx k x).butWork = s.butWork := by
  unfold State.setCtx; rfl
theorem State.modCtx_butWork' (s : State) (k : Nat) (f : Ctx → Ctx) : (s.modCtx k f).butWork = s.butWork := by
  unfold State.modCtx; rfl
theorem State.setAcc_butWork (s : State) (k : Nat) (v : BitVec 128) : (s.setAcc k v).butWork = s.butWork := by
  simp only [State.setAcc, ↓State.butWork_with]
theorem State.setXfer_butWork (s : State) (k : Nat) (x : Xfer) : (s.setXfer k x).butWork = s.butWork := by
  simp only [State.setXfer, ↓State.butWork_with]
theorem State.setBatch_butWork (s : State) (l : Nat) (x : List Batch) : (s.setBatch l x).butWork = s.butWork := by
  simp only [State.setBatch, ↓State.butWork_with]
theorem State.setColl_butWork (s : State) (k : Nat) (x : Coll) : (s.setColl k x).butWork = s.butWork := by
  simp only [State.setColl, ↓State.butWork_with]
theorem State.setWaiters_butWork (s : State) (k : Nat) (x : List Waiter) : (s.setWaiters k x).butWork =
  s.butWork := by
  simp only [State.setWaiters, ↓State.butWork_with]
theorem State.setCq_butWork (s : State) (q : Nat) (x : CQ) : (s.setCq q x).butWork = s.butWork := by
  simp only [State.setCq, ↓State.butWork_with]
theorem State.setPort_butWork (s : State) (p : Nat) (x : Port) : (s.setPort p x).butWork = s.butWork := by
  simp only [State.setPort, ↓State.butWork_with]
theorem State.modPort_butWork (s : State) (p : Nat) (f : Port → Port) : (s.modPort p f).butWork = s.butWork := by
  simp only [State.modPort, State.setPort_butWork]
theorem State.setRot_butWork (s : State) (u : Nat) (x : Rot) : (s.setRot u x).butWork = s.butWork := by
  simp only [State.setRot, ↓State.butWork_with]
theorem State.setLoupe_butWork (s : State) (u : Nat) (x : Loupe) : (s.setLoupe u x).butWork = s.butWork := by
  simp only [State.setLoupe, ↓State.butWork_with]
theorem State.pumpGo_butWork (s : State) (p : Nat) (tails : List (Nat × List MWord)) (y0 : List (BitVec 16 ×
  Msg)) (y1
  : List Nat) (y2 : List (BitVec 16 × Msg)) : (s.pumpGo p tails y0 y1 y2).butWork = s.butWork := by
  induction y0 generalizing s tails y1 y2 with
  | nil => rfl
  | cons m ms ih =>
    simp only [State.pumpGo]
    split <;> simp only [ih, ↓State.butWork_with, ↓State.butWork_with, State.setPort_butWork]
theorem State.pump_butWork (s : State) (p : Nat) : (s.pump p).butWork = s.butWork := by
  simp only [State.pump, State.pumpGo_butWork]
theorem State.postTo_butWork (s : State) (p : Nat) (dst : BitVec 16) (m : Msg) : (s.postTo p dst m).butWork =
  s.butWork
  := by
  simp only [State.postTo, State.modPort_butWork, State.pump_butWork]
theorem State.toPkg_butWork (s : State) (pkg : BitVec 16) (m : Msg) : (s.toPkg pkg m).butWork = s.butWork := by
  unfold State.toPkg
  (repeat' split) <;> simp only [↓State.butWork_with, State.postTo_butWork]
theorem State.reHold_butWork (s : State) (e : Nat) : (s.reHold e).butWork = s.butWork := by
  unfold State.reHold
  (repeat' split) <;> simp only [State.foldl_butWork, implies_true, State.foldl_butWork, State.setXfer_butWork]
theorem State.addIdle_butWork (s : State) (c : Nat) (dt : BitVec 64) : (s.addIdle c dt).butWork = s.butWork := by
  simp only [State.addIdle, ↓State.butWork_with]
theorem State.settle_butWork (s : State) (e : Nat) : (s.settle e).butWork = s.butWork := by
  unfold State.settle
  (repeat' split) <;> simp only [↓State.butWork_ite, ite_self, State.setEng_butWork', State.modEng_butWork',
    State.addIdle_butWork]
theorem State.payPeer_butWork (s : State) (e : Nat) : (s.payPeer e).butWork = s.butWork := by
  simp only [State.payPeer, ↓State.butWork_ite, ite_self, State.setEng_butWork', State.addIdle_butWork]
theorem State.endWait_butWork (s : State) (e k : Nat) (f : Ctx → Ctx) : (s.endWait e k f).butWork = s.butWork := by
  simp only [State.endWait, ↓State.butWork_ite, ite_self, State.settle_butWork, State.payPeer_butWork,
    State.modCtx_butWork']
theorem State.wake_butWork (s : State) (e why : Nat) : (s.wake e why).butWork = s.butWork := by
  simp only [State.wake, ↓State.butWork_ite, ite_self, State.foldl_butWork, implies_true, State.foldl_butWork,
    State.endWait_butWork]
theorem State.offer_butWork (s : State) (e l : Nat) : (s.offer e l).butWork = s.butWork := by
  simp only [State.offer, ↓State.butWork_ite, ite_self, State.wake_butWork]

theorem State.showUsed_butWork (s : State) (u : Nat) : (s.showUsed u).butWork = s.butWork := by
  simp only [State.showUsed, State.fset_butWork']
theorem State.modCmd_butWork (s : State) (q : Nat) (seq : BitVec 32) (f : Cmd → Cmd) : (s.modCmd q seq
  f).butWork =
  s.butWork := by
  simp only [State.modCmd, State.setCq_butWork]
theorem State.serve_butWork (s : State) (w : Waiter) : (s.serve w).butWork = s.butWork := by
  unfold State.serve
  (repeat' split) <;> simp only [State.endWait_butWork, State.modCmd_butWork]
theorem State.serviceLoop_butWork (s : State) (u k : Nat) (y0 : List Waiter) : (s.serviceLoop u k y0).butWork =
  s.butWork := by
  induction y0 generalizing s with
  | nil => rfl
  | cons _ _ ih =>
    simp only [State.serviceLoop]
    (repeat' split) <;> simp only [ih, State.setWaiters_butWork, State.fset_butWork', State.serve_butWork]
theorem State.service_butWork (s : State) (u k : Nat) : (s.service u k).butWork = s.butWork := by
  simp only [State.service, State.serviceLoop_butWork]
theorem State.signal_butWork (s : State) (u k n who : Nat) : (s.signal u k n who).butWork = s.butWork := by
  simp only [State.signal, ↓State.butWork_with, ↓State.butWork_ite, ite_self, State.setFlag_butWork',
    State.fset_butWork', State.service_butWork]
theorem State.setEl_butWork (s : State) (e a i : Nat) (x : El) : (s.setEl e a i x).butWork = s.butWork := by
  simp only [State.setEl, State.setAcc_butWork]
theorem State.mapAcc_butWork (s : State) (e a : Nat) (f : Nat → El → El) : (s.mapAcc e a f).butWork = s.butWork
  := by
  simp only [State.mapAcc, State.foldl_butWork, implies_true, State.foldl_butWork, State.setEl_butWork]
theorem State.poisonAcc_butWork (s : State) (e a : Nat) : (s.poisonAcc e a).butWork = s.butWork := by
  simp only [State.poisonAcc, State.mapAcc_butWork]
theorem State.freeXfer_butWork (s : State) (e l n : Nat) : (s.freeXfer e l n).butWork = s.butWork := by
  simp only [State.freeXfer, State.setXfer_butWork, State.offer_butWork]
theorem State.toAll_butWork (s : State) (ds : List Nat) (m : Msg) : (s.toAll ds m).butWork = s.butWork := by
  simp only [State.toAll, State.foldl_butWork, implies_true, State.foldl_butWork, State.toPkg_butWork]

theorem State.setInst_butWork (s : State) (k : Nat) (x : Inst) : (s.setInst k x).butWork = s.butWork := by
  simp only [State.setInst, ↓State.butWork_with, State.fset_butWork']
theorem State.closeInst_butWork (s : State) (k : Nat) : (s.closeInst k).butWork = s.butWork := by
  simp only [State.closeInst, ↓State.butWork_ite, ite_self, State.setInst_butWork, State.settleColl_butWork]
theorem State.endMember_butWork (s : State) (k m : Nat) (c : Code) (cause : Nat) : (s.endMember k m c
  cause).butWork =
  s.butWork := by
  unfold State.endMember
  dsimp only
  (repeat' split) <;> simp only [State.setInst_butWork, State.setColl_butWork, State.closeInst_butWork,
    State.settle_butWork, State.modCtx_butWork', State.wake_butWork, State.signal_butWork]
theorem State.modBar_butWork (s : State) (p : BarId × Bar → Bool) (f : Bar → Bar) : (s.modBar p f).butWork =
  s.butWork
  := by
  simp only [State.modBar, ↓State.butWork_with]
theorem State.closeBars_butWork (s : State) : s.closeBars.butWork = s.butWork := by
  simp only [State.closeBars, ↓State.butWork_with]
theorem State.leaveBars_butWork (s : State) (l k : Nat) : (s.leaveBars l k).butWork = s.butWork := by
  unfold State.leaveBars
  dsimp only
  (repeat' split) <;> simp only [State.modBar_butWork, State.closeBars_butWork, State.toPkg_butWork]

theorem State.showCaps_butWork (s : State) : s.showCaps.butWork = s.butWork := by
  simp only [State.showCaps, State.fset_butWork']
theorem State.dropCapture_butWork (s : State) (n : Nat) (c : CapSlot) : (s.dropCapture n c).butWork = s.butWork
  := by
  simp only [State.dropCapture, ↓State.butWork_with, ↓State.butWork_ite, ite_self, State.showCaps_butWork,
    State.settleFault_butWork]
theorem State.dropReplays_butWork (s : State) (p : Nat → Bool) : (s.dropReplays p).butWork = s.butWork := by
  simp only [State.dropReplays, State.foldl_butWork, implies_true, State.foldl_butWork, State.dropCapture_butWork]

theorem State.dump_butWork (s : State) (cause : Nat) (hang : List (Nat × Nat)) : (s.dump cause hang).butWork =
  s.butWork
  := by
  simp only [State.dump, ↓State.butWork_with, ↓State.butWork_ite, ite_self, State.fsat_butWork', State.setFlag_butWork',
    State.fset_butWork', State.irq_butWork']
theorem State.recovery_butWork (s : State) (unit : BitVec 32) (what : Nat) : (s.recovery unit what).butWork =
  s.butWork
  := by
  simp only [State.recovery, State.event_butWork]
theorem State.outOfService_butWork (s : State) : s.outOfService.butWork = s.butWork := by
  simp only [State.outOfService, ↓State.butWork_ite, ite_self, State.setFlag_butWork', State.recovery_butWork,
    State.dump_butWork]

theorem State.taskRecord_butWork (s : State) (q : Nat) (seq : BitVec 32) (c : Code) (nstat nfault unit :
  BitVec 32)
  (cut : Bool) : (s.taskRecord q seq c nstat nfault unit cut).butWork = s.butWork := by
  simp only [State.taskRecord, State.modCmd_butWork]
theorem State.stopArrays_butWork (s : State) (e k : Nat) : (s.stopArrays e k).butWork = s.butWork := by
  simp only [State.stopArrays, ↓State.butWork_ite, ite_self, State.foldl_butWork, implies_true, State.foldl_butWork,
    State.poisonAcc_butWork, State.modEng_butWork']
theorem State.stopXfer_butWork (s : State) (e l n : Nat) : (s.stopXfer e l n).butWork = s.butWork := by
  simp only [State.stopXfer, ↓State.butWork_ite, ite_self, State.freeXfer_butWork, State.setXfer_butWork]
theorem State.stopStreams_butWork (s : State) (e k l : Nat) : (s.stopStreams e k l).butWork = s.butWork := by
  simp only [State.stopStreams, ↓State.butWork_ite, ite_self, State.foldl_butWork, implies_true, State.foldl_butWork,
    State.stopXfer_butWork, State.setBatch_butWork, State.wake_butWork, State.offer_butWork]
theorem State.stopWait_butWork (s : State) (e k l : Nat) : (s.stopWait e k l).butWork = s.butWork := by
  simp only [State.stopWait, ↓State.butWork_ite, ite_self, State.setWaiters_butWork, State.service_butWork,
    State.leaveBars_butWork]
theorem State.dropWaiting_butWork (s : State) (p : WTask → Bool) (c : Code) : (s.dropWaiting p c).butWork =
  s.butWork :=
  by
  simp only [State.dropWaiting, ↓State.butWork_with, State.foldl_butWork, implies_true, State.foldl_butWork,
    State.taskRecord_butWork]

theorem State.showNoSpare_butWork (s : State) : s.showNoSpare.butWork = s.butWork := by
  simp only [State.showNoSpare, State.fset_butWork']
theorem State.setSpare_butWork (s : State) (u : Nat) (e : Option Nat) : (s.setSpare u e).butWork = s.butWork := by
  unfold State.setSpare
  (repeat' split) <;> simp only [State.setFlag_butWork', State.fset_butWork', State.dropReplays_butWork,
    State.showNoSpare_butWork]
theorem State.bind_butWork (s : State) (l : Nat) (e : Option Nat) : (s.bind l e).butWork = s.butWork := by
  unfold State.bind
  (repeat' split) <;> simp only [State.setFlag_butWork', State.fset_butWork']
theorem State.clearEngine_butWork (s : State) (e : Nat) : (s.clearEngine e).butWork = s.butWork := by
  simp only [State.clearEngine, ↓State.butWork_with, State.setEng_butWork']
theorem State.countReset_butWork (s : State) (unit : BitVec 32) (n : Nat) : (s.countReset unit n).butWork =
  s.butWork :=
  by
  simp only [State.countReset, ↓State.butWork_with]
theorem State.endTransfers_butWork (s : State) (l : Nat) (all : Bool) : (s.endTransfers l all).butWork =
  s.butWork := by
  simp only [State.endTransfers, ↓State.butWork_ite, ite_self, State.foldl_butWork, implies_true, State.foldl_butWork,
    State.setXfer_butWork]
theorem State.clearCluster_butWork (s : State) (u : Nat) : (s.clearCluster u).butWork = s.butWork := by
  simp only [State.clearCluster, ↓State.butWork_with, State.foldl_butWork, implies_true, State.foldl_butWork,
    State.settle_butWork, State.clearEngine_butWork, State.endTransfers_butWork, State.setBatch_butWork,
    State.setLoupe_butWork, State.showUsed_butWork]


/-! ## Stores -/

theorem State.store_butWork (s : State) (a : Nat) (w : MWord) : (s.store a w).butWork = s.butWork := by
  simp only [State.store, State.setByte, State.mendBurst, ↓State.butWork_with, ↓State.butWork_ite, ite_self]
theorem State.writeAt_butWork (s : State) (h : Bool) (src : Src) (pkg : BitVec 16) (a : Nat) (w : MWord) :
    (s.writeAt h src pkg a w).butWork = s.butWork := by
  unfold State.writeAt
  (repeat' split) <;> simp only [State.addrErr_butWork, State.holeHit_butWork, State.store_butWork,
    State.cacheTouch_butWork]
theorem State.writeGo_butWork (ws : List MWord) (s : State) (h : Bool) (src : Src) (pkg : BitVec 16) (a : Nat) :
    (s.writeGo h src pkg a ws).butWork = s.butWork := by
  induction ws generalizing s h a with
  | nil => rfl
  | cons w ws ih => rw [State.writeGo, ih, State.writeAt_butWork]
theorem State.writeN_butWork (s : State) (src : Src) (pkg : BitVec 16) (a : Nat) (ws : List MWord) :
    (s.writeN src pkg a ws).butWork = s.butWork := s.writeGo_butWork ws true src pkg a
theorem State.writeImages_butWork (s : State) (src : Src) (g : BitVec 64) (ws : List MWord) :
    (s.writeImages src g ws).butWork = s.butWork := by
  simp only [State.writeImages, ↓State.butWork_ite, State.writeN_butWork, State.addrErr_butWork, ite_self]
theorem State.writeElems_butWork (s : State) (src : Src) (g : BitVec 64) (es : List Elem) :
    (s.writeElems src g es).butWork = s.butWork := by
  simp only [State.writeElems, ↓State.butWork_ite, State.writeN_butWork, State.addrErr_butWork, ite_self]

/-! ## Withdrawals, stops and resets -/

theorem State.cancelInst_butWork (s : State) (k : Nat) : (s.cancelInst k).butWork = s.butWork := by
  unfold State.cancelInst
  refine (State.foldl_butWork _ (fun s p => ?_) _ _).trans (s.setInst_butWork _ _)
  simp only [State.endMember_butWork, ↓State.butWork_ite, State.writeImages_butWork, State.writeElems_butWork, ite_self]
theorem State.withdrawUp_butWork (s : State) (k : Nat) : (s.withdrawUp k).butWork = s.butWork := by
  unfold State.withdrawUp
  dsimp only
  (repeat' split) <;> simp only [State.toPkg_butWork, State.closeInst_butWork, State.toAll_butWork,
    State.cancelInst_butWork]
theorem State.withdrawMember_butWork (s : State) (key : Nat) (c : Code) (cause : Nat) :
    (s.withdrawMember key c cause).butWork = s.butWork := by
  simp only [State.withdrawMember, ↓State.butWork_ite, State.withdrawUp_butWork, State.endMember_butWork, ite_self]
theorem State.stopTask_butWork (s : State) (e k : Nat) (c : Code) : (s.stopTask e k c).butWork = s.butWork := by
  unfold State.stopTask
  dsimp only
  split
  · rfl
  split
  · exact s.setCtx_butWork' _ _
  refine (State.foldl_butWork _ (fun s n => ?_) _ _).trans ?_
  · simp only [↓State.butWork_ite, State.withdrawMember_butWork, ite_self]
  · simp only [State.reHold_butWork, State.stopStreams_butWork, State.modCtx_butWork', State.stopWait_butWork,
      State.stopArrays_butWork, ↓State.butWork_ite, State.payPeer_butWork, State.settle_butWork, ite_self]
theorem State.stopTasks_butWork (s : State) (ts : List (Nat × Nat)) (c : Code) : (s.stopTasks ts c).butWork =
  s.butWork :=
  State.foldl_butWork _ (fun _ _ => State.stopTask_butWork _ _ _ _) _ _
theorem State.stopWhere_butWork (s : State) (p : Nat → Bool) (c : Code) : (s.stopWhere p c).butWork = s.butWork := by
  simp only [State.stopWhere, State.stopTasks_butWork, State.dropWaiting_butWork]
theorem State.stopHeld_butWork (s : State) (e : Nat) : (s.stopHeld e).butWork = s.butWork := by
  refine State.foldl_butWork _ (fun s k => ?_) _ _
  split
  · rw [State.stopTask_butWork, State.modCtx_butWork']
  · rfl
theorem State.abandon_butWork (s : State) (u : Nat) : (s.abandon u).butWork = s.butWork := by
  unfold State.abandon
  dsimp only
  split
  · rfl
  · simp only [State.setSpare_butWork, State.setRot_butWork, State.setFlag_butWork']
  · split <;> simp only [State.fsat_butWork', State.modEng_butWork', State.stopHeld_butWork, State.setRot_butWork,
      State.settle_butWork]
theorem State.endWork_butWork (s : State) (us : List Nat) : (s.endWork us).butWork = s.butWork := by
  simp only [State.endWork, State.stopWhere_butWork, State.dropReplays_butWork]
  exact State.foldl_butWork _ (fun _ _ => State.abandon_butWork _ _) _ _
theorem State.quarCluster_butWork (s : State) (u : Nat) : (s.quarCluster u).butWork = s.butWork := by
  simp only [State.quarCluster, ↓State.butWork_ite, State.faultN_butWork, State.recovery_butWork,
    State.dropReplays_butWork, State.setFlag_butWork', State.stopWhere_butWork, State.abandon_butWork, ite_self]
theorem State.quarDie_butWork (s : State) (d : Nat) : (s.quarDie d).butWork = s.butWork := by
  simp only [State.quarDie, ↓State.butWork_ite, State.outOfService_butWork, State.faultN_butWork, State.dump_butWork,
    State.recovery_butWork, ↓State.butWork_with, State.setFlag_butWork', State.fset_butWork',
    State.dropReplays_butWork, State.stopWhere_butWork, ite_self,
    State.foldl_butWork (fun s i => s.abandon (24 * d + i)) fun _ _ => State.abandon_butWork _ _]

end Sys2Proof.Machine
end

section
/-! SUPPORT. A Riffler leaves and returns (R220, R224): what its status, the map of the Rifflers and the list of
  those that
are out show. -/
namespace Sys2Proof.Machine

/-! ## Bits of a small field -/

/-- A bit of a four-bit map, set. -/
theorem testBit_setOne (v : Nat) {n : Nat} (hn : n < 4) : ((v ||| 2 ^ n) % 2 ^ 4).testBit n = true := by
  rw [Nat.testBit_mod_two_pow, Nat.testBit_or, Nat.testBit_two_pow_self, Bool.or_true, Bool.and_true, decide_eq_true hn]

/-- A bit of a four-bit map, cleared. -/
theorem testBit_clearOne (v : Nat) : ∀ n < 4, ((v &&& (15 - 2 ^ n)) % 2 ^ 4).testBit n = false := by
  intro n hn
  have h : (15 - 2 ^ n).testBit n = false := by
    revert n
    decide
  rw [Nat.testBit_mod_two_pow, Nat.testBit_and, h, Bool.and_false, Bool.and_false]

/-! ## The status of a Riffler -/

/-- The bit of a Riffler in a map. -/
def rifBit (n v : Nat) (b : Bool) : Nat := if b then v ||| 2 ^ n else v &&& (15 - 2 ^ n)

theorem State.setRif_eq (s : State) (n st : Nat) : s.setRif n st =
    (let t := s.fset (F.RIF_STATUS_STATE n) st
     let t := t.fset F.RIF_PKG_STATUS_OUT (rifBit n (t.fget F.RIF_PKG_STATUS_OUT) (st != 1))
     t.fset F.PLN_DIE_MAP_RIF_ACTIVE (rifBit n (t.fget F.PLN_DIE_MAP_RIF_ACTIVE) (st == 1 || st == 2))) := rfl

theorem rifReg_apart : ∀ n : Fin 4, Reg.RIF_STATUS n ≠ Reg.RIF_PKG_STATUS ∧ Reg.RIF_STATUS n ≠ Reg.PLN_DIE_MAP ∧
    Reg.RIF_STATUS n ≠ Reg.RIF_ROOT ∧ (∀ k : Fin 4, Reg.RIF_STATUS n ≠ Reg.RIF_LAG k) := by decide

theorem State.setRif_spec (s : State) (n : Fin 4) {st : Nat} (h : st < 4) :
    (s.setRif n st).butRegs = s.butRegs ∧ (s.setRif n st).fget (F.RIF_STATUS_STATE n) = st ∧
      ((s.setRif n st).fget F.RIF_PKG_STATUS_OUT).testBit n = (st != 1) ∧
      ((s.setRif n st).fget F.PLN_DIE_MAP_RIF_ACTIVE).testBit n = (st == 1 || st == 2) := by
  obtain ⟨h1, h2, -⟩ := rifReg_apart n
  rw [State.setRif_eq]
  generalize ho : s.fset (F.RIF_STATUS_STATE n) st = t
  have hst : t.fget (F.RIF_STATUS_STATE n) = st := by
    rw [← ho, State.fset_fget _ _ _ rfl]
    exact Nat.mod_eq_of_lt h
  have hb : t.butRegs = s.butRegs := by rw [← ho, State.fset_butRegs]
  dsimp only
  generalize hu : t.fset F.RIF_PKG_STATUS_OUT (rifBit n (t.fget F.RIF_PKG_STATUS_OUT) (st != 1)) = u
  have hout : (u.fget F.RIF_PKG_STATUS_OUT).testBit n = (st != 1) := by
    rw [← hu, State.fset_fget _ _ _ rfl]
    cases st != 1
    · exact testBit_clearOne _ n n.isLt
    · exact testBit_setOne _ n.isLt
  refine ⟨(State.fset_butRegs _ _ _).trans ((by rw [← hu, State.fset_butRegs] : u.butRegs = t.butRegs).trans hb), ?_,
    ?_,
    ?_⟩
  · rw [State.fset_fget_apart _ _ _ _ (Fld.apart_of_key h2.symm), ← hu,
      State.fset_fget_apart _ _ _ _ (Fld.apart_of_key h1.symm), hst]
  · rw [State.fset_fget_apart _ _ _ _ rfl, hout]
  · rw [State.fset_fget _ _ _ rfl]
    cases st == 1 || st == 2
    · exact testBit_clearOne _ n n.isLt
    · exact testBit_setOne _ n.isLt

/-! ## Leaving -/

theorem State.roots_of_butRegs {s t : State} (h : t.butRegs = s.butRegs) : t.roots = s.roots := (congrArg State.roots
  h :)

/-- The list of the Rifflers out, replaced. -/
def State.withOut (s : State) (l : List (Nat × Bool)) : State := { s with rifOut := l }

theorem State.withOut_spec (s : State) (l : List (Nat × Bool)) : (s.withOut l).rifOut = l ∧ (s.withOut l).upd = s.upd ∧
    (s.withOut l).roots = s.roots ∧ (s.withOut l).memKey = s.memKey ∧ ∀ k, (s.withOut l).reg k = s.reg k :=
  ⟨rfl, rfl, rfl, rfl, fun _ => rfl⟩

/-- The Riffler is out of service. -/
def State.rifGone (s : State) (n : Nat) (fault : Bool) : State := (s.setRif n 3).withOut (s.rifOut ++ [(n, fault)])

/-- Its own copies in progress are given up, and those without another copy count as lag. -/
def State.disowned (s : State) (n : Nat) : State :=
  ({ s with owns := s.owns.filter fun c => !(c.rif == n) } : State).fsat (F.RIF_LAG_COUNT n)
    ((s.owns.filter (·.rif == n)).filter (·.oth.isNone)).length

/-- What its leaving does to the running UPDATE, with `lag` copies given up. -/
def State.updLeft (s : State) (n : Nat) (fault : Bool) (lag : Nat) : State :=
  match s.upd with
  | none => s
  | some u =>
    let act := u.act.filter fun c => !(c.rif == n)
    let u := { u with degraded := true, act := act, cnt := u.cnt.add { lag := lag } }
    let s := { s with upd := some u }.showHeld
    if 3 ≤ s.rifCount then s.updSettle
    else if fault then s.updHalt .unitRetired 0
    else s.updHalt .aborted causeABORT

/-- Root computations, replaced, and the UPDATE's part. -/
def State.rooted (x : List Root × State) (n : Nat) (fault : Bool) (lag : Nat) : State :=
  let (rs, s) := x
  State.updLeft { s with roots := rs }.showRoot n fault lag

theorem State.rooted_pair (s : State) (rs : List Root) (n : Nat) (fault : Bool) (lag : Nat) :
    State.rooted (rs, s) n fault lag = State.updLeft { s with roots := rs }.showRoot n fault lag := rfl

theorem State.moveRoots_nil (s : State) (n : Nat) : s.moveRoots n [] = ([], s) := rfl

/-- What its leaving does to root computations, and then to the UPDATE. -/
def State.rootsLeft (s : State) (n : Nat) (fault : Bool) (lag : Nat) : State :=
  State.rooted (s.moveRoots n s.roots) n fault lag

theorem State.rifLeave_eq {s : State} {n : Nat} (fault : Bool) (hin : s.rifIn n = true) : s.rifLeave n fault =
    ((s.rifGone n fault).disowned n).rootsLeft n fault
      (((s.rifGone n fault).owns.filter (·.rif == n)).filter (·.oth.isNone)).length :=
  if_neg (by rw [hin]; decide)

theorem State.updLeft_idle {s : State} (n : Nat) (fault : Bool) (lag : Nat) (hu : s.upd = none) :
    s.updLeft n fault lag = s := by
  unfold State.updLeft
  rw [hu]

theorem State.showRoot_spec (s : State) : ({ s with roots := [] } : State).showRoot.rifOut = s.rifOut ∧
    ({ s with roots := [] } : State).showRoot.upd = s.upd ∧
    ({ s with roots := [] } : State).showRoot.memKey = s.memKey ∧
    ∀ k, k ≠ Reg.RIF_ROOT → ({ s with roots := [] } : State).showRoot.reg k = s.reg k :=
  ⟨rfl, rfl, rfl, fun _ h => State.fset_reg_ne _ _ _ _ h⟩

theorem State.rootsLeft_idle {s : State} (n : Nat) (fault : Bool) (lag : Nat) (hu : s.upd = none) (hr : s.roots = []) :
    s.rootsLeft n fault lag = ({ s with roots := [] } : State).showRoot := by
  unfold State.rootsLeft
  rw [hr, State.moveRoots_nil, State.rooted_pair, State.updLeft_idle _ _ _ (s.showRoot_spec.2.1.trans hu)]

theorem State.disowned_spec (s : State) (n : Nat) : (s.disowned n).rifOut = s.rifOut ∧ (s.disowned n).upd = s.upd ∧
    (s.disowned n).roots = s.roots ∧ (s.disowned n).memKey = s.memKey ∧
    ∀ k, k ≠ Reg.RIF_LAG n → (s.disowned n).reg k = s.reg k :=
  ⟨rfl, rfl, rfl, rfl, fun _ h => State.fset_reg_ne _ _ _ _ h⟩

theorem State.rifGone_spec (s : State) (n : Fin 4) (fault : Bool) :
    (s.rifGone n fault).rifOut = s.rifOut ++ [(n.val, fault)] ∧ (s.rifGone n fault).upd = s.upd ∧
      (s.rifGone n fault).roots = s.roots ∧ (s.rifGone n fault).memKey = s.memKey ∧
      (s.rifGone n fault).fget (F.RIF_STATUS_STATE n) = 3 ∧
      ((s.rifGone n fault).fget F.RIF_PKG_STATUS_OUT).testBit n = true ∧
      ((s.rifGone n fault).fget F.PLN_DIE_MAP_RIF_ACTIVE).testBit n = false := by
  obtain ⟨hb, h1, h2, h3⟩ := s.setRif_spec n (st := 3) (by decide)
  unfold State.rifGone
  generalize s.setRif n 3 = t at *
  obtain ⟨wout, wupd, wroots, wmem, wreg⟩ := t.withOut_spec (s.rifOut ++ [(n.val, fault)])
  exact ⟨wout, wupd.trans (State.upd_of_butRegs hb), wroots.trans (State.roots_of_butRegs hb),
    wmem.trans (State.memKey_of_butRegs hb), (State.fget_of_reg (wreg _)).trans h1,
    (congrArg (Nat.testBit · n) (State.fget_of_reg (wreg _))).trans h2,
    (congrArg (Nat.testBit · n) (State.fget_of_reg (wreg _))).trans h3⟩

/-- A Riffler leaves while no UPDATE runs and no root is computed. -/
theorem State.rifLeave_spec {s : State} {n : Fin 4} (fault : Bool) (hn : s.rifUp n = true) (hu : s.upd = none)
    (hr : s.roots = []) :
    (s.rifLeave n fault).fget (F.RIF_STATUS_STATE n) = 3 ∧
      ((s.rifLeave n fault).fget F.RIF_PKG_STATUS_OUT).testBit n = true ∧
      ((s.rifLeave n fault).fget F.PLN_DIE_MAP_RIF_ACTIVE).testBit n = false ∧
      (s.rifLeave n fault).rifOut = s.rifOut ++ [(n.val, fault)] ∧ (s.rifLeave n fault).memKey = s.memKey := by
  have hin : s.rifIn n = true := by
    simp only [State.rifUp, beq_iff_eq] at hn
    rw [State.rifIn, hn]
    rfl
  obtain ⟨gout, gupd, groots, gmem, g1, g2, g3⟩ := s.rifGone_spec n fault
  obtain ⟨-, -, hroot, hlag⟩ := rifReg_apart n
  rw [State.rifLeave_eq fault hin]
  generalize s.rifGone n fault = t at *
  obtain ⟨dout, dupd, droots, dmem, dreg⟩ := t.disowned_spec n
  rw [State.rootsLeft_idle _ _ _ (dupd.trans (gupd.trans hu)) (droots.trans (groots.trans hr))]
  generalize t.disowned n = v at *
  obtain ⟨sout, -, smem, sreg⟩ := v.showRoot_spec
  generalize ({ v with roots := [] } : State).showRoot = z at *
  have hlagne : ∀ n : Fin 4, Reg.RIF_PKG_STATUS ≠ Reg.RIF_LAG n ∧ Reg.PLN_DIE_MAP ≠ Reg.RIF_LAG n := by decide
  have kept (k : Nat) (hk1 : k ≠ Reg.RIF_ROOT) (hk2 : k ≠ Reg.RIF_LAG n) : z.reg k = t.reg k :=
    (sreg k hk1).trans (dreg k hk2)
  refine ⟨(State.fget_of_reg (kept _ hroot (hlag n))).trans g1, ?_, ?_, sout.trans (dout.trans gout),
    smem.trans (dmem.trans gmem)⟩
  · exact (congrArg (Nat.testBit · n) (State.fget_of_reg (kept Reg.RIF_PKG_STATUS (by decide) (hlagne n).1))).trans g2
  · exact (congrArg (Nat.testBit · n) (State.fget_of_reg (kept Reg.PLN_DIE_MAP (by decide) (hlagne n).2))).trans g3

/-! ## Returning -/

theorem State.rifReturn_eq (s : State) (n : Nat) :
    s.rifReturn n = (s.setRif n 1).withOut (s.rifOut.filter (·.1 ≠ n)) := rfl

theorem State.rifReturn_spec (s : State) (n : Fin 4) : (s.rifReturn n).fget (F.RIF_STATUS_STATE n) = 1 ∧
    ((s.rifReturn n).fget F.RIF_PKG_STATUS_OUT).testBit n = false ∧
    ((s.rifReturn n).fget F.PLN_DIE_MAP_RIF_ACTIVE).testBit n = true ∧
    (s.rifReturn n).rifOut = s.rifOut.filter (·.1 ≠ n.val) ∧ (s.rifReturn n).memKey = s.memKey := by
  obtain ⟨hb, h1, h2, h3⟩ := s.setRif_spec n (st := 1) (by decide)
  rw [State.rifReturn_eq]
  generalize s.setRif n 1 = t at *
  obtain ⟨wout, -, -, wmem, wreg⟩ := t.withOut_spec (s.rifOut.filter (·.1 ≠ n.val))
  exact ⟨(State.fget_of_reg (wreg _)).trans h1, (congrArg (Nat.testBit · n) (State.fget_of_reg (wreg _))).trans h2,
    (congrArg (Nat.testBit · n) (State.fget_of_reg (wreg _))).trans h3, wout, wmem.trans (State.memKey_of_butRegs hb)⟩

theorem exec_rifflerReturn {s : State} {n : Fin 4} (h3 : s.fget (F.RIF_STATUS_STATE n) = 3)
    (he : s.rifEdgeOpen n = true) (hg : s.gone.contains (0x10000 + n.val) = false) (hd : s.rifDisabled n = false) :
    exec (.rifflerReturn n) s = .next (s.rifReturn n) :=
  if_pos (by rw [h3, he, hg, hd]; rfl)

/-- Settles O28: its status, the map and the list of the Rifflers out change with one write of its status. -/
theorem rifflersLeaveAndReturn : Obligations.RifflersLeaveAndReturn := by
  unfold Obligations.RifflersLeaveAndReturn
  refine fun s n => ⟨fun hn hu hr _ => ⟨s.rifLeave n true, rfl, ?_⟩, fun h3 he hg hd => ⟨s.rifReturn n,
    exec_rifflerReturn h3 he hg hd, ?_⟩⟩
  · obtain ⟨h1, h2, h3, h4, hm⟩ := State.rifLeave_spec true hn hu hr
    exact ⟨h1, h2, h3, h4, State.byte_of_memKey hm⟩
  · obtain ⟨h1, h2, h3, h4, hm⟩ := s.rifReturn_spec n
    exact ⟨h1, h2, h3, h4, State.byte_of_memKey hm⟩

end Sys2Proof.Machine
end

section
/-! SUPPORT. A write of TST_RESET by its kind (R343, R350), and what resets of engines, clusters, dies, channels and
  ports
leave. -/
namespace Sys2Proof.Machine

/-! ## The word of a reset -/

theorem tstReset_toNat {k d c i : Nat} (hk : k < 16) (hd : d < 4) (hc : c < 32) (hi : i < 1024) :
    (tstReset k d c i).toNat = k * 2 ^ 28 + d * 2 ^ 26 + c * 2 ^ 21 + i * 2 ^ 11 := by
  rw [tstReset, BitVec.toNat_ofNat, Nat.mod_eq_of_lt (by omega)]

/-- One of eight by its number, or none of them. -/
def oneOf {α : Type} (kind : Nat) (a1 a2 a3 a4 a5 a6 a7 a8 a0 : α) : α :=
  match kind with
  | 1 => a1
  | 2 => a2
  | 3 => a3
  | 4 => a4
  | 5 => a5
  | 6 => a6
  | 7 => a7
  | 8 => a8
  | _ => a0

/-- The reset of a kind with these fields. -/
def State.resetKind (s : State) (kind d c i : Nat) : State :=
  oneOf kind (if 24 ≤ c ∨ 17 ≤ i then s else s.resetEngine (cluKey d c * 17 + i))
    (if 24 ≤ c then s else s.resetCluster (cluKey d c))
    (if i < 512 then s.resetChannel (i / 32) (i % 32) else if i < 576 then s.resetChannel (16 + (i - 512) / 8) (i % 8)
      else s)
    (if 12 ≤ i then s else s.resetPort i) (if 4 ≤ i then s else s.resetRiffler i) (s.resetDie d) (s.warmReset true)
    s.coldReset s

theorem State.tstReset_eq (s : State) (v : BitVec 32) : s.tstReset v =
    s.resetKind (v.toNat / 2 ^ 28) (v.toNat / 2 ^ 26 % 4) (v.toNat / 2 ^ 21 % 32) (v.toNat / 2 ^ 11 % 1024) := rfl

theorem State.tstReset_fields (s : State) {k d c i : Nat} (hk : k < 16) (hd : d < 4) (hc : c < 32) (hi : i < 1024) :
    s.tstReset (Machine.tstReset k d c i) = s.resetKind k d c i := by
  have h1 : (k * 2 ^ 28 + d * 2 ^ 26 + c * 2 ^ 21 + i * 2 ^ 11) / 2 ^ 28 = k := by omega
  have h2 : (k * 2 ^ 28 + d * 2 ^ 26 + c * 2 ^ 21 + i * 2 ^ 11) / 2 ^ 26 % 4 = d := by omega
  have h3 : (k * 2 ^ 28 + d * 2 ^ 26 + c * 2 ^ 21 + i * 2 ^ 11) / 2 ^ 21 % 32 = c := by omega
  have h4 : (k * 2 ^ 28 + d * 2 ^ 26 + c * 2 ^ 21 + i * 2 ^ 11) / 2 ^ 11 % 1024 = i := by omega
  rw [State.tstReset_eq, tstReset_toNat hk hd hc hi, h1, h2, h3, h4]

/-- A write of TST_RESET by Armature. -/
theorem State.writeReset_armature (s : State) {k d c i : Nat} (hk : k < 16) (hd : d < 4) (hc : c < 32) (hi : i < 1024) :
    s.writeReset .armature (Machine.tstReset k d c i) = s.resetKind k d c i :=
  (State.acting_armature _ _ _ _).trans (s.tstReset_fields hk hd hc hi)

section
variable {α : Type} (a1 a2 a3 a4 a5 a6 a7 a8 a0 : α)
theorem oneOf_1 : oneOf 1 a1 a2 a3 a4 a5 a6 a7 a8 a0 = a1 := rfl
theorem oneOf_2 : oneOf 2 a1 a2 a3 a4 a5 a6 a7 a8 a0 = a2 := rfl
theorem oneOf_3 : oneOf 3 a1 a2 a3 a4 a5 a6 a7 a8 a0 = a3 := rfl
theorem oneOf_4 : oneOf 4 a1 a2 a3 a4 a5 a6 a7 a8 a0 = a4 := rfl
theorem oneOf_5 : oneOf 5 a1 a2 a3 a4 a5 a6 a7 a8 a0 = a5 := rfl
theorem oneOf_6 : oneOf 6 a1 a2 a3 a4 a5 a6 a7 a8 a0 = a6 := rfl
theorem oneOf_7 : oneOf 7 a1 a2 a3 a4 a5 a6 a7 a8 a0 = a7 := rfl
theorem oneOf_8 : oneOf 8 a1 a2 a3 a4 a5 a6 a7 a8 a0 = a8 := rfl
end

theorem State.resetKind_1 (s : State) (d c i : Nat) :
    s.resetKind 1 d c i = if 24 ≤ c ∨ 17 ≤ i then s else s.resetEngine (cluKey d c * 17 + i) := oneOf_1 _ _ _ _ _ _ _
      _ _
theorem State.resetKind_2 (s : State) (d c i : Nat) :
    s.resetKind 2 d c i = if 24 ≤ c then s else s.resetCluster (cluKey d c) := oneOf_2 _ _ _ _ _ _ _ _ _
theorem State.resetKind_3 (s : State) (d c i : Nat) : s.resetKind 3 d c i =
    if i < 512 then s.resetChannel (i / 32) (i % 32) else if i < 576 then s.resetChannel (16 + (i - 512) / 8) (i % 8)
    else s := oneOf_3 _ _ _ _ _ _ _ _ _
theorem State.resetKind_4 (s : State) (d c i : Nat) : s.resetKind 4 d c i = if 12 ≤ i then s else s.resetPort i :=
  oneOf_4 _ _ _ _ _ _ _ _ _
theorem State.resetKind_5 (s : State) (d c i : Nat) : s.resetKind 5 d c i = if 4 ≤ i then s else s.resetRiffler i :=
  oneOf_5 _ _ _ _ _ _ _ _ _
theorem State.resetKind_6 (s : State) (d c i : Nat) : s.resetKind 6 d c i = s.resetDie d := oneOf_6 _ _ _ _ _ _ _ _ _
theorem State.resetKind_7 (s : State) (d c i : Nat) : s.resetKind 7 d c i = s.warmReset true := oneOf_7 _ _ _ _ _ _ _
  _ _
theorem State.resetKind_8 (s : State) (d c i : Nat) : s.resetKind 8 d c i = s.coldReset := oneOf_8 _ _ _ _ _ _ _ _ _

theorem State.writeReset_engine (s : State) (e : Pos) :
    s.writeReset .armature (Machine.tstReset 1 e.die e.cl e.eng) = s.resetEngine e.key := by
  rw [s.writeReset_armature (by decide) e.die.isLt (by omega) (by omega), State.resetKind_1, if_neg (by omega), Pos.key]

theorem State.writeReset_cluster (s : State) (u : Clu) :
    s.writeReset .armature (Machine.tstReset 2 u.die u.cl 0) = s.resetCluster u.key := by
  rw [s.writeReset_armature (by decide) u.die.isLt (by omega) (by decide), State.resetKind_2, if_neg (by omega),
    Clu.key]

/-- The index of a channel in TST_RESET, decoded again. -/
theorem State.writeReset_channel (s : State) (m : Fin 24) (ch : Fin 32) (h : ch.val < chans m) : s.writeReset .armature
    (Machine.tstReset 3 0 0 (if m.val < 16 then 32 * m.val + ch.val else 512 + 8 * (m.val - 16) + ch.val)) =
      s.resetChannel m ch := by
  unfold chans at h
  by_cases hm : m.val < 16
  · rw [if_pos hm, s.writeReset_armature (by decide) (by decide) (by decide) (by omega), State.resetKind_3,
      if_pos (by omega), show (32 * m.val + ch.val) / 32 = m.val by omega,
      show (32 * m.val + ch.val) % 32 = ch.val by omega]
  · rw [if_neg hm] at h
    rw [if_neg hm, s.writeReset_armature (by decide) (by decide) (by decide) (by omega), State.resetKind_3,
      if_neg (by omega), if_pos (by omega), show 16 + (512 + 8 * (m.val - 16) + ch.val - 512) / 8 = m.val by omega,
      show (512 + 8 * (m.val - 16) + ch.val) % 8 = ch.val by omega]

theorem State.writeReset_port (s : State) (p : Fin 12) : s.writeReset .armature (Machine.tstReset 4 0 0 p) =
  s.resetPort p := by
  rw [s.writeReset_armature (by decide) (by decide) (by decide) (by omega), State.resetKind_4, if_neg (by omega)]

theorem State.writeReset_riffler (s : State) (n : Fin 4) :
    s.writeReset .armature (Machine.tstReset 5 0 0 n) = s.resetRiffler n := by
  rw [s.writeReset_armature (by decide) (by decide) (by decide) (by omega), State.resetKind_5, if_neg (by omega)]

theorem State.writeReset_die (s : State) (d : Fin 4) : s.writeReset .armature (Machine.tstReset 6 d 0 0) = s.resetDie
  d := by
  rw [s.writeReset_armature (by decide) d.isLt (by decide) (by decide), State.resetKind_6]

theorem State.writeReset_warm (s : State) : s.writeReset .armature (Machine.tstReset 7 0 0 0) = s.warmReset true := by
  rw [s.writeReset_armature (by decide) (by decide) (by decide) (by decide), State.resetKind_7]

theorem State.writeReset_cold (s : State) : s.writeReset .armature (Machine.tstReset 8 0 0 0) = s.coldReset := by
  rw [s.writeReset_armature (by decide) (by decide) (by decide) (by decide), State.resetKind_8]

theorem exec_resetEngine (s : State) (e : Pos) : exec (.resetEngine .armature e) s = .next (s.resetEngine e.key) :=
  congrArg Host.Outcome.next (s.writeReset_engine e)

theorem exec_resetCluster (s : State) (u : Clu) : exec (.resetCluster .armature u) s = .next (s.resetCluster u.key) :=
  congrArg Host.Outcome.next (s.writeReset_cluster u)

theorem exec_resetMemoryChannel {s : State} {m : Fin 24} {ch : Fin 32} (h : ch.val < chans m) :
    exec (.resetMemoryChannel .armature m ch) s = .next (s.resetChannel m ch) :=
  congrArg Host.Outcome.next ((if_neg (by omega)).trans (s.writeReset_channel m ch h))

theorem exec_resetLinkPort (s : State) (p : Fin 12) : exec (.resetLinkPort .armature p) s = .next (s.resetPort p) :=
  congrArg Host.Outcome.next (s.writeReset_port p)

theorem exec_resetRiffler (s : State) (n : Fin 4) : exec (.resetRiffler .armature n) s = .next (s.resetRiffler n) :=
  congrArg Host.Outcome.next (s.writeReset_riffler n)

theorem exec_resetDie (s : State) (d : Fin 4) : exec (.resetDie .armature d) s = .next (s.resetDie d) :=
  congrArg Host.Outcome.next (s.writeReset_die d)

theorem exec_resetPackageWarm (s : State) : exec (.resetPackageWarm .armature) s = .next (s.warmReset true) :=
  congrArg Host.Outcome.next s.writeReset_warm

theorem exec_resetPackageCold (s : State) : exec (.resetPackageCold .armature) s = .next s.coldReset :=
  congrArg Host.Outcome.next s.writeReset_cold

/-! ## Engines (R344, R345) -/

theorem Sparse.get_filter_out {α : Type} {d : Nat → α} {p : Nat × α → Bool} {k : Nat} (h : ∀ x, p (k, x) = false)
    (m : List (Nat × α)) : Sparse.get d (m.filter p) k = d k := by
  induction m with
  | nil => rfl
  | cons y m ih =>
    obtain ⟨j, v⟩ := y
    by_cases hp : p (j, v) = true
    · rw [List.filter_cons_of_pos hp, Sparse.get, if_neg (by rintro rfl; rw [h] at hp; exact absurd hp (by decide)), ih]
    · rw [List.filter_cons_of_neg hp, ih]

theorem State.clearEngine_eng (s : State) (e : Nat) : ((s.clearEngine e).eng e).ents = [] :=
  congrArg Engine.ents (State.setEng_eng_self _ _ _)

theorem State.clearEngine_tag (s : State) (e : Nat) {k : Nat} (h : k < 64) : (s.clearEngine e).tag (64 * e + k) = {} :=
  Sparse.get_filter_out (fun _ => by simp; omega) _

/-- An engine in reset holds no instruction and no tile. -/
def State.inReset (t : State) (e : Nat) : Prop :=
  (t.eng e).resetting = true ∧ (t.eng e).ents = [] ∧ ∀ k, k < 64 → t.tag (64 * e + k) = {}

theorem State.modEng_resetting_spec (s : State) (e : Nat) :
    ((s.modEng e fun x => { x with resetting := true }).eng e).resetting = true ∧
      ((s.modEng e fun x => { x with resetting := true }).eng e).ents = (s.eng e).ents ∧
      ∀ k, (s.modEng e fun x => { x with resetting := true }).tag k = s.tag k := by
  rw [State.modEng_eng_self]
  exact ⟨rfl, rfl, fun _ => rfl⟩

theorem State.clearEngine_inReset (s : State) (e : Nat) :
    ((s.clearEngine e).modEng e fun x => { x with resetting := true }).inReset e := by
  obtain ⟨h1, h2, h3⟩ := (s.clearEngine e).modEng_resetting_spec e
  exact ⟨h1, h2.trans (s.clearEngine_eng e), fun k hk => (h3 _).trans (s.clearEngine_tag e hk)⟩

theorem State.resetEngine_inReset (s : State) (e : Nat) : (s.resetEngine e).inReset e :=
  State.clearEngine_inReset _ e

/-- A reset's record and its count (R343, R345). -/
def State.resetCounted (s : State) (unit : BitVec 32) (n : Nat) : State := (s.recovery unit 2).countReset unit n

theorem State.countReset_spec (s : State) (unit : BitVec 32) (n : Nat) : (s.countReset unit n).engines = s.engines ∧
    (s.countReset unit n).resetFail = s.resetFail ∧ (s.countReset unit n).memKey = s.memKey ∧
    ∀ k, (s.countReset unit n).reg k = s.reg k := ⟨rfl, rfl, rfl, fun _ => rfl⟩

theorem State.engines_of_butRecords {s t : State} (h : t.butRecords = s.butRecords) : t.engines = s.engines :=
  (congrArg State.engines h :)
theorem State.resetFail_of_butRecords {s t : State} (h : t.butRecords = s.butRecords) : t.resetFail = s.resetFail :=
  (congrArg State.resetFail h :)
theorem State.memKey_of_butRecords {s t : State} (h : t.butRecords = s.butRecords) : t.memKey = s.memKey :=
  (congrArg State.memKey h :)

theorem State.resetCounted_spec (s : State) (unit : BitVec 32) (n : Nat) : (s.resetCounted unit n).engines = s.engines ∧
    (s.resetCounted unit n).resetFail = s.resetFail ∧ (s.resetCounted unit n).memKey = s.memKey ∧
    (s.resetCounted unit n).svc = s.svc := by
  have hb : (s.recovery unit 2).butRecords = s.butRecords := s.event_butRecords _ _ _ _ _
  have hr : (s.recovery unit 2).reg Reg.FLT_SVC_TIME = s.reg Reg.FLT_SVC_TIME :=
    State.reg_of_calmRegs (s.event_calmRegs _ _ _ _ _) (by decide)
  unfold State.resetCounted
  generalize s.recovery unit 2 = t at *
  obtain ⟨h1, h2, h3, h4⟩ := t.countReset_spec unit n
  exact ⟨h1.trans (State.engines_of_butRecords hb), h2.trans (State.resetFail_of_butRecords hb),
    h3.trans (State.memKey_of_butRecords hb), (h4 _).trans hr⟩

/-- The third reset within 10 min retires the engine (R345). -/
def State.thirdRetires (s : State) (e : Nat) : State :=
  if 3 ≤ s.resetsOf (engineUnit e) 600 ∧ s.retire.contains (engineUnit e) = false ∧ s.retired e = false then
    ({ s with retire := s.retire ++ [engineUnit e] } : State).faultN 1 else s

theorem State.withRetire_spec (s : State) (l : List (BitVec 32)) : ({ s with retire := l } : State).engines =
  s.engines ∧
    ({ s with retire := l } : State).resetFail = s.resetFail ∧ ({ s with retire := l } : State).memKey = s.memKey ∧
    ({ s with retire := l } : State).svc = s.svc := ⟨rfl, rfl, rfl, rfl⟩

theorem State.thirdRetires_spec (s : State) (e : Nat) : (s.thirdRetires e).engines = s.engines ∧
    (s.thirdRetires e).resetFail = s.resetFail ∧ (s.thirdRetires e).memKey = s.memKey ∧ (s.thirdRetires e).svc =
      s.svc := by
  unfold State.thirdRetires
  split
  · obtain ⟨h1, h2, h3, h4⟩ := s.withRetire_spec (s.retire ++ [engineUnit e])
    generalize ({ s with retire := s.retire ++ [engineUnit e] } : State) = t at *
    have hb := t.faultN_butRecords 1
    have hr : (t.faultN 1).reg Reg.FLT_SVC_TIME = t.reg Reg.FLT_SVC_TIME :=
      State.reg_of_calmRegs (t.faultN_calmRegs 1) (by decide)
    exact ⟨(State.engines_of_butRecords hb).trans h1, (State.resetFail_of_butRecords hb).trans h2,
      (State.memKey_of_butRecords hb).trans h3, hr.trans h4⟩
  · exact ⟨rfl, rfl, rfl, rfl⟩

/-- The end of an engine's reset, without what a failed check leads to. -/
def State.engineBack (s : State) (e : Nat) (pass : Bool) : State :=
  ((s.modEng e fun x => { x with resetting := false, failed := !pass }).resetCounted (engineUnit e) 600).thirdRetires e

theorem State.modEng_back_spec (s : State) (e : Nat) (pass : Bool) :
    ((s.modEng e fun x => { x with resetting := false, failed := !pass }).eng e).resetting = false ∧
      ((s.modEng e fun x => { x with resetting := false, failed := !pass }).eng e).failed = !pass ∧
      (s.modEng e fun x => { x with resetting := false, failed := !pass }).resetFail = s.resetFail ∧
      (s.modEng e fun x => { x with resetting := false, failed := !pass }).memKey = s.memKey ∧
      (s.modEng e fun x => { x with resetting := false, failed := !pass }).svc = s.svc := by
  rw [State.modEng_eng_self]
  exact ⟨rfl, rfl, rfl, s.modEng_memKey' _ _, rfl⟩

theorem State.eng_of_engines {s t : State} (h : t.engines = s.engines) (e : Nat) : t.eng e = s.eng e := by
  rw [State.eng, h, State.eng]

theorem State.engineBack_spec (s : State) (e : Nat) (pass : Bool) : ((s.engineBack e pass).eng e).resetting = false ∧
    ((s.engineBack e pass).eng e).failed = !pass ∧ (s.engineBack e pass).resetFail = s.resetFail ∧
    (s.engineBack e pass).memKey = s.memKey ∧ (s.engineBack e pass).svc = s.svc := by
  obtain ⟨m1, m2, m3, m4, m5⟩ := s.modEng_back_spec e pass
  unfold State.engineBack
  generalize s.modEng e (fun x => { x with resetting := false, failed := !pass }) = t at *
  obtain ⟨c1, c2, c3, c4⟩ := t.resetCounted_spec (engineUnit e) 600
  generalize t.resetCounted (engineUnit e) 600 = u at *
  obtain ⟨r1, r2, r3, r4⟩ := u.thirdRetires_spec e
  rw [State.eng_of_engines (r1.trans c1)]
  exact ⟨m1, m2, r2.trans (c2.trans m3), r3.trans (c3.trans m4), r4.trans (c4.trans m5)⟩

/-- The failed checks of its cluster. -/
def State.failNoted (s : State) (e : Nat) : State :=
  { s with
    resetFail := Sparse.set (fun _ => []) s.resetFail (e / 17)
      (s.svc :: recent s.svc 60 (Sparse.get (fun _ => []) s.resetFail (e / 17))) }

theorem State.endEngineReset_pass (s : State) (e : Nat) : s.endEngineReset e true = s.engineBack e true := by
  unfold State.endEngineReset
  exact if_pos rfl

/-- The second failed check of a cluster within 1 min resets it (R345). -/
def State.failedAgain (s : State) (e : Nat) : State :=
  if 2 ≤ (s.svc :: recent s.svc 60 (Sparse.get (fun _ => []) s.resetFail (e / 17))).length then
    (s.failNoted e).resetCluster (e / 17)
  else s.failNoted e

theorem State.failedAgain_first {s : State} {e : Nat}
    (h : recent s.svc 60 (Sparse.get (fun _ => []) s.resetFail (e / 17)) = []) : s.failedAgain e = s.failNoted e :=
  if_neg (by rw [h, List.length_singleton]; decide)

theorem State.endEngineReset_fail (s : State) (e : Nat) :
    s.endEngineReset e false = (s.engineBack e false).failedAgain e := by
  unfold State.endEngineReset
  exact if_neg (by decide)

theorem State.endEngineReset_first {s : State} {e : Nat}
    (h : recent s.svc 60 (Sparse.get (fun _ => []) s.resetFail (e / 17)) = []) :
    s.endEngineReset e false = (s.engineBack e false).failNoted e := by
  obtain ⟨-, -, hf, -, hs⟩ := s.engineBack_spec e false
  rw [State.endEngineReset_fail]
  exact State.failedAgain_first (by rw [hs, hf, h])

theorem State.failNoted_spec (s : State) (e : Nat) : (s.failNoted e).eng e = s.eng e ∧
    (s.failNoted e).memKey = s.memKey := ⟨rfl, rfl⟩

theorem exec_engineResetDone {s : State} {e : Pos} (pass : Bool) (h : (s.eng e.key).resetting = true) :
    exec (.engineResetDone e pass) s = .next (s.endEngineReset e.key pass) := congrArg Host.Outcome.next (if_pos h)

theorem engineResetDone_passed {s : State} {e : Pos} (h : (s.eng e.key).resetting = true) :
    Completes (.engineResetDone e true) s fun t =>
      (t.eng e.key).resetting = false ∧ (t.eng e.key).failed = false ∧ ∀ a, t.byte a = s.byte a := by
  obtain ⟨h1, h2, -, h4, -⟩ := s.engineBack_spec e.key true
  exact ⟨_, (exec_engineResetDone true h).trans (congrArg Host.Outcome.next (s.endEngineReset_pass _)), h1, h2,
    State.byte_of_memKey h4⟩

theorem engineResetDone_failed {s : State} {e : Pos} (h : (s.eng e.key).resetting = true)
    (hr : recent s.svc 60 (Sparse.get (fun _ => []) s.resetFail (e.key / 17)) = []) :
    Completes (.engineResetDone e false) s fun t =>
      (t.eng e.key).resetting = false ∧ (t.eng e.key).failed = true ∧ ∀ a, t.byte a = s.byte a := by
  obtain ⟨h1, h2, -, h4, -⟩ := s.engineBack_spec e.key false
  refine ⟨_, (exec_engineResetDone false h).trans (congrArg Host.Outcome.next (State.endEngineReset_first hr)), ?_⟩
  obtain ⟨f1, f2⟩ := (s.engineBack e.key false).failNoted_spec e.key
  rw [f1]
  exact ⟨h1, h2, State.byte_of_memKey (f2.trans h4)⟩

/-! ## Clusters and dies (R343, R345) -/

/-- The clusters and the dies in reset. -/
theorem State.clReset_of_butWork {s t : State} (h : t.butWork = s.butWork) : t.clReset = s.clReset :=
  (congrArg State.clReset h :)
theorem State.dieReset_of_butWork {s t : State} (h : t.butWork = s.butWork) : t.dieReset = s.dieReset :=
  (congrArg State.dieReset h :)

/-- A number is noted in a list once. -/
theorem mem_noted (l : List Nat) (k : Nat) : k ∈ if l.contains k then l else l ++ [k] := by
  split
  next h => exact List.contains_iff_mem.mp h
  next => exact List.mem_append_right _ (List.mem_singleton_self k)

theorem State.resetCounted_butWork (s : State) (unit : BitVec 32) (n : Nat) : (s.resetCounted unit n).butWork =
  s.butWork :=
  (State.countReset_butWork _ _ _).trans (State.recovery_butWork _ _ _)

theorem State.withDieReset_spec (s : State) (l : List Nat) : ({ s with dieReset := l } : State).dieReset = l ∧
    ({ s with dieReset := l } : State).clReset = s.clReset := ⟨rfl, rfl⟩

theorem State.withClReset_spec (s : State) (l : List Nat) : ({ s with clReset := l } : State).clReset = l := rfl

/-- The work of clusters, ended and cleared. -/
theorem State.cleared_butWork (s : State) (us : List Nat) :
    (us.foldl (fun s u => s.clearCluster u) (s.endWork us)).butWork = s.butWork :=
  (State.foldl_butWork _ (fun _ _ => State.clearCluster_butWork _ _) _ _).trans (s.endWork_butWork _)

/-- The second reset of a die within 24 h quarantines it. -/
def State.secondQuars (s : State) (d : Nat) (unit : BitVec 32) : State := if 2 ≤ s.resetsOf unit 86400 then s.quarDie
  d else s

theorem State.secondQuars_butWork (s : State) (d : Nat) (unit : BitVec 32) : (s.secondQuars d unit).butWork =
  s.butWork := by
  simp only [State.secondQuars, ↓State.butWork_ite, State.quarDie_butWork, ite_self]

/-- A die that is noted as in reset. -/
def State.dieNoted (s : State) (d : Nat) : State :=
  { s with dieReset := if s.dieReset.contains d then s.dieReset else s.dieReset ++ [d] }

/-- A die's reset once its work has ended. -/
theorem State.dieNoted_mem (s : State) (d : Nat) : d ∈ (s.dieNoted d).dieReset := mem_noted s.dieReset d
theorem State.dieNoted_clReset (s : State) (d : Nat) : (s.dieNoted d).clReset = s.clReset := rfl

theorem State.dieCounted_spec (s : State) (d : Nat) (unit : BitVec 32) :
    d ∈ (((s.dieNoted d).resetCounted unit 86400).secondQuars d unit).dieReset ∧
      (((s.dieNoted d).resetCounted unit 86400).secondQuars d unit).clReset = s.clReset := by
  have hb := (State.secondQuars_butWork ((s.dieNoted d).resetCounted unit 86400) d unit).trans
    (State.resetCounted_butWork _ _ _)
  rw [State.dieReset_of_butWork hb, State.clReset_of_butWork hb]
  exact ⟨s.dieNoted_mem d, s.dieNoted_clReset d⟩

theorem State.resetDie_eq (s : State) (d : Nat) : s.resetDie d =
    (((((List.range 24).map (24 * d + ·)).foldl (fun s u => s.clearCluster u)
      (s.endWork ((List.range 24).map (24 * d + ·)))).dieNoted d).resetCounted (BitVec.ofNat 32 (0x20000000 + d))
        86400).secondQuars d (BitVec.ofNat 32 (0x20000000 + d)) := rfl

theorem State.resetDie_spec (s : State) (d : Nat) : d ∈ (s.resetDie d).dieReset ∧ (s.resetDie d).clReset = s.clReset
  := by
  rw [State.resetDie_eq]
  obtain ⟨h1, h2⟩ := State.dieCounted_spec (((List.range 24).map (24 * d + ·)).foldl (fun s u => s.clearCluster u)
    (s.endWork ((List.range 24).map (24 * d + ·)))) d (BitVec.ofNat 32 (0x20000000 + d))
  exact ⟨h1, h2.trans (State.clReset_of_butWork (s.cleared_butWork _))⟩

/-- A cluster that is noted as in reset. -/
def State.clusterNoted (s : State) (u : Nat) : State :=
  { s with clReset := if s.clReset.contains u then s.clReset else s.clReset ++ [u] }

/-- The third reset of a cluster within 1 h quarantines it. -/
def State.thirdQuars (s : State) (u : Nat) : State := if 3 ≤ s.resetsOf (cluUnit u) 3600 then s.quarCluster u else s

theorem State.thirdQuars_butWork (s : State) (u : Nat) : (s.thirdQuars u).butWork = s.butWork := by
  simp only [State.thirdQuars, ↓State.butWork_ite, State.quarCluster_butWork, ite_self]

/-- The third reset of a die's clusters within 10 min resets the die. -/
def State.thirdResetsDie (s : State) (u : Nat) : State :=
  if 3 ≤ ((List.range 24).map fun c => s.resetsOf (cluUnit (u / 24 * 24 + c)) 600).sum ∧ s.dieReset.contains (u / 24)
    = false
  then s.resetDie (u / 24) else s

theorem State.thirdResetsDie_clReset (s : State) (u : Nat) : (s.thirdResetsDie u).clReset = s.clReset := by
  unfold State.thirdResetsDie
  split
  · exact (s.resetDie_spec _).2
  · rfl

theorem State.resetCluster_eq (s : State) (u : Nat) : s.resetCluster u =
    (((((s.endWork [u]).clearCluster u).clusterNoted u).resetCounted (cluUnit u) 3600).thirdQuars u).thirdResetsDie u
      := rfl

theorem State.resetCluster_mem (s : State) (u : Nat) : u ∈ (s.resetCluster u).clReset := by
  rw [State.resetCluster_eq, State.thirdResetsDie_clReset]
  generalize (s.endWork [u]).clearCluster u = t
  have hd : u ∈ (t.clusterNoted u).clReset := mem_noted t.clReset u
  generalize t.clusterNoted u = v at *
  have h2 := (State.thirdQuars_butWork (v.resetCounted (cluUnit u) 3600) u).trans (v.resetCounted_butWork _ _)
  exact (State.clReset_of_butWork h2).symm ▸ hd

/-! ## Memory channels (R343) -/

/-- A channel that is noted as in reset. -/
def State.chanNoted (s : State) (u ch : Nat) : State := { s with chReset := s.chReset ++ [(u, ch)] }

theorem State.chanNoted_spec (s : State) (u ch : Nat) : (s.chanNoted u ch).chReset = s.chReset ++ [(u, ch)] ∧
    (s.chanNoted u ch).memKey = s.memKey := ⟨rfl, rfl⟩

theorem State.resetChannel_eq {s : State} {u ch : Nat} (h : ch < chans u) (hm : (u, ch) ∉ s.chReset) :
    s.resetChannel u ch = (s.chanNoted u ch).recovery (chanUnit u ch) 2 :=
  if_neg (by
    rintro (h' | h')
    · omega
    · exact hm (List.contains_iff_mem.mp h'))

theorem State.chReset_of_butRecords {s t : State} (h : t.butRecords = s.butRecords) : t.chReset = s.chReset :=
  (congrArg State.chReset h :)

theorem State.resetChannel_spec {s : State} {u ch : Nat} (h : ch < chans u) (hm : (u, ch) ∉ s.chReset) :
    (s.resetChannel u ch).chReset = s.chReset ++ [(u, ch)] ∧ ∀ a, (s.resetChannel u ch).byte a = s.byte a := by
  obtain ⟨h1, h2⟩ := s.chanNoted_spec u ch
  rw [State.resetChannel_eq h hm]
  generalize s.chanNoted u ch = t at *
  have hb : (t.recovery (chanUnit u ch) 2).butRecords = t.butRecords := t.event_butRecords _ _ _ _ _
  exact ⟨(State.chReset_of_butRecords hb).trans h1, State.byte_of_memKey ((State.memKey_of_butRecords hb).trans h2)⟩

end Sys2Proof.Machine
end

section
/-! SUPPORT. A port's state and its fall (R229, R234, R343). -/
namespace Sys2Proof.Machine

/-! ## Sending again leaves the registers -/

/-- What a port that leaves ACTIVE sends by other routes (R234). -/
def State.sendAgain (s : State) (p : Nat) : State :=
  let again := (s.port p).unsent
  let s := (s.modPort p fun x => { x with outq := x.outq.filter fun m => decide (6 ≤ m.2.vc), part := [] }).reroute
  again.foldl (fun s m => s.toPkg m.1 m.2) s

theorem State.sendAgain_butSends (s : State) (p : Nat) : (s.sendAgain p).butSends = s.butSends :=
  (State.foldl_butSends _ (fun t (q : BitVec 16 × Msg) => t.toPkg_butSends q.1 q.2) _ _).trans
    ((State.reroute_butSends _).trans (s.modPort_butSends _ _))

theorem State.leaveActive_butSends (s : State) (p st : Nat) :
    (s.leaveActive p st).butSends = (s.setPortState p st).butSends := by
  unfold State.leaveActive
  dsimp only
  split
  · exact State.sendAgain_butSends _ p
  · rfl

/-! ## A port's state -/

/-- The bit of a port in a map of the twelve. -/
def portBit (p v : Nat) (b : Bool) : Nat :=
  ((BitVec.ofNat 12 v &&& ~~~(1#12 <<< p)) ||| (if b then 1#12 <<< p else 0)).toNat

theorem State.setPortState_eq (s : State) (p st : Nat) : s.setPortState p st =
    (let t := s.fset (F.WPL_STATUS_STATE p) st
     let t := t.fset F.WPL_DISC_STATUS_ACTIVE (portBit p (t.fget F.WPL_DISC_STATUS_ACTIVE) (st == 3))
     t.fset F.WPL_DISC_STATUS_QUAR (portBit p (t.fget F.WPL_DISC_STATUS_QUAR) (st == 5))) := rfl

theorem wplStatus_disc (p : Fin 12) : Reg.WPL_STATUS p ≠ Reg.WPL_DISC_STATUS := by
  revert p
  decide

theorem State.setPortState_reg (s : State) (p st : Nat) {k : Nat} (h : k ≠ Reg.WPL_DISC_STATUS) :
    (s.setPortState p st).reg k = (s.fset (F.WPL_STATUS_STATE p) st).reg k := by
  rw [State.setPortState_eq]
  exact (State.fset_reg_ne _ _ _ _ h).trans (State.fset_reg_ne _ _ _ _ h)

theorem State.setPortState_butRegs (s : State) (p st : Nat) : (s.setPortState p st).butRegs = s.butRegs := by
  rw [State.setPortState_eq]
  exact (State.fset_butRegs _ _ _).trans ((State.fset_butRegs _ _ _).trans (State.fset_butRegs _ _ _))

/-- Everything but registers and what sending a message writes. -/
def State.butLinks (s : State) : State := { s.butSends with regs := [] }

theorem State.butLinks_of_butSends {s t : State} (h : t.butSends = s.butSends) : t.butLinks = s.butLinks :=
  congrArg (fun t : State => { t with regs := [] }) h
theorem State.butLinks_of_butRegs {s t : State} (h : t.butRegs = s.butRegs) : t.butLinks = s.butLinks :=
  (congrArg State.butLinks h :)
theorem State.memKey_of_butLinks {s t : State} (h : t.butLinks = s.butLinks) : t.memKey = s.memKey :=
  (congrArg State.memKey h :)

theorem State.leaveActive_butLinks (s : State) (p st : Nat) : (s.leaveActive p st).butLinks = s.butLinks :=
  (State.butLinks_of_butSends (s.leaveActive_butSends p st)).trans (State.butLinks_of_butRegs (s.setPortState_butRegs
    p st))

theorem State.leaveActive_reg (s : State) (p st : Nat) {k : Nat} (h : k ≠ Reg.WPL_DISC_STATUS) :
    (s.leaveActive p st).reg k = (s.fset (F.WPL_STATUS_STATE p) st).reg k :=
  (State.reg_of_butSends (s.leaveActive_butSends p st) k).trans (s.setPortState_reg p st h)

/-- A port's state, set: its other fields and the other registers stay, but for the maps of the ports. -/
theorem State.leaveActive_spec (s : State) (p : Fin 12) {st : Nat} (h : st < 16) :
    (s.leaveActive p st).fget (F.WPL_STATUS_STATE p) = st ∧
      (∀ f : Fld, f.key ≠ Reg.WPL_DISC_STATUS → (F.WPL_STATUS_STATE p).apart f = true →
        (s.leaveActive p st).fget f = s.fget f) := by
  refine ⟨?_, fun f hf ha => ?_⟩
  · rw [State.fget_of_reg (s.leaveActive_reg p st (wplStatus_disc p)), State.fset_fget _ _ _ rfl]
    exact Nat.mod_eq_of_lt h
  · rw [State.fget_of_reg (s.leaveActive_reg p st hf), State.fset_fget_apart _ _ _ _ ha]

/-! ## A port's fall -/

theorem State.portDown_eq (s : State) (p st : Nat) : s.portDown p st =
    (((((s.leaveActive p st).setReg (Reg.WPL_STATUS p) 0).fset (F.WPL_STATUS_LRET p) ((s.leaveActive p st).lret
      p)).modPort p
      Port.fresh).setPortState p st) := rfl

theorem State.modPort_reg (s : State) (p : Nat) (f : Port → Port) (k : Nat) : (s.modPort p f).reg k = s.reg k := rfl

theorem State.portDown_butLinks (s : State) (p st : Nat) : (s.portDown p st).butLinks = s.butLinks := by
  rw [State.portDown_eq]
  have h := s.leaveActive_butLinks p st
  generalize s.leaveActive p st = t at *
  exact (State.butLinks_of_butRegs (State.setPortState_butRegs _ _ _)).trans ((State.butLinks_of_butSends
    (State.modPort_butSends _ _ _)).trans ((State.butLinks_of_butRegs ((State.fset_butRegs _ _ _).trans
      (State.setReg_butRegs _ _ _))).trans h))

/-- A port's state and what it shows of its lanes after its fall. -/
theorem State.portDown_spec (s : State) (p : Fin 12) {st : Nat} (h : st < 16) :
    (s.portDown p st).fget (F.WPL_STATUS_STATE p) = st ∧ (s.portDown p st).lret p = s.lret p ∧
      ∀ k, k ≠ Reg.WPL_STATUS p → k ≠ Reg.WPL_DISC_STATUS → (s.portDown p st).reg k = s.reg k := by
  have hl : (s.leaveActive p st).lret p = s.lret p := (s.leaveActive_spec p h).2 _ (wplStatus_disc p) rfl
  have hr (k : Nat) (hk : k ≠ Reg.WPL_STATUS p) (hd : k ≠ Reg.WPL_DISC_STATUS) : (s.leaveActive p st).reg k = s.reg k :=
    (s.leaveActive_reg p st hd).trans (State.fset_reg_ne _ _ _ _ hk)
  rw [State.portDown_eq, hl]
  generalize s.leaveActive p st = t at *
  have hlret : s.lret p < 2 ^ 4 := s.fget_lt _
  refine ⟨?_, ?_, fun k hk hd => ?_⟩
  · rw [State.fget_of_reg (State.setPortState_reg _ p st (wplStatus_disc p)), State.fset_fget _ _ _ rfl]
    exact Nat.mod_eq_of_lt h
  · rw [State.lret, State.fget_of_reg (State.setPortState_reg _ p st (wplStatus_disc p)),
      State.fset_fget_apart _ _ _ _ rfl, State.fget_of_reg (State.modPort_reg _ _ _ _), State.fset_fget _ _ _ rfl]
    exact Nat.mod_eq_of_lt hlret
  · rw [State.setPortState_reg _ _ _ hd, State.fset_reg_ne _ _ _ _ hk, State.modPort_reg, State.fset_reg_ne _ _ _ _ hk,
      State.setReg_reg, if_neg hk, hr k hk hd]

end Sys2Proof.Machine
end

section
/-! SUPPORT. Resets of ports, Rifflers and the package: what they clear and keep (R343 to R345, R352, R353). -/
namespace Sys2Proof.Machine

/-! ## Ports and Rifflers -/

theorem wplStatus_calm (p : Fin 12) : recordReg (Reg.WPL_STATUS p) = false := by
  revert p
  decide
theorem rifStatus_calm (n : Fin 4) : recordReg (Reg.RIF_STATUS n) = false := by
  revert n
  decide

theorem State.resetPort_eq {s : State} {p : Nat} (h : s.fget (F.WPL_STATUS_STATE p) ≠ 6) :
    s.resetPort p = (s.portDown p 0).recovery (blockUnit (0x10 + p)) 2 := if_neg h

theorem State.resetPort_spec {s : State} {p : Fin 12} (h : s.fget (F.WPL_STATUS_STATE p) ≠ 6) :
    (s.resetPort p).fget (F.WPL_STATUS_STATE p) = 0 ∧ (s.resetPort p).lret p = s.lret p ∧
      ∀ a, (s.resetPort p).byte a = s.byte a := by
  obtain ⟨h1, h2, -⟩ := s.portDown_spec p (st := 0) (by decide)
  have hm := State.memKey_of_butLinks (s.portDown_butLinks p 0)
  rw [State.resetPort_eq h]
  generalize s.portDown p 0 = t at *
  have hc : (t.recovery (blockUnit (0x10 + p)) 2).calmRegs = t.calmRegs := t.event_calmRegs _ _ _ _ _
  have hb : (t.recovery (blockUnit (0x10 + p)) 2).butRecords = t.butRecords := t.event_butRecords _ _ _ _ _
  exact ⟨(State.fget_of_calmRegs hc (wplStatus_calm p)).trans h1,
    (State.fget_of_calmRegs (f := F.WPL_STATUS_LRET p) hc (wplStatus_calm p)).trans h2,
    State.byte_of_memKey ((State.memKey_of_butRecords hb).trans hm)⟩

theorem State.rifOut_of_butRecords {s t : State} (h : t.butRecords = s.butRecords) : t.rifOut = s.rifOut :=
  (congrArg State.rifOut h :)

theorem State.resetRiffler_eq (s : State) (n : Nat) :
    s.resetRiffler n = (s.rifLeave n true).recovery (BitVec.ofNat 32 (0xA0000000 + n)) 2 := rfl

theorem State.resetRiffler_spec {s : State} {n : Fin 4} (hn : s.rifUp n = true) (hu : s.upd = none) (hr : s.roots =
  []) :
    (s.resetRiffler n).fget (F.RIF_STATUS_STATE n) = 3 ∧ (s.resetRiffler n).rifOut = s.rifOut ++ [(n.val, true)] ∧
      ∀ a, (s.resetRiffler n).byte a = s.byte a := by
  obtain ⟨h1, -, -, h4, hm⟩ := State.rifLeave_spec true hn hu hr
  rw [State.resetRiffler_eq]
  generalize s.rifLeave n true = t at *
  generalize BitVec.ofNat 32 (0xA0000000 + n.val) = unit
  have hc : (t.recovery unit 2).calmRegs = t.calmRegs := t.event_calmRegs _ _ _ _ _
  have hb : (t.recovery unit 2).butRecords = t.butRecords := t.event_butRecords _ _ _ _ _
  exact ⟨(State.fget_of_calmRegs hc (rifStatus_calm n)).trans h1, (State.rifOut_of_butRecords hb).trans h4,
    State.byte_of_memKey ((State.memKey_of_butRecords hb).trans hm)⟩

/-! ## The package's warm reset -/

theorem State.pages_of_butWork {s t : State} (h : t.butWork = s.butWork) : t.pages = s.pages := (congrArg State.pages
  h :)
theorem State.capsules_of_butWork {s t : State} (h : t.butWork = s.butWork) : t.capsules = s.capsules :=
  (congrArg State.capsules h :)
theorem State.memKey_of_butJudged {s t : State} (h : t.butJudged = s.butJudged) : t.memKey = s.memKey :=
  (congrArg State.memKey h :)
theorem State.pages_of_butJudged {s t : State} (h : t.butJudged = s.butJudged) : t.pages = s.pages :=
  (congrArg State.pages h :)
theorem State.capsules_of_butJudged {s t : State} (h : t.butJudged = s.butJudged) : t.capsules = s.capsules :=
  (congrArg State.capsules h :)

theorem State.judgeAll_relaid (s : State) : s.judgeAll.relaid = s.relaid := by
  rw [State.relaid, State.relaid, State.fget_of_calmRegs s.judgeAll_calmRegs (by decide),
    State.fget_of_calmRegs s.judgeAll_calmRegs (by decide)]

theorem State.warmed_kept (s : State) : s.warmed.pages = s.pages ∧ s.warmed.capsules = s.capsules := by
  have hw := State.butWork_of_butRecords s.warmed_butRecords
  obtain ⟨h1, h2⟩ := s.judgeAll.warm_kept
  exact ⟨(State.pages_of_butWork hw).trans (h1.trans (State.pages_of_butJudged s.judgeAll_butJudged)),
    (State.capsules_of_butWork hw).trans (h2.trans (State.capsules_of_butJudged s.judgeAll_butJudged))⟩

theorem State.warmed_byte (s : State) {a : Nat} (ha : a < 0x20000000000) (hh : a < 0xC000000000 → s.relaid = false) :
    s.warmed.byte a = s.byte a := by
  rw [State.byte_of_memKey (State.memKey_of_butRecords s.warmed_butRecords),
    State.warm_byte _ ha (fun h => s.judgeAll_relaid.trans (hh h)),
    State.byte_of_memKey (State.memKey_of_butJudged s.judgeAll_butJudged)]

/-- Leaving service where the count of 7 days asks for it (R345). -/
def State.warmJudged (s : State) (n : Nat) : State := if 4 ≤ n then s.outOfService else s

theorem State.warmReset_eq (s : State) : s.warmReset true =
    (((s.warmed.countReset 0xE0000000 604800).fset F.TST_ESC_WARM7D
      (min 255 ((s.warmed.countReset 0xE0000000 604800).resetsOf 0xE0000000 604800))).warmJudged
        ((s.warmed.countReset 0xE0000000 604800).resetsOf 0xE0000000 604800)) := by
  unfold State.warmReset
  exact if_pos rfl

theorem State.warmJudged_spec (s : State) (n : Nat) : (s.warmJudged n).butWork = s.butWork ∧
    (s.warmJudged n).memKey = s.memKey ∧ (s.warmJudged n).fget F.PLN_BOOT_STEP = s.fget F.PLN_BOOT_STEP := by
  unfold State.warmJudged
  split
  · obtain ⟨-, -, hr⟩ := s.outOfService_spec
    exact ⟨s.outOfService_butWork, s.outOfService_memKey,
      State.fget_of_reg (hr _ (by decide) (by decide) (by decide))⟩
  · exact ⟨rfl, rfl, rfl⟩

theorem State.countedShown_spec (s : State) (n : Nat) :
    ((s.countReset 0xE0000000 604800).fset F.TST_ESC_WARM7D n).butWork = s.butWork ∧
    ((s.countReset 0xE0000000 604800).fset F.TST_ESC_WARM7D n).memKey = s.memKey ∧
    ((s.countReset 0xE0000000 604800).fset F.TST_ESC_WARM7D n).fget F.PLN_BOOT_STEP = s.fget F.PLN_BOOT_STEP := by
  refine ⟨(State.fset_butWork' _ _ _).trans (State.countReset_butWork _ _ _), ?_, ?_⟩
  · exact (State.fset_memKey' _ _ _).trans (s.countReset_spec _ _).2.2.1
  · exact (State.fset_fget_apart _ _ _ _ rfl).trans (State.fget_of_reg ((s.countReset_spec _ _).2.2.2 _))

/-- What a warm reset keeps (R343, R353). -/
theorem State.warmReset_spec (s : State) : (s.warmReset true).fget F.PLN_BOOT_STEP = 5 ∧
    (s.warmReset true).pages = s.pages ∧ (s.warmReset true).capsules = s.capsules ∧
    ∀ a, a < 0x20000000000 → (a < 0xC000000000 → s.relaid = false) → (s.warmReset true).byte a = s.byte a := by
  rw [State.warmReset_eq]
  have h5 := s.warmed_step
  obtain ⟨hp, hc⟩ := s.warmed_kept
  have hb (a : Nat) := s.warmed_byte (a := a)
  generalize s.warmed = t at *
  generalize (t.countReset 0xE0000000 604800).resetsOf 0xE0000000 604800 = n
  obtain ⟨c1, c2, c3⟩ := t.countedShown_spec (min 255 n)
  generalize (t.countReset 0xE0000000 604800).fset F.TST_ESC_WARM7D (min 255 n) = u at *
  obtain ⟨j1, j2, j3⟩ := u.warmJudged_spec n
  exact ⟨j3.trans (c3.trans h5), (State.pages_of_butWork (j1.trans c1)).trans hp,
    (State.capsules_of_butWork (j1.trans c1)).trans hc,
    fun a h1 h2 => (State.byte_of_memKey (j2.trans c2) a).trans (hb a h1 h2)⟩

end Sys2Proof.Machine
end

section
/-! SUPPORT. The package's cold reset: the start of the power-up order (R343, R352). -/
namespace Sys2Proof.Machine

/-! ## What OFF keeps -/

/-- Everything but registers, ports and Burin's state. -/
def State.butShown (s : State) : State := { s with regs := [], ports := [], sec := {} }

theorem State.butShown_of_butPorts {s t : State} (h : t.butPorts = s.butPorts) : t.butShown = s.butShown :=
  (congrArg State.butShown h :)
theorem State.butShown_of_butRegs {s t : State} (h : t.butRegs = s.butRegs) : t.butShown = s.butShown :=
  (congrArg State.butShown h :)
theorem State.withSec_butShown (s : State) (x : Sec) : ({ s with sec := x } : State).butShown = s.butShown := rfl

theorem State.endLife_butShown (s : State) : s.endLife.butShown = s.butShown := by
  unfold State.endLife
  dsimp only
  split
  · exact (State.butShown_of_butRegs ((State.setFlag_butRegs _ _ _).trans (State.fset_butRegs _ _ _))).trans
      ((State.withSec_butShown _ _).trans (State.withSec_butShown _ _))
  · exact State.withSec_butShown _ _

theorem State.endTrial_butShown (s : State) : s.endTrial.butShown = s.butShown := by
  rw [State.endTrial_eq]
  exact (State.withSec_butShown _ _).trans (State.butShown_of_butRegs ((State.setFlag_butRegs _ _ _).trans
    s.formerSlots_butRegs))

theorem State.lost_butShown (s : State) : s.lost.butShown = s.lostBase.butShown := by
  rw [State.lost_eq]
  have h1 := State.butShown_of_butRegs (State.keepRetired_butRegs s.lostBase s)
  generalize s.lostBase.keepRetired s = t at *
  have h2 := (State.endTrial_butShown _).trans (t.endLife_butShown.trans h1)
  generalize t.endLife.endTrial = u at *
  have h3 := (State.butShown_of_butPorts u.showWindows_butPorts).trans h2
  generalize u.showWindows = v at *
  exact (State.butShown_of_butRegs (State.fset_butRegs _ _ _)).trans h3

theorem State.caps_of_butShown {s t : State} (h : t.butShown = s.butShown) : t.caps = s.caps := (congrArg State.caps
  h :)
theorem State.power_of_butShown {s t : State} (h : t.butShown = s.butShown) : t.power = s.power :=
  (congrArg State.power h :)
theorem State.records_of_butShown {s t : State} (h : t.butShown = s.butShown) : t.records = s.records :=
  (congrArg State.records h :)

theorem State.lostBase_spec (s : State) : s.lostBase.caps = [] ∧ s.lostBase.records = s.records := ⟨rfl, rfl⟩

theorem State.lost_spec (s : State) : s.lost.caps = [] ∧ s.lost.records = s.records :=
  ⟨(State.caps_of_butShown s.lost_butShown).trans s.lostBase_spec.1,
    (State.records_of_butShown s.lost_butShown).trans s.lostBase_spec.2⟩

/-! ## The slot maps, rebuilt -/

theorem State.caps_of_butRegs {s t : State} (h : t.butRegs = s.butRegs) : t.caps = s.caps := (congrArg State.caps h :)
theorem State.records_of_butRegs {s t : State} (h : t.butRegs = s.butRegs) : t.records = s.records :=
  (congrArg State.records h :)

theorem State.bind_butRegs (s : State) (l : Nat) (e : Option Nat) : (s.bind l e).butRegs = s.butRegs := by
  cases e <;> exact (State.fset_butRegs _ _ _).trans (State.setFlag_butRegs _ _ _)

/-- With no capture slot in use there is no replay to drop. -/
theorem State.dropReplays_none {s : State} (h : s.caps = []) (p : Nat → Bool) : s.dropReplays p = s := by
  rw [State.dropReplays, h, List.filter_nil, List.foldl_nil]

theorem State.setSpare_butRegs {s : State} (h : s.caps = []) (u : Nat) (e : Option Nat) :
    (s.setSpare u e).butRegs = s.butRegs := by
  have hs (t : State) : t.showNoSpare.butRegs = t.butRegs := State.fset_butRegs _ _ _
  unfold State.setSpare
  cases e with
  | some e => exact (hs _).trans ((State.fset_butRegs _ _ _).trans (State.setFlag_butRegs _ _ _))
  | none =>
    have hb : ((s.setFlag (F.STR_SPARE_NONE u) true).fset (F.STR_SPARE_SPARE u) 0x1F).butRegs = s.butRegs :=
      (State.fset_butRegs _ _ _).trans (State.setFlag_butRegs _ _ _)
    exact (hs _).trans ((congrArg State.butRegs (State.dropReplays_none ((State.caps_of_butRegs hb).trans h)
      _)).trans hb)

theorem State.rebuildMap_butRegs {s : State} (h : s.caps = []) (u : Nat) : (s.rebuildMap u).butRegs = s.butRegs := by
  unfold State.rebuildMap
  dsimp only
  generalize ((List.range 17).map (17 * u + ·)).filter (fun e => !s.retired e) = free
  have hb : ((List.range 16).foldl (fun s i => s.bind (16 * u + i) (free[i]?)) s).butRegs = s.butRegs :=
    List.foldlRecOn (motive := fun t : State => t.butRegs = s.butRegs) _ _ rfl fun t ht i _ =>
      (t.bind_butRegs _ _).trans ht
  exact (State.setSpare_butRegs ((State.caps_of_butRegs hb).trans h) _ _).trans hb

/-- Every slot map, by steps that rebuild one each. -/
theorem State.rebuildMaps_butRegs {s : State} (h : s.caps = []) {f : State → Nat → State}
    (hf : ∀ (t : State) u, t.caps = [] → (f t u).butRegs = t.butRegs) (us : List Nat) :
    (us.foldl f s).butRegs = s.butRegs :=
  List.foldlRecOn (motive := fun t : State => t.butRegs = s.butRegs) _ _ rfl fun t ht u _ =>
    (hf t u ((State.caps_of_butRegs ht).trans h)).trans ht

/-! ## The start of the power-up order -/

/-- Auxiliary power good, with its nonce, and step 1 (R352, R362). -/
def State.orderBegun (s : State) : State :=
  (({ s with sec := { s.sec with relClu := [0, 0, 0, 0] } } : State).modPower fun p => { p with auxUp := true, cold :=
    true }).newNonce.fset F.PLN_BOOT_STEP 1

/-- It begins where the clusters that a release has freed are free again, and the maps stand. -/
theorem State.coldStart_eq (s : State) : ∃ f : State → Nat → State,
    (∀ (t : State) u, t.caps = [] → (f t u).butRegs = t.butRegs) ∧
      s.coldStart = ((List.range 96).foldl f s.lost).orderBegun := by
  refine ⟨_, ?_, rfl⟩
  intro t u h
  have hq : (if (t.sec.relClu.getD (u / 24) 0).getLsbD (u % 24) then t.setFlag (F.STR_SPARE_QUAR u) false else
    t).butRegs =
      t.butRegs := by
    split
    · exact State.setFlag_butRegs _ _ _
    · rfl
  exact (State.rebuildMap_butRegs ((State.caps_of_butRegs hq).trans h) u).trans hq

theorem State.newNonce_power (s : State) : s.newNonce.power = s.power := rfl
theorem State.newNonce_records (s : State) : s.newNonce.records = s.records := rfl
theorem State.modPower_records (s : State) (f : Power → Power) : (s.modPower f).records = s.records := rfl
theorem State.withSec_records (s : State) (x : Sec) : ({ s with sec := x } : State).records = s.records := rfl

theorem State.orderBegun_spec (s : State) : s.orderBegun.fget F.PLN_BOOT_STEP = 1 ∧ s.orderBegun.power.auxUp = true ∧
    s.orderBegun.records = s.records := by
  unfold State.orderBegun
  refine ⟨State.fset_fget _ _ _ rfl, ?_, ?_⟩
  · rw [State.fset_power, State.newNonce_power, State.modPower_power]
  · rw [State.fset_records, State.newNonce_records, State.modPower_records, State.withSec_records]

theorem State.coldStart_spec (s : State) : s.coldStart.fget F.PLN_BOOT_STEP = 1 ∧ s.coldStart.power.auxUp = true ∧
    s.coldStart.records = s.records := by
  obtain ⟨f, hf, he⟩ := s.coldStart_eq
  rw [he]
  obtain ⟨hc, hr⟩ := s.lost_spec
  have hb := State.rebuildMaps_butRegs hc hf (List.range 96)
  generalize (List.range 96).foldl f s.lost = u at *
  obtain ⟨h1, h2, h3⟩ := u.orderBegun_spec
  exact ⟨h1, h2, h3.trans ((State.records_of_butRegs hb).trans hr)⟩

/-! ## The cold reset -/

/-- The straps and the facets as they stood (R352). -/
def State.pinsKept (t s : State) : State :=
  let t := [Reg.WPL_STRAP, Reg.PLN_FACET, Reg.PLN_FAULTN, Reg.PLN_MGMT].foldl (fun t k => t.setReg k (s.reg k)) t
  if 2 ≤ s.fget F.PLN_FACET_PHASE then t.fset F.PLN_FACET_PHASE 1 else t

theorem State.pinsKept_butRegs (t s : State) : (t.pinsKept s).butRegs = t.butRegs := by
  have h : ([Reg.WPL_STRAP, Reg.PLN_FACET, Reg.PLN_FAULTN, Reg.PLN_MGMT].foldl (fun t k => t.setReg k (s.reg k))
    t).butRegs =
      t.butRegs :=
    List.foldlRecOn (motive := fun u : State => u.butRegs = t.butRegs) _ _ rfl fun u hu k _ =>
      (u.setReg_butRegs k _).trans hu
  unfold State.pinsKept
  dsimp only
  split
  · exact (State.fset_butRegs _ _ _).trans h
  · exact h

theorem State.coldReset_eq (s : State) : s.coldReset = ((s.judgeAll.coldStart.pinsKept s).modPower fun p =>
    { p with pwrfailLow := s.power.pwrfailLow, paceLow := s.power.paceLow, judged := s.power.judged,
             perstLow := s.power.perstLow }).fset F.PLN_BOOT_STEP 3 := rfl

/-- What a cold reset keeps (R343). -/
theorem State.coldReset_spec (s : State) : s.coldReset.fget F.PLN_BOOT_STEP = 3 ∧ s.coldReset.power.auxUp = true ∧
    s.coldReset.records = s.judgeAll.records := by
  rw [State.coldReset_eq]
  obtain ⟨-, ha, hr⟩ := s.judgeAll.coldStart_spec
  generalize s.judgeAll.coldStart = t at *
  have hb := t.pinsKept_butRegs s
  generalize t.pinsKept s = u at *
  refine ⟨State.fset_fget _ _ _ rfl, ?_, ?_⟩
  · rw [State.fset_power, State.modPower_power]
    exact (congrArg Power.auxUp (State.power_of_butRegs hb)).trans ha
  · rw [State.fset_records, State.modPower_records, State.records_of_butRegs hb, hr]

theorem State.coldReset_kept (s : State) : (s.caps = [] → s.arithPend = [] → s.coldReset.hist = s.hist ∧
    s.coldReset.ring = s.ring) ∧ s.coldReset.pages = s.pages := by
  obtain ⟨-, -, hr⟩ := s.coldReset_spec
  have hj := s.judgeAll_butJudged
  have hn := s.judgeAll_records
  generalize s.judgeAll = u at *
  generalize s.coldReset = t at *
  obtain ⟨hp, -, -, -⟩ := State.fields_of_records hr
  refine ⟨fun hc ha => ?_, hp.trans (State.pages_of_butJudged hj)⟩
  obtain ⟨-, -, hring, hhist⟩ := State.fields_of_records (hr.trans (hn hc ha))
  exact ⟨hhist, hring⟩

/-- Settles O51: each kind of TST_RESET, and the end of a reset. -/
theorem resetsClearAndKeep : Obligations.ResetsClearAndKeep := by
  unfold Obligations.ResetsClearAndKeep
  intro s
  refine ⟨fun e => ⟨⟨_, exec_resetEngine s e, s.resetEngine_inReset _⟩, fun h => ⟨engineResetDone_passed h,
      fun hr => engineResetDone_failed h hr⟩⟩,
    fun u => ⟨⟨_, exec_resetCluster s u, s.resetCluster_mem _⟩, ⟨_, rfl, rfl, rfl⟩⟩,
    fun d => ⟨⟨_, exec_resetDie s d, (s.resetDie_spec _).1⟩, ⟨_, rfl, rfl, rfl⟩⟩,
    fun m ch => ⟨fun h hm => ⟨_, exec_resetMemoryChannel h, State.resetChannel_spec h hm⟩, ⟨_, rfl, rfl, rfl⟩⟩,
    fun p h => ⟨_, exec_resetLinkPort s p, State.resetPort_spec h⟩,
    fun n hn hu hr => ⟨_, exec_resetRiffler s n, State.resetRiffler_spec hn hu hr⟩, ?_, ?_⟩
  · obtain ⟨h5, hp, hc, hb⟩ := s.warmReset_spec
    refine ⟨_, exec_resetPackageWarm s, h5, hp, hc, fun a h1 h2 => hb a h2 fun h => absurd h (by omega),
      fun h a ha => hb a (by omega) fun _ => ?_⟩
    rw [State.relaid, h, bne_self_eq_false]
  · obtain ⟨h3, ha, -⟩ := s.coldReset_spec
    obtain ⟨hk, hp⟩ := s.coldReset_kept
    exact ⟨_, exec_resetPackageCold s, h3, ha, hk, hp⟩

end Sys2Proof.Machine
end

section
/-! SUPPORT. Messages through a port: what sending and taking them leave alone, and where a message goes (R232 to
  R234). -/
namespace Sys2Proof.Machine

/-- Everything but the ports and what they have sent. -/
def State.butLines (s : State) : State := { s with ports := [], sent := [] }

theorem State.frame_of_butLines {s t : State} (h : t.butLines = s.butLines) : { t with ports := s.ports, sent :=
  s.sent } = s :=
  (congrArg (fun u : State => { u with ports := s.ports, sent := s.sent }) h :)

theorem State.setPort_butLines (s : State) (p : Nat) (x : Port) : (s.setPort p x).butLines = s.butLines := rfl
theorem State.modPort_butLines (s : State) (p : Nat) (f : Port → Port) : (s.modPort p f).butLines = s.butLines := rfl
theorem State.withSent_butLines (s : State) (l : List (Nat × Msg)) : ({ s with sent := l } : State).butLines =
  s.butLines :=
  rfl
theorem State.sendIdle_butLines (s : State) (p : Nat) (nak : Bool) (c n : Nat) : (s.sendIdle p nak c n).butLines =
  s.butLines :=
  rfl
theorem State.takeFlits_butLines (s : State) (p vc n : Nat) : (s.takeFlits p vc n).butLines = s.butLines :=
  (State.sendIdle_butLines _ _ _ _ _).trans (s.modPort_butLines _ _)
theorem State.took_butLines (s : State) (src : BitVec 16) (m : Msg) : (s.took src m).butLines = s.butLines := by
  unfold State.took
  split
  · exact State.takeFlits_butLines _ _ _ _
  · rfl

/-! ## What waits at a port, sent or kept -/

theorem State.modPort_sent (s : State) (p : Nat) (f : Port → Port) : (s.modPort p f).sent = s.sent := rfl

/-- What a port keeps while messages pass: everything but its sequence, its queue, its credits and its counter. -/
def Port.core (x : Port) : Port :=
  { x with txSeq := 0, rxSeq := 0, retry := [], outq := [], discard := false, credits := [], part := [], iv := 0 }

/-- One message sent, with what its port keeps. -/
def State.sentOne (s : State) (p : Nat) (x : Port) (m : Msg) : State :=
  { s.setPort p x with sent := s.sent ++ [(p, m)] }

theorem State.sentOne_butLines (s : State) (p : Nat) (x : Port) (m : Msg) : (s.sentOne p x m).butLines = s.butLines
  := rfl
theorem State.sentOne_sent (s : State) (p : Nat) (x : Port) (m : Msg) : (s.sentOne p x m).sent = s.sent ++ [(p, m)]
  := rfl

/-- The head of the queue is sent, or stays. -/
theorem State.pumpGo_cons (s : State) (p : Nat) (tails : List (Nat × List MWord)) (m : BitVec 16 × Msg)
    (ms : List (BitVec 16 × Msg)) (shut : List Nat) (kept : List (BitVec 16 × Msg)) :
    (∃ shut', s.pumpGo p tails (m :: ms) shut kept = s.pumpGo p tails ms shut' (m :: kept)) ∨
      ∃ tails' x, s.pumpGo p tails (m :: ms) shut kept = (s.sentOne p x m.2).pumpGo p tails' ms shut kept ∧
        x.core = (s.port p).core := by
  rw [State.pumpGo]
  dsimp only
  split
  · exact Or.inl ⟨_, rfl⟩
  · exact Or.inr ⟨_, _, rfl, rfl⟩

theorem State.pumpGo_butLines (ms : List (BitVec 16 × Msg)) (s : State) (p : Nat) (tails : List (Nat × List MWord))
    (shut : List Nat) (kept : List (BitVec 16 × Msg)) : (s.pumpGo p tails ms shut kept).butLines = s.butLines := by
  induction ms generalizing s tails shut kept with
  | nil => exact s.modPort_butLines _ _
  | cons m ms ih =>
    obtain ⟨shut', h⟩ | ⟨tails', y, h, -⟩ := s.pumpGo_cons p tails m ms shut kept
    · rw [h, ih]
    · rw [h, ih, State.sentOne_butLines]

/-- What has been sent stays sent. -/
theorem State.pumpGo_sent (ms : List (BitVec 16 × Msg)) (s : State) (p : Nat) (tails : List (Nat × List MWord))
    (shut : List Nat) (kept : List (BitVec 16 × Msg)) {x : Nat × Msg} (hx : x ∈ s.sent) :
    x ∈ (s.pumpGo p tails ms shut kept).sent := by
  induction ms generalizing s tails shut kept with
  | nil => exact hx
  | cons m ms ih =>
    obtain ⟨shut', h⟩ | ⟨tails', y, h, -⟩ := s.pumpGo_cons p tails m ms shut kept
    · rw [h]
      exact ih s _ _ _ hx
    · rw [h]
      refine ih _ _ _ _ ?_
      rw [State.sentOne_sent]
      exact List.mem_append_left _ hx

/-- Each message that waited is sent or waits on. -/
theorem State.pumpGo_withPort (ms : List (BitVec 16 × Msg)) (s : State) (p : Nat) (tails : List (Nat × List MWord))
    (shut : List Nat) (kept : List (BitVec 16 × Msg)) {x : BitVec 16 × Msg} (hx : x ∈ ms ∨ x ∈ kept) :
    (s.pumpGo p tails ms shut kept).withPort p x.1 x.2 := by
  induction ms generalizing s tails shut kept with
  | nil =>
    right
    rw [State.pumpGo, State.modPort_port_self]
    exact List.mem_reverse.mpr (hx.resolve_left List.not_mem_nil)
  | cons m ms ih =>
    obtain ⟨shut', h⟩ | ⟨tails', y, h, -⟩ := s.pumpGo_cons p tails m ms shut kept
    · rw [h]
      refine ih s _ _ _ ?_
      rw [List.mem_cons] at hx ⊢
      tauto
    · rw [h]
      rcases hx with hx | hx
      · rcases List.mem_cons.mp hx with rfl | hx
        · exact Or.inl (State.pumpGo_sent _ _ _ _ _ _ (by
            rw [State.sentOne_sent]
            exact List.mem_append_right _ (List.mem_singleton_self _)))
        · exact ih _ _ _ _ (Or.inl hx)
      · exact ih _ _ _ _ (Or.inr hx)

theorem State.pump_butLines (s : State) (p : Nat) : (s.pump p).butLines = s.butLines := State.pumpGo_butLines _ _ _ _
  _ _
theorem State.postTo_butLines (s : State) (p : Nat) (dst : BitVec 16) (m : Msg) : (s.postTo p dst m).butLines =
  s.butLines :=
  (State.pump_butLines _ p).trans (s.modPort_butLines _ _)
theorem State.post_butLines (s : State) (p : Nat) (m : Msg) : (s.post p m).butLines = s.butLines := s.postTo_butLines
  _ _ _

/-- A message given to a port is with it. -/
theorem State.postTo_withPort (s : State) (p : Nat) (dst : BitVec 16) (m : Msg) : (s.postTo p dst m).withPort p dst m
  := by
  refine State.pumpGo_withPort _ _ p [] [] [] (x := (dst, m)) (Or.inl ?_)
  rw [State.modPort_port_self]
  exact List.mem_append_right _ (List.mem_singleton_self _)

theorem State.post_withPort (s : State) (p : Nat) (m : Msg) : (s.post p m).withPort p 0xFFFF m := s.postTo_withPort _
  _ _

/-! ## What the ports keep -/

theorem State.modPort_core (s : State) (p : Nat) (f : Port → Port) (hf : ∀ x, (f x).core = x.core) (q : Nat) :
    ((s.modPort p f).port q).core = (s.port q).core := by
  rw [State.modPort_port]
  split
  next h => rw [hf, h]
  next => rfl

theorem State.sentOne_core {s : State} {p : Nat} {x : Port} (hx : x.core = (s.port p).core) (m : Msg) (q : Nat) :
    ((s.sentOne p x m).port q).core = (s.port q).core := by
  have h : (s.sentOne p x m).port q = (s.setPort p x).port q := rfl
  rw [h, State.setPort_port]
  split
  next hq => rw [hx, hq]
  next => rfl

theorem State.pumpGo_core (ms : List (BitVec 16 × Msg)) (s : State) (p : Nat) (tails : List (Nat × List MWord))
    (shut : List Nat) (kept : List (BitVec 16 × Msg)) (q : Nat) :
    ((s.pumpGo p tails ms shut kept).port q).core = (s.port q).core := by
  induction ms generalizing s tails shut kept with
  | nil => exact State.modPort_core _ _ _ (by exact fun _ => rfl) q
  | cons m ms ih =>
    obtain ⟨shut', h⟩ | ⟨tails', y, h, hy⟩ := s.pumpGo_cons p tails m ms shut kept
    · rw [h, ih]
    · rw [h, ih, State.sentOne_core hy]

theorem State.pump_core (s : State) (p q : Nat) : ((s.pump p).port q).core = (s.port q).core :=
  State.pumpGo_core _ _ _ _ _ _ q
theorem State.postTo_core (s : State) (p : Nat) (dst : BitVec 16) (m : Msg) (q : Nat) :
    ((s.postTo p dst m).port q).core = (s.port q).core :=
  (State.pump_core _ p q).trans (State.modPort_core _ _ _ (by exact fun _ => rfl) q)
theorem State.post_core (s : State) (p : Nat) (m : Msg) (q : Nat) : ((s.post p m).port q).core = (s.port q).core :=
  s.postTo_core _ _ _ _
theorem State.sendIdle_port (s : State) (p : Nat) (nak : Bool) (c n q : Nat) : (s.sendIdle p nak c n).port q = s.port
  q := rfl
theorem State.takeFlits_core (s : State) (p vc n q : Nat) : ((s.takeFlits p vc n).port q).core = (s.port q).core := by
  rw [State.takeFlits, State.sendIdle_port]
  exact State.modPort_core _ _ _ (by exact fun _ => rfl) q

theorem State.foldl_core {α : Type} {f : State → α → State} (q : Nat)
    (hf : ∀ s x, ((f s x).port q).core = (s.port q).core) (l : List α) (s : State) :
    ((l.foldl f s).port q).core = (s.port q).core := by
  induction l generalizing s with
  | nil => rfl
  | cons x l ih => rw [List.foldl_cons, ih, hf]

theorem State.toPkg_core (s : State) (pkg : BitVec 16) (m : Msg) (q : Nat) :
    ((s.toPkg pkg m).port q).core = (s.port q).core := by
  unfold State.toPkg
  split
  · exact s.postTo_core _ _ _ _
  · rfl

theorem State.ahead_core (s : State) (p : Nat) (ms : List Msg) (q : Nat) :
    ((s.ahead p ms).port q).core = (s.port q).core := by
  unfold State.ahead
  split
  · rfl
  · exact (State.pump_core _ p q).trans (State.modPort_core _ _ _ (by exact fun _ => rfl) q)

theorem State.reroute_core (s : State) (q : Nat) : (s.reroute.port q).core = (s.port q).core := by
  unfold State.reroute
  dsimp only
  refine (State.foldl_core q (fun t (x : BitVec 16 × Msg) => t.toPkg_core x.1 x.2 q) _ _).trans ?_
  exact State.foldl_core q (fun t p => t.ahead_core p _ q) _ _

theorem State.sendAgain_core (s : State) (p q : Nat) : ((s.sendAgain p).port q).core = (s.port q).core := by
  unfold State.sendAgain
  dsimp only
  refine (State.foldl_core q (fun t (x : BitVec 16 × Msg) => t.toPkg_core x.1 x.2 q) _ _).trans ?_
  exact (State.reroute_core _ q).trans (State.modPort_core _ _ _ (by exact fun _ => rfl) q)

theorem State.ports_of_butRegs {s t : State} (h : t.butRegs = s.butRegs) : t.ports = s.ports := (congrArg State.ports
  h :)
theorem State.port_of_ports {s t : State} (h : t.ports = s.ports) (p : Nat) : t.port p = s.port p := by
  rw [State.port, h, State.port]

theorem State.leaveActive_core (s : State) (p st q : Nat) : ((s.leaveActive p st).port q).core = (s.port q).core := by
  have h : (s.setPortState p st).port q = s.port q := State.port_of_ports (State.ports_of_butRegs
    (s.setPortState_butRegs p st)) q
  unfold State.leaveActive
  dsimp only
  split
  · exact (State.sendAgain_core _ p q).trans (congrArg Port.core h)
  · exact congrArg Port.core h

/-! ## Routes -/

theorem State.route_of_butLines {s t : State} (h : t.butLines = s.butLines) (pkg : BitVec 16) (a : Nat) :
    t.route pkg a = s.route pkg a := (congrArg (fun u : State => u.route pkg a) h :)

theorem State.toPkg_routed {s : State} {pkg : BitVec 16} {p : Nat} (h : s.route pkg 0 = some p) (m : Msg) :
    s.toPkg pkg m = s.postTo p pkg m := by
  unfold State.toPkg
  rw [h]

theorem State.toPkg_unrouted {s : State} {pkg : BitVec 16} (h : s.route pkg 0 = none) (m : Msg) :
    s.toPkg pkg m = { s with noRoute := s.noRoute ++ [(pkg, m)] } := by
  unfold State.toPkg
  rw [h]

end Sys2Proof.Machine
end

section
/-! SUPPORT. The timebase's commands (R261 to R266). -/
namespace Sys2Proof.Machine

/-! ## SYNC edges (R262, R263) -/

/-- An edge judged against the aligned timebase. -/
def State.edgeJudged (s : State) (err : Int) : State :=
  if s.flag F.CLV_TB_STATUS_ALIGNED = false then s
  else if -2 ≤ err ∧ err ≤ 2 then s.fset F.CLV_TB_STATUS_ERRT (unsigned 16 err)
  else (s.setFlag F.CLV_TB_STATUS_SYNC_ERR true).event 0x0D (blockUnit 9) 1 0 0

/-- An edge ends SYNC_LOST and is judged. -/
def State.edgeTaken (s : State) (err : Int) : State := (s.setFlag F.CLV_TB_STATUS_SYNC_LOST false).edgeJudged err

/-- What an edge does with an armed value. -/
def State.edgeLoads (s : State) : State :=
  if s.flag F.CLV_TB_CFG_ARM = false then s
  else if s.syncDelay = 0 then s.loadArm
  else s.modTime fun t => { t with load := some s.syncDelay }

theorem exec_syncEdge (err : Int) (s : State) : exec (.syncEdge err) s = .next (s.edgeTaken err).edgeLoads := rfl

theorem State.edgeJudged_spec (s : State) (err : Int) : (s.edgeJudged err).time = s.time ∧
    (s.edgeJudged err).memKey = s.memKey ∧
    ∀ k, k ≠ Reg.CLV_TB_STATUS → recordReg k = false → (s.edgeJudged err).reg k = s.reg k := by
  unfold State.edgeJudged
  split
  · exact ⟨rfl, rfl, fun _ _ _ => rfl⟩
  split
  · exact ⟨rfl, s.fset_memKey' _ _, fun k h _ => State.fset_reg_ne _ _ _ _ h⟩
  · have hb := (s.setFlag F.CLV_TB_STATUS_SYNC_ERR true).event_butRecords 0x0D (blockUnit 9) 1 0 0
    have hc := (s.setFlag F.CLV_TB_STATUS_SYNC_ERR true).event_calmRegs 0x0D (blockUnit 9) 1 0 0
    exact ⟨(State.time_of_butRecords hb).trans rfl, (State.memKey_of_butRecords hb).trans (s.setFlag_memKey' _ _),
      fun k h hk => (State.reg_of_calmRegs hc hk).trans (State.fset_reg_ne _ _ _ _ h)⟩

theorem State.edgeTaken_spec (s : State) (err : Int) : (s.edgeTaken err).time = s.time ∧
    (s.edgeTaken err).memKey = s.memKey ∧ (s.edgeTaken err).reg Reg.CLV_TB_CFG = s.reg Reg.CLV_TB_CFG ∧
    (s.edgeTaken err).reg64 Reg.CLV_TB_ARM_LO Reg.CLV_TB_ARM_HI = s.reg64 Reg.CLV_TB_ARM_LO Reg.CLV_TB_ARM_HI := by
  obtain ⟨ht, hm, hr⟩ := (s.setFlag F.CLV_TB_STATUS_SYNC_LOST false).edgeJudged_spec err
  have hreg (k : Nat) (h : k ≠ Reg.CLV_TB_STATUS) (hk : recordReg k = false) : (s.edgeTaken err).reg k = s.reg k :=
    (hr k h hk).trans (State.fset_reg_ne _ _ _ _ h)
  refine ⟨ht, hm.trans (s.setFlag_memKey' _ _), hreg _ (by decide) (by decide), ?_⟩
  rw [State.reg64, State.reg64, hreg _ (by decide) (by decide), hreg _ (by decide) (by decide)]

theorem State.edgeTaken_unaligned {s : State} (h : s.flag F.CLV_TB_STATUS_ALIGNED = false) (err : Int) :
    s.edgeTaken err = s.setFlag F.CLV_TB_STATUS_SYNC_LOST false :=
  if_pos ((State.setFlag_flag_apart _ _ _ _ rfl).trans h)

theorem State.edgeTaken_near {s : State} (h : s.flag F.CLV_TB_STATUS_ALIGNED = true) {err : Int} (h1 : -2 ≤ err)
    (h2 : err ≤ 2) : s.edgeTaken err =
      (s.setFlag F.CLV_TB_STATUS_SYNC_LOST false).fset F.CLV_TB_STATUS_ERRT (unsigned 16 err) :=
  (if_neg (by rw [State.setFlag_flag_apart _ _ _ _ rfl, h]; decide)).trans (if_pos ⟨h1, h2⟩)

theorem State.edgeTaken_far {s : State} (h : s.flag F.CLV_TB_STATUS_ALIGNED = true) {err : Int} (h' : err < -2 ∨ 2 <
  err) :
    s.edgeTaken err = ((s.setFlag F.CLV_TB_STATUS_SYNC_LOST false).setFlag F.CLV_TB_STATUS_SYNC_ERR true).event 0x0D
      (blockUnit 9) 1 0 0 :=
  (if_neg (by rw [State.setFlag_flag_apart _ _ _ _ rfl, h]; decide)).trans (if_neg (by omega))

theorem State.edgeLoads_none {s : State} (h : s.flag F.CLV_TB_CFG_ARM = false) : s.edgeLoads = s := if_pos h

theorem State.edgeLoads_now {s : State} (h : s.flag F.CLV_TB_CFG_ARM = true) (hd : s.fget F.CLV_TB_CFG_SYNC_DLY < 8) :
    s.edgeLoads = s.loadArm :=
  (if_neg (by rw [h]; decide)).trans (if_pos (Nat.div_eq_of_lt hd))

theorem State.edgeLoads_later {s : State} (h : s.flag F.CLV_TB_CFG_ARM = true) (hd : 8 ≤ s.fget F.CLV_TB_CFG_SYNC_DLY) :
    s.edgeLoads = s.modTime fun t => { t with load := some s.syncDelay } :=
  (if_neg (by rw [h]; decide)).trans (if_neg (by unfold State.syncDelay; omega))

/-- The armed value, loaded or refused. -/
theorem State.loadArm_spec (s : State) :
    (s.now.toNat ≤ (s.reg64 Reg.CLV_TB_ARM_LO Reg.CLV_TB_ARM_HI).toNat →
      s.loadArm.now = s.reg64 Reg.CLV_TB_ARM_LO Reg.CLV_TB_ARM_HI ∧ s.loadArm.flag F.CLV_TB_STATUS_ALIGNED = true) ∧
    ((s.reg64 Reg.CLV_TB_ARM_LO Reg.CLV_TB_ARM_HI).toNat < s.now.toNat →
      s.loadArm.now = s.now ∧ s.loadArm.flag F.CLV_TB_STATUS_ARM_ERR = true) := by
  refine ⟨fun h => ?_, fun h => ?_⟩
  · rw [State.loadArm_of_le h]
    exact ⟨rfl, State.setFlag_flag _ _ _ rfl⟩
  · rw [State.loadArm_of_lt h]
    exact ⟨rfl, State.setFlag_flag _ _ _ rfl⟩

theorem State.setFlag_back (s : State) (f : Fld) (b : Bool) :
    { s.setFlag f b with regs := s.regs, time := s.time } = s := rfl

theorem syncEdge_loads {s : State} (err : Int) (ha : s.flag F.CLV_TB_CFG_ARM = true)
    (hd : s.fget F.CLV_TB_CFG_SYNC_DLY < 8) : Completes (.syncEdge err) s fun t =>
      (s.now.toNat ≤ (s.reg64 Reg.CLV_TB_ARM_LO Reg.CLV_TB_ARM_HI).toNat →
        t.now = s.reg64 Reg.CLV_TB_ARM_LO Reg.CLV_TB_ARM_HI ∧ t.flag F.CLV_TB_STATUS_ALIGNED = true) ∧
      ((s.reg64 Reg.CLV_TB_ARM_LO Reg.CLV_TB_ARM_HI).toNat < s.now.toNat →
        t.now = s.now ∧ t.flag F.CLV_TB_STATUS_ARM_ERR = true) ∧
      t.flag F.CLV_TB_CFG_ARM = false ∧
      (s.flag F.CLV_TB_STATUS_ALIGNED = false → { t with regs := s.regs, time := s.time } = s) ∧
      ∀ a, t.byte a = s.byte a := by
  refine ⟨_, exec_syncEdge err s, ?_⟩
  have hu := fun h => State.edgeTaken_unaligned (s := s) h err
  obtain ⟨ht, hm, hcfg, harm⟩ := s.edgeTaken_spec err
  generalize s.edgeTaken err = u at *
  rw [State.edgeLoads_now ((State.flag_of_reg hcfg).trans ha) ((State.fget_of_reg hcfg).trans_lt hd)]
  obtain ⟨hle, hlt⟩ := u.loadArm_spec
  obtain ⟨-, hf, hframe⟩ := u.loadArm_frame
  have hnow : u.now = s.now := congrArg Time.tb ht
  rw [harm, hnow] at hle hlt
  refine ⟨hle, hlt, hf, fun h => ?_, State.byte_of_memKey (u.loadArm_memKey.trans hm)⟩
  rw [hframe, hu h, State.setFlag_back]

theorem State.modTime_spec (s : State) (f : Time → Time) : (s.modTime f).time = f s.time ∧
    (s.modTime f).memKey = s.memKey ∧ (∀ k, (s.modTime f).reg k = s.reg k) ∧ { s.modTime f with time := s.time } = s :=
  ⟨rfl, rfl, fun _ => rfl, rfl⟩

theorem syncEdge_delays {s : State} (err : Int) (ha : s.flag F.CLV_TB_CFG_ARM = true)
    (hd : 8 ≤ s.fget F.CLV_TB_CFG_SYNC_DLY) : Completes (.syncEdge err) s fun t =>
      t.time = { s.time with load := some (s.fget F.CLV_TB_CFG_SYNC_DLY / 8) } ∧ t.flag F.CLV_TB_CFG_ARM = true ∧
      ∀ a, t.byte a = s.byte a := by
  refine ⟨_, exec_syncEdge err s, ?_⟩
  obtain ⟨ht, hm, hcfg, -⟩ := s.edgeTaken_spec err
  generalize s.edgeTaken err = u at *
  have hdly := State.fget_of_reg (f := F.CLV_TB_CFG_SYNC_DLY) hcfg
  rw [State.edgeLoads_later ((State.flag_of_reg hcfg).trans ha) (hdly.symm ▸ hd), State.syncDelay, hdly]
  obtain ⟨mt, mm, mr, -⟩ := u.modTime_spec fun t => { t with load := some (s.fget F.CLV_TB_CFG_SYNC_DLY / 8) }
  refine ⟨mt.trans (by rw [ht]), (State.flag_of_reg ((mr _).trans hcfg)).trans ha, State.byte_of_memKey (mm.trans hm)⟩

theorem syncEdge_near {s : State} {err : Int} (ha : s.flag F.CLV_TB_CFG_ARM = false)
    (hal : s.flag F.CLV_TB_STATUS_ALIGNED = true) (h1 : -2 ≤ err) (h2 : err ≤ 2) : Completes (.syncEdge err) s fun t =>
      (t.fget F.CLV_TB_STATUS_ERRT : Int) = err % 2 ^ 16 ∧ t.flag F.CLV_TB_STATUS_SYNC_LOST = false ∧
      { t with regs := s.regs } = s := by
  refine ⟨_, exec_syncEdge err s, ?_⟩
  obtain ⟨-, -, hcfg, -⟩ := s.edgeTaken_spec err
  rw [State.edgeLoads_none ((State.flag_of_reg hcfg).trans ha), State.edgeTaken_near hal h1 h2]
  refine ⟨?_, ?_, State.frame_of_butRegs ((State.fset_butRegs _ _ _).trans (State.setFlag_butRegs _ _ _))⟩
  · rw [State.fset_fget _ _ _ rfl, Int.natCast_mod, unsigned_cast]
    exact Int.emod_emod_of_dvd _ (dvd_refl _)
  · exact (State.fset_flag_apart _ _ _ _ rfl).trans (State.setFlag_flag _ _ _ rfl)

theorem syncEdge_far {s : State} {err : Int} (ha : s.flag F.CLV_TB_CFG_ARM = false)
    (hal : s.flag F.CLV_TB_STATUS_ALIGNED = true) (h : err < -2 ∨ 2 < err) : Completes (.syncEdge err) s fun t =>
      t.flag F.CLV_TB_STATUS_SYNC_ERR = true ∧ t.time = s.time ∧ ∀ a, t.byte a = s.byte a := by
  refine ⟨_, exec_syncEdge err s, ?_⟩
  obtain ⟨ht, hm, hcfg, -⟩ := s.edgeTaken_spec err
  rw [State.edgeLoads_none ((State.flag_of_reg hcfg).trans ha)]
  refine ⟨?_, ht, State.byte_of_memKey hm⟩
  rw [State.edgeTaken_far hal h]
  exact (State.flag_of_calmRegs (State.event_calmRegs _ _ _ _ _ _) (by decide)).trans (State.setFlag_flag _ _ _ rfl)

theorem syncLost_completes {s : State} (h : s.flag F.CLV_TB_STATUS_ALIGNED = true) : Completes .syncLost s fun t =>
    t.flag F.CLV_TB_STATUS_SYNC_LOST = true ∧ { t with regs := s.regs } = s :=
  ⟨_, congrArg Host.Outcome.next (if_pos h), State.setFlag_flag _ _ _ rfl,
    State.frame_of_butRegs (State.setFlag_butRegs _ _ _)⟩

/-! ## The exchange between racks (R264, R266) -/

theorem timeExchange_completes {s : State} (h : s.leader = true) : Completes .timeExchange s fun t =>
    t.time.ex = { seq := (s.time.ex.seq + 1) % 2 ^ 16 } ∧ { t with time := s.time } = s :=
  ⟨_, congrArg Host.Outcome.next (if_pos h), rfl, rfl⟩

/-- A time slot taken leaves all but the ports. -/
theorem State.tookTime_butLines (s : State) (typ : Nat) (x : TimeSlot) : (s.tookTime typ x).butLines = s.butLines :=
  s.took_butLines _ _

section
variable {s t : State} (h : t.butLines = s.butLines)
include h
theorem State.time_of_butLines : t.time = s.time := (congrArg State.time h :)
theorem State.regs_of_butLines : t.regs = s.regs := (congrArg State.regs h :)
theorem State.reg_of_butLines (k : Nat) : t.reg k = s.reg k := by rw [State.reg, State.regs_of_butLines h, State.reg]
theorem State.fromUpstream_of_butLines (x : TimeSlot) : t.fromUpstream x = s.fromUpstream x := by
  rw [State.fromUpstream, State.fromUpstream, State.leader, State.leader, State.fget_of_reg (State.reg_of_butLines h _),
    State.fget_of_reg (State.reg_of_butLines h _)]
theorem State.pkgId_of_butLines : t.pkgId = s.pkgId := by rw [State.pkgId, State.reg_of_butLines h, State.pkgId]
theorem State.noRoute_of_butLines : t.noRoute = s.noRoute := (congrArg State.noRoute h :)
/-- A change of the time after a message taken. -/
theorem State.modTime_of_butLines (f : Time → Time) :
    { t.modTime f with time := s.time, ports := s.ports, sent := s.sent } = s :=
  (congrArg (fun u : State => { u with time := s.time, ports := s.ports, sent := s.sent }) h :)
end

theorem timeSync_completes {s : State} {x : TimeSlot} (h : s.fromUpstream x = true) :
    Completes (.timeSync x) s fun t =>
      t.time.ex = { seq := x.seq.toNat, t2 := some x.stamp, corr := (x.corr.toNat : Int) } ∧
      { t with time := s.time, ports := s.ports, sent := s.sent } = s := by
  have hb := s.tookTime_butLines 0 x
  exact ⟨_, congrArg Host.Outcome.next (if_pos ((State.fromUpstream_of_butLines hb x).trans h)), rfl,
    State.modTime_of_butLines hb _⟩

/-- A request to the upstream, with its times kept. -/
theorem State.toUpstream_spec (s : State) (typ : Nat) (x : TimeSlot) : (s.toUpstream typ x).butLines = s.butLines ∧
    (s.toUpstream typ x).withPort (min 11 (s.fget F.CLV_TB_PEER_PORT)) 0xFFFF (.time typ x) :=
  ⟨s.post_butLines _ _, s.post_withPort _ _⟩

theorem State.frame_time {s t u : State} (hu : u.butLines = t.butLines)
    (ht : { t with time := s.time, ports := s.ports, sent := s.sent } = s) :
    { u with time := s.time, ports := s.ports, sent := s.sent } = s :=
  (congrArg (fun v : State => { v with time := s.time, ports := s.ports, sent := s.sent }) hu :).trans ht

theorem exec_followUp {s : State} {x : TimeSlot} (h : (s.tookTime 1 x).fromUpstream x = true ∧
    (s.tookTime 1 x).time.ex.seq = x.seq.toNat ∧ (s.tookTime 1 x).time.ex.t2.isSome = true) :
    exec (.followUp x) s = .next (((s.tookTime 1 x).modTime fun t =>
      { t with ex := { t.ex with t1 := some x.time, t3 := some t.tb } }).toUpstream 2
        ⟨x.seq, ((s.tookTime 1 x).modTime fun t =>
          { t with ex := { t.ex with t1 := some x.time, t3 := some t.tb } }).pkgId, 0, 0, 0⟩) :=
  congrArg Host.Outcome.next (if_pos h)

theorem followUp_completes {s : State} {x : TimeSlot} (h : s.fromUpstream x = true) (hs : s.time.ex.seq = x.seq.toNat)
    (h2 : s.time.ex.t2.isSome = true) : Completes (.followUp x) s fun t =>
      t.time.ex = { s.time.ex with t1 := some x.time, t3 := some s.now } ∧
      t.withPort (min 11 (s.fget F.CLV_TB_PEER_PORT)) 0xFFFF (.time 2 ⟨x.seq, s.pkgId, 0, 0, 0⟩) ∧
      { t with time := s.time, ports := s.ports, sent := s.sent } = s := by
  have hb := s.tookTime_butLines 1 x
  have ht := State.time_of_butLines hb
  refine ⟨_, exec_followUp ⟨(State.fromUpstream_of_butLines hb x).trans h, by rw [ht, hs], by rw [ht, h2]⟩, ?_⟩
  have hf := State.modTime_of_butLines hb fun t => { t with ex := { t.ex with t1 := some x.time, t3 := some t.tb } }
  obtain ⟨mt, -, mr, -⟩ := (s.tookTime 1 x).modTime_spec fun t =>
    { t with ex := { t.ex with t1 := some x.time, t3 := some t.tb } }
  rw [ht] at mt
  have hr (k : Nat) : ((s.tookTime 1 x).modTime fun t =>
      { t with ex := { t.ex with t1 := some x.time, t3 := some t.tb } }).reg k = s.reg k :=
    (mr k).trans (State.reg_of_butLines hb k)
  generalize ((s.tookTime 1 x).modTime fun t => { t with ex := { t.ex with t1 := some x.time, t3 := some t.tb } }) =
    u at *
  have hid : u.pkgId = s.pkgId := by rw [State.pkgId, hr, State.pkgId]
  rw [hid]
  obtain ⟨ub, uw⟩ := u.toUpstream_spec 2 ⟨x.seq, s.pkgId, 0, 0, 0⟩
  rw [State.fget_of_reg (hr _)] at uw
  exact ⟨(congrArg Time.ex ((State.time_of_butLines ub).trans mt)).trans rfl, uw, State.frame_time ub hf⟩

theorem delayResp_completes {s : State} {x : TimeSlot} (h : s.fromUpstream x = true) {t1 t2 t3 : BitVec 64}
    (hs : s.time.ex.seq = x.seq.toNat) (h1 : s.time.ex.t1 = some t1) (h2 : s.time.ex.t2 = some t2)
    (h3 : s.time.ex.t3 = some t3) : Completes (.delayResp x) s fun t =>
      let down : Int := (t2.toNat : Int) - t1.toNat - s.time.ex.corr
      let up : Int := (x.time.toNat : Int) - t3.toNat - x.corr.toNat
      t.time.offs = s.time.offs ++ [(down - up) / 2 - (s.reg Reg.CLV_TB_ASYM).toInt] ∧
      { t with time := s.time, ports := s.ports, sent := s.sent } = s := by
  have hb := s.tookTime_butLines 3 x
  have hx : exec (.delayResp x) s = .next (match (s.tookTime 3 x).fromUpstream x, (s.tookTime 3 x).time.ex.t1,
      (s.tookTime 3 x).time.ex.t2, (s.tookTime 3 x).time.ex.t3 with
    | true, some t1, some t2, some t3 =>
      if (s.tookTime 3 x).time.ex.seq ≠ x.seq.toNat then s.tookTime 3 x
      else (s.tookTime 3 x).modTime fun t => { t with
        ex := { seq := (s.tookTime 3 x).time.ex.seq }
        offs := t.offs ++ [((t2.toNat : Int) - t1.toNat - (s.tookTime 3 x).time.ex.corr -
          ((x.time.toNat : Int) - t3.toNat - x.corr.toNat)) / 2 - int32 ((s.tookTime 3 x).reg Reg.CLV_TB_ASYM)] }
    | _, _, _, _ => s.tookTime 3 x) := rfl
  rw [State.fromUpstream_of_butLines hb x, State.time_of_butLines hb, h, h1, h2, h3, State.reg_of_butLines hb] at hx
  refine ⟨_, hx.trans (congrArg Host.Outcome.next (if_neg (not_not.mpr hs))), ?_, State.modTime_of_butLines hb _⟩
  rw [(State.modTime_spec _ _).1, State.time_of_butLines hb]
  rfl

theorem exec_delayReq {s : State} {x : TimeSlot} (h : (s.tookTime 2 x).fget F.CLV_TB_CFG_ROLE ≠ 0) :
    exec (.delayReq x) s = .next ((s.tookTime 2 x).toPkg x.src
      (.time 3 ⟨x.seq, (s.tookTime 2 x).pkgId, x.corr, x.stamp, 0⟩)) := congrArg Host.Outcome.next (if_neg h)

/-- A message sent to a package: with the port of its route, or waiting for one. -/
theorem State.toPkg_spec (s : State) (pkg : BitVec 16) (m : Msg) :
    (∀ p, s.route pkg 0 = some p → (s.toPkg pkg m).withPort p pkg m) ∧
      (s.route pkg 0 = none → (s.toPkg pkg m).noRoute = s.noRoute ++ [(pkg, m)]) ∧
      { s.toPkg pkg m with ports := s.ports, sent := s.sent, noRoute := s.noRoute } = s := by
  cases h : s.route pkg 0 with
  | none =>
    rw [State.toPkg_unrouted h]
    exact ⟨fun _ h' => absurd h' (by simp), fun _ => rfl, rfl⟩
  | some p =>
    rw [State.toPkg_routed h]
    refine ⟨fun q hq => ?_, fun h' => absurd h' (by simp), ?_⟩
    · cases hq
      exact s.postTo_withPort p pkg m
    · exact (congrArg (fun u : State => { u with ports := s.ports, sent := s.sent, noRoute := s.noRoute })
        (s.postTo_butLines p pkg m) :)

theorem State.frame_noRoute {s t u : State} (hu : { u with ports := t.ports, sent := t.sent, noRoute := t.noRoute } = t)
    (ht : t.butLines = s.butLines) : { u with ports := s.ports, sent := s.sent, noRoute := s.noRoute } = s :=
  ((congrArg (fun v : State => { v with ports := s.ports, sent := s.sent, noRoute := s.noRoute }) hu :).trans
    (congrArg (fun v : State => { v with ports := s.ports, sent := s.sent, noRoute := s.noRoute }) ht :))

theorem delayReq_completes {s : State} {x : TimeSlot} (h : s.fget F.CLV_TB_CFG_ROLE ≠ 0) :
    Completes (.delayReq x) s fun t =>
      let m := Msg.time 3 ⟨x.seq, s.pkgId, x.corr, x.stamp, 0⟩
      (∀ p, s.route x.src 0 = some p → t.withPort p x.src m) ∧
      (s.route x.src 0 = none → t.noRoute = s.noRoute ++ [(x.src, m)]) ∧
      { t with ports := s.ports, sent := s.sent, noRoute := s.noRoute } = s := by
  have hb := s.tookTime_butLines 2 x
  refine ⟨_, exec_delayReq (by rwa [State.fget_of_reg (State.reg_of_butLines hb _)]), ?_⟩
  rw [State.pkgId_of_butLines hb]
  obtain ⟨h1, h2, h3⟩ := (s.tookTime 2 x).toPkg_spec x.src (.time 3 ⟨x.seq, s.pkgId, x.corr, x.stamp, 0⟩)
  rw [State.route_of_butLines hb] at h1 h2
  rw [State.noRoute_of_butLines hb] at h2
  exact ⟨h1, h2, State.frame_noRoute h3 hb⟩

/-! ## Adjustments (R265, R266) -/

/-- The offsets' median shown, and the adjustment to come (R264, R265). -/
def State.medianShown (s : State) (settled : Bool) (rate : BitVec 32) (t : State) : State :=
  ((t.setReg Reg.CLV_TB_OFS (BitVec.ofInt 32 (median s.time.offs))).setFlag F.CLV_TB_STATUS_LOCKED_UP
    (decide (-50 ≤ median s.time.offs ∧ median s.time.offs ≤ 50) &&
      (settled || t.flag F.CLV_TB_STATUS_LOCKED_UP))).modTime fun x =>
        { x with offs := [], adj := some (s.now + 2000000, -median s.time.offs, int32 rate) }

theorem exec_offsetCorrection {s : State} (settled : Bool) (h : s.leader = true) (ho : s.time.offs ≠ []) :
    ∃ (a b : TimeSlot) (ps : List (BitVec 16)), exec (.offsetCorrection settled) s = .next (ps.foldl (fun (t : State)
      p => t.toPkg p (.adjust a b))
      (s.medianShown settled (s.draw.1.truncate 32) s.draw.2)) :=
  ⟨_, _, _, congrArg Host.Outcome.next (if_neg (c := s.leader = false ∨ s.time.offs = []) (by rw [h]; simp [ho]))⟩

theorem State.medianShown_spec (s : State) (settled : Bool) (rate : BitVec 32) {t : State} (ht : t.regs = s.regs)
    (htime : t.time = s.time) :
    (s.medianShown settled rate t).reg Reg.CLV_TB_OFS = BitVec.ofInt 32 (median s.time.offs) ∧
      (s.medianShown settled rate t).time =
        { s.time with offs := [], adj := some (s.now + 2000000, -median s.time.offs, int32 rate) } ∧
      ((s.medianShown settled rate t).flag F.CLV_TB_STATUS_LOCKED_UP = true ↔ |median s.time.offs| ≤ 50 ∧
        (settled = true ∨ s.flag F.CLV_TB_STATUS_LOCKED_UP = true)) ∧
      (s.medianShown settled rate t).memKey = t.memKey := by
  have hflag : t.flag F.CLV_TB_STATUS_LOCKED_UP = s.flag F.CLV_TB_STATUS_LOCKED_UP :=
    State.flag_of_reg (by rw [State.reg, ht, State.reg])
  unfold State.medianShown
  rw [hflag]
  generalize median s.time.offs = m
  obtain ⟨mt, mm, mr, -⟩ := ((t.setReg Reg.CLV_TB_OFS (BitVec.ofInt 32 m)).setFlag F.CLV_TB_STATUS_LOCKED_UP
    (decide (-50 ≤ m ∧ m ≤ 50) && (settled || s.flag F.CLV_TB_STATUS_LOCKED_UP))).modTime_spec fun x =>
      { x with offs := [], adj := some (s.now + 2000000, -m, int32 rate) }
  refine ⟨?_, ?_, ?_, mm.trans ((State.setFlag_memKey' _ _ _).trans (State.setReg_memKey' _ _ _))⟩
  · rw [mr]
    exact (State.fset_reg_ne _ _ _ _ (by decide)).trans ((State.setReg_reg _ _ _ _).trans (if_pos rfl))
  · rw [mt]
    exact (congrArg (fun x : Time => { x with offs := [], adj := some (s.now + 2000000, -m, int32 rate) }) htime)
  · rw [State.flag_of_reg (mr _), State.setFlag_flag _ _ _ rfl, Bool.and_eq_true, Bool.or_eq_true, decide_eq_true_eq,
    abs_le]

theorem State.toPkgs_butSends (ps : List (BitVec 16)) (m : Msg) (s : State) :
    (ps.foldl (fun (t : State) p => t.toPkg p m) s).butSends = s.butSends :=
  State.foldl_butSends _ (fun t p => t.toPkg_butSends p m) _ _

theorem State.time_of_butSends {s t : State} (h : t.butSends = s.butSends) : t.time = s.time := (congrArg State.time
  h :)
theorem State.memKey_of_butSends {s t : State} (h : t.butSends = s.butSends) : t.memKey = s.memKey :=
  (congrArg State.memKey h :)

theorem State.draw_spec (s : State) : s.draw.2.regs = s.regs ∧ s.draw.2.time = s.time ∧ s.draw.2.memKey = s.memKey :=
  ⟨rfl, rfl, s.draw_memKey'⟩

theorem offsetCorrection_completes {s : State} (settled : Bool) (h : s.leader = true) (ho : s.time.offs ≠ []) :
    Completes (.offsetCorrection settled) s fun t =>
      t.reg Reg.CLV_TB_OFS = BitVec.ofInt 32 (median s.time.offs) ∧ t.time.offs = [] ∧
      (t.flag F.CLV_TB_STATUS_LOCKED_UP = true ↔ |median s.time.offs| ≤ 50 ∧
        (settled = true ∨ s.flag F.CLV_TB_STATUS_LOCKED_UP = true)) ∧
      (∃ rate : Int, t.time.adj = some (s.now + 2000000, -median s.time.offs, rate)) ∧ t.now = s.now ∧
      ∀ a, t.byte a = s.byte a := by
  obtain ⟨a, b, ps, hx⟩ := exec_offsetCorrection settled h ho
  refine ⟨_, hx, ?_⟩
  obtain ⟨dr, dt, dm⟩ := s.draw_spec
  obtain ⟨hofs, htime, hlock, hm⟩ := s.medianShown_spec settled (s.draw.1.truncate 32) dr dt
  generalize s.medianShown settled (s.draw.1.truncate 32) s.draw.2 = u at *
  have hb := State.toPkgs_butSends ps (.adjust a b) u
  generalize ps.foldl (fun (t : State) p => t.toPkg p (.adjust a b)) u = t at *
  have ht := (State.time_of_butSends hb).trans htime
  exact ⟨(State.reg_of_butSends hb _).trans hofs, congrArg Time.offs ht,
    (State.flag_of_reg (State.reg_of_butSends hb _)) ▸ hlock, ⟨_, congrArg Time.adj ht⟩, (congrArg Time.tb ht).trans
      rfl,
    State.byte_of_memKey ((State.memKey_of_butSends hb).trans (hm.trans dm))⟩

theorem adjust_completes (s : State) (a b : TimeSlot) : Completes (.adjust a b) s fun t =>
    t.time.adj = some (a.time, (b.time.truncate 32).toInt, ((b.time >>> 32).truncate 32).toInt) ∧
    { t with time := s.time, ports := s.ports, sent := s.sent } = s :=
  ⟨_, rfl, rfl, State.modTime_of_butLines (s.took_butLines a.src (.adjust a b)) _⟩

/-- An adjustment whose instant has come. -/
def State.adjusted (s : State) (ph rate : Int) : State :=
  if s.flag F.CLV_TB_CFG_STEP_OK ∧ 0 < ph then
    s.modTime fun t => { t with tb := t.tb + BitVec.ofNat 64 ph.toNat, rate := rate, adj := none }
  else s.modTime fun t => { t with slew := ph, rate := rate, adj := none }

theorem exec_adjustApply {s : State} {i : BitVec 64} {ph rate : Int} (h : s.time.adj = some (i, ph, rate))
    (hi : i.toNat ≤ s.now.toNat) : exec .adjustApply s = .next (s.adjusted ph rate) := by
  have hx : exec .adjustApply s = .next (match s.time.adj with
    | none => s
    | some (at_, ph, rate) => if s.now.toNat < at_.toNat then s else s.adjusted ph rate) := rfl
  rw [h] at hx
  exact hx.trans (congrArg Host.Outcome.next (if_neg (not_lt.mpr hi)))

theorem adjustApply_completes {s : State} {i : BitVec 64} {ph rate : Int} (h : s.time.adj = some (i, ph, rate))
    (hi : i.toNat ≤ s.now.toNat) : Completes .adjustApply s fun t =>
      t.time.adj = none ∧ t.time.rate = rate ∧
      (s.flag F.CLV_TB_CFG_STEP_OK = true ∧ 0 < ph → t.now = s.now + BitVec.ofNat 64 ph.toNat ∧
        t.time.slew = s.time.slew) ∧
      (¬ (s.flag F.CLV_TB_CFG_STEP_OK = true ∧ 0 < ph) → t.now = s.now ∧ t.time.slew = ph) ∧
      { t with time := s.time } = s := by
  refine ⟨_, exec_adjustApply h hi, ?_⟩
  unfold State.adjusted
  split
  next hs => exact ⟨rfl, rfl, fun _ => ⟨rfl, rfl⟩, fun hn => absurd hs hn, rfl⟩
  next hs => exact ⟨rfl, rfl, fun hn => absurd hn hs, fun _ => ⟨rfl, rfl⟩, rfl⟩

/-! ## Reads that latch (R261, R278) -/

/-- A word split into two registers reads back. -/
theorem State.latch_reg64 (s : State) {lo hi : Nat} (h : hi ≠ lo) (v : BitVec 64) :
    ((s.setReg lo (v.truncate 32)).setReg hi ((v >>> 32).truncate 32)).reg64 lo hi = v := by
  rw [State.reg64, State.setReg_reg, if_pos rfl, State.setReg_reg, if_neg h.symm, State.setReg_reg, if_pos rfl]
  refine BitVec.eq_of_getLsbD_eq fun i hi => ?_
  rw [BitVec.getLsbD_append]
  split
  next h32 => simp [h32]
  next h32 => simp [show i - 32 < 32 by omega, show 32 + (i - 32) = i by omega]

theorem State.latch_frame (s : State) (lo hi : Nat) (v w : BitVec 32) :
    { (s.setReg lo v).setReg hi w with regs := s.regs } = s := rfl

/-- Settles O42, command by command. -/
theorem timebaseKeepsTime : Obligations.TimebaseKeepsTime := by
  unfold Obligations.TimebaseKeepsTime
  intro s
  refine ⟨fun err => ⟨fun ha hd => syncEdge_loads err ha hd, fun ha hd => syncEdge_delays err ha hd,
      fun ha hal h1 h2 => syncEdge_near ha hal h1 h2, fun ha hal h => syncEdge_far ha hal h⟩,
    fun h => syncLost_completes h, fun h => timeExchange_completes h,
    fun x => ⟨fun h => ⟨timeSync_completes h, fun hs h2 => followUp_completes h hs h2,
      fun t1 t2 t3 hs h1 h2 h3 => delayResp_completes h hs h1 h2 h3⟩, fun h => delayReq_completes h⟩,
    fun settled h ho => offsetCorrection_completes settled h ho, fun a b => adjust_completes s a b,
    fun i ph rate h hi => adjustApply_completes h hi, ?_, fun c => ?_⟩
  · exact ⟨s.latchTime, rfl, s.latch_reg64 (by decide) s.now, s.latch_frame _ _ _ _⟩
  · have hne : ∀ c : Fin 7, Reg.CLV_IDLE_HI c ≠ Reg.CLV_IDLE_LO c := by decide
    exact ⟨s.latchIdle c, rfl, s.latch_reg64 (hne c) _, s.latch_frame _ _ _ _⟩

end Sys2Proof.Machine
end

section
/-! SUPPORT. Training, retrains and lanes of a port (R228, R229, R235 to R237). -/
namespace Sys2Proof.Machine

/-! ## Frames -/

/-- Everything but registers, ports and what ports have sent. -/
def State.butWires (s : State) : State := { s with regs := [], ports := [], sent := [] }

theorem State.butWires_of_butLines {s t : State} (h : t.butLines = s.butLines) : t.butWires = s.butWires :=
  congrArg (fun t : State => { t with regs := [] }) h
theorem State.butWires_of_butRegs {s t : State} (h : t.butRegs = s.butRegs) : t.butWires = s.butWires :=
  congrArg (fun t : State => { t with ports := [], sent := [] }) h
theorem State.butWires_of_butPorts {s t : State} (h : t.butPorts = s.butPorts) : t.butWires = s.butWires :=
  congrArg (fun t : State => { t with sent := [] }) h
theorem State.butPorts_modPort (s : State) (p : Nat) (f : Port → Port) : (s.modPort p f).butPorts = s.butPorts := rfl
theorem State.frame_of_butWires {s t : State} (h : t.butWires = s.butWires) :
    { t with regs := s.regs, ports := s.ports, sent := s.sent } = s :=
  (congrArg (fun u : State => { u with regs := s.regs, ports := s.ports, sent := s.sent }) h :)
theorem State.frame_of_butPorts {s t : State} (h : t.butPorts = s.butPorts) :
    { t with regs := s.regs, ports := s.ports } = s :=
  (congrArg (fun u : State => { u with regs := s.regs, ports := s.ports }) h :)
theorem State.memKey_of_butWires {s t : State} (h : t.butWires = s.butWires) : t.memKey = s.memKey :=
  (congrArg State.memKey h :)
theorem State.butLinks_of_butLines {s t : State} (h : t.butLines = s.butLines) : t.butLinks = s.butLinks :=
  congrArg (fun t : State => { t with regs := [], rtx := [], nextTag := 0, noRoute := [] }) h
theorem State.butLinks_of_butPorts {s t : State} (h : t.butPorts = s.butPorts) : t.butLinks = s.butLinks :=
  congrArg (fun t : State => { t with rtx := [], nextTag := 0, sent := [], noRoute := [] }) h
theorem State.port_of_butRegs {s t : State} (h : t.butRegs = s.butRegs) (p : Nat) : t.port p = s.port p :=
  State.port_of_ports (State.ports_of_butRegs h) p

/-! ## The fields of a port's registers -/

/-- A field of the port's status register other than its state. -/
theorem wplLane_ne (p : Fin 12) : Reg.WPL_LANE p ≠ Reg.WPL_STATUS p ∧ Reg.WPL_LANE p ≠ Reg.WPL_DISC_STATUS ∧
    Reg.WPL_CFG p ≠ Reg.WPL_STATUS p ∧ Reg.WPL_CFG p ≠ Reg.WPL_DISC_STATUS ∧ Reg.WPL_ERR p ≠ Reg.WPL_LANE p ∧
    recordReg (Reg.WPL_LANE p) = false ∧ Reg.FLT_SVC_TIME ≠ Reg.WPL_LANE p := by
  revert p
  decide

/-- A port that is linked has a state from 2 to 5. -/
theorem State.linked_iff (s : State) (p : Nat) :
    s.linked p = true ↔ 2 ≤ s.fget (F.WPL_STATUS_STATE p) ∧ s.fget (F.WPL_STATUS_STATE p) ≤ 5 := by
  rw [State.linked, Bool.and_eq_true, decide_eq_true_eq, decide_eq_true_eq]

/-! ## Leaving a state that is not ACTIVE -/

theorem State.leaveActive_idle {s : State} {p : Nat} (h : s.fget (F.WPL_STATUS_STATE p) ≠ 3) (st : Nat) :
    s.leaveActive p st = s.setPortState p st := by
  unfold State.leaveActive
  exact if_neg (by rw [State.active, beq_iff_eq]; exact h)

/-- A port's state, set alone. -/
theorem State.setPortState_spec (s : State) (p : Fin 12) {st : Nat} (h : st < 16) :
    (s.setPortState p st).fget (F.WPL_STATUS_STATE p) = st ∧
      ∀ f : Fld, f.key ≠ Reg.WPL_DISC_STATUS → (F.WPL_STATUS_STATE p).apart f = true →
        (s.setPortState p st).fget f = s.fget f := by
  refine ⟨?_, fun f hf ha => ?_⟩
  · rw [State.fget_of_reg (s.setPortState_reg p st (wplStatus_disc p)), State.fset_fget _ _ _ rfl]
    exact Nat.mod_eq_of_lt h
  · rw [State.fget_of_reg (s.setPortState_reg p st hf), State.fset_fget_apart _ _ _ _ ha]

/-! ## Training begins -/

theorem State.beginTraining_eq (s : State) (p : Nat) : s.beginTraining p =
    (s.setPortState p 1).modPort p fun x => { x.fresh with enc := s.flag (F.WPL_CFG_ENC p) } := rfl

theorem State.beginTraining_butPorts (s : State) (p : Nat) : (s.beginTraining p).butPorts = s.butPorts := by
  rw [State.beginTraining_eq, State.butPorts_modPort]
  exact State.butPorts_of_butRegs (s.setPortState_butRegs p 1)

theorem State.beginTraining_spec (s : State) (p : Fin 12) : (s.beginTraining p).fget (F.WPL_STATUS_STATE p) = 1 ∧
    (s.beginTraining p).port p = { (s.port p).fresh with enc := s.flag (F.WPL_CFG_ENC p) } := by
  rw [State.beginTraining_eq]
  refine ⟨(State.fget_of_reg (State.modPort_reg _ _ _ _)).trans (s.setPortState_spec p (by decide)).1, ?_⟩
  rw [State.modPort_port_self, State.port_of_butRegs (s.setPortState_butRegs p 1)]

/-! ## Retrains and the lanes they are charged to (R235, R236) -/

theorem State.startRetrain_eq {s : State} {p : Nat} (h : (s.port p).training = false) :
    s.startRetrain p = (s.modPort p fun x => { x with training := true }).fsat (F.WPL_LANE_RETRAINS p) 1 :=
  if_neg (by rw [h]; decide)

theorem State.startRetrain_spec {s : State} {p : Nat} (h : (s.port p).training = false) :
    (s.startRetrain p).port p = { s.port p with training := true } ∧
      (s.startRetrain p).fget (F.WPL_LANE_RETRAINS p) = min 0xFFFF (s.fget (F.WPL_LANE_RETRAINS p) + 1) ∧
      (s.startRetrain p).butPorts = s.butPorts ∧ ∀ k, k ≠ Reg.WPL_LANE p → (s.startRetrain p).reg k = s.reg k := by
  rw [State.startRetrain_eq h]
  have hr (k : Nat) := s.modPort_reg p (fun x => { x with training := true }) k
  refine ⟨?_, ?_, ?_, fun k hk => (State.fset_reg_ne _ _ _ _ hk).trans (hr k)⟩
  · rw [State.port_of_butRegs (State.fsat_butRegs _ _ _), State.modPort_port_self]
  · rw [State.fsat_fget _ _ _ rfl, State.fget_of_reg (hr _)]
    rfl
  · exact (State.butPorts_of_butRegs (State.fsat_butRegs _ _ _)).trans (s.butPorts_modPort _ _)

/-- A charge to a lane, shown in the window. -/
def State.chargeShown (s : State) (p lane : Nat) : State :=
  (s.modPort p fun x => { x with charged := x.charged ++ [(lane, s.svc)] }).showWindow p

theorem State.showWindow_eq (s : State) (p : Nat) : s.showWindow p =
    (s.modPort p fun x => { x with charged := s.recentCharges p }).fset (F.WPL_LANE_WINDOW p) (s.windowOf p) := rfl

theorem State.chargeShown_spec (s : State) (p : Nat) :
    ∀ lane, (s.chargeShown p lane).port p = { s.port p with charged := s.recentCharges p ++ [(lane, s.svc)] } ∧
      (s.chargeShown p lane).butPorts = s.butPorts ∧
      (∀ f : Fld, (F.WPL_LANE_WINDOW p).apart f = true → (s.chargeShown p lane).fget f = s.fget f) := by
  intro lane
  have hr (k : Nat) := s.modPort_reg p (fun x => { x with charged := x.charged ++ [(lane, s.svc)] }) k
  have hp : (s.modPort p fun x => { x with charged := x.charged ++ [(lane, s.svc)] }).port p =
      { s.port p with charged := (s.port p).charged ++ [(lane, s.svc)] } := s.modPort_port_self p _
  have hb : (s.modPort p fun x => { x with charged := x.charged ++ [(lane, s.svc)] }).butPorts = s.butPorts :=
    s.butPorts_modPort _ _
  unfold State.chargeShown
  generalize (s.modPort p fun x => { x with charged := x.charged ++ [(lane, s.svc)] }) = t at *
  have hc : t.recentCharges p = s.recentCharges p ++ [(lane, s.svc)] := by
    rw [State.recentCharges, State.recentCharges, hp, State.svc, hr, State.svc, List.filter_append]
    simp
  rw [State.showWindow_eq, hc]
  refine ⟨?_, ?_, fun f hf => ?_⟩
  · rw [State.port_of_butRegs (State.fset_butRegs _ _ _), State.modPort_port_self, hp]
  · exact (State.butPorts_of_butRegs (State.fset_butRegs _ _ _)).trans ((t.butPorts_modPort _ _).trans hb)
  · rw [State.fset_fget_apart _ _ _ _ hf, State.fget_of_reg (State.modPort_reg _ _ _ _), State.fget_of_reg (hr _)]

/-- The third charge of 10 min retires a lane. -/
def State.laneJudged (s : State) (p lane : Nat) : State :=
  let n := ((s.port p).charged.filter fun c => c.1 == lane).length
  if n < 3 ∨ (s.lret p).testBit lane then s
  else
    let s := s.fset (F.WPL_STATUS_LRET p) (s.lret p + 2 ^ lane)
    s.classify { cls := 7, unit := BitVec.ofNat 32 (0x90000000 + p * 256 + lane), sig := BitVec.ofNat 32 lane }

theorem State.chargeLane_eq (s : State) (p lane : Nat) : s.chargeLane p lane = (s.chargeShown p lane).laneJudged p
  lane := rfl

theorem exec_retrainTrigger {s : State} {p : Fin 12} {lane : Fin 4} (hl : s.linked p = true)
    (hu : s.laneUsed p lane = true) : exec (.retrainTrigger p lane) s =
      .next (if widthOf (((s.startRetrain p).chargeLane p lane).lret p) = none ∧
          (((s.startRetrain p).chargeLane p lane).port p).clrLanes = false then
        ((s.startRetrain p).chargeLane p lane).portDown p 6 else (s.startRetrain p).chargeLane p lane) :=
  congrArg Host.Outcome.next (if_neg (by rw [hl, hu]; decide))

/-- A retrain charged to a lane: what the port and its registers show. -/
theorem State.retrainCharged_spec {s : State} (p : Fin 12) (lane : Nat) (h : (s.port p).training = false) :
    let t := (s.startRetrain p).chargeShown p lane
    t.port p = { s.port p with training := true, charged := s.recentCharges p ++ [(lane, s.svc)] } ∧
      t.fget (F.WPL_LANE_RETRAINS p) = min 0xFFFF (s.fget (F.WPL_LANE_RETRAINS p) + 1) ∧ t.lret p = s.lret p ∧
      t.butPorts = s.butPorts := by
  obtain ⟨-, -, -, -, -, -, hsvc⟩ := wplLane_ne p
  obtain ⟨r1, r2, r3, r4⟩ := State.startRetrain_spec h
  have hrec : (s.startRetrain p).recentCharges p = s.recentCharges p := by
    rw [State.recentCharges, State.recentCharges, r1, State.svc, r4 _ hsvc, State.svc]
  have hnow : (s.startRetrain p).svc = s.svc := by
    rw [State.svc, r4 _ hsvc, State.svc]
  have hlret : (s.startRetrain p).lret p = s.lret p := State.fget_of_reg (r4 _ (wplLane_ne p).1.symm)
  generalize s.startRetrain p = t at *
  obtain ⟨c1, c2, c3⟩ := t.chargeShown_spec p lane
  refine ⟨?_, (c3 _ rfl).trans r2, ?_, c2.trans r3⟩
  · rw [c1, r1, hrec, hnow]
  · exact (c3 (F.WPL_STATUS_LRET p) (Fld.apart_of_key (wplLane_ne p).1)).trans hlret

theorem State.laneJudged_few {s : State} {p lane : Nat}
    (h : ((s.port p).charged.filter fun c => c.1 == lane).length < 3) : s.laneJudged p lane = s := if_pos (Or.inl h)

theorem State.laneJudged_third {s : State} {p lane : Nat}
    (h : ¬ ((s.port p).charged.filter fun c => c.1 == lane).length < 3) (hb : (s.lret p).testBit lane = false) :
    s.laneJudged p lane = (s.fset (F.WPL_STATUS_LRET p) (s.lret p + 2 ^ lane)).classify
      { cls := 7, unit := BitVec.ofNat 32 (0x90000000 + p * 256 + lane), sig := BitVec.ofNat 32 lane } :=
  if_neg (by rw [hb]; simp [h])

/-- One charge more. -/
theorem charged_more (cs : List (Nat × BitVec 32)) (lane : Nat) (v : BitVec 32) :
    ((cs ++ [(lane, v)]).filter fun c => c.1 == lane).length = (cs.filter fun c => c.1 == lane).length + 1 := by
  simp [List.filter_append]

theorem retrainTrigger_few {s : State} {p : Fin 12} {lane : Fin 4} (hl : s.linked p = true)
    (hu : s.laneUsed p lane = true) (ht : (s.port p).training = false) (hw : widthOf (s.lret p) ≠ none)
    (hn : ((s.recentCharges p).filter fun c => c.1 == lane.val).length < 2) :
    Completes (.retrainTrigger p lane) s fun t =>
      (t.port p).training = true ∧ (t.port p).charged = s.recentCharges p ++ [(lane.val, s.svc)] ∧
      t.fget (F.WPL_LANE_RETRAINS p) = min 0xFFFF (s.fget (F.WPL_LANE_RETRAINS p) + 1) ∧
      { t with regs := s.regs, ports := s.ports } = s := by
  refine ⟨_, exec_retrainTrigger hl hu, ?_⟩
  obtain ⟨h1, h2, h3, h4⟩ := State.retrainCharged_spec p lane ht
  rw [State.chargeLane_eq]
  generalize (s.startRetrain p).chargeShown p lane = t at *
  rw [State.laneJudged_few (by rw [h1, charged_more]; omega), if_neg (by rw [h3]; exact fun hh => hw hh.1), h1]
  exact ⟨rfl, rfl, h2, State.frame_of_butPorts h4⟩

/-- A lane's bit, added. -/
theorem lret_added {v : Nat} (hv : v < 16) {lane : Fin 4} (h : v.testBit lane = false) : v + 2 ^ lane.val < 16 := by
  revert v lane
  decide

theorem State.laneJudged_third_spec {s : State} {p : Fin 12} {lane : Fin 4}
    (h : ¬ ((s.port p).charged.filter fun c => c.1 == lane.val).length < 3) (hb : (s.lret p).testBit lane = false) :
    (s.laneJudged p lane).lret p = s.lret p + 2 ^ lane.val ∧ (s.laneJudged p lane).port p = s.port p ∧
      (s.laneJudged p lane).memKey = s.memKey := by
  rw [State.laneJudged_third h hb]
  have hf : (s.fset (F.WPL_STATUS_LRET p) (s.lret p + 2 ^ lane.val)).lret p = s.lret p + 2 ^ lane.val := by
    rw [State.lret, State.fset_fget _ _ _ rfl]
    exact Nat.mod_eq_of_lt (lret_added (s.fget_lt _) hb)
  have hp : (s.fset (F.WPL_STATUS_LRET p) (s.lret p + 2 ^ lane.val)).port p = s.port p :=
    State.port_of_butRegs (State.fset_butRegs _ _ _) p
  have hm : (s.fset (F.WPL_STATUS_LRET p) (s.lret p + 2 ^ lane.val)).memKey = s.memKey := s.fset_memKey' _ _
  generalize s.fset (F.WPL_STATUS_LRET p) (s.lret p + 2 ^ lane.val) = t at *
  generalize ({
    cls := 7
    unit := BitVec.ofNat 32 (0x90000000 + p.val * 256 + lane.val)
    sig := BitVec.ofNat 32 lane.val
  } : FRec) = r
  have hc := t.classify_calmRegs r
  have hbr := t.classify_butRecords r
  refine ⟨(State.fget_of_calmRegs hc (wplStatus_calm p)).trans hf, ?_, (State.memKey_of_butRecords hbr).trans hm⟩
  have hports : (t.classify r).ports = t.ports := (congrArg State.ports hbr :)
  exact (State.port_of_ports hports p).trans hp

theorem retrainTrigger_third {s : State} {p : Fin 12} {lane : Fin 4} (hl : s.linked p = true)
    (hu : s.laneUsed p lane = true) (ht : (s.port p).training = false)
    (hn : 2 ≤ ((s.recentCharges p).filter fun c => c.1 == lane.val).length) (hb : (s.lret p).testBit lane = false) :
    Completes (.retrainTrigger p lane) s fun t =>
      t.lret p = s.lret p + 2 ^ lane.val ∧
      (widthOf (t.lret p) = none → (s.port p).clrLanes = false → t.fget (F.WPL_STATUS_STATE p) = 6) ∧
      ∀ a, t.byte a = s.byte a := by
  refine ⟨_, exec_retrainTrigger hl hu, ?_⟩
  obtain ⟨h1, -, h3, h4⟩ := State.retrainCharged_spec p lane ht
  rw [State.chargeLane_eq]
  generalize (s.startRetrain p).chargeShown p lane = t at *
  obtain ⟨j1, j2, j3⟩ := State.laneJudged_third_spec (s := t) (p := p) (lane := lane)
    (by rw [h1, charged_more]; omega) (by rwa [h3])
  rw [h3] at j1
  have hm : (t.laneJudged p lane).memKey = s.memKey := j3.trans (State.memKey_of_butWires (State.butWires_of_butPorts
    h4))
  generalize t.laneJudged p lane = u at *
  have hclr : (u.port p).clrLanes = (s.port p).clrLanes := by rw [j2, h1]
  split
  next hc =>
    obtain ⟨d1, d2, -⟩ := u.portDown_spec p (st := 6) (by decide)
    exact ⟨d2.trans j1, fun _ _ => d1, State.byte_of_memKey ((State.memKey_of_butLinks (u.portDown_butLinks p
      6)).trans hm)⟩
  next hc =>
    exact ⟨j1, fun hw hcl => absurd ⟨hw, hclr.trans hcl⟩ hc, State.byte_of_memKey hm⟩

/-- RETRAIN by Armature (R235). -/
theorem exec_retrain {s : State} {p : Fin 12} (hl : s.linked p = true) :
    exec (.retrain .armature p) s = .next (s.startRetrain p) := by
  have h6 : ¬ (s.fget (F.WPL_STATUS_STATE p) = 6 ∧ (s.port p).clrLanes = true) := fun h => by
    have := ((s.linked_iff p).mp hl).2
    omega
  exact congrArg Host.Outcome.next ((State.acting_armature _ _ _ _).trans ((if_neg h6).trans (if_pos hl)))

theorem retrain_completes {s : State} {p : Fin 12} (hl : s.linked p = true) (ht : (s.port p).training = false) :
    Completes (.retrain .armature p) s fun t =>
      (t.port p).training = true ∧
      t.fget (F.WPL_LANE_RETRAINS p) = min 0xFFFF (s.fget (F.WPL_LANE_RETRAINS p) + 1) ∧
      { t with regs := s.regs, ports := s.ports } = s := by
  obtain ⟨h1, h2, h3, -⟩ := State.startRetrain_spec ht
  exact ⟨_, exec_retrain hl, by rw [h1], h2, State.frame_of_butPorts h3⟩

theorem laneClr_completes (s : State) (p : Fin 12) : Completes (.laneClr .armature p) s fun t =>
    (t.port p).clrLanes = true ∧ { t with ports := s.ports } = s :=
  ⟨_, congrArg Host.Outcome.next (State.acting_armature _ _ _ _), by rw [State.ctrlLaneClr, State.modPort_port_self],
    rfl⟩

/-! ## Replays without an acknowledgement (R235) -/

/-- One replay more. -/
def State.replayCounted (s : State) (p : Nat) : State :=
  (s.modPort p fun x => { x with stuck := x.stuck + 1 }).fsat (F.WPL_ERR_REPLAY p) 1

theorem State.replayCounted_spec (s : State) (p : Nat) :
    (s.replayCounted p).port p = { s.port p with stuck := (s.port p).stuck + 1 } ∧
      (s.replayCounted p).fget (F.WPL_ERR_REPLAY p) = min 0xFFFF (s.fget (F.WPL_ERR_REPLAY p) + 1) ∧
      (s.replayCounted p).butPorts = s.butPorts := by
  have hr (k : Nat) := s.modPort_reg p (fun x => { x with stuck := x.stuck + 1 }) k
  unfold State.replayCounted
  refine ⟨?_, ?_, ?_⟩
  · rw [State.port_of_butRegs (State.fsat_butRegs _ _ _), State.modPort_port_self]
  · rw [State.fsat_fget _ _ _ rfl, State.fget_of_reg (hr _)]
    rfl
  · exact (State.butPorts_of_butRegs (State.fsat_butRegs _ _ _)).trans (s.butPorts_modPort _ _)

theorem State.replayed_eq (s : State) (p : Nat) : s.replayed p =
    if 8 ≤ ((s.replayCounted p).port p).stuck then (s.replayCounted p).startRetrain p else s.replayCounted p := rfl

theorem replayTimeout_completes {s : State} {p : Fin 12} (hr : (s.port p).retry ≠ []) (hl : s.linked p = true)
    (ht : (s.port p).training = false) : Completes (.replayTimeout p) s fun t =>
      (t.port p).stuck = (s.port p).stuck + 1 ∧ (t.port p).training = decide (7 ≤ (s.port p).stuck) ∧
      t.fget (F.WPL_ERR_REPLAY p) = min 0xFFFF (s.fget (F.WPL_ERR_REPLAY p) + 1) ∧
      { t with regs := s.regs, ports := s.ports } = s := by
  refine ⟨_, congrArg Host.Outcome.next (if_neg (by rw [hl, ht]; simp [hr])), ?_⟩
  obtain ⟨h1, h2, h3⟩ := s.replayCounted_spec p
  rw [State.replayed_eq]
  generalize s.replayCounted p = t at *
  obtain ⟨-, -, -, -, herr, -, -⟩ := wplLane_ne p
  split
  next h =>
    rw [h1] at h
    obtain ⟨r1, -, r3, r4⟩ := State.startRetrain_spec (s := t) (p := p) (by rw [h1, ht])
    rw [r1, h1]
    exact ⟨rfl, (decide_eq_true (by simpa using h)).symm, (State.fget_of_reg (r4 _ herr)).trans h2,
      State.frame_of_butPorts (r3.trans h3)⟩
  next h =>
    rw [h1] at h ⊢
    exact ⟨rfl, ht.trans (decide_eq_false (by simpa using h)).symm, h2, State.frame_of_butPorts h3⟩

/-! ## A port that is DOWN, and its module (R229, R352) -/

theorem exec_downRetry {s : State} {p : Fin 12} (h0 : s.fget (F.WPL_STATUS_STATE p) = 0)
    (he : s.flag (F.WPL_CFG_EN p) = true) (h6 : 6 ≤ s.fget F.PLN_BOOT_STEP) : exec (.downRetry p) s =
      .next (if (s.port p).modFault then
        (if s.draw.1.getLsbD 0 then s.draw.2
          else (s.draw.2.modPort p fun x => { x with modFault := false }).beginTraining p)
        else s.beginTraining p) :=
  congrArg Host.Outcome.next (if_pos ⟨h0, he, h6⟩)

theorem downRetry_free {s : State} {p : Fin 12} (h0 : s.fget (F.WPL_STATUS_STATE p) = 0)
    (he : s.flag (F.WPL_CFG_EN p) = true) (h6 : 6 ≤ s.fget F.PLN_BOOT_STEP) (hm : (s.port p).modFault = false) :
    Completes (.downRetry p) s fun t =>
      t.fget (F.WPL_STATUS_STATE p) = 1 ∧ (t.port p).enc = s.flag (F.WPL_CFG_ENC p) ∧
      { t with regs := s.regs, ports := s.ports } = s := by
  refine ⟨_, (exec_downRetry h0 he h6).trans (congrArg Host.Outcome.next (if_neg (by rw [hm]; decide))), ?_⟩
  obtain ⟨h1, h2⟩ := s.beginTraining_spec p
  exact ⟨h1, by rw [h2], State.frame_of_butPorts (s.beginTraining_butPorts p)⟩

theorem State.draw_frame (s : State) : (∀ k, s.draw.2.reg k = s.reg k) ∧ (∀ p, s.draw.2.port p = s.port p) ∧
    { s.draw.2 with regs := s.regs, ports := s.ports, free := s.free } = s := ⟨fun _ => rfl, fun _ => rfl, rfl⟩

theorem State.frame_free {s t u : State} (hu : u.butPorts = t.butPorts)
    (ht : { t with regs := s.regs, ports := s.ports, free := s.free } = s) :
    { u with regs := s.regs, ports := s.ports, free := s.free } = s :=
  (congrArg (fun v : State => { v with regs := s.regs, ports := s.ports, free := s.free }) hu :).trans ht

theorem downRetry_faulted {s : State} {p : Fin 12} (h0 : s.fget (F.WPL_STATUS_STATE p) = 0)
    (he : s.flag (F.WPL_CFG_EN p) = true) (h6 : 6 ≤ s.fget F.PLN_BOOT_STEP) (hm : (s.port p).modFault = true) :
    Completes (.downRetry p) s fun t =>
      (t.fget (F.WPL_STATUS_STATE p) = 1 ∧ (t.port p).modFault = false ∨
        t.fget (F.WPL_STATUS_STATE p) = 0 ∧ (t.port p).modFault = true) ∧
      { t with regs := s.regs, ports := s.ports, free := s.free } = s := by
  refine ⟨_, (exec_downRetry h0 he h6).trans (congrArg Host.Outcome.next (if_pos hm)), ?_⟩
  obtain ⟨dr, dp, df⟩ := s.draw_frame
  generalize s.draw.2 = u at *
  split
  · exact ⟨Or.inr ⟨(State.fget_of_reg (dr _)).trans h0, by rw [dp, hm]⟩, df⟩
  · have hv : (u.modPort p fun x => { x with modFault := false }).port p = { u.port p with modFault := false } :=
      u.modPort_port_self p _
    have hb : (u.modPort p fun x => { x with modFault := false }).butPorts = u.butPorts := u.butPorts_modPort _ _
    generalize (u.modPort p fun x => { x with modFault := false }) = v at *
    obtain ⟨h1, h2⟩ := v.beginTraining_spec p
    exact ⟨Or.inl ⟨h1, by rw [h2, hv]; rfl⟩, State.frame_free ((v.beginTraining_butPorts p).trans hb) df⟩

theorem exec_moduleFault {s : State} {p : Fin 12} (h7 : 7 ≤ p.val) (h6 : s.fget (F.WPL_STATUS_STATE p) ≠ 6) :
    exec (.moduleFault p) s = .next ((s.modPort p fun x => { x with modFault := true }).portDown p 0) :=
  congrArg Host.Outcome.next ((if_neg (by omega)).trans (if_neg h6))

theorem Port.modFault_of_core {x y : Port} (h : x.core = y.core) : x.modFault = y.modFault := (congrArg Port.modFault
  h :)

/-- A port's fall keeps what is said of its module. -/
theorem State.portDown_modFault (s : State) (p st : Nat) : ((s.portDown p st).port p).modFault = (s.port p).modFault
  := by
  rw [State.portDown_eq, State.port_of_butRegs (State.setPortState_butRegs _ _ _), State.modPort_port_self]
  have h (t : State) : ((t.setReg (Reg.WPL_STATUS p) 0).fset (F.WPL_STATUS_LRET p) (t.lret p)).port p = t.port p :=
    State.port_of_butRegs ((State.fset_butRegs _ _ _).trans (State.setReg_butRegs _ _ _)) p
  rw [h]
  have hfresh (x : Port) : x.fresh.modFault = x.modFault := rfl
  exact (hfresh _).trans (Port.modFault_of_core (s.leaveActive_core p st p))

theorem moduleFault_completes {s : State} {p : Fin 12} (h7 : 7 ≤ p.val) (h6 : s.fget (F.WPL_STATUS_STATE p) ≠ 6) :
    Completes (.moduleFault p) s fun t =>
      t.fget (F.WPL_STATUS_STATE p) = 0 ∧ (t.port p).modFault = true ∧ t.lret p = s.lret p ∧
      ∀ a, t.byte a = s.byte a := by
  refine ⟨_, exec_moduleFault h7 h6, ?_⟩
  have hr : (s.modPort p fun x => { x with modFault := true }).lret p = s.lret p := State.fget_of_reg (s.modPort_reg
    _ _ _)
  have hp : ((s.modPort p fun x => { x with modFault := true }).port p).modFault = true := by rw
    [State.modPort_port_self]
  have hm : (s.modPort p fun x => { x with modFault := true }).memKey = s.memKey := s.modPort_memKey _ _
  generalize (s.modPort p fun x => { x with modFault := true }) = t at *
  obtain ⟨d1, d2, -⟩ := t.portDown_spec p (st := 0) (by decide)
  exact ⟨d1, (t.portDown_modFault p 0).trans hp, d2.trans hr,
    State.byte_of_memKey ((State.memKey_of_butLinks (t.portDown_butLinks p 0)).trans hm)⟩

/-! ## Training ends (R228, R229) -/

/-- The lanes in use, shown: no order to clear them stands, and a width is left. -/
theorem State.settleLanes_eq {s : State} {p w pr : Nat} (hc : (s.port p).clrLanes = false)
    (hw : widthOf (s.lret p) = some (w, pr)) :
    s.settleLanes p = (s.fset (F.WPL_STATUS_WIDTH p) w).fset (F.WPL_STATUS_PAIR p) pr := by
  unfold State.settleLanes
  rw [if_neg (by rw [hc]; decide)]
  dsimp only
  rw [hw]

theorem widthOf_lt {l w pr : Nat} (h : widthOf l = some (w, pr)) : w < 4 ∧ pr < 2 := by
  unfold widthOf at h
  split at h
  · cases h
    decide
  split at h
  · cases h
    decide
  split at h
  · cases h
    decide
  · cases h

theorem State.settleLanes_spec {s : State} {p w pr : Nat} (hc : (s.port p).clrLanes = false)
    (hw : widthOf (s.lret p) = some (w, pr)) :
    (s.settleLanes p).fget (F.WPL_STATUS_WIDTH p) = w ∧ (s.settleLanes p).fget (F.WPL_STATUS_PAIR p) = pr ∧
      (s.settleLanes p).butRegs = s.butRegs ∧
      (∀ f : Fld, (F.WPL_STATUS_WIDTH p).apart f = true → (F.WPL_STATUS_PAIR p).apart f = true →
        (s.settleLanes p).fget f = s.fget f) := by
  obtain ⟨h4, h2⟩ := widthOf_lt hw
  rw [State.settleLanes_eq hc hw]
  refine ⟨?_, ?_, (State.fset_butRegs _ _ _).trans (State.fset_butRegs _ _ _), fun f h1 h2 => ?_⟩
  · rw [State.fset_fget_apart _ _ _ _ rfl, State.fset_fget _ _ _ rfl]
    exact Nat.mod_eq_of_lt h4
  · rw [State.fset_fget _ _ _ rfl]
    exact Nat.mod_eq_of_lt h2
  · rw [State.fset_fget_apart _ _ _ _ h2, State.fset_fget_apart _ _ _ _ h1]

/-- A hello to the peer: a message of the port. -/
theorem State.sendHello_butLines (s : State) (p : Nat) : (s.sendHello p).butLines = s.butLines := by
  unfold State.sendHello
  split
  · rfl
  · exact (State.post_butLines _ _ _).trans (s.modPort_butLines _ _)

/-- DISCOVERY begins, up to the hello. -/
def State.discovering (s : State) (p : Nat) (heard : Bool) : State :=
  (((s.leaveActive p 2).fset (F.WPL_STATUS_CAUSE p) 0).modPort p fun x =>
    { x with entered := s.now, heard := heard, swap := none, afresh := false }).fset (F.WPL_STATUS_ROLE p) p

theorem State.enterDiscovery_eq (s : State) (p : Nat) (heard : Bool) :
    s.enterDiscovery p heard = (s.discovering p heard).sendHello p := rfl

theorem State.discovering_spec (s : State) (p : Fin 12) (heard : Bool) :
    (s.discovering p heard).fget (F.WPL_STATUS_STATE p) = 2 ∧
      (∀ f : Fld, f.key ≠ Reg.WPL_DISC_STATUS → (F.WPL_STATUS_STATE p).apart f = true →
        (F.WPL_STATUS_CAUSE p).apart f = true → (F.WPL_STATUS_ROLE p).apart f = true →
        (s.discovering p heard).fget f = s.fget f) ∧
      (s.discovering p heard).butPorts = (s.leaveActive p 2).butPorts := by
  obtain ⟨h1, h2⟩ := s.leaveActive_spec p (st := 2) (by decide)
  unfold State.discovering
  generalize s.leaveActive p 2 = t at *
  refine ⟨?_, fun f hf ha hc hr => ?_, ?_⟩
  · rw [State.fset_fget_apart _ _ _ _ rfl, State.fget_of_reg (State.modPort_reg _ _ _ _),
      State.fset_fget_apart _ _ _ _ rfl, h1]
  · rw [State.fset_fget_apart _ _ _ _ hr, State.fget_of_reg (State.modPort_reg _ _ _ _),
      State.fset_fget_apart _ _ _ _ hc, h2 f hf ha]
  · exact (State.butPorts_of_butRegs (State.fset_butRegs _ _ _)).trans ((State.butPorts_modPort _ _ _).trans
      (State.butPorts_of_butRegs (State.fset_butRegs _ _ _)))

/-- A port trained with lanes settled in `s'`, from `s`. -/
def State.trainJudged (s s' : State) (p : Nat) (gen width : BitVec 2) (pair : Bool) : State :=
  let g := if (s'.port p).peerGen ≥ 2 ∧ s'.genMax p ≥ 2 then 2 else 1
  if s'.fget (F.WPL_STATUS_STATE p) ≠ 1 then s'
  else if gen.toNat = g ∧ width.toNat = s'.fget (F.WPL_STATUS_WIDTH p) ∧ pair = s'.flag (F.WPL_STATUS_PAIR p) then
    ((s'.fset (F.WPL_STATUS_GEN p) g).enterDiscovery p false).post p (.management (s'.genMax p))
  else s

theorem exec_portTrainingDone {s : State} {p : Fin 12} (h : s.fget (F.WPL_STATUS_STATE p) = 1) (gen width : BitVec 2)
    (pair : Bool) : exec (.portTrainingDone p gen width pair) s =
      .next (s.trainJudged (s.settleLanes p) p gen width pair) :=
  congrArg Host.Outcome.next (if_neg (not_not.mpr h))

theorem State.trainJudged_eq {s t : State} {p : Nat} {gen width : BitVec 2} {pair : Bool}
    (h1 : t.fget (F.WPL_STATUS_STATE p) = 1)
    (hg : gen.toNat = if (t.port p).peerGen ≥ 2 ∧ t.genMax p ≥ 2 then 2 else 1)
    (hw : width.toNat = t.fget (F.WPL_STATUS_WIDTH p)) (hp : pair = t.flag (F.WPL_STATUS_PAIR p)) :
    s.trainJudged t p gen width pair =
      ((t.fset (F.WPL_STATUS_GEN p) gen.toNat).enterDiscovery p false).post p (.management (t.genMax p)) := by
  unfold State.trainJudged
  rw [if_neg (not_not.mpr h1), if_pos ⟨hg, hw, hp⟩, hg]

theorem portTrainingDone_completes {s : State} {p : Fin 12} {gen : BitVec 2} (h1 : s.fget (F.WPL_STATUS_STATE p) = 1)
    (h0 : s.lret p = 0) (hc : (s.port p).clrLanes = false)
    (hg : gen.toNat = if 2 ≤ (s.port p).peerGen ∧ 2 ≤ s.genMax p then 2 else 1) :
    Completes (.portTrainingDone p gen 2 false) s fun t =>
      t.fget (F.WPL_STATUS_STATE p) = 2 ∧ t.fget (F.WPL_STATUS_GEN p) = gen.toNat ∧
      t.fget (F.WPL_STATUS_WIDTH p) = 2 ∧ { t with regs := s.regs, ports := s.ports, sent := s.sent } = s := by
  refine ⟨_, exec_portTrainingDone h1 gen 2 false, ?_⟩
  obtain ⟨w1, w2, w3, w4⟩ := State.settleLanes_spec (s := s) (p := p) (w := 2) (pr := 0) hc (by rw [h0]; rfl)
  have hport := State.port_of_butRegs w3 p
  have hst := (w4 _ rfl rfl).trans h1
  have hcfg : (F.WPL_STATUS_WIDTH p).apart (F.WPL_CFG_GEN_MAX p) = true :=
    Fld.apart_of_key (wplLane_ne p).2.2.1.symm
  have hcfg' : (F.WPL_STATUS_PAIR p).apart (F.WPL_CFG_GEN_MAX p) = true := Fld.apart_of_key (wplLane_ne p).2.2.1.symm
  have hgm : (s.settleLanes p).genMax p = s.genMax p := by rw [State.genMax, w4 _ hcfg hcfg', State.genMax]
  have hjudged := State.trainJudged_eq (s := s) (width := 2) (pair := false) hst (by rw [hport, hgm]; exact hg)
    ((rfl : (2 : BitVec 2).toNat = 2).trans w1.symm) (by rw [State.flag, w2]; rfl)
  rw [hjudged]
  generalize s.settleLanes p = t at *
  have hgen : (t.fset (F.WPL_STATUS_GEN p) gen.toNat).fget (F.WPL_STATUS_GEN p) = gen.toNat := by
    rw [State.fset_fget _ _ _ rfl]
    exact Nat.mod_eq_of_lt gen.isLt
  have hwid : (t.fset (F.WPL_STATUS_GEN p) gen.toNat).fget (F.WPL_STATUS_WIDTH p) = 2 :=
    (State.fset_fget_apart _ _ _ _ rfl).trans w1
  have hst' : (t.fset (F.WPL_STATUS_GEN p) gen.toNat).fget (F.WPL_STATUS_STATE p) = 1 :=
    (State.fset_fget_apart _ _ _ _ rfl).trans hst
  have hb : (t.fset (F.WPL_STATUS_GEN p) gen.toNat).butRegs = s.butRegs := (State.fset_butRegs _ _ _).trans w3
  generalize t.fset (F.WPL_STATUS_GEN p) gen.toNat = u at *
  obtain ⟨d1, d2, d3⟩ := u.discovering_spec p false
  rw [State.leaveActive_idle (by omega)] at d3
  have hlines : ((u.enterDiscovery p false).post p (.management (t.genMax p))).butLines = (u.discovering p
    false).butLines := by
    rw [State.post_butLines, State.enterDiscovery_eq, State.sendHello_butLines]
  generalize (u.enterDiscovery p false).post p (.management (t.genMax p)) = z at *
  generalize u.discovering p false = v at *
  have hreg (f : Fld) : z.fget f = v.fget f := State.fget_of_reg (State.reg_of_butLines hlines _)
  refine ⟨(hreg _).trans d1, (hreg _).trans ((d2 _ (wplStatus_disc p) rfl rfl rfl).trans hgen),
    (hreg _).trans ((d2 _ (wplStatus_disc p) rfl rfl rfl).trans hwid), State.frame_of_butWires ?_⟩
  exact (State.butWires_of_butLines hlines).trans ((State.butWires_of_butPorts d3).trans (State.butWires_of_butRegs
    ((State.setPortState_butRegs _ _ _).trans hb)))

/-! ## The peer's management message (R228) -/

/-- The peer's generation, noted. -/
def State.peerNoted (s : State) (p g : Nat) : State := (s.takeFlits p 6 1).modPort p fun x => { x with peerGen := g }

theorem State.peerNoted_spec (s : State) (p g : Nat) : (s.peerNoted p g).butLines = s.butLines ∧
    ((s.peerNoted p g).port p).peerGen = g :=
  ⟨(State.modPort_butLines _ _ _).trans (s.takeFlits_butLines _ _ _), by rw [State.peerNoted, State.modPort_port_self]⟩

theorem exec_linkManagement {s : State} {p : Fin 12} (hl : s.linked p = true) (g : BitVec 2) :
    exec (.linkManagement p g) s = .next (if (s.peerNoted p g.toNat).fget (F.WPL_STATUS_GEN p) = 1 ∧ 2 ≤ g.toNat ∧
        (s.peerNoted p g.toNat).genMax p = 2 then
      (((s.peerNoted p g.toNat).leaveActive p 1).beginTraining p).modPort p fun x => { x with peerGen := g.toNat }
      else s.peerNoted p g.toNat) :=
  congrArg Host.Outcome.next (if_neg (by rw [hl]; decide))

theorem linkManagement_completes {s : State} {p : Fin 12} (hl : s.linked p = true) (g : BitVec 2) :
    Completes (.linkManagement p g) s fun t =>
      (t.port p).peerGen = g.toNat ∧ (∀ a, t.byte a = s.byte a) ∧
      t.fget (F.WPL_STATUS_STATE p) =
        if s.fget (F.WPL_STATUS_GEN p) = 1 ∧ 2 ≤ g.toNat ∧ s.genMax p = 2 then 1 else s.fget (F.WPL_STATUS_STATE p)
          := by
  refine ⟨_, exec_linkManagement hl g, ?_⟩
  obtain ⟨h1, h2⟩ := s.peerNoted_spec p g.toNat
  generalize s.peerNoted p g.toNat = t at *
  have hreg (f : Fld) : t.fget f = s.fget f := State.fget_of_reg (State.reg_of_butLines h1 _)
  have hm : t.memKey = s.memKey := State.memKey_of_butWires (State.butWires_of_butLines h1)
  have hgm : t.genMax p = s.genMax p := by rw [State.genMax, hreg, State.genMax]
  rw [hreg, hgm]
  split
  next h =>
    have hlm : (t.leaveActive p 1).memKey = t.memKey := t.leaveActive_memKey p 1
    generalize t.leaveActive p 1 = u at *
    obtain ⟨b1, -⟩ := u.beginTraining_spec p
    have hbm : (u.beginTraining p).memKey = u.memKey :=
      State.memKey_of_butWires (State.butWires_of_butPorts (u.beginTraining_butPorts p))
    generalize u.beginTraining p = v at *
    refine ⟨by rw [State.modPort_port_self], State.byte_of_memKey ((v.modPort_memKey _ _).trans (hbm.trans (hlm.trans
      hm))), ?_⟩
    exact (State.fget_of_reg (v.modPort_reg _ _ _)).trans b1
  next h => exact ⟨h2, State.byte_of_memKey hm, hreg _⟩

/-! ## A retrain ends (R235) -/

theorem retrainDone_again {s : State} {p : Fin 12} (ht : (s.port p).training = true) (hf : (s.port p).fails < 2) :
    Completes (.retrainDone p false) s fun t =>
      (t.port p).fails = (s.port p).fails + 1 ∧ { t with ports := s.ports } = s :=
  ⟨_, congrArg Host.Outcome.next ((if_neg (by rw [ht]; decide)).trans ((if_neg (by decide)).trans (if_neg (by omega)))),
    by rw [State.modPort_port_self], rfl⟩

theorem retrainDone_down {s : State} {p : Fin 12} (ht : (s.port p).training = true) (hf : 2 ≤ (s.port p).fails) :
    Completes (.retrainDone p false) s fun t =>
      t.fget (F.WPL_STATUS_STATE p) = 0 ∧ t.lret p = s.lret p ∧ ∀ a, t.byte a = s.byte a := by
  obtain ⟨d1, d2, -⟩ := s.portDown_spec p (st := 0) (by decide)
  exact ⟨_, congrArg Host.Outcome.next ((if_neg (by rw [ht]; decide)).trans ((if_neg (by decide)).trans (if_pos hf))),
    d1, d2, State.byte_of_memKey (State.memKey_of_butLinks (s.portDown_butLinks p 0))⟩

/-- What a retrain that succeeded leaves of its port. -/
def Port.retrained (on : Bool) (x : Port) : Port :=
  { x with training := false, fails := 0, stuck := 0, enc := on, keyed := x.keyed && on }

/-- A retrain that has ended: the port is as its retrain left it. -/
def State.retrained (s : State) (p : Nat) : State :=
  (s.modPort p (Port.retrained (s.flag (F.WPL_CFG_ENC p)))).setFlag (F.WPL_STATUS_ENC p)
    (s.flag (F.WPL_CFG_ENC p) && ((s.modPort p (Port.retrained (s.flag (F.WPL_CFG_ENC p)))).port p).keyed)

theorem State.retrained_spec (s : State) (p : Nat) : ((s.retrained p).port p).training = false ∧
    ((s.retrained p).port p).fails = 0 ∧ ((s.retrained p).port p).clrLanes = (s.port p).clrLanes ∧
    (s.retrained p).lret p = s.lret p ∧ (s.retrained p).butPorts = s.butPorts := by
  have hp := s.modPort_port_self p (Port.retrained (s.flag (F.WPL_CFG_ENC p)))
  have hr : (s.modPort p (Port.retrained (s.flag (F.WPL_CFG_ENC p)))).lret p = s.lret p :=
    State.fget_of_reg (s.modPort_reg _ _ _)
  have hb := s.butPorts_modPort p (Port.retrained (s.flag (F.WPL_CFG_ENC p)))
  unfold State.retrained
  generalize s.modPort p (Port.retrained (s.flag (F.WPL_CFG_ENC p))) = t at *
  rw [State.port_of_butRegs (State.setFlag_butRegs _ _ _), hp]
  exact ⟨rfl, rfl, rfl, (State.setFlag_fget_apart _ _ _ _ rfl).trans hr,
    (State.butPorts_of_butRegs (State.setFlag_butRegs _ _ _)).trans hb⟩

/-- The key exchange of a port that turned encryption on starts; what waited is sent. -/
def State.resumed (s : State) (p : Nat) (turned : Bool) : State :=
  (if turned && s.active p then s.startKey p else s).pump p

theorem State.resumed_butLines (s : State) (p : Nat) (turned : Bool) : (s.resumed p turned).butLines = s.butLines := by
  refine (State.pump_butLines _ _).trans ?_
  split
  · exact (State.post_butLines _ _ _).trans (s.post_butLines _ _)
  · rfl

theorem State.resumed_core (s : State) (p : Nat) (turned : Bool) (q : Nat) :
    ((s.resumed p turned).port q).core = (s.port q).core := by
  refine (State.pump_core _ _ q).trans ?_
  split
  · exact (State.post_core _ _ _ q).trans (s.post_core _ _ q)
  · rfl

theorem exec_retrainDone {s : State} {p : Fin 12} (ht : (s.port p).training = true) :
    exec (.retrainDone p true) s =
      .next (((s.retrained p).settleLanes p).resumed p (s.flag (F.WPL_CFG_ENC p) && !(s.port p).enc)) :=
  congrArg Host.Outcome.next ((if_neg (by rw [ht]; decide)).trans (if_pos rfl))

theorem retrainDone_completes {s : State} {p : Fin 12} {w pr : Nat} (ht : (s.port p).training = true)
    (hc : (s.port p).clrLanes = false) (hw : widthOf (s.lret p) = some (w, pr)) :
    Completes (.retrainDone p true) s fun t =>
      (t.port p).training = false ∧ (t.port p).fails = 0 ∧ t.fget (F.WPL_STATUS_WIDTH p) = w ∧
      t.fget (F.WPL_STATUS_PAIR p) = pr ∧ { t with regs := s.regs, ports := s.ports, sent := s.sent } = s := by
  refine ⟨_, exec_retrainDone ht, ?_⟩
  generalize (s.flag (F.WPL_CFG_ENC p) && !(s.port p).enc) = turned
  obtain ⟨r1, r2, r3, r4, r5⟩ := s.retrained_spec p
  generalize s.retrained p = t at *
  obtain ⟨w1, w2, w3, -⟩ := State.settleLanes_spec (s := t) (p := p) (r3.trans hc) (by rw [r4]; exact hw)
  have hp := State.port_of_butRegs w3 p
  generalize t.settleLanes p = u at *
  have hcore := u.resumed_core p turned p
  have hl := u.resumed_butLines p turned
  generalize u.resumed p turned = v at *
  have hreg (f : Fld) : v.fget f = u.fget f := State.fget_of_reg (State.reg_of_butLines hl _)
  refine ⟨(congrArg Port.training hcore : _).trans ((congrArg Port.training hp).trans r1),
    (congrArg Port.fails hcore : _).trans ((congrArg Port.fails hp).trans r2), (hreg _).trans w1, (hreg _).trans w2,
    State.frame_of_butWires ?_⟩
  exact (State.butWires_of_butLines hl).trans ((State.butWires_of_butRegs w3).trans (State.butWires_of_butPorts r5))

/-- Settles O38, command by command. -/
theorem portsTrain : Obligations.PortsTrain := fun s p =>
  ⟨fun _ h1 h0 hc hg => portTrainingDone_completes h1 h0 hc hg,
   fun g hl => linkManagement_completes hl g,
   fun _ hl hu ht hw => ⟨retrainTrigger_few hl hu ht hw, retrainTrigger_third hl hu ht⟩,
   fun ht => ⟨fun _ _ hc hw => retrainDone_completes ht hc hw, retrainDone_again ht, retrainDone_down ht⟩,
   fun h0 he hb => ⟨downRetry_free h0 he hb, downRetry_faulted h0 he hb⟩,
   moduleFault_completes,
   fun hl ht => retrain_completes hl ht,
   laneClr_completes s p,
   replayTimeout_completes⟩

end Sys2Proof.Machine
end

section
/-! SUPPORT. Hellos, quarantines and keys of a port (R240, R242, R243, R245, R365). -/
namespace Sys2Proof.Machine

/-! ## A quarantine -/

theorem State.quarantine_spec (s : State) (p : Fin 12) {c : Nat} (hc : c < 16) :
    (s.quarantine p c).fget (F.WPL_STATUS_STATE p) = 5 ∧ (s.quarantine p c).fget (F.WPL_STATUS_CAUSE p) = c ∧
      ((s.quarantine p c).port p).swap = (s.port p).swap := by
  obtain ⟨h1, -⟩ := s.leaveActive_spec p (st := 5) (by decide)
  have hswap : ((s.leaveActive p 5).port p).swap = (s.port p).swap := (congrArg Port.swap (s.leaveActive_core p 5 p) :)
  unfold State.quarantine
  generalize s.leaveActive p 5 = t at *
  dsimp only
  have h2 : ((t.fset (F.WPL_STATUS_CAUSE p) c).modPort p fun x => { x with afresh := false }).fget
      (F.WPL_STATUS_STATE p) = 5 := by
    rw [State.fget_of_reg (State.modPort_reg _ _ _ _), State.fset_fget_apart _ _ _ _ rfl, h1]
  have h3 : ((t.fset (F.WPL_STATUS_CAUSE p) c).modPort p fun x => { x with afresh := false }).fget
      (F.WPL_STATUS_CAUSE p) = c := by
    rw [State.fget_of_reg (State.modPort_reg _ _ _ _), State.fset_fget _ _ _ rfl]
    exact Nat.mod_eq_of_lt hc
  have h4 : (((t.fset (F.WPL_STATUS_CAUSE p) c).modPort p fun x => { x with afresh := false }).port p).swap =
      (s.port p).swap := by
    rw [State.modPort_port_self]
    exact (congrArg Port.swap (State.port_of_butRegs (State.fset_butRegs _ _ _) p)).trans hswap
  generalize ((t.fset (F.WPL_STATUS_CAUSE p) c).modPort p fun x => { x with afresh := false }) = u at *
  split
  next =>
    have hcalm (f : Fld) (hf : f.key = Reg.WPL_STATUS p) :
        ((u.setFlag F.WPL_DISC_STATUS_STRAP_CONFLICT true).discovery p 5).fget f = u.fget f := by
      refine (State.fget_of_calmRegs (State.event_calmRegs _ _ _ _ _ _) (hf ▸ wplStatus_calm p)).trans ?_
      exact State.setFlag_fget_apart _ _ _ _ (Fld.apart_of_key (by rw [hf]; exact (wplStatus_disc p).symm))
    refine ⟨(hcalm _ rfl).trans h2, (hcalm _ rfl).trans h3, ?_⟩
    have hports : ((u.setFlag F.WPL_DISC_STATUS_STRAP_CONFLICT true).discovery p 5).ports =
        (u.setFlag F.WPL_DISC_STATUS_STRAP_CONFLICT true).ports :=
      (congrArg State.ports (State.event_butRecords _ _ _ _ _ _) :)
    exact (congrArg Port.swap (State.port_of_ports (hports.trans (State.ports_of_butRegs
      (State.setFlag_butRegs _ _ _))) p)).trans h4
  next => exact ⟨h2, h3, h4⟩

/-- A quarantine with a cause, after what leaves memory as it is. -/
theorem State.quarantine_shows {s t : State} (p : Fin 12) {c : Nat} (hc : c < 16) (hm : t.memKey = s.memKey) :
    (t.quarantine p c).fget (F.WPL_STATUS_STATE p) = 5 ∧ (t.quarantine p c).fget (F.WPL_STATUS_CAUSE p) = c ∧
      ∀ a, (t.quarantine p c).byte a = s.byte a :=
  ⟨(t.quarantine_spec p hc).1, (t.quarantine_spec p hc).2.1,
    State.byte_of_memKey ((State.quarantine_memKey _ _ _).trans hm)⟩

theorem State.unswap_none {s : State} {p : Nat} (h : (s.port p).swap = none) : s.unswap p = s := by
  unfold State.unswap
  rw [h]

/-! ## Messages of a port -/

/-- What is with a port stays with it when more is posted. -/
theorem State.postTo_keeps {s : State} {p : Nat} {d : BitVec 16} {m : Msg} (h : s.withPort p d m) (d' : BitVec 16)
    (m' : Msg) : (s.postTo p d' m').withPort p d m := by
  rcases h with h | h
  · exact Or.inl (State.pumpGo_sent _ _ _ _ _ _ h)
  · refine State.pumpGo_withPort _ _ p [] [] [] (x := (d, m)) (Or.inl ?_)
    rw [State.modPort_port_self]
    exact List.mem_append_left _ h

theorem State.startKey_spec (s : State) (p : Nat) : (s.startKey p).withPort p 0xFFFF (.key 0) ∧
    (s.startKey p).withPort p 0xFFFF (.key 1) ∧ (s.startKey p).butLines = s.butLines ∧
    ∀ q, ((s.startKey p).port q).core = (s.port q).core :=
  ⟨State.postTo_keeps (s.post_withPort p (.key 0)) _ _, State.post_withPort _ _ _,
    (State.post_butLines _ _ _).trans (s.post_butLines _ _),
    fun q => (State.post_core _ _ _ q).trans (s.post_core _ _ q)⟩

theorem rekey_completes {s : State} {p : Fin 12} (ha : s.active p = true) (hk : (s.port p).keyed = true) :
    Completes (.rekey p) s fun t =>
      (t.port p).keyed = true ∧ (t.port p).keyId = (s.port p).keyId ∧ t.withPort p 0xFFFF (.key 0) ∧
      t.withPort p 0xFFFF (.key 1) ∧ { t with ports := s.ports, sent := s.sent } = s := by
  refine ⟨s.startKey p, congrArg Host.Outcome.next (if_pos ⟨ha, hk⟩), ?_⟩
  obtain ⟨h0, h1, hl, hcore⟩ := s.startKey_spec p
  generalize s.startKey p = t at *
  exact ⟨(congrArg Port.keyed (hcore p) : _).trans hk, (congrArg Port.keyId (hcore p) :), h0, h1,
    State.frame_of_butLines hl⟩

theorem helloTimer_completes {s : State} {p : Fin 12} (h : s.fget (F.WPL_STATUS_STATE p) ≠ 0) :
    Completes (.helloTimer p) s fun t =>
      (t.port p).hseq = ((s.port p).hseq + 1) % 2 ^ 32 ∧ t.withPort p 0xFFFF (.hello (s.ownHello p)) ∧
      { t with ports := s.ports, sent := s.sent } = s := by
  refine ⟨_, congrArg Host.Outcome.next (if_neg h), ?_, State.post_withPort _ _ _, State.frame_of_butLines
    ((State.post_butLines _ _ _).trans (s.modPort_butLines _ _))⟩
  refine (congrArg Port.hseq (State.post_core _ _ _ p) : _).trans ?_
  rw [State.modPort_port_self]
  rfl

/-! ## Quarantines by time and by order (R242, R243, R245, R249) -/

theorem discoverySilent_completes {s : State} {p : Fin 12} (h2 : s.fget (F.WPL_STATUS_STATE p) = 2)
    (hh : (s.port p).heard = false) : Completes (.discoverySilent p) s fun t =>
      t.fget (F.WPL_STATUS_STATE p) = 5 ∧ t.fget (F.WPL_STATUS_CAUSE p) = 9 ∧ ∀ a, t.byte a = s.byte a :=
  ⟨_, congrArg Host.Outcome.next (if_pos ⟨h2, hh⟩), State.quarantine_shows p (by decide) rfl⟩

/-- A peer whose last hello does not echo. -/
def State.oneway (s : State) (p : Nat) : Option Hello → State
  | some h => if s.fget (F.WPL_STATUS_STATE p) = 2 ∧ (s.port p).heard ∧ h.peer ≠ s.serial ∧ (s.port p).swap = none then
      s.quarantine p 8 else s
  | none => s

theorem exec_onewayTimeout (s : State) (p : Fin 12) :
    exec (.onewayTimeout p) s = .next (s.oneway p (s.port p).lastHello) := rfl

theorem onewayTimeout_completes {s : State} {p : Fin 12} {h : Hello} (h2 : s.fget (F.WPL_STATUS_STATE p) = 2)
    (hl : (s.port p).lastHello = some h) (hh : (s.port p).heard = true) (hp : h.peer ≠ s.serial)
    (hs : (s.port p).swap = none) : Completes (.onewayTimeout p) s fun t =>
      t.fget (F.WPL_STATUS_STATE p) = 5 ∧ t.fget (F.WPL_STATUS_CAUSE p) = 8 ∧ ∀ a, t.byte a = s.byte a :=
  ⟨_, (exec_onewayTimeout s p).trans (by rw [hl]; exact congrArg Host.Outcome.next (if_pos ⟨h2, hh, hp, hs⟩)),
    State.quarantine_shows p (by decide) rfl⟩

theorem swapTimeout_completes {s : State} {p : Fin 12} (h2 : s.fget (F.WPL_STATUS_STATE p) = 2)
    (hs : (s.port p).swap.isSome = true) : Completes (.swapTimeout p) s fun t =>
      (t.fget (F.WPL_STATUS_STATE p) = 5 ∧ t.fget (F.WPL_STATUS_CAUSE p) = 7 ∧ ∀ a, t.byte a = s.byte a) ∧
      (t.port p).swap = none := by
  refine ⟨_, congrArg Host.Outcome.next (if_pos ⟨h2, hs⟩), State.quarantine_shows p (by decide)
    (s.modPort_memKey _ _), ?_⟩
  rw [(State.quarantine_spec _ p (by decide)).2.2, State.modPort_port_self]

theorem helloLost_completes {s : State} {p : Fin 12} (hl : s.linked p = true) (hs : (s.port p).swap = none)
    (hh : (s.port p).heard = true) (h5 : s.fget (F.WPL_STATUS_STATE p) ≠ 5) : Completes (.helloLost p) s fun t =>
      t.fget (F.WPL_STATUS_STATE p) = 5 ∧ t.fget (F.WPL_STATUS_CAUSE p) = 10 ∧ ∀ a, t.byte a = s.byte a :=
  ⟨_, congrArg Host.Outcome.next (if_pos ⟨hh, hl, h5⟩), State.quarantine_shows p (by decide) (s.unswap_memKey p)⟩

theorem quar_completes {s : State} {p : Fin 12} (hl : s.linked p = true) : Completes (.quar .armature p) s fun t =>
      t.fget (F.WPL_STATUS_STATE p) = 5 ∧ t.fget (F.WPL_STATUS_CAUSE p) = 13 ∧ ∀ a, t.byte a = s.byte a :=
  ⟨_, congrArg Host.Outcome.next ((State.acting_armature _ _ _ _).trans (if_pos hl)),
    State.quarantine_shows p (by decide) (s.unswap_memKey p)⟩

theorem rejudge_completes (s : State) (p : Fin 12) : Completes (.rejudge .armature p) s fun t =>
    (t.port p).afresh = true ∧ { t with ports := s.ports } = s :=
  ⟨_, congrArg Host.Outcome.next (State.acting_armature _ _ _ _), by rw [State.ctrlRejudge, State.modPort_port_self],
    rfl⟩

/-! ## Keys (R365) -/

/-- The peer's finished: its new key is in force. -/
def State.keyedNow (s : State) (p : Nat) (n : Nat) : State :=
  (({ s with free := n + 1 } : State).modPort p fun x =>
    { x with oldKey := if x.keyed then some x.keyId else none, keyed := true, keyId := Config.portKey n }).setFlag
      (F.WPL_STATUS_ENC p) true

/-- A fragment of a key exchange, judged. -/
def State.keyJudged (s : State) (p : Nat) (m : BitVec 8) (ok : Bool) : State :=
  if ok = false then ({ s with free := s.free + 1 } : State).quarantine p 12
  else if m = 1 then s.post p (.key 2)
  else if m = 2 then (s.keyedNow p s.free).pump p
  else s

theorem exec_keyExchange {s : State} {p : Fin 12} {m : BitVec 8} (ha : s.active p = true) (he : (s.port p).enc = true)
    (ht : (s.port p).training = false) (hm : m.toNat ≤ 2) (i : BitVec 16) (b : BitVec 96) :
    exec (.keyExchange p m i b) s =
      .next ((s.takeFlits p 7 1).keyJudged p m (Config.shareOk (s.free + i.toNat) b)) :=
  congrArg Host.Outcome.next (if_neg (by rw [ha, he, ht]; simp; omega))

theorem State.keyedNow_spec (s : State) (p : Fin 12) (n : Nat) :
    ((s.keyedNow p n).port p).keyed = true ∧ ((s.keyedNow p n).port p).keyId = Config.portKey n ∧
      (s.keyedNow p n).flag (F.WPL_STATUS_ENC p) = true ∧
      ((s.keyedNow p n).port p).oldKey = if (s.port p).keyed then some (s.port p).keyId else none := by
  unfold State.keyedNow
  rw [State.port_of_butRegs (State.setFlag_butRegs _ _ _), State.modPort_port_self]
  exact ⟨rfl, rfl, State.setFlag_flag _ _ _ rfl, rfl⟩

theorem keyExchange_completes {s : State} {p : Fin 12} {m : BitVec 8} (ha : s.active p = true)
    (he : (s.port p).enc = true) (ht : (s.port p).training = false) (hm : m.toNat ≤ 2) (i : BitVec 16) (b : BitVec 96) :
    Completes (.keyExchange p m i b) s fun t =>
      (Config.shareOk (s.free + i.toNat) b = false → t.fget (F.WPL_STATUS_STATE p) = 5 ∧
        t.fget (F.WPL_STATUS_CAUSE p) = 12 ∧ ∀ a, t.byte a = s.byte a) ∧
      (Config.shareOk (s.free + i.toNat) b = true → m = 2 → (t.port p).keyed = true ∧
        (t.port p).keyId = Config.portKey s.free ∧ t.flag (F.WPL_STATUS_ENC p) = true ∧
        (t.port p).oldKey = if (s.port p).keyed then some (s.port p).keyId else none) := by
  refine ⟨_, exec_keyExchange ha he ht hm i b, fun hok => ?_, fun hok hm => ?_⟩
  · rw [hok, State.keyJudged, if_pos rfl]
    exact State.quarantine_shows p (by decide) ((rfl : _ = (s.takeFlits p 7 1).memKey).trans (s.takeFlits_memKey p 7 1))
  · have hcore := s.takeFlits_core p 7 1 p
    have hfree : (s.takeFlits p 7 1).free = s.free := rfl
    rw [hok, hm, State.keyJudged, if_neg (by decide), if_neg (by decide), if_pos rfl, hfree]
    generalize s.takeFlits p 7 1 = t at *
    obtain ⟨k1, k2, k3, k4⟩ := t.keyedNow_spec p s.free
    generalize t.keyedNow p s.free = u at *
    have hc := u.pump_core p p
    have hk : (t.port p).keyed = (s.port p).keyed := (congrArg Port.keyed hcore :)
    have hi : (t.port p).keyId = (s.port p).keyId := (congrArg Port.keyId hcore :)
    refine ⟨(congrArg Port.keyed hc : _).trans k1, (congrArg Port.keyId hc : _).trans k2, ?_,
      (congrArg Port.oldKey hc : _).trans (k4.trans (by rw [hk, hi]))⟩
    rw [State.flag, State.fget_of_reg (State.reg_of_butLines (u.pump_butLines p) _)]
    exact k3

/-! ## A hello (R240, R242) -/

/-- What is shown of a peer's hello. -/
def State.showPeer (s : State) (p : Nat) (h : Hello) : State :=
  (((s.setReg (Reg.WPL_PEER_ID p) (BitVec.ofNat 32 (h.kind.toNat % 4 * 2 ^ 30 + h.port.toNat * 2 ^ 16 +
    h.id.toNat))).setReg (Reg.WPL_PEER_SER_LO p) (h.serial.truncate 32)).setReg (Reg.WPL_PEER_SER_HI p)
      ((h.serial >>> 32).truncate 32)).setReg (Reg.WPL_PEER_FW p) h.fw

/-- What a port keeps of its peer's hello. -/
def Port.met (h : Hello) (x : Port) : Port := { x with lastHello := some h, peerSer := h.serial, heard := true }

/-- A hello taken, shown, kept and answered, before it is judged. -/
def State.met (s : State) (p : Nat) (h : Hello) : State :=
  let t := ((s.takeFlits p 6 1).showPeer p h).modPort p (Port.met h)
  if h.peer ≠ t.serial then t.sendHello p else t

theorem exec_hello {s : State} {p : Fin 12} (hl : s.linked p = true) (ht : (s.port p).training = false)
    (ha : s.active p = false) (h : Hello) : exec (.hello p h) s = .next (if (s.met p h).heldQuar p then s.met p h
      else ((s.met p h).modPort p fun x => { x with afresh := false }).judged p h) := by
  have ha' : ¬ ((s.takeFlits p 6 1).active p = true ∧ ((s.takeFlits p 6 1).port p).peerSer ≠ h.serial) := by
    have : (s.takeFlits p 6 1).active p = s.active p := by
      rw [State.active, State.fget_of_reg (State.reg_of_butLines (s.takeFlits_butLines p 6 1) _), State.active]
    rw [this, ha]
    simp
  refine congrArg Host.Outcome.next ((if_neg (by rw [hl, ht]; simp)).trans ?_)
  dsimp only
  rw [if_neg ha']
  rfl

/-- The registers that show a port's peer. -/
def peerReg (p : Nat) (k : Nat) : Prop :=
  k = Reg.WPL_PEER_ID p ∨ k = Reg.WPL_PEER_SER_LO p ∨ k = Reg.WPL_PEER_SER_HI p ∨ k = Reg.WPL_PEER_FW p

theorem State.showPeer_reg (s : State) (p : Nat) (h : Hello) {k : Nat} (hk : ¬ peerReg p k) :
    (s.showPeer p h).reg k = s.reg k := by
  unfold peerReg at hk
  push_neg at hk
  obtain ⟨h1, h2, h3, h4⟩ := hk
  rw [State.showPeer, State.setReg_reg, if_neg h4, State.setReg_reg, if_neg h3, State.setReg_reg, if_neg h2,
    State.setReg_reg, if_neg h1]

theorem State.showPeer_butRegs (s : State) (p : Nat) (h : Hello) : (s.showPeer p h).butRegs = s.butRegs :=
  (State.setReg_butRegs _ _ _).trans ((State.setReg_butRegs _ _ _).trans ((State.setReg_butRegs _ _ _).trans
    (s.setReg_butRegs _ _)))

theorem State.sendHello_core (s : State) (p : Nat) :
    ∃ n, ((s.sendHello p).port p).core = { (s.port p).core with hseq := n } := by
  unfold State.sendHello
  split
  · exact ⟨_, rfl⟩
  · dsimp only
    exact ⟨_, (State.post_core _ _ _ p).trans (by rw [State.modPort_port_self]; rfl)⟩

theorem State.met_spec (s : State) (p : Nat) (h : Hello) : (∀ k, ¬ peerReg p k → (s.met p h).reg k = s.reg k) ∧
    (s.met p h).reg (Reg.WPL_PEER_FW p) = h.fw ∧ (s.met p h).butWires = s.butWires ∧
    ∃ n, ((s.met p h).port p).core = { (Port.met h (s.port p).core) with hseq := n } := by
  have h1 (k : Nat) (hk : ¬ peerReg p k) : (((s.takeFlits p 6 1).showPeer p h).modPort p (Port.met h)).reg k = s.reg
    k :=
    (State.modPort_reg _ _ _ _).trans ((State.showPeer_reg _ p h hk).trans
      (State.reg_of_butLines (s.takeFlits_butLines p 6 1) k))
  have h2 : (((s.takeFlits p 6 1).showPeer p h).modPort p (Port.met h)).reg (Reg.WPL_PEER_FW p) = h.fw :=
    (State.modPort_reg _ _ _ _).trans (State.setReg_reg_self _ _ _)
  have h3 : (((s.takeFlits p 6 1).showPeer p h).modPort p (Port.met h)).butWires = s.butWires :=
    (State.butWires_of_butPorts (State.butPorts_modPort _ _ _)).trans ((State.butWires_of_butRegs
      (State.showPeer_butRegs _ p h)).trans (State.butWires_of_butLines (s.takeFlits_butLines p 6 1)))
  have h4 : ((((s.takeFlits p 6 1).showPeer p h).modPort p (Port.met h)).port p).core = Port.met h (s.port p).core := by
    rw [State.modPort_port_self, State.port_of_butRegs (State.showPeer_butRegs _ p h)]
    exact (congrArg (Port.met h) (s.takeFlits_core p 6 1 p) :)
  unfold State.met
  dsimp only
  generalize ((s.takeFlits p 6 1).showPeer p h).modPort p (Port.met h) = t at *
  split
  · have hb := t.sendHello_butLines p
    obtain ⟨n, hn⟩ := t.sendHello_core p
    exact ⟨fun k hk => (State.reg_of_butLines hb k).trans (h1 k hk), (State.reg_of_butLines hb _).trans h2,
      (State.butWires_of_butLines hb).trans h3, n, by rw [hn, h4]⟩
  · exact ⟨h1, h2, h3, (s.port p).hseq, h4⟩

/-! ## What a hello is judged by -/

/-- The registers a hello is judged by, and those of a port's status and of its fence. -/
theorem peerReg_apart (p : Fin 12) : ¬ peerReg p Reg.WPL_FW_MIN ∧ ¬ peerReg p Reg.WPL_FW_MAX ∧
    ¬ peerReg p Reg.WPL_REV ∧ ¬ peerReg p Reg.WPL_STRAP ∧ ¬ peerReg p Reg.WPL_DISC_CFG ∧ ¬ peerReg p Reg.SEC_BOOT ∧
    ¬ peerReg p (Reg.WPL_STATUS p) ∧ ¬ peerReg p Reg.WPL_FENCE_LO ∧ ¬ peerReg p Reg.WPL_FENCE_HI := by
  revert p
  unfold peerReg
  decide

theorem State.matches_of {s t : State} (hn : t.nbr = s.nbr) (h : Hello) : t.matches h = s.matches h := by
  have hw (i k : Nat) : t.nbrW i k = s.nbrW i k := by rw [State.nbrW, hn, State.nbrW]
  have hm (i : Nat) : t.nbrMatch i h = s.nbrMatch i h := by
    unfold State.nbrMatch
    simp only [hw]
  unfold State.matches
  simp only [hm]

/-- A hello is judged by the registers of its rules, the neighbour table and the Armature image that runs. -/
theorem State.judge_of {s t : State} (hmin : t.reg Reg.WPL_FW_MIN = s.reg Reg.WPL_FW_MIN)
    (hmax : t.reg Reg.WPL_FW_MAX = s.reg Reg.WPL_FW_MAX) (hrev : t.reg Reg.WPL_REV = s.reg Reg.WPL_REV)
    (hstrap : t.reg Reg.WPL_STRAP = s.reg Reg.WPL_STRAP) (hcfg : t.reg Reg.WPL_DISC_CFG = s.reg Reg.WPL_DISC_CFG)
    (hboot : t.reg Reg.SEC_BOOT = s.reg Reg.SEC_BOOT) (hn : t.nbr = s.nbr) (hsec : t.sec = s.sec) (p : Nat) (h :
      Hello) :
    t.judge p h = s.judge p h := by
  have hadopt : t.adopt = s.adopt := by
    unfold State.adopt
    simp only [State.flag, State.fget, F.WPL_DISC_CFG_OVR, F.WPL_DISC_CFG_POLICY, F.WPL_STRAP_POLICY, hcfg, hstrap]
    rfl
  have hdigest : t.armDigest = s.armDigest := by
    unfold State.armDigest
    rw [hsec, State.fget_of_reg (f := F.SEC_BOOT_ARM_SLOT) hboot]
  have hwarn : t.warn4 h = s.warn4 h := by
    unfold State.warn4
    rw [hmin, hmax]
  have hbad : t.strapBad h = s.strapBad h := by
    unfold State.strapBad
    rw [State.fget_of_reg (f := F.WPL_STRAP_ID) hstrap]
  have hw (i k : Nat) : t.nbrW i k = s.nbrW i k := by rw [State.nbrW, hn, State.nbrW]
  have hport (i : Nat) : t.nbrPort i = s.nbrPort i := by rw [State.nbrPort, hw, State.nbrPort]
  have hgen (i : Nat) : t.nbrGen i = s.nbrGen i := by rw [State.nbrGen, hw, State.nbrGen]
  have hserial : t.serial = s.serial := rfl
  unfold State.judge
  simp only [hserial, hwarn, hadopt, hbad, hdigest, hport, hgen, State.matches_of hn,
    State.fget_of_reg (f := F.WPL_REV_REV) hrev]

theorem Verdict.quar_lt {s : State} {p : Nat} {h : Hello} {c : Nat} (hj : s.judge p h = .quar c) : c < 16 := by
  have key : ∀ v : Verdict, s.judge p h = v → ∀ c, v = .quar c → c < 16 := by
    intro v hv c hc
    subst hc
    unfold State.judge at hv
    dsimp only at hv
    repeat' split at hv
    all_goals cases hv
    all_goals decide
  exact key _ hj _ rfl

/-! ## ACTIVE -/

/-- The port is ACTIVE, with its revision; it is not yet keyed. -/
def State.entersActive (s : State) (p : Nat) (h : Hello) : State :=
  let s := (s.setPortState p 3).fset (F.WPL_STATUS_CAUSE p) 0
  (((s.fset (F.WPL_STATUS_REV p) (min h.rev.toNat (s.fget F.WPL_REV_REV))).settleId).modPort p fun x =>
    { x with keyed := false }).setFlag (F.WPL_STATUS_ENC p) false

/-- A port that has become ACTIVE keys itself, and waiting traffic gets a route. -/
def State.keyedRouted (s : State) (p : Nat) (on : Bool) : State := (if on then s.startKey p else s).reroute.pump p

theorem State.goActive_eq {s : State} {p : Nat} (h : s.active p = false) (hello : Hello) :
    ∃ on, s.goActive p hello = (s.entersActive p hello).keyedRouted p on := by
  unfold State.goActive
  dsimp only
  rw [h, if_neg (by decide)]
  exact ⟨_, rfl⟩

theorem wplStatus_id (p : Fin 12) : Reg.WPL_STATUS p ≠ Reg.PLN_PKG_ID ∧ Reg.WPL_PEER_FW p ≠ Reg.PLN_PKG_ID ∧
    Reg.WPL_PEER_FW p ≠ Reg.WPL_STATUS p ∧ Reg.WPL_PEER_FW p ≠ Reg.WPL_DISC_STATUS := by
  revert p
  decide

theorem State.entersActive_spec (s : State) (p : Fin 12) (h : Hello) : (s.entersActive p h).fget (F.WPL_STATUS_STATE
  p) = 3 ∧
    ((s.entersActive p h).port p).peerSer = (s.port p).peerSer ∧ ((s.entersActive p h).port p).lastHello = (s.port
      p).lastHello ∧
    (s.entersActive p h).reg (Reg.WPL_PEER_FW p) = s.reg (Reg.WPL_PEER_FW p) := by
  obtain ⟨h1, h2⟩ := s.setPortState_spec p (st := 3) (by decide)
  obtain ⟨n1, n2, n3, n4⟩ := wplStatus_id p
  have hport := State.port_of_butRegs (s.setPortState_butRegs p 3) p
  have hfw : (s.setPortState p 3).reg (Reg.WPL_PEER_FW p) = s.reg (Reg.WPL_PEER_FW p) :=
    (s.setPortState_reg p 3 n4).trans (State.fset_reg_ne _ _ _ _ n3)
  unfold State.entersActive
  generalize s.setPortState p 3 = t at *
  dsimp only
  generalize min h.rev.toNat ((t.fset (F.WPL_STATUS_CAUSE p) 0).fget F.WPL_REV_REV) = r
  have hb : ((t.fset (F.WPL_STATUS_CAUSE p) 0).fset (F.WPL_STATUS_REV p) r).settleId.butRegs = t.butRegs :=
    (State.settleId_butRegs _).trans ((State.fset_butRegs _ _ _).trans (State.fset_butRegs _ _ _))
  have hst : ((t.fset (F.WPL_STATUS_CAUSE p) 0).fset (F.WPL_STATUS_REV p) r).settleId.fget (F.WPL_STATUS_STATE p) = 3
    := by
    rw [State.fget_of_reg (State.settleId_reg _ n1), State.fset_fget_apart _ _ _ _ rfl,
      State.fset_fget_apart _ _ _ _ rfl, h1]
  have hpf : ((t.fset (F.WPL_STATUS_CAUSE p) 0).fset (F.WPL_STATUS_REV p) r).settleId.reg (Reg.WPL_PEER_FW p) =
      t.reg (Reg.WPL_PEER_FW p) := by
    rw [State.settleId_reg _ n2, State.fset_reg_ne _ _ _ _ n3, State.fset_reg_ne _ _ _ _ n3]
  generalize ((t.fset (F.WPL_STATUS_CAUSE p) 0).fset (F.WPL_STATUS_REV p) r).settleId = u at *
  rw [State.port_of_butRegs (State.setFlag_butRegs _ _ _), State.modPort_port_self, State.port_of_butRegs hb, hport]
  refine ⟨?_, rfl, rfl, ?_⟩
  · rw [State.setFlag_fget_apart _ _ _ _ rfl, State.fget_of_reg (State.modPort_reg _ _ _ _), hst]
  · exact (State.fset_reg_ne _ _ _ _ n3).trans ((State.modPort_reg _ _ _ _).trans (hpf.trans hfw))

theorem State.keyedRouted_spec (s : State) (p : Nat) (on : Bool) : (∀ k, (s.keyedRouted p on).reg k = s.reg k) ∧
    ((s.keyedRouted p on).port p).core = (s.port p).core := by
  have h : (if on then s.startKey p else s).butLines = s.butLines ∧
      ((if on then s.startKey p else s).port p).core = (s.port p).core := by
    split
    · exact ⟨(s.startKey_spec p).2.2.1, (s.startKey_spec p).2.2.2 p⟩
    · exact ⟨rfl, rfl⟩
  unfold State.keyedRouted
  generalize (if on then s.startKey p else s) = t at *
  have hr := t.reroute_butSends
  have hc := t.reroute_core p
  generalize t.reroute = u at *
  exact ⟨fun k => (State.reg_of_butLines (u.pump_butLines p) k).trans ((State.reg_of_butSends hr k).trans
    (State.reg_of_butLines h.1 k)), (u.pump_core p p).trans (hc.trans h.2)⟩

theorem State.goActive_spec {s : State} {p : Fin 12} (ha : s.active p = false) (h : Hello) :
    (s.goActive p h).fget (F.WPL_STATUS_STATE p) = 3 ∧ ((s.goActive p h).port p).peerSer = (s.port p).peerSer ∧
      ((s.goActive p h).port p).lastHello = (s.port p).lastHello ∧
      (s.goActive p h).reg (Reg.WPL_PEER_FW p) = s.reg (Reg.WPL_PEER_FW p) := by
  obtain ⟨on, he⟩ := State.goActive_eq ha h
  obtain ⟨h1, h2, h3, h4⟩ := s.entersActive_spec p h
  rw [he]
  generalize s.entersActive p h = t at *
  obtain ⟨b1, b2⟩ := t.keyedRouted_spec p on
  exact ⟨(State.fget_of_reg (b1 _)).trans h1, (congrArg Port.peerSer b2 : _).trans h2,
    (congrArg Port.lastHello b2 : _).trans h3, (b1 _).trans h4⟩

/-! ## Both verdicts -/

theorem hello_completes {s : State} {p : Fin 12} {h : Hello} (hl : s.linked p = true)
    (ht : (s.port p).training = false) (ha : s.active p = false) (hq : s.heldQuar p = false)
    (hs : (s.port p).swap = none) :
    (∀ c, s.judge p h = .quar c → Completes (.hello p h) s fun t =>
      t.fget (F.WPL_STATUS_STATE p) = 5 ∧ t.fget (F.WPL_STATUS_CAUSE p) = c ∧ ∀ a, t.byte a = s.byte a) ∧
    (s.judge p h = .go false false → h.flags.getLsbD 2 = (s.port p).enc → h.peer = s.serial → h.fence = s.fenceId →
      Completes (.hello p h) s fun t =>
        t.fget (F.WPL_STATUS_STATE p) = 3 ∧ (t.port p).peerSer = h.serial ∧ (t.port p).lastHello = some h ∧
        t.reg (Reg.WPL_PEER_FW p) = h.fw ∧ ∀ a, t.byte a = s.byte a) := by
  have he := exec_hello hl ht ha h
  obtain ⟨m1, m2, m3, n, m4⟩ := s.met_spec p h
  obtain ⟨r1, r2, r3, r4, r5, r6, r7, r8, r9⟩ := peerReg_apart p
  have hq' : (s.met p h).heldQuar p = false := by
    have hf : ((s.met p h).port p).afresh = (s.port p).afresh := (congrArg Port.afresh m4 :)
    rw [State.heldQuar, State.fget_of_reg (m1 _ r7), State.fget_of_reg (m1 _ r7), hf]
    exact hq
  rw [hq', if_neg (by decide)] at he
  have ham : (s.met p h).active p = false := by rw [State.active, State.fget_of_reg (m1 _ r7)]; exact ha
  have hmem : (s.met p h).memKey = s.memKey := State.memKey_of_butWires m3
  have hnbr : (s.met p h).nbr = s.nbr := (congrArg State.nbr m3 :)
  have hsec : (s.met p h).sec = s.sec := (congrArg State.sec m3 :)
  have hj := State.judge_of (m1 _ r1) (m1 _ r2) (m1 _ r3) (m1 _ r4) (m1 _ r5) (m1 _ r6) hnbr hsec p h
  have hfence : (s.met p h).fenceId = s.fenceId := by
    rw [State.fenceId, State.reg64, m1 _ r8, m1 _ r9, State.fenceId, State.reg64]
  generalize s.met p h = t at *
  have hport := t.modPort_port_self p fun x => { x with afresh := false }
  have hr (k : Nat) : (t.modPort p fun x => { x with afresh := false }).reg k = t.reg k := t.modPort_reg _ _ _
  have hmm : (t.modPort p fun x => { x with afresh := false }).memKey = t.memKey := t.modPort_memKey _ _
  have hju : (t.modPort p fun x => { x with afresh := false }).judge p h = t.judge p h := rfl
  have hfu : (t.modPort p fun x => { x with afresh := false }).fenceId = t.fenceId := rfl
  generalize (t.modPort p fun x => { x with afresh := false }) = u at *
  have hswap : (u.port p).swap = none := by
    rw [hport]
    exact (congrArg Port.swap m4 : _).trans hs
  refine ⟨fun c hc => ⟨_, he, ?_⟩, fun hc henc hpeer hfen => ⟨_, he, ?_⟩⟩
  · unfold State.judged
    rw [hju, hj, hc]
    dsimp only
    rw [State.unswap_none hswap]
    exact State.quarantine_shows p (Verdict.quar_lt hc) (hmm.trans hmem)
  · have heq : u.judged p h = u.goActive p h := by
      have henc' : (u.port p).enc = (s.port p).enc := by
        rw [hport]
        exact (congrArg Port.enc m4 :)
      unfold State.judged
      rw [hju, hj, hc]
      dsimp only
      rw [State.unswap_none hswap, State.goOn, if_neg (by rw [henc', henc]; simp),
        if_neg (by rw [hpeer]; exact fun h => h rfl)]
      dsimp only
      have hw : ¬ ((false || false) && !u.active p) = true := by simp
      rw [if_neg hw, if_neg (by rw [hfu, hfence, hfen]; exact fun h => h rfl)]
    rw [heq]
    have hau : u.active p = false := by rw [State.active, State.fget_of_reg (hr _)]; exact ham
    obtain ⟨g1, g2, g3, g4⟩ := State.goActive_spec hau h
    refine ⟨g1, g2.trans ?_, g3.trans ?_, g4.trans ((hr _).trans m2),
      State.byte_of_memKey ((State.goActive_memKey _ _ _).trans (hmm.trans hmem))⟩
    · rw [hport]
      exact (congrArg Port.peerSer m4 :)
    · rw [hport]
      exact (congrArg Port.lastHello m4 :)

/-- Settles O40, command by command. -/
theorem hellosAreJudged : Obligations.HellosAreJudged := fun s p =>
  ⟨fun _ hl ht ha hq hs => hello_completes hl ht ha hq hs,
   helloTimer_completes,
   fun h2 => ⟨discoverySilent_completes h2, fun _ hl hh hp hs => onewayTimeout_completes h2 hl hh hp hs,
     swapTimeout_completes h2⟩,
   fun hl hs => ⟨helloLost_completes hl hs, quar_completes hl⟩,
   rejudge_completes s p,
   fun _ i b ha he ht hm => keyExchange_completes ha he ht hm i b,
   rekey_completes⟩

end Sys2Proof.Machine
end

section
/-! SUPPORT. Flits of a port, requests served for other packages and responses to this one's (R231 to R235, R247). -/
namespace Sys2Proof.Machine

/-! ## What a port holds of what it receives -/

/-- The last good SEQ, whether flits are discarded, the headers whose data is still to come, and encryption in
  effect. -/
def Port.inbound (x : Port) : Nat × Bool × List (Nat × ReqSlot × List MWord) × Bool :=
  (x.rxSeq, x.discard, x.part, x.enc)

theorem State.pumpGo_inbound (ms : List (BitVec 16 × Msg)) (s : State) (p : Nat) (tails : List (Nat × List MWord))
    (shut : List Nat) (kept : List (BitVec 16 × Msg)) :
    ((s.pumpGo p tails ms shut kept).port p).inbound = (s.port p).inbound := by
  induction ms generalizing s tails shut kept with
  | nil => rw [State.pumpGo, State.modPort_port_self]; rfl
  | cons m ms ih =>
    rw [State.pumpGo]
    dsimp only
    split
    · exact ih _ _ _ _
    · have h (y : Port) (l : List (Nat × Msg)) : (({ s.setPort p y with sent := l } : State).port p).inbound =
          y.inbound := congrArg Port.inbound (s.setPort_port_self p y)
      exact (ih _ _ _ _).trans ((h _ _).trans rfl)

theorem State.pump_inbound (s : State) (p : Nat) : ((s.pump p).port p).inbound = (s.port p).inbound :=
  State.pumpGo_inbound _ _ _ _ _ _

theorem State.replayed_spec (s : State) (p : Nat) : (s.replayed p).butPorts = s.butPorts ∧
    ((s.replayed p).port p).inbound = (s.port p).inbound := by
  obtain ⟨h1, -, h3⟩ := s.replayCounted_spec p
  have hin : ((s.replayCounted p).port p).inbound = (s.port p).inbound := by rw [h1]; rfl
  rw [State.replayed_eq]
  generalize s.replayCounted p = t at *
  split
  · cases ht : (t.port p).training with
    | true => rw [State.startRetrain, if_pos ht]; exact ⟨h3, hin⟩
    | false =>
      obtain ⟨r1, -, r3, -⟩ := State.startRetrain_spec ht
      exact ⟨r3.trans h3, by rw [r1]; exact hin⟩
  · exact ⟨h3, hin⟩

/-- A header's credits and acknowledgement, at its port. -/
def Port.heading (h : BitVec 64) (x : Port) : Port :=
  let ack := bits64 h 47 38
  let cvc := bits64 h 35 33
  let cred := bits64 h 32 27
  let x := { x with credits := x.credits.set cvc (min (vcDepth cvc) (x.credits.getD cvc 0 + cred)) }
  if bits64 h 37 37 = 1 ∧ x.retry.any (fun e => e.1 == ack) then
    { x with retry := (x.retry.dropWhile fun e => e.1 != ack).drop 1, stuck := 0 } else x

theorem State.takeHeader_eq (s : State) (p : Nat) (h : BitVec 64) : s.takeHeader p h =
    (if bits64 h 36 36 = 1 then (s.setPort p ((s.port p).heading h)).replayed p
      else s.setPort p ((s.port p).heading h)).pump p := rfl

theorem Port.heading_inbound (h : BitVec 64) (x : Port) : (x.heading h).inbound = x.inbound := by
  unfold Port.heading
  dsimp only
  split <;> rfl

theorem State.takeHeader_spec (s : State) (p : Nat) (h : BitVec 64) : (s.takeHeader p h).butWires = s.butWires ∧
    ((s.takeHeader p h).port p).inbound = (s.port p).inbound := by
  have hs : (s.setPort p ((s.port p).heading h)).butPorts = s.butPorts := rfl
  have hp : ((s.setPort p ((s.port p).heading h)).port p).inbound = (s.port p).inbound := by
    rw [State.setPort_port_self, Port.heading_inbound]
  rw [State.takeHeader_eq]
  generalize s.setPort p ((s.port p).heading h) = t at *
  split
  · obtain ⟨r1, r2⟩ := t.replayed_spec p
    generalize t.replayed p = u at *
    exact ⟨(State.butWires_of_butLines (u.pump_butLines p)).trans (State.butWires_of_butPorts (r1.trans hs)),
      (u.pump_inbound p).trans (r2.trans hp)⟩
  · exact ⟨(State.butWires_of_butLines (t.pump_butLines p)).trans (State.butWires_of_butPorts hs),
      (t.pump_inbound p).trans hp⟩

/-! ## A flit not taken (R235) -/

/-- What a NAK leaves of its port and sends. -/
theorem State.dropFlit_spec (s : State) (p : Nat) : ((s.dropFlit p).port p).discard = true ∧
    ((s.dropFlit p).port p).rxSeq = (s.port p).rxSeq ∧
    (s.dropFlit p).sent = (if (s.port p).discard then s.sent else
      s.sent ++ [(p, .idle (idleHeader (s.port p).rxSeq true 0 0))]) ∧
    (s.dropFlit p).butLines = s.butLines ∧ ((s.dropFlit p).port p).authAt = (s.port p).authAt := by
  unfold State.dropFlit
  split
  next h => exact ⟨h, rfl, rfl, rfl, rfl⟩
  next h =>
    have hp : ((s.modPort p fun x => { x with discard := true }).sendIdle p true 0 0).port p =
        { s.port p with discard := true } := (State.sendIdle_port _ _ _ _ _ _).trans (s.modPort_port_self p _)
    rw [hp]
    refine ⟨rfl, rfl, ?_, (State.sendIdle_butLines _ _ _ _ _).trans (s.modPort_butLines _ _), rfl⟩
    rw [State.sendIdle, State.modPort_port_self]
    rfl

theorem flitDropped_order {s : State} {p : Fin 12} (hl : s.linked p = true) (ht : (s.port p).training = false) :
    Completes (.flitDropped p .order) s fun t => ((t.port p).discard = true ∧ (t.port p).rxSeq = (s.port p).rxSeq ∧
      t.sent = (if (s.port p).discard then s.sent else
        s.sent ++ [(p.val, .idle (idleHeader (s.port p).rxSeq true 0 0))])) ∧
      { t with ports := s.ports, sent := s.sent } = s := by
  obtain ⟨h1, h2, h3, h4, -⟩ := s.dropFlit_spec p
  exact ⟨_, congrArg Host.Outcome.next (if_neg (by rw [hl, ht]; simp)), ⟨h1, h2, h3⟩, State.frame_of_butLines h4⟩

/-- A count of flits not taken leaves what the port receives. -/
theorem State.badCrc_spec (s : State) (p : Nat) : ((s.badCrc p).port p).discard = true ∧
    ((s.badCrc p).port p).rxSeq = (s.port p).rxSeq ∧
    (s.badCrc p).sent = (if (s.port p).discard then s.sent else
      s.sent ++ [(p, .idle (idleHeader (s.port p).rxSeq true 0 0))]) ∧
    (s.badCrc p).fget (F.WPL_ERR_CRC p) = min 0xFF (s.fget (F.WPL_ERR_CRC p) + 1) ∧
    (s.badCrc p).butWires = s.butWires := by
  obtain ⟨h1, h2, h3, h4, -⟩ := s.dropFlit_spec p
  unfold State.badCrc
  generalize s.dropFlit p = t at *
  have hb : (t.fsat (F.WPL_ERR_CRC p) 1).butRegs = t.butRegs := State.fsat_butRegs _ _ _
  rw [State.port_of_butRegs hb]
  refine ⟨h1, h2, (congrArg State.sent hb : _).trans h3, ?_,
    (State.butWires_of_butRegs hb).trans (State.butWires_of_butLines h4)⟩
  rw [State.fsat_fget _ _ _ rfl, State.fget_of_reg (State.reg_of_butLines h4 _)]
  rfl

theorem flitDropped_crc {s : State} {p : Fin 12} (hl : s.linked p = true) (ht : (s.port p).training = false) :
    Completes (.flitDropped p .crc) s fun t => ((t.port p).discard = true ∧ (t.port p).rxSeq = (s.port p).rxSeq ∧
      t.sent = (if (s.port p).discard then s.sent else
        s.sent ++ [(p.val, .idle (idleHeader (s.port p).rxSeq true 0 0))])) ∧
      t.fget (F.WPL_ERR_CRC p) = min 0xFF (s.fget (F.WPL_ERR_CRC p) + 1) ∧
      { t with regs := s.regs, ports := s.ports, sent := s.sent } = s := by
  obtain ⟨h1, h2, h3, h4, h5⟩ := s.badCrc_spec p
  exact ⟨s.badCrc p, congrArg Host.Outcome.next (if_neg (by rw [hl, ht]; simp)), ⟨h1, h2, h3⟩, h4,
    State.frame_of_butWires h5⟩

/-- A field that fills its register. -/
theorem State.fset_word (s : State) (k v : Nat) : (s.fset ⟨k, 31, 0⟩ v).reg k = BitVec.ofNat 32 v := by
  have h : ∀ x y : BitVec 32, (x &&& ~~~(Fld.mask ⟨k, 31, 0⟩)) ||| ((y <<< 0) &&& Fld.mask ⟨k, 31, 0⟩) = y := by
    intro x y
    have hm : Fld.mask ⟨k, 31, 0⟩ = BitVec.allOnes 32 := by
      unfold Fld.mask Fld.width
      dsimp only
      decide
    rw [hm, BitVec.shiftLeft_zero, BitVec.not_allOnes, BitVec.and_zero, BitVec.zero_or, BitVec.and_allOnes]
  rw [State.fset, State.setReg_reg_self]
  exact h _ _

/-- An uncorrectable codeword counted, with its time. -/
def State.codewordCounted (s : State) (p : Nat) : State :=
  (s.fsat (F.WPL_FEC_UE_COUNT p) 1).modPort p fun x =>
    { x with ueAt := s.now :: x.ueAt.filter fun t => decide (s.now.toNat - t.toNat < 1000000) }

theorem State.badCodeword_eq (s : State) (p : Nat) : s.badCodeword p =
    if 32 < ((s.codewordCounted p).port p).ueAt.length then (s.codewordCounted p).startRetrain p
    else s.codewordCounted p := rfl

theorem State.codewordCounted_spec (s : State) (p : Nat) :
    (s.codewordCounted p).reg (Reg.WPL_FEC_UE p) =
      BitVec.ofNat 32 (min 0xFFFFFFFF ((s.reg (Reg.WPL_FEC_UE p)).toNat + 1)) ∧
    ((s.codewordCounted p).port p).inbound = (s.port p).inbound ∧ (s.codewordCounted p).butPorts = s.butPorts := by
  have hv : s.fget (F.WPL_FEC_UE_COUNT p) = (s.reg (Reg.WPL_FEC_UE p)).toNat := by
    rw [State.fget]
    have : (s.reg (Reg.WPL_FEC_UE p) >>> 0).toNat % 2 ^ 32 = (s.reg (Reg.WPL_FEC_UE p)).toNat := by
      rw [BitVec.ushiftRight_zero]
      exact Nat.mod_eq_of_lt (BitVec.isLt _)
    exact this
  unfold State.codewordCounted
  refine ⟨?_, ?_, (State.butPorts_modPort _ _ _).trans (State.butPorts_of_butRegs (State.fsat_butRegs _ _ _))⟩
  · rw [State.modPort_reg, State.fsat, hv]
    exact State.fset_word _ _ _
  · rw [State.modPort_port_self]
    exact (congrArg Port.inbound (State.port_of_butRegs (State.fsat_butRegs s (F.WPL_FEC_UE_COUNT p) 1) p) :)

theorem wplFec_ne (p : Fin 12) : Reg.WPL_FEC_UE p ≠ Reg.WPL_LANE p := by
  revert p
  decide

theorem State.badCodeword_spec (s : State) (p : Fin 12) :
    (s.badCodeword p).reg (Reg.WPL_FEC_UE p) =
      BitVec.ofNat 32 (min 0xFFFFFFFF ((s.reg (Reg.WPL_FEC_UE p)).toNat + 1)) ∧
    ((s.badCodeword p).port p).inbound = (s.port p).inbound ∧ (s.badCodeword p).butPorts = s.butPorts := by
  obtain ⟨h1, h2, h3⟩ := s.codewordCounted_spec p
  rw [State.badCodeword_eq]
  generalize s.codewordCounted p = t at *
  split
  · cases ht : (t.port p).training with
    | true => rw [State.startRetrain, if_pos ht]; exact ⟨h1, h2, h3⟩
    | false =>
      obtain ⟨r1, -, r3, r4⟩ := State.startRetrain_spec ht
      exact ⟨(r4 _ (wplFec_ne p)).trans h1, by rw [r1]; exact h2, r3.trans h3⟩
  · exact ⟨h1, h2, h3⟩

theorem flitDropped_fec {s : State} {p : Fin 12} (hl : s.linked p = true) (ht : (s.port p).training = false) :
    Completes (.flitDropped p .fec) s fun t => ((t.port p).discard = true ∧ (t.port p).rxSeq = (s.port p).rxSeq ∧
      t.sent = (if (s.port p).discard then s.sent else
        s.sent ++ [(p.val, .idle (idleHeader (s.port p).rxSeq true 0 0))])) ∧
      t.reg (Reg.WPL_FEC_UE p) = BitVec.ofNat 32 (min 0xFFFFFFFF ((s.reg (Reg.WPL_FEC_UE p)).toNat + 1)) ∧
      { t with regs := s.regs, ports := s.ports, sent := s.sent } = s := by
  refine ⟨(s.dropFlit p).badCodeword p, congrArg Host.Outcome.next (if_neg (by rw [hl, ht]; simp)), ?_⟩
  obtain ⟨h1, h2, h3, h4, -⟩ := s.dropFlit_spec p
  generalize s.dropFlit p = t at *
  obtain ⟨b1, b2, b3⟩ := t.badCodeword_spec p
  generalize t.badCodeword p = u at *
  refine ⟨⟨(congrArg (fun y => y.2.1) b2 : _).trans h1, (congrArg Prod.fst b2 : _).trans h2,
    (congrArg State.sent b3 : _).trans h3⟩, b1.trans (by rw [State.reg_of_butLines h4]), State.frame_of_butWires ?_⟩
  exact (State.butWires_of_butPorts b3).trans (State.butWires_of_butLines h4)

/-- An authentication failure counted, with its time. -/
def State.authCounted (s : State) (p : Nat) : State :=
  (s.fsat (F.WPL_ERR_AUTH p) 1).modPort p fun x =>
    { x with authAt := s.now :: x.authAt.filter fun t => decide (s.now.toNat - t.toNat < 1000000000) }

theorem State.authCounted_authAt (s : State) (p : Nat) : ((s.authCounted p).port p).authAt =
    s.now :: (s.port p).authAt.filter fun t => decide (s.now.toNat - t.toNat < 1000000000) := by
  rw [State.authCounted, State.modPort_port_self, State.port_of_butRegs (State.fsat_butRegs _ _ _)]

/-- An authentication failure judged: the sixteenth within 1 s quarantines the port. -/
def State.authJudged (s : State) (p : Nat) : State :=
  if ((s.authCounted p).port p).authAt.length ≥ 16 then (s.authCounted p).quarantine p 12 else s.authCounted p

theorem exec_flitDropped_auth {s : State} {p : Fin 12} (hl : s.linked p = true) (ht : (s.port p).training = false) :
    exec (.flitDropped p .auth) s = .next ((s.dropFlit p).authJudged p) :=
  congrArg Host.Outcome.next (if_neg (by rw [hl, ht]; simp))

theorem flitDropped_auth {s : State} {p : Fin 12} (hl : s.linked p = true) (ht : (s.port p).training = false)
    (hn : 15 ≤ ((s.port p).authAt.filter fun t => decide (s.now.toNat - t.toNat < 1000000000)).length) :
    Completes (.flitDropped p .auth) s fun t => t.fget (F.WPL_STATUS_STATE p) = 5 ∧
      t.fget (F.WPL_STATUS_CAUSE p) = 12 ∧ ∀ a, t.byte a = s.byte a := by
  refine ⟨_, exec_flitDropped_auth hl ht, ?_⟩
  obtain ⟨-, -, -, h4, h5⟩ := s.dropFlit_spec p
  have hm : (s.dropFlit p).memKey = s.memKey := s.dropFlit_memKey p
  have hnow : (s.dropFlit p).now = s.now := by rw [State.now, State.time_of_butLines h4, State.now]
  generalize s.dropFlit p = t at *
  have hmem : (t.authCounted p).memKey = t.memKey := (State.modPort_memKey _ _ _).trans (State.fsat_memKey' _ _ _)
  have hlen := t.authCounted_authAt p
  rw [h5, hnow] at hlen
  unfold State.authJudged
  rw [if_pos (by rw [hlen, List.length_cons]; omega)]
  exact State.quarantine_shows p (by decide) (hmem.trans hm)

/-! ## An idle flit (R231) -/

theorem idleFlit_completes {s : State} {p : Fin 12} {h : BitVec 64} (h0 : bits64 h 63 62 = 0)
    (hn : bits64 h 36 36 = 0) (hl : s.linked p = true) (ht : (s.port p).training = false) (ho : (s.port p).outq = []) :
    Completes (.idleFlit p h) s fun t =>
      (t.port p).credits = (s.port p).credits.set (bits64 h 35 33)
        (min (vcDepth (bits64 h 35 33)) ((s.port p).credits.getD (bits64 h 35 33) 0 + bits64 h 32 27)) ∧
      (bits64 h 37 37 = 1 → (s.port p).retry.any (fun e => e.1 == bits64 h 47 38) = true →
        (t.port p).retry = ((s.port p).retry.dropWhile fun e => e.1 != bits64 h 47 38).drop 1 ∧
        (t.port p).stuck = 0) ∧
      { t with ports := s.ports } = s := by
  have ho' : ((s.port p).heading h).outq = [] := by
    unfold Port.heading
    dsimp only
    split <;> exact ho
  have he : s.takeHeader p h = (s.setPort p ((s.port p).heading h)).modPort p fun x => { x with outq := [] } := by
    rw [State.takeHeader_eq, if_neg (by omega), State.pump, State.setPort_port_self, ho', State.pumpGo]
    rfl
  refine ⟨_, congrArg Host.Outcome.next (if_pos ⟨h0, hl, ht⟩), ?_⟩
  rw [he]
  dsimp only
  rw [State.modPort_port_self, State.setPort_port_self]
  have hmod (t : State) (f : Port → Port) : { t.modPort p f with ports := s.ports } = { t with ports := s.ports } := rfl
  have hset (x : Port) : { s.setPort p x with ports := s.ports } = s := rfl
  refine ⟨?_, fun h1 h2 => ?_, (hmod _ _).trans (hset _)⟩
  · unfold Port.heading
    dsimp only
    split <;> rfl
  · unfold Port.heading
    dsimp only
    rw [if_pos ⟨h1, h2⟩]
    exact ⟨rfl, rfl⟩

/-! ## Requests served here (R23, R25, R233) -/

theorem State.serveUnit_frame (s : State) (p : Nat) (a : BitVec 64) :
    (s.serveUnit p a).2.butRecords = s.butRecords ∧ (s.serveUnit p a).2.calmRegs = s.calmRegs := by
  unfold State.serveUnit
  dsimp only
  split
  · exact ⟨State.addrErr_butRecords _ _ _ _ _, State.addrErr_calmRegs _ _ _ _ _⟩
  · exact ⟨State.readN_butRecords _ _ _ _ _, State.readN_calmRegs _ _ _ _ _⟩

theorem State.serveUnits_frame (s : State) (p : Nat) (a : BitVec 64) (n : Nat) :
    (s.serveUnits p a n).2.2.butRecords = s.butRecords ∧ (s.serveUnits p a n).2.2.calmRegs = s.calmRegs := by
  induction n generalizing s a with
  | zero => exact ⟨rfl, rfl⟩
  | succ n ih =>
    obtain ⟨h1, h2⟩ := s.serveUnit_frame p a
    rw [State.serveUnits]
    dsimp only
    exact ⟨(ih _ _).1.trans h1, (ih _ _).2.trans h2⟩

/-- A remote read touches records and what reading notes. -/
theorem State.serveRead_frame (s : State) (p : Nat) (a : BitVec 64) (n : Nat) :
    (s.serveRead p a n).2.2.butRecords = s.butRecords ∧ (s.serveRead p a n).2.2.calmRegs = s.calmRegs :=
  s.serveUnits_frame p a n

/-- A message posted to a port with nothing waiting, credits and room goes out at once. -/
theorem State.post_sent {s : State} {p : Nat} {m : Msg} (ho : (s.port p).outq = []) (hc : s.carries p m.vc = true)
    (hcr : m.flits ((s.port p).enc && decide (m.vc < 6)) ≤ (s.port p).credits.getD m.vc 0)
    (hr : (s.port p).retry.length + m.flits ((s.port p).enc && decide (m.vc < 6)) ≤ 64) :
    (s.post p m).sent = s.sent ++ [(p, m)] := by
  have hcar (f : Port → Port) (hf : ∀ x, (f x).training = x.training ∧ (f x).enc = x.enc ∧ (f x).keyed = x.keyed) :
      (s.modPort p f).carries p m.vc = s.carries p m.vc := by
    have hreg : (s.modPort p f).fget (F.WPL_STATUS_STATE p) = s.fget (F.WPL_STATUS_STATE p) :=
      State.fget_of_reg (s.modPort_reg _ _ _)
    rw [State.carries, hreg, State.modPort_port_self, (hf _).1, (hf _).2.1, (hf _).2.2, State.carries]
  have hq := s.modPort_port_self p fun x => { x with outq := x.outq ++ [((0xFFFF : BitVec 16), m)] }
  have hk := (hcar (fun x => { x with outq := x.outq ++ [((0xFFFF : BitVec 16), m)] }) fun x => ⟨rfl, rfl,
    rfl⟩).trans hc
  have hs : (s.modPort p fun x => { x with outq := x.outq ++ [((0xFFFF : BitVec 16), m)] }).sent = s.sent := rfl
  unfold State.post State.postTo State.pump
  generalize (s.modPort p fun x => { x with outq := x.outq ++ [((0xFFFF : BitVec 16), m)] }) = t at *
  have hempty : (t.port p).outq = [((0xFFFF : BitVec 16), m)] := by rw [hq, ho]; rfl
  have henc : (t.port p).enc = (s.port p).enc := by rw [hq]
  have hcr' : (t.port p).credits = (s.port p).credits := by rw [hq]
  have hret : (t.port p).retry = (s.port p).retry := by rw [hq]
  rw [hempty, State.pumpGo]
  dsimp only
  have hfl : ∀ enc, ((m.flitsAfter enc ((lookup ([] : List (Nat × List MWord)) m.vc).getD []))).1 = m.flits enc :=
    fun _ => rfl
  rw [if_neg]
  · rw [State.pumpGo, State.modPort_sent, ← hs]
  · rw [hfl, henc, hcr', hret, hk]
    simp only [List.contains_nil, Bool.not_true, Bool.or_false, Bool.false_or, Bool.or_eq_true, decide_eq_true_eq]
    omega

/-- Taking a slot leaves what the port may send. -/
theorem State.takeSlot_frame (s : State) (p : Nat) (m : Msg) : (s.takeSlot p m).butLines = s.butLines ∧
    ((s.takeSlot p m).port p).outq = (s.port p).outq ∧ ((s.takeSlot p m).port p).credits = (s.port p).credits ∧
    ((s.takeSlot p m).port p).retry = (s.port p).retry ∧ ((s.takeSlot p m).port p).part = (s.port p).part ∧
    ((s.takeSlot p m).port p).core = (s.port p).core := by
  have h : (s.takeSlot p m).port p = { s.port p with
      rxSeq := ((s.port p).rxSeq + m.flits ((s.port p).enc && decide (m.vc < 6))) % 1024
      discard := false } :=
    (State.sendIdle_port _ _ _ _ _ _).trans (s.modPort_port_self _ _)
  exact ⟨s.takeFlits_butLines _ _ _, by rw [h], by rw [h], by rw [h], by rw [h], s.takeFlits_core _ _ _ p⟩

theorem State.serves_of_butLines {s t : State} (h : t.butLines = s.butLines) (r : ReqSlot) : t.serves r = s.serves r :=
  (congrArg (fun u : State => u.serves r) h :)

/-- The read is served, and answered. -/
def State.readServed (s : State) (p : Nat) (r : ReqSlot) (v : Nat × List MWord × State) : State :=
  v.2.2.post p (.rsp false (answer r v.2.2.pkgId v.1) v.2.1)

theorem exec_readRequest {s : State} {p : Fin 12} {r : ReqSlot} (hc : s.carries p 0 = true)
    (hw : s.inWaits (r.addr.toNat % 2 ^ 48) = false) (hs : s.serves r = true) :
    exec (.readRequest p r) s = .next (s.readServed p r
      ((s.takeSlot p (.req false r [])).serveRead p r.addr (r.len.toNat % 64 + 1))) := by
  have hs' := (State.serves_of_butLines (s.takeSlot_frame p (.req false r [])).1 r).trans hs
  exact congrArg Host.Outcome.next ((if_neg (by rw [hc, hw]; simp)).trans (if_pos hs'))

/-- A port that carries requests carries responses. -/
theorem State.carries_of {s t : State} {p : Nat} (h : s.carries p 0 = true)
    (hst : t.fget (F.WPL_STATUS_STATE p) = s.fget (F.WPL_STATUS_STATE p)) (hp : (t.port p).core = (s.port p).core) :
    t.carries p 1 = true := by
  have h1 : (t.port p).training = (s.port p).training := (congrArg Port.training hp :)
  have h2 : (t.port p).enc = (s.port p).enc := (congrArg Port.enc hp :)
  have h3 : (t.port p).keyed = (s.port p).keyed := (congrArg Port.keyed hp :)
  rw [State.carries] at h ⊢
  rw [hst, h1, h2, h3]
  exact h

/-- The answer to a read that has been served goes out at once. -/
theorem State.readServed_spec {s s1 : State} {p : Fin 12} {r : ReqSlot} {v : Nat × List MWord × State}
    (hc : s.carries p 0 = true) (f2 : (s1.port p).outq = []) (f3 : (s1.port p).credits = (s.port p).credits)
    (f4 : (s1.port p).retry = (s.port p).retry) (f6 : (s1.port p).core = (s.port p).core)
    (g1 : v.2.2.butRecords = s1.butRecords)
    (hst : v.2.2.fget (F.WPL_STATUS_STATE p) = s.fget (F.WPL_STATUS_STATE p)) {m : Msg}
    (hm : m = .rsp false (answer r v.2.2.pkgId v.1) v.2.1)
    (hcr : m.flits (s.port p).enc ≤ (s.port p).credits.getD 1 0)
    (hr : (s.port p).retry.length + m.flits (s.port p).enc ≤ 64) :
    (s.readServed p r v).sent = s1.sent ++ [(p.val, m)] := by
  have hports : v.2.2.ports = s1.ports := (congrArg State.ports g1 :)
  have hport := State.port_of_ports hports p
  have hsent : v.2.2.sent = s1.sent := (congrArg State.sent g1 :)
  have hcore : (v.2.2.port p).core = (s.port p).core := (congrArg Port.core hport).trans f6
  have henc : (v.2.2.port p).enc = (s.port p).enc := (congrArg Port.enc hcore :)
  have hvc : m.vc = 1 := by rw [hm]; rfl
  have hfl : m.flits ((v.2.2.port p).enc && decide (m.vc < 6)) = m.flits (s.port p).enc := by
    rw [henc, hvc, decide_eq_true (by decide), Bool.and_true]
  rw [State.readServed, ← hm, State.post_sent ((congrArg Port.outq hport).trans f2)
    (by rw [hvc]; exact State.carries_of hc hst hcore) (by rw [hfl, hport, f3, hvc]; exact hcr)
    (by rw [hfl, hport, f4]; exact hr), hsent]

theorem readRequest_completes {s : State} {p : Fin 12} {r : ReqSlot} (hc : s.carries p 0 = true)
    (hw : s.inWaits (r.addr.toNat % 2 ^ 48) = false) (hs : s.serves r = true) (ho : (s.port p).outq = []) :
    let s1 := s.takeSlot p (.req false r [])
    let v := s1.serveRead p r.addr (r.len.toNat % 64 + 1)
    let m := Msg.rsp false (answer r v.2.2.pkgId v.1) v.2.1
    m.flits (s.port p).enc ≤ (s.port p).credits.getD 1 0 → (s.port p).retry.length + m.flits (s.port p).enc ≤ 64 →
    Completes (.readRequest p r) s fun t => t.sent = s1.sent ++ [(p.val, m)] ∧ ∀ a, t.byte a = s.byte a := by
  dsimp only
  intro hcr hr
  refine ⟨_, exec_readRequest hc hw hs, ?_⟩
  obtain ⟨f1, f2, f3, f4, -, f6⟩ := s.takeSlot_frame p (.req false r [])
  have hm1 : (s.takeSlot p (.req false r [])).memKey = s.memKey := s.takeFlits_memKey _ _ _
  generalize s.takeSlot p (.req false r []) = s1 at *
  obtain ⟨g1, g2⟩ := s1.serveRead_frame p r.addr (r.len.toNat % 64 + 1)
  have hmem : (s1.serveRead p r.addr (r.len.toNat % 64 + 1)).2.2.memKey = s1.memKey := State.serveRead_memKey _ _ _ _
  generalize s1.serveRead p r.addr (r.len.toNat % 64 + 1) = v at *
  have hst : v.2.2.fget (F.WPL_STATUS_STATE p) = s.fget (F.WPL_STATUS_STATE p) :=
    (State.fget_of_calmRegs g2 (wplStatus_calm p)).trans (State.fget_of_reg (State.reg_of_butLines f1 _))
  have hpost : (s.readServed p r v).memKey = v.2.2.memKey := State.post_memKey _ _ _
  exact ⟨State.readServed_spec hc (f2.trans ho) f3 f4 f6 g1 hst rfl hcr hr,
    State.byte_of_memKey (hpost.trans (hmem.trans hm1))⟩

/-! ## Remote writes (R233) -/

theorem exec_writeRequest {s : State} {p : Fin 12} {r : ReqSlot} (hc : s.carries p 0 = true)
    (hw : s.inWaits (r.addr.toNat % 2 ^ 48) = false) (d : List MWord) :
    exec (.writeRequest p r d) s = .next ((s.takeSlot p (.req true r d)).withData p 0 r d) :=
  congrArg Host.Outcome.next (if_pos ⟨hc, hw⟩)

/-- The write is made, and answered. -/
def State.writeServed (p : Nat) (r : ReqSlot) (v : Nat × State) : State :=
  v.2.post p (.rsp true (answer r v.2.pkgId v.1) [])

theorem State.withData_write {s : State} {p : Nat} {r : ReqSlot} {d : List MWord} (hs : s.serves r = true)
    (hd : 16 * (r.len.toNat % 64 + 1) ≤ d.length) :
    s.withData p 0 r d = State.writeServed p r (s.serveWrite p r.addr d (r.len.toNat % 64 + 1)) := by
  unfold State.withData
  rw [if_neg (by omega), if_pos rfl, State.doWrite, if_pos hs]
  rfl

theorem writeRequest_whole {s : State} {p : Fin 12} {r : ReqSlot} (hc : s.carries p 0 = true)
    (hw : s.inWaits (r.addr.toNat % 2 ^ 48) = false) (hs : s.serves r = true) (d : List MWord)
    (hd : 16 * (r.len.toNat % 64 + 1) ≤ d.length) : Completes (.writeRequest p r d) s fun t =>
      ∀ a, t.byte a = (((s.takeSlot p (.req true r d)).serveWrite p r.addr d (r.len.toNat % 64 + 1)).2).byte a := by
  have hs' := (State.serves_of_butLines (s.takeSlot_frame p (.req true r d)).1 r).trans hs
  refine ⟨_, exec_writeRequest hc hw d, ?_⟩
  rw [State.withData_write hs' hd]
  exact State.byte_of_memKey (State.post_memKey _ _ _)

theorem writeRequest_part {s : State} {p : Fin 12} {r : ReqSlot} (hc : s.carries p 0 = true)
    (hw : s.inWaits (r.addr.toNat % 2 ^ 48) = false) (d : List MWord) (hd : d.length < 16 * (r.len.toNat % 64 + 1)) :
    Completes (.writeRequest p r d) s fun t =>
      (t.port p).part = (s.port p).part ++ [(0, r, d)] ∧ { t with ports := s.ports, sent := s.sent } = s := by
  refine ⟨_, exec_writeRequest hc hw d, ?_⟩
  obtain ⟨f1, -, -, -, f5, -⟩ := s.takeSlot_frame p (.req true r d)
  generalize s.takeSlot p (.req true r d) = t at *
  rw [State.withData, if_pos hd, State.modPort_port_self]
  exact ⟨by rw [f5], State.frame_of_butLines ((t.modPort_butLines _ _).trans f1)⟩

/-! ## Responses (R233, R247) -/

/-- The transactions left when one tag is done. -/
def State.dropTag (s : State) (tag : Nat) : State := { s with rtx := s.rtx.filter fun q => q.tag != tag }

/-- A response to a transaction, at its slot. -/
def State.answered (s : State) (wr : Bool) (d : List MWord) (q : RTx) : State :=
  if (s.xfer (xk q.l q.slot)).st = .free ∨ (s.xfer (xk q.l q.slot)).id ≠ q.id then s
  else if wr then (match s.engineOf q.l with
    | some e => s.progress e q.l q.slot 0
    | none => s)
  else s.setXfer (xk q.l q.slot) ((s.xfer (xk q.l q.slot)).land q.unit d q.units)

theorem State.finishTx_some {s : State} {wr : Bool} {r : ReqSlot} {q : RTx}
    (h : s.rtx.find? (fun t => t.tag == r.tag.toNat && t.wr == wr) = some q) (d : List MWord) :
    s.finishTx wr r d = (s.dropTag q.tag).answered wr d q := by
  unfold State.finishTx
  rw [h]
  rfl

theorem State.finishTx_none {s : State} {wr : Bool} {r : ReqSlot}
    (h : s.rtx.find? (fun t => t.tag == r.tag.toNat && t.wr == wr) = none) (d : List MWord) :
    s.finishTx wr r d = s := by
  unfold State.finishTx
  rw [h]

theorem exec_readResponse {s : State} {p : Fin 12} (hc : s.carries p 1 = true) (r : ReqSlot) (d : List MWord) :
    exec (.readResponse p r d) s = .next ((s.takeSlot p (.rsp false r d)).withData p 1 r d) :=
  congrArg Host.Outcome.next (if_pos hc)

theorem exec_writeCompletion {s : State} {p : Fin 12} (hc : s.carries p 1 = true) (r : ReqSlot) :
    exec (.writeCompletion p r) s = .next ((s.takeSlot p (.rsp true r [])).finishTx true r []) :=
  congrArg Host.Outcome.next (if_pos hc)

theorem State.rtx_of_butLines {s t : State} (h : t.butLines = s.butLines) : t.rtx = s.rtx := (congrArg State.rtx h :)
theorem State.xfer_of_butLines {s t : State} (h : t.butLines = s.butLines) (k : Nat) : t.xfer k = s.xfer k :=
  (congrArg (fun u : State => u.xfer k) h :)

/-- Everything but the ports, what they have sent, and the transactions and transfer slots. -/
def State.butRemote (s : State) : State := { s.butLines with rtx := [], xfers := [] }

theorem State.butRemote_of_butLines {s t : State} (h : t.butLines = s.butLines) : t.butRemote = s.butRemote :=
  congrArg (fun u : State => { u with rtx := [], xfers := [] }) h
theorem State.frame_of_butRemote {s t : State} (h : t.butRemote = s.butRemote) :
    { t with ports := s.ports, sent := s.sent, rtx := s.rtx, xfers := s.xfers } = s :=
  (congrArg (fun u : State => { u with ports := s.ports, sent := s.sent, rtx := s.rtx, xfers := s.xfers }) h :)
theorem State.dropTag_butRemote (s : State) (tag : Nat) : (s.dropTag tag).butRemote = s.butRemote := rfl
theorem State.setXfer_butRemote (s : State) (k : Nat) (x : Xfer) : (s.setXfer k x).butRemote = s.butRemote := rfl

theorem readResponse_completes {s : State} {p : Fin 12} {r : ReqSlot} (hc : s.carries p 1 = true) {d : List MWord}
    {q : RTx} (hd : 16 * (r.len.toNat % 64 + 1) ≤ d.length)
    (hf : s.rtx.find? (fun y => y.tag == r.tag.toNat && y.wr == false) = some q)
    (hx : (s.xfer (6 * q.l + q.slot)).st ≠ .free) (hi : (s.xfer (6 * q.l + q.slot)).id = q.id) :
    Completes (.readResponse p r d) s fun t =>
      t.xfer (6 * q.l + q.slot) = (s.xfer (6 * q.l + q.slot)).land q.unit d q.units ∧
      t.rtx = s.rtx.filter (fun y => y.tag != q.tag) ∧
      { t with ports := s.ports, sent := s.sent, rtx := s.rtx, xfers := s.xfers } = s := by
  refine ⟨_, exec_readResponse hc r d, ?_⟩
  obtain ⟨f1, -⟩ := s.takeSlot_frame p (.rsp false r d)
  generalize s.takeSlot p (.rsp false r d) = t at *
  have hrtx := State.rtx_of_butLines f1
  have hxf : (t.dropTag q.tag).xfer (xk q.l q.slot) = s.xfer (6 * q.l + q.slot) := State.xfer_of_butLines f1 _
  have hb : (t.dropTag q.tag).butRemote = s.butRemote :=
    (t.dropTag_butRemote _).trans (State.butRemote_of_butLines f1)
  have hdr : (t.dropTag q.tag).rtx = s.rtx.filter fun y => y.tag != q.tag := by rw [State.dropTag, hrtx]
  have hw : t.withData p 1 r d = (t.dropTag q.tag).answered false d q := by
    unfold State.withData
    rw [if_neg (by omega), if_neg (by decide), State.finishTx_some (by rw [hrtx]; exact hf)]
  rw [hw]
  generalize t.dropTag q.tag = u at *
  have ha : u.answered false d q = u.setXfer (xk q.l q.slot) ((s.xfer (6 * q.l + q.slot)).land q.unit d q.units) := by
    unfold State.answered
    rw [hxf, if_neg (by rintro (h | h); exacts [hx h, h hi]), if_neg (by decide)]
  rw [ha]
  exact ⟨u.setXfer_xfer_self _ _, hdr, State.frame_of_butRemote ((u.setXfer_butRemote _ _).trans hb)⟩

/-- A slot that has moved on. -/
def Xfer.moved (x : Xfer) (now : BitVec 64) (k : Nat) : Xfer :=
  { x with st := .active, unit := x.unit + k, last := now, starved := false }

/-- Where a slot stands after its progress. -/
def State.moved (s : State) (e l n k : Nat) : State :=
  let x := s.xfer (xk l n)
  let us := min 0xFFFFFFFF ((s.now - x.last).toNat / 1000)
  let s' := s.setXfer (xk l n) (x.moved s.now k)
  if x.st = .stalled then
    let s' := s'.eventR (s'.faultTask e x.ctx x.op x.pc
      { cls := 0x0A, unit := engineUnit e, sig := BitVec.ofNat 32 x.cause, det0 := x.d0,
        det1 := BitVec.ofNat 64 (us + n * 2 ^ 32 + x.cause * 2 ^ 40) })
    let u := e / 17
    if s'.fget (F.STR_LAST_STALL_ENGINE u) = e % 17 ∧ s'.fget (F.STR_LAST_STALL_SLOT u) = n then
      (s'.setFlag (F.STR_LAST_STALL_RESUMED u) true).setReg (Reg.STR_LAST_DUR u) (BitVec.ofNat 32 us)
    else s'
  else s'

theorem State.progress_eq (s : State) (e l n k : Nat) : s.progress e l n k = (s.moved e l n k).reHold e := rfl

theorem State.moved_butRecords (s : State) (e l n k : Nat) : (s.moved e l n k).butRecords =
    (s.setXfer (xk l n) ((s.xfer (xk l n)).moved s.now k)).butRecords := by
  unfold State.moved
  dsimp only
  generalize s.setXfer (xk l n) _ = t
  split
  · have h (r : FRec) : (t.eventR r).butRecords = t.butRecords := State.eventR_butRecords _ _
    generalize t.faultTask e _ _ _ _ = r
    specialize h r
    generalize t.eventR r = u at *
    split
    · exact (State.setReg_butRecords _ _ _).trans ((State.setFlag_butRecords _ _ _).trans h)
    · exact h
  · rfl

theorem State.heldNow_st (s : State) (e : Nat) {x : Xfer} (h : x.st ≠ .stalled) : (s.heldNow e x).st ≠ .stalled := by
  unfold State.heldNow
  split
  · dsimp only
    split <;> exact (by decide)
  · exact h

theorem State.xfer_of_butRecords {s t : State} (h : t.butRecords = s.butRecords) {k : Nat} : t.xfer k = s.xfer k :=
  (congrArg (fun u : State => u.xfer k) h :)
theorem State.reHold_rtx (s : State) (e : Nat) : (s.reHold e).rtx = s.rtx := by
  unfold State.reHold
  split
  · rfl
  next l _ =>
    have h (ns : List Nat) (t : State) :
        (ns.foldl (fun s n => s.setXfer (xk l n) (s.heldNow e (s.xfer (xk l n)))) t).rtx = t.rtx := by
      induction ns generalizing t with
      | nil => rfl
      | cons n ns ih =>
        rw [List.foldl_cons, ih]
        rfl
    exact h _ _

/-- Progress of a slot: its time and units, and it is not stalled. -/
theorem State.progress_spec (s : State) (e l n : Nat) :
    ((s.progress e l n 0).xfer (xk l n)).last = s.now ∧
    ((s.progress e l n 0).xfer (xk l n)).unit = (s.xfer (xk l n)).unit ∧
    ((s.progress e l n 0).xfer (xk l n)).st ≠ .stalled ∧ (s.progress e l n 0).rtx = s.rtx ∧
    ∀ k, (s.progress e l n 0).tileB k = s.tileB k := by
  have hb := s.moved_butRecords e l n 0
  rw [State.progress_eq]
  generalize s.moved e l n 0 = t at *
  have hx : t.xfer (xk l n) = (s.xfer (xk l n)).moved s.now 0 :=
    State.xfer_of_butRecords hb |>.trans (s.setXfer_xfer_self _ _)
  have hrtx : t.rtx = s.rtx := (congrArg State.rtx hb :)
  have htile (k : Nat) : t.tileB k = s.tileB k := (congrArg (fun v : State => v.tileB k) hb :)
  have hact : (Xfer.moved (s.xfer (xk l n)) s.now 0).st ≠ .stalled := by
    unfold Xfer.moved
    dsimp only
    decide
  have hk := t.reHold_xfer_st e (xk l n)
  have hst : ((t.reHold e).xfer (xk l n)).st ≠ .stalled := by
    have ht : (t.xfer (xk l n)).st ≠ .stalled := by rw [hx]; exact hact
    cases hl : t.slotOf e with
    | none => simp only [State.reHold, hl]; exact ht
    | some l' =>
      rw [State.reHold_xfer hl]
      split
      · exact State.heldNow_st _ _ ht
      · exact ht
  have hbx := t.reHold_butXfers e
  have hrx := t.reHold_rtx e
  generalize t.reHold e = u at *
  refine ⟨(congrArg Xfer.last hk : _).trans (by rw [hx]; rfl), (congrArg Xfer.unit hk : _).trans (by rw [hx]; rfl),
    hst, hrx.trans hrtx, fun k => (State.tileB_of_butXfers hbx k).trans (htile k)⟩

/-- A completion at its slot, when it may not act there, and when it may. -/
theorem State.answered_idle {s : State} {q : RTx} {d : List MWord}
    (h : (s.xfer (xk q.l q.slot)).st = .free ∨ (s.xfer (xk q.l q.slot)).id ≠ q.id ∨ s.engineOf q.l = none) :
    s.answered true d q = s := by
  unfold State.answered
  split
  · rfl
  next hn =>
    have he : s.engineOf q.l = none := by tauto
    rw [if_pos rfl, he]

theorem State.answered_moves {s : State} {q : RTx} {d : List MWord} {e : Nat}
    (h1 : (s.xfer (xk q.l q.slot)).st ≠ .free) (h2 : (s.xfer (xk q.l q.slot)).id = q.id)
    (h3 : s.engineOf q.l = some e) : s.answered true d q = s.progress e q.l q.slot 0 := by
  unfold State.answered
  rw [if_neg (by rintro (h | h); exacts [h1 h, h h2]), if_pos rfl, h3]

theorem State.engineOf_of_butLines {s t : State} (h : t.butLines = s.butLines) (l : Nat) :
    t.engineOf l = s.engineOf l := (congrArg (fun u : State => u.engineOf l) h :)
theorem State.tileB_of_butLines {s t : State} (h : t.butLines = s.butLines) (k : Nat) : t.tileB k = s.tileB k :=
  (congrArg (fun u : State => u.tileB k) h :)

theorem writeCompletion_completes {s : State} {p : Fin 12} {r : ReqSlot} (hc : s.carries p 1 = true) {q : RTx}
    (hf : s.rtx.find? (fun y => y.tag == r.tag.toNat && y.wr == true) = some q) :
    Completes (.writeCompletion p r) s fun t =>
      let k := 6 * q.l + q.slot
      t.rtx = s.rtx.filter (fun y => y.tag != q.tag) ∧
      ((s.xfer k).st = .free ∨ (s.xfer k).id ≠ q.id ∨ s.engineOf q.l = none →
        { t with ports := s.ports, sent := s.sent, rtx := s.rtx } = s) ∧
      ((s.xfer k).st ≠ .free → (s.xfer k).id = q.id → s.engineOf q.l ≠ none →
        (t.xfer k).last = s.now ∧ (t.xfer k).unit = (s.xfer k).unit ∧ (t.xfer k).st ≠ .stalled) ∧
      (∀ k, t.tileB k = s.tileB k) ∧ ∀ a, t.byte a = s.byte a := by
  refine ⟨_, exec_writeCompletion hc r, ?_⟩
  obtain ⟨f1, -⟩ := s.takeSlot_frame p (.rsp true r [])
  have hm : ((s.takeSlot p (.rsp true r [])).finishTx true r []).memKey = s.memKey :=
    (State.finishTx_memKey _ _ _ _).trans (s.takeFlits_memKey _ _ _)
  generalize s.takeSlot p (.rsp true r []) = t at *
  have hrtx := State.rtx_of_butLines f1
  rw [State.finishTx_some (by rw [hrtx]; exact hf)] at hm ⊢
  have hx : (t.dropTag q.tag).xfer (xk q.l q.slot) = s.xfer (6 * q.l + q.slot) := State.xfer_of_butLines f1 _
  have he : (t.dropTag q.tag).engineOf q.l = s.engineOf q.l := State.engineOf_of_butLines f1 _
  have ht (k : Nat) : (t.dropTag q.tag).tileB k = s.tileB k := State.tileB_of_butLines f1 k
  have hn : (t.dropTag q.tag).now = s.now := (congrArg State.now f1 :)
  have hdr : (t.dropTag q.tag).rtx = s.rtx.filter fun y => y.tag != q.tag := by rw [State.dropTag, hrtx]
  have hframe : { t.dropTag q.tag with ports := s.ports, sent := s.sent, rtx := s.rtx } = s := by
    rw [← hrtx]
    exact State.frame_of_butLines f1
  generalize t.dropTag q.tag = u at *
  dsimp only
  rw [← hx, ← he]
  by_cases h : (u.xfer (xk q.l q.slot)).st = .free ∨ (u.xfer (xk q.l q.slot)).id ≠ q.id ∨ u.engineOf q.l = none
  · rw [State.answered_idle h] at hm ⊢
    exact ⟨hdr, fun _ => hframe, fun h1 h2 h3 => by tauto, ht, State.byte_of_memKey hm⟩
  · push_neg at h
    obtain ⟨h1, h2, h3⟩ := h
    obtain ⟨e, h3⟩ := Option.ne_none_iff_exists'.mp h3
    rw [State.answered_moves h1 h2 h3] at hm ⊢
    obtain ⟨p1, p2, p3, p4, p5⟩ := u.progress_spec e q.l q.slot
    refine ⟨p4.trans hdr, fun h => ?_, fun _ _ _ => ⟨p1.trans hn, p2, p3⟩, fun k => (p5 k).trans (ht k),
      State.byte_of_memKey hm⟩
    rw [h3] at h
    tauto

/-! ## Data flits (R231, R232, R235) -/

/-- A data flit taken, before its words go to the headers. -/
def State.flitTaken (s : State) (p vc : Nat) (h : BitVec 64) : State :=
  ((s.takeFlits p vc 1).modPort p fun x => { x with oldKey := if vc < 6 then none else x.oldKey }).takeHeader p h

/-- A data flit judged by its CRC and its SEQ. -/
def State.flitJudged (s : State) (p vc : Nat) (good : Bool) (f : Flit) : State :=
  if good = false then s.badCrc p
  else if bits64 f.h 57 48 ≠ ((s.port p).rxSeq + 1) % 1024 then s.dropFlit p
  else (s.flitTaken p vc f.h).feed p vc 64 (flitData ((s.port p).enc && decide (vc < 6)) f)

theorem exec_dataFlit {s : State} {p : Fin 12} {f : Flit} (hk : bits64 f.h 63 62 = 2)
    (hc : s.carries p (bits64 f.h 61 59) = true) (hw : bits64 f.h 61 59 = 0 → s.writeWaits p = false) :
    exec (.dataFlit p f) s = .next (s.flitJudged p (bits64 f.h 61 59)
      (flitPasses f ((s.port p).enc && decide (bits64 f.h 61 59 < 6))) f) := by
  refine congrArg Host.Outcome.next (if_neg ?_)
  rw [hk, hc]
  rintro (h | h | ⟨h, h'⟩)
  · exact h rfl
  · exact absurd h (by decide)
  · rw [hw h] at h'
    exact absurd h' (by decide)

theorem State.flitTaken_spec (s : State) (p vc : Nat) (h : BitVec 64) :
    ((s.flitTaken p vc h).port p).inbound =
      (((s.port p).rxSeq + 1) % 1024, false, (s.port p).part, (s.port p).enc) ∧
    (s.flitTaken p vc h).butWires = s.butWires := by
  have hp : (s.takeFlits p vc 1).port p = { s.port p with rxSeq := ((s.port p).rxSeq + 1) % 1024, discard := false } :=
    (State.sendIdle_port _ _ _ _ _ _).trans (s.modPort_port_self _ _)
  have hb := State.butWires_of_butLines (s.takeFlits_butLines p vc 1)
  unfold State.flitTaken
  generalize s.takeFlits p vc 1 = t at *
  have hq := t.modPort_port_self p fun x => { x with oldKey := if vc < 6 then none else x.oldKey }
  have hc : (t.modPort p fun x => { x with oldKey := if vc < 6 then none else x.oldKey }).butWires = t.butWires :=
    State.butWires_of_butPorts (State.butPorts_modPort _ _ _)
  generalize (t.modPort p fun x => { x with oldKey := if vc < 6 then none else x.oldKey }) = u at *
  obtain ⟨h1, h2⟩ := u.takeHeader_spec p h
  refine ⟨h2.trans ?_, h1.trans (hc.trans hb)⟩
  rw [hq, hp]
  rfl

/-- Words for a virtual channel no header of which waits go nowhere. -/
theorem State.feed_none {s : State} {p vc : Nat} (h : ∀ q ∈ (s.port p).part, q.1 ≠ vc) (n : Nat) (ws : List MWord) :
    s.feed p vc n ws = s := by
  cases n with
  | zero => rfl
  | succ n =>
    have hf : (s.port p).part.find? (fun e => e.1 == vc) = none := by
      rw [List.find?_eq_none]
      intro q hq
      simp only [beq_iff_eq]
      exact h q hq
    rw [State.feed, hf]

theorem dataFlit_taken {s : State} {p : Fin 12} {f : Flit} (hk : bits64 f.h 63 62 = 2)
    (hc : s.carries p (bits64 f.h 61 59) = true) (hw : bits64 f.h 61 59 = 0 → s.writeWaits p = false)
    (hg : flitPasses f ((s.port p).enc && decide (bits64 f.h 61 59 < 6)) = true)
    (hs : bits64 f.h 57 48 = ((s.port p).rxSeq + 1) % 1024) (hq : ∀ q ∈ (s.port p).part, q.1 ≠ bits64 f.h 61 59) :
    Completes (.dataFlit p f) s fun t =>
      (t.port p).rxSeq = ((s.port p).rxSeq + 1) % 1024 ∧ (t.port p).discard = false ∧ ∀ a, t.byte a = s.byte a := by
  refine ⟨_, exec_dataFlit hk hc hw, ?_⟩
  rw [hg, State.flitJudged, if_neg (by decide), if_neg (not_not.mpr hs)]
  obtain ⟨h1, h2⟩ := s.flitTaken_spec p (bits64 f.h 61 59) f.h
  generalize s.flitTaken p (bits64 f.h 61 59) f.h = t at *
  have hpart : (t.port p).part = (s.port p).part := (congrArg (fun y => y.2.2.1) h1 :)
  rw [State.feed_none (by rw [hpart]; exact hq)]
  exact ⟨(congrArg Prod.fst h1 :), (congrArg (fun y => y.2.1) h1 :),
    State.byte_of_memKey (State.memKey_of_butWires h2)⟩

theorem dataFlit_order {s : State} {p : Fin 12} {f : Flit} (hk : bits64 f.h 63 62 = 2)
    (hc : s.carries p (bits64 f.h 61 59) = true) (hw : bits64 f.h 61 59 = 0 → s.writeWaits p = false)
    (hg : flitPasses f ((s.port p).enc && decide (bits64 f.h 61 59 < 6)) = true)
    (hs : bits64 f.h 57 48 ≠ ((s.port p).rxSeq + 1) % 1024) :
    Completes (.dataFlit p f) s fun t => ((t.port p).discard = true ∧ (t.port p).rxSeq = (s.port p).rxSeq ∧
      t.sent = (if (s.port p).discard then s.sent else
        s.sent ++ [(p.val, .idle (idleHeader (s.port p).rxSeq true 0 0))])) ∧
      { t with ports := s.ports, sent := s.sent } = s := by
  refine ⟨_, exec_dataFlit hk hc hw, ?_⟩
  have hj : s.flitJudged p (bits64 f.h 61 59) true f = s.dropFlit p := (if_neg (by decide)).trans (if_pos hs)
  rw [hg, hj]
  obtain ⟨h1, h2, h3, h4, -⟩ := s.dropFlit_spec p
  exact ⟨⟨h1, h2, h3⟩, State.frame_of_butLines h4⟩

theorem dataFlit_bad {s : State} {p : Fin 12} {f : Flit} (hk : bits64 f.h 63 62 = 2)
    (hc : s.carries p (bits64 f.h 61 59) = true) (hw : bits64 f.h 61 59 = 0 → s.writeWaits p = false)
    (hg : flitPasses f ((s.port p).enc && decide (bits64 f.h 61 59 < 6)) = false) :
    Completes (.dataFlit p f) s fun t => ((t.port p).discard = true ∧ (t.port p).rxSeq = (s.port p).rxSeq ∧
      t.sent = (if (s.port p).discard then s.sent else
        s.sent ++ [(p.val, .idle (idleHeader (s.port p).rxSeq true 0 0))])) ∧
      t.fget (F.WPL_ERR_CRC p) = min 0xFF (s.fget (F.WPL_ERR_CRC p) + 1) ∧
      { t with ports := s.ports, sent := s.sent, regs := s.regs } = s := by
  refine ⟨_, exec_dataFlit hk hc hw, ?_⟩
  have hj : s.flitJudged p (bits64 f.h 61 59) false f = s.badCrc p := if_pos rfl
  rw [hg, hj]
  obtain ⟨h1, h2, h3, h4, h5⟩ := s.badCrc_spec p
  exact ⟨⟨h1, h2, h3⟩, h4, State.frame_of_butWires h5⟩

/-- After a response, nothing of its tag is outstanding; ports and memory stay. -/
theorem State.finishTx_spec (s : State) (r : ReqSlot) (d : List MWord) :
    (∀ y ∈ (s.finishTx false r d).rtx, ¬ (y.tag = r.tag.toNat ∧ y.wr = false)) ∧
    (∀ q, (s.finishTx false r d).port q = s.port q) := by
  cases h : s.rtx.find? fun t => t.tag == r.tag.toNat && t.wr == false with
  | none =>
    rw [State.finishTx_none h]
    rw [List.find?_eq_none] at h
    refine ⟨fun y hy hn => h y hy ?_, fun _ => rfl⟩
    rw [hn.1, hn.2]
    simp
  | some t =>
    have htag : t.tag = r.tag.toNat := by
      have := List.find?_some h
      simp only [Bool.and_eq_true, beq_iff_eq] at this
      exact this.1
    have hrtx : ∀ u : State, (u.answered false d t).rtx = u.rtx ∧ ∀ q, (u.answered false d t).port q = u.port q := by
      intro u
      unfold State.answered
      split
      · exact ⟨rfl, fun _ => rfl⟩
      · rw [if_neg (by decide)]
        exact ⟨rfl, fun _ => rfl⟩
    rw [State.finishTx_some h]
    refine ⟨fun y hy hn => ?_, fun q => (hrtx _).2 q⟩
    rw [(hrtx _).1, State.dropTag, List.mem_filter] at hy
    rw [htag, hn.1] at hy
    simp at hy

/-- The last words a response lacks complete it. -/
theorem State.feed_completes {s : State} {p : Nat} {r : ReqSlot} {d : List MWord}
    (hp : (s.port p).part = [(1, r, d)]) {ws : List MWord}
    (hw : 16 * (r.len.toNat % 64 + 1) - d.length ≤ ws.length) :
    ∃ d', s.feed p 1 64 ws = (s.modPort p fun x => { x with part := [] }).finishTx false r d' := by
  have hfind : (s.port p).part.find? (fun e => e.1 == 1) = some (1, r, d) := by rw [hp]; rfl
  have hfilter : (s.port p).part.filter (· ≠ (1, r, d)) = [] := by rw [hp]; simp
  refine ⟨d ++ ws.take (16 * (r.len.toNat % 64 + 1) - d.length), ?_⟩
  rw [State.feed, hfind]
  dsimp only
  rw [hfilter, if_neg (by omega), if_neg (by decide)]
  refine State.feed_none ?_ _ _
  rw [(State.finishTx_spec _ _ _).2, State.modPort_port_self]
  simp

theorem dataFlit_completes {s : State} {p : Fin 12} {f : Flit} (hk : bits64 f.h 63 62 = 2)
    (hc : s.carries p (bits64 f.h 61 59) = true) (hw : bits64 f.h 61 59 = 0 → s.writeWaits p = false)
    {r : ReqSlot} {d : List MWord}
    (hg : flitPasses f ((s.port p).enc && decide (bits64 f.h 61 59 < 6)) = true)
    (hs : bits64 f.h 57 48 = ((s.port p).rxSeq + 1) % 1024) (hv : bits64 f.h 61 59 = 1)
    (hp : (s.port p).part = [(1, r, d)])
    (hn : 16 * (r.len.toNat % 64 + 1) - d.length ≤ (flitData (s.port p).enc f).length) :
    Completes (.dataFlit p f) s fun t =>
      (∀ y ∈ t.rtx, ¬ (y.tag = r.tag.toNat ∧ y.wr = false)) ∧ (t.port p).part = [] ∧ ∀ a, t.byte a = s.byte a := by
  refine ⟨_, exec_dataFlit hk hc hw, ?_⟩
  rw [hg, State.flitJudged, if_neg (by decide), if_neg (not_not.mpr hs), hv, decide_eq_true (by decide), Bool.and_true]
  obtain ⟨h1, h2⟩ := s.flitTaken_spec p 1 f.h
  generalize s.flitTaken p 1 f.h = t at *
  have hpart : (t.port p).part = (s.port p).part := (congrArg (fun y => y.2.2.1) h1 :)
  obtain ⟨d', hd⟩ := State.feed_completes (s := t) (p := p) (hpart.trans hp) hn
  rw [hd]
  have hport := t.modPort_port_self p fun x => { x with part := [] }
  have hmem : (t.modPort p fun x => { x with part := [] }).memKey = t.memKey := t.modPort_memKey _ _
  generalize (t.modPort p fun x => { x with part := [] }) = u at *
  obtain ⟨k1, k2⟩ := u.finishTx_spec r d'
  refine ⟨k1, by rw [k2, hport], State.byte_of_memKey ((State.finishTx_memKey _ _ _ _).trans (hmem.trans
    (State.memKey_of_butWires h2)))⟩

/-- Settles O39, command by command. -/
theorem flitsAndRequests : Obligations.FlitsAndRequests := fun s p =>
  ⟨fun _ hk hc hw => ⟨fun hg hs hq => dataFlit_taken hk hc hw hg hs hq,
     fun _ _ hg hs hv hp hn => dataFlit_completes hk hc hw hg hs hv hp hn,
     fun hg hs => dataFlit_order hk hc hw hg hs, fun hg => dataFlit_bad hk hc hw hg⟩,
   fun _ h0 hn hl ht ho => idleFlit_completes h0 hn hl ht ho,
   fun hl ht => ⟨flitDropped_crc hl ht, flitDropped_fec hl ht, flitDropped_order hl ht, flitDropped_auth hl ht⟩,
   fun _ => ⟨fun hc hw hs => ⟨fun ho => readRequest_completes hc hw hs ho, fun d hd => writeRequest_whole hc hw hs d hd,
       fun d hd => writeRequest_part hc hw d hd⟩,
     fun hc => ⟨fun _ _ hd hf hx hi => readResponse_completes hc hd hf hx hi,
       fun _ hf => writeCompletion_completes hc hf⟩⟩⟩

end Sys2Proof.Machine
end

section
/-! SUPPORT. Faults that are detected: what they poison, mark, reset or halt (R81, R88, R313 to R316, R322, R343). -/
namespace Sys2Proof.Machine

/-! ## The elements of an accumulator (R81) -/

theorem El.unpack_pack_poison (x : El) : (El.unpack x.pack).poison = x.poison := by
  unfold El.unpack El.pack
  simp only [BitVec.getLsbD_append]
  simp

/-- Everything but the accumulators' elements. -/
def State.butAccs (s : State) : State := { s with accs := [] }

theorem State.setEl_butAccs (s : State) (e a i : Nat) (x : El) : (s.setEl e a i x).butAccs = s.butAccs := rfl

theorem State.setEl_acc (s : State) (e a i : Nat) (x : El) (k : Nat) :
    (s.setEl e a i x).acc k = if k = ak e a * 1024 + i then x.pack else s.acc k := Sparse.get_set _ _ _ _ _

/-- The first `n` elements changed. -/
def State.mapFirst (s : State) (e a : Nat) (f : Nat → El → El) (n : Nat) : State :=
  (List.range n).foldl (fun s i => s.setEl e a i (f i (s.el e a i))) s

theorem State.mapFirst_succ (s : State) (e a : Nat) (f : Nat → El → El) (n : Nat) : s.mapFirst e a f (n + 1) =
    (s.mapFirst e a f n).setEl e a n (f n ((s.mapFirst e a f n).el e a n)) := by
  unfold State.mapFirst
  rw [List.range_succ, List.foldl_append]
  rfl

theorem State.mapFirst_spec (s : State) (e a : Nat) (f : Nat → El → El) (n : Nat) :
    (s.mapFirst e a f n).butAccs = s.butAccs ∧
    (∀ i, i < n → (s.mapFirst e a f n).acc (ak e a * 1024 + i) = (f i (s.el e a i)).pack) ∧
    (∀ k, (∀ i, i < n → k ≠ ak e a * 1024 + i) → (s.mapFirst e a f n).acc k = s.acc k) := by
  induction n with
  | zero => exact ⟨rfl, fun i hi => absurd hi (Nat.not_lt_zero i), fun _ _ => rfl⟩
  | succ n ih =>
    obtain ⟨h1, h2, h3⟩ := ih
    have hel : (s.mapFirst e a f n).el e a n = s.el e a n := by
      rw [State.el, h3 _ fun i hi => by omega, State.el]
    rw [State.mapFirst_succ, hel]
    generalize s.mapFirst e a f n = t at *
    refine ⟨(t.setEl_butAccs _ _ _ _).trans h1, fun i hi => ?_, fun k hk => ?_⟩
    · rw [State.setEl_acc]
      by_cases hin : i = n
      · rw [hin, if_pos rfl]
      · rw [if_neg (by omega)]
        exact h2 i (by omega)
    · rw [State.setEl_acc, if_neg (hk n (by omega))]
      exact h3 k fun i hi => hk i (by omega)

theorem State.mapAcc_eq (s : State) (e a : Nat) (f : Nat → El → El) : s.mapAcc e a f = s.mapFirst e a f 1024 := rfl

theorem State.poisonAcc_spec (s : State) (e a : Nat) : (s.poisonAcc e a).butAccs = s.butAccs ∧
    (∀ n, n < 1024 → ((s.poisonAcc e a).el e a n).poison = true) ∧
    (∀ k, k / 1024 ≠ 8 * e + a → (s.poisonAcc e a).acc k = s.acc k) := by
  unfold State.poisonAcc
  rw [State.mapAcc_eq]
  obtain ⟨h1, h2, h3⟩ := s.mapFirst_spec e a (fun _ x => { x with poison := true }) 1024
  generalize s.mapFirst e a (fun _ x => { x with poison := true }) 1024 = t at *
  refine ⟨h1, fun n hn => ?_, fun k hk => h3 k fun i hi => ?_⟩
  · rw [State.el, h2 n hn, El.unpack_pack_poison]
  · unfold ak
    omega

/-! ## A fault of an engine's arithmetic -/

/-- Everything but records, capture slots and the free values. -/
def State.butFaulting (s : State) : State := { s.butRecords with caps := [], free := 0 }

theorem State.butFaulting_of_butRecords {s t : State} (h : t.butRecords = s.butRecords) : t.butFaulting =
  s.butFaulting :=
  congrArg (fun u : State => { u with caps := [], free := 0 }) h
theorem State.butFaulting_caps (s : State) (l : List (Nat × CapSlot)) : ({ s with caps := l } : State).butFaulting =
  s.butFaulting := rfl
theorem State.butFaulting_free (s : State) (n : Nat) : ({ s with free := n } : State).butFaulting = s.butFaulting := rfl
theorem State.acc_of_butFaulting {s t : State} (h : t.butFaulting = s.butFaulting) (k : Nat) : t.acc k = s.acc k :=
  (congrArg (fun u : State => u.acc k) h :)
theorem State.el_of_butFaulting {s t : State} (h : t.butFaulting = s.butFaulting) (e a n : Nat) : t.el e a n = s.el e
  a n :=
  (congrArg (fun u : State => u.el e a n) h :)
theorem State.tileB_of_butFaulting {s t : State} (h : t.butFaulting = s.butFaulting) (k : Nat) : t.tileB k = s.tileB
  k :=
  (congrArg (fun u : State => u.tileB k) h :)
theorem State.tileB_of_butAccs {s t : State} (h : t.butAccs = s.butAccs) (k : Nat) : t.tileB k = s.tileB k :=
  (congrArg (fun u : State => u.tileB k) h :)

/-- A fault's record, held with a capture slot where one is free and its engine can replay. -/
def State.arithFiled (s : State) (e : Nat) (r : FRec) (unit sig : BitVec 32) (cap : Capture) : Option Nat → State
  | none => s.classify { r with lost := true, det0 := capDet 0xFF cap.pair }
  | some n =>
    let r := { r with det0 := capDet n cap.pair }
    if s.canReplay e ∧ (s.occur r).third r = false then
      let s := ({ s with caps := upsert s.caps n { unit := unit, sig := sig, cls := 3, cap := cap } } : State).showCaps
      (s.occur r).fileLimited { r with disp := 0 }
    else s.classify r

theorem State.arithFiled_butFaulting (s : State) (e : Nat) (r : FRec) (unit sig : BitVec 32) (cap : Capture)
    (n : Option Nat) : (s.arithFiled e r unit sig cap n).butFaulting = s.butFaulting := by
  cases n with
  | none => exact State.butFaulting_of_butRecords (State.classify_butRecords _ _)
  | some n =>
    unfold State.arithFiled
    dsimp only
    generalize ({ r with det0 := capDet n cap.pair } : FRec) = r'
    split
    · have h (t : State) (r : FRec) : ((t.showCaps.occur r').fileLimited r).butFaulting = t.butFaulting :=
        State.butFaulting_of_butRecords ((State.fileLimited_butRecords _ _).trans ((State.occur_butRecords _ _).trans
          (State.fset_butRecords _ _ _)))
      exact (h _ _).trans (State.butFaulting_caps _ _)
    · exact State.butFaulting_of_butRecords (State.classify_butRecords _ _)

/-- An accumulator's fault poisons the accumulator, and is filed or captured. -/
theorem State.arithFault_eq (s : State) (e : Nat) (q : QEnt) (a i diff : Nat) :
    ∃ r unit sig cap n, s.arithFault e q a i diff = (s.draw.2.poisonAcc e a).arithFiled e r unit sig cap n := by
  unfold State.arithFault
  dsimp only
  generalize List.find? _ _ = n
  generalize State.faultTask _ _ _ _ _ _ = r
  generalize Option.getD _ _ = cap
  cases n with
  | none => exact ⟨r, 0, 0, cap, none, rfl⟩
  | some n => exact ⟨r, _, _, cap, some n, rfl⟩

theorem State.arithFault_butFaulting (s : State) (e : Nat) (q : QEnt) (a i diff : Nat) :
    ∃ t : State, t.butFaulting = s.butFaulting ∧
      (s.arithFault e q a i diff).butFaulting = (t.poisonAcc e a).butFaulting := by
  obtain ⟨r, unit, sig, cap, n, h⟩ := s.arithFault_eq e q a i diff
  exact ⟨s.draw.2, State.butFaulting_free _ _, by rw [h, State.arithFiled_butFaulting]⟩

theorem State.arithFault_spec (s : State) (e : Nat) (q : QEnt) (a i diff : Nat) :
    (∀ n, n < 1024 → ((s.arithFault e q a i diff).el e a n).poison = true) ∧
    (∀ k, k / 1024 ≠ 8 * e + a → (s.arithFault e q a i diff).acc k = s.acc k) ∧
    ∀ k, (s.arithFault e q a i diff).tileB k = s.tileB k := by
  obtain ⟨t, ht, h⟩ := s.arithFault_butFaulting e q a i diff
  obtain ⟨p1, p2, p3⟩ := t.poisonAcc_spec e a
  generalize s.arithFault e q a i diff = u at *
  refine ⟨fun n hn => ?_, fun k hk => ?_, fun k => ?_⟩
  · rw [State.el_of_butFaulting h]
    exact p2 n hn
  · exact (State.acc_of_butFaulting h k).trans ((p3 k hk).trans (State.acc_of_butFaulting ht k))
  · exact (State.tileB_of_butFaulting h k).trans ((State.tileB_of_butAccs p1 k).trans (State.tileB_of_butFaulting ht k))

/-- An accumulator checked, as its unit's instruction names it. -/
def State.checkNamed (s : State) (e : Nat) (q : QEnt) : Option Nat → State
  | none => s
  | some a => s.checkAcc e q a
def State.checkUnit (s : State) (e : Nat) (u : Unit3) : Option QEnt → State
  | none => s
  | some q => s.checkNamed e q (accOf q.w u)

theorem exec_residueCheck (s : State) (p : Pos) (u : Unit3) :
    exec (.residueCheck p u) s = .next (s.checkUnit p.key u ((s.eng p.key).inUnit u)) := by
  have h : exec (.residueCheck p u) s = execResidueCheck p u s := rfl
  rw [h]
  unfold execResidueCheck
  dsimp only
  cases (s.eng p.key).inUnit u with
  | none => rfl
  | some q =>
    dsimp only [State.checkUnit]
    cases accOf q.w u <;> rfl

theorem residueCheck_completes {s : State} {p : Pos} {u : Unit3} {q : QEnt} {a : Nat}
    (hq : (s.eng p.key).inUnit u = some q) (ha : accOf q.w u = some a) :
    (s.residueBad p.key a = none → Completes (.residueCheck p u) s fun t => t = s) ∧
    (∀ i diff, s.residueBad p.key a = some (i, diff) → Completes (.residueCheck p u) s fun t =>
      (∀ n, n < 1024 → (t.el p.key a n).poison = true) ∧ (∀ k, k / 1024 ≠ 8 * p.key + a → t.acc k = s.acc k) ∧
      (∀ k, t.tileB k = s.tileB k) ∧ ∀ b, t.byte b = s.byte b) := by
  have he : exec (.residueCheck p u) s = .next (s.checkAcc p.key q a) := by
    rw [exec_residueCheck, hq, State.checkUnit, ha, State.checkNamed]
  have hm : (s.checkAcc p.key q a).memKey = s.memKey := s.checkAcc_memKey _ _ _
  refine ⟨fun hr => ⟨_, he, ?_⟩, fun i diff hr => ⟨_, he, ?_⟩⟩
  · unfold State.checkAcc
    rw [hr]
  · have hc : s.checkAcc p.key q a = s.arithFault p.key q a i diff := by
      unfold State.checkAcc
      rw [hr]
    rw [hc] at hm ⊢
    obtain ⟨f1, f2, f3⟩ := s.arithFault_spec p.key q a i diff
    exact ⟨f1, f2, f3, State.byte_of_memKey hm⟩

/-! ## A vector unit's and a collective node's residue (R313 to R315) -/

theorem State.setInst_inst_self (s : State) (k : Nat) (x : Inst) : (s.setInst k x).inst k = x := by
  have h (t : State) (f : Fld) (v : Nat) : (t.fset f v).inst k = t.inst k :=
    (congrArg (fun u : State => u.inst k) (t.fset_butRegs f v) :)
  rw [State.setInst, h]
  exact Sparse.get_set_self _ _ _ _

theorem State.eng_of_butRecords {s t : State} (h : t.butRecords = s.butRecords) (e : Nat) : t.eng e = s.eng e :=
  (congrArg (fun u : State => u.eng e) h :)
theorem State.inst_of_butRecords {s t : State} (h : t.butRecords = s.butRecords) (k : Nat) : t.inst k = s.inst k :=
  (congrArg (fun u : State => u.inst k) h :)
theorem State.tag_of_butRecords {s t : State} (h : t.butRecords = s.butRecords) (k : Nat) : t.tag k = s.tag k :=
  (congrArg (fun u : State => u.tag k) h :)

/-- A vector unit's operation whose residue is wrong, marked and filed. -/
def State.vectorMarked (s : State) (e : Nat) (u : ArithUnit) (sig : BitVec 32) : Option QEnt → State
  | some q => if vecOp q.w then
      ((s.modEng e fun x => { x with vbad := true }).unitFault u
        (s.faultTask e q.ctx (opc q.w) q.pc { unitRec (vectorUnit e) sig with poison := true })).2
    else s
  | none => s

theorem exec_vectorMismatch {lane diff : BitVec 6} (h0 : diff ≠ 0) (h63 : diff ≠ 63) (s : State) (p : Pos) :
    exec (.unitResidueMismatch (.vector p) lane diff) s =
      .next (s.vectorMarked p.key (.vector p) (unitSig lane diff) (s.eng p.key).runV) :=
  congrArg Host.Outcome.next ((if_neg (by rintro (h | h); exacts [h0 h, h63 h])).trans rfl)

theorem vectorMismatch_completes {s : State} {p : Pos} {q : QEnt} {lane diff : BitVec 6} (h0 : diff ≠ 0)
    (h63 : diff ≠ 63) (hq : (s.eng p.key).runV = some q) (hv : vecOp q.w = true) :
    Completes (.unitResidueMismatch (.vector p) lane diff) s fun t =>
      (t.eng p.key).vbad = true ∧ (∀ e, e ≠ p.key → t.eng e = s.eng e) ∧ ∀ b, t.byte b = s.byte b := by
  refine ⟨_, exec_vectorMismatch h0 h63 s p, ?_⟩
  rw [hq, State.vectorMarked, if_pos hv]
  generalize (s.faultTask p.key q.ctx (opc q.w) q.pc
    { unitRec (vectorUnit p.key) (unitSig lane diff) with poison := true }) = r
  have hself := s.modEng_eng_self p.key fun x => { x with vbad := true }
  have hother (e : Nat) (he : e ≠ p.key) : (s.modEng p.key fun x => { x with vbad := true }).eng e = s.eng e := by
    rw [State.modEng_eng, if_neg he]
  have hm : (s.modEng p.key fun x => { x with vbad := true }).memKey = s.memKey := s.modEng_memKey' _ _
  generalize (s.modEng p.key fun x => { x with vbad := true }) = t at *
  have hb := t.unitFault_butRecords (.vector p) r
  refine ⟨?_, fun e he => (State.eng_of_butRecords hb e).trans (hother e he),
    State.byte_of_memKey ((State.memKey_of_butRecords hb).trans hm)⟩
  rw [State.eng_of_butRecords hb, hself]

theorem exec_collectiveMismatch {lane diff : BitVec 6} {s : State} {g : BitVec 12} {i : BitVec 16} (h0 : diff ≠ 0)
    (h63 : diff ≠ 63) (hj : (s.inst (instKey g.toNat i.toNat)).joined ≠ [])
    (ho : (s.inst (instKey g.toNat i.toNat)).op = 0 ∨ (s.inst (instKey g.toNat i.toNat)).op = 3)
    (hr : (s.inst (instKey g.toNat i.toNat)).rooted = false) :
    exec (.unitResidueMismatch (.collective g i) lane diff) s =
      .next ((s.setInst (instKey g.toNat i.toNat) { s.inst (instKey g.toNat i.toNat) with hurt := true }).unitFault
        (.collective g i) { unitRec (blockUnit 9) (unitSig lane diff) with poison := true }).2 := by
  refine congrArg Host.Outcome.next ((if_neg (by rintro (h | h); exacts [h0 h, h63 h])).trans (if_neg ?_))
  rintro (h | ⟨h, h'⟩ | h)
  · exact hj h
  · tauto
  · rw [hr] at h
    exact absurd h (by decide)

theorem collectiveMismatch_completes {s : State} {g : BitVec 12} {i : BitVec 16} {lane diff : BitVec 6} (h0 : diff ≠ 0)
    (h63 : diff ≠ 63) (hj : (s.inst (instKey g.toNat i.toNat)).joined ≠ [])
    (ho : (s.inst (instKey g.toNat i.toNat)).op = 0 ∨ (s.inst (instKey g.toNat i.toNat)).op = 3)
    (hr : (s.inst (instKey g.toNat i.toNat)).rooted = false) :
    Completes (.unitResidueMismatch (.collective g i) lane diff) s fun t =>
      (t.inst (instKey g.toNat i.toNat)).hurt = true ∧ ∀ b, t.byte b = s.byte b := by
  refine ⟨_, exec_collectiveMismatch h0 h63 hj ho hr, ?_⟩
  generalize ({ unitRec (blockUnit 9) (unitSig lane diff) with poison := true } : FRec) = r
  generalize instKey g.toNat i.toNat = k at *
  have hself := s.setInst_inst_self k { s.inst k with hurt := true }
  have hm : (s.setInst k { s.inst k with hurt := true }).memKey = s.memKey := s.setInst_memKey _ _
  generalize s.setInst k { s.inst k with hurt := true } = t at *
  have hb := t.unitFault_butRecords (.collective g i) r
  refine ⟨?_, State.byte_of_memKey ((State.memKey_of_butRecords hb).trans hm)⟩
  rw [State.inst_of_butRecords hb, hself]

/-! ## Sequencers and watchdogs (R88, R316) -/

theorem State.inReset_classify {s : State} {e : Nat} (h : s.inReset e) (r : FRec) : (s.classify r).inReset e := by
  have hb := s.classify_butRecords r
  obtain ⟨h1, h2, h3⟩ := h
  refine ⟨?_, ?_, fun k hk => (State.tag_of_butRecords hb _).trans (h3 k hk)⟩
  · rw [State.eng_of_butRecords hb, h1]
  · rw [State.eng_of_butRecords hb, h2]

theorem lockstepEngine_completes (s : State) (p : Pos) (point : BitVec 32) :
    Completes (.lockstepMismatch (.engine p) point) s fun t => (t.eng p.key).resetting = true ∧
      (t.eng p.key).ents = [] ∧ ∀ k, k < 64 → (t.tag (64 * p.key + k)) = {} :=
  ⟨_, rfl, State.inReset_classify (s.resetEngine_inReset p.key) _⟩

theorem handshakeWatchdog_completes (s : State) (p : Pos) (point : BitVec 32) :
    Completes (.handshakeWatchdog p point) s fun t => (t.eng p.key).resetting = true ∧
      (t.eng p.key).ents = [] ∧ ∀ k, k < 64 → (t.tag (64 * p.key + k)) = {} :=
  ⟨_, rfl, State.inReset_classify (s.resetEngine_inReset p.key) _⟩

theorem lockstepCluster_completes (s : State) (u : Clu) (point : BitVec 32) :
    Completes (.lockstepMismatch (.cluster u) point) s fun t => u.key ∈ t.clReset := by
  have he : exec (.lockstepMismatch (.cluster u) point) s =
    .next ((s.resetCluster u.key).classify { cls := 4, unit := cluUnit u.key, sig := point }) := rfl
  refine ⟨_, he, ?_⟩
  have h := s.resetCluster_mem u.key
  generalize s.resetCluster u.key = t at *
  have hb (r : FRec) : (t.classify r).clReset = t.clReset := (congrArg State.clReset (t.classify_butRecords r) :)
  dsimp only
  rw [hb]
  exact h

theorem lockstepRiffler_completes {s : State} {n : Fin 4} (hn : s.rifUp n = true) (hu : s.upd = none) (hr : s.roots =
  [])
    (point : BitVec 32) : Completes (.lockstepMismatch (.riffler n) point) s fun t =>
      t.fget (F.RIF_STATUS_STATE n) = 3 ∧ ∀ b, t.byte b = s.byte b := by
  have he : exec (.lockstepMismatch (.riffler n) point) s = .next ((s.resetRiffler n).classify
    { cls := 4, unit := BitVec.ofNat 32 (0xA0000000 + n.val), sig := point }) := rfl
  refine ⟨_, he, ?_⟩
  obtain ⟨h1, -, h3⟩ := State.resetRiffler_spec hn hu hr
  generalize s.resetRiffler n = t at *
  refine ⟨(State.fget_of_calmRegs (t.classify_calmRegs _) (rifStatus_calm n)).trans h1, fun a => ?_⟩
  exact (State.byte_of_memKey (State.memKey_of_butRecords (t.classify_butRecords _)) a).trans (h3 a)

/-! ## A core that is silent (R160) -/

/-- A silent core halts queue `q` if it serves it. -/
def State.haltServedQ (served : BitVec 16) (s : State) (q : Nat) : State :=
  if served.getLsbD q && s.flag (F.PLN_CQ_CFG_OWNER q) then s.haltQ q 4 else s

theorem State.haltServedQ_reg (served : BitVec 16) (s : State) (q : Nat) {k : Nat} (h : k ≠ Reg.PLN_CQ_STATUS q) :
    (s.haltServedQ served q).reg k = s.reg k := by
  unfold State.haltServedQ
  split
  · exact s.haltQ_reg q 4 h
  · rfl

theorem State.haltServedQs_reg (served : BitVec 16) (l : List Nat) (s : State) {k : Nat}
    (h : ∀ q ∈ l, k ≠ Reg.PLN_CQ_STATUS q) : (l.foldl (State.haltServedQ served) s).reg k = s.reg k :=
  List.foldlRecOn (motive := fun t : State => t.reg k = s.reg k) _ _ rfl fun t ht q hq =>
    (t.haltServedQ_reg served q (h q hq)).trans ht

/-- A served queue of the list is halted; one that was not takes the cause. -/
theorem State.haltServedQs_status (served : BitVec 16) (l : List Nat) (hl : l.Nodup) (s : State) {q : Nat} (hq : q ∈ l)
    (hs : served.getLsbD q = true) (ho : s.flag (F.PLN_CQ_CFG_OWNER q) = true) :
    (l.foldl (State.haltServedQ served) s).flag (F.PLN_CQ_STATUS_HALT q) = true ∧
      (s.flag (F.PLN_CQ_STATUS_HALT q) = false →
        (l.foldl (State.haltServedQ served) s).fget (F.PLN_CQ_STATUS_HCAUSE q) = 4) := by
  induction l generalizing s with
  | nil => simp at hq
  | cons p l ih =>
    obtain ⟨hp, hl⟩ := List.nodup_cons.1 hl
    rw [List.foldl_cons]
    by_cases h : q = p
    · subst h
      have hreg := (State.haltServedQs_reg served l (State.haltServedQ served s q) fun r hr =>
        statusReg_inj fun e : q = r => hp (e ▸ hr) : _ = _)
      have hq' : State.haltServedQ served s q = s.haltQ q 4 := if_pos (by rw [hs, ho]; rfl)
      rw [hq'] at hreg ⊢
      exact ⟨(State.flag_of_reg hreg).trans (s.haltQ_halted q 4),
        fun hn => (State.fget_of_reg hreg).trans (State.haltQ_cause hn (by decide))⟩
    · have hc : (State.haltServedQ served s p).flag (F.PLN_CQ_CFG_OWNER q) = true :=
        (State.flag_of_reg (s.haltServedQ_reg served p (cfgReg_ne_statusReg q p))).trans ho
      have hst : (State.haltServedQ served s p).flag (F.PLN_CQ_STATUS_HALT q) = s.flag (F.PLN_CQ_STATUS_HALT q) :=
        State.flag_of_reg (s.haltServedQ_reg served p (statusReg_inj h))
      obtain ⟨i1, i2⟩ := ih hl (State.haltServedQ served s p) ((List.mem_cons.1 hq).resolve_left h) hc
      exact ⟨i1, fun hn => i2 (hst.trans hn)⟩

theorem cqStatus_calm (q : Fin 16) : recordReg (Reg.PLN_CQ_STATUS q) = false := by
  revert q
  decide

theorem State.haltServedQs_memKey (served : BitVec 16) (l : List Nat) (s : State) :
    (l.foldl (State.haltServedQ served) s).memKey = s.memKey :=
  List.foldlRecOn (motive := fun t : State => t.memKey = s.memKey) _ _ rfl fun t ht q _ => by
    unfold State.haltServedQ
    split
    · exact (t.haltQ_memKey q 4).trans ht
    · exact ht

theorem heartbeatMiss_completes (s : State) (core : BitVec 8) (served : BitVec 16) :
    Completes (.heartbeatMiss core served) s fun t =>
      (∀ q : Fin 16, served.getLsbD q = true → s.flag (F.PLN_CQ_CFG_OWNER q) = true →
        t.flag (F.PLN_CQ_STATUS_HALT q) = true ∧
        (s.flag (F.PLN_CQ_STATUS_HALT q) = false → t.fget (F.PLN_CQ_STATUS_HCAUSE q) = 4)) ∧
      ∀ b, t.byte b = s.byte b := by
  have hm := State.haltServedQs_memKey served (List.range 16) s
  have hq (q : Fin 16) := State.haltServedQs_status served (List.range 16) List.nodup_range s (List.mem_range.mpr
    q.isLt)
  have he : exec (.heartbeatMiss core served) s =
    .next (((List.range 16).foldl (State.haltServedQ served) s).classify
      { cls := 4, unit := blockUnit 0, sig := BitVec.ofNat 32 core.toNat }) := rfl
  refine ⟨_, he, ?_⟩
  generalize (List.range 16).foldl (State.haltServedQ served) s = t at *
  have hc := t.classify_calmRegs { cls := 4, unit := blockUnit 0, sig := BitVec.ofNat 32 core.toNat }
  refine ⟨fun q hs ho => ?_, State.byte_of_memKey ((State.memKey_of_butRecords (t.classify_butRecords _)).trans hm)⟩
  obtain ⟨h1, h2⟩ := hq q hs ho
  exact ⟨(State.flag_of_calmRegs hc (cqStatus_calm q)).trans h1,
    fun hn => (State.fget_of_calmRegs hc (cqStatus_calm q)).trans (h2 hn)⟩

/-! ## Sensors and service time (R322, R357) -/

theorem sensorCheck_off {s : State} {k : BitVec 10} (hg : s.gone.contains k.toNat = false)
    (he : s.excl.contains k.toNat = false) : Completes (.sensorCheck k true) s fun t =>
      t.excl = s.excl ++ [k.toNat] ∧ ∀ b, t.byte b = s.byte b := by
  refine ⟨_, congrArg Host.Outcome.next ((if_neg (by rw [hg]; decide)).trans ((if_pos rfl).trans
    (if_neg (by rw [he]; decide)))), ?_⟩
  have hx (t : State) (r : FRec) : (t.classify r).excl = t.excl := (congrArg State.excl (t.classify_butRecords r) :)
  have hm (t : State) (r : FRec) : (t.classify r).memKey = t.memKey := State.memKey_of_butRecords
    (t.classify_butRecords r)
  have hs : ({ s with excl := s.excl ++ [k.toNat] } : State).memKey = s.memKey := rfl
  exact ⟨hx _ _, State.byte_of_memKey ((hm _ _).trans hs)⟩

theorem sensorCheck_on {s : State} {k : BitVec 10} (hg : s.gone.contains k.toNat = false)
    (he : s.excl.contains k.toNat = true)
    (hp : s.isPermanent { cls := 0x0F, unit := sensorUnit k.toNat, sig := BitVec.ofNat 32 k.toNat } = false) :
    Completes (.sensorCheck k false) s fun t =>
      t.excl = s.excl.filter (· ≠ k.toNat) ∧ { t with excl := s.excl } = s :=
  ⟨_, congrArg Host.Outcome.next ((if_neg (by rw [hg]; decide)).trans ((if_neg (by decide)).trans (if_pos ⟨he, hp⟩))),
    rfl, rfl⟩

theorem wplLane_svc : ∀ p, p < 12 → Reg.FLT_SVC_TIME ≠ (F.WPL_LANE_WINDOW p).key := fun p hp =>
  (wplLane_ne ⟨p, hp⟩).2.2.2.2.2.2

theorem serviceTimeTick_completes {s : State} (ha : s.power.auxUp = true) : Completes .serviceTimeTick s fun t =>
    t.reg Reg.FLT_SVC_TIME = s.reg Reg.FLT_SVC_TIME + 1 ∧ ∀ b, t.byte b = s.byte b := by
  refine ⟨_, congrArg Host.Outcome.next (if_neg (by rw [ha]; decide)), ?_⟩
  dsimp only
  have hr := (State.setReg_reg_self s Reg.FLT_SVC_TIME (s.svc + 1))
  have hm := s.setReg_memKey' Reg.FLT_SVC_TIME (s.svc + 1)
  generalize s.setReg Reg.FLT_SVC_TIME (s.svc + 1) = t at *
  have hw := t.showWindows_reg wplLane_svc
  have hwm : t.showWindows.memKey = t.memKey := State.foldl_memKey _ (fun t p => t.showWindow_memKey p) _ _
  generalize t.showWindows = u at *
  refine ⟨(State.fset_reg_ne _ _ _ _ (by decide)).trans (hw.trans hr), State.byte_of_memKey
    ((u.fset_memKey' _ _).trans (hwm.trans hm))⟩

/-- Settles O48, command by command. -/
theorem faultsAreDetected : Obligations.FaultsAreDetected := fun s =>
  ⟨fun _ _ _ _ hq ha => residueCheck_completes hq ha,
   fun _ _ _ _ h0 h63 => ⟨fun hq hv => vectorMismatch_completes h0 h63 hq hv,
     fun _ _ hj ho hr => collectiveMismatch_completes h0 h63 hj ho hr⟩,
   fun p point => ⟨lockstepEngine_completes s p point, handshakeWatchdog_completes s p point,
     fun u => lockstepCluster_completes s u point⟩,
   fun _ point hn hu hr => lockstepRiffler_completes hn hu hr point,
   heartbeatMiss_completes s,
   fun _ hg => ⟨sensorCheck_off hg, sensorCheck_on hg⟩,
   serviceTimeTick_completes⟩

end Sys2Proof.Machine
end

section
/-! SUPPORT. The patrol scrub of a word that a burst error makes uncorrectable while its own check bits are good. -/
namespace Sys2Proof.Machine

/-! ## The BUSY bit of every stack at reset -/

/-- The reset value of a table row. -/
def RegRow.value (r : RegRow) : BitVec 32 := r.fields.foldl (fun v f => v ||| (BitVec.ofNat 32 f.reset <<< f.lo)) 0

/-- A row whose bit 31 is 0 at reset, or that stands at no offset 4 of a block from 0x58 on. -/
def RegRow.calmBusy (r : RegRow) : Bool :=
  !r.value.getLsbD 31 || decide (r.blk + r.nblk ≤ 0x58) || decide (4 < r.off) ||
    (decide (r.off ≠ 4) && r.stride == 0 && r.stride2 == 0)

theorem regTable_calmBusy : ∀ r ∈ regTable, r.calmBusy = true := by decide +kernel

theorem RegRow.value_of_has {r : RegRow} {d : Nat} (hc : r.calmBusy = true) (hh : r.has (Reg.MEM_SRAM_STATUS d) =
  true) :
    r.value.getLsbD 31 = false := by
  have hb : Reg.MEM_SRAM_STATUS d / 0x10000 = 0x58 + d := by unfold Reg.MEM_SRAM_STATUS; omega
  have ho : Reg.MEM_SRAM_STATUS d % 0x10000 = 4 := by unfold Reg.MEM_SRAM_STATUS; omega
  unfold RegRow.has at hh
  rw [hb, ho] at hh
  simp only [Bool.and_eq_true, decide_eq_true_eq, List.any_eq_true, List.mem_range] at hh
  obtain ⟨⟨-, hlt⟩, j, -, ⟨hoff, -⟩, hat⟩ := hh
  unfold RegRow.calmBusy at hc
  simp only [Bool.or_eq_true, Bool.and_eq_true, Bool.not_eq_true', decide_eq_true_eq, beq_iff_eq] at hc
  obtain ((h | h) | h) | ⟨⟨h, h0⟩, h2⟩ := hc
  · exact h
  · omega
  · omega
  · rw [if_pos h0, h2] at hat
    simp only [beq_iff_eq] at hat
    omega

theorem Reg.reset_busy (d : Nat) : (Reg.reset (Reg.MEM_SRAM_STATUS d)).getLsbD 31 = false := by
  have hb : Reg.MEM_SRAM_STATUS d / 0x10000 = 0x58 + d := by unfold Reg.MEM_SRAM_STATUS; omega
  have ho : Reg.MEM_SRAM_STATUS d % 0x10000 = 4 := by unfold Reg.MEM_SRAM_STATUS; omega
  have hk (c : Nat) (h : c % 0x10000 ≠ 4) : Reg.MEM_SRAM_STATUS d ≠ c := fun e => h (e ▸ ho)
  unfold Reg.reset
  dsimp only
  rw [hb, ho, if_neg (hk _ (by decide)), if_neg (hk _ (by decide)), if_neg (hk _ (by decide)), if_neg (by omega),
    if_neg (by omega)]
  cases h : Reg.row (Reg.MEM_SRAM_STATUS d) with
  | none => rfl
  | some r =>
    exact RegRow.value_of_has (regTable_calmBusy r (List.mem_of_find?_eq_some h)) (List.find?_some (p := fun r :
      RegRow => r.has (Reg.MEM_SRAM_STATUS d)) h)

/-! ## A word in a burst -/

/-- A package at READY whose first 64 bytes of HBM a burst error has hit. -/
def burstState : State := { State.reset.fset F.PLN_BOOT_STEP 11 with bursts := [0] }

theorem burstState_busy (d : Nat) : burstState.flag (F.MEM_SRAM_STATUS_BUSY d) = false := by
  have hk : Reg.MEM_SRAM_STATUS d ≠ Reg.PLN_BOOT := by unfold Reg.MEM_SRAM_STATUS Reg.PLN_BOOT; omega
  have hr : burstState.reg (Reg.MEM_SRAM_STATUS d) = Reg.reset (Reg.MEM_SRAM_STATUS d) :=
    (State.fset_reg_ne State.reset F.PLN_BOOT_STEP 11 _ hk : _)
  have hbit := Reg.reset_busy d
  have hv (x : BitVec 32) : (x >>> 31).toNat % 2 ^ 1 = (x.getLsbD 31).toNat := by
    rw [pow_one, BitVec.getLsbD, BitVec.toNat_ushiftRight, Nat.testBit_eq_decide_div_mod_eq, Nat.shiftRight_eq_div_pow]
    rcases Nat.mod_two_eq_zero_or_one (x.toNat / 2 ^ 31) with h | h <;> rw [h] <;> rfl
  have hf : burstState.fget (F.MEM_SRAM_STATUS_BUSY d) =
      ((Reg.reset (Reg.MEM_SRAM_STATUS d)) >>> 31).toNat % 2 ^ 1 :=
    congrArg (fun x : BitVec 32 => (x >>> 31).toNat % 2 ^ 1) hr
  rw [State.flag, hf, hv, hbit]
  rfl

/-- A word stored with poison is in poison form. -/
theorem State.store_syn (s : State) (a : Nat) (v : BitVec 32) : (s.store a ⟨v, true⟩).syn a = 0x7F := by
  unfold State.syn State.store
  exact Sparse.get_set_self (fun _ => (0 : BitVec 7)) _ _ 0x7F

theorem State.scrubProgress_syn (s : State) (k : Tier) (a b : Nat) : (s.scrubProgress k a).syn b = s.syn b := by
  have h : (s.scrubProgress k a).butRegs = s.butRegs := by
    unfold State.scrubProgress
    dsimp only
    have hstep : ∀ (base size : Nat) (t : State) (u : Nat), (if a / 4 * 4 + 4 = base + size then
        (t.fset (F.MEM_H_SCRUB_PCT u) 0).fwrap (F.MEM_H_SCRUB_PASSES u) 1
        else t.fset (F.MEM_H_SCRUB_PCT u) (100 * (a - base) / size)).butRegs = t.butRegs := by
      intro base size t u
      split
      · exact (State.fset_butRegs _ _ _).trans (State.fset_butRegs _ _ _)
      · exact State.fset_butRegs _ _ _
    split
    · exact List.foldlRecOn (motive := fun t : State => t.butRegs = s.butRegs) _ _ rfl fun t ht u _ => (hstep _ _ t
      u).trans ht
    · exact List.foldlRecOn (motive := fun t : State => t.butRegs = s.butRegs) _ _ rfl fun t ht u _ => (hstep _ _ t
      u).trans ht
    · rfl
  exact (congrArg (fun t : State => t.syn b) h :)

/-- The patrol scrub of a word in a burst puts it in poison form, whatever its own check bits. -/
theorem patrolScrub_burst {s : State} {k : Tier} {x : BitVec 48} {t : State} (he : s.flag F.MEM_SCRUB_EN = true)
    (hi : inTier k (s.locate (x.toNat / 4 * 4)) = true) (hw : s.memWaits (x.toNat / 4 * 4) = false)
    (hh : s.hole (s.locate (x.toNat / 4 * 4)) = false) (hc : s.cache = [])
    (hb : s.burstBad (x.toNat / 4 * 4) = true) (hx : exec (.patrolScrub k x) s = .next t) :
    t.syn (x.toNat / 4 * 4) = 0x7F := by
  have heq : exec (.patrolScrub k x) s = execPatrolScrub k x s := rfl
  rw [heq] at hx
  unfold execPatrolScrub at hx
  dsimp only at hx
  generalize x.toNat / 4 * 4 = a at *
  rw [if_neg (by rw [he, hi, hw]; simp), hc, hh, hb, if_neg (by cases s.locate a <;> simp), if_pos (by simp)] at hx
  cases hx
  rw [State.scrubProgress_syn, State.store_syn]

/-- Refutes O49: the patrol scrub stores a word in poison form when a burst error makes it uncorrectable, also where the
word's own check bits are good; the third clause says that those check bits then stay. -/
theorem not_replaysScrubAndLoupe : ¬ Obligations.ReplaysScrubAndLoupe := by
  unfold Obligations.ReplaysScrubAndLoupe
  intro h
  obtain ⟨-, -, hscrub, -⟩ := h burstState
  obtain ⟨t, ht, -, -, hgood, -⟩ := hscrub .hbm 0 (by decide +kernel) (by decide +kernel) (by decide +kernel)
    (by decide +kernel) burstState_busy
  have hsyn := patrolScrub_burst (by decide +kernel) (by decide +kernel) (by decide +kernel) (by decide +kernel) rfl
    (by decide +kernel) ht
  have hkeep := (hgood (by decide +kernel)).1
  rw [hsyn] at hkeep
  exact absurd hkeep (by decide +kernel)

end Sys2Proof.Machine
end

section
/-! SUPPORT. The system instructions TRET and TCAP, and a capsule's run (R150, R337, R338). -/
namespace Sys2Proof.Machine

/-! ## TRET -/

/-- A unit recorded for retirement, once. -/
def State.retireNoted (s : State) (u : BitVec 32) : State :=
  if s.retire.contains u then s else ({ s with retire := s.retire ++ [u] } : State).faultN 1

theorem execTret_issues {s : State} {c : Cx} {w : BitVec 56} (hb : ∀ k, (s.eng c.pos.key).scalarBusy c.ctx.val k = false)
    (h : s.issues c (0xE0#8 ++ w) (legalTRET (0xE0#8 ++ w) && (s.ctx c.key).task.any (·.sys))) :
    ∃ n, exec (.tret c w) s = .next (((s.atEngine c.pos.key).retireNoted
      ((s.ctx c.key).s (tcRI (0xE0#8 ++ w)))).setCtx c.key ((s.ctx c.key).past (0xE0#8 ++ w) n)) := by
  refine ⟨((s.atEngine c.pos.key).retireNoted ((s.ctx c.key).s (tcRI (0xE0#8 ++ w)))).nextTurn c.pos.key,
    congrArg Host.Outcome.next ((State.atIssue_of_issues _ _ _ _ _ h).trans ?_)⟩
  dsimp only
  rw [State.atEngine_scalarHeld hb, if_neg Bool.false_ne_true]
  rfl

theorem State.retireNoted_spec (s : State) (u : BitVec 32) : u ∈ (s.retireNoted u).retire ∧
    (∀ v ∈ s.retire, v ∈ (s.retireNoted u).retire) ∧ (s.retireNoted u).memKey = s.memKey := by
  unfold State.retireNoted
  split
  next h => exact ⟨List.contains_iff_mem.mp h, fun _ hv => hv, rfl⟩
  next =>
    have hr (t : State) : (t.faultN 1).retire = t.retire := by
      unfold State.faultN
      split <;> rfl
    have hm (t : State) : (t.faultN 1).memKey = t.memKey := t.faultN_memKey 1
    rw [hr]
    exact ⟨List.mem_append_right _ (List.mem_singleton_self _), fun _ hv => List.mem_append_left _ hv, hm _⟩

theorem State.atEngine_retire (s : State) (e : Nat) : (s.atEngine e).retire = s.retire :=
  (congrArg State.retire (s.atEngine_frame e) :)
theorem State.atEngine_memKey (s : State) (e : Nat) : (s.atEngine e).memKey = s.memKey :=
  (congrArg State.memKey (s.atEngine_frame e) :)

theorem tret_completes {s : State} {c : Cx} {w : BitVec 56} (hb : ∀ k, (s.eng c.pos.key).scalarBusy c.ctx.val k = false)
    (h : s.issues c (0xE0#8 ++ w) (legalTRET (0xE0#8 ++ w) && (s.ctx c.key).task.any (·.sys))) :
    Completes (.tret c w) s fun t =>
      (s.ctx c.key).s (tcRI (0xE0#8 ++ w)) ∈ t.retire ∧ (∀ u ∈ s.retire, u ∈ t.retire) ∧
      (t.ctx c.key).pc = (s.ctx c.key).pc + 1 ∧ (t.ctx c.key).st = .run ∧ ∀ a, t.byte a = s.byte a := by
  obtain ⟨n, he⟩ := execTret_issues hb h
  have h1 : wordsOf (0xE0#8 ++ w) = 1 := wordsOf_eq_one (by have := h.2.2.1; simp_all [legalTRET])
  refine ⟨_, he, ?_⟩
  generalize (s.ctx c.key).s (tcRI (0xE0#8 ++ w)) = u
  obtain ⟨r1, r2, r3⟩ := (s.atEngine c.pos.key).retireNoted_spec u
  rw [s.atEngine_retire] at r2
  have hm := r3.trans (s.atEngine_memKey c.pos.key)
  generalize (s.atEngine c.pos.key).retireNoted u = t at *
  have hs (x : Ctx) : (t.setCtx c.key x).memKey = t.memKey := t.setCtx_memKey' _ _
  rw [State.setCtx_ctx_self]
  exact ⟨r1, r2, congrArg _ h1, rfl, State.byte_of_memKey ((hs _).trans hm)⟩

/-! ## TCAP -/

theorem execTcap_issues {s : State} {c : Cx} {w : BitVec 56} (hb : ∀ k, (s.eng c.pos.key).scalarBusy c.ctx.val k = false)
    (h : s.issues c (0xE1#8 ++ w) (legalTCAP (0xE1#8 ++ w) && (s.ctx c.key).task.any (·.sys))) :
    exec (.tcap c w) s = .next ((s.atEngine c.pos.key).setCtx c.key
      { ((s.ctx c.key).past (0xE1#8 ++ w) (s.nextTurn c.pos.key)).wait 8 0 s.now with
        cap := some (((s.ctx c.key).s (tcRI (0xE1#8 ++ w))).toNat % 256, tcRD (0xE1#8 ++ w)) }) := by
  refine congrArg Host.Outcome.next ((State.atIssue_of_issues _ _ _ _ _ h).trans ?_)
  dsimp only
  rw [State.atEngine_scalarHeld hb, State.atEngine_nextTurn, State.atEngine_now, if_neg Bool.false_ne_true]
  rfl

theorem tcap_completes {s : State} {c : Cx} {w : BitVec 56} (hb : ∀ k, (s.eng c.pos.key).scalarBusy c.ctx.val k = false)
    (h : s.issues c (0xE1#8 ++ w) (legalTCAP (0xE1#8 ++ w) && (s.ctx c.key).task.any (·.sys))) :
    Completes (.tcap c w) s fun t =>
      (t.ctx c.key).st = .wait ∧ (t.ctx c.key).why = 8 ∧
      (t.ctx c.key).cap = some (((s.ctx c.key).s (tcRI (0xE1#8 ++ w))).toNat % 256, tcRD (0xE1#8 ++ w)) ∧
      s.issueFrame t c := by
  refine ⟨_, execTcap_issues hb h, ?_⟩
  dsimp only
  rw [State.setCtx_ctx_self]
  exact ⟨rfl, rfl, rfl, (s.atEngine_issueFrame c).setCtx _⟩

/-! ## A capsule's run -/

/-- What a context is once its capsule has run. -/
def Ctx.capRun (x : Ctx) (rd res : Nat) : Ctx := { (x.setS rd (BitVec.ofNat 32 res)).resume with cap := none }

/-- A capsule that has run on an engine: a result that differs is a fault of the engine. -/
def State.capRun (s : State) (c : Cx) (i rd : Nat) (ok : Bool) : State :=
  let res := s.tcapResult c.pos.key i ok
  let t := if res = 1 then s.permanent 0x11 (engineUnit c.pos.key) (BitVec.ofNat 32 i) else s
  (t.settle c.pos.key).setCtx c.key ((s.ctx c.key).capRun rd res)

theorem execTcapRun_of {s : State} {c : Cx} {i rd : Nat} (hc : (s.ctx c.key).cap = some (i, rd))
    (ho : s.othersIdle c.pos.key c.ctx.val = true) (hr : s.canRun c.pos.key = true) (hw : (s.ctx c.key).st = .wait)
    (ok : Bool) : exec (.tcapRun c ok) s = .next (s.capRun c i rd ok) := by
  have heq : exec (.tcapRun c ok) s = execTcapRun c ok s := rfl
  rw [heq]
  unfold execTcapRun
  dsimp only
  rw [hc]
  dsimp only
  rw [if_neg (by rw [ho, hr, hw]; simp)]
  rfl

/-- The four results of a capsule's run. -/
theorem State.tcapResult_eq (s : State) (e i : Nat) (ok : Bool) : BitVec.ofNat 32 (s.tcapResult e i ok) =
    if s.capLife = false then 3
    else if (lookup s.capsules i).all (fun z => z.size == 0) then 2
    else if ok && (lookup s.capsules i).all (s.capMatches e) then 0 else 1 := by
  unfold State.tcapResult
  cases s.capLife with
  | false => rfl
  | true =>
    cases lookup s.capsules i with
    | none => rfl
    | some z =>
      simp only [Bool.not_true, Bool.false_eq_true, if_false, Option.all_some, beq_iff_eq]
      split
      · rfl
      · split <;> rfl

theorem Ctx.capRun_s (x : Ctx) (rd res k : Nat) : (x.capRun rd res).s k = if k = rd then BitVec.ofNat 32 res else x.s k :=
  x.setS_s rd _ k

theorem tcapRun_completes {s : State} {c : Cx} {i rd : Nat} (hc : (s.ctx c.key).cap = some (i, rd))
    (ho : s.othersIdle c.pos.key c.ctx.val = true) (hr : s.canRun c.pos.key = true) (hw : (s.ctx c.key).st = .wait)
    (ok : Bool) : Completes (.tcapRun c ok) s fun t =>
      (t.ctx c.key).cap = none ∧ (t.ctx c.key).st = (if (s.ctx c.key).stopped then .drain else .run) ∧
      (t.ctx c.key).s rd =
        (if s.capLife = false then 3
         else if (lookup s.capsules i).all (fun z => z.size == 0) then 2
         else if ok && (lookup s.capsules i).all (s.capMatches c.pos.key) then 0 else 1) ∧
      (∀ r, r ≠ rd → (t.ctx c.key).s r = (s.ctx c.key).s r) ∧ ∀ a, t.byte a = s.byte a := by
  refine ⟨_, execTcapRun_of hc ho hr hw ok, ?_⟩
  have hm : (s.capRun c i rd ok).memKey = s.memKey := by
    unfold State.capRun
    dsimp only
    refine (State.setCtx_memKey' _ _ _).trans ((State.settle_memKey _ _).trans ?_)
    split
    · exact State.permanent_memKey _ _ _ _
    · rfl
  have hx : (s.capRun c i rd ok).ctx c.key = (s.ctx c.key).capRun rd (s.tcapResult c.pos.key i ok) :=
    State.setCtx_ctx_self _ _ _
  dsimp only
  rw [hx, Ctx.capRun_s, if_pos rfl, State.tcapResult_eq]
  exact ⟨rfl, rfl, rfl, fun r hr => by rw [Ctx.capRun_s, if_neg hr], State.byte_of_memKey hm⟩

/-- Settles O34, instruction by instruction. -/
theorem systemInstructions : Obligations.SystemInstructions := fun _ _ _ hb =>
  ⟨tret_completes hb, tcap_completes hb, fun ok _ _ hc ho hr hw => tcapRun_completes hc ho hr hw ok⟩

end Sys2Proof.Machine
end

section
/-! SUPPORT. A command that is read from its ring and started at once (R152 to R154), and its end. -/
namespace Sys2Proof.Machine

/-! ## From the ring to the start -/

/-- Everything but registers, the queues and the fence. -/
def State.butQueues (s : State) : State := { s with regs := [], cqs := [], fence := none }

theorem State.butQueues_of_butRegs {s t : State} (h : t.butRegs = s.butRegs) : t.butQueues = s.butQueues :=
  congrArg (fun u : State => { u with cqs := [], fence := none }) h
theorem State.setCq_butQueues (s : State) (q : Nat) (x : CQ) : (s.setCq q x).butQueues = s.butQueues := rfl
theorem State.butQueues_fence (s : State) (f : Option (Nat × BitVec 32)) :
    ({ s with fence := f } : State).butQueues = s.butQueues := rfl
theorem State.memKey_of_butQueues {s t : State} (h : t.butQueues = s.butQueues) : t.memKey = s.memKey :=
  (congrArg State.memKey h :)
theorem State.now_of_butQueues {s t : State} (h : t.butQueues = s.butQueues) : t.now = s.now :=
  (congrArg State.now h :)

/-- A command that has been read, in its queue. -/
def State.readCmd (s : State) (q : Nat) (h : BitVec 64) (p : Payload) : State :=
  (s.setCq q { s.cq q with
    next := some (hdSEQ h + 1), read := (s.cq q).read ++ [(h, p)], total := (s.cq q).total + 1 }).fwrap
      (F.PLN_CQ_STATUS_HEAD q) 1

theorem State.takeCmd_cases (s : State) (q : Nat) (h : BitVec 64) (p : Payload) :
    s.takeCmd q h p = s.haltQ q 1 ∨ s.takeCmd q h p = s.readCmd q h p := by
  unfold State.takeCmd
  dsimp only
  split
  all_goals
    split
    · exact Or.inl rfl
    · exact Or.inr rfl

/-- A queue that has just halted starts nothing. -/
theorem State.haltQ_mayStart (s : State) (q c : Nat) (h : BitVec 64) : (s.haltQ q c).mayStart q h = false := by
  have hr : (s.haltQ q c).queueRuns q = false := by
    rw [State.queueRuns, s.haltQ_halted q c]
    simp
  rw [State.mayStart, hr]
  simp

theorem State.takeCmd_of_mayStart {s : State} {q : Nat} {h : BitVec 64} {p : Payload}
    (hm : (s.takeCmd q h p).mayStart q h = true) : s.takeCmd q h p = s.readCmd q h p := by
  refine (s.takeCmd_cases q h p).resolve_left fun he => ?_
  rw [he, State.haltQ_mayStart] at hm
  exact absurd hm (by decide)

/-- The command as its queue holds it once it has started. -/
def startedCmd (h : BitVec 64) (p : Payload) (now : BitVec 64) : Cmd := { hdr := h, pay := p, start := now }

theorem State.cq_of_butRegs {s t : State} (h : t.butRegs = s.butRegs) (q : Nat) : t.cq q = s.cq q :=
  (congrArg (fun u : State => u.cq q) h :)

theorem State.readCmd_cq (s : State) (q : Nat) (h : BitVec 64) (p : Payload) : (s.readCmd q h p).cq q =
    { s.cq q with next := some (hdSEQ h + 1), read := (s.cq q).read ++ [(h, p)], total := (s.cq q).total + 1 } :=
  (State.cq_of_butRegs (State.fset_butRegs _ _ _) q).trans (State.setCq_cq_self _ _ _)

theorem State.readCmd_butQueues (s : State) (q : Nat) (h : BitVec 64) (p : Payload) :
    (s.readCmd q h p).butQueues = s.butQueues :=
  (State.butQueues_of_butRegs (State.fset_butRegs _ _ _)).trans (State.setCq_butQueues _ _ _)

theorem State.setCq_reg (s : State) (q : Nat) (x : CQ) (k : Nat) : (s.setCq q x).reg k = s.reg k := rfl

theorem State.readCmd_reg (s : State) (q : Nat) (h : BitVec 64) (p : Payload) {k : Nat} (hk : k ≠ Reg.PLN_CQ_STATUS q) :
    (s.readCmd q h p).reg k = s.reg k :=
  (State.fset_reg_ne _ _ _ _ hk).trans (State.setCq_reg _ _ _ _)

theorem State.beginCmd_spec (s : State) (q : Nat) (h : BitVec 64) (p : Payload) :
    (s.beginCmd q h p).cq q =
      { s.cq q with read := (s.cq q).read.drop 1, infl := (s.cq q).infl ++ [startedCmd h p s.now] } ∧
    (s.beginCmd q h p).butQueues = s.butQueues ∧ (s.beginCmd q h p).fence = s.fence ∧
    ∀ k, k ≠ Reg.PLN_CQ_STATUS q → (s.beginCmd q h p).reg k = s.reg k := by
  have hc (t : State) : (t.showInfl q).cq q = t.cq q := State.cq_of_butRegs (State.fset_butRegs _ _ _) q
  have hb (t : State) : (t.showInfl q).butQueues = t.butQueues := State.butQueues_of_butRegs (State.fset_butRegs _ _ _)
  have hf (t : State) : (t.showInfl q).fence = t.fence := rfl
  have hr (t : State) (k : Nat) (hk : k ≠ Reg.PLN_CQ_STATUS q) : (t.showInfl q).reg k = t.reg k :=
    State.fset_reg_ne _ _ _ _ hk
  unfold State.beginCmd
  dsimp only
  exact ⟨(hc _).trans (State.setCq_cq_self _ _ _), (hb _).trans (State.setCq_butQueues _ _ _), hf _,
    fun k hk => (hr _ k hk).trans (State.setCq_reg _ _ _ _)⟩

/-- Of a command that is accepted: how its queue stands, and what else has changed. -/
theorem State.begun_spec {s : State} {q : Nat} {h : BitVec 64} {p : Payload} (ha : s.accepts q h p) :
    ((s.begun q h p).cq q).infl = [startedCmd h p s.now] ∧ (s.begun q h p).butQueues = s.butQueues ∧
    (∀ k, k ≠ Reg.PLN_CQ_STATUS q → (s.begun q h p).reg k = s.reg k) ∧
    ((s.begun q h p).fullFence h p = true → (s.begun q h p).fence = some (q, hdSEQ h)) := by
  obtain ⟨-, -, hinfl, hmay, -, -⟩ := ha
  have ht := State.takeCmd_of_mayStart hmay
  have hc := s.readCmd_cq q h p
  have hb := s.readCmd_butQueues q h p
  have hr := fun k => s.readCmd_reg q h p (k := k)
  have hnow := State.now_of_butQueues hb
  unfold State.begun
  rw [ht]
  generalize s.readCmd q h p = t at *
  obtain ⟨b1, b2, -, b4⟩ := t.beginCmd_spec q h p
  dsimp only
  generalize t.beginCmd q h p = u at *
  have hfull (f : Option (Nat × BitVec 32)) : ({ u with fence := f } : State).fullFence h p = u.fullFence h p := rfl
  have hcq : (u.cq q).infl = [startedCmd h p s.now] := by rw [b1, hc, hnow, hinfl]; rfl
  split
  next hf => exact ⟨hcq, (u.butQueues_fence _).trans (b2.trans hb), fun k hk => (b4 k hk).trans (hr k hk), fun _ => rfl⟩
  next hf => exact ⟨hcq, b2.trans hb, fun k hk => (b4 k hk).trans (hr k hk), fun hf' => absurd hf' hf⟩

theorem State.startHead_of_accepts {s : State} {q : Nat} {h : BitVec 64} {p : Payload} (ha : s.accepts q h p)
    (act : State → BitVec 64 → Payload → State) : (s.takeCmd q h p).startHead q act = act (s.begun q h p) h p := by
  obtain ⟨-, hread, -, hmay, howed, hmal⟩ := ha
  unfold State.startHead
  rw [hread]
  dsimp only
  rw [if_neg (by rw [hmay]; decide), if_neg (by rw [howed]; decide)]
  exact if_neg (by
    unfold State.begun at hmal
    dsimp only at hmal
    rw [hmal]
    decide)

theorem State.place_eq (s : State) (q code : Nat) (h : BitVec 64) (p : Payload) : s.place q code h p =
    if s.queueRuns q = false then s
    else if ((s.takeCmd q (BitVec.ofNat 8 code ++ (h.truncate 56 : BitVec 56)) p).cq q).read =
        [(BitVec.ofNat 8 code ++ (h.truncate 56 : BitVec 56), p)] then
      (s.takeCmd q (BitVec.ofNat 8 code ++ (h.truncate 56 : BitVec 56)) p).startHead q fun s h p => s.runCmd q h p
    else s.takeCmd q (BitVec.ofNat 8 code ++ (h.truncate 56 : BitVec 56)) p := rfl

theorem header_of_code {h : BitVec 64} {code : Nat} (hc : hdCMD h = code) :
    BitVec.ofNat 8 code ++ (h.truncate 56 : BitVec 56) = h := by
  subst hc
  apply BitVec.eq_of_toNat_eq
  have h1 := h.isLt
  rw [BitVec.toNat_append, hdCMD, bits64]
  simp only [BitVec.toNat_ofNat, BitVec.truncate_eq_setWidth, BitVec.toNat_setWidth]
  rw [Nat.shiftLeft_eq, mul_comm, ← Nat.two_pow_add_eq_or_of_lt (Nat.mod_lt _ (by decide))]
  omega

/-- An accepted command runs on the state in which it has just started. -/
theorem State.place_of_accepts {s : State} {q code : Nat} {h : BitVec 64} {p : Payload} (ha : s.accepts q h p)
    (hc : hdCMD h = code) : s.place q code h p = (s.begun q h p).runCmd q h p := by
  have hr := ha.1
  have hread := ha.2.1
  rw [State.place_eq, header_of_code hc, if_neg (by rw [hr]; decide), if_pos hread, State.startHead_of_accepts ha]

/-! ## The end of a command -/

theorem State.finishCmd_cq (s : State) (q : Nat) (seq : BitVec 32) (c : Code) (k : Nat) :
    ((s.finishCmd q seq c k).cq q).infl = (s.cq q).infl.map fun x =>
      if hdSEQ x.hdr = seq then (if x.done then x else { x with done := true, code := c, cause := k }) else x := by
  rw [State.finishCmd, State.modCmd, State.setCq_cq_self]

theorem State.finishCmd_butQueues (s : State) (q : Nat) (seq : BitVec 32) (c : Code) (k : Nat) :
    (s.finishCmd q seq c k).butQueues = s.butQueues := rfl

theorem State.finishCmd_reg (s : State) (q : Nat) (seq : BitVec 32) (c : Code) (k i : Nat) :
    (s.finishCmd q seq c k).reg i = s.reg i := rfl

/-- The only started command of its queue, when it ends, is done with its code. -/
theorem State.finishCmd_isDone {s : State} {q : Nat} {h : BitVec 64} {p : Payload} {now : BitVec 64}
    (hi : (s.cq q).infl = [startedCmd h p now]) (c : Code) (k : Nat) :
    (s.finishCmd q (hdSEQ h) c k).isDone q (hdSEQ h) c := by
  have hx : ((s.finishCmd q (hdSEQ h) c k).cq q).infl =
      [{ startedCmd h p now with done := true, code := c, cause := k }] := by
    rw [State.finishCmd_cq, hi, List.map_singleton]
    exact congrArg (fun x => [x]) (if_pos rfl)
  unfold State.isDone
  rw [hx]
  refine ⟨⟨_, List.mem_singleton_self _, rfl⟩, fun x hx _ => ?_⟩
  rw [List.mem_singleton.mp hx]
  exact ⟨rfl, rfl⟩

theorem State.cq_of_butRecords {s t : State} (h : t.butRecords = s.butRecords) (q : Nat) : t.cq q = s.cq q :=
  (congrArg (fun u : State => u.cq q) h :)

end Sys2Proof.Machine
end
